-- ==== Sys2Proof/Word.lean ====
section
/-!
DEFINITION. The word types of the A960 and bit fields of a word.
-/
namespace Sys2Proof

/-- A byte of device memory. -/
abbrev Byte := BitVec 8

/-- A 64-bit register, counter or sync-cell word (R8, R14, R215). -/
abbrev Word := BitVec 64

/-- A 32-bit word. -/
abbrev Half := BitVec 32

end Sys2Proof
end

