-- ==== Sys2Proof/Machine/Packets.lean ====
section
/-!
DEFINITION. What travels: host command packets and completion entries (R470, R473), canal packets (R320 to R322), link packets
and frames (R349 to R352), and the status and event codes of R496 and R497.
-/
namespace Sys2Proof.Machine

/-- An instruction of the boundary-scan register (R638): the standard's own, the EXTEST family, and the non-public ones. -/
inductive ScanOp where
  | bypass | idcode | samplePreload | extestFamily | nonPublic
  deriving DecidableEq, Repr

/-- The status codes of R496. -/
inductive Status where
  | ok | started | busy | badSequence | badHeader | badOpcode | badLength | badParam | badDest | unreachable | notGateway
  | waitExpired | notPermitted | noJob | jobStopped | badState
  | waitSlot | waitSpires | waitEpochSlot | waitTasks | waitParent | waitSpeculation | waitIdle | waitOrdered | waitMirror
  | waitStepEnd | waitGangSlot
  | copyAddress | retireFull | retireDuplicate
  | taskFault | taskTimeout | taskAborted | epochDiscarded | skippedPredicate | skippedFrozen | gangFenced | latencyMismatch
  | epochUnknown | epochDuplicate | programInvalid | graphInvalid | graphFailed
  | collAddress | collCapacityExceeded | collBadRoute | collAborted | copiesDropped | stepMismatch | jobMismatch
  | mappingInvalid | pairOneSided | groupInvalid | tablesUnbuildable
  | ckptNotFound | basinFull | basinReadFailed | ckptIncomplete
  | rungFailed | resetDone | capOutOfRange | stateInvalid | authFailed | journalRange | testRefused
  deriving DecidableEq, Repr

/-- The code of a status (R496). -/
def statusCode : Status → Nat
  | .ok => 0x0000 | .started => 0x0001 | .busy => 0x0002 | .badSequence => 0x0003 | .badHeader => 0x0004
  | .badOpcode => 0x0005 | .badLength => 0x0006 | .badParam => 0x0007 | .badDest => 0x0008 | .unreachable => 0x0009
  | .notGateway => 0x000A | .waitExpired => 0x000B | .notPermitted => 0x000C | .noJob => 0x000D | .jobStopped => 0x000E
  | .badState => 0x000F | .waitSlot => 0x0010 | .waitSpires => 0x0011 | .waitEpochSlot => 0x0012 | .waitTasks => 0x0013
  | .waitParent => 0x0014 | .waitSpeculation => 0x0015 | .waitIdle => 0x0016 | .waitOrdered => 0x0017
  | .waitMirror => 0x0018 | .waitStepEnd => 0x0019 | .waitGangSlot => 0x001A
  | .copyAddress => 0x0201 | .retireFull => 0x0202 | .retireDuplicate => 0x0203
  | .taskFault => 0x0301 | .taskTimeout => 0x0302 | .taskAborted => 0x0303 | .epochDiscarded => 0x0304
  | .skippedPredicate => 0x0305 | .skippedFrozen => 0x0306 | .gangFenced => 0x0307 | .latencyMismatch => 0x0308
  | .epochUnknown => 0x0309 | .epochDuplicate => 0x030A | .programInvalid => 0x030B | .graphInvalid => 0x030C
  | .graphFailed => 0x030D
  | .collAddress => 0x0401 | .collCapacityExceeded => 0x0402 | .collBadRoute => 0x0403 | .collAborted => 0x0404
  | .copiesDropped => 0x0405 | .stepMismatch => 0x0406 | .jobMismatch => 0x0407 | .mappingInvalid => 0x0408
  | .pairOneSided => 0x0409 | .groupInvalid => 0x040A | .tablesUnbuildable => 0x040B
  | .ckptNotFound => 0x0501 | .basinFull => 0x0502 | .basinReadFailed => 0x0503 | .ckptIncomplete => 0x0504
  | .rungFailed => 0x0601 | .resetDone => 0x0602 | .capOutOfRange => 0x0701 | .stateInvalid => 0x0702
  | .authFailed => 0x0801 | .journalRange => 0x0901 | .testRefused => 0x0902

/-- The statuses of kind Fail (R496): every status that is not OK or Info. -/
def statusFails : Status → Bool
  | .ok | .started | .waitSlot | .waitSpires | .waitEpochSlot | .waitTasks | .waitParent | .waitSpeculation | .waitIdle
  | .waitOrdered | .waitMirror | .waitStepEnd | .waitGangSlot | .epochDiscarded | .skippedPredicate | .skippedFrozen
  | .copiesDropped | .resetDone => false
  | _ => true

/-- The events of R497. -/
inductive Event where
  | eventsLost | pageFault | towerThrottle | retireAdvised | epochStalled | phaseHold | timebaseAlarm | mirrorCommitted
  | collDone | collStall | stepDecided | lossScaleStuck | mcStuck | errorRecord | jobStop
  deriving DecidableEq, Repr

/-- The code of an event (R497). -/
def eventCode : Event → Nat
  | .eventsLost => 0x0001 | .pageFault => 0x0201 | .towerThrottle => 0x0202 | .retireAdvised => 0x0203
  | .epochStalled => 0x0301 | .phaseHold => 0x0401 | .timebaseAlarm => 0x0402 | .mirrorCommitted => 0x0403
  | .collDone => 0x0404 | .collStall => 0x0405 | .stepDecided => 0x0406 | .lossScaleStuck => 0x0407
  | .mcStuck => 0x0601 | .errorRecord => 0x0602 | .jobStop => 0x0603

/-- The disposition of an entry (R473). -/
inductive Disp where
  | served | delayed | refused | event
  deriving DecidableEq, Repr

/-- A completion-queue entry (R473) without its phase bit, which the write to the queue adds (R468). For an event, `seq` holds
SOURCE and ESEQ and `tAccept`, `tDone` the two halves of the time (R475). -/
structure CqEntry where
  status : Nat
  disp : Disp
  final : Bool
  module : Nat
  seq : Nat
  tAccept : Nat
  tDone : Nat
  r0 : Nat
  r1 : Nat
  r2 : Nat
  r3 : Nat
  deriving DecidableEq, Repr

/-- The disposition's two bits (R473). -/
def dispCode : Disp → Nat
  | .served => 0 | .delayed => 1 | .refused => 2 | .event => 3

/-- The 32 bytes of an entry as one number, with the phase bit (R473). -/
def entryWord (e : CqEntry) (phase : Nat) : Nat :=
  e.status % 0x10000 + (dispCode e.disp * 64 + (if e.final then 32 else 0) + phase % 2) * 0x10000
    + (e.module % 64) * 2 ^ 24 + (e.seq % 2 ^ 32) * 2 ^ 32 + (e.tAccept % 2 ^ 32) * 2 ^ 64 + (e.tDone % 2 ^ 32) * 2 ^ 96
    + (e.r0 % 2 ^ 32) * 2 ^ 128 + (e.r1 % 2 ^ 32) * 2 ^ 160 + (e.r2 % 2 ^ 32) * 2 ^ 192 + (e.r3 % 2 ^ 32) * 2 ^ 224

/-- A command packet: 512 little-endian bytes, header and parameters (R470). -/
abbrev Packet := BitVec 4096

/-- `n` bytes of a packet from byte `o`, as a number. -/
def pktAt (p : Packet) (o n : Nat) : Nat := p.toNat / 2 ^ (8 * o) % 2 ^ (8 * n)

/-- `n` parameter bytes from parameter byte `o` (the parameter area starts at byte 64, R470). -/
def parAt (p : Packet) (o n : Nat) : Nat := pktAt p (64 + o) n

/-- What a signal carries (R322): also the fields of a link SIG (R352). -/
structure SigPay where
  cell : Nat
  op : Nat
  n : Nat
  gen : Nat
  origModule : Nat
  origSpire : Nat
  deriving DecidableEq, Repr

/-- A canal packet (R319 to R322). `dkind` 0 site, 1 slice, 2 multicast group, 3 agent; `skind` 0 site, 1 agent. `data` are the
bytes of its data flits, in ascending order. `tree` marks a copy that a tree router has forked (R334), a mark of the model's own. -/
structure CPkt where
  tc : Nat
  typ : Nat
  dkind : Nat
  dest : Nat
  skind : Nat
  src : Nat
  len : Nat
  spec : Nat
  qmask : Nat
  status : Nat
  tag : Nat
  addr : Nat
  sig : SigPay
  data : List Byte
  tree : Bool
  deriving DecidableEq, Repr

/-- The payload of a link packet by its type (R351, R352). -/
inductive LBody where
  | sig (p : SigPay) (mc : Bool) (dest : Nat)
  | sigAck (status : Nat)
  | hcp (pkt : Packet)
  | hcpReply (e : CqEntry) (queue : Nat)
  | streamOpen (addr len collId kind orig : Nat)
  | streamAck (status : Nat)
  | time (response : Bool) (t1 t2 t3 : Nat)
  | phase (release : Bool) (index tc : Nat)
  | stop (kind srcPos jobId : Nat)
  | ident (podId pos link serial : Nat)
  | mirrorCommit (slot epoch closeTime lastSpec : Nat)
  | mirrorAck (slot epoch : Nat)
  deriving DecidableEq, Repr

/-- A link packet (R351). `table` 0 to 3 names a cut table, 4 the default table. -/
structure LPkt where
  lclass : Nat
  vl : Nat
  tgen : Nat
  table : Nat
  destPos : Nat
  srcPos : Nat
  id : Nat
  body : LBody
  deriving DecidableEq, Repr

/-- The kind of a frame (R349) with what it carries: a DATA frame one stream's bytes, a PACKET frame packets of one class. -/
inductive FrameBody where
  | data (stream nflits : Nat) (bytes : List Byte)
  | packet (lclass vl : Nat) (pkts : List LPkt)
  | idle
  deriving DecidableEq, Repr

/-- A link frame as received (R349): its frame word and body, with the outcome of FEC and CRC (R356). `credClass`, `credVl`,
`credit` are the CREDIT field. -/
structure Frame where
  tgen : Nat
  fseq : Nat
  ack : Nat
  nak : Bool
  credClass : Nat
  credVl : Nat
  credit : Nat
  body : FrameBody
  fecCorrected : Nat
  fecOk : Bool
  crcOk : Bool
  deriving DecidableEq, Repr

end Sys2Proof.Machine
end

