-- ==== Sys2Proof/Machine/Operands.lean ====
section
/-!
DEFINITION. Operand forms of the spire instructions (R85, R119, R130, R149, R178, R189, R201 to R206, R217, R225). The binary form of the
streams is private (R1, R74), so an operand is what the rules name.
-/
namespace Sys2Proof.Machine

/-- The update of a plain cell that a signal or a local operation makes (R217). -/
inductive CellKind where
  | add | dec | fill | drain
  deriving DecidableEq, Repr

/-- An attached signal (R85): at landing or, for a release signal, at issue. -/
structure AttSig where
  release : Bool
  op : CellKind
  cell : Nat
  n : Nat
  deriving DecidableEq, Repr

/-- The format of a vector instruction (R201): F, H as BF16 or FP16, I. -/
inductive VFmt where
  | f | bf16 | fp16 | int
  deriving DecidableEq, Repr

/-- Conditions of VCMP (R201). -/
inductive Cond where
  | eq | ne | lt | le | gt | ge | unord
  deriving DecidableEq, Repr

/-- Selected rounding of a conversion (R55). -/
inductive Rnd where
  | nearest | stochastic | spireDefault
  deriving DecidableEq, Repr

/-- The element formats a conversion names (R38). -/
inductive Elem where
  | fp32 | bf16 | fp16 | e4m3 | e5m2 | e2m3 | e3m2 | e2m1 | int8
  | mxE4m3 | mxE5m2 | mxE2m3 | mxE3m2 | mxE2m1 | mxInt8
  deriving DecidableEq, Repr

/-- A lane-wise vector instruction (R200, R201): destination, sources, mask register `k`; `n` is the lane of VLANE and the selecting mask of VSEL;
`cc` the condition of VCMP. The destination of VCMP and of the mask operations, and the sources of the latter, are mask registers. -/
structure VIns where
  fmt : VFmt
  d : Nat
  a : Nat
  b : Nat
  c : Nat
  k : Nat
  n : Nat
  cc : Cond
  sig : Option AttSig
  deriving DecidableEq, Repr

/-- One side of a conversion (R203, R204): a register, or a segment of an operand tile row from a byte offset. -/
inductive VLoc where
  | reg (v : Nat)
  | row (t r off : Nat)
  deriving DecidableEq, Repr

/-- A conversion (R203, R204, R664). `elem` is the format named: of a register source of VCVTW, of a register target of VCVTN; `half` the packed half of
an H register that VCVTW widens; `fmt` the source format of VCVTN; `tag` the tag a tile-row destination is given. -/
structure VCvt where
  dst : VLoc
  src : VLoc
  fmt : VFmt
  elem : Elem
  half : Nat
  tag : Nat
  rnd : Rnd
  k : Nat
  sig : Option AttSig
  deriving DecidableEq, Repr

/-- A move between a register and a tile row (R205): an accumulator row, or an operand row and the half of the register. -/
structure VMove where
  acc : Bool
  t : Nat
  r : Nat
  half : Nat
  v : Nat
  tag : Nat
  k : Nat
  sig : Option AttSig
  deriving DecidableEq, Repr

/-- A local-store access of the vector engine (R206): data register, index register, base offset, element size. -/
structure VMem where
  v : Nat
  idx : Nat
  base : Nat
  size : Nat
  k : Nat
  sig : Option AttSig
  deriving DecidableEq, Repr

/-- An array instruction (R130, R149): `ctx` none for the full form. A named descriptor gives the operands its slots cover (R178). `disagree` are the
reduction blocks on which the two detectors of R159 disagree. -/
structure ArrIns where
  ctx : Option Nat
  ac : Nat
  ta : Nat
  ta2 : Nat
  tb : Nat
  tb2 : Nat
  accumulate : Bool
  window : Nat
  tm : Nat
  slot : Nat
  p416 : Bool
  half : Nat
  desc : Option Nat
  sig : Option AttSig
  disagree : List Nat := []
  deriving DecidableEq, Repr

/-- A mover tile form (R119, R120): local or global; tile or accumulator; base and stride in the form's granules; scale base and stride in bytes; the tag named. -/
structure TileIns where
  global : Bool
  t : Nat
  base : Nat
  stride : Int
  sbase : Nat
  sstride : Int
  tag : Nat
  desc : Option Nat
  sig : Option AttSig
  deriving DecidableEq, Repr

/-- A mover copy (R86, R178): between a global address and a local-store offset, 1 to 256 barges. -/
structure CopyIns where
  toGlobal : Bool
  gaddr : Nat
  ls : Nat
  n : Nat
  desc : Option Nat
  sig : Option AttSig
  deriving DecidableEq, Repr

/-- The field of a descriptor that DSET writes (R189). -/
inductive DField where
  | hdr
  | count (k : Nat)
  | stride (k s : Nat)
  | base (s : Nat)
  | adv (s : Nat)
  deriving DecidableEq, Repr

/-- Scalar operations of the sequencer (R74, R86). -/
inductive SOp where
  | add | sub | and | or | xor | shl | shr | sra | mul | lt | ltu
  deriving DecidableEq, Repr

/-- A scalar source: a register or an immediate. -/
inductive SSrc where
  | reg (x : Nat)
  | imm (v : Word)
  deriving DecidableEq, Repr

/-- What a sequencer branch tests. -/
inductive BCond where
  | always | eq | ne | lt | ge | ltu | geu
  deriving DecidableEq, Repr

/-- What a branch of the matrix, vector or mover engine tests (R74): a sync cell's state, nothing for an unconditional jump, or, at the end of a counted repeat block, whether the block has run `n` times. -/
inductive CellTest where
  | always
  | counted (n : Nat)
  | isFull (c : Nat)
  | isEmpty (c : Nat)
  | atLeast (c n : Nat)
  deriving DecidableEq, Repr

/-- What an on-die memory or datapath reports beside a landing: nothing; an uncorrectable SECDED error of a structure (0 tile file and scale planes, 1 local store, 2 L1, 3 slice, 4 sync cells,
5 descriptors, 6 Lantern's own; R117, R550); a residue mismatch of the next result with its row, column or lane, check point, predicted and observed residue (R67, R68, R71). -/
inductive Upset where
  | quiet
  | sram (memory : Nat)
  | residue (row col point expected observed : Nat)
  deriving DecidableEq, Repr

/-- What waits for a page that is not present (R172, R262, R390): the mover of a site, the predicate of a node of a graph, the collective of an engine queue. -/
inductive PageWaiter where
  | site (n : Nat)
  | node (g k : Nat)
  | coll (q : Nat)
  deriving DecidableEq, Repr

/-- A remote operation (R225). -/
inductive RemOp where
  | add (n : Nat)
  | fill
  deriving DecidableEq, Repr

/-- The four engines of a spire (R74). -/
inductive Engine where
  | matrix | vector | mover | seq
  deriving DecidableEq, Repr

/-- The tile and copy forms of the mover (R119, R86). -/
inductive MForm where
  | load | loadScale | transposed | accLoad | store | storeScale | accStore | copyIn | copyOut
  deriving DecidableEq, Repr

/-- The array operations (R130). -/
inductive AForm where
  | mma | sp | diag
  deriving DecidableEq, Repr

/-! What reaches a router or an aqueduct receiver. -/

/-- A multicast packet at a router's input, or a copy delivered to the router's own site (R334, R335). -/
inductive McAt where
  | input (port tc : Nat)
  | deliver
  deriving DecidableEq, Repr

/-- A multicast acknowledgement: to a router from one of its branches, with the source and tag of the multicast, or to the source (R336). -/
inductive McAckAt where
  | router (site port src tag : Nat)
  | source (p : CPkt)
  deriving DecidableEq, Repr

/-- How the words of a packet fare on a mesh hop or in a buffer (R323): clean, some corrected, or one uncorrectable. -/
inductive HopWords where
  | clean
  | corrected (words : Nat)
  | uncorrectable
  deriving DecidableEq, Repr

/-- How a flit crosses the aqueduct (R341). -/
inductive AqFlit where
  | good
  | corrected (words : Nat)
  | bad
  deriving DecidableEq, Repr

/-! Answers from other modules that no packet of the manual carries. -/

/-- The pair as the two Lanterns reconfirm it at a rejoin (R569, R571): the partner's logical number, the regions of both modules (base, length, slot addresses), and the partner
channels that both bind (R509). -/
structure PairInfo where
  partner : Nat
  regions : List (Nat × Nat × Nat × Nat)
  pregions : List (Nat × Nat × Nat × Nat)
  chans : List Nat
  deriving DecidableEq, Repr

/-- What the other modules of the job answer to a JOB_START: nothing yet, the same job started, the same job STOPPED there (a rejoin) with this module's pair, where it has one, or another job or record.
No packet of the manual carries it; it is the command's operand. -/
inductive JobReply where
  | none | agree | differ
  | stopped (pair : Option PairInfo)
  deriving DecidableEq, Repr

/-- What the partner answers to a PAIR: nothing yet, or that it names this module, with its slots empty or not, its own regions (base, length, slot addresses here)
and the partner channels that its binding table holds as their counterparts (R509). -/
inductive PairReply where
  | none
  | confirm (empty : Bool) (rs : List (Nat × Nat × Nat × Nat)) (chans : List Nat)
  deriving DecidableEq, Repr

/-- What the partner answers to a restore (R538): nothing yet, that it holds no such source, or its regions have landed whole with their step-state entry. -/
inductive RestoreReply where
  | none | missing
  | landed (step : List Byte)
  deriving DecidableEq, Repr

/-- How a region of the own checkpoint fails its restore (R531, R538): a codeword of a block is uncorrectable, or the region does not match its digest. -/
inductive BadRegion where
  | codeword (region block : Nat)
  | digest (region : Nat)
  deriving DecidableEq, Repr

/-- Who reads a codeword of the basin (R531): a journal load says whether it had read a full record whole. -/
inductive BsnReader where
  | restore | journal (full : Bool) | health (other : Bool) | relocation (epoch : Nat) | superblock
  deriving DecidableEq, Repr

/-- How a codeword read is resolved (R531): as stored, decoded with errors, after retries, rebuilt from parity, or not at all. -/
inductive BsnRead where
  | clean | decoded
  | retried (n : Nat)
  | rebuilt
  | lost
  deriving DecidableEq, Repr

/-- What a boot stage finds (R604): whether its own work was done; the first spire-clock step; routers that failed self-test, failed active rows of arrays as (site, row), sites with a failed spare row, sites
with a failed column, sites that failed otherwise (R136); tower
channels left OFFLINE; expanders at H1 by capacity in MiB in lane-group order, and the bifurcation; whether superblocks and health area were read; the RSEQ of persistence records that do not read whole; factory bad blocks. -/
structure BootInfo where
  done : Bool
  step : Nat
  sites : List Nat
  routers : List Nat
  rows : List (Nat × Nat)
  spares : List Nat
  columns : List Nat
  offline : List Nat
  far : List Nat
  bifur : Nat
  key : Bool
  health : Bool
  unread : List Nat
  factory : List Nat
  deriving DecidableEq, Repr

/-! Events of the lockkeeper's side. -/

/-- A ramp of the vector hold (R585): up for a task's gang, down at a site. -/
inductive VecRamp where
  | up (handle : Nat)
  | down (site : Nat)
  deriving DecidableEq, Repr

/-- How a read of a barge comes out at its channel (R291, R294): the bits that read inverted, by word, data bits 0 to 63 and check bits 64 to 71; or a parity error, once or
again on the retry; or the bits with a severity report of the stack's on-die ECC (R281). -/
inductive TowerRead where
  | words (flips : List (Nat × BitVec 72))
  | severe (flips : List (Nat × BitVec 72))
  | parity (again : Bool)
  deriving DecidableEq, Repr

/-- An SPDM request (R611 to R613): one that opens a session, one that ends it, one for the certificate chain of a slot, a challenge to it with a nonce, one for measurements (0 their number,
1 to 7 one of them, 255 all) with a nonce and whether a signature is asked for, any other. -/
inductive SpdmReq where
  | plain | sessionOpen | sessionEnd
  | certificate (slot : Nat)
  | challenge (slot : Nat) (nonce : BitVec 256)
  | measurements (index : Nat) (nonce : BitVec 256) (sign : Bool)
  deriving DecidableEq, Repr

/-- An IDE key-management exchange (R614): keys programmed for a key set, a key set started, the stream stopped. -/
inductive IdeKm where
  | program (stream kset : Nat)
  | start (kset : Nat)
  | stop
  deriving DecidableEq, Repr

end Sys2Proof.Machine
end

