-- ==== Sys2Proof/Machine/Table.lean ====
section
/-!
DEFINITION. Sparse tables: a list of key and value pairs in one canonical form, keys strictly rising and no entry equal to
what an unlisted key reads as. Device memory, the register file and every indexed structure of the state are such tables.
-/
namespace Sys2Proof.Machine

/-- A sparse table: keys strictly rising, no entry at its default. -/
abbrev Table (α : Type) := List (Nat × α)

/-- What a table holds at a key: the entry, or the default of the key. -/
def tget {α : Type} (d : Nat → α) (t : Table α) (k : Nat) : α :=
  match t with
  | [] => d k
  | (i, v) :: r => if i = k then v else if k < i then d k else tget d r k

/-- Write without regard to the default: insert or replace, keeping the keys rising. -/
def tinsert {α : Type} (t : Table α) (k : Nat) (v : α) : Table α :=
  match t with
  | [] => [(k, v)]
  | (i, w) :: r => if i = k then (k, v) :: r else if k < i then (k, v) :: (i, w) :: r else (i, w) :: tinsert r k v

/-- Remove a key. -/
def terase {α : Type} (t : Table α) (k : Nat) : Table α :=
  match t with
  | [] => []
  | (i, w) :: r => if i = k then r else if k < i then (i, w) :: r else (i, w) :: terase r k

/-- Write an entry; writing the default of the key removes it. -/
def tset {α : Type} [DecidableEq α] (d : Nat → α) (t : Table α) (k : Nat) (v : α) : Table α :=
  if v = d k then terase t k else tinsert t k v

/-- Canonical form: keys strictly rising and no entry at its default. -/
abbrev twf {α : Type} (d : Nat → α) (t : Table α) : Prop :=
  t.Pairwise (fun a b => a.1 < b.1) ∧ ∀ e ∈ t, e.2 ≠ d e.1

/-- The entry of a key where the default is "nothing listed". -/
def tfind {α : Type} (t : Table α) (k : Nat) : Option α :=
  match t with
  | [] => none
  | (i, v) :: r => if i = k then some v else if k < i then none else tfind r k

/-- Put an element before the first whose key is not below its own. -/
def putOn {α : Type} (key : α → Nat) (x : α) : List α → List α
  | [] => [x]
  | y :: r => if Nat.ble (key x) (key y) then x :: y :: r else y :: putOn key x r

/-- In rising order of a key; elements of one key stay in their order. -/
def sortOn {α : Type} (key : α → Nat) : List α → List α
  | [] => []
  | x :: r => putOn key x (sortOn key r)

/-- Device memory: (address, byte) pairs; an address not listed reads zero (R241, R296). -/
abbrev Memory := List Host.Cell

/-- What a byte that nothing has written reads as: the zero of R241 and R296. -/
def memDefault : Nat → Byte := fun _ => 0

/-- Canonical form of memory: addresses strictly rising, no byte that reads as an unlisted address does. -/
abbrev Memory.wf (m : Memory) : Prop := twf memDefault m

/-- One byte. -/
def Memory.readByte (m : Memory) (a : Nat) : Byte := tget memDefault m a

/-- Store one byte. -/
def Memory.writeByte (m : Memory) (a : Nat) (b : Byte) : Memory := tset memDefault m a b

/-- `n` bytes from `a`, lowest address first. -/
def Memory.readBytes (m : Memory) (a n : Nat) : List Byte := (List.range n).map (fun i => Memory.readByte m (a + i))

/-- Store bytes at rising addresses from `a`. -/
def Memory.writeBytes (m : Memory) (a : Nat) (bs : List Byte) : Memory :=
  match bs with
  | [] => m
  | b :: r => Memory.writeBytes (Memory.writeByte m a b) (a + 1) r

/-- The `n` little-endian bytes of a number. -/
def bytesLE (n v : Nat) : List Byte :=
  match n with
  | 0 => []
  | n + 1 => BitVec.ofNat 8 v :: bytesLE n (v / 256)

/-- The number that little-endian bytes spell. -/
def natLE (bs : List Byte) : Nat := bs.foldr (fun b v => b.toNat + 256 * v) 0

/-- Store the `n` little-endian bytes of a number. -/
def Memory.writeLE (m : Memory) (a n v : Nat) : Memory := Memory.writeBytes m a (bytesLE n v)

/-- Little-endian value of `n` bytes from `a`. -/
def Memory.readLE (m : Memory) (a n : Nat) : Nat := natLE (Memory.readBytes m a n)

end Sys2Proof.Machine
end

