-- ==== Sys2Proof/Machine/TypesWork.lean ====
section
/-!
DEFINITION. State of the work Lantern runs beside tasks: programs, task graphs (R488, R489), collectives and token exchanges (R387 to R413), step-ends
(R422, R423), stage queues (R453 to R455), checkpoints and the basin (R527 to R542).
-/
namespace Sys2Proof.Machine

/-- A loaded program (R485): its handle, image and size. -/
structure Program where
  handle : Word
  addr : Nat
  size : Nat
  deriving DecidableEq, Repr

/-- Where a graph node stands. `wait` until it is eligible, `ready` between its eligibility and its start. -/
inductive NodeSt where
  | wait | ready | running | done | skipped | failed
  deriving DecidableEq, Repr

/-- A graph node as read at admission (R488): kind, COMPLETION, predecessors, predicate record, argument address; where it stands; whether its predicate waits for a page, since when, and whether for its migration (R172, R262). -/
structure GNode where
  kind : Nat
  comp : Bool
  preds : List Nat
  pred : BitVec 256
  args : Nat
  st : NodeSt
  asked : Bool
  askedAt : Nat := 0
  migr : Bool := false
  deriving DecidableEq, Repr

/-- A graph by the DSEQ of its command (R489): nodes, the nodes eligible in the order in which they became so (R167), the first that failed. -/
structure Graph where
  nodes : List GNode
  elig : List Nat
  failed : Option Nat
  deriving DecidableEq, Repr

/-- One bucket's share of a piece on a hop (R394, R396, R399): its header fields and its elements. -/
structure Part where
  scale : Int
  ovf : Bool
  empty : Bool
  localSq : Half
  redSq : Half
  data : List Byte
  deriving DecidableEq, Repr

/-- What a stream of the collectives engine says (R394, R401, R403, R405, R406). The manual names what the header barges carry and not their layout. -/
inductive CollBody where
  | reduce (first piece : Nat) (parts : List Part)
  | gather (first piece : Nat) (parts : List Part)
  | count (units : Nat)
  | reply (excess : Bool)
  | block (data : List Byte)
  | run (expert slot : Nat) (origins : List Nat) (rows : List Byte)
  | back (copies : List Nat) (rows : List Byte)
  | offers (counts : List Nat) (bad : Bool)
  | places (pairs : List (Nat × Nat)) (excess bad : Bool)
  deriving DecidableEq, Repr

/-- A message between members: collective, digest of the descriptor (R388), index of the sender. -/
structure CollMsg where
  collId : Nat
  digest : Word
  src : Nat
  body : CollBody
  deriving DecidableEq, Repr

/-- Buckets that run together on a member (R400): first, how many, messages received and expected, whether this member contributes to each. -/
structure Ring where
  first : Nat
  len : Nat
  got : Nat
  want : Nat
  deriving DecidableEq, Repr

/-- What a member knows of a bucket (R396, R399): OVF, EMPTY, its REDSQ so far by piece, LOCAL_SQ, the scales of its pieces, whether it contributes. -/
structure Bkt where
  contrib : Bool
  ovf : Bool
  empty : Bool
  localSq : Half
  sqs : Table Half
  scales : Table Int
  deriving DecidableEq, Repr

/-- A collective on an engine queue (R388 to R411): the descriptor's address and 128 bytes; what it answers to and where its events go; its start; status; an address whose page it waits for, since when, and whether for its migration (R390); its path
(`bucketed` now, `fixed` after a swap, R400); buckets ready and started, since when the oldest of them waits, the last poll; rings running; buckets; bytes sent,
groups, suppressed; the last activity and whether a stall is reported; for tokens: members whose counts and replies are held, flags seen, placement and payload done,
copies accepted and landed by local expert, experts padded; results; whether all of its own work is done. -/
structure Coll where
  addr : Nat
  d : BitVec 1024
  cmd : Option Nat
  node : Option (Nat × Nat)
  dst : Option (Nat × Nat × Nat)
  step : Bool
  tStart : Nat
  status : Status
  pageWait : Option Nat
  pageAt : Nat := 0
  pageMigr : Bool := false
  bucketed : Bool
  fixed : Bool
  switched : Bool
  usedBucketed : Bool
  ready : Nat
  started : Nat
  readySince : Nat
  lastPoll : Nat
  due : Bool
  rings : List Ring
  bkts : Table Bkt
  bytes : Nat
  groups : Nat
  suppressed : Nat
  last : Nat
  stalled : Bool
  counts : List Nat
  replies : List Nat
  bad : Bool
  excess : Bool
  badToken : Nat
  badRank : Nat
  placed : Bool
  payload : Bool
  units : Table Nat
  accepted : Table Nat
  landed : Table Nat
  padded : List Nat
  blocks : List Nat
  a : Nat
  b : Nat
  recv : Nat
  maxOff : Nat
  window : Nat := 0
  deriving DecidableEq, Repr

/-- A collective waiting for its engine queue; Lantern forms the descriptor of a step-end's (R424). -/
structure CollWait where
  addr : Nat
  desc : Option (BitVec 1024)
  cmd : Option Nat
  node : Option (Nat × Nat)
  dst : Option (Nat × Nat × Nat)
  step : Bool
  deriving DecidableEq, Repr

/-- The job (R448, R490): its mapping record, page-table root, link mode, and whether it was started here at all. -/
structure Job where
  mapping : BitVec 512
  root : Nat
  redrawn : Bool
  deriving DecidableEq, Repr

/-- The collectives engine (R387): by queue, what runs and what waits; messages sent, newest last (the model's record), with the member's position. -/
structure Engine16 where
  running : Table Coll
  waiting : Table (List CollWait)
  sent : List (Nat × CollMsg)
  deriving DecidableEq, Repr

/-- The step-end that runs on the module (R423): what it answers to, its descriptor, and the state captured; `decided` holds outcome, κ, norm, EXP after. -/
structure StepEnd where
  cmd : Option Nat
  node : Option (Nat × Nat)
  d : BitVec 1024
  exp : Int
  clean : Nat
  steps : Nat
  tCapture : Nat
  deriving DecidableEq, Repr

/-- A stage queue (R453 to R455): its entry; micro-batches sent or arrived, credited or freed; the time up to which its stall is counted; sent and not yet acknowledged. -/
structure StageQ where
  entry : BitVec 512
  ahead : Nat
  behind : Nat
  since : Nat
  lastPoll : Nat
  flying : List Nat
  deriving DecidableEq, Repr

/-- A region of a checkpoint (R536). -/
structure CkRegion where
  base : Nat
  len : Nat
  partner : Bool
  deriving DecidableEq, Repr

/-- A checkpoint held by the basin (R533, R536, R537): `state` 0 COMPLETE, 1 DAMAGED, 2 WRITING; the commit record's fields; the regions' bytes, by address for the own section
and for the partner section by its address in the partner's layout; units used. -/
structure Ckpt where
  epoch : Nat
  job : Word
  logical : Nat
  plogical : Nat
  state : Nat
  bytes : Nat
  tCapture : Nat
  tCommit : Nat
  spec : Nat
  step : List Byte
  pmirror : List Byte
  regions : List CkRegion
  own : Memory
  partner : Memory
  units : Nat
  deriving DecidableEq, Repr

/-- A capture in progress (R534, R535): the checkpoint being written with what it has read, the chunks of the own section left, chunks a write waits on since when, and the command. -/
structure Capture where
  ck : Ckpt
  left : List Nat
  held : Table Nat
  reclaim : List Nat
  cmd : Nat
  deriving DecidableEq, Repr

/-- A block of NAND (R527, R541, R542), by die · 6250 + block: cycles, when it was programmed (ns), reads since, whether it holds data, and bad. -/
structure NandBlock where
  cycles : Nat
  progAt : Nat
  reads : Nat
  data : Bool
  bad : Bool
  deriving DecidableEq, Repr

/-- The basin (R527 to R542): checkpoints oldest first, a capture, a restore (command, epoch, source), blocks, the end of the last patrol pass,
blocks read in the pass that runs, the media key's generation, persistence records written, highest wear notice given, the retirement table's copy and factory bad blocks. -/
structure Basin where
  ckpts : List Ckpt
  capture : Option Capture
  restore : Option (Nat × Nat × Nat)
  blocks : Table NandBlock
  patrolEnd : Nat
  patrolled : List Nat
  keyGen : Nat
  records : Nat
  wearNote : Nat
  retireCopy : Table Word
  factory : List Nat
  deriving DecidableEq, Repr

end Sys2Proof.Machine
end

