-- ==== Sys2Proof/Syntax.lean ====
section
/-!
DEFINITION. The commands of the A960 seen as a block: one constructor per row of the opcode table. The manual publishes no
encoding of any of them (R1), so their operands are the ones the rules of each row name.
-/
namespace Sys2Proof

open Sys2Proof.Machine

/-- The commands and events of the block. -/
inductive Instr where
  /-- MMA: Matrix engine issues a dense matrix multiply-accumulate, full or split, reading its tiles whole at issue (R130) -/
  | mma (site : Nat) (i : ArrIns)
  /-- MMA_SP: Matrix engine issues a structured-sparse multiply-accumulate, with metadata decoding and skip decisions taken at issue (R149) -/
  | mmaSp (site : Nat) (i : ArrIns)
  /-- MMA_DIAG: Matrix engine issues an element-wise diagonal multiply-accumulate over operand windows (R130) -/
  | mmaDiag (site : Nat) (i : ArrIns)
  /-- INSTRUCTION_LANDING: A fixed-latency instruction writes its destination whole in its landing cycle and fires any landing signal (R77) -/
  | instructionLanding (site : Nat) (u : Upset)
  /-- VADD: Vector add of FP32 or packed 16-bit values (R201) -/
  | vadd (site : Nat) (i : VIns)
  /-- VSUB: Vector subtract (R201) -/
  | vsub (site : Nat) (i : VIns)
  /-- VMUL: Vector multiply (R201) -/
  | vmul (site : Nat) (i : VIns)
  /-- VFMA: Vector fused multiply-add with one rounding (R201) -/
  | vfma (site : Nat) (i : VIns)
  /-- VFMS: Vector fused multiply-subtract (R201) -/
  | vfms (site : Nat) (i : VIns)
  /-- VFNMA: Vector negated fused multiply-add (R201) -/
  | vfnma (site : Nat) (i : VIns)
  /-- VMAX: Vector maximum with NaN and signed-zero rules (R202) -/
  | vmax (site : Nat) (i : VIns)
  /-- VMIN: Vector minimum with NaN and signed-zero rules (R202) -/
  | vmin (site : Nat) (i : VIns)
  /-- VABS: Clear the sign bit of each element (R201) -/
  | vabs (site : Nat) (i : VIns)
  /-- VNEG: Invert the sign bit of each element (R201) -/
  | vneg (site : Nat) (i : VIns)
  /-- VCPSGN: Copy the sign bit between elements (R201) -/
  | vcpsgn (site : Nat) (i : VIns)
  /-- VCMP: Compare elements and write a lane mask (R201) -/
  | vcmp (site : Nat) (i : VIns)
  /-- VSEL: Select per lane between two sources under a mask (R201) -/
  | vsel (site : Nat) (i : VIns)
  /-- VIADD: Integer add of 32-bit lanes (R201) -/
  | viadd (site : Nat) (i : VIns)
  /-- VISUB: Integer subtract of 32-bit lanes (R201) -/
  | visub (site : Nat) (i : VIns)
  /-- VIMUL: Integer multiply keeping low 32 bits (R201) -/
  | vimul (site : Nat) (i : VIns)
  /-- VAND: Bitwise AND of lanes (R201) -/
  | vand (site : Nat) (i : VIns)
  /-- VOR: Bitwise OR of lanes (R201) -/
  | vor (site : Nat) (i : VIns)
  /-- VXOR: Bitwise XOR of lanes (R201) -/
  | vxor (site : Nat) (i : VIns)
  /-- VNOT: Bitwise NOT of lanes (R201) -/
  | vnot (site : Nat) (i : VIns)
  /-- VSHL: Logical shift left of lanes (R201) -/
  | vshl (site : Nat) (i : VIns)
  /-- VSHR: Logical shift right of lanes (R201) -/
  | vshr (site : Nat) (i : VIns)
  /-- VSRA: Arithmetic shift right of lanes (R201) -/
  | vsra (site : Nat) (i : VIns)
  /-- VIMAX: Signed integer maximum of lanes (R201) -/
  | vimax (site : Nat) (i : VIns)
  /-- VIMIN: Signed integer minimum of lanes (R201) -/
  | vimin (site : Nat) (i : VIns)
  /-- VIOTA: Write each lane's index into the lane (R201) -/
  | viota (site : Nat) (i : VIns)
  /-- VLANE: Copy one lane into every lane (R201) -/
  | vlane (site : Nat) (i : VIns)
  /-- KAND: Mask register AND (R201) -/
  | kand (site : Nat) (i : VIns)
  /-- KOR: Mask register OR (R201) -/
  | kor (site : Nat) (i : VIns)
  /-- KXOR: Mask register XOR (R201) -/
  | kxor (site : Nat) (i : VIns)
  /-- KNOT: Mask register NOT (R201) -/
  | knot (site : Nat) (i : VIns)
  /-- VCVTW: Widening conversion of 64 elements to FP32, applying MX scales (R203) -/
  | vcvtw (site : Nat) (i : VCvt)
  /-- VCVTN: Narrowing conversion to a register or tile-row segment with selected rounding (R204) -/
  | vcvtn (site : Nat) (i : VCvt)
  /-- VCVTI: Convert FP32 to INT32 with saturation (R201) -/
  | vcvti (site : Nat) (i : VIns)
  /-- VCVTF: Convert INT32 to FP32 (R201) -/
  | vcvtf (site : Nat) (i : VIns)
  /-- VMXENC: Encode 64 FP32 values into two MX blocks in a tile row and its scale plane (R664) -/
  | vmxenc (site : Nat) (i : VCvt)
  /-- VRSUM: Sum across lanes by a fixed pairwise tree (R208) -/
  | vrsum (site : Nat) (i : VIns)
  /-- VRMAX: Maximum across lanes (R208) -/
  | vrmax (site : Nat) (i : VIns)
  /-- VRMIN: Minimum across lanes (R208) -/
  | vrmin (site : Nat) (i : VIns)
  /-- VEXP2: Base-two exponential approximation (R210) -/
  | vexp2 (site : Nat) (i : VIns)
  /-- VLOG2: Base-two logarithm approximation (R210) -/
  | vlog2 (site : Nat) (i : VIns)
  /-- VRCP: Reciprocal approximation (R210) -/
  | vrcp (site : Nat) (i : VIns)
  /-- VRSQRT: Reciprocal square root approximation (R210) -/
  | vrsqrt (site : Nat) (i : VIns)
  /-- VTANH: Hyperbolic tangent approximation (R210) -/
  | vtanh (site : Nat) (i : VIns)
  /-- VSIGM: Sigmoid approximation (R210) -/
  | vsigm (site : Nat) (i : VIns)
  /-- VDIV: Correctly rounded division (R211) -/
  | vdiv (site : Nat) (i : VIns)
  /-- VSQRT: Correctly rounded square root (R211) -/
  | vsqrt (site : Nat) (i : VIns)
  /-- VTR: Move a tile row into a register as raw bits (R205) -/
  | vtr (site : Nat) (i : VMove)
  /-- VRT: Move a register into a tile row as raw bits, writing the tag it carries (R205) -/
  | vrt (site : Nat) (i : VMove)
  /-- VGATHER: Gather lane elements from local store by index with bank passes (R206) -/
  | vgather (site : Nat) (i : VMem)
  /-- VSCATTER: Scatter lane elements to local store by index (R206) -/
  | vscatter (site : Nat) (i : VMem)
  /-- VLD: Linear 256-byte load from local store (R206) -/
  | vld (site : Nat) (i : VMem)
  /-- VST: Linear 256-byte store to local store (R206) -/
  | vst (site : Nat) (i : VMem)
  /-- TILE_LOAD: Mover loads 32 rows into an operand tile from local store or global memory (R119) -/
  | tileLoad (site : Nat) (i : TileIns)
  /-- TILE_LOAD_SCALE: Mover loads an MX operand tile and its scale plane (R126) -/
  | tileLoadScale (site : Nat) (i : TileIns)
  /-- TRANSPOSED_LOAD: Mover loads source segments transposed into an operand tile (R127) -/
  | transposedLoad (site : Nat) (i : TileIns)
  /-- ACCUMULATOR_LOAD: Mover loads FP32 rows into an accumulator tile (R128) -/
  | accumulatorLoad (site : Nat) (i : TileIns)
  /-- TILE_STORE: Mover stores an operand tile row by row to memory (R124) -/
  | tileStore (site : Nat) (i : TileIns)
  /-- TILE_STORE_SCALE: Mover stores an MX operand tile and its scale plane (R126) -/
  | tileStoreScale (site : Nat) (i : TileIns)
  /-- ACCUMULATOR_STORE: Mover stores an accumulator with conversion to a target tag (R128) -/
  | accumulatorStore (site : Nat) (i : TileIns)
  /-- MOVER_COPY: Mover copies up to 256 barges between local store and global memory (R86) -/
  | moverCopy (site : Nat) (i : CopyIns)
  /-- PREFETCH_HINT: Mover requests 1-16 barges into L1 regardless of PF_RESERVE (R255) -/
  | prefetchHint (site a n : Nat)
  /-- DLOAD: Load a 256-byte descriptor from local store (R189) -/
  | dload (site d off : Nat)
  /-- DSTORE: Store a descriptor to local store (R189) -/
  | dstore (site d off : Nat)
  /-- DCOUNT: Load one 32-bit count field of a descriptor from local store (R189) -/
  | dcount (site d k off : Nat)
  /-- DSET: Sequencer writes one descriptor field from a scalar register (R189) -/
  | dset (site d : Nat) (f : DField) (x : Nat)
  /-- SCALAR_ARITHMETIC: Sequencer scalar arithmetic, logic or multiply (R86) -/
  | scalarArithmetic (site : Nat) (op : SOp) (d : Nat) (a b : SSrc)
  /-- BRANCH: Sequencer branch on scalar registers, taken or not (R74) -/
  | branch (site : Nat) (c : BCond) (a b : SSrc) (target : Nat)
  /-- SYNC_BRANCH: Branch on a sync cell's state, or unconditional jump, on a non-sequencer engine (R86) -/
  | syncBranch (site : Nat) (e : Engine) (c : CellTest) (target : Nat)
  /-- LOOP_ITERATION_ISSUE: The next iteration of a looped instruction issues with slot values from the working copy (R182) -/
  | loopIterationIssue (site : Nat) (e : Engine)
  /-- SYNC_FILL: Set a plain cell's FULL bit (R217) -/
  | syncFill (site : Nat) (e : Engine) (c : Nat)
  /-- DRAIN: Clear a plain cell's FULL bit (R217) -/
  | drain (site : Nat) (e : Engine) (c : Nat)
  /-- ADD: Add to a plain cell's count with saturation (R218) -/
  | add (site : Nat) (e : Engine) (c n : Nat)
  /-- DEC: Decrement a plain cell's count with saturation (R218) -/
  | dec (site : Nat) (e : Engine) (c n : Nat)
  /-- WAITF: Hold issue until a cell is full (R217) -/
  | waitf (site : Nat) (e : Engine) (c : Nat)
  /-- WAITE: Hold issue until a cell is empty (R217) -/
  | waite (site : Nat) (e : Engine) (c : Nat)
  /-- WAITGE: Hold issue until a cell count reaches n (R217) -/
  | waitge (site : Nat) (e : Engine) (c n : Nat)
  /-- WAITGE_TAKE: Wait for a count and take n from it in the issue cycle (R219) -/
  | waitgeTake (site : Nat) (e : Engine) (c n : Nat)
  /-- SREAD: Sequencer copies a whole cell word into a scalar register (R217) -/
  | sread (site x c : Nat)
  /-- BARRIVE: Participant sends a barrier arrival and advances its generation, or is held at PEND 2 (R231) -/
  | barrive (site : Nat) (e : Engine) (c : Nat)
  /-- BWAIT: Hold issue until the participant's pending rounds fall to k (R232) -/
  | bwait (site : Nat) (e : Engine) (c k : Nat)
  /-- SIG: Send an ADD or FILL to a cell of another spire or module (R225) -/
  | sig (site : Nat) (e : Engine) (m l c : Nat) (op : RemOp)
  /-- SIG_MC: Send a signal to a sync group (R225) -/
  | sigMc (site : Nat) (e : Engine) (g : Nat) (op : RemOp)
  /-- FENCE: Hold issue until the named release, signal and acquire conditions hold (R222) -/
  | fence (site : Nat) (e : Engine) (w sg a : Bool)
  /-- END: An engine ends its stream and idles (R97) -/
  | endStream (site : Nat) (e : Engine)
  /-- ENGINE_ISSUE_RESUME: An engine held by a wait, fence, gate, full slot set, empty queue or pause resumes issue (R75) -/
  | engineIssueResume (site : Nat) (e : Engine)
  /-- INSTRUCTION_FETCH_RETURN: A stream fetch returns instructions to an engine's queue, or faults outside the stream (R76) -/
  | instructionFetchReturn (site : Nat) (e : Engine) (n : Nat)
  /-- GLOBAL_ROW_ARRIVAL: A row or barge of a global load arrives and is held in reserved L1 lines (R123) -/
  | globalRowArrival (site seq row : Nat)
  /-- MOVER_ASYNC_LANDING: An asynchronous mover operation completes, lands its destination and fires its signal (R87) -/
  | moverAsyncLanding (site seq : Nat)
  /-- TRANSLATION_WALK_COMPLETE: A page-table walk ends with a translation or a fault (R261) -/
  | translationWalkComplete (site seq barge : Nat)
  /-- XLT_RESOLVE_TIMEOUT: An unresolved translation fault reaches GLB_XLT_RESOLVE_LIM and becomes ADDRESS (R262) -/
  | xltResolveTimeout (w : PageWaiter)
  /-- PREFETCH_ISSUE: A trained prefetch stream issues a prefetch when slots allow (R253) -/
  | prefetchIssue (site k : Nat)
  /-- PREFETCH_ARRIVAL: Prefetched data arrives in L1, or is dropped after an acquire (R252) -/
  | prefetchArrival (p : CPkt)
  /-- SPIRE_START: A spire receives the launch multicast start and starts its four engines (R96) -/
  | spireStart (site : Nat)
  /-- SPIRE_FINISHED: A spire's engines have ended and all its work has landed and completed (R97) -/
  | spireFinished (site : Nat)
  /-- TASK_COMPLETION: Every spire of the gang has finished; Lantern posts the completion and returns spires to IDLE (R97) -/
  | taskCompletion (handle : Nat)
  /-- TASK_WATCHDOG_EXPIRY: A task exceeds its watchdog limit and Lantern aborts it with TIMEOUT (R98) -/
  | taskWatchdogExpiry (handle : Nat)
  /-- GAP_THRESHOLD_REACHED: An array gap reaches GAP_THRESH and enters RAMP_DOWN (R140) -/
  | gapThresholdReached (site c : Nat)
  /-- DUTY_DECREMENT: In RAMP_DOWN the duty falls by 1/64 at each 312.5 ns, reaching QUIET at zero (R140) -/
  | dutyDecrement (site c : Nat)
  /-- DUTY_INCREMENT: In RAMP_UP the duty rises by 1/64 each 64 ns until ACTIVE (R141) -/
  | dutyIncrement (site c : Nat)
  /-- SPARSE_INTERVAL_END: A 64 ns interval ends and is judged sparse or not for the hold state (R163) -/
  | sparseIntervalEnd (site c : Nat)
  /-- GAP_THRESH_WRITE: A write of SPR_ARR_CTL.GAP_THRESH is compared at once with the current gap (R142) -/
  | gapThreshWrite (site v : Nat)
  /-- RSD_INJECT_ARM: A write of SPR_RSD_INJECT arms a one-time residue corruption (R73) -/
  | rsdInjectArm (site v : Nat)
  /-- RNG_SEED_WRITE: A write of SPR_RNG_SEED reseeds every lane generator (R57) -/
  | rngSeedWrite (site : Nat) (v : Word)
  /-- SYNC_CELL_WRITE: A host write replaces a cell word as step 6 of the cycle's updates (R221) -/
  | syncCellWrite (site c : Nat) (v : Word)
  /-- HOLD_LIM_WRITE: A write of SPR_SYNC_HOLD_LIM is compared at once with every running hold (R234) -/
  | holdLimWrite (site v : Nat)
  /-- SYNC_HOLD_LIMIT_REACHED: A barrier hold reaches the limit, sets HOLDFLG and writes a corrected record (R234) -/
  | syncHoldLimitReached (site c eng : Nat)
  /-- REMOTE_SIGNAL_ARRIVAL: A remote signal is applied to its destination cell, or discarded at a fenced site (R226) -/
  | remoteSignalArrival (site : Nat) (p : SigPay)
  /-- BARRIER_ARRIVAL: The home cell counts or holds an arrival by generation (R233) -/
  | barrierArrival (site : Nat) (p : SigPay)
  /-- BARRIER_RELEASE: A release reaches a participant cell and lowers PEND (R232) -/
  | barrierRelease (site : Nat) (p : SigPay)
  /-- RD: Canal read request for one barge arrives at its target (R321) -/
  | rd (p : CPkt)
  /-- RD_DATA: Canal read response arrives at the requester (R321) -/
  | rdData (p : CPkt)
  /-- WR: Canal write request arrives at its home slice or site and is applied or held (R250) -/
  | wr (p : CPkt)
  /-- WR_ACK: Write acknowledgement reaches the writer and frees its barge slot (R321) -/
  | wrAck (p : CPkt)
  /-- CANAL_SIG: Unicast signal, arrival or release packet arrives at its site (R321) -/
  | canalSig (p : CPkt)
  /-- CANAL_SIG_ACK: Delivery acknowledgement of a SIG reaches the sender (R321) -/
  | canalSigAck (p : CPkt)
  /-- MC: A multicast packet reaches a tree router, which takes a fork-state entry and forks branches (R335) -/
  | mc (site : Nat) (w : McAt)
  /-- MC_ACK: A multicast acknowledgement reaches a router or the source and is combined (R336) -/
  | mcAck (w : McAckAt)
  /-- MC_BRANCH_TIMEOUT: A multicast branch waits for TIMEOUT and is recorded as stuck (R337) -/
  | mcBranchTimeout (site port : Nat)
  /-- CFG: Lantern access to a site window or router arrives (R321) -/
  | cfg (p : CPkt)
  /-- CFG_RSP: Response to a CFG reaches Lantern (R321) -/
  | cfgRsp (p : CPkt)
  /-- PACKET_FORWARD: A router output sends a whole credited packet chosen by deficit round robin (R325) -/
  | packetForward (site out : Nat) (w : HopWords)
  /-- CREDIT_RETURN: A freed buffer entry returns a credit to its sender (R325) -/
  | creditReturn (site port tc : Nat)
  /-- AQUEDUCT_FLIT_RECEIVE: An aqueduct flit is checked for errors and sequence, corrected or answered with a replay request (R341) -/
  | aqueductFlitReceive (dir ch : Nat) (r : AqFlit)
  /-- FRAME_RECEIVE: A whole link frame is received, checked, acted on or discarded with NAK (R356) -/
  | frameReceive (n : Nat) (f : Frame)
  /-- LINK_RETRY_LIMIT: Replays reach RETRY_LIM within a window and the link enters RETRAIN (R357) -/
  | linkRetryLimit (n : Nat)
  /-- LINK_ENABLE_WRITE: A write of LNK_CTL.EN brings a link from DISABLED to TRAIN, or disables it (R358) -/
  | linkEnableWrite (n : Nat) (on : Bool)
  /-- LINK_RETRAIN_REQUEST: A write of LNK_CTL.RETRAIN starts RETRAIN, or TRAIN from FAILED or MISWIRED (R357) -/
  | linkRetrainRequest (n : Nat)
  /-- LINK_TRAINING_COMPLETE: PMD training of both lanes succeeds and the link enters ALIGN (R358) -/
  | linkTrainingComplete (n : Nat)
  /-- LINK_ALIGN_COMPLETE: FEC lock and slot alignment complete and the link enters IDENT (R358) -/
  | linkAlignComplete (n : Nat)
  /-- LINK_TRAIN_TIMEOUT: Training exceeds 500 ms and the link fails (R358) -/
  | linkTrainTimeout (n : Nat)
  /-- LINK_ALIGN_TIMEOUT: Alignment exceeds 1 ms; the link retrains or fails after three attempts (R358) -/
  | linkAlignTimeout (n : Nat)
  /-- LINK_IDENT_TIMEOUT: No IDENT match within 100 us returns the link to TRAIN (R358) -/
  | linkIdentTimeout (n : Nat)
  /-- LINK_RETRAIN_TIMEOUT: RETRAIN exceeds 5 ms and the link becomes FAILED (R358) -/
  | linkRetrainTimeout (n : Nat)
  /-- IDENT: An IDENT packet is matched against the predicted neighbour; ACTIVE or MISWIRED (R359) -/
  | ident (n : Nat) (p : LPkt)
  /-- LINK_SIG: A cross-module signal packet arrives and is delivered or forwarded (R352) -/
  | linkSig (n : Nat) (p : LPkt)
  /-- LINK_SIG_ACK: Cross-module signal delivery acknowledgement reaches the sender (R352) -/
  | linkSigAck (n : Nat) (p : LPkt)
  /-- HCP: A forwarded command packet arrives at its destination Lantern for admission (R368) -/
  | hcp (n : Nat) (p : LPkt)
  /-- HCP_REPLY: A forwarded command's status reply reaches the gateway, which writes it to the completion queue (R368) -/
  | hcpReply (n : Nat) (p : LPkt)
  /-- STREAM_OPEN: A stream open allocates a receive context, binding onward at transit modules (R353) -/
  | streamOpen (n : Nat) (p : LPkt)
  /-- STREAM_LANDED: Every write of a stream is acknowledged at the destination, which returns STREAM_ACK (R353) -/
  | streamLanded (n ctx : Nat)
  /-- STREAM_ACK: End-to-end stream completion reaches its originator (R353) -/
  | streamAck (n : Nat) (p : LPkt)
  /-- TIME: A time-base exchange packet arrives and is answered or used for correction (R370) -/
  | timePacket (n : Nat) (p : LPkt)
  /-- TIME_EXCHANGE_TICK: Once per 1 ms window the module starts an exchange with its time parent (R370) -/
  | timeExchangeTick
  /-- TIMEBASE_EXCHANGE_TIMEOUT: No exchange for 10 ms clears LOCKED and raises a timebase alarm (R372) -/
  | timebaseExchangeTimeout
  /-- PHASE_BOUNDARY: A phase-boundary node is reached; the module waits, holds injections and sends a PHASE arrival (R366) -/
  | phaseBoundary (graph node : Nat)
  /-- PHASE_SHADOW_LOADED: Lantern finishes copying the next phase into the shadow bank (R365) -/
  | phaseShadowLoaded
  /-- PHASE: A PHASE arrival reaches the phase home, or a release carrying Tc reaches a module (R366) -/
  | phase (n : Nat) (p : LPkt)
  /-- PHASE_HOLD_LIMIT: The phase home reaches HOLD_LIM, sets ALARM and posts PHASE_HOLD (R366) -/
  | phaseHoldLimit
  /-- BANK_SWAP: At Tc + 2,000 ns the module swaps table banks, flips TGEN and releases injections (R366) -/
  | bankSwap
  /-- STOP: A STOP packet arrives; the first copy is forwarded and the job stop begins (R373) -/
  | stop (n : Nat) (p : LPkt)
  /-- STOP_TIMEOUT: A module still STOPPING at STOP_LIM writes STOP_TIMEOUT and warm-resets (R556) -/
  | stopTimeout
  /-- MIRROR_CHUNK_COPY: The copier sends a dirty or closing chunk to the partner as an L3 stream (R376) -/
  | mirrorChunkCopy (c : Nat)
  /-- MIRROR_EPOCH_COMPLETE: C is empty and all streams complete; the module sends MIRROR_COMMIT (R377) -/
  | mirrorEpochComplete
  /-- MIRROR_COMMIT: The partner records the mirror epoch and answers MIRROR_ACK (R377) -/
  | mirrorCommit (n : Nat) (p : LPkt)
  /-- MIRROR_ACK: The acknowledgement commits the mirror epoch and posts MIRROR_COMMITTED (R377) -/
  | mirrorAck (n : Nat) (p : LPkt)
  /-- COLLECTIVE_START: A collective starts on an engine queue by command, node or successor (R388) -/
  | collectiveStart (q : Nat)
  /-- READY_POLL: Every POLL_NS the engine reads the ready word of the lowest unstarted bucket (R397) -/
  | readyPoll (q : Nat)
  /-- BUCKET_START: A ready bucket or bucketed group starts its ring pass, with count-word suppression (R400) -/
  | bucketStart (q : Nat)
  /-- COALESCE_TIMEOUT: COALESCE_US passes since the first ready bucket and the bucketed group starts (R400) -/
  | coalesceTimeout (q : Nat)
  /-- CONGESTION_WINDOW: A 100 us window ends and AUTO chooses the streamed or bucketed path (R400) -/
  | congestionWindow (q : Nat)
  /-- COLLECTIVE_PIECE_ARRIVAL: A piece arrives; the member checks the digest, adds its values and forwards or holds the result (R394) -/
  | collectivePieceArrival (q : Nat) (m : CollMsg)
  /-- TOKEN_COUNT_ARRIVAL: A source's count vector for an owner's experts arrives (R403) -/
  | tokenCountArrival (q : Nat) (m : CollMsg)
  /-- TOKEN_PLACEMENT: With all counts held the owner places copies, replies and writes count words (R404) -/
  | tokenPlacement (q : Nat)
  /-- TOKEN_REPLY_ARRIVAL: An owner's accepted counts and base slots reach a source (R403) -/
  | tokenReplyArrival (q : Nat) (m : CollMsg)
  /-- TOKEN_PAYLOAD_START: With every reply held the source assigns slots, writes FATE and sends runs (R405) -/
  | tokenPayloadStart (q : Nat)
  /-- TOKEN_PADDING: Once an expert's rows have landed the owner writes zero padding rows (R405) -/
  | tokenPadding (q e : Nat)
  /-- COLLECTIVE_COMPLETION: Writes and streams acknowledged; the engine sends SIG, posts the event and starts NEXT (R409) -/
  | collectiveCompletion (q : Nat)
  /-- COLLECTIVE_STALL: A member sends and receives nothing for STALL_MS and records a stall (R411) -/
  | collectiveStall (q : Nat)
  /-- STAGE_READY_POLL: The OUT engine polls a slot's ready word and sends the slot as a stream (R454) -/
  | stageReadyPoll (q : Nat)
  /-- STAGE_SLOT_ARRIVAL: A micro-batch lands; the IN engine writes the arrival word and signals the consumer (R454) -/
  | stageSlotArrival (q : Nat)
  /-- STAGE_FREE_POLL: The IN engine polls a free word and returns a credit to the OUT end (R454) -/
  | stageFreePoll (q : Nat)
  /-- STAGE_CREDIT_ARRIVAL: A returned credit reaches the OUT engine, which adds one to the credit cell (R454) -/
  | stageCreditArrival (q : Nat)
  /-- PREDICATE_EVALUATION: A node becomes eligible and Lantern evaluates its predicate, launching or skipping it (R167) -/
  | predicateEvaluation (g k : Nat)
  /-- EPOCH_COMMIT_INSTANT: Commit conditions hold; Lantern changes the epoch-state word and marks chunks dirty (R272) -/
  | epochCommitInstant (k : Nat)
  /-- EPOCH_DRAIN_COMPLETE: A draining epoch slot finishes and becomes FREE (R271) -/
  | epochDrainComplete (k : Nat)
  /-- EPOCH_STALL_LIMIT: A waiting held write reaches STALL_LIM; EPOCH_STALLED is posted (R270) -/
  | epochStallLimit (k : Nat)
  /-- SPEC_CTL_WRITE: A write of GLB_SPEC_CTL changes EN only when no task runs and both slots are FREE (R264) -/
  | specCtlWrite (v : Word)
  /-- TOWER_READ_COMPLETE: A channel read returns; correctable words are corrected and written back (R293) -/
  | towerReadComplete (t ch c source : Nat) (r : TowerRead)
  /-- TOWER_REFRESH: A bank's refresh falls due and is issued (R288) -/
  | towerRefresh (t ch bank : Nat) (managed : Bool)
  /-- SCRUB_POSITION_DUE: A scrubber position falls due and its barge is read and checked (R297) -/
  | scrubPositionDue (t : Nat) (flips : List (Nat × BitVec 72))
  /-- CE_WINDOW_START: A correctable-error window starts and per-bank counts restart (R300) -/
  | ceWindowStart (t : Nat)
  /-- TOWER_TEMPERATURE_READ: Each 1 ms the controller reads stack temperature and sets level, refresh and throttle (R289) -/
  | towerTemperatureRead (t temp : Nat)
  /-- CHANNEL_HANG: A request held 1 ms at a channel controller takes the channel OFFLINE (R560) -/
  | channelHang (t ch addr : Nat)
  /-- TOWER_LOG_LOW_READ: Reading a log record's low word latches its high word (R299) -/
  | towerLogLowRead (t n : Nat)
  /-- MARGIN_TEST_START: A write of TWR_MARGIN_CTL.START runs one PRBS margin test (R309) -/
  | marginTestStart (t : Nat) (v : Word)
  /-- MARGIN_TEST_DONE: A tower margin test finishes and reports errors (R309) -/
  | marginTestDone (t errors : Nat)
  /-- FAR_READ_COMPLETION: A far-tier completion arrives; a poisoned one is an uncorrectable error (R308) -/
  | farReadCompletion (k : Nat) (poison : Bool)
  /-- FAR_REQUEST_TIMEOUT: A far request stays uncompleted 10 ms; every far request fails (R308) -/
  | farRequestTimeout
  /-- FAR_LINK_LOSS: H1 loses its link and every far request fails (R308) -/
  | farLinkLoss
  /-- BAR2_READ: A host BAR2 read is applied at home with committed state (R463) -/
  | bar2Read (o n : Nat)
  /-- BAR2_WRITE: A host BAR2 write is applied at home or discarded (R463) -/
  | bar2Write (o : Nat) (bs : List Byte)
  /-- CXL_MEM_ACCESS: A CXL.mem access on H0 behaves as a BAR2 access (R461) -/
  | cxlMemAccess (a n : Nat) (wr : Option (List Byte))
  /-- REGISTER_WRITE: A BAR0 write to a register with no row of its own, under its access codes (R9) -/
  | registerWrite (off : Nat) (v : Word)
  /-- SQ_TAIL_DOORBELL: A write of HCP_SQ_TAIL sets the tail and wakes the fetcher (R467) -/
  | sqTailDoorbell (q v : Nat)
  /-- CQ_HEAD_DOORBELL: A write of HCP_CQ_HEAD frees completion entries, draining the hold (R467) -/
  | cqHeadDoorbell (q v : Nat)
  /-- SQ_ENABLE: Enabling a submission queue zeroes head and tail and loads the expected sequence (R466) -/
  | sqEnable (q : Nat)
  /-- SQ_DISABLE: Disabling a submission queue stops fetch after the current packet (R466) -/
  | sqDisable (q : Nat)
  /-- CQ_ENABLE: Enabling a completion queue zeroes its tail and head view and sets phase 1 (R466) -/
  | cqEnable (q : Nat)
  /-- CQ_DISABLE: Disabling a completion queue discards entries for it (R466) -/
  | cqDisable (q : Nat)
  /-- PACKET_FETCH: The fetcher reads a packet, checks SEQ and header and forwards or admits it (R472) -/
  | packetFetch (q : Nat) (pkt : Packet)
  /-- DELAYED_COMMAND_START: A DELAYED command starts when its wait ends, in class order (R479) -/
  | delayedCommandStart
  /-- WAIT_LIMIT_EXPIRY: A delayed command not started within WAIT_LIMIT ends with WAIT_EXPIRED (R480) -/
  | waitLimitExpiry (id : Nat)
  /-- MSIX_COALESCE_TIMEOUT: The oldest unsignalled entry waits TIME us and the vector is sent (R469) -/
  | msixCoalesceTimeout (q : Nat)
  /-- FUNCTION_LEVEL_RESET: FLR of H0 disables queues, clears MSI-X and zeroes HCP_BAR2_BASE (R464) -/
  | functionLevelReset
  /-- H0_PERST_N_ASSERTION: Assertion of H0_PERST_N is a conventional reset of H0 (R652) -/
  | h0PerstNAssertion
  /-- NOP: No operation (R483) -/
  | nop (id : Nat)
  /-- IDENTIFY: Return stepping, firmware version and serial number (R483) -/
  | identify (id : Nat)
  /-- REG_READ: Read one or two 64-bit words of BAR0 (R483) -/
  | regRead (id : Nat)
  /-- REG_WRITE: Write masked bits of BAR0 and read back (R483) -/
  | regWrite (id : Nat)
  /-- TIME_READ: Return the device time and lock state (R483) -/
  | timeRead (id : Nat)
  /-- COPY: Copy a range of device memory (R484) -/
  | copy (id : Nat)
  /-- FILL: Fill a range of device memory with a pattern (R484) -/
  | fill (id : Nat)
  /-- XLT_INVALIDATE: Invalidate cached translations overlapping a range (R263) -/
  | xltInvalidate (id : Nat)
  /-- PAGE_RESOLVE: Clear or convert translation faults at an address; the mover reissues (R262) -/
  | pageResolve (id : Nat)
  /-- PAGE_MIGRATE: Copy a frame, rewrite its entry, invalidate and clear held faults (R484) -/
  | pageMigrate (id : Nat)
  /-- INTERLEAVE: Change a group's interleave entries (R286) -/
  | interleave (id : Nat)
  /-- RETIRE: Add a retirement table entry (R302) -/
  | retire (id : Nat)
  /-- RETIRE_CLEAR: Clear retirement entries in manufacturing service (R484) -/
  | retireClear (id : Nat)
  /-- PROGRAM_LOAD: Check a program image and record its stream pages (R485) -/
  | programLoad (id : Nat)
  /-- PROGRAM_UNLOAD: Unload a program once no task uses it (R485) -/
  | programUnload (id : Nat)
  /-- LAUNCH: Check a gang, initialise spires and release the task (R95) -/
  | launch (id : Nat)
  /-- GRAPH_SUBMIT: Check and run a task graph (R489) -/
  | graphSubmit (id : Nat)
  /-- PAUSE: Pause a running task, abandoning unlanded mover operations (R102) -/
  | pause (id : Nat)
  /-- RESUME: Resume a paused task, reissuing abandoned mover operations (R102) -/
  | resume (id : Nat)
  /-- ABORT: Pause then end a task with an ABORT fault (R102) -/
  | abort (id : Nat)
  /-- EPOCH_OPEN: Open a speculation epoch in a free slot (R265) -/
  | epochOpen (id : Nat)
  /-- EPOCH_COMMIT: Commit an epoch once its conditions hold (R272) -/
  | epochCommit (id : Nat)
  /-- EPOCH_DISCARD: Discard an epoch and its children, dropping held data (R273) -/
  | epochDiscard (id : Nat)
  /-- TASK_QUERY: Return a running task's state and elapsed time (R485) -/
  | taskQuery (id : Nat)
  /-- POD_CONFIG: Load the logical map and gateway position (R378) -/
  | podConfig (id : Nat)
  /-- JOB_START: Start a job with its mapping record, or rejoin a stopped job (R490) -/
  | jobStart (id : Nat) (r : JobReply)
  /-- JOB_END: End a job once nothing of it remains (R490) -/
  | jobEnd (id : Nat)
  /-- JOB_STOP: Stop a job pod-wide (R554) -/
  | jobStop (id : Nat)
  /-- PAIR: Pair with a partner and declare persistent regions (R374) -/
  | pair (id : Nat) (r : PairReply)
  /-- SYNC_GROUPS_LOAD: Load sync-group table entries (R228) -/
  | syncGroupsLoad (id : Nat)
  /-- CANAL_GROUPS_LOAD: Load canal multicast groups and fork masks (R338) -/
  | canalGroupsLoad (id : Nat)
  /-- STAGEQ_LOAD: Load stage-queue entries, checked against the other ends (R453) -/
  | stageqLoad (id : Nat) (bad : Option Nat)
  /-- PHASE_LIST_LOAD: Load the redrawn-mode phase list (R365) -/
  | phaseListLoad (id : Nat)
  /-- COLLECTIVE: Start a collective from a descriptor (R409) -/
  | collective (id : Nat)
  /-- STEP_END: Capture the step vector and start the step-end collective (R423) -/
  | stepEnd (id : Nat)
  /-- MIRROR_CLOSE: Close a mirror epoch, moving its dirty set into C (R376) -/
  | mirrorClose (id : Nat)
  /-- SUBSTITUTE: Substitute a spare for a failed logical module and rebuild tables (R379) -/
  | substitute (id : Nat)
  /-- BASIN_INFO: Return basin free space, wear and checkpoint count (R491) -/
  | basinInfo (id : Nat)
  /-- CKPT_WRITE: Write a checkpoint of the persistent regions (R534) -/
  | ckptWrite (id : Nat)
  /-- CKPT_CAPTURE_CHUNK: The controller reads the next chunk of the own section, releasing writes waiting on it (R535) -/
  | ckptCaptureChunk
  /-- CKPT_CAPTURE_COMPLETE: All sections are programmed and the commit record is written (R535) -/
  | ckptCaptureComplete
  /-- CKPT_LIST: List held checkpoints (R537) -/
  | ckptList (id : Nat)
  /-- CKPT_RESTORE: Restore regions from basin or partner (R538) -/
  | ckptRestore (id : Nat) (bad : Option BadRegion) (r : RestoreReply)
  /-- CKPT_DELETE: Release a checkpoint's units (R537) -/
  | ckptDelete (id : Nat)
  /-- ERR_READ: Copy unread error records (R552) -/
  | errRead (id : Nat)
  /-- SPIRE_FENCE: Fence or unfence a spire at its router (R332) -/
  | spireFence (id : Nat)
  /-- FUNC_REINIT: Reinitialise one function at rung 2 (R560) -/
  | funcReinit (id : Nat)
  /-- REINIT_LIMIT_EXPIRY: A rung-2 reinitialisation exceeds its limit and the function stays out of service (R560) -/
  | reinitLimitExpiry (kind index : Nat)
  /-- WARM_RESET: Begin a warm reset of the module (R563) -/
  | warmReset (id : Nat)
  /-- WARM_RESET_COMPLETE: Self-test, zero-fill, table rebuild, training and journal restart finish (R563) -/
  | warmResetComplete (i : BootInfo)
  /-- WARM_RESET_TIMEOUT: A warm reset not complete within WARM_LIM makes the lockkeeper power-cycle (R563) -/
  | warmResetTimeout
  /-- POWER_CYCLE: Persist orderly and have the lockkeeper remove power (R565) -/
  | powerCycle (id : Nat)
  /-- POWER_REMOVAL: 10 ms after POWER_CYCLE the lockkeeper removes rails (R565) -/
  | powerRemoval
  /-- POWER_RESTORE: After 2 s off, power returns through boot (R565) -/
  | powerRestore
  /-- ROLLBACK: Restore the module to a restore point and resume RUNNING (R570) -/
  | rollback (id : Nat) (bad : Option BadRegion) (r : RestoreReply) (spec : Nat)
  /-- POWER_STATE: Move to ACTIVE, QUIESCENT or STANDBY (R582) -/
  | powerState (id : Nat)
  /-- POWER_CAP: Set the power cap (R589) -/
  | powerCap (id : Nat)
  /-- CLOCK_LIMIT: Set a dome's user clock limit (R586) -/
  | clockLimit (id : Nat)
  /-- TELEMETRY: Return input power, temperatures and clocks (R493) -/
  | telemetry (id : Nat)
  /-- SEC_STATUS: Return the security-state bits (R494) -/
  | secStatus (id : Nat)
  /-- DEBUG_CHALLENGE: Return a single-use nonce (R494) -/
  | debugChallenge (id : Nat)
  /-- DEBUG_UNLOCK: Open the debug lock with a signed token (R617) -/
  | debugUnlock (id : Nat)
  /-- MANUF_SERVICE: Enter or leave manufacturing service with a signed token (R620) -/
  | manufService (id : Nat)
  /-- NONCE_EXPIRY: An unused nonce becomes invalid after 60 s (R494) -/
  | nonceExpiry
  /-- JOURNAL_QUERY: Copy journal entries from a DSEQ (R520) -/
  | journalQuery (id : Nat)
  /-- JOURNAL_MARK: Write a mark entry with a host value (R516) -/
  | journalMark (id : Nat)
  /-- TEST_MODE: Move a target into or out of its test mode (R635) -/
  | testMode (id : Nat)
  /-- SELF_TEST: Run built-in self-test of memory or arrays (R641) -/
  | selfTest (id : Nat) (bad : List Nat)
  /-- COUNTER_SNAPSHOT: Copy BAR0 counters to memory (R495) -/
  | counterSnapshot (id : Nat)
  /-- MAILBOX_SEND: A write of MBX_TX_SEND sends the staged pointer and tag, or is rejected (R505) -/
  | mailboxSend (agent c tag : Nat) (ptr : Option Word)
  /-- MAILBOX_RECEIVE: A read of MBX_RX_MSG returns the tag and clears FULL (R506) -/
  | mailboxReceive (agent c : Nat)
  /-- PARTNER_MESSAGE_LANDED: A partner landing barge holds a new message and Lantern fills the channel (R509) -/
  | partnerMessageLanded (c : Nat)
  /-- PARTNER_COUNT_RETURNED: The returned count empties the sending partner channel (R509) -/
  | partnerCountReturned (c : Nat)
  /-- JOURNAL_PERSIST: At a 1 ms boundary Lantern persists changed entries to the working region and basin (R518) -/
  | journalPersist
  /-- JOURNAL_PERSIST_COMPLETE: A persistence completes, or its basin write fails (R518) -/
  | journalPersistComplete (ok : Bool)
  /-- PATROL_READ: Patrol reads a programmed block and relocates it when needed (R541) -/
  | patrolRead (k : Nat) (weak : Option Nat)
  /-- RETENTION_REFRESH: A block older than REFRESH_DAYS is relocated (R541) -/
  | retentionRefresh (k dst : Nat)
  /-- READ_DISTURB_RELOCATE: A block read DISTURB_K thousand times is relocated (R541) -/
  | readDisturbRelocate (k dst : Nat)
  /-- STATIC_LEVELLING: The lowest-count flight's data is moved when the wear spread exceeds 200 (R541) -/
  | staticLevelling (n dst : Nat)
  /-- BASIN_CODEWORD_READ: A NAND codeword read decodes, retries or is rebuilt; uncorrectable fails its reader (R531) -/
  | basinCodewordRead (k : Nat) (who : BsnReader) (r : BsnRead)
  /-- NAND_PROGRAM_FAILURE: A program failure retires the block and rewrites its data (R542) -/
  | nandProgramFailure (k dst : Nat) (journal : Bool)
  /-- NAND_ERASE_FAILURE: An erase failure retires the block (R542) -/
  | nandEraseFailure (k : Nat)
  /-- BASIN_CONTROLLER_TIMEOUT: No answer from the basin controller for 100 ms starts its reinitialisation (R560) -/
  | basinControllerTimeout
  /-- SANITIZE: A write of BSN_SANITIZE.START replaces the media key and erases data (R532) -/
  | sanitize
  /-- INPUT_LOSS: Input below 700 V for 20 us, or above 880 V for 1 ms, starts loss handling (R578) -/
  | inputLoss
  /-- LOSS_PERSIST_DONE: Lantern's persistence ends or 4.5 ms pass, and the rails are removed (R578) -/
  | lossPersistDone (ok : Bool)
  /-- POWER_UP: Input rises above 720 V; inrush charge, auxiliary start and sequenced power-up (R579) -/
  | powerUp (straps : Nat)
  /-- RAIL_FAULT: A rail misses or leaves its band and the module stops (R581) -/
  | railFault (n : Nat)
  /-- POWER_SAMPLE: Each 10 us input sample; above 1,600 W lowers the clocks (R588) -/
  | powerSample (dv ma mw : Nat) (rails : List (Nat × Nat))
  /-- POWER_CAP_TICK: At each 100 us point the cap loop lowers or raises the CAP limit (R588) -/
  | powerCapTick (step hot : Nat)
  /-- CAP_WINDOW_END: A 1 ms window ends; CAP_UNMET is set or cleared (R590) -/
  | capWindowEnd
  /-- SPIRE_CLOCK_STEP: A dome's clock moves one step with a PLL switchover pause (R585) -/
  | spireClockStep (d pause : Nat)
  /-- CLOCK_USER_LIMIT_WRITE: A write of a dome's USER limit moves its target clock (R586) -/
  | clockUserLimitWrite (d v : Nat)
  /-- THERMAL_TICK: Every 100 us the lockkeeper reads sensors and adjusts THERM (R592) -/
  | thermalTick (readings : List (Nat × Nat))
  /-- THERMAL_RECOVERY: After 60 s cool the module powers up again (R593) -/
  | thermalRecovery
  /-- QUIESCENT_WAKE: A request needing a spire site returns the module from QUIESCENT to ACTIVE (R583) -/
  | quiescentWake
  /-- SIDEBAND_HEARTBEAT_LOSS: No sideband heartbeat for 2 ms sets both spire clocks to 1.8 GHz (R27) -/
  | sidebandHeartbeatLoss
  /-- SIDEBAND_HEARTBEAT: A heartbeat returns and Lantern restores the lockkeeper's limits (R27) -/
  | sidebandHeartbeat
  /-- FW_WATCHDOG: A control core's heartbeat missing for 10 ms starts a warm reset (R564) -/
  | fwWatchdog (core : Nat)
  /-- BOOT_STAGE_COMPLETE: A boot stage ends and the next begins (R604) -/
  | bootStageComplete (i : BootInfo)
  /-- BOOT_TIMEOUT: No ready 60 s after power returns; power-cycle or OUT_OF_SERVICE (R566) -/
  | bootTimeout
  /-- COMMIT_LK: Raise the lockkeeper SVN minimum to the running image (R610) -/
  | commitLk
  /-- COMMIT_LT: Raise the Lantern SVN minimum to the running image (R610) -/
  | commitLt
  /-- COMMIT_CFG: Raise the boot configuration SVN minimum (R610) -/
  | commitCfg
  /-- SPDM_REQUEST: An SPDM request is answered by Lantern or the lockkeeper (R611) -/
  | spdmRequest (responder : Nat) (r : SpdmReq)
  /-- IDE_KM: An IDE key-management exchange sets H0 stream keys (R614) -/
  | ideKm (k : IdeKm)
  /-- IDE_INTEGRITY_FAILURE: A received TLP fails IDE integrity; the stream becomes INSECURE (R616) -/
  | ideIntegrityFailure
  /-- REQUEST_UPDATE: PLDM RequestUpdate starts a firmware update of one component (R609) -/
  | requestUpdate (comp size : Nat)
  /-- REQUEST_FIRMWARE_DATA: A transferred part of the image is written into the inactive bank (R609) -/
  | requestFirmwareData (off : Nat) (bs : List Byte)
  /-- TRANSFER_COMPLETE: The transferred image is verified under R602 (R609) -/
  | transferComplete
  /-- ACTIVATE_FIRMWARE: The verified bank is set pending or activated (R609) -/
  | activateFirmware
  /-- SENSOR_READ: A PLDM sensor read returns the latest value (R622) -/
  | sensorRead (id : Nat)
  /-- POWER_EFFECTER_ON: Out-of-band power on from AUX (R623) -/
  | powerEffecterOn
  /-- POWER_EFFECTER_OFF: Out-of-band orderly power-off (R623) -/
  | powerEffecterOff
  /-- POWER_EFFECTER_CYCLE: Out-of-band orderly power cycle (R623) -/
  | powerEffecterCycle
  /-- CAP_EFFECTER: Out-of-band power cap write (R623) -/
  | capEffecter (w : Nat)
  /-- RELEASE_OUT_OF_SERVICE: Clear the OUT_OF_SERVICE hold and power up (R623) -/
  | releaseOutOfService
  /-- POD_CONFIGURATION_RECORD: Store pod ID and topology for the next power-on (R623) -/
  | podConfigurationRecord (podId topo x y z : Nat)
  /-- SCAN_EN_WRITE: A write of TST_CTL.SCAN_EN enables EXTEST-family instructions when no job exists (R639) -/
  | scanEnWrite (on : Bool)
  /-- SCAN_INSTRUCTION_UPDATE: A boundary-scan instruction loads; leaving EXTEST warm-resets the module (R639) -/
  | scanInstructionUpdate (op : ScanOp)
  /-- TRST_N_ASSERTION: TRST_N resets the test port and warm-resets after EXTEST (R639) -/
  | trstNAssertion
  /-- PPR_START: A write of TST_PPR_CTL.START requests post-package repair (R642) -/
  | pprStart (v : Word)
  /-- LINK_PRBS_CHECK: A write of TST_LNK_CTL.START runs one lane pattern check (R643) -/
  | linkPrbsCheck (n : Nat) (v : Word)
  /-- H1_MARGIN_COMMAND: A write of TST_H1_MARGIN_CMD.START issues a margin command on H1 (R645) -/
  | h1MarginCommand (v : Word)
  /-- H0_DWELL_END: The H0 pattern dwell ends and H0 retrains (R635) -/
  | h0DwellEnd
  /-- EYE_MEASUREMENT: At each 1 ms boundary each lane writes its measured eyes (R644) -/
  | eyeMeasurement (n lane : Nat) (v : Word)
  /-- REINIT_COMPLETE: A rung-2 reinitialisation of a function (aqueduct direction, tower channel, basin controller, H1, HCP queue) finishes within its limit, returns the function to service and writes its RECOVERED record (R560) -/
  | reinitComplete (kind index : Nat) (ok : Bool)
  /-- QUEUE_DMA_ERROR: H0 reports a DMA error on a queue's host memory and the HCP queue pair enters rung 2 automatically (R560) -/
  | queueDmaError (q : Nat)
  /-- FRAME_SEND: At each frame time a link output sends a DATA, PACKET or IDLE frame, chosen by deficit round robin over the credited classes (R350) -/
  | frameSend (n : Nat)
  /-- PAIR_CONFIRM_TIMEOUT: A PAIR command receives no confirmation from the partner within 10 ms and ends with PAIR_ONE_SIDED (R374) -/
  | pairConfirmTimeout (id : Nat)
  /-- STANDBY_EXIT_TIMEOUT: STANDBY exit completes after 1 s with the links that have trained, when not every link is ACTIVE with the time base locked (R583) -/
  | standbyExitTimeout
  /-- CLAMP_SENSE_CLOSED: The lockkeeper's clamp sense reads closed and power-up under R579 may begin (R662) -/
  | clampSenseClosed
  /-- VECTOR_HOLD_RAMP: The vector hold lapses GAP_THRESH after a task ends and ramps down over 4 us, or ramps up over 4 us before a launch's start multicast (R585) -/
  | vectorHoldRamp (w : VecRamp)
  /-- LOCKKEEPER_SUPPLY_LOSS: After loss handling, the intermediate bus falls below 38 V and the lockkeeper loses power (R578) -/
  | lockkeeperSupplyLoss
  /-- H0_LINK_TRAINED: The H0 PCIe link trains or retrains and HCP_H0_STAT is re-evaluated (R499) -/
  | h0LinkTrained (width rate log2 : Nat)
  /-- PPR_DONE: A post-package repair finishes; START clears and TST_PPR_RESULT reports DONE and RESULT (R642) -/
  | pprDone (repaired : Bool) (spares : Nat)
  /-- LINK_PRBS_CHECK_DONE: A lane pattern check finishes and TST_LNK_RESULT reports DONE and its error count (R643) -/
  | linkPrbsCheckDone (n errors : Nat)
  /-- H1_MARGIN_RESPONSE: The answer to an H1 margin command arrives; START clears and TST_H1_MARGIN_RSP holds the response with DONE (R645) -/
  | h1MarginResponse (r : Nat)
  /-- SANITIZE_COMPLETE: The basin sanitize finishes replacing the key and erasing, and BSN_SANITIZE.START reads 0 (R532) -/
  | sanitizeComplete
  /-- SVN_PROGRAMMING_COMPLETE: Fuse programming of a committed SVN minimum ends after up to 20 ms and the COMMIT bit reads 0 (R610) -/
  | svnProgrammingComplete (typ : Nat)
  deriving DecidableEq, Repr

end Sys2Proof
end

