-- ==== Sys2Proof/Decode.lean ====
section
/-!
DEFINITION. What a word of the opcode table spells. The table gives no row any bits: the binary form of spire streams is private (R1, R74), a host command is a packet whose
fields PACKET_FETCH reads (R470), and an event has no word at all. So no word spells a command.
-/
namespace Sys2Proof

/-- The command that `nbits` bits `w` spell: none, since no row of the table has bits. -/
def decodeTableWord (_nbits _w : Nat) : Option Instr := none

end Sys2Proof
end

