-- ==== Sys2Proof/Config.lean ====
section
/-!
DEFINITION. The free values of the model: constants without a body, one for each value the manual leaves open. No proof sees what they are.
-/
namespace Sys2Proof.Config

/-- Where in a local store multicast data lands (R321 gives the packet no address). -/
opaque mcOffset : Nat → BitVec 19

/-- The approximation units (R210): where the results of a unit's inputs part, by unit (0 exp2, 1 log2, 2 reciprocal, 3 reciprocal square root, 4 tanh,
5 sigmoid; times 2, plus 1 for its other branch) and by the node of the tree that halves its inputs; the manual gives bounds and not the tables. -/
opaque transcend : Nat → Nat → BitVec 32

/-- Which of the checks that a result enters meets an armed residue corruption, and which wrong residue that check then sees (R73), by a fresh index. -/
opaque residue : Nat → BitVec 64

/-- The slice set of a barge (R269): the manual gives a slice 128 sets and not which barges share one. -/
opaque sliceSet : Nat → BitVec 7

/-- Instructions in the stream of an engine of a program (R76, R485), by program handle: a program image is opaque (R1). -/
opaque streamExtent : Nat → Nat → BitVec 32

/-- Whether a program image passes Lantern's check (R485): the image is opaque (R1). -/
opaque imageValid : List Byte → Bool

/-- The handle of the n-th program loaded (R485). -/
opaque programHandle : Nat → BitVec 64

/-- Where the mirror slots of the journal working region lie at the partner (R375 adds the region and gives it no slot addresses). -/
opaque journalSlot : Nat → BitVec 48

/-- The module's serial number, in its fuses (R359, R483). -/
opaque serial : BitVec 64

/-- The silicon stepping (R483). -/
opaque stepping : BitVec 32

/-- Bytes of the header barges of collective streams, by stream number and place (R388, R394, R399: the manual says what they carry and not their layout). -/
opaque headerByte : Nat → Nat → BitVec 8

/-- Where the slots of the other end of an OUT stage queue lie (R453, R454: Lantern learns it from the peer's entry when it compares the two). -/
opaque peerSlot : Nat → Nat → BitVec 48

/-- The fused core-voltage trim in mV, 0 to 20 (R584). -/
opaque voltTrim : BitVec 5

/-- Images in the banks of the boot flash as the module was shipped, by type · 2 + bank (R601, R608). -/
opaque factoryImage : Nat → List Byte

/-- Whether an ECDSA P-384 signature over SHA-384 of a message verifies (R602, R618): keys 0 to 3 are F0 to F3, 4 and 5 are D0 and D1. The keys stand in ROM and are not given. -/
opaque signed : Nat → List Byte → List Byte → Bool

/-- The boot ROMs of the lockkeeper (0) and of the die (1), which are not given (R600, R613). -/
opaque romImage : Nat → List Byte

/-- Public keys of the certificate chains (R612): 0 the Zengal root, 1 the Zengal device CA, 2 the device identity, derived in the security block from the die fuses, 3 the lockkeeper identity. -/
opaque identityKey : Nat → BitVec 768

/-- The signature of a responder's leaf key over an SPDM transcript (R611): responder 0 Lantern, 1 the lockkeeper. No private key can be read. -/
opaque spdmSigned : Nat → List Byte → BitVec 768

/-- Zengal's JEP106 code, given in the BSDL file (R638). -/
opaque jep106 : BitVec 11

/-- A nonce drawn from the random source of the security block (R494), by a fresh index. -/
opaque nonce : Nat → BitVec 128

end Sys2Proof.Config
end

