-- ==== Sys2Proof/Machine/Registers.lean ====
section
/-!
DEFINITION. The register map of BAR0 (R7 to R11, R462): one offset definition per register (namespace `R`), one bit range per
field (namespace `F`), and the field tables of the spec as data (access code, reset value, what a warm reset keeps).
Reset values that the spec marks Harvest, Boot, Straps or Fuse stand as 0 here and are loaded by the boot commands.
-/
namespace Sys2Proof.Machine

/-- The access codes of R9. -/
inductive Access where
  | rw | ro | w1c | w1s | rc | wo
  deriving DecidableEq, Repr

/-- A bit range `[hi:lo]` of a register (R8). -/
structure Fld where
  hi : Nat
  lo : Nat
  deriving DecidableEq, Repr

/-- One row of a field table (R8). -/
structure FldRow where
  name : String
  hi : Nat
  lo : Nat
  acc : Access
  reset : Nat
  deriving DecidableEq, Repr

/-- One register or family of equal registers: instance `i` of the block, element `j` of the family, at
`base + i * bstride + j * stride`. `keep` says that a warm reset leaves it (R10); `record` that clearing VALID zeroes the rest. -/
structure RegRow where
  name : String
  base : Nat
  bstride : Nat
  bcount : Nat
  stride : Nat
  count : Nat
  width : Nat
  keep : Bool
  record : Bool
  fields : List FldRow
  deriving DecidableEq, Repr

namespace R
/-! Global block. -/
/-- R278. -/
def GLB_SPEC_CTL : Nat := 0x4000
/-- R278. -/
def GLB_SPEC_STAT (k : Nat) : Nat := 0x4010 + 0x10 * k
/-- R278. -/
def GLB_SPEC_NUM (k : Nat) : Nat := 0x4018 + 0x10 * k
/-- R278. -/
def GLB_SPEC_SPILL_W : Nat := 0x4030
/-- R278. -/
def GLB_SPEC_SPILL_E : Nat := 0x4038
/-- R279. -/
def GLB_SPEC_COMMITS : Nat := 0x4040
/-- R279. -/
def GLB_SPEC_DISCARDS : Nat := 0x4048
/-- R279. -/
def GLB_SPEC_STALLS : Nat := 0x4050
/-- R279. -/
def GLB_SPEC_STALL_NS : Nat := 0x4058
/-- R279. -/
def GLB_SHADOW_BAR2 : Nat := 0x4060
/-- R278. -/
def GLB_XLT_RESOLVE_LIM : Nat := 0x4070
/-- R443. -/
def GLB_LS_CTL : Nat := 0x5000
/-- R444. -/
def GLB_LS_STATE : Nat := 0x5008
/-- R444. -/
def GLB_STEPS : Nat := 0x5010
/-- R444. -/
def GLB_STEP_LATCH : Nat := 0x5018
/-- R445. -/
def GLB_PGT_BASE : Nat := 0x5020
/-- R446. -/
def GLB_STEP_CLEAN : Nat := 0x5100
/-- R446. -/
def GLB_STEP_CLIP : Nat := 0x5108
/-- R446. -/
def GLB_STEP_OVERFLOW : Nat := 0x5110
/-- R446. -/
def GLB_STEP_MISMATCH : Nat := 0x5118
/-- R446. -/
def GLB_UPD_FROZEN : Nat := 0x5120
/-! Command protocol. -/
/-- R498. -/
def HCP_CTL : Nat := 0x100000
/-- R498. -/
def HCP_ADMIT_CTL : Nat := 0x100008
/-- R499. -/
def HCP_ADMIT_STAT : Nat := 0x100010
/-- R499. -/
def HCP_BAR2_BASE : Nat := 0x100018
/-- R499. -/
def HCP_H0_STAT : Nat := 0x100020
/-- R502. -/
def HCP_FETCHED : Nat := 0x100100
/-- R502. -/
def HCP_ADMITTED : Nat := 0x100108
/-- R502. -/
def HCP_DELAYED : Nat := 0x100110
/-- R502. -/
def HCP_REFUSED_BUSY : Nat := 0x100118
/-- R502. -/
def HCP_REFUSED_OTHER : Nat := 0x100120
/-- R502. -/
def HCP_CQ_DROP : Nat := 0x100128
/-- R502. -/
def HCP_EVT_LOST : Nat := 0x100130
/-- R502. -/
def HCP_BAR2_DROP : Nat := 0x100138
/-- R469. -/
def HCP_MSIX_TABLE (k : Nat) : Nat := 0x10C000 + 0x8 * k
/-- R469. -/
def HCP_MSIX_PBA (k : Nat) : Nat := 0x10D000 + 0x8 * k
/-! Per-queue registers. -/
/-- R500. -/
def HCP_SQ_BASE (q : Nat) : Nat := 0x101000 + 0x40 * q
/-- R500. -/
def HCP_CQ_BASE (q : Nat) : Nat := 0x101008 + 0x40 * q
/-- R500. -/
def HCP_Q_CFG (q : Nat) : Nat := 0x101010 + 0x40 * q
/-- R500. -/
def HCP_SQ_SEQ (q : Nat) : Nat := 0x101018 + 0x40 * q
/-- R500. -/
def HCP_Q_STATUS (q : Nat) : Nat := 0x101020 + 0x40 * q
/-! Doorbells. -/
/-- R501. -/
def HCP_SQ_TAIL (q : Nat) : Nat := 0x108000 + 0x10 * q
/-- R501. -/
def HCP_CQ_HEAD (q : Nat) : Nat := 0x108008 + 0x10 * q
/-! Mailboxes. -/
/-- R522. -/
def MBX_STATUS : Nat := 0x200000
/-- R522. -/
def MBX_BIND (k : Nat) : Nat := 0x200100 + 0x8 * k
/-- R522. -/
def MBX_CH_STAT (k : Nat) : Nat := 0x200200 + 0x8 * k
/-- R524. -/
def MBX_SENT : Nat := 0x200400
/-- R524. -/
def MBX_REJECTED : Nat := 0x200408
/-- R524. -/
def MBX_LOST : Nat := 0x200410
/-! Host-agent pages. -/
/-- R523. -/
def MBX_TX_PTR (n : Nat) : Nat := 0x210000 + 0x1000 * n
/-- R523. -/
def MBX_TX_SEND (n : Nat) : Nat := 0x210008 + 0x1000 * n
/-- R523. -/
def MBX_TX_STAT (n : Nat) : Nat := 0x210010 + 0x1000 * n
/-- R523. -/
def MBX_RX_PEND (n : Nat) : Nat := 0x210018 + 0x1000 * n
/-- R523. -/
def MBX_RX_PTR (n : Nat) (k : Nat) : Nat := 0x210100 + 0x1000 * n + 0x10 * k
/-- R523. -/
def MBX_RX_MSG (n : Nat) (k : Nat) : Nat := 0x210108 + 0x1000 * n + 0x10 * k
/-! Journal. -/
/-- R525. -/
def JNL_STATUS : Nat := 0x300000
/-- R525. -/
def JNL_CTL : Nat := 0x300008
/-- R525. -/
def JNL_NEWEST : Nat := 0x300010
/-- R525. -/
def JNL_OLDEST : Nat := 0x300018
/-- R525. -/
def JNL_PERSISTED : Nat := 0x300020
/-- R525. -/
def JNL_PERSIST_TIME : Nat := 0x300028
/-- R526. -/
def JNL_ENTRIES : Nat := 0x300100
/-- R526. -/
def JNL_CARRIES : Nat := 0x300108
/-- R526. -/
def JNL_PERSISTS : Nat := 0x300110
/-- R526. -/
def JNL_PERSIST_LATE : Nat := 0x300118
/-- R526. -/
def JNL_QUERIES : Nat := 0x300120
/-! Spire site windows. -/
/-- R107. -/
def SPR_CAP (s : Nat) : Nat := 0x400000 + 0x1000 * s
/-- R108. -/
def SPR_MAP (s : Nat) : Nat := 0x400004 + 0x1000 * s
/-- R109. -/
def SPR_CTL (s : Nat) : Nat := 0x400008 + 0x1000 * s
/-- R110. -/
def SPR_STATUS (s : Nat) : Nat := 0x40000C + 0x1000 * s
/-- R111. -/
def SPR_FAULT (s : Nat) : Nat := 0x400010 + 0x1000 * s
/-- R112. -/
def SPR_FAULT_ADDR (s : Nat) : Nat := 0x400018 + 0x1000 * s
/-- R113. -/
def SPR_HAZ_FIRST (s : Nat) : Nat := 0x400020 + 0x1000 * s
/-- R114. -/
def SPR_HAZ_COUNT (s : Nat) : Nat := 0x400028 + 0x1000 * s
/-- R114. -/
def SPR_RESTART_COUNT (s : Nat) : Nat := 0x400030 + 0x1000 * s
/-- R143. -/
def SPR_ARR_CTL (s : Nat) : Nat := 0x400200 + 0x1000 * s
/-- R144. -/
def SPR_ARR_STAT (s : Nat) : Nat := 0x400204 + 0x1000 * s
/-- R145. -/
def SPR_ARR_BUSY (s : Nat) : Nat := 0x400208 + 0x1000 * s
/-- R145. -/
def SPR_ARR_DUMMY (s : Nat) : Nat := 0x400210 + 0x1000 * s
/-- R145. -/
def SPR_ARR_STRETCH (s : Nat) : Nat := 0x400218 + 0x1000 * s
/-- R146. -/
def SPR_TAG_OP (s : Nat) : Nat := 0x400220 + 0x1000 * s
/-- R147. -/
def SPR_TAG_ACC (s : Nat) : Nat := 0x400228 + 0x1000 * s
/-- R164. -/
def SPR_SKIP_CTL (s : Nat) : Nat := 0x400240 + 0x1000 * s
/-- R165. -/
def SPR_SKIP_KBLK (s : Nat) : Nat := 0x400248 + 0x1000 * s
/-- R165. -/
def SPR_SKIP_BAND (s : Nat) : Nat := 0x400250 + 0x1000 * s
/-- R165. -/
def SPR_SKIP_SAVED (s : Nat) : Nat := 0x400258 + 0x1000 * s
/-- R165. -/
def SPR_SKIP_DECLINED (s : Nat) : Nat := 0x400260 + 0x1000 * s
/-- R165. -/
def SPR_SKIP_DISAGREE (s : Nat) : Nat := 0x400268 + 0x1000 * s
/-- R165. -/
def SPR_SP_ISSUE (s : Nat) : Nat := 0x400270 + 0x1000 * s
/-- R196. -/
def SPR_LOOP_FAULT (s : Nat) : Nat := 0x400280 + 0x1000 * s
/-- R197. -/
def SPR_LOOP_ITER (s : Nat) : Nat := 0x400288 + 0x1000 * s
/-- R197. -/
def SPR_LOOP_ZERO (s : Nat) : Nat := 0x400290 + 0x1000 * s
/-- R197. -/
def SPR_LOOP_GATE (s : Nat) : Nat := 0x400298 + 0x1000 * s
/-- R213. -/
def SPR_VEC_ISSUE (s : Nat) : Nat := 0x4002A0 + 0x1000 * s
/-- R213. -/
def SPR_VEC_BANKPASS (s : Nat) : Nat := 0x4002A8 + 0x1000 * s
/-- R213. -/
def SPR_VEC_SRDRAW (s : Nat) : Nat := 0x4002B0 + 0x1000 * s
/-- R64. -/
def SPR_NUMCTL (s : Nat) : Nat := 0x400300 + 0x1000 * s
/-- R65. -/
def SPR_NUMSTAT (s : Nat) : Nat := 0x400304 + 0x1000 * s
/-- R66. -/
def SPR_RNG_SEED (s : Nat) : Nat := 0x400308 + 0x1000 * s
/-- R71. -/
def SPR_RSD_LOG (s : Nat) : Nat := 0x400310 + 0x1000 * s
/-- R72. -/
def SPR_RSD_COUNT (s : Nat) : Nat := 0x400318 + 0x1000 * s
/-- R73. -/
def SPR_RSD_INJECT (s : Nat) : Nat := 0x400320 + 0x1000 * s
/-- R235. -/
def SPR_SYNC_CELL (s : Nat) (k : Nat) : Nat := 0x400400 + 0x1000 * s + 0x8 * k
/-- R236. -/
def SPR_SYNC_SATHI (s : Nat) : Nat := 0x400580 + 0x1000 * s
/-- R236. -/
def SPR_SYNC_SATLO (s : Nat) : Nat := 0x400588 + 0x1000 * s
/-- R236. -/
def SPR_SYNC_HOLDFLG (s : Nat) : Nat := 0x400590 + 0x1000 * s
/-- R237. -/
def SPR_SYNC_HOLD_LIM (s : Nat) : Nat := 0x400598 + 0x1000 * s
/-- R238. -/
def SPR_SYNC_REMERR (s : Nat) : Nat := 0x4005A0 + 0x1000 * s
/-- R239. -/
def SPR_SYNC_SIGOUT (s : Nat) : Nat := 0x4005A8 + 0x1000 * s
/-- R239. -/
def SPR_SYNC_SIGIN (s : Nat) : Nat := 0x4005B0 + 0x1000 * s
/-- R239. -/
def SPR_SYNC_WAIT (s : Nat) : Nat := 0x4005B8 + 0x1000 * s
/-- R239. -/
def SPR_SYNC_DROP (s : Nat) : Nat := 0x4005C0 + 0x1000 * s
/-- R239. -/
def SPR_SYNC_SATCNT (s : Nat) : Nat := 0x4005C8 + 0x1000 * s
/-- R239. -/
def SPR_SYNC_HOLDCNT (s : Nat) : Nat := 0x4005D0 + 0x1000 * s
/-- R276. -/
def SPR_MEM_CTL (s : Nat) : Nat := 0x400600 + 0x1000 * s
/-- R276. -/
def SPR_XLT_ROOT (s : Nat) : Nat := 0x400608 + 0x1000 * s
/-- R277. -/
def SPR_L1_HIT (s : Nat) : Nat := 0x400610 + 0x1000 * s
/-- R277. -/
def SPR_L1_MISS (s : Nat) : Nat := 0x400618 + 0x1000 * s
/-- R277. -/
def SPR_PF_ISSUE (s : Nat) : Nat := 0x400620 + 0x1000 * s
/-- R277. -/
def SPR_PF_USED (s : Nat) : Nat := 0x400628 + 0x1000 * s
/-- R277. -/
def SPR_PF_DROP (s : Nat) : Nat := 0x400630 + 0x1000 * s
/-- R277. -/
def SPR_ACQ_DISCARD (s : Nat) : Nat := 0x400638 + 0x1000 * s
/-- R277. -/
def SPR_SLOT_FULL (s : Nat) : Nat := 0x400640 + 0x1000 * s
/-- R277. -/
def SPR_XLT_MISS (s : Nat) : Nat := 0x400648 + 0x1000 * s
/-! Canal dome blocks. -/
/-- R342. -/
def CNL_STATUS (d : Nat) : Nat := 0x800000 + 0x40000 * d
/-- R342. -/
def CNL_ARB_QUANTUM (d : Nat) : Nat := 0x800008 + 0x40000 * d
/-- R342. -/
def CNL_MC_CTL (d : Nat) : Nat := 0x800010 + 0x40000 * d
/-- R343. -/
def CNL_MC_STUCK (d : Nat) : Nat := 0x800018 + 0x40000 * d
/-- R344. -/
def CNL_RT_SEL (d : Nat) : Nat := 0x800020 + 0x40000 * d
/-- R344. -/
def CNL_RT_DATA (d : Nat) : Nat := 0x800028 + 0x40000 * d
/-- R344. -/
def CNL_GRP_SEL (d : Nat) : Nat := 0x800030 + 0x40000 * d
/-- R344. -/
def CNL_GRP_DATA (d : Nat) : Nat := 0x800038 + 0x40000 * d
/-- R344. -/
def CNL_FAILED (d : Nat) (k : Nat) : Nat := 0x800040 + 0x40000 * d + 0x8 * k
/-- R345. -/
def CNL_FLITS_TC (d : Nat) (k : Nat) : Nat := 0x800100 + 0x40000 * d + 0x8 * k
/-- R345. -/
def CNL_CREDIT_WAIT (d : Nat) : Nat := 0x800120 + 0x40000 * d
/-- R345. -/
def CNL_MC_SENT (d : Nat) : Nat := 0x800128 + 0x40000 * d
/-- R345. -/
def CNL_MC_STUCKCNT (d : Nat) : Nat := 0x800130 + 0x40000 * d
/-- R345. -/
def CNL_FORK_WAIT (d : Nat) : Nat := 0x800138 + 0x40000 * d
/-- R345. -/
def CNL_CORR (d : Nat) : Nat := 0x800140 + 0x40000 * d
/-! Aqueduct. -/
/-- R346. -/
def CNL_AQ_STATUS : Nat := 0x880000
/-- R346. -/
def CNL_AQ_CTL : Nat := 0x880008
/-- R346. -/
def CNL_AQ_ERR : Nat := 0x880010
/-- R346. -/
def CNL_AQ_FLITS_WE : Nat := 0x880100
/-- R346. -/
def CNL_AQ_FLITS_EW : Nat := 0x880108
/-- R346. -/
def CNL_AQ_RETRY_WE : Nat := 0x880110
/-- R346. -/
def CNL_AQ_RETRY_EW : Nat := 0x880118
/-- R346. -/
def CNL_AQ_CORR_WE : Nat := 0x880120
/-- R346. -/
def CNL_AQ_CORR_EW : Nat := 0x880128
/-- R346. -/
def CNL_AQ_CREDIT_WAIT_WE : Nat := 0x880130
/-- R346. -/
def CNL_AQ_CREDIT_WAIT_EW : Nat := 0x880138
/-! Towers. -/
/-- R310. -/
def TWR_STATUS (t : Nat) : Nat := 0x900000 + 0x10000 * t
/-- R311. -/
def TWR_CE_COUNT (t : Nat) : Nat := 0x900008 + 0x10000 * t
/-- R311. -/
def TWR_UE_COUNT (t : Nat) : Nat := 0x900010 + 0x10000 * t
/-- R311. -/
def TWR_THROTTLE_NS (t : Nat) : Nat := 0x900018 + 0x10000 * t
/-- R312. -/
def TWR_SCRUB_CTL (t : Nat) : Nat := 0x900100 + 0x10000 * t
/-- R312. -/
def TWR_SCRUB_POS (t : Nat) : Nat := 0x900108 + 0x10000 * t
/-- R311. -/
def TWR_SCRUB_PASSES (t : Nat) : Nat := 0x900110 + 0x10000 * t
/-- R311. -/
def TWR_SCRUB_LATE (t : Nat) : Nat := 0x900118 + 0x10000 * t
/-- R313. -/
def TWR_CE_LIMIT (t : Nat) : Nat := 0x900120 + 0x10000 * t
/-- R313. -/
def TWR_LOG_PTR (t : Nat) : Nat := 0x900200 + 0x10000 * t
/-- R311. -/
def TWR_LOG_LOST (t : Nat) : Nat := 0x900208 + 0x10000 * t
/-- R314. -/
def TWR_MARGIN_CTL (t : Nat) : Nat := 0x900300 + 0x10000 * t
/-- R314. -/
def TWR_MARGIN_RESULT (t : Nat) : Nat := 0x900308 + 0x10000 * t
/-- R299. -/
def TWR_LOG (t : Nat) (k : Nat) : Nat := 0x901000 + 0x10000 * t + 0x10 * k
/-- R299. -/
def TWR_LOG_HI (t : Nat) (k : Nat) : Nat := 0x901008 + 0x10000 * t + 0x10 * k
/-! Common tower block. -/
/-- R315. -/
def TWR_IL (k : Nat) : Nat := 0x980000 + 0x8 * k
/-- R316. -/
def TWR_RETIRE (k : Nat) : Nat := 0x981000 + 0x8 * k
/-- R316. -/
def TWR_RETIRE_USED : Nat := 0x982000
/-- R316. -/
def TWR_RETIRED_HIT : Nat := 0x982008
/-- R316. -/
def TWR_FAR_CFG : Nat := 0x982100
/-- R316. -/
def TWR_FAR_RD : Nat := 0x982110
/-- R316. -/
def TWR_FAR_WR : Nat := 0x982118
/-- R316. -/
def TWR_FAR_FAIL : Nat := 0x982120
/-! Links. -/
/-- R380. -/
def LNK_STATUS (n : Nat) : Nat := 0xA00000 + 0x1000 * n
/-- R380. -/
def LNK_CTL (n : Nat) : Nat := 0xA00008 + 0x1000 * n
/-- R381. -/
def LNK_ERR (n : Nat) : Nat := 0xA00010 + 0x1000 * n
/-- R382. -/
def LNK_FEC_CORR (n : Nat) : Nat := 0xA00100 + 0x1000 * n
/-- R382. -/
def LNK_FEC_UNCORR (n : Nat) : Nat := 0xA00108 + 0x1000 * n
/-- R382. -/
def LNK_CRC_ERR (n : Nat) : Nat := 0xA00110 + 0x1000 * n
/-- R382. -/
def LNK_REPLAY (n : Nat) : Nat := 0xA00118 + 0x1000 * n
/-- R382. -/
def LNK_REPLAY_FULL (n : Nat) : Nat := 0xA00120 + 0x1000 * n
/-- R382. -/
def LNK_TX_FRAMES (n : Nat) : Nat := 0xA00128 + 0x1000 * n
/-- R382. -/
def LNK_RX_FRAMES (n : Nat) : Nat := 0xA00130 + 0x1000 * n
/-- R382. -/
def LNK_CREDIT_WAIT (n : Nat) : Nat := 0xA00138 + 0x1000 * n
/-- R382. -/
def LNK_RETRAINS (n : Nat) : Nat := 0xA00140 + 0x1000 * n
/-! Common pod block. -/
/-- R383. -/
def LNK_POD_CFG : Nat := 0xA80000
/-- R383. -/
def LNK_LMAP (k : Nat) : Nat := 0xA80010 + 0x8 * k
/-- R383. -/
def LNK_ARB_QUANTUM : Nat := 0xA80050
/-- R384. -/
def LNK_RT_SEL : Nat := 0xA80060
/-- R384. -/
def LNK_RT_DATA : Nat := 0xA80068
/-- R384. -/
def LNK_RT_MASK : Nat := 0xA80070
/-- R385. -/
def LNK_PHASE_CTL : Nat := 0xA80080
/-- R385. -/
def LNK_TB_STATUS : Nat := 0xA80090
/-- R386. -/
def LNK_MIR_CFG : Nat := 0xA800A0
/-- R386. -/
def LNK_MIR_STAT : Nat := 0xA800A8
/-- R386. -/
def LNK_MIR_EPOCH : Nat := 0xA800B0
/-- R386. -/
def LNK_MIR_BYTES : Nat := 0xA80100
/-- R386. -/
def LNK_MIR_WAIT_NS : Nat := 0xA80108
/-- R386. -/
def LNK_PHASE_COUNT : Nat := 0xA80110
/-- R386. -/
def LNK_PHASE_EARLY : Nat := 0xA80118
/-- R386. -/
def LNK_FWD_HCP : Nat := 0xA80120
/-- R386. -/
def LNK_TB_ALARMS : Nat := 0xA80128
/-- R414. -/
def LNK_CE_CTL : Nat := 0xA81000
/-- R414. -/
def LNK_CE_CTL2 : Nat := 0xA81008
/-- R415. -/
def LNK_CE_STATUS : Nat := 0xA81010
/-- R416. -/
def LNK_CE_ERR : Nat := 0xA81018
/-- R417. -/
def LNK_CE_STARTED : Nat := 0xA81100
/-- R417. -/
def LNK_CE_COMPLETED : Nat := 0xA81108
/-- R417. -/
def LNK_CE_RED_BYTES : Nat := 0xA81110
/-- R417. -/
def LNK_CE_SUPPRESSED : Nat := 0xA81118
/-- R417. -/
def LNK_CE_EMPTY : Nat := 0xA81120
/-- R417. -/
def LNK_CE_STREAMED : Nat := 0xA81128
/-- R417. -/
def LNK_CE_BUCKETED : Nat := 0xA81130
/-- R417. -/
def LNK_CE_SWITCHES : Nat := 0xA81138
/-- R417. -/
def LNK_CE_DROPPED : Nat := 0xA81140
/-- R417. -/
def LNK_CE_POLLS : Nat := 0xA81148
/-- R417. -/
def LNK_CE_STALLS : Nat := 0xA81150
/-- R458. -/
def LNK_STQ_STAT (k : Nat) : Nat := 0xA81200 + 0x8 * k
/-- R459. -/
def LNK_STQ_FULL_NS (k : Nat) : Nat := 0xA81400 + 0x8 * k
/-- R459. -/
def LNK_STQ_EMPTY_NS (k : Nat) : Nat := 0xA81500 + 0x8 * k
/-- R459. -/
def LNK_STQ_MB (k : Nat) : Nat := 0xA81600 + 0x8 * k
/-! Basin. -/
/-- R543. -/
def BSN_STATUS : Nat := 0xB00000
/-- R543. -/
def BSN_CKPT_CTL : Nat := 0xB00008
/-- R543. -/
def BSN_RGN_LIST : Nat := 0xB00010
/-- R544. -/
def BSN_PATROL_CTL : Nat := 0xB00018
/-- R544. -/
def BSN_CAPTURE : Nat := 0xB00020
/-- R544. -/
def BSN_CKPT_EPOCH : Nat := 0xB00028
/-- R544. -/
def BSN_CAP : Nat := 0xB00030
/-- R544. -/
def BSN_WEAR : Nat := 0xB00038
/-- R544. -/
def BSN_BLOCKS : Nat := 0xB00040
/-- R545. -/
def BSN_ERR : Nat := 0xB00048
/-- R545. -/
def BSN_SANITIZE : Nat := 0xB00050
/-- R546. -/
def BSN_WR_BYTES : Nat := 0xB00100
/-- R546. -/
def BSN_NAND_WR_BYTES : Nat := 0xB00108
/-- R546. -/
def BSN_RD_BYTES : Nat := 0xB00110
/-- R546. -/
def BSN_LDPC_CORR : Nat := 0xB00118
/-- R546. -/
def BSN_READ_RETRY : Nat := 0xB00120
/-- R546. -/
def BSN_REBUILD : Nat := 0xB00128
/-- R546. -/
def BSN_UNCORR : Nat := 0xB00130
/-- R546. -/
def BSN_REFRESH : Nat := 0xB00138
/-- R546. -/
def BSN_DISTURB : Nat := 0xB00140
/-- R546. -/
def BSN_WL_MOVES : Nat := 0xB00148
/-- R546. -/
def BSN_CAPTURE_WAIT_NS : Nat := 0xB00150
/-! Power and clocks. -/
/-- R596. -/
def PWR_STATUS : Nat := 0xC00000
/-- R596. -/
def PWR_CAP_CTL : Nat := 0xC00008
/-- R596. -/
def PWR_THERM_CTL : Nat := 0xC00010
/-- R597. -/
def PWR_INPUT : Nat := 0xC00018
/-- R597. -/
def PWR_WINDOW : Nat := 0xC00020
/-- R597. -/
def PWR_TEMP : Nat := 0xC00028
/-- R597. -/
def PWR_RAIL (k : Nat) : Nat := 0xC00100 + 0x8 * k
/-- R598. -/
def PWR_ENERGY_MJ : Nat := 0xC00200
/-- R598. -/
def PWR_CAP_NS : Nat := 0xC00208
/-- R598. -/
def PWR_OVER_NS : Nat := 0xC00210
/-- R598. -/
def PWR_THERM_NS : Nat := 0xC00218
/-- R598. -/
def PWR_LOSSES : Nat := 0xC00220
/-- R598. -/
def PWR_CAP_UNMET_NS : Nat := 0xC00228
/-- R599. -/
def CLK_SPIRE_W : Nat := 0xC08000
/-- R599. -/
def CLK_SPIRE_E : Nat := 0xC08008
/-- R599. -/
def CLK_TIME : Nat := 0xC08010
/-- R599. -/
def CLK_PLL : Nat := 0xC08018
/-- R599. -/
def CLK_STEPS_W : Nat := 0xC08100
/-- R599. -/
def CLK_STEPS_E : Nat := 0xC08108
/-- R599. -/
def CLK_PAUSE_NS_W : Nat := 0xC08110
/-- R599. -/
def CLK_PAUSE_NS_E : Nat := 0xC08118
/-! Security. -/
/-- R625. -/
def SEC_STATE : Nat := 0xD00000
/-- R625. -/
def SEC_BOOT_STAT : Nat := 0xD00008
/-- R626. -/
def SEC_FW_LK : Nat := 0xD00010
/-- R626. -/
def SEC_FW_LT : Nat := 0xD00018
/-- R626. -/
def SEC_FW_CFG : Nat := 0xD00020
/-- R626. -/
def SEC_SVN_MIN : Nat := 0xD00028
/-- R626. -/
def SEC_SVN_CTL : Nat := 0xD00030
/-- R627. -/
def SEC_KEYS : Nat := 0xD00038
/-- R627. -/
def SEC_AUTH : Nat := 0xD00040
/-- R627. -/
def SEC_IDE : Nat := 0xD00048
/-- R628. -/
def SEC_BOOTS : Nat := 0xD00100
/-- R628. -/
def SEC_SPDM_MSGS : Nat := 0xD00108
/-- R628. -/
def SEC_IDE_FAIL : Nat := 0xD00110
/-- R628. -/
def SEC_AUTH_FAIL : Nat := 0xD00118
/-- R628. -/
def SEC_FW_UPDATES : Nat := 0xD00120
/-! Errors. -/
/-- R572. -/
def ERR_STATUS : Nat := 0xE00000
/-- R572. -/
def ERR_NEWEST : Nat := 0xE00008
/-- R572. -/
def ERR_CTL : Nat := 0xE00010
/-- R572. -/
def ERR_JOB : Nat := 0xE00018
/-- R572. -/
def ERR_JOB_ID : Nat := 0xE00020
/-- R573. -/
def ERR_REC_SEL : Nat := 0xE00028
/-- R573. -/
def ERR_REC (k : Nat) : Nat := 0xE00040 + 0x8 * k
/-- R573. -/
def ERR_CLASS (k : Nat) : Nat := 0xE00100 + 0x8 * k
/-- R573. -/
def ERR_STOPS_SENT : Nat := 0xE00128
/-- R573. -/
def ERR_STOPS_RECV : Nat := 0xE00130
/-- R573. -/
def ERR_ROLLBACKS : Nat := 0xE00138
/-- R573. -/
def ERR_INPLACE : Nat := 0xE00140
/-! Test. -/
/-- R646. -/
def TST_STATUS : Nat := 0xF00000
/-- R646. -/
def TST_CTL : Nat := 0xF00008
/-- R646. -/
def TST_PORT_CTL : Nat := 0xF00010
/-- R647. -/
def TST_BIST_STAT : Nat := 0xF00100
/-- R647. -/
def TST_BIST_SITE (k : Nat) : Nat := 0xF00108 + 0x8 * k
/-- R647. -/
def TST_PPR_CTL : Nat := 0xF00200
/-- R647. -/
def TST_PPR_RESULT : Nat := 0xF00208
/-- R648. -/
def TST_H1_MARGIN_CMD : Nat := 0xF00300
/-- R648. -/
def TST_H1_MARGIN_RSP : Nat := 0xF00308
/-! Test, per link. -/
/-- R649. -/
def TST_LNK_CTL (n : Nat) : Nat := 0xF01000 + 0x40 * n
/-- R649. -/
def TST_LNK_RESULT (n : Nat) : Nat := 0xF01008 + 0x40 * n
/-- R649. -/
def TST_LNK_EYE (n : Nat) (k : Nat) : Nat := 0xF01010 + 0x40 * n + 0x8 * k

end R

namespace F
def GLB_SPEC_CTL_EN : Fld := ⟨31, 31⟩
def GLB_SPEC_CTL_DRAIN_SHARE : Fld := ⟨27, 24⟩
def GLB_SPEC_CTL_STALL_LIM : Fld := ⟨15, 0⟩
def GLB_SPEC_STAT_STATE : Fld := ⟨63, 61⟩
def GLB_SPEC_STAT_HAS_PARENT : Fld := ⟨60, 60⟩
def GLB_SPEC_STAT_PARENT_SLOT : Fld := ⟨59, 59⟩
def GLB_SPEC_STAT_TASKS : Fld := ⟨31, 0⟩
def GLB_SPEC_NUM_EPOCH : Fld := ⟨63, 0⟩
def GLB_SPEC_SPILL_W_BARGES : Fld := ⟨23, 0⟩
def GLB_SPEC_SPILL_E_BARGES : Fld := ⟨23, 0⟩
def GLB_XLT_RESOLVE_LIM_LIMIT : Fld := ⟨31, 0⟩
def GLB_LS_CTL_INTERVAL : Fld := ⟨63, 48⟩
def GLB_LS_CTL_CONSEC_LIM : Fld := ⟨47, 40⟩
def GLB_LS_CTL_MAX_EXP : Fld := ⟨23, 16⟩
def GLB_LS_CTL_MIN_EXP : Fld := ⟨15, 8⟩
def GLB_LS_CTL_INIT_EXP : Fld := ⟨7, 0⟩
def GLB_LS_STATE_CLEAN : Fld := ⟨63, 48⟩
def GLB_LS_STATE_CONSEC_OVF : Fld := ⟨47, 40⟩
def GLB_LS_STATE_EXP : Fld := ⟨7, 0⟩
def GLB_STEPS_STEPS : Fld := ⟨63, 0⟩
def GLB_STEP_LATCH_OVF : Fld := ⟨0, 0⟩
def GLB_PGT_BASE_NGROUPS : Fld := ⟨63, 51⟩
def GLB_PGT_BASE_BASE : Fld := ⟨47, 0⟩
def HCP_CTL_EVT_EN : Fld := ⟨6, 6⟩
def HCP_CTL_EVT_CQ : Fld := ⟨5, 0⟩
def HCP_ADMIT_CTL_T3 : Fld := ⟨15, 8⟩
def HCP_ADMIT_CTL_T2 : Fld := ⟨7, 0⟩
def HCP_ADMIT_STAT_C0 : Fld := ⟨31, 23⟩
def HCP_ADMIT_STAT_SHARED : Fld := ⟨22, 15⟩
def HCP_ADMIT_STAT_FWD : Fld := ⟨10, 0⟩
def HCP_BAR2_BASE_BASE : Fld := ⟨47, 30⟩
def HCP_H0_STAT_CXL : Fld := ⟨31, 31⟩
def HCP_H0_STAT_WIDTH : Fld := ⟨25, 21⟩
def HCP_H0_STAT_RATE : Fld := ⟨20, 16⟩
def HCP_H0_STAT_BAR2_LOG2 : Fld := ⟨5, 0⟩
def HCP_MSIX_TABLE_WORD : Fld := ⟨63, 0⟩
def HCP_MSIX_PBA_WORD : Fld := ⟨63, 0⟩
def HCP_SQ_BASE_BASE : Fld := ⟨63, 12⟩
def HCP_SQ_BASE_LOC : Fld := ⟨0, 0⟩
def HCP_CQ_BASE_BASE : Fld := ⟨63, 12⟩
def HCP_CQ_BASE_LOC : Fld := ⟨0, 0⟩
def HCP_Q_CFG_SQ_EN : Fld := ⟨63, 63⟩
def HCP_Q_CFG_CQ_EN : Fld := ⟨62, 62⟩
def HCP_Q_CFG_SQ_LOG2 : Fld := ⟨61, 58⟩
def HCP_Q_CFG_CQ_LOG2 : Fld := ⟨57, 53⟩
def HCP_Q_CFG_VECTOR : Fld := ⟨52, 46⟩
def HCP_Q_CFG_CO_COUNT : Fld := ⟨45, 38⟩
def HCP_Q_CFG_CO_TIME : Fld := ⟨37, 22⟩
def HCP_SQ_SEQ_SEQ : Fld := ⟨31, 0⟩
def HCP_Q_STATUS_CQ_TAIL : Fld := ⟨63, 48⟩
def HCP_Q_STATUS_HOLD : Fld := ⟨47, 37⟩
def HCP_Q_STATUS_SQ_HEAD : Fld := ⟨27, 16⟩
def HCP_Q_STATUS_DB_ERR : Fld := ⟨2, 2⟩
def HCP_Q_STATUS_FETCH_PAUSED : Fld := ⟨1, 1⟩
def HCP_Q_STATUS_CQ_FULL : Fld := ⟨0, 0⟩
def HCP_SQ_TAIL_TAIL : Fld := ⟨11, 0⟩
def HCP_CQ_HEAD_HEAD : Fld := ⟨15, 0⟩
def MBX_STATUS_LOCKED : Fld := ⟨31, 31⟩
def MBX_STATUS_BOUND : Fld := ⟨5, 0⟩
def MBX_BIND_VALID : Fld := ⟨63, 63⟩
def MBX_BIND_SENDER : Fld := ⟨47, 32⟩
def MBX_BIND_RECEIVER : Fld := ⟨31, 16⟩
def MBX_CH_STAT_FULL : Fld := ⟨31, 31⟩
def MBX_CH_STAT_PSTATE : Fld := ⟨30, 29⟩
def MBX_TX_PTR_PTR : Fld := ⟨63, 0⟩
def MBX_TX_SEND_CHANNEL : Fld := ⟨36, 32⟩
def MBX_TX_SEND_TAG : Fld := ⟨31, 0⟩
def MBX_TX_STAT_REJ_FULL : Fld := ⟨63, 63⟩
def MBX_TX_STAT_REJ_BIND : Fld := ⟨62, 62⟩
def MBX_TX_STAT_BUSY : Fld := ⟨31, 0⟩
def MBX_RX_PEND_PEND : Fld := ⟨31, 0⟩
def MBX_RX_PTR_PTR : Fld := ⟨63, 0⟩
def MBX_RX_MSG_FULL : Fld := ⟨63, 63⟩
def MBX_RX_MSG_TAG : Fld := ⟨31, 0⟩
def JNL_STATUS_READY : Fld := ⟨31, 31⟩
def JNL_STATUS_LOST : Fld := ⟨30, 30⟩
def JNL_STATUS_PERSIST_FAIL : Fld := ⟨29, 29⟩
def JNL_STATUS_RESTART : Fld := ⟨2, 0⟩
def JNL_CTL_NOTIFY_EN : Fld := ⟨0, 0⟩
def JNL_NEWEST_DSEQ : Fld := ⟨63, 0⟩
def JNL_OLDEST_DSEQ : Fld := ⟨63, 0⟩
def JNL_PERSISTED_DSEQ : Fld := ⟨63, 0⟩
def JNL_PERSIST_TIME_TIME : Fld := ⟨63, 0⟩
def SPR_CAP_ENABLED : Fld := ⟨31, 31⟩
def SPR_CAP_REPAIRED : Fld := ⟨30, 30⟩
def SPR_CAP_REP_ROW : Fld := ⟨29, 25⟩
def SPR_CAP_ARRAY_ADJ : Fld := ⟨24, 24⟩
def SPR_CAP_SYNC_CELLS : Fld := ⟨23, 16⟩
def SPR_CAP_LS_KIB : Fld := ⟨11, 0⟩
def SPR_MAP_REACH : Fld := ⟨19, 16⟩
def SPR_MAP_LOGICAL : Fld := ⟨9, 0⟩
def SPR_CTL_LAT_NATIVE : Fld := ⟨2, 2⟩
def SPR_CTL_HAZ_TRAP : Fld := ⟨1, 1⟩
def SPR_CTL_HAZ_EN : Fld := ⟨0, 0⟩
def SPR_STATUS_TASK : Fld := ⟨31, 16⟩
def SPR_STATUS_STATE : Fld := ⟨10, 8⟩
def SPR_STATUS_SEQ : Fld := ⟨7, 6⟩
def SPR_STATUS_MOVER : Fld := ⟨5, 4⟩
def SPR_STATUS_VEC : Fld := ⟨3, 2⟩
def SPR_STATUS_MAT : Fld := ⟨1, 0⟩
def SPR_FAULT_VALID : Fld := ⟨63, 63⟩
def SPR_FAULT_MORE : Fld := ⟨62, 62⟩
def SPR_FAULT_RESTARTABLE : Fld := ⟨61, 61⟩
def SPR_FAULT_CLASS : Fld := ⟨55, 52⟩
def SPR_FAULT_ENGINE : Fld := ⟨51, 48⟩
def SPR_FAULT_ROW : Fld := ⟨47, 40⟩
def SPR_FAULT_QPOS : Fld := ⟨25, 0⟩
def SPR_FAULT_ADDR_ADDR : Fld := ⟨47, 0⟩
def SPR_HAZ_FIRST_VALID : Fld := ⟨63, 63⟩
def SPR_HAZ_FIRST_MORE : Fld := ⟨62, 62⟩
def SPR_HAZ_FIRST_KIND : Fld := ⟨61, 60⟩
def SPR_HAZ_FIRST_READER : Fld := ⟨59, 56⟩
def SPR_HAZ_FIRST_WRITER : Fld := ⟨55, 52⟩
def SPR_HAZ_FIRST_RESTYPE : Fld := ⟨51, 48⟩
def SPR_HAZ_FIRST_INDEX : Fld := ⟨47, 40⟩
def SPR_HAZ_FIRST_QPOS : Fld := ⟨25, 0⟩
def SPR_ARR_CTL_GAP_THRESH : Fld := ⟨13, 0⟩
def SPR_ARR_STAT_DUTY1 : Fld := ⟨25, 19⟩
def SPR_ARR_STAT_STATE1 : Fld := ⟨18, 16⟩
def SPR_ARR_STAT_DUTY0 : Fld := ⟨9, 3⟩
def SPR_ARR_STAT_STATE0 : Fld := ⟨2, 0⟩
def SPR_TAG_OP_TAGS : Fld := ⟨63, 0⟩
def SPR_TAG_ACC_TAG3 : Fld := ⟨15, 12⟩
def SPR_TAG_ACC_TAG2 : Fld := ⟨11, 8⟩
def SPR_TAG_ACC_TAG1 : Fld := ⟨7, 4⟩
def SPR_TAG_ACC_TAG0 : Fld := ⟨3, 0⟩
def SPR_SKIP_CTL_BAND_GATE : Fld := ⟨1, 1⟩
def SPR_SKIP_CTL_SKIP_EN : Fld := ⟨0, 0⟩
def SPR_LOOP_FAULT_VALID : Fld := ⟨63, 63⟩
def SPR_LOOP_FAULT_ITER : Fld := ⟨47, 0⟩
def SPR_NUMCTL_OVF_MASK : Fld := ⟨22, 16⟩
def SPR_NUMCTL_E5M2_INF : Fld := ⟨5, 5⟩
def SPR_NUMCTL_SR_EN : Fld := ⟨4, 4⟩
def SPR_NUMCTL_RND_DEFAULT : Fld := ⟨0, 0⟩
def SPR_NUMSTAT_MX_SPECIAL : Fld := ⟨6, 6⟩
def SPR_NUMSTAT_UNDERFLOW : Fld := ⟨5, 5⟩
def SPR_NUMSTAT_INF_IN : Fld := ⟨4, 4⟩
def SPR_NUMSTAT_SATURATE : Fld := ⟨3, 3⟩
def SPR_NUMSTAT_OVERFLOW : Fld := ⟨2, 2⟩
def SPR_NUMSTAT_NAN_IN : Fld := ⟨1, 1⟩
def SPR_NUMSTAT_INVALID : Fld := ⟨0, 0⟩
def SPR_RNG_SEED_SEED : Fld := ⟨63, 0⟩
def SPR_RSD_LOG_VALID : Fld := ⟨63, 63⟩
def SPR_RSD_LOG_MORE : Fld := ⟨62, 62⟩
def SPR_RSD_LOG_ENGINE : Fld := ⟨61, 60⟩
def SPR_RSD_LOG_POINT : Fld := ⟨59, 56⟩
def SPR_RSD_LOG_TILE : Fld := ⟨55, 48⟩
def SPR_RSD_LOG_ROW : Fld := ⟨47, 40⟩
def SPR_RSD_LOG_COL : Fld := ⟨39, 32⟩
def SPR_RSD_LOG_EXPECTED : Fld := ⟨31, 29⟩
def SPR_RSD_LOG_OBSERVED : Fld := ⟨28, 26⟩
def SPR_RSD_LOG_QPOS : Fld := ⟨25, 0⟩
def SPR_RSD_INJECT_ARM : Fld := ⟨2, 2⟩
def SPR_RSD_INJECT_ENGINE : Fld := ⟨1, 0⟩
def SPR_SYNC_CELL_WORD : Fld := ⟨63, 0⟩
def SPR_SYNC_SATHI_CELLS : Fld := ⟨47, 0⟩
def SPR_SYNC_SATLO_CELLS : Fld := ⟨47, 0⟩
def SPR_SYNC_HOLDFLG_CELLS : Fld := ⟨47, 0⟩
def SPR_SYNC_HOLD_LIM_LIMIT : Fld := ⟨31, 0⟩
def SPR_SYNC_REMERR_VALID : Fld := ⟨63, 63⟩
def SPR_SYNC_REMERR_MORE : Fld := ⟨62, 62⟩
def SPR_SYNC_REMERR_REASON : Fld := ⟨55, 48⟩
def SPR_SYNC_REMERR_CELL : Fld := ⟨47, 42⟩
def SPR_SYNC_REMERR_SRC_SPIRE : Fld := ⟨41, 32⟩
def SPR_SYNC_REMERR_SRC_MODULE : Fld := ⟨31, 26⟩
def SPR_MEM_CTL_PF_EN : Fld := ⟨31, 31⟩
def SPR_MEM_CTL_PF_RESERVE : Fld := ⟨13, 8⟩
def SPR_MEM_CTL_PF_DEPTH : Fld := ⟨4, 0⟩
def SPR_XLT_ROOT_ROOT : Fld := ⟨47, 12⟩
def CNL_STATUS_TABLES_VALID : Fld := ⟨31, 31⟩
def CNL_STATUS_HARVEST_FAIL : Fld := ⟨30, 30⟩
def CNL_STATUS_FAILED : Fld := ⟨9, 0⟩
def CNL_ARB_QUANTUM_Q3 : Fld := ⟨31, 24⟩
def CNL_ARB_QUANTUM_Q2 : Fld := ⟨23, 16⟩
def CNL_ARB_QUANTUM_Q1 : Fld := ⟨15, 8⟩
def CNL_ARB_QUANTUM_Q0 : Fld := ⟨7, 0⟩
def CNL_MC_CTL_TIMEOUT : Fld := ⟨19, 0⟩
def CNL_MC_STUCK_VALID : Fld := ⟨63, 63⟩
def CNL_MC_STUCK_MORE : Fld := ⟨62, 62⟩
def CNL_MC_STUCK_REASON : Fld := ⟨61, 58⟩
def CNL_MC_STUCK_CLASS : Fld := ⟨57, 56⟩
def CNL_MC_STUCK_GROUP : Fld := ⟨55, 48⟩
def CNL_MC_STUCK_PORT : Fld := ⟨47, 45⟩
def CNL_MC_STUCK_SITE : Fld := ⟨44, 35⟩
def CNL_MC_STUCK_TIME : Fld := ⟨31, 0⟩
def CNL_RT_SEL_SITE : Fld := ⟨21, 12⟩
def CNL_RT_SEL_ENTRY : Fld := ⟨9, 0⟩
def CNL_RT_DATA_ENTRIES : Fld := ⟨63, 0⟩
def CNL_GRP_SEL_GROUP : Fld := ⟨15, 8⟩
def CNL_GRP_SEL_WORD : Fld := ⟨4, 0⟩
def CNL_GRP_DATA_DATA : Fld := ⟨63, 0⟩
def CNL_FAILED_ROUTERS : Fld := ⟨63, 0⟩
def CNL_AQ_STATUS_STATE_EW : Fld := ⟨29, 28⟩
def CNL_AQ_STATUS_STATE_WE : Fld := ⟨27, 26⟩
def CNL_AQ_CTL_RETRY_LIM : Fld := ⟨15, 0⟩
def CNL_AQ_ERR_VALID : Fld := ⟨63, 63⟩
def CNL_AQ_ERR_MORE : Fld := ⟨62, 62⟩
def CNL_AQ_ERR_DIR : Fld := ⟨61, 61⟩
def CNL_AQ_ERR_CHANNEL : Fld := ⟨60, 55⟩
def CNL_AQ_ERR_REASON : Fld := ⟨54, 52⟩
def CNL_AQ_ERR_TIME : Fld := ⟨31, 0⟩
def TWR_STATUS_TEMP : Fld := ⟨31, 24⟩
def TWR_STATUS_ODECC : Fld := ⟨23, 16⟩
def TWR_STATUS_LEVEL : Fld := ⟨10, 8⟩
def TWR_STATUS_STATE : Fld := ⟨2, 0⟩
def TWR_SCRUB_CTL_EN : Fld := ⟨31, 31⟩
def TWR_SCRUB_CTL_PERIOD : Fld := ⟨19, 0⟩
def TWR_SCRUB_POS_POS : Fld := ⟨27, 0⟩
def TWR_CE_LIMIT_WINDOW : Fld := ⟨23, 16⟩
def TWR_CE_LIMIT_LIMIT : Fld := ⟨15, 0⟩
def TWR_LOG_PTR_NEXT : Fld := ⟨5, 0⟩
def TWR_MARGIN_CTL_START : Fld := ⟨31, 31⟩
def TWR_MARGIN_CTL_DIR : Fld := ⟨30, 30⟩
def TWR_MARGIN_CTL_CHANNEL : Fld := ⟨29, 25⟩
def TWR_MARGIN_CTL_SIGNAL : Fld := ⟨24, 18⟩
def TWR_MARGIN_CTL_VREF : Fld := ⟨17, 11⟩
def TWR_MARGIN_CTL_TIMING : Fld := ⟨10, 4⟩
def TWR_MARGIN_CTL_COUNT : Fld := ⟨3, 0⟩
def TWR_MARGIN_RESULT_DONE : Fld := ⟨63, 63⟩
def TWR_MARGIN_RESULT_ERRORS : Fld := ⟨31, 0⟩
def TWR_LOG_ADDR_LO : Fld := ⟨63, 51⟩
def TWR_LOG_UE : Fld := ⟨50, 50⟩
def TWR_LOG_SOURCE : Fld := ⟨49, 48⟩
def TWR_LOG_CHANNEL : Fld := ⟨47, 43⟩
def TWR_LOG_BANK : Fld := ⟨42, 37⟩
def TWR_LOG_ROW : Fld := ⟨36, 22⟩
def TWR_LOG_COL : Fld := ⟨21, 20⟩
def TWR_LOG_SYNDROME : Fld := ⟨19, 12⟩
def TWR_LOG_BIT : Fld := ⟨11, 5⟩
def TWR_LOG_VALID : Fld := ⟨0, 0⟩
def TWR_LOG_HI_TIME : Fld := ⟨63, 32⟩
def TWR_LOG_HI_ADDR_HI : Fld := ⟨31, 0⟩
def TWR_IL_ENTRIES : Fld := ⟨63, 0⟩
def TWR_RETIRE_ENTRY : Fld := ⟨63, 0⟩
def TWR_RETIRE_USED_USED : Fld := ⟨9, 0⟩
def TWR_FAR_CFG_LINK_UP : Fld := ⟨31, 31⟩
def TWR_FAR_CFG_BIFUR : Fld := ⟨30, 29⟩
def TWR_FAR_CFG_EXPANDERS : Fld := ⟨26, 24⟩
def TWR_FAR_CFG_STRIPED : Fld := ⟨23, 23⟩
def TWR_FAR_CFG_SIZE_GIB : Fld := ⟨12, 0⟩
def LNK_STATUS_STATE : Fld := ⟨31, 28⟩
def LNK_STATUS_NB_POS : Fld := ⟨27, 22⟩
def LNK_STATUS_NB_LINK : Fld := ⟨21, 16⟩
def LNK_STATUS_GROUP : Fld := ⟨15, 13⟩
def LNK_CTL_EN : Fld := ⟨31, 31⟩
def LNK_CTL_RETRAIN : Fld := ⟨30, 30⟩
def LNK_CTL_RETRY_LIM : Fld := ⟨15, 0⟩
def LNK_ERR_VALID : Fld := ⟨63, 63⟩
def LNK_ERR_MORE : Fld := ⟨62, 62⟩
def LNK_ERR_REASON : Fld := ⟨61, 58⟩
def LNK_ERR_TIME : Fld := ⟨31, 0⟩
def LNK_POD_CFG_POD_ID : Fld := ⟨63, 32⟩
def LNK_POD_CFG_TOPO : Fld := ⟨31, 29⟩
def LNK_POD_CFG_DIMX : Fld := ⟨28, 25⟩
def LNK_POD_CFG_DIMY : Fld := ⟨24, 22⟩
def LNK_POD_CFG_DIMZ : Fld := ⟨21, 19⟩
def LNK_POD_CFG_GATEWAY : Fld := ⟨18, 18⟩
def LNK_POD_CFG_POSITION : Fld := ⟨17, 12⟩
def LNK_POD_CFG_SPARE : Fld := ⟨11, 11⟩
def LNK_POD_CFG_LOGICAL : Fld := ⟨10, 5⟩
def LNK_LMAP_ENTRIES : Fld := ⟨63, 0⟩
def LNK_ARB_QUANTUM_Q3 : Fld := ⟨31, 24⟩
def LNK_ARB_QUANTUM_Q2 : Fld := ⟨23, 16⟩
def LNK_ARB_QUANTUM_Q1 : Fld := ⟨15, 8⟩
def LNK_ARB_QUANTUM_Q0 : Fld := ⟨7, 0⟩
def LNK_RT_SEL_BANK : Fld := ⟨31, 31⟩
def LNK_RT_SEL_TABLE : Fld := ⟨30, 28⟩
def LNK_RT_SEL_ENTRY : Fld := ⟨5, 0⟩
def LNK_RT_DATA_ENTRIES : Fld := ⟨63, 0⟩
def LNK_RT_MASK_LINKS : Fld := ⟨47, 0⟩
def LNK_PHASE_CTL_MODE : Fld := ⟨31, 31⟩
def LNK_PHASE_CTL_TGEN : Fld := ⟨30, 30⟩
def LNK_PHASE_CTL_BANK : Fld := ⟨29, 29⟩
def LNK_PHASE_CTL_PHASE : Fld := ⟨28, 26⟩
def LNK_PHASE_CTL_ALARM : Fld := ⟨25, 25⟩
def LNK_PHASE_CTL_HOLD_LIM : Fld := ⟨19, 0⟩
def LNK_TB_STATUS_LOCKED : Fld := ⟨63, 63⟩
def LNK_TB_STATUS_ALARM : Fld := ⟨62, 62⟩
def LNK_TB_STATUS_PARENT_LINK : Fld := ⟨61, 56⟩
def LNK_TB_STATUS_DEPTH : Fld := ⟨55, 53⟩
def LNK_TB_STATUS_OFFSET : Fld := ⟨15, 0⟩
def LNK_MIR_CFG_EN : Fld := ⟨31, 31⟩
def LNK_MIR_CFG_PARTNER : Fld := ⟨30, 25⟩
def LNK_MIR_CFG_REGIONS : Fld := ⟨6, 0⟩
def LNK_MIR_STAT_STATE : Fld := ⟨63, 62⟩
def LNK_MIR_STAT_SLOT : Fld := ⟨61, 61⟩
def LNK_MIR_STAT_FULL : Fld := ⟨60, 60⟩
def LNK_MIR_STAT_PENDING : Fld := ⟨23, 0⟩
def LNK_MIR_EPOCH_EPOCH : Fld := ⟨63, 0⟩
def LNK_CE_CTL_CONG_PCT : Fld := ⟨31, 24⟩
def LNK_CE_CTL_COALESCE : Fld := ⟨23, 16⟩
def LNK_CE_CTL_POLL_NS : Fld := ⟨15, 0⟩
def LNK_CE_CTL2_COALESCE_US : Fld := ⟨31, 16⟩
def LNK_CE_CTL2_STALL_MS : Fld := ⟨15, 0⟩
def LNK_CE_STATUS_ACTIVE : Fld := ⟨20, 16⟩
def LNK_CE_STATUS_QBUSY : Fld := ⟨15, 0⟩
def LNK_CE_ERR_VALID : Fld := ⟨63, 63⟩
def LNK_CE_ERR_MORE : Fld := ⟨62, 62⟩
def LNK_CE_ERR_REASON : Fld := ⟨61, 58⟩
def LNK_CE_ERR_QUEUE : Fld := ⟨57, 54⟩
def LNK_CE_ERR_COLL_ID : Fld := ⟨47, 32⟩
def LNK_CE_ERR_TIME : Fld := ⟨31, 0⟩
def LNK_STQ_STAT_DIR : Fld := ⟨63, 62⟩
def LNK_STQ_STAT_PEER : Fld := ⟨61, 56⟩
def LNK_STQ_STAT_PEER_Q : Fld := ⟨55, 51⟩
def LNK_STQ_STAT_DEPTH : Fld := ⟨50, 46⟩
def LNK_STQ_STAT_OCC : Fld := ⟨45, 41⟩
def LNK_STQ_STAT_NEXT : Fld := ⟨31, 0⟩
def BSN_STATUS_STATE : Fld := ⟨31, 29⟩
def BSN_STATUS_KEY_OK : Fld := ⟨28, 28⟩
def BSN_STATUS_HEALTH_LOST : Fld := ⟨27, 27⟩
def BSN_STATUS_CAPTURE : Fld := ⟨26, 26⟩
def BSN_CKPT_CTL_PARTNER : Fld := ⟨23, 23⟩
def BSN_CKPT_CTL_KEEP : Fld := ⟨19, 16⟩
def BSN_RGN_LIST_COUNT : Fld := ⟨63, 56⟩
def BSN_RGN_LIST_ADDR : Fld := ⟨47, 0⟩
def BSN_PATROL_CTL_PATROL_DAYS : Fld := ⟨31, 24⟩
def BSN_PATROL_CTL_REFRESH_DAYS : Fld := ⟨23, 16⟩
def BSN_PATROL_CTL_DISTURB_K : Fld := ⟨15, 0⟩
def BSN_CAPTURE_REMAIN : Fld := ⟨63, 32⟩
def BSN_CAPTURE_HELD : Fld := ⟨31, 0⟩
def BSN_CKPT_EPOCH_EPOCH : Fld := ⟨63, 0⟩
def BSN_CAP_FREE : Fld := ⟨63, 32⟩
def BSN_CAP_USABLE : Fld := ⟨31, 0⟩
def BSN_WEAR_MAX_PE : Fld := ⟨31, 16⟩
def BSN_WEAR_AVG_PE : Fld := ⟨15, 0⟩
def BSN_BLOCKS_FACTORY_BAD : Fld := ⟨63, 48⟩
def BSN_BLOCKS_GROWN_BAD : Fld := ⟨47, 32⟩
def BSN_BLOCKS_SPARE_LEFT : Fld := ⟨31, 16⟩
def BSN_ERR_VALID : Fld := ⟨63, 63⟩
def BSN_ERR_MORE : Fld := ⟨62, 62⟩
def BSN_ERR_REASON : Fld := ⟨61, 58⟩
def BSN_ERR_SOURCE : Fld := ⟨57, 55⟩
def BSN_ERR_DIE : Fld := ⟨54, 49⟩
def BSN_ERR_BLOCK : Fld := ⟨48, 36⟩
def BSN_ERR_TIME : Fld := ⟨31, 0⟩
def BSN_SANITIZE_START : Fld := ⟨0, 0⟩
def PWR_STATUS_STATE : Fld := ⟨31, 29⟩
def PWR_STATUS_INPUT_OK : Fld := ⟨28, 28⟩
def PWR_STATUS_LOSS : Fld := ⟨27, 27⟩
def PWR_STATUS_CAP_LIMITING : Fld := ⟨26, 26⟩
def PWR_STATUS_THERM_LIMITING : Fld := ⟨25, 25⟩
def PWR_STATUS_SB_OK : Fld := ⟨24, 24⟩
def PWR_STATUS_CAP_UNMET : Fld := ⟨23, 23⟩
def PWR_CAP_CTL_FLOOR : Fld := ⟨24, 16⟩
def PWR_CAP_CTL_CAP_W : Fld := ⟨15, 0⟩
def PWR_THERM_CTL_T_LIMIT : Fld := ⟨31, 24⟩
def PWR_THERM_CTL_T_TRIP : Fld := ⟨23, 16⟩
def PWR_INPUT_VIN : Fld := ⟨63, 48⟩
def PWR_INPUT_IIN : Fld := ⟨47, 32⟩
def PWR_INPUT_PIN : Fld := ⟨31, 0⟩
def PWR_WINDOW_LAST : Fld := ⟨63, 32⟩
def PWR_WINDOW_MAX : Fld := ⟨31, 0⟩
def PWR_TEMP_DOME_W : Fld := ⟨31, 24⟩
def PWR_TEMP_DOME_E : Fld := ⟨23, 16⟩
def PWR_TEMP_TOWER : Fld := ⟨15, 8⟩
def PWR_TEMP_STAGE : Fld := ⟨7, 0⟩
def PWR_RAIL_MV : Fld := ⟨63, 48⟩
def PWR_RAIL_CURRENT : Fld := ⟨47, 32⟩
def PWR_RAIL_PGOOD : Fld := ⟨31, 31⟩
def PWR_RAIL_FAULT : Fld := ⟨30, 30⟩
def CLK_SPIRE_W_CUR : Fld := ⟨63, 55⟩
def CLK_SPIRE_W_USER : Fld := ⟨54, 46⟩
def CLK_SPIRE_W_CAP : Fld := ⟨45, 37⟩
def CLK_SPIRE_W_THERM : Fld := ⟨36, 28⟩
def CLK_SPIRE_W_VMV : Fld := ⟨27, 16⟩
def CLK_SPIRE_W_SWITCHING : Fld := ⟨0, 0⟩
def CLK_SPIRE_E_CUR : Fld := ⟨63, 55⟩
def CLK_SPIRE_E_USER : Fld := ⟨54, 46⟩
def CLK_SPIRE_E_CAP : Fld := ⟨45, 37⟩
def CLK_SPIRE_E_THERM : Fld := ⟨36, 28⟩
def CLK_SPIRE_E_VMV : Fld := ⟨27, 16⟩
def CLK_SPIRE_E_SWITCHING : Fld := ⟨0, 0⟩
def CLK_TIME_TIME : Fld := ⟨63, 0⟩
def CLK_PLL_PORT : Fld := ⟨19, 18⟩
def CLK_PLL_LANTERN : Fld := ⟨17, 17⟩
def CLK_PLL_TOWER : Fld := ⟨16, 9⟩
def CLK_PLL_CANAL : Fld := ⟨8, 7⟩
def CLK_PLL_SPIRE : Fld := ⟨6, 3⟩
def CLK_PLL_ACTIVE : Fld := ⟨2, 1⟩
def CLK_PLL_OSC : Fld := ⟨0, 0⟩
def SEC_STATE_BINDINGS_LOCKED : Fld := ⟨7, 7⟩
def SEC_STATE_IDE_ACTIVE : Fld := ⟨6, 6⟩
def SEC_STATE_IDE_REQUIRED : Fld := ⟨5, 5⟩
def SEC_STATE_AUTH_LOCKOUT : Fld := ⟨4, 4⟩
def SEC_STATE_MANUF_SERVICE : Fld := ⟨3, 3⟩
def SEC_STATE_DEBUG_OPEN : Fld := ⟨2, 2⟩
def SEC_STATE_DEBUG_DISABLED : Fld := ⟨1, 1⟩
def SEC_STATE_SECURE_BOOT : Fld := ⟨0, 0⟩
def SEC_BOOT_STAT_STAGE : Fld := ⟨31, 28⟩
def SEC_BOOT_STAT_ATTEMPT : Fld := ⟨27, 26⟩
def SEC_BOOT_STAT_LK_BANK : Fld := ⟨25, 25⟩
def SEC_BOOT_STAT_LT_BANK : Fld := ⟨24, 24⟩
def SEC_BOOT_STAT_CFG_BANK : Fld := ⟨23, 23⟩
def SEC_BOOT_STAT_FAIL : Fld := ⟨3, 0⟩
def SEC_FW_LK_VERSION : Fld := ⟨63, 32⟩
def SEC_FW_LK_SVN : Fld := ⟨31, 24⟩
def SEC_FW_LK_BANK : Fld := ⟨23, 23⟩
def SEC_FW_LK_PENDING : Fld := ⟨22, 22⟩
def SEC_FW_LK_KEY : Fld := ⟨21, 20⟩
def SEC_FW_LT_VERSION : Fld := ⟨63, 32⟩
def SEC_FW_LT_SVN : Fld := ⟨31, 24⟩
def SEC_FW_LT_BANK : Fld := ⟨23, 23⟩
def SEC_FW_LT_PENDING : Fld := ⟨22, 22⟩
def SEC_FW_LT_KEY : Fld := ⟨21, 20⟩
def SEC_FW_CFG_VERSION : Fld := ⟨63, 32⟩
def SEC_FW_CFG_SVN : Fld := ⟨31, 24⟩
def SEC_FW_CFG_BANK : Fld := ⟨23, 23⟩
def SEC_FW_CFG_PENDING : Fld := ⟨22, 22⟩
def SEC_FW_CFG_KEY : Fld := ⟨21, 20⟩
def SEC_SVN_MIN_CFG : Fld := ⟨23, 16⟩
def SEC_SVN_MIN_LT : Fld := ⟨15, 8⟩
def SEC_SVN_MIN_LK : Fld := ⟨7, 0⟩
def SEC_SVN_CTL_COMMIT_CFG : Fld := ⟨2, 2⟩
def SEC_SVN_CTL_COMMIT_LT : Fld := ⟨1, 1⟩
def SEC_SVN_CTL_COMMIT_LK : Fld := ⟨0, 0⟩
def SEC_KEYS_D_REVOKED : Fld := ⟨5, 4⟩
def SEC_KEYS_F_REVOKED : Fld := ⟨3, 0⟩
def SEC_AUTH_NONCE_VALID : Fld := ⟨31, 31⟩
def SEC_AUTH_FAILS : Fld := ⟨3, 0⟩
def SEC_IDE_STATE : Fld := ⟨31, 30⟩
def SEC_IDE_STREAM : Fld := ⟨29, 24⟩
def SEC_IDE_KSET : Fld := ⟨23, 23⟩
def ERR_STATUS_LOST : Fld := ⟨31, 31⟩
def ERR_STATUS_UNREAD : Fld := ⟨10, 0⟩
def ERR_NEWEST_RSEQ : Fld := ⟨63, 0⟩
def ERR_CTL_EVT_CLASS : Fld := ⟨31, 29⟩
def ERR_CTL_STOP_LIM : Fld := ⟨28, 16⟩
def ERR_CTL_WARM_LIM : Fld := ⟨15, 0⟩
def ERR_JOB_STOP_ID : Fld := ⟨63, 48⟩
def ERR_JOB_SRC_POS : Fld := ⟨47, 42⟩
def ERR_JOB_STATE : Fld := ⟨41, 40⟩
def ERR_JOB_ID_JOB_ID : Fld := ⟨63, 0⟩
def ERR_REC_SEL_INDEX : Fld := ⟨9, 0⟩
def ERR_REC_WORD : Fld := ⟨63, 0⟩
def TST_STATUS_SCAN_ACTIVE : Fld := ⟨63, 63⟩
def TST_STATUS_H1 : Fld := ⟨62, 62⟩
def TST_STATUS_H0 : Fld := ⟨61, 61⟩
def TST_STATUS_TOWERS : Fld := ⟨55, 48⟩
def TST_STATUS_LINKS : Fld := ⟨47, 0⟩
def TST_CTL_SCAN_EN : Fld := ⟨31, 31⟩
def TST_PORT_CTL_DWELL_MS : Fld := ⟨31, 16⟩
def TST_PORT_CTL_PATTERN : Fld := ⟨1, 0⟩
def TST_BIST_STAT_KIND : Fld := ⟨31, 31⟩
def TST_BIST_STAT_BOOT : Fld := ⟨30, 30⟩
def TST_BIST_STAT_FAILED : Fld := ⟨10, 0⟩
def TST_BIST_SITE_SITES : Fld := ⟨63, 0⟩
def TST_PPR_CTL_START : Fld := ⟨63, 63⟩
def TST_PPR_CTL_TOWER : Fld := ⟨57, 55⟩
def TST_PPR_CTL_CHANNEL : Fld := ⟨54, 50⟩
def TST_PPR_CTL_BANK : Fld := ⟨49, 44⟩
def TST_PPR_CTL_ROW : Fld := ⟨43, 29⟩
def TST_PPR_RESULT_DONE : Fld := ⟨31, 31⟩
def TST_PPR_RESULT_RESULT : Fld := ⟨30, 28⟩
def TST_PPR_RESULT_SPARES : Fld := ⟨7, 0⟩
def TST_H1_MARGIN_CMD_START : Fld := ⟨31, 31⟩
def TST_H1_MARGIN_CMD_TARGET : Fld := ⟨30, 30⟩
def TST_H1_MARGIN_CMD_LANE : Fld := ⟨29, 26⟩
def TST_H1_MARGIN_CMD_COMMAND : Fld := ⟨15, 0⟩
def TST_H1_MARGIN_RSP_DONE : Fld := ⟨31, 31⟩
def TST_H1_MARGIN_RSP_RESPONSE : Fld := ⟨15, 0⟩
def TST_LNK_CTL_START : Fld := ⟨31, 31⟩
def TST_LNK_CTL_LANE : Fld := ⟨30, 30⟩
def TST_LNK_CTL_EYE : Fld := ⟨29, 28⟩
def TST_LNK_CTL_PATTERN : Fld := ⟨27, 26⟩
def TST_LNK_CTL_TOFF : Fld := ⟨25, 19⟩
def TST_LNK_CTL_VOFF : Fld := ⟨18, 12⟩
def TST_LNK_CTL_COUNT : Fld := ⟨3, 0⟩
def TST_LNK_RESULT_DONE : Fld := ⟨63, 63⟩
def TST_LNK_RESULT_ERRORS : Fld := ⟨31, 0⟩
def TST_LNK_EYE_H_UPPER : Fld := ⟨63, 56⟩
def TST_LNK_EYE_H_MID : Fld := ⟨55, 48⟩
def TST_LNK_EYE_H_LOWER : Fld := ⟨47, 40⟩
def TST_LNK_EYE_W_UPPER : Fld := ⟨39, 33⟩
def TST_LNK_EYE_W_MID : Fld := ⟨32, 26⟩
def TST_LNK_EYE_W_LOWER : Fld := ⟨25, 19⟩

end F

/-- Global block: field tables. -/
def regRowsGlb0 : List RegRow := [
  ⟨"GLB_SPEC_CTL", 0x4000, 0x0, 1, 0x0, 1, 32, false, false,
    [⟨"EN", 31, 31, .rw, 0⟩, ⟨"DRAIN_SHARE", 27, 24, .rw, 4⟩, ⟨"STALL_LIM", 15, 0, .rw, 0x3e8⟩]⟩,
  ⟨"GLB_SPEC_STAT", 0x4010, 0x0, 1, 0x10, 2, 64, false, false,
    [⟨"STATE", 63, 61, .ro, 0⟩, ⟨"HAS_PARENT", 60, 60, .ro, 0⟩, ⟨"PARENT_SLOT", 59, 59, .ro, 0⟩, ⟨"TASKS", 31, 0, .ro, 0⟩]⟩,
  ⟨"GLB_SPEC_NUM", 0x4018, 0x0, 1, 0x10, 2, 64, false, false,
    [⟨"EPOCH", 63, 0, .ro, 0⟩]⟩,
  ⟨"GLB_SPEC_SPILL_W", 0x4030, 0x0, 1, 0x0, 1, 64, false, false,
    [⟨"BARGES", 23, 0, .ro, 0⟩]⟩,
  ⟨"GLB_SPEC_SPILL_E", 0x4038, 0x0, 1, 0x0, 1, 64, false, false,
    [⟨"BARGES", 23, 0, .ro, 0⟩]⟩,
  ⟨"GLB_SPEC_COMMITS", 0x4040, 0x0, 1, 0x0, 1, 64, true, false,
    [⟨"COUNT", 63, 0, .ro, 0⟩]⟩,
  ⟨"GLB_SPEC_DISCARDS", 0x4048, 0x0, 1, 0x0, 1, 64, true, false,
    [⟨"COUNT", 63, 0, .ro, 0⟩]⟩,
  ⟨"GLB_SPEC_STALLS", 0x4050, 0x0, 1, 0x0, 1, 64, true, false,
    [⟨"COUNT", 63, 0, .ro, 0⟩]⟩,
  ⟨"GLB_SPEC_STALL_NS", 0x4058, 0x0, 1, 0x0, 1, 64, true, false,
    [⟨"COUNT", 63, 0, .ro, 0⟩]⟩,
  ⟨"GLB_SHADOW_BAR2", 0x4060, 0x0, 1, 0x0, 1, 64, true, false,
    [⟨"COUNT", 63, 0, .ro, 0⟩]⟩,
  ⟨"GLB_XLT_RESOLVE_LIM", 0x4070, 0x0, 1, 0x0, 1, 32, true, false,
    [⟨"LIMIT", 31, 0, .rw, 0x2710⟩]⟩,
  ⟨"GLB_LS_CTL", 0x5000, 0x0, 1, 0x0, 1, 64, true, false,
    [⟨"INTERVAL", 63, 48, .rw, 0x7d0⟩, ⟨"CONSEC_LIM", 47, 40, .rw, 0x10⟩, ⟨"MAX_EXP", 23, 16, .rw, 0x18⟩, ⟨"MIN_EXP", 15, 8, .rw, 0⟩, ⟨"INIT_EXP", 7, 0, .rw, 0x10⟩]⟩,
  ⟨"GLB_LS_STATE", 0x5008, 0x0, 1, 0x0, 1, 64, true, false,
    [⟨"CLEAN", 63, 48, .ro, 0⟩, ⟨"CONSEC_OVF", 47, 40, .ro, 0⟩, ⟨"EXP", 7, 0, .ro, 0⟩]⟩,
  ⟨"GLB_STEPS", 0x5010, 0x0, 1, 0x0, 1, 64, true, false,
    [⟨"STEPS", 63, 0, .ro, 0⟩]⟩,
  ⟨"GLB_STEP_LATCH", 0x5018, 0x0, 1, 0x0, 1, 32, false, false,
    [⟨"OVF", 0, 0, .ro, 0⟩]⟩,
  ⟨"GLB_PGT_BASE", 0x5020, 0x0, 1, 0x0, 1, 64, true, false,
    [⟨"NGROUPS", 63, 51, .ro, 0⟩, ⟨"BASE", 47, 0, .ro, 0⟩]⟩,
  ⟨"GLB_STEP_CLEAN", 0x5100, 0x0, 1, 0x0, 1, 64, true, false,
    [⟨"COUNT", 63, 0, .ro, 0⟩]⟩,
  ⟨"GLB_STEP_CLIP", 0x5108, 0x0, 1, 0x0, 1, 64, true, false,
    [⟨"COUNT", 63, 0, .ro, 0⟩]⟩,
  ⟨"GLB_STEP_OVERFLOW", 0x5110, 0x0, 1, 0x0, 1, 64, true, false,
    [⟨"COUNT", 63, 0, .ro, 0⟩]⟩,
  ⟨"GLB_STEP_MISMATCH", 0x5118, 0x0, 1, 0x0, 1, 64, true, false,
    [⟨"COUNT", 63, 0, .ro, 0⟩]⟩]

/-- Global block: field tables. -/
def regRowsGlb1 : List RegRow := [
  ⟨"GLB_UPD_FROZEN", 0x5120, 0x0, 1, 0x0, 1, 64, true, false,
    [⟨"COUNT", 63, 0, .ro, 0⟩]⟩]

def regRowsGlb : List RegRow := regRowsGlb0 ++ regRowsGlb1

/-- Command protocol: field tables. -/
def regRowsHcp : List RegRow := [
  ⟨"HCP_CTL", 0x100000, 0x0, 1, 0x0, 1, 32, true, false,
    [⟨"EVT_EN", 6, 6, .rw, 0⟩, ⟨"EVT_CQ", 5, 0, .rw, 0⟩]⟩,
  ⟨"HCP_ADMIT_CTL", 0x100008, 0x0, 1, 0x0, 1, 32, true, false,
    [⟨"T3", 15, 8, .rw, 0x60⟩, ⟨"T2", 7, 0, .rw, 0x20⟩]⟩,
  ⟨"HCP_ADMIT_STAT", 0x100010, 0x0, 1, 0x0, 1, 32, false, false,
    [⟨"C0", 31, 23, .ro, 0⟩, ⟨"SHARED", 22, 15, .ro, 0⟩, ⟨"FWD", 10, 0, .ro, 0⟩]⟩,
  ⟨"HCP_BAR2_BASE", 0x100018, 0x0, 1, 0x0, 1, 64, true, false,
    [⟨"BASE", 47, 30, .rw, 0⟩]⟩,
  ⟨"HCP_H0_STAT", 0x100020, 0x0, 1, 0x0, 1, 32, true, false,
    [⟨"CXL", 31, 31, .ro, 0⟩, ⟨"WIDTH", 25, 21, .ro, 0⟩, ⟨"RATE", 20, 16, .ro, 0⟩, ⟨"BAR2_LOG2", 5, 0, .ro, 0x24⟩]⟩,
  ⟨"HCP_FETCHED", 0x100100, 0x0, 1, 0x0, 1, 64, true, false,
    [⟨"COUNT", 63, 0, .ro, 0⟩]⟩,
  ⟨"HCP_ADMITTED", 0x100108, 0x0, 1, 0x0, 1, 64, true, false,
    [⟨"COUNT", 63, 0, .ro, 0⟩]⟩,
  ⟨"HCP_DELAYED", 0x100110, 0x0, 1, 0x0, 1, 64, true, false,
    [⟨"COUNT", 63, 0, .ro, 0⟩]⟩,
  ⟨"HCP_REFUSED_BUSY", 0x100118, 0x0, 1, 0x0, 1, 64, true, false,
    [⟨"COUNT", 63, 0, .ro, 0⟩]⟩,
  ⟨"HCP_REFUSED_OTHER", 0x100120, 0x0, 1, 0x0, 1, 64, true, false,
    [⟨"COUNT", 63, 0, .ro, 0⟩]⟩,
  ⟨"HCP_CQ_DROP", 0x100128, 0x0, 1, 0x0, 1, 64, true, false,
    [⟨"COUNT", 63, 0, .ro, 0⟩]⟩,
  ⟨"HCP_EVT_LOST", 0x100130, 0x0, 1, 0x0, 1, 64, true, false,
    [⟨"COUNT", 63, 0, .ro, 0⟩]⟩,
  ⟨"HCP_BAR2_DROP", 0x100138, 0x0, 1, 0x0, 1, 64, true, false,
    [⟨"COUNT", 63, 0, .ro, 0⟩]⟩,
  ⟨"HCP_MSIX_TABLE", 0x10C000, 0x0, 1, 0x8, 144, 64, true, false,
    [⟨"WORD", 63, 0, .rw, 0⟩]⟩,
  ⟨"HCP_MSIX_PBA", 0x10D000, 0x0, 1, 0x8, 2, 64, true, false,
    [⟨"WORD", 63, 0, .ro, 0⟩]⟩]

/-- Per-queue registers: field tables. -/
def regRowsHq : List RegRow := [
  ⟨"HCP_SQ_BASE", 0x101000, 0x40, 64, 0x0, 1, 64, true, false,
    [⟨"BASE", 63, 12, .rw, 0⟩, ⟨"LOC", 0, 0, .rw, 0⟩]⟩,
  ⟨"HCP_CQ_BASE", 0x101008, 0x40, 64, 0x0, 1, 64, true, false,
    [⟨"BASE", 63, 12, .rw, 0⟩, ⟨"LOC", 0, 0, .rw, 0⟩]⟩,
  ⟨"HCP_Q_CFG", 0x101010, 0x40, 64, 0x0, 1, 64, true, false,
    [⟨"SQ_EN", 63, 63, .rw, 0⟩, ⟨"CQ_EN", 62, 62, .rw, 0⟩, ⟨"SQ_LOG2", 61, 58, .rw, 1⟩, ⟨"CQ_LOG2", 57, 53, .rw, 1⟩, ⟨"VECTOR", 52, 46, .rw, 0⟩, ⟨"CO_COUNT", 45, 38, .rw, 1⟩, ⟨"CO_TIME", 37, 22, .rw, 0⟩]⟩,
  ⟨"HCP_SQ_SEQ", 0x101018, 0x40, 64, 0x0, 1, 32, true, false,
    [⟨"SEQ", 31, 0, .rw, 0⟩]⟩,
  ⟨"HCP_Q_STATUS", 0x101020, 0x40, 64, 0x0, 1, 64, true, false,
    [⟨"CQ_TAIL", 63, 48, .ro, 0⟩, ⟨"HOLD", 47, 37, .ro, 0⟩, ⟨"SQ_HEAD", 27, 16, .ro, 0⟩, ⟨"DB_ERR", 2, 2, .w1c, 0⟩, ⟨"FETCH_PAUSED", 1, 1, .ro, 0⟩, ⟨"CQ_FULL", 0, 0, .ro, 0⟩]⟩]

/-- Doorbells: field tables. -/
def regRowsDb : List RegRow := [
  ⟨"HCP_SQ_TAIL", 0x108000, 0x10, 64, 0x0, 1, 32, true, false,
    [⟨"TAIL", 11, 0, .wo, 0⟩]⟩,
  ⟨"HCP_CQ_HEAD", 0x108008, 0x10, 64, 0x0, 1, 32, true, false,
    [⟨"HEAD", 15, 0, .wo, 0⟩]⟩]

/-- Mailboxes: field tables. -/
def regRowsMbx : List RegRow := [
  ⟨"MBX_STATUS", 0x200000, 0x0, 1, 0x0, 1, 32, true, false,
    [⟨"LOCKED", 31, 31, .ro, 0⟩, ⟨"BOUND", 5, 0, .ro, 0⟩]⟩,
  ⟨"MBX_BIND", 0x200100, 0x0, 1, 0x8, 32, 64, true, false,
    [⟨"VALID", 63, 63, .ro, 0⟩, ⟨"SENDER", 47, 32, .ro, 0⟩, ⟨"RECEIVER", 31, 16, .ro, 0⟩]⟩,
  ⟨"MBX_CH_STAT", 0x200200, 0x0, 1, 0x8, 32, 32, false, false,
    [⟨"FULL", 31, 31, .ro, 0⟩, ⟨"PSTATE", 30, 29, .ro, 0⟩]⟩,
  ⟨"MBX_SENT", 0x200400, 0x0, 1, 0x0, 1, 64, true, false,
    [⟨"COUNT", 63, 0, .ro, 0⟩]⟩,
  ⟨"MBX_REJECTED", 0x200408, 0x0, 1, 0x0, 1, 64, true, false,
    [⟨"COUNT", 63, 0, .ro, 0⟩]⟩,
  ⟨"MBX_LOST", 0x200410, 0x0, 1, 0x0, 1, 64, true, false,
    [⟨"COUNT", 63, 0, .ro, 0⟩]⟩]

/-- Host-agent pages: field tables. -/
def regRowsPage : List RegRow := [
  ⟨"MBX_TX_PTR", 0x210000, 0x1000, 16, 0x0, 1, 64, true, false,
    [⟨"PTR", 63, 0, .rw, 0⟩]⟩,
  ⟨"MBX_TX_SEND", 0x210008, 0x1000, 16, 0x0, 1, 64, true, false,
    [⟨"CHANNEL", 36, 32, .wo, 0⟩, ⟨"TAG", 31, 0, .wo, 0⟩]⟩,
  ⟨"MBX_TX_STAT", 0x210010, 0x1000, 16, 0x0, 1, 64, true, false,
    [⟨"REJ_FULL", 63, 63, .w1c, 0⟩, ⟨"REJ_BIND", 62, 62, .w1c, 0⟩, ⟨"BUSY", 31, 0, .ro, 0⟩]⟩,
  ⟨"MBX_RX_PEND", 0x210018, 0x1000, 16, 0x0, 1, 64, true, false,
    [⟨"PEND", 31, 0, .ro, 0⟩]⟩,
  ⟨"MBX_RX_PTR", 0x210100, 0x1000, 16, 0x10, 32, 64, true, false,
    [⟨"PTR", 63, 0, .ro, 0⟩]⟩,
  ⟨"MBX_RX_MSG", 0x210108, 0x1000, 16, 0x10, 32, 64, true, false,
    [⟨"FULL", 63, 63, .rc, 0⟩, ⟨"TAG", 31, 0, .ro, 0⟩]⟩]

/-- Journal: field tables. -/
def regRowsJnl : List RegRow := [
  ⟨"JNL_STATUS", 0x300000, 0x0, 1, 0x0, 1, 32, true, false,
    [⟨"READY", 31, 31, .ro, 0⟩, ⟨"LOST", 30, 30, .w1c, 0⟩, ⟨"PERSIST_FAIL", 29, 29, .w1c, 0⟩, ⟨"RESTART", 2, 0, .ro, 0⟩]⟩,
  ⟨"JNL_CTL", 0x300008, 0x0, 1, 0x0, 1, 32, true, false,
    [⟨"NOTIFY_EN", 0, 0, .rw, 1⟩]⟩,
  ⟨"JNL_NEWEST", 0x300010, 0x0, 1, 0x0, 1, 64, true, false,
    [⟨"DSEQ", 63, 0, .ro, 0⟩]⟩,
  ⟨"JNL_OLDEST", 0x300018, 0x0, 1, 0x0, 1, 64, true, false,
    [⟨"DSEQ", 63, 0, .ro, 0⟩]⟩,
  ⟨"JNL_PERSISTED", 0x300020, 0x0, 1, 0x0, 1, 64, true, false,
    [⟨"DSEQ", 63, 0, .ro, 0⟩]⟩,
  ⟨"JNL_PERSIST_TIME", 0x300028, 0x0, 1, 0x0, 1, 64, true, false,
    [⟨"TIME", 63, 0, .ro, 0⟩]⟩,
  ⟨"JNL_ENTRIES", 0x300100, 0x0, 1, 0x0, 1, 64, true, false,
    [⟨"COUNT", 63, 0, .ro, 0⟩]⟩,
  ⟨"JNL_CARRIES", 0x300108, 0x0, 1, 0x0, 1, 64, true, false,
    [⟨"COUNT", 63, 0, .ro, 0⟩]⟩,
  ⟨"JNL_PERSISTS", 0x300110, 0x0, 1, 0x0, 1, 64, true, false,
    [⟨"COUNT", 63, 0, .ro, 0⟩]⟩,
  ⟨"JNL_PERSIST_LATE", 0x300118, 0x0, 1, 0x0, 1, 64, true, false,
    [⟨"COUNT", 63, 0, .ro, 0⟩]⟩,
  ⟨"JNL_QUERIES", 0x300120, 0x0, 1, 0x0, 1, 64, true, false,
    [⟨"COUNT", 63, 0, .ro, 0⟩]⟩]

/-- Spire site windows: field tables. -/
def regRowsSpr0 : List RegRow := [
  ⟨"SPR_CAP", 0x400000, 0x1000, 1024, 0x0, 1, 32, false, false,
    [⟨"ENABLED", 31, 31, .ro, 0⟩, ⟨"REPAIRED", 30, 30, .ro, 0⟩, ⟨"REP_ROW", 29, 25, .ro, 0⟩, ⟨"ARRAY_ADJ", 24, 24, .ro, 0⟩, ⟨"SYNC_CELLS", 23, 16, .ro, 0x30⟩, ⟨"LS_KIB", 11, 0, .ro, 0x180⟩]⟩,
  ⟨"SPR_MAP", 0x400004, 0x1000, 1024, 0x0, 1, 32, false, false,
    [⟨"REACH", 19, 16, .ro, 0⟩, ⟨"LOGICAL", 9, 0, .ro, 0⟩]⟩,
  ⟨"SPR_CTL", 0x400008, 0x1000, 1024, 0x0, 1, 32, false, false,
    [⟨"LAT_NATIVE", 2, 2, .ro, 0⟩, ⟨"HAZ_TRAP", 1, 1, .rw, 0⟩, ⟨"HAZ_EN", 0, 0, .rw, 0⟩]⟩,
  ⟨"SPR_STATUS", 0x40000C, 0x1000, 1024, 0x0, 1, 32, false, false,
    [⟨"TASK", 31, 16, .ro, 0⟩, ⟨"STATE", 10, 8, .ro, 0⟩, ⟨"SEQ", 7, 6, .ro, 0⟩, ⟨"MOVER", 5, 4, .ro, 0⟩, ⟨"VEC", 3, 2, .ro, 0⟩, ⟨"MAT", 1, 0, .ro, 0⟩]⟩,
  ⟨"SPR_FAULT", 0x400010, 0x1000, 1024, 0x0, 1, 64, true, true,
    [⟨"VALID", 63, 63, .w1c, 0⟩, ⟨"MORE", 62, 62, .ro, 0⟩, ⟨"RESTARTABLE", 61, 61, .ro, 0⟩, ⟨"CLASS", 55, 52, .ro, 0⟩, ⟨"ENGINE", 51, 48, .ro, 0⟩, ⟨"ROW", 47, 40, .ro, 0⟩, ⟨"QPOS", 25, 0, .ro, 0⟩]⟩,
  ⟨"SPR_FAULT_ADDR", 0x400018, 0x1000, 1024, 0x0, 1, 64, true, false,
    [⟨"ADDR", 47, 0, .ro, 0⟩]⟩,
  ⟨"SPR_HAZ_FIRST", 0x400020, 0x1000, 1024, 0x0, 1, 64, false, true,
    [⟨"VALID", 63, 63, .w1c, 0⟩, ⟨"MORE", 62, 62, .ro, 0⟩, ⟨"KIND", 61, 60, .ro, 0⟩, ⟨"READER", 59, 56, .ro, 0⟩, ⟨"WRITER", 55, 52, .ro, 0⟩, ⟨"RESTYPE", 51, 48, .ro, 0⟩, ⟨"INDEX", 47, 40, .ro, 0⟩, ⟨"QPOS", 25, 0, .ro, 0⟩]⟩,
  ⟨"SPR_HAZ_COUNT", 0x400028, 0x1000, 1024, 0x0, 1, 64, true, false,
    [⟨"COUNT", 63, 0, .ro, 0⟩]⟩,
  ⟨"SPR_RESTART_COUNT", 0x400030, 0x1000, 1024, 0x0, 1, 64, true, false,
    [⟨"COUNT", 63, 0, .ro, 0⟩]⟩,
  ⟨"SPR_ARR_CTL", 0x400200, 0x1000, 1024, 0x0, 1, 32, true, false,
    [⟨"GAP_THRESH", 13, 0, .rw, 0xfa0⟩]⟩,
  ⟨"SPR_ARR_STAT", 0x400204, 0x1000, 1024, 0x0, 1, 32, false, false,
    [⟨"DUTY1", 25, 19, .ro, 0⟩, ⟨"STATE1", 18, 16, .ro, 0⟩, ⟨"DUTY0", 9, 3, .ro, 0⟩, ⟨"STATE0", 2, 0, .ro, 0⟩]⟩,
  ⟨"SPR_ARR_BUSY", 0x400208, 0x1000, 1024, 0x0, 1, 64, true, false,
    [⟨"COUNT", 63, 0, .ro, 0⟩]⟩,
  ⟨"SPR_ARR_DUMMY", 0x400210, 0x1000, 1024, 0x0, 1, 64, true, false,
    [⟨"COUNT", 63, 0, .ro, 0⟩]⟩,
  ⟨"SPR_ARR_STRETCH", 0x400218, 0x1000, 1024, 0x0, 1, 64, true, false,
    [⟨"COUNT", 63, 0, .ro, 0⟩]⟩,
  ⟨"SPR_TAG_OP", 0x400220, 0x1000, 1024, 0x0, 1, 64, false, false,
    [⟨"TAGS", 63, 0, .ro, 0⟩]⟩,
  ⟨"SPR_TAG_ACC", 0x400228, 0x1000, 1024, 0x0, 1, 64, false, false,
    [⟨"TAG3", 15, 12, .ro, 0⟩, ⟨"TAG2", 11, 8, .ro, 0⟩, ⟨"TAG1", 7, 4, .ro, 0⟩, ⟨"TAG0", 3, 0, .ro, 0⟩]⟩,
  ⟨"SPR_SKIP_CTL", 0x400240, 0x1000, 1024, 0x0, 1, 32, false, false,
    [⟨"BAND_GATE", 1, 1, .rw, 1⟩, ⟨"SKIP_EN", 0, 0, .rw, 1⟩]⟩,
  ⟨"SPR_SKIP_KBLK", 0x400248, 0x1000, 1024, 0x0, 1, 64, true, false,
    [⟨"COUNT", 63, 0, .ro, 0⟩]⟩,
  ⟨"SPR_SKIP_BAND", 0x400250, 0x1000, 1024, 0x0, 1, 64, true, false,
    [⟨"COUNT", 63, 0, .ro, 0⟩]⟩,
  ⟨"SPR_SKIP_SAVED", 0x400258, 0x1000, 1024, 0x0, 1, 64, true, false,
    [⟨"COUNT", 63, 0, .ro, 0⟩]⟩]

/-- Spire site windows: field tables. -/
def regRowsSpr1 : List RegRow := [
  ⟨"SPR_SKIP_DECLINED", 0x400260, 0x1000, 1024, 0x0, 1, 64, true, false,
    [⟨"COUNT", 63, 0, .ro, 0⟩]⟩,
  ⟨"SPR_SKIP_DISAGREE", 0x400268, 0x1000, 1024, 0x0, 1, 64, true, false,
    [⟨"COUNT", 63, 0, .ro, 0⟩]⟩,
  ⟨"SPR_SP_ISSUE", 0x400270, 0x1000, 1024, 0x0, 1, 64, true, false,
    [⟨"COUNT", 63, 0, .ro, 0⟩]⟩,
  ⟨"SPR_LOOP_FAULT", 0x400280, 0x1000, 1024, 0x0, 1, 64, true, false,
    [⟨"VALID", 63, 63, .ro, 0⟩, ⟨"ITER", 47, 0, .ro, 0⟩]⟩,
  ⟨"SPR_LOOP_ITER", 0x400288, 0x1000, 1024, 0x0, 1, 64, true, false,
    [⟨"COUNT", 63, 0, .ro, 0⟩]⟩,
  ⟨"SPR_LOOP_ZERO", 0x400290, 0x1000, 1024, 0x0, 1, 64, true, false,
    [⟨"COUNT", 63, 0, .ro, 0⟩]⟩,
  ⟨"SPR_LOOP_GATE", 0x400298, 0x1000, 1024, 0x0, 1, 64, true, false,
    [⟨"COUNT", 63, 0, .ro, 0⟩]⟩,
  ⟨"SPR_VEC_ISSUE", 0x4002A0, 0x1000, 1024, 0x0, 1, 64, true, false,
    [⟨"COUNT", 63, 0, .ro, 0⟩]⟩,
  ⟨"SPR_VEC_BANKPASS", 0x4002A8, 0x1000, 1024, 0x0, 1, 64, true, false,
    [⟨"COUNT", 63, 0, .ro, 0⟩]⟩,
  ⟨"SPR_VEC_SRDRAW", 0x4002B0, 0x1000, 1024, 0x0, 1, 64, true, false,
    [⟨"COUNT", 63, 0, .ro, 0⟩]⟩,
  ⟨"SPR_NUMCTL", 0x400300, 0x1000, 1024, 0x0, 1, 32, false, false,
    [⟨"OVF_MASK", 22, 16, .rw, 0x57⟩, ⟨"E5M2_INF", 5, 5, .rw, 0⟩, ⟨"SR_EN", 4, 4, .rw, 1⟩, ⟨"RND_DEFAULT", 0, 0, .rw, 0⟩]⟩,
  ⟨"SPR_NUMSTAT", 0x400304, 0x1000, 1024, 0x0, 1, 32, false, false,
    [⟨"MX_SPECIAL", 6, 6, .w1c, 0⟩, ⟨"UNDERFLOW", 5, 5, .w1c, 0⟩, ⟨"INF_IN", 4, 4, .w1c, 0⟩, ⟨"SATURATE", 3, 3, .w1c, 0⟩, ⟨"OVERFLOW", 2, 2, .w1c, 0⟩, ⟨"NAN_IN", 1, 1, .w1c, 0⟩, ⟨"INVALID", 0, 0, .w1c, 0⟩]⟩,
  ⟨"SPR_RNG_SEED", 0x400308, 0x1000, 1024, 0x0, 1, 64, false, false,
    [⟨"SEED", 63, 0, .rw, 0⟩]⟩,
  ⟨"SPR_RSD_LOG", 0x400310, 0x1000, 1024, 0x0, 1, 64, true, true,
    [⟨"VALID", 63, 63, .w1c, 0⟩, ⟨"MORE", 62, 62, .ro, 0⟩, ⟨"ENGINE", 61, 60, .ro, 0⟩, ⟨"POINT", 59, 56, .ro, 0⟩, ⟨"TILE", 55, 48, .ro, 0⟩, ⟨"ROW", 47, 40, .ro, 0⟩, ⟨"COL", 39, 32, .ro, 0⟩, ⟨"EXPECTED", 31, 29, .ro, 0⟩, ⟨"OBSERVED", 28, 26, .ro, 0⟩, ⟨"QPOS", 25, 0, .ro, 0⟩]⟩,
  ⟨"SPR_RSD_COUNT", 0x400318, 0x1000, 1024, 0x0, 1, 64, true, false,
    [⟨"COUNT", 63, 0, .ro, 0⟩]⟩,
  ⟨"SPR_RSD_INJECT", 0x400320, 0x1000, 1024, 0x0, 1, 32, false, false,
    [⟨"ARM", 2, 2, .wo, 0⟩, ⟨"ENGINE", 1, 0, .wo, 0⟩]⟩,
  ⟨"SPR_SYNC_CELL", 0x400400, 0x1000, 1024, 0x8, 48, 64, false, false,
    [⟨"WORD", 63, 0, .rw, 0⟩]⟩,
  ⟨"SPR_SYNC_SATHI", 0x400580, 0x1000, 1024, 0x0, 1, 64, false, false,
    [⟨"CELLS", 47, 0, .w1c, 0⟩]⟩,
  ⟨"SPR_SYNC_SATLO", 0x400588, 0x1000, 1024, 0x0, 1, 64, false, false,
    [⟨"CELLS", 47, 0, .w1c, 0⟩]⟩,
  ⟨"SPR_SYNC_HOLDFLG", 0x400590, 0x1000, 1024, 0x0, 1, 64, false, false,
    [⟨"CELLS", 47, 0, .w1c, 0⟩]⟩]

/-- Spire site windows: field tables. -/
def regRowsSpr2 : List RegRow := [
  ⟨"SPR_SYNC_HOLD_LIM", 0x400598, 0x1000, 1024, 0x0, 1, 32, true, false,
    [⟨"LIMIT", 31, 0, .rw, 0x186a0⟩]⟩,
  ⟨"SPR_SYNC_REMERR", 0x4005A0, 0x1000, 1024, 0x0, 1, 64, true, true,
    [⟨"VALID", 63, 63, .w1c, 0⟩, ⟨"MORE", 62, 62, .ro, 0⟩, ⟨"REASON", 55, 48, .ro, 0⟩, ⟨"CELL", 47, 42, .ro, 0⟩, ⟨"SRC_SPIRE", 41, 32, .ro, 0⟩, ⟨"SRC_MODULE", 31, 26, .ro, 0⟩]⟩,
  ⟨"SPR_SYNC_SIGOUT", 0x4005A8, 0x1000, 1024, 0x0, 1, 64, true, false,
    [⟨"COUNT", 63, 0, .ro, 0⟩]⟩,
  ⟨"SPR_SYNC_SIGIN", 0x4005B0, 0x1000, 1024, 0x0, 1, 64, true, false,
    [⟨"COUNT", 63, 0, .ro, 0⟩]⟩,
  ⟨"SPR_SYNC_WAIT", 0x4005B8, 0x1000, 1024, 0x0, 1, 64, true, false,
    [⟨"COUNT", 63, 0, .ro, 0⟩]⟩,
  ⟨"SPR_SYNC_DROP", 0x4005C0, 0x1000, 1024, 0x0, 1, 64, true, false,
    [⟨"COUNT", 63, 0, .ro, 0⟩]⟩,
  ⟨"SPR_SYNC_SATCNT", 0x4005C8, 0x1000, 1024, 0x0, 1, 64, true, false,
    [⟨"COUNT", 63, 0, .ro, 0⟩]⟩,
  ⟨"SPR_SYNC_HOLDCNT", 0x4005D0, 0x1000, 1024, 0x0, 1, 64, true, false,
    [⟨"COUNT", 63, 0, .ro, 0⟩]⟩,
  ⟨"SPR_MEM_CTL", 0x400600, 0x1000, 1024, 0x0, 1, 32, true, false,
    [⟨"PF_EN", 31, 31, .rw, 1⟩, ⟨"PF_RESERVE", 13, 8, .rw, 8⟩, ⟨"PF_DEPTH", 4, 0, .rw, 8⟩]⟩,
  ⟨"SPR_XLT_ROOT", 0x400608, 0x1000, 1024, 0x0, 1, 64, false, false,
    [⟨"ROOT", 47, 12, .ro, 0⟩]⟩,
  ⟨"SPR_L1_HIT", 0x400610, 0x1000, 1024, 0x0, 1, 64, true, false,
    [⟨"COUNT", 63, 0, .ro, 0⟩]⟩,
  ⟨"SPR_L1_MISS", 0x400618, 0x1000, 1024, 0x0, 1, 64, true, false,
    [⟨"COUNT", 63, 0, .ro, 0⟩]⟩,
  ⟨"SPR_PF_ISSUE", 0x400620, 0x1000, 1024, 0x0, 1, 64, true, false,
    [⟨"COUNT", 63, 0, .ro, 0⟩]⟩,
  ⟨"SPR_PF_USED", 0x400628, 0x1000, 1024, 0x0, 1, 64, true, false,
    [⟨"COUNT", 63, 0, .ro, 0⟩]⟩,
  ⟨"SPR_PF_DROP", 0x400630, 0x1000, 1024, 0x0, 1, 64, true, false,
    [⟨"COUNT", 63, 0, .ro, 0⟩]⟩,
  ⟨"SPR_ACQ_DISCARD", 0x400638, 0x1000, 1024, 0x0, 1, 64, true, false,
    [⟨"COUNT", 63, 0, .ro, 0⟩]⟩,
  ⟨"SPR_SLOT_FULL", 0x400640, 0x1000, 1024, 0x0, 1, 64, true, false,
    [⟨"COUNT", 63, 0, .ro, 0⟩]⟩,
  ⟨"SPR_XLT_MISS", 0x400648, 0x1000, 1024, 0x0, 1, 64, true, false,
    [⟨"COUNT", 63, 0, .ro, 0⟩]⟩]

def regRowsSpr : List RegRow := regRowsSpr0 ++ regRowsSpr1 ++ regRowsSpr2

/-- Canal dome blocks: field tables. -/
def regRowsCnl : List RegRow := [
  ⟨"CNL_STATUS", 0x800000, 0x40000, 2, 0x0, 1, 32, false, false,
    [⟨"TABLES_VALID", 31, 31, .ro, 0⟩, ⟨"HARVEST_FAIL", 30, 30, .ro, 0⟩, ⟨"FAILED", 9, 0, .ro, 0⟩]⟩,
  ⟨"CNL_ARB_QUANTUM", 0x800008, 0x40000, 2, 0x0, 1, 32, true, false,
    [⟨"Q3", 31, 24, .rw, 9⟩, ⟨"Q2", 23, 16, .rw, 9⟩, ⟨"Q1", 15, 8, .rw, 0x12⟩, ⟨"Q0", 7, 0, .rw, 4⟩]⟩,
  ⟨"CNL_MC_CTL", 0x800010, 0x40000, 2, 0x0, 1, 32, true, false,
    [⟨"TIMEOUT", 19, 0, .rw, 0x3e8⟩]⟩,
  ⟨"CNL_MC_STUCK", 0x800018, 0x40000, 2, 0x0, 1, 64, true, true,
    [⟨"VALID", 63, 63, .w1c, 0⟩, ⟨"MORE", 62, 62, .ro, 0⟩, ⟨"REASON", 61, 58, .ro, 0⟩, ⟨"CLASS", 57, 56, .ro, 0⟩, ⟨"GROUP", 55, 48, .ro, 0⟩, ⟨"PORT", 47, 45, .ro, 0⟩, ⟨"SITE", 44, 35, .ro, 0⟩, ⟨"TIME", 31, 0, .ro, 0⟩]⟩,
  ⟨"CNL_RT_SEL", 0x800020, 0x40000, 2, 0x0, 1, 32, true, false,
    [⟨"SITE", 21, 12, .rw, 0⟩, ⟨"ENTRY", 9, 0, .rw, 0⟩]⟩,
  ⟨"CNL_RT_DATA", 0x800028, 0x40000, 2, 0x0, 1, 64, true, false,
    [⟨"ENTRIES", 63, 0, .ro, 0⟩]⟩,
  ⟨"CNL_GRP_SEL", 0x800030, 0x40000, 2, 0x0, 1, 32, true, false,
    [⟨"GROUP", 15, 8, .rw, 0⟩, ⟨"WORD", 4, 0, .rw, 0⟩]⟩,
  ⟨"CNL_GRP_DATA", 0x800038, 0x40000, 2, 0x0, 1, 64, false, false,
    [⟨"DATA", 63, 0, .ro, 0⟩]⟩,
  ⟨"CNL_FAILED", 0x800040, 0x40000, 2, 0x8, 8, 64, false, false,
    [⟨"ROUTERS", 63, 0, .ro, 0⟩]⟩,
  ⟨"CNL_FLITS_TC", 0x800100, 0x40000, 2, 0x8, 4, 64, true, false,
    [⟨"COUNT", 63, 0, .ro, 0⟩]⟩,
  ⟨"CNL_CREDIT_WAIT", 0x800120, 0x40000, 2, 0x0, 1, 64, true, false,
    [⟨"COUNT", 63, 0, .ro, 0⟩]⟩,
  ⟨"CNL_MC_SENT", 0x800128, 0x40000, 2, 0x0, 1, 64, true, false,
    [⟨"COUNT", 63, 0, .ro, 0⟩]⟩,
  ⟨"CNL_MC_STUCKCNT", 0x800130, 0x40000, 2, 0x0, 1, 64, true, false,
    [⟨"COUNT", 63, 0, .ro, 0⟩]⟩,
  ⟨"CNL_FORK_WAIT", 0x800138, 0x40000, 2, 0x0, 1, 64, true, false,
    [⟨"COUNT", 63, 0, .ro, 0⟩]⟩,
  ⟨"CNL_CORR", 0x800140, 0x40000, 2, 0x0, 1, 64, true, false,
    [⟨"COUNT", 63, 0, .ro, 0⟩]⟩]

/-- Aqueduct: field tables. -/
def regRowsAq : List RegRow := [
  ⟨"CNL_AQ_STATUS", 0x880000, 0x0, 1, 0x0, 1, 32, false, false,
    [⟨"STATE_EW", 29, 28, .ro, 0⟩, ⟨"STATE_WE", 27, 26, .ro, 0⟩]⟩,
  ⟨"CNL_AQ_CTL", 0x880008, 0x0, 1, 0x0, 1, 32, true, false,
    [⟨"RETRY_LIM", 15, 0, .rw, 0x40⟩]⟩,
  ⟨"CNL_AQ_ERR", 0x880010, 0x0, 1, 0x0, 1, 64, true, true,
    [⟨"VALID", 63, 63, .w1c, 0⟩, ⟨"MORE", 62, 62, .ro, 0⟩, ⟨"DIR", 61, 61, .ro, 0⟩, ⟨"CHANNEL", 60, 55, .ro, 0⟩, ⟨"REASON", 54, 52, .ro, 0⟩, ⟨"TIME", 31, 0, .ro, 0⟩]⟩,
  ⟨"CNL_AQ_FLITS_WE", 0x880100, 0x0, 1, 0x0, 1, 64, true, false,
    [⟨"COUNT", 63, 0, .ro, 0⟩]⟩,
  ⟨"CNL_AQ_FLITS_EW", 0x880108, 0x0, 1, 0x0, 1, 64, true, false,
    [⟨"COUNT", 63, 0, .ro, 0⟩]⟩,
  ⟨"CNL_AQ_RETRY_WE", 0x880110, 0x0, 1, 0x0, 1, 64, true, false,
    [⟨"COUNT", 63, 0, .ro, 0⟩]⟩,
  ⟨"CNL_AQ_RETRY_EW", 0x880118, 0x0, 1, 0x0, 1, 64, true, false,
    [⟨"COUNT", 63, 0, .ro, 0⟩]⟩,
  ⟨"CNL_AQ_CORR_WE", 0x880120, 0x0, 1, 0x0, 1, 64, true, false,
    [⟨"COUNT", 63, 0, .ro, 0⟩]⟩,
  ⟨"CNL_AQ_CORR_EW", 0x880128, 0x0, 1, 0x0, 1, 64, true, false,
    [⟨"COUNT", 63, 0, .ro, 0⟩]⟩,
  ⟨"CNL_AQ_CREDIT_WAIT_WE", 0x880130, 0x0, 1, 0x0, 1, 64, true, false,
    [⟨"COUNT", 63, 0, .ro, 0⟩]⟩,
  ⟨"CNL_AQ_CREDIT_WAIT_EW", 0x880138, 0x0, 1, 0x0, 1, 64, true, false,
    [⟨"COUNT", 63, 0, .ro, 0⟩]⟩]

/-- Towers: field tables. -/
def regRowsTwr : List RegRow := [
  ⟨"TWR_STATUS", 0x900000, 0x10000, 8, 0x0, 1, 32, false, false,
    [⟨"TEMP", 31, 24, .ro, 0⟩, ⟨"ODECC", 23, 16, .ro, 0⟩, ⟨"LEVEL", 10, 8, .ro, 0⟩, ⟨"STATE", 2, 0, .ro, 0⟩]⟩,
  ⟨"TWR_CE_COUNT", 0x900008, 0x10000, 8, 0x0, 1, 64, true, false,
    [⟨"COUNT", 63, 0, .ro, 0⟩]⟩,
  ⟨"TWR_UE_COUNT", 0x900010, 0x10000, 8, 0x0, 1, 64, true, false,
    [⟨"COUNT", 63, 0, .ro, 0⟩]⟩,
  ⟨"TWR_THROTTLE_NS", 0x900018, 0x10000, 8, 0x0, 1, 64, true, false,
    [⟨"COUNT", 63, 0, .ro, 0⟩]⟩,
  ⟨"TWR_SCRUB_CTL", 0x900100, 0x10000, 8, 0x0, 1, 32, true, false,
    [⟨"EN", 31, 31, .rw, 1⟩, ⟨"PERIOD", 19, 0, .rw, 0x15180⟩]⟩,
  ⟨"TWR_SCRUB_POS", 0x900108, 0x10000, 8, 0x0, 1, 64, true, false,
    [⟨"POS", 27, 0, .ro, 0⟩]⟩,
  ⟨"TWR_SCRUB_PASSES", 0x900110, 0x10000, 8, 0x0, 1, 64, true, false,
    [⟨"COUNT", 63, 0, .ro, 0⟩]⟩,
  ⟨"TWR_SCRUB_LATE", 0x900118, 0x10000, 8, 0x0, 1, 64, true, false,
    [⟨"COUNT", 63, 0, .ro, 0⟩]⟩,
  ⟨"TWR_CE_LIMIT", 0x900120, 0x10000, 8, 0x0, 1, 32, true, false,
    [⟨"WINDOW", 23, 16, .rw, 0x18⟩, ⟨"LIMIT", 15, 0, .rw, 0x10⟩]⟩,
  ⟨"TWR_LOG_PTR", 0x900200, 0x10000, 8, 0x0, 1, 32, true, false,
    [⟨"NEXT", 5, 0, .ro, 0⟩]⟩,
  ⟨"TWR_LOG_LOST", 0x900208, 0x10000, 8, 0x0, 1, 64, true, false,
    [⟨"COUNT", 63, 0, .ro, 0⟩]⟩,
  ⟨"TWR_MARGIN_CTL", 0x900300, 0x10000, 8, 0x0, 1, 32, true, false,
    [⟨"START", 31, 31, .wo, 0⟩, ⟨"DIR", 30, 30, .rw, 0⟩, ⟨"CHANNEL", 29, 25, .rw, 0⟩, ⟨"SIGNAL", 24, 18, .rw, 0⟩, ⟨"VREF", 17, 11, .rw, 0⟩, ⟨"TIMING", 10, 4, .rw, 0⟩, ⟨"COUNT", 3, 0, .rw, 1⟩]⟩,
  ⟨"TWR_MARGIN_RESULT", 0x900308, 0x10000, 8, 0x0, 1, 64, false, false,
    [⟨"DONE", 63, 63, .rc, 0⟩, ⟨"ERRORS", 31, 0, .ro, 0⟩]⟩,
  ⟨"TWR_LOG", 0x901000, 0x10000, 8, 0x10, 64, 64, true, false,
    [⟨"ADDR_LO", 63, 51, .ro, 0⟩, ⟨"UE", 50, 50, .ro, 0⟩, ⟨"SOURCE", 49, 48, .ro, 0⟩, ⟨"CHANNEL", 47, 43, .ro, 0⟩, ⟨"BANK", 42, 37, .ro, 0⟩, ⟨"ROW", 36, 22, .ro, 0⟩, ⟨"COL", 21, 20, .ro, 0⟩, ⟨"SYNDROME", 19, 12, .ro, 0⟩, ⟨"BIT", 11, 5, .ro, 0⟩, ⟨"VALID", 0, 0, .w1c, 0⟩]⟩,
  ⟨"TWR_LOG_HI", 0x901008, 0x10000, 8, 0x10, 64, 64, true, false,
    [⟨"TIME", 63, 32, .ro, 0⟩, ⟨"ADDR_HI", 31, 0, .ro, 0⟩]⟩]

/-- Common tower block: field tables. -/
def regRowsTwc : List RegRow := [
  ⟨"TWR_IL", 0x980000, 0x0, 1, 0x8, 96, 64, true, false,
    [⟨"ENTRIES", 63, 0, .ro, 0⟩]⟩,
  ⟨"TWR_RETIRE", 0x981000, 0x0, 1, 0x8, 512, 64, true, false,
    [⟨"ENTRY", 63, 0, .ro, 0⟩]⟩,
  ⟨"TWR_RETIRE_USED", 0x982000, 0x0, 1, 0x0, 1, 32, true, false,
    [⟨"USED", 9, 0, .ro, 0⟩]⟩,
  ⟨"TWR_RETIRED_HIT", 0x982008, 0x0, 1, 0x0, 1, 64, true, false,
    [⟨"COUNT", 63, 0, .ro, 0⟩]⟩,
  ⟨"TWR_FAR_CFG", 0x982100, 0x0, 1, 0x0, 1, 32, true, false,
    [⟨"LINK_UP", 31, 31, .ro, 0⟩, ⟨"BIFUR", 30, 29, .ro, 0⟩, ⟨"EXPANDERS", 26, 24, .ro, 0⟩, ⟨"STRIPED", 23, 23, .ro, 0⟩, ⟨"SIZE_GIB", 12, 0, .ro, 0⟩]⟩,
  ⟨"TWR_FAR_RD", 0x982110, 0x0, 1, 0x0, 1, 64, true, false,
    [⟨"COUNT", 63, 0, .ro, 0⟩]⟩,
  ⟨"TWR_FAR_WR", 0x982118, 0x0, 1, 0x0, 1, 64, true, false,
    [⟨"COUNT", 63, 0, .ro, 0⟩]⟩,
  ⟨"TWR_FAR_FAIL", 0x982120, 0x0, 1, 0x0, 1, 64, true, false,
    [⟨"COUNT", 63, 0, .ro, 0⟩]⟩]

/-- Links: field tables. -/
def regRowsLnk : List RegRow := [
  ⟨"LNK_STATUS", 0xA00000, 0x1000, 48, 0x0, 1, 32, false, false,
    [⟨"STATE", 31, 28, .ro, 0⟩, ⟨"NB_POS", 27, 22, .ro, 0⟩, ⟨"NB_LINK", 21, 16, .ro, 0⟩, ⟨"GROUP", 15, 13, .ro, 7⟩]⟩,
  ⟨"LNK_CTL", 0xA00008, 0x1000, 48, 0x0, 1, 32, true, false,
    [⟨"EN", 31, 31, .rw, 1⟩, ⟨"RETRAIN", 30, 30, .w1s, 0⟩, ⟨"RETRY_LIM", 15, 0, .rw, 0x40⟩]⟩,
  ⟨"LNK_ERR", 0xA00010, 0x1000, 48, 0x0, 1, 64, true, true,
    [⟨"VALID", 63, 63, .w1c, 0⟩, ⟨"MORE", 62, 62, .ro, 0⟩, ⟨"REASON", 61, 58, .ro, 0⟩, ⟨"TIME", 31, 0, .ro, 0⟩]⟩,
  ⟨"LNK_FEC_CORR", 0xA00100, 0x1000, 48, 0x0, 1, 64, true, false,
    [⟨"COUNT", 63, 0, .ro, 0⟩]⟩,
  ⟨"LNK_FEC_UNCORR", 0xA00108, 0x1000, 48, 0x0, 1, 64, true, false,
    [⟨"COUNT", 63, 0, .ro, 0⟩]⟩,
  ⟨"LNK_CRC_ERR", 0xA00110, 0x1000, 48, 0x0, 1, 64, true, false,
    [⟨"COUNT", 63, 0, .ro, 0⟩]⟩,
  ⟨"LNK_REPLAY", 0xA00118, 0x1000, 48, 0x0, 1, 64, true, false,
    [⟨"COUNT", 63, 0, .ro, 0⟩]⟩,
  ⟨"LNK_REPLAY_FULL", 0xA00120, 0x1000, 48, 0x0, 1, 64, true, false,
    [⟨"COUNT", 63, 0, .ro, 0⟩]⟩,
  ⟨"LNK_TX_FRAMES", 0xA00128, 0x1000, 48, 0x0, 1, 64, true, false,
    [⟨"COUNT", 63, 0, .ro, 0⟩]⟩,
  ⟨"LNK_RX_FRAMES", 0xA00130, 0x1000, 48, 0x0, 1, 64, true, false,
    [⟨"COUNT", 63, 0, .ro, 0⟩]⟩,
  ⟨"LNK_CREDIT_WAIT", 0xA00138, 0x1000, 48, 0x0, 1, 64, true, false,
    [⟨"COUNT", 63, 0, .ro, 0⟩]⟩,
  ⟨"LNK_RETRAINS", 0xA00140, 0x1000, 48, 0x0, 1, 64, true, false,
    [⟨"COUNT", 63, 0, .ro, 0⟩]⟩]

/-- Common pod block: field tables. -/
def regRowsLnc0 : List RegRow := [
  ⟨"LNK_POD_CFG", 0xA80000, 0x0, 1, 0x0, 1, 64, true, false,
    [⟨"POD_ID", 63, 32, .ro, 0⟩, ⟨"TOPO", 31, 29, .ro, 0⟩, ⟨"DIMX", 28, 25, .ro, 0⟩, ⟨"DIMY", 24, 22, .ro, 0⟩, ⟨"DIMZ", 21, 19, .ro, 0⟩, ⟨"GATEWAY", 18, 18, .ro, 0⟩, ⟨"POSITION", 17, 12, .ro, 0⟩, ⟨"SPARE", 11, 11, .ro, 0⟩, ⟨"LOGICAL", 10, 5, .ro, 0⟩]⟩,
  ⟨"LNK_LMAP", 0xA80010, 0x0, 1, 0x8, 8, 64, true, false,
    [⟨"ENTRIES", 63, 0, .ro, 0⟩]⟩,
  ⟨"LNK_ARB_QUANTUM", 0xA80050, 0x0, 1, 0x0, 1, 32, true, false,
    [⟨"Q3", 31, 24, .rw, 2⟩, ⟨"Q2", 23, 16, .rw, 6⟩, ⟨"Q1", 15, 8, .rw, 1⟩, ⟨"Q0", 7, 0, .rw, 1⟩]⟩,
  ⟨"LNK_RT_SEL", 0xA80060, 0x0, 1, 0x0, 1, 32, true, false,
    [⟨"BANK", 31, 31, .rw, 0⟩, ⟨"TABLE", 30, 28, .rw, 0⟩, ⟨"ENTRY", 5, 0, .rw, 0⟩]⟩,
  ⟨"LNK_RT_DATA", 0xA80068, 0x0, 1, 0x0, 1, 64, false, false,
    [⟨"ENTRIES", 63, 0, .ro, 0⟩]⟩,
  ⟨"LNK_RT_MASK", 0xA80070, 0x0, 1, 0x0, 1, 64, false, false,
    [⟨"LINKS", 47, 0, .ro, 0⟩]⟩,
  ⟨"LNK_PHASE_CTL", 0xA80080, 0x0, 1, 0x0, 1, 32, true, false,
    [⟨"MODE", 31, 31, .ro, 0⟩, ⟨"TGEN", 30, 30, .ro, 0⟩, ⟨"BANK", 29, 29, .ro, 0⟩, ⟨"PHASE", 28, 26, .ro, 0⟩, ⟨"ALARM", 25, 25, .w1c, 0⟩, ⟨"HOLD_LIM", 19, 0, .rw, 0x186a0⟩]⟩,
  ⟨"LNK_TB_STATUS", 0xA80090, 0x0, 1, 0x0, 1, 64, true, false,
    [⟨"LOCKED", 63, 63, .ro, 0⟩, ⟨"ALARM", 62, 62, .w1c, 0⟩, ⟨"PARENT_LINK", 61, 56, .ro, 0⟩, ⟨"DEPTH", 55, 53, .ro, 0⟩, ⟨"OFFSET", 15, 0, .ro, 0⟩]⟩,
  ⟨"LNK_MIR_CFG", 0xA800A0, 0x0, 1, 0x0, 1, 32, true, false,
    [⟨"EN", 31, 31, .ro, 0⟩, ⟨"PARTNER", 30, 25, .ro, 0⟩, ⟨"REGIONS", 6, 0, .ro, 0⟩]⟩,
  ⟨"LNK_MIR_STAT", 0xA800A8, 0x0, 1, 0x0, 1, 64, true, false,
    [⟨"STATE", 63, 62, .ro, 0⟩, ⟨"SLOT", 61, 61, .ro, 0⟩, ⟨"FULL", 60, 60, .ro, 0⟩, ⟨"PENDING", 23, 0, .ro, 0⟩]⟩,
  ⟨"LNK_MIR_EPOCH", 0xA800B0, 0x0, 1, 0x0, 1, 64, true, false,
    [⟨"EPOCH", 63, 0, .ro, 0⟩]⟩,
  ⟨"LNK_MIR_BYTES", 0xA80100, 0x0, 1, 0x0, 1, 64, true, false,
    [⟨"COUNT", 63, 0, .ro, 0⟩]⟩,
  ⟨"LNK_MIR_WAIT_NS", 0xA80108, 0x0, 1, 0x0, 1, 64, true, false,
    [⟨"COUNT", 63, 0, .ro, 0⟩]⟩,
  ⟨"LNK_PHASE_COUNT", 0xA80110, 0x0, 1, 0x0, 1, 64, true, false,
    [⟨"COUNT", 63, 0, .ro, 0⟩]⟩,
  ⟨"LNK_PHASE_EARLY", 0xA80118, 0x0, 1, 0x0, 1, 64, true, false,
    [⟨"COUNT", 63, 0, .ro, 0⟩]⟩,
  ⟨"LNK_FWD_HCP", 0xA80120, 0x0, 1, 0x0, 1, 64, true, false,
    [⟨"COUNT", 63, 0, .ro, 0⟩]⟩,
  ⟨"LNK_TB_ALARMS", 0xA80128, 0x0, 1, 0x0, 1, 64, true, false,
    [⟨"COUNT", 63, 0, .ro, 0⟩]⟩,
  ⟨"LNK_CE_CTL", 0xA81000, 0x0, 1, 0x0, 1, 32, true, false,
    [⟨"CONG_PCT", 31, 24, .rw, 0x32⟩, ⟨"COALESCE", 23, 16, .rw, 0x10⟩, ⟨"POLL_NS", 15, 0, .rw, 0xc8⟩]⟩,
  ⟨"LNK_CE_CTL2", 0xA81008, 0x0, 1, 0x0, 1, 32, true, false,
    [⟨"COALESCE_US", 31, 16, .rw, 0x14⟩, ⟨"STALL_MS", 15, 0, .rw, 0xa⟩]⟩,
  ⟨"LNK_CE_STATUS", 0xA81010, 0x0, 1, 0x0, 1, 32, false, false,
    [⟨"ACTIVE", 20, 16, .ro, 0⟩, ⟨"QBUSY", 15, 0, .ro, 0⟩]⟩]

/-- Common pod block: field tables. -/
def regRowsLnc1 : List RegRow := [
  ⟨"LNK_CE_ERR", 0xA81018, 0x0, 1, 0x0, 1, 64, true, true,
    [⟨"VALID", 63, 63, .w1c, 0⟩, ⟨"MORE", 62, 62, .ro, 0⟩, ⟨"REASON", 61, 58, .ro, 0⟩, ⟨"QUEUE", 57, 54, .ro, 0⟩, ⟨"COLL_ID", 47, 32, .ro, 0⟩, ⟨"TIME", 31, 0, .ro, 0⟩]⟩,
  ⟨"LNK_CE_STARTED", 0xA81100, 0x0, 1, 0x0, 1, 64, true, false,
    [⟨"COUNT", 63, 0, .ro, 0⟩]⟩,
  ⟨"LNK_CE_COMPLETED", 0xA81108, 0x0, 1, 0x0, 1, 64, true, false,
    [⟨"COUNT", 63, 0, .ro, 0⟩]⟩,
  ⟨"LNK_CE_RED_BYTES", 0xA81110, 0x0, 1, 0x0, 1, 64, true, false,
    [⟨"COUNT", 63, 0, .ro, 0⟩]⟩,
  ⟨"LNK_CE_SUPPRESSED", 0xA81118, 0x0, 1, 0x0, 1, 64, true, false,
    [⟨"COUNT", 63, 0, .ro, 0⟩]⟩,
  ⟨"LNK_CE_EMPTY", 0xA81120, 0x0, 1, 0x0, 1, 64, true, false,
    [⟨"COUNT", 63, 0, .ro, 0⟩]⟩,
  ⟨"LNK_CE_STREAMED", 0xA81128, 0x0, 1, 0x0, 1, 64, true, false,
    [⟨"COUNT", 63, 0, .ro, 0⟩]⟩,
  ⟨"LNK_CE_BUCKETED", 0xA81130, 0x0, 1, 0x0, 1, 64, true, false,
    [⟨"COUNT", 63, 0, .ro, 0⟩]⟩,
  ⟨"LNK_CE_SWITCHES", 0xA81138, 0x0, 1, 0x0, 1, 64, true, false,
    [⟨"COUNT", 63, 0, .ro, 0⟩]⟩,
  ⟨"LNK_CE_DROPPED", 0xA81140, 0x0, 1, 0x0, 1, 64, true, false,
    [⟨"COUNT", 63, 0, .ro, 0⟩]⟩,
  ⟨"LNK_CE_POLLS", 0xA81148, 0x0, 1, 0x0, 1, 64, true, false,
    [⟨"COUNT", 63, 0, .ro, 0⟩]⟩,
  ⟨"LNK_CE_STALLS", 0xA81150, 0x0, 1, 0x0, 1, 64, true, false,
    [⟨"COUNT", 63, 0, .ro, 0⟩]⟩,
  ⟨"LNK_STQ_STAT", 0xA81200, 0x0, 1, 0x8, 32, 64, false, false,
    [⟨"DIR", 63, 62, .ro, 0⟩, ⟨"PEER", 61, 56, .ro, 0⟩, ⟨"PEER_Q", 55, 51, .ro, 0⟩, ⟨"DEPTH", 50, 46, .ro, 0⟩, ⟨"OCC", 45, 41, .ro, 0⟩, ⟨"NEXT", 31, 0, .ro, 0⟩]⟩,
  ⟨"LNK_STQ_FULL_NS", 0xA81400, 0x0, 1, 0x8, 32, 64, true, false,
    [⟨"COUNT", 63, 0, .ro, 0⟩]⟩,
  ⟨"LNK_STQ_EMPTY_NS", 0xA81500, 0x0, 1, 0x8, 32, 64, true, false,
    [⟨"COUNT", 63, 0, .ro, 0⟩]⟩,
  ⟨"LNK_STQ_MB", 0xA81600, 0x0, 1, 0x8, 32, 64, true, false,
    [⟨"COUNT", 63, 0, .ro, 0⟩]⟩]

def regRowsLnc : List RegRow := regRowsLnc0 ++ regRowsLnc1

/-- Basin: field tables. -/
def regRowsBsn0 : List RegRow := [
  ⟨"BSN_STATUS", 0xB00000, 0x0, 1, 0x0, 1, 32, false, false,
    [⟨"STATE", 31, 29, .ro, 0⟩, ⟨"KEY_OK", 28, 28, .ro, 0⟩, ⟨"HEALTH_LOST", 27, 27, .w1c, 0⟩, ⟨"CAPTURE", 26, 26, .ro, 0⟩]⟩,
  ⟨"BSN_CKPT_CTL", 0xB00008, 0x0, 1, 0x0, 1, 32, true, false,
    [⟨"PARTNER", 23, 23, .rw, 0⟩, ⟨"KEEP", 19, 16, .rw, 2⟩]⟩,
  ⟨"BSN_RGN_LIST", 0xB00010, 0x0, 1, 0x0, 1, 64, true, false,
    [⟨"COUNT", 63, 56, .rw, 0⟩, ⟨"ADDR", 47, 0, .rw, 0⟩]⟩,
  ⟨"BSN_PATROL_CTL", 0xB00018, 0x0, 1, 0x0, 1, 32, true, false,
    [⟨"PATROL_DAYS", 31, 24, .rw, 7⟩, ⟨"REFRESH_DAYS", 23, 16, .rw, 0x5a⟩, ⟨"DISTURB_K", 15, 0, .rw, 0x64⟩]⟩,
  ⟨"BSN_CAPTURE", 0xB00020, 0x0, 1, 0x0, 1, 64, false, false,
    [⟨"REMAIN", 63, 32, .ro, 0⟩, ⟨"HELD", 31, 0, .ro, 0⟩]⟩,
  ⟨"BSN_CKPT_EPOCH", 0xB00028, 0x0, 1, 0x0, 1, 64, false, false,
    [⟨"EPOCH", 63, 0, .ro, 0⟩]⟩,
  ⟨"BSN_CAP", 0xB00030, 0x0, 1, 0x0, 1, 64, true, false,
    [⟨"FREE", 63, 32, .ro, 0⟩, ⟨"USABLE", 31, 0, .ro, 0x3a352944⟩]⟩,
  ⟨"BSN_WEAR", 0xB00038, 0x0, 1, 0x0, 1, 32, true, false,
    [⟨"MAX_PE", 31, 16, .ro, 0⟩, ⟨"AVG_PE", 15, 0, .ro, 0⟩]⟩,
  ⟨"BSN_BLOCKS", 0xB00040, 0x0, 1, 0x0, 1, 64, true, false,
    [⟨"FACTORY_BAD", 63, 48, .ro, 0⟩, ⟨"GROWN_BAD", 47, 32, .ro, 0⟩, ⟨"SPARE_LEFT", 31, 16, .ro, 0⟩]⟩,
  ⟨"BSN_ERR", 0xB00048, 0x0, 1, 0x0, 1, 64, true, true,
    [⟨"VALID", 63, 63, .w1c, 0⟩, ⟨"MORE", 62, 62, .ro, 0⟩, ⟨"REASON", 61, 58, .ro, 0⟩, ⟨"SOURCE", 57, 55, .ro, 0⟩, ⟨"DIE", 54, 49, .ro, 0⟩, ⟨"BLOCK", 48, 36, .ro, 0⟩, ⟨"TIME", 31, 0, .ro, 0⟩]⟩,
  ⟨"BSN_SANITIZE", 0xB00050, 0x0, 1, 0x0, 1, 32, true, false,
    [⟨"START", 0, 0, .w1s, 0⟩]⟩,
  ⟨"BSN_WR_BYTES", 0xB00100, 0x0, 1, 0x0, 1, 64, true, false,
    [⟨"COUNT", 63, 0, .ro, 0⟩]⟩,
  ⟨"BSN_NAND_WR_BYTES", 0xB00108, 0x0, 1, 0x0, 1, 64, true, false,
    [⟨"COUNT", 63, 0, .ro, 0⟩]⟩,
  ⟨"BSN_RD_BYTES", 0xB00110, 0x0, 1, 0x0, 1, 64, true, false,
    [⟨"COUNT", 63, 0, .ro, 0⟩]⟩,
  ⟨"BSN_LDPC_CORR", 0xB00118, 0x0, 1, 0x0, 1, 64, true, false,
    [⟨"COUNT", 63, 0, .ro, 0⟩]⟩,
  ⟨"BSN_READ_RETRY", 0xB00120, 0x0, 1, 0x0, 1, 64, true, false,
    [⟨"COUNT", 63, 0, .ro, 0⟩]⟩,
  ⟨"BSN_REBUILD", 0xB00128, 0x0, 1, 0x0, 1, 64, true, false,
    [⟨"COUNT", 63, 0, .ro, 0⟩]⟩,
  ⟨"BSN_UNCORR", 0xB00130, 0x0, 1, 0x0, 1, 64, true, false,
    [⟨"COUNT", 63, 0, .ro, 0⟩]⟩,
  ⟨"BSN_REFRESH", 0xB00138, 0x0, 1, 0x0, 1, 64, true, false,
    [⟨"COUNT", 63, 0, .ro, 0⟩]⟩,
  ⟨"BSN_DISTURB", 0xB00140, 0x0, 1, 0x0, 1, 64, true, false,
    [⟨"COUNT", 63, 0, .ro, 0⟩]⟩]

/-- Basin: field tables. -/
def regRowsBsn1 : List RegRow := [
  ⟨"BSN_WL_MOVES", 0xB00148, 0x0, 1, 0x0, 1, 64, true, false,
    [⟨"COUNT", 63, 0, .ro, 0⟩]⟩,
  ⟨"BSN_CAPTURE_WAIT_NS", 0xB00150, 0x0, 1, 0x0, 1, 64, true, false,
    [⟨"COUNT", 63, 0, .ro, 0⟩]⟩]

def regRowsBsn : List RegRow := regRowsBsn0 ++ regRowsBsn1

/-- Power and clocks: field tables. -/
def regRowsPwr0 : List RegRow := [
  ⟨"PWR_STATUS", 0xC00000, 0x0, 1, 0x0, 1, 32, true, false,
    [⟨"STATE", 31, 29, .ro, 0⟩, ⟨"INPUT_OK", 28, 28, .ro, 0⟩, ⟨"LOSS", 27, 27, .ro, 0⟩, ⟨"CAP_LIMITING", 26, 26, .ro, 0⟩, ⟨"THERM_LIMITING", 25, 25, .ro, 0⟩, ⟨"SB_OK", 24, 24, .ro, 0⟩, ⟨"CAP_UNMET", 23, 23, .ro, 0⟩]⟩,
  ⟨"PWR_CAP_CTL", 0xC00008, 0x0, 1, 0x0, 1, 32, true, false,
    [⟨"FLOOR", 24, 16, .rw, 0xc0⟩, ⟨"CAP_W", 15, 0, .rw, 0x578⟩]⟩,
  ⟨"PWR_THERM_CTL", 0xC00010, 0x0, 1, 0x0, 1, 32, true, false,
    [⟨"T_LIMIT", 31, 24, .rw, 0x64⟩, ⟨"T_TRIP", 23, 16, .ro, 0x6e⟩]⟩,
  ⟨"PWR_INPUT", 0xC00018, 0x0, 1, 0x0, 1, 64, true, false,
    [⟨"VIN", 63, 48, .ro, 0⟩, ⟨"IIN", 47, 32, .ro, 0⟩, ⟨"PIN", 31, 0, .ro, 0⟩]⟩,
  ⟨"PWR_WINDOW", 0xC00020, 0x0, 1, 0x0, 1, 64, true, false,
    [⟨"LAST", 63, 32, .ro, 0⟩, ⟨"MAX", 31, 0, .ro, 0⟩]⟩,
  ⟨"PWR_TEMP", 0xC00028, 0x0, 1, 0x0, 1, 32, true, false,
    [⟨"DOME_W", 31, 24, .ro, 0⟩, ⟨"DOME_E", 23, 16, .ro, 0⟩, ⟨"TOWER", 15, 8, .ro, 0⟩, ⟨"STAGE", 7, 0, .ro, 0⟩]⟩,
  ⟨"PWR_RAIL", 0xC00100, 0x0, 1, 0x8, 14, 64, true, false,
    [⟨"MV", 63, 48, .ro, 0⟩, ⟨"CURRENT", 47, 32, .ro, 0⟩, ⟨"PGOOD", 31, 31, .ro, 0⟩, ⟨"FAULT", 30, 30, .w1c, 0⟩]⟩,
  ⟨"PWR_ENERGY_MJ", 0xC00200, 0x0, 1, 0x0, 1, 64, true, false,
    [⟨"COUNT", 63, 0, .ro, 0⟩]⟩,
  ⟨"PWR_CAP_NS", 0xC00208, 0x0, 1, 0x0, 1, 64, true, false,
    [⟨"COUNT", 63, 0, .ro, 0⟩]⟩,
  ⟨"PWR_OVER_NS", 0xC00210, 0x0, 1, 0x0, 1, 64, true, false,
    [⟨"COUNT", 63, 0, .ro, 0⟩]⟩,
  ⟨"PWR_THERM_NS", 0xC00218, 0x0, 1, 0x0, 1, 64, true, false,
    [⟨"COUNT", 63, 0, .ro, 0⟩]⟩,
  ⟨"PWR_LOSSES", 0xC00220, 0x0, 1, 0x0, 1, 64, true, false,
    [⟨"COUNT", 63, 0, .ro, 0⟩]⟩,
  ⟨"PWR_CAP_UNMET_NS", 0xC00228, 0x0, 1, 0x0, 1, 64, true, false,
    [⟨"COUNT", 63, 0, .ro, 0⟩]⟩,
  ⟨"CLK_SPIRE_W", 0xC08000, 0x0, 1, 0x0, 1, 64, true, false,
    [⟨"CUR", 63, 55, .ro, 0⟩, ⟨"USER", 54, 46, .rw, 0x140⟩, ⟨"CAP", 45, 37, .ro, 0x140⟩, ⟨"THERM", 36, 28, .ro, 0x140⟩, ⟨"VMV", 27, 16, .ro, 0⟩, ⟨"SWITCHING", 0, 0, .ro, 0⟩]⟩,
  ⟨"CLK_SPIRE_E", 0xC08008, 0x0, 1, 0x0, 1, 64, true, false,
    [⟨"CUR", 63, 55, .ro, 0⟩, ⟨"USER", 54, 46, .rw, 0x140⟩, ⟨"CAP", 45, 37, .ro, 0x140⟩, ⟨"THERM", 36, 28, .ro, 0x140⟩, ⟨"VMV", 27, 16, .ro, 0⟩, ⟨"SWITCHING", 0, 0, .ro, 0⟩]⟩,
  ⟨"CLK_TIME", 0xC08010, 0x0, 1, 0x0, 1, 64, true, false,
    [⟨"TIME", 63, 0, .ro, 0⟩]⟩,
  ⟨"CLK_PLL", 0xC08018, 0x0, 1, 0x0, 1, 32, true, false,
    [⟨"PORT", 19, 18, .ro, 0⟩, ⟨"LANTERN", 17, 17, .ro, 0⟩, ⟨"TOWER", 16, 9, .ro, 0⟩, ⟨"CANAL", 8, 7, .ro, 0⟩, ⟨"SPIRE", 6, 3, .ro, 0⟩, ⟨"ACTIVE", 2, 1, .ro, 0⟩, ⟨"OSC", 0, 0, .ro, 0⟩]⟩,
  ⟨"CLK_STEPS_W", 0xC08100, 0x0, 1, 0x0, 1, 64, true, false,
    [⟨"COUNT", 63, 0, .ro, 0⟩]⟩,
  ⟨"CLK_STEPS_E", 0xC08108, 0x0, 1, 0x0, 1, 64, true, false,
    [⟨"COUNT", 63, 0, .ro, 0⟩]⟩,
  ⟨"CLK_PAUSE_NS_W", 0xC08110, 0x0, 1, 0x0, 1, 64, true, false,
    [⟨"COUNT", 63, 0, .ro, 0⟩]⟩]

/-- Power and clocks: field tables. -/
def regRowsPwr1 : List RegRow := [
  ⟨"CLK_PAUSE_NS_E", 0xC08118, 0x0, 1, 0x0, 1, 64, true, false,
    [⟨"COUNT", 63, 0, .ro, 0⟩]⟩]

def regRowsPwr : List RegRow := regRowsPwr0 ++ regRowsPwr1

/-- Security: field tables. -/
def regRowsSec : List RegRow := [
  ⟨"SEC_STATE", 0xD00000, 0x0, 1, 0x0, 1, 32, true, false,
    [⟨"BINDINGS_LOCKED", 7, 7, .ro, 0⟩, ⟨"IDE_ACTIVE", 6, 6, .ro, 0⟩, ⟨"IDE_REQUIRED", 5, 5, .ro, 0⟩, ⟨"AUTH_LOCKOUT", 4, 4, .ro, 0⟩, ⟨"MANUF_SERVICE", 3, 3, .ro, 0⟩, ⟨"DEBUG_OPEN", 2, 2, .ro, 0⟩, ⟨"DEBUG_DISABLED", 1, 1, .ro, 0⟩, ⟨"SECURE_BOOT", 0, 0, .ro, 0⟩]⟩,
  ⟨"SEC_BOOT_STAT", 0xD00008, 0x0, 1, 0x0, 1, 32, true, false,
    [⟨"STAGE", 31, 28, .ro, 0⟩, ⟨"ATTEMPT", 27, 26, .ro, 0⟩, ⟨"LK_BANK", 25, 25, .ro, 0⟩, ⟨"LT_BANK", 24, 24, .ro, 0⟩, ⟨"CFG_BANK", 23, 23, .ro, 0⟩, ⟨"FAIL", 3, 0, .ro, 0⟩]⟩,
  ⟨"SEC_FW_LK", 0xD00010, 0x0, 1, 0x0, 1, 64, true, false,
    [⟨"VERSION", 63, 32, .ro, 0⟩, ⟨"SVN", 31, 24, .ro, 0⟩, ⟨"BANK", 23, 23, .ro, 0⟩, ⟨"PENDING", 22, 22, .ro, 0⟩, ⟨"KEY", 21, 20, .ro, 0⟩]⟩,
  ⟨"SEC_FW_LT", 0xD00018, 0x0, 1, 0x0, 1, 64, true, false,
    [⟨"VERSION", 63, 32, .ro, 0⟩, ⟨"SVN", 31, 24, .ro, 0⟩, ⟨"BANK", 23, 23, .ro, 0⟩, ⟨"PENDING", 22, 22, .ro, 0⟩, ⟨"KEY", 21, 20, .ro, 0⟩]⟩,
  ⟨"SEC_FW_CFG", 0xD00020, 0x0, 1, 0x0, 1, 64, true, false,
    [⟨"VERSION", 63, 32, .ro, 0⟩, ⟨"SVN", 31, 24, .ro, 0⟩, ⟨"BANK", 23, 23, .ro, 0⟩, ⟨"PENDING", 22, 22, .ro, 0⟩, ⟨"KEY", 21, 20, .ro, 0⟩]⟩,
  ⟨"SEC_SVN_MIN", 0xD00028, 0x0, 1, 0x0, 1, 32, true, false,
    [⟨"CFG", 23, 16, .ro, 0⟩, ⟨"LT", 15, 8, .ro, 0⟩, ⟨"LK", 7, 0, .ro, 0⟩]⟩,
  ⟨"SEC_SVN_CTL", 0xD00030, 0x0, 1, 0x0, 1, 32, true, false,
    [⟨"COMMIT_CFG", 2, 2, .w1s, 0⟩, ⟨"COMMIT_LT", 1, 1, .w1s, 0⟩, ⟨"COMMIT_LK", 0, 0, .w1s, 0⟩]⟩,
  ⟨"SEC_KEYS", 0xD00038, 0x0, 1, 0x0, 1, 32, true, false,
    [⟨"D_REVOKED", 5, 4, .ro, 0⟩, ⟨"F_REVOKED", 3, 0, .ro, 0⟩]⟩,
  ⟨"SEC_AUTH", 0xD00040, 0x0, 1, 0x0, 1, 32, true, false,
    [⟨"NONCE_VALID", 31, 31, .ro, 0⟩, ⟨"FAILS", 3, 0, .ro, 0⟩]⟩,
  ⟨"SEC_IDE", 0xD00048, 0x0, 1, 0x0, 1, 32, true, false,
    [⟨"STATE", 31, 30, .ro, 0⟩, ⟨"STREAM", 29, 24, .ro, 0⟩, ⟨"KSET", 23, 23, .ro, 0⟩]⟩,
  ⟨"SEC_BOOTS", 0xD00100, 0x0, 1, 0x0, 1, 64, true, false,
    [⟨"COUNT", 63, 0, .ro, 0⟩]⟩,
  ⟨"SEC_SPDM_MSGS", 0xD00108, 0x0, 1, 0x0, 1, 64, true, false,
    [⟨"COUNT", 63, 0, .ro, 0⟩]⟩,
  ⟨"SEC_IDE_FAIL", 0xD00110, 0x0, 1, 0x0, 1, 64, true, false,
    [⟨"COUNT", 63, 0, .ro, 0⟩]⟩,
  ⟨"SEC_AUTH_FAIL", 0xD00118, 0x0, 1, 0x0, 1, 64, true, false,
    [⟨"COUNT", 63, 0, .ro, 0⟩]⟩,
  ⟨"SEC_FW_UPDATES", 0xD00120, 0x0, 1, 0x0, 1, 64, true, false,
    [⟨"COUNT", 63, 0, .ro, 0⟩]⟩]

/-- Errors: field tables. -/
def regRowsErr : List RegRow := [
  ⟨"ERR_STATUS", 0xE00000, 0x0, 1, 0x0, 1, 32, true, false,
    [⟨"LOST", 31, 31, .w1c, 0⟩, ⟨"UNREAD", 10, 0, .ro, 0⟩]⟩,
  ⟨"ERR_NEWEST", 0xE00008, 0x0, 1, 0x0, 1, 64, true, false,
    [⟨"RSEQ", 63, 0, .ro, 0⟩]⟩,
  ⟨"ERR_CTL", 0xE00010, 0x0, 1, 0x0, 1, 32, true, false,
    [⟨"EVT_CLASS", 31, 29, .rw, 0⟩, ⟨"STOP_LIM", 28, 16, .rw, 0xa⟩, ⟨"WARM_LIM", 15, 0, .rw, 0xbb8⟩]⟩,
  ⟨"ERR_JOB", 0xE00018, 0x0, 1, 0x0, 1, 64, true, false,
    [⟨"STOP_ID", 63, 48, .ro, 0⟩, ⟨"SRC_POS", 47, 42, .ro, 0⟩, ⟨"STATE", 41, 40, .ro, 0⟩]⟩,
  ⟨"ERR_JOB_ID", 0xE00020, 0x0, 1, 0x0, 1, 64, true, false,
    [⟨"JOB_ID", 63, 0, .ro, 0⟩]⟩,
  ⟨"ERR_REC_SEL", 0xE00028, 0x0, 1, 0x0, 1, 32, true, false,
    [⟨"INDEX", 9, 0, .rw, 0⟩]⟩,
  ⟨"ERR_REC", 0xE00040, 0x0, 1, 0x8, 8, 64, true, false,
    [⟨"WORD", 63, 0, .ro, 0⟩]⟩,
  ⟨"ERR_CLASS", 0xE00100, 0x0, 1, 0x8, 5, 64, true, false,
    [⟨"COUNT", 63, 0, .ro, 0⟩]⟩,
  ⟨"ERR_STOPS_SENT", 0xE00128, 0x0, 1, 0x0, 1, 64, true, false,
    [⟨"COUNT", 63, 0, .ro, 0⟩]⟩,
  ⟨"ERR_STOPS_RECV", 0xE00130, 0x0, 1, 0x0, 1, 64, true, false,
    [⟨"COUNT", 63, 0, .ro, 0⟩]⟩,
  ⟨"ERR_ROLLBACKS", 0xE00138, 0x0, 1, 0x0, 1, 64, true, false,
    [⟨"COUNT", 63, 0, .ro, 0⟩]⟩,
  ⟨"ERR_INPLACE", 0xE00140, 0x0, 1, 0x0, 1, 64, true, false,
    [⟨"COUNT", 63, 0, .ro, 0⟩]⟩]

/-- Test: field tables. -/
def regRowsTst : List RegRow := [
  ⟨"TST_STATUS", 0xF00000, 0x0, 1, 0x0, 1, 64, false, false,
    [⟨"SCAN_ACTIVE", 63, 63, .ro, 0⟩, ⟨"H1", 62, 62, .ro, 0⟩, ⟨"H0", 61, 61, .ro, 0⟩, ⟨"TOWERS", 55, 48, .ro, 0⟩, ⟨"LINKS", 47, 0, .ro, 0⟩]⟩,
  ⟨"TST_CTL", 0xF00008, 0x0, 1, 0x0, 1, 32, false, false,
    [⟨"SCAN_EN", 31, 31, .rw, 0⟩]⟩,
  ⟨"TST_PORT_CTL", 0xF00010, 0x0, 1, 0x0, 1, 32, false, false,
    [⟨"DWELL_MS", 31, 16, .rw, 0x3e8⟩, ⟨"PATTERN", 1, 0, .rw, 0⟩]⟩,
  ⟨"TST_BIST_STAT", 0xF00100, 0x0, 1, 0x0, 1, 32, true, false,
    [⟨"KIND", 31, 31, .ro, 0⟩, ⟨"BOOT", 30, 30, .ro, 0⟩, ⟨"FAILED", 10, 0, .ro, 0⟩]⟩,
  ⟨"TST_BIST_SITE", 0xF00108, 0x0, 1, 0x8, 16, 64, true, false,
    [⟨"SITES", 63, 0, .ro, 0⟩]⟩,
  ⟨"TST_PPR_CTL", 0xF00200, 0x0, 1, 0x0, 1, 64, false, false,
    [⟨"START", 63, 63, .w1s, 0⟩, ⟨"TOWER", 57, 55, .rw, 0⟩, ⟨"CHANNEL", 54, 50, .rw, 0⟩, ⟨"BANK", 49, 44, .rw, 0⟩, ⟨"ROW", 43, 29, .rw, 0⟩]⟩,
  ⟨"TST_PPR_RESULT", 0xF00208, 0x0, 1, 0x0, 1, 32, false, false,
    [⟨"DONE", 31, 31, .rc, 0⟩, ⟨"RESULT", 30, 28, .ro, 0⟩, ⟨"SPARES", 7, 0, .ro, 0⟩]⟩,
  ⟨"TST_H1_MARGIN_CMD", 0xF00300, 0x0, 1, 0x0, 1, 32, false, false,
    [⟨"START", 31, 31, .w1s, 0⟩, ⟨"TARGET", 30, 30, .rw, 0⟩, ⟨"LANE", 29, 26, .rw, 0⟩, ⟨"COMMAND", 15, 0, .rw, 0⟩]⟩,
  ⟨"TST_H1_MARGIN_RSP", 0xF00308, 0x0, 1, 0x0, 1, 32, false, false,
    [⟨"DONE", 31, 31, .rc, 0⟩, ⟨"RESPONSE", 15, 0, .ro, 0⟩]⟩]

/-- Test, per link: field tables. -/
def regRowsTl : List RegRow := [
  ⟨"TST_LNK_CTL", 0xF01000, 0x40, 48, 0x0, 1, 32, false, false,
    [⟨"START", 31, 31, .wo, 0⟩, ⟨"LANE", 30, 30, .rw, 0⟩, ⟨"EYE", 29, 28, .rw, 0⟩, ⟨"PATTERN", 27, 26, .rw, 0⟩, ⟨"TOFF", 25, 19, .rw, 0⟩, ⟨"VOFF", 18, 12, .rw, 0⟩, ⟨"COUNT", 3, 0, .rw, 1⟩]⟩,
  ⟨"TST_LNK_RESULT", 0xF01008, 0x40, 48, 0x0, 1, 64, false, false,
    [⟨"DONE", 63, 63, .rc, 0⟩, ⟨"ERRORS", 31, 0, .ro, 0⟩]⟩,
  ⟨"TST_LNK_EYE", 0xF01010, 0x40, 48, 0x8, 2, 64, false, false,
    [⟨"H_UPPER", 63, 56, .ro, 0⟩, ⟨"H_MID", 55, 48, .ro, 0⟩, ⟨"H_LOWER", 47, 40, .ro, 0⟩, ⟨"W_UPPER", 39, 33, .ro, 0⟩, ⟨"W_MID", 32, 26, .ro, 0⟩, ⟨"W_LOWER", 25, 19, .ro, 0⟩]⟩]

/-- The register blocks of R462 with their rows: first offset, end, rows. -/
def regBlocks : List (Nat × Nat × List RegRow) := [
  (0x000000, 0x100000, regRowsGlb), (0x100000, 0x200000, regRowsHcp ++ regRowsHq ++ regRowsDb),
  (0x200000, 0x300000, regRowsMbx ++ regRowsPage), (0x300000, 0x400000, regRowsJnl), (0x400000, 0x800000, regRowsSpr),
  (0x800000, 0x900000, regRowsCnl ++ regRowsAq), (0x900000, 0xA00000, regRowsTwr ++ regRowsTwc),
  (0xA00000, 0xB00000, regRowsLnk ++ regRowsLnc), (0xB00000, 0xC00000, regRowsBsn), (0xC00000, 0xD00000, regRowsPwr),
  (0xD00000, 0xE00000, regRowsSec), (0xE00000, 0xF00000, regRowsErr), (0xF00000, 0x1000000, regRowsTst ++ regRowsTl)]

/-- The register's offset is one of the row's. -/
def RegRow.covers (r : RegRow) (off : Nat) : Bool :=
  r.base ≤ off &&
    (let d := off - r.base
     let i := if r.bstride = 0 then 0 else d / r.bstride
     let m := d - i * r.bstride
     i < r.bcount && (if r.stride = 0 then m == 0 else m % r.stride == 0 && m / r.stride < r.count))

/-- The row of the register at an offset; none where the spec assigns no register (R11). -/
def regAt (off : Nat) : Option RegRow :=
  match regBlocks.find? (fun b => b.1 ≤ off && off < b.2.1) with
  | some b => b.2.2.find? (·.covers off)
  | none => none

/-- The bits of a field, in place. -/
def FldRow.mask (f : FldRow) : BitVec 64 := BitVec.ofNat 64 ((2 ^ (f.hi + 1 - f.lo) - 1) * 2 ^ f.lo)

/-- The value the field tables give a register at reset (R10). -/
def RegRow.resetValue (r : RegRow) : BitVec 64 :=
  r.fields.foldl (fun v f => v ||| BitVec.ofNat 64 (f.reset * 2 ^ f.lo)) 0

/-- What the register at an offset holds at reset; an unassigned offset reads zero (R11). -/
def regReset (off : Nat) : BitVec 64 := match regAt off with | some r => r.resetValue | none => 0

end Sys2Proof.Machine
end

