-- ==== Sys2Proof/Machine/TypesLantern.lean ====
section
/-!
DEFINITION. State of Lantern: queues, admitted commands, forwarding tracker, journal, error ring, mailboxes (R465 to R526, R548).
-/
namespace Sys2Proof.Machine

/-- An admitted command (R477) until its final entry. `slot` 0 none (R665), 1 reserved, 2 shared. `attempted` once it has its
first entry or has started; `delayed` the reason it waits for. `fwd` is the tracker index of the gateway for a forwarded one.
`data` holds what admission read from memory (the initial cell words of R486). -/
structure Cmd where
  dseq : Nat
  queue : Nat
  seq : Nat
  pos : Nat
  cls : Nat
  opcode : Nat
  quiet : Bool
  ordered : Bool
  pkt : Packet
  tAccept : Nat
  waitLimit : Nat
  slot : Nat
  attempted : Bool
  delayed : Option Status
  started : Bool
  tStart : Nat
  fwd : Nat
  data : List (Nat × Nat)
  deriving DecidableEq, Repr

/-- A forwarded packet awaiting its reply at the gateway (R368). -/
structure TrackEntry where
  queue : Nat
  seq : Nat
  dest : Nat
  deriving DecidableEq, Repr

/-- One queue pair beside its registers (R465 to R469): tail doorbell, the device's view of the host's head, phase, the hold, the
entries written since the last vector with the time of the oldest, and the events lost since the last EVENTS_LOST. `waiting` are
replies that found the hold full and wait in Lantern with their commands (R468). -/
structure Queue where
  sqTail : Nat
  cqHead : Nat
  phase : Nat
  hold : List CqEntry
  waiting : List CqEntry
  unsignalled : Nat
  oldest : Nat
  evLost : Nat
  deriving DecidableEq, Repr

/-- A journal entry (R512). `kind` 0 command, 1 carry, 2 mark, 3 restart; `state` as R514. -/
structure JEntry where
  dseq : Nat
  orig : Nat
  seq : Nat
  opcode : Nat
  queue : Nat
  kind : Nat
  cls : Nat
  forwarded : Bool
  ordered : Bool
  state : Nat
  pos : Nat
  status : Nat
  r0 : Nat
  digest : Nat
  tAccept : Nat
  tStart : Nat
  tDone : Nat
  deriving DecidableEq, Repr

/-- An error record (R549), with the mark ERR_READ leaves (R552). -/
structure ErrRec where
  rseq : Nat
  time : Nat
  cls : Nat
  skind : Nat
  sindex : Nat
  cause : Nat
  rung : Nat
  flags : Nat
  jobId : Nat
  detail0 : Nat
  detail1 : Nat
  dseq : Nat
  stopId : Nat
  read : Bool
  deriving DecidableEq, Repr

/-- A mailbox channel (R503, R509): full with its message; for a partner channel, confirmed by the pair and the count of its
messages, and the last count landed. -/
structure Channel where
  full : Bool
  ptr : Nat
  tag : Nat
  up : Bool
  count : Nat
  landed : Nat
  deriving DecidableEq, Repr

/-- The mailboxes: channels, and the staging pointers of the internal agents by identity (R505; a host agent's is MBX_TX_PTR). -/
structure Mailbox where
  chans : Table Channel
  stage : Table Word
  deriving DecidableEq, Repr

/-- Lantern's command side. `cmds` in order of admission; `eseq` the event count of each SOURCE (R475); `cqOut` every entry
written to a completion queue and `msix` every vector sent, newest last (the model's record of its outputs). -/
structure Hcp where
  queues : Table Queue
  cmds : List Cmd
  tracker : Table TrackEntry
  eseq : Table Nat
  cqOut : List (Nat × CqEntry)
  msix : List Nat
  deriving DecidableEq, Repr

/-- A persistence record on flash (R539): its sequence number, the newest DSEQ it covers, its start, full or delta, orderly or not, its entries by ring index, the step-state entry and the mirror record. -/
structure PRec where
  rseq : Nat
  newest : Nat
  start : Nat
  full : Bool
  orderly : Bool
  ents : Table JEntry
  step : List Byte
  mir : List Byte
  deriving DecidableEq, Repr

/-- The journal (R511): the ring by index, entries changed since the last persistence, a running persistence with its start, the newest
DSEQ and the indices it covers, a boundary's persistence that waits for it (R518), the record it writes if it writes one (R539), whether a full record has been written since READY (R540), the journal area's log on flash, oldest first, the step-state entry's last speculation epoch and decision time, the mirror record held for the partner (R517). -/
structure Journal where
  ring : Table JEntry
  changed : List Nat
  persist : Option Nat
  persistDsq : Nat
  covered : List Nat
  late : Bool
  making : Option PRec
  fullDone : Bool
  log : List PRec
  highWater : Nat
  stepTime : Nat
  lastSpec : Nat
  mirEpoch : Nat
  mirSlot : Nat
  mirClose : Nat
  mirSpec : Nat
  copyDseq : Nat
  copyTime : Nat
  deriving DecidableEq, Repr

/-- Error and stop state beside its registers: the ring (R548), the lockkeeper's store, the RSEQ of the newest record ERR_READ
returned and the records lost unread since (R552), the stop count (R554), identifiers already seen (R373) and the time of the first stop. -/
structure Errs where
  ring : Table ErrRec
  store : List ErrRec
  lastRead : Nat
  lost : Nat
  stopCount : Nat
  stopsSeen : List Nat
  stopTime : Nat
  deriving DecidableEq, Repr

end Sys2Proof.Machine
end

