-- ==== Sys2Proof/Machine/TypesDev.lean ====
section
/-!
DEFINITION. State of the towers (R288 to R300), the far tier (R307, R308) and a warm reset in progress (R563).
-/
namespace Sys2Proof.Machine

/-- A tower: start of the scrub pass and the time its next position is due at the earliest (R297); corrected errors by channel · 64 + bank in the window, the
banks advised in it, and its start (R300); the record whose high word is latched (R299); channels OFFLINE and those refreshed by bank (R288, R560); the time up to which
throttling is counted; the 1 ms window of the last reading, counted from 1 (R289); the time at which a margin test that runs ends. -/
structure Tower where
  passStart : Nat
  scrubbed : Nat
  ce : Table Nat
  advised : List Nat
  ceStart : Nat
  latch : Option (Nat × Word)
  down : List Nat
  refreshed : Table Nat
  throttleAt : Nat
  tempWin : Nat
  testing : Option Nat
  deriving DecidableEq, Repr

/-- A request at port H1 (R306, R307): the packet, the time it was taken, and the expander it goes to with the address there. -/
structure FarReq where
  pkt : CPkt
  since : Nat
  at_ : Nat × Nat := (0, 0)
  deriving DecidableEq, Repr

/-- Port H1: outstanding requests in order, whether every request fails (R308), and the capacities of the expanders in lane-group order, in MiB (R305, R306). -/
structure Far where
  reqs : List FarReq
  failed : Bool
  sizes : List Nat := []
  deriving DecidableEq, Repr

/-- A function at rung 2 (R560): its kind and index as FUNC_REINIT names them, since when, the command that asked for it, and the queues of a pair that were enabled (bit 0 submission, bit 1 completion). -/
structure Reinit where
  kind : Nat
  index : Nat
  since : Nat
  cmd : Option Nat
  was : Nat
  deriving DecidableEq, Repr

/-- A warm reset in progress (R563): its start and the command that asked for it. -/
structure Warm where
  since : Nat
  cmd : Option Cmd
  deriving DecidableEq, Repr

end Sys2Proof.Machine
end

