-- ==== Sys2Proof/Machine/TypesNet.lean ====
section
/-!
DEFINITION. State of the networks: canal routers and the aqueduct (R317 to R341), links, streams, route tables, phases, time base
and mirroring (R347 to R379).
-/
namespace Sys2Proof.Machine

/-- A fork-state entry (R335, R336): the packet, its class, the port it arrived on, branches still to leave, branches not yet acknowledged, the time the entry
was taken, branches reported as stuck, and whether this is the first root reached. -/
structure Fork where
  pkt : CPkt
  inPort : Nat
  toSend : List Nat
  toAck : List Nat
  since : Nat
  reported : List Nat
  first : Bool
  deriving DecidableEq, Repr

/-- The canals. Input queues by `(site * 8 + port) * 4 + class`, ports 0 L, 1 N, 2 E, 3 S, 4 W, 5 X (R330); flits in use of an input queue as its sender counts them,
and flits freed whose credit has not returned (R325); deficits by `(site * 8 + output) * 4 + class`, the class an output is serving, and the input it serves next (R327);
forks by router (R335); acknowledgements on their way to a router: (site, port, source, tag) (R336); packets delivered to sites, slices and agents and not yet applied, oldest first;
packets whose writer a full lock holds, by the lock (R29); by slice, the requester from which its next turn starts (R248); the quanta of an output's present round (R342), by `site * 8 + output`;
delivered packets that a fence of their site found in its queue (R332). -/
structure Canal where
  inq : Table (List CPkt)
  used : Table Nat
  freed : Table Nat
  deficit : Table Nat
  serving : Table Nat
  turn : Table Nat
  forks : Table (List Fork)
  acks : List (Nat × Nat × Nat × Nat)
  arrived : List CPkt
  outbox : Table (List CPkt) := []
  served : Table Nat := []
  quanta : Table Nat := []
  before : List CPkt := []
  deriving DecidableEq, Repr

/-- The aqueduct (R339 to R341), by channel number `direction * 64 + channel`: next sequence number sent, expected, replay buffer, packets at the sending crossbar with the router they
left, replays in the window with its number; directions whose retraining has failed; what a channel's receiver holds (R326). -/
structure Aqueduct where
  txSeq : Table Nat
  rxSeq : Table Nat
  replay : Table (List CPkt)
  held : List (Nat × CPkt)
  winStart : Table Nat
  winCount : Table Nat
  lost : List Nat
  recv : Table (List CPkt) := []
  deriving DecidableEq, Repr

/-- A canal multicast group (R333). -/
structure CGroup where
  members : List Nat
  rootW : Option Nat
  rootE : Option Nat
  deriving DecidableEq, Repr

/-- What a stream is for at the module that sent it (R352 KIND, and what its completion answers). -/
structure Stream where
  dest : Nat
  addr : Nat
  barges : Nat
  collId : Nat
  kind : Nat
  table : Nat
  lclass : Nat
  owner : Nat
  deriving DecidableEq, Repr

/-- A receive context of a link (R353): where the stream lands or the onward link and context, the lanes it comes on and goes on by, the barges still to come, and, of a transit stream whose
onward context is still awaited, the number under which its frames wait. -/
structure RxCtx where
  src : Nat
  dest : Nat
  addr : Nat
  barges : Nat
  got : Nat
  acked : Nat
  collId : Nat
  kind : Nat
  orig : Nat
  lclass : Nat
  onward : Option (Nat × Nat)
  vlIn : Nat := 0
  vlOut : Nat := 0
  park : Option Nat := none
  deriving DecidableEq, Repr

/-- A DATA frame waiting at a link: its context, flits, whether it is the last of its stream, its bytes (R350), and in transit the link and FSEQ of the frame whose buffer it is in (R354). -/
structure DataSeg where
  ctx : Nat
  flits : Nat
  last : Bool
  bytes : List Byte
  piece : Option (Nat × Nat) := none
  deriving DecidableEq, Repr

/-- A link packet waiting in a queue, in transit with the link and FSEQ of the frame whose buffer it is in (R354). -/
structure Queued where
  pkt : LPkt
  piece : Option (Nat × Nat) := none
  deriving DecidableEq, Repr

/-- A link packet that cannot yet go on: with the data of the stream it opens and the dome half it prefers; in transit the link it came on, the frame whose buffer it is in, and for a stream
open the number under which the stream's frames wait (R226, R353, R366). -/
structure WaitPkt where
  pkt : LPkt
  data : List Byte
  half : Nat
  inLink : Option Nat := none
  piece : Option (Nat × Nat) := none
  park : Option Nat := none
  deriving DecidableEq, Repr

/-- One link beside its registers (R348 to R358): packets waiting by `class * 2 + lane`; stream data waiting, by class and lane, as frames of
(context, flits, last of its stream, bytes); the replay buffer, oldest first; FSEQ to send next and last received good; whether a replay is awaited and a NAK owed;
frames of the neighbour's buffer in use per class and lane; frames freed here and not yet credited back; deficits and the class being served; time the state was
entered, alignment attempts, replays in the window and its start; whether the link has been ACTIVE since power-on; receive contexts, contexts in use for sending, opens that wait for one, and by context the number of the own stream it carries; for this 100 µs window and the last one with traffic, its number, its frame times with an L2 frame waiting for credit, and its frame times (R400);
by FSEQ, received frames part of which still waits to go on, with their class and lane and the number of their parts (R354). -/
structure Link where
  pktq : Table (List Queued)
  dataq : Table (List DataSeg)
  replay : List (Nat × FrameBody)
  resend : List (Nat × FrameBody)
  txSeq : Nat
  rxSeq : Nat
  bad : Bool
  ack : Nat
  used : Table Nat
  owed : Table Nat
  deficit : Table Nat
  cls : Nat
  since : Nat
  tries : Nat
  winStart : Nat
  winCount : Nat
  wasActive : Bool
  rx : Table RxCtx
  txCtx : List Nat
  waitOpen : List WaitPkt
  pieces : Table (Nat × Nat) := []
  txOwn : Table Nat := []
  l2Now : Nat × Nat × Nat := (0, 0, 0)
  l2Last : Nat × Nat × Nat := (0, 0, 0)
  deriving DecidableEq, Repr

/-- One phase of the phase list (R365, R490): four cut tables of 64 entries, with their link masks. -/
structure PhaseTables where
  entries : List (List Nat)
  masks : List Nat
  deriving DecidableEq, Repr

/-- What has been sent and received over the links and not yet acted on: packets received, with their link; packets held at a phase boundary or while no ACTIVE link
leads on (R226, R366); frames sent, newest last (the model's record of its output). -/
structure LinkIo where
  inbox : List (Nat × LPkt)
  held : List WaitPkt
  sent : List (Nat × Frame)
  deriving DecidableEq, Repr

/-- The phase boundary in progress (R366): `stage` 0 none, 1 waiting, 2 arrived, 3 closed; the graph and node that reached it; the time of the swap; at the phase
home, the positions arrived and the time of the first; whether the swap also applies a new default table (R379). -/
structure Boundary where
  stage : Nat
  node : Option (Nat × Nat)
  swapAt : Nat
  arrivals : List Nat
  first : Nat
  newMap : Bool
  deriving DecidableEq, Repr

/-- A stream that has landed whole (R353): its kind, address and length in barges, and the position it came from. -/
structure Landed where
  kind : Nat
  addr : Nat
  barges : Nat
  src : Nat
  deriving DecidableEq, Repr

/-- The links and the pod (R347 to R379): links; outgoing streams by their number; tables, entries by `(bank * 5 + table) * 64 + position`, masks by
`bank * 5 + table`; whether the tables and the shadow bank are loaded; the phase list; signals awaiting their SIG_ACK by tag, with their site; positions out of
service; whether the pod has been ready; the count, time and window of time-base exchanges; link multicasts being delivered here, by the tag of their canal multicast, as (source position, signal tag); streams landed and not yet acted on;
frames of transit streams that wait for their onward context, by number, and the next number (R353). -/
structure Pod where
  links : Table Link
  io : LinkIo
  streams : Table Stream
  nextStream : Nat
  rt : Table Nat
  rtMask : Table Nat
  rtLoaded : Bool
  shadowLoaded : Bool
  phases : List PhaseTables
  phase : Boundary
  sigTags : List (Nat × Nat)
  nextTag : Nat
  dead : List Nat
  ready : Bool
  tbCount : Nat
  tbLast : Nat
  tbWindow : Nat
  mcIn : Table (Nat × Nat)
  landed : List Landed
  parked : Table (List DataSeg) := []
  nextPark : Nat := 0
  deriving DecidableEq, Repr

/-- A persistent region of a pair (R375): base, length, and the slot addresses at the partner. -/
structure Region where
  base : Nat
  len : Nat
  slot0 : Nat
  slot1 : Nat
  deriving DecidableEq, Repr

/-- Mirroring (R374 to R377): the partner's logical number and the regions; whether the pair is confirmed; dirty bitmaps D0, D1 and the closing set C as lists of chunk
base addresses; the open epoch; the last committed epoch; the epoch closing; the full-copy mark; streams in flight, with their chunk; chunks of C that a write waits on, since when; the partner's regions with their slots here. -/
structure Mirror where
  regions : List Region
  d0 : List Nat
  d1 : List Nat
  c : List Nat
  full : Bool
  fullLeft : List Nat
  openEpoch : Nat
  closing : Option Nat
  closeTime : Nat
  closeSpec : Nat
  commitSent : Bool
  inFlight : List (Nat × Nat)
  waits : Table Nat
  pregions : List Region
  deriving DecidableEq, Repr

end Sys2Proof.Machine
end

