-- ==== Sys2Proof/Machine/TypesPower.lean ====
section
/-!
DEFINITION. State of the lockkeeper's side: power and clocks (R574 to R595), boot, images and security (R600 to R627), test modes (R635 to R648), and what
the block has answered to its readers.
-/
namespace Sys2Proof.Machine

/-- Where the module's power stands (R574, R578 to R582): no input; the lockkeeper alone; the rails up; loss handling; an orderly power-off under way. -/
inductive PwrAt where
  | dark | aux | up | loss | orderly
  deriving DecidableEq, Repr

/-- Why the rails are off, or going (R565, R578, R581, R593, R566): nothing, a loss of input, a power cycle, an out-of-band off, a thermal shutdown, a failed boot. -/
inductive OffCause where
  | none | loss | cycle | off | thermal | boot
  deriving DecidableEq, Repr

/-- The lockkeeper and the clocks. Times of the lockkeeper are `lkBase + now`, since the device time base starts again at each power-up (R595): `due` of a removal or a
restoration, `returned` of power's return, `failedAt` of the first failed boot (R566), `coolSince` of the sensors' cooling (R593). `winE` and `tickE` are input energy of
the 1 ms window that began at `winAt` and of the last 100 µs in nJ; `sampleAt`, `tickAt`, `thermAt` are when they were last taken; `fast` while samples stand above the ceiling (R588);
`stepAt` the last step by dome and `stepDome` the dome of the last one (R585); `unmet` a run of unmet windows (R590); `silent` a lost heartbeat with the CAP and THERM limits it
overrides (R27); sensors by number (R622); `hold` the sites whose vector hold stands, `holdEnd` when their task ended (R585); the position straps
(R653); the restart cause of the next power-on (R519); when the boot's current stage began, and whether a boot is under way; a POWER_STATE 0 that leaves STANDBY, with its start. -/
structure Power where
  at_ : PwrAt
  cause : OffCause
  lkBase : Nat
  due : Nat
  returned : Nat
  persisted : Bool
  failedAt : Option Nat
  attempt : Nat
  oos : Bool
  recovery : Bool
  clamp : Bool
  clampCycles : Nat
  coolSince : Option Nat
  winE : Nat
  winAt : Nat := 0
  tickE : Nat
  sampleAt : Nat
  fast : Bool
  stepAt : Table Nat
  stepDome : Nat
  unmet : Bool
  silent : Bool
  beatAt : Nat
  sensors : Table Nat
  hold : List Nat
  holdEnd : Table Nat
  straps : Nat
  restart : Nat
  stageAt : Nat
  booting : Bool
  energy : Nat
  tickAt : Nat
  thermAt : Nat
  leaving : Option (Nat × Nat)
  deriving DecidableEq, Repr

/-- A firmware update in progress (R609): image type, the bytes received, and whether they verified. -/
structure Update where
  typ : Nat
  size : Nat
  data : Memory
  verified : Bool
  deriving DecidableEq, Repr

/-- Boot flash, the lockkeeper store and the security block (R600 to R620): banks written, by type · 2 + bank; active and pending bank by type (R608); an update;
the nonce and its time (R494); the SVN being programmed into the fuses, by type (R610); POLICY of the running boot configuration (R603);
the pod configuration record (R623); SPDM sessions of Lantern and of the lockkeeper (R611); the images that run, by type, and the digests of indices 3 to 5 as the lockkeeper
took them at the last Lantern boot (R613). -/
structure Firmware where
  banks : Table (List Byte)
  active : Table Nat
  pend : Table Nat
  update : Option Update
  nonce : Option (BitVec 128)
  nonceAt : Nat
  svnDue : Table Nat
  policy : Nat
  podRecord : Word
  sessions : Nat
  lkSessions : Nat
  running : Table (List Byte) := []
  lkSeen : List (List Byte) := []
  deriving DecidableEq, Repr

/-- Test modes (R635 to R645): the pins follow the boundary register; the instruction that acts (R638); the end of the H0 dwell; PRBS checks by link and the margin command at H1, with the
time they end; a repair. -/
structure Test where
  scan : Bool
  ir : ScanOp
  dwell : Option Nat
  prbs : Table Nat
  ppr : Bool
  h1 : Bool
  deriving DecidableEq, Repr

/-- A name in a certificate (R612). -/
inductive CertName where
  | zengalRoot | zengalDeviceCa | deviceIdentity | lockkeeperIdentity
  deriving DecidableEq, Repr

/-- A certificate (R612): who signed it, whom it names, the module serial number in its subject, its key. -/
structure Cert where
  issuer : CertName
  subject : CertName
  serial : Option (BitVec 64)
  key : BitVec 768
  deriving DecidableEq, Repr

/-- A measurement block (R613): its index, its DMTF type (0 immutable ROM, 1 mutable firmware, 2 hardware configuration), its SHA-384 digest. -/
structure MeasBlock where
  index : Nat
  kind : Nat
  digest : List Byte
  deriving DecidableEq, Repr

/-- What a responder answers (R611 to R613): a message of its protocol alone, an error, its chain, the number of its blocks, blocks with the signature asked for, a challenge's signature. -/
inductive SpdmAns where
  | plain | error
  | chain (certs : List Cert)
  | count (n : Nat)
  | blocks (bs : List MeasBlock) (sig : Option (BitVec 768))
  | challenged (sig : BitVec 768)
  deriving DecidableEq, Repr

/-- What the block answered to a reader: a register, device memory, a sensor with its upper warning, critical and fatal thresholds, a PLDM command's completion code, an SPDM message, a margin command issued at H1, the boundary-scan instruction that acts with the IDCODEs it selects. -/
inductive Answer where
  | reg (off : Nat) (v : Word)
  | mem (a : Nat) (bs : List Byte)
  | sensor (id v : Nat) (limits : List (Option Nat))
  | pldm (code : Nat)
  | spdm (responder : Nat) (a : SpdmAns)
  | margin (cmd : Nat)
  | scan (acts : ScanOp) (idcodes : List (BitVec 32))
  deriving DecidableEq, Repr

end Sys2Proof.Machine
end

