-- ==== Sys2Proof/Machine/TypesSpire.lean ====
section
/-!
DEFINITION. State of a spire (R74 to R256): engines, vector and scalar registers, tile file, descriptors, pending landings, cell updates, mover operations,
L1 and translations, and the current-holding state of the array. Its registers of the site window are in the register file.
-/
namespace Sys2Proof.Machine

/-- What an engine is held on (R75, R187, R217, R222, R231, R232). A fence holds for writes issued before sequence number `before`, and not before cycle `aAt`, when its acquire is done. -/
inductive Wait where
  | full (c : Nat)
  | empty (c : Nat)
  | ge (c n : Nat)
  | take (c n : Nat)
  | pend (c k : Nat)
  | arrive (c : Nat)
  | gate (c n : Nat)
  | fence (w s : Bool) (before aAt : Nat)
  deriving DecidableEq, Repr

/-- What an engine is doing: idle, issuing, held, stopped by a fault or an interrupt, stopped by a TRANSLATION fault (R101), ended. -/
inductive EngSt where
  | idle | run | wait | stop | transl | ended
  deriving DecidableEq, Repr

/-- A change to a landing's destination. Masked bits keep what they hold. -/
inductive SWr where
  | tile (t r : Nat) (data mask : BitVec 1024)
  | scale (t r : Nat) (data mask : Word)
  | acc (a r : Nat) (data mask : BitVec 2048)
  | vec (v : Nat) (data mask : BitVec 2048)
  | kmask (k : Nat) (data mask : Word)
  | desc (d : Nat) (data mask : BitVec 2048)
  | scal (x : Nat) (data : Word)
  | tagOp (t tag : Nat)
  | tagAcc (a tag : Nat)
  | ls (off : Nat) (bytes : List Byte)
  deriving DecidableEq, Repr

/-- A mover operation with its operands resolved (R119, R181): byte addresses; the window of slot 0 and of the scale slot at iteration 0 (R193), as
(first, last) byte; its stream position and, in a loop, its iteration. `stag` is the source tag latched at issue (R78), `inf` E5M2_INF as of issue (R64), `haz` and `trap` HAZ_EN and
HAZ_TRAP as of issue (R109). -/
structure MovOp where
  form : MForm
  global : Bool
  t : Nat
  base : Nat
  stride : Int
  sbase : Nat
  sstride : Int
  tag : Nat
  stag : Nat
  n : Nat
  ls : Nat
  win : Option (Nat × Nat)
  swin : Option (Nat × Nat)
  qpos : Nat
  iter : Option Nat
  sig : Option AttSig
  inf : Bool := false
  haz : Bool := false
  trap : Bool := false
  deriving DecidableEq, Repr

/-- A residue check of one element (R67, R68, R71): its row and column or lane, its check point, the residue that the operands predict and the residue of the result formed. -/
structure Rsd where
  row : Nat
  col : Nat
  point : Nat
  expected : Nat
  observed : Nat
  deriving DecidableEq, Repr

/-- A landing to come (R77). `eng` as SPR_FAULT.ENGINE (R111); `ctxs` 1, 2 or 3 for the array contexts of an array result on accumulator `ac`, which `acc` takes from the array or the tile file
(R80, R130); `mov` the local mover form, kept for a reissue (R102); `iter` the iteration of a looped instruction (R196); `haz` and `trap` HAZ_EN and HAZ_TRAP as of its issue (R109);
`rsd` the residue check that an armed corruption meets (R73), none of an instruction that forms no checked result (R166, R200); `bad` a mismatch that the datapath produced by itself (R70). -/
structure Landing where
  due : Nat
  seq : Nat
  eng : Nat
  qpos : Nat
  writes : List SWr
  sig : Option AttSig
  flags : Nat
  ac : Nat
  ctxs : Nat
  mov : Option MovOp
  acc : Bool := false
  iter : Option Nat := none
  haz : Bool := false
  trap : Bool := false
  rsd : Option Rsd := none
  bad : Bool := false
  deriving DecidableEq, Repr

/-- A source row that a store reads during its occupancy (R78, R124): row `row` of operation `seq`, in cycle `due`. -/
structure RowRead where
  due : Nat
  seq : Nat
  row : Nat
  deriving DecidableEq, Repr

/-- Updates of a sync cell (R217, R219, R233). -/
inductive CellOp where
  | add (n : Nat)
  | dec (n : Nat)
  | fill
  | drain
  | arrive (g : Nat)
  | release (g : Nat)
  | barrive
  | host (w : Word)
  | close
  deriving DecidableEq, Repr

/-- An update on its way to a cell: its cycle, its source (engine as R111, or remote with the originating module and spire), the position of its instruction and, in a loop, the iteration. -/
structure CellUpd where
  due : Nat
  cell : Nat
  op : CellOp
  eng : Nat
  qpos : Nat
  remote : Bool
  omod : Nat
  ospire : Nat
  iter : Option Nat := none
  deriving DecidableEq, Repr

/-- A hold that R234 limits: at cell `cell`, of an engine (0 to 4, as R111) or of the home (5); the time it began, and whether it has reached the limit. -/
structure Hold where
  cell : Nat
  eng : Nat
  since : Nat
  reached : Bool
  deriving DecidableEq, Repr

/-- The body a loop repeats: an array instruction or a mover operation. -/
inductive LoopBody where
  | arr (f : AForm) (i : ArrIns)
  | mov (m : MovOp)
  deriving DecidableEq, Repr

/-- A looped instruction in progress (R180 to R187): its working copy of the descriptor, the next iteration, the iterations in all, whether the next one's gate is taken. -/
structure Loop where
  desc : BitVec 2048
  body : LoopBody
  next : Nat
  total : Nat
  gateTaken : Bool
  deriving DecidableEq, Repr

/-- An engine: state; earliest next issue; stream position (counted from task start) and index of its next instruction; instructions in its queue; what it is held on, since which cycle, and the
cycle at which issue resumes; signals sent and not yet delivered; the loop it runs; the runs left of its repeat blocks by the index of the instruction that ends them (R74); whether it could
still issue in the cycle in which another engine's fault stopped the spire (R75, R105). -/
structure Eng where
  st : EngSt
  free : Nat
  qpos : Nat
  pc : Nat
  queue : Nat
  wait : Option Wait
  since : Nat
  resume : Option Nat
  out : Nat
  loop : Option Loop
  reps : Table Nat := []
  last : Bool := false
  deriving DecidableEq, Repr

/-- Where one barge request of a global operation stands (R122, R247): not made; with a slot, waiting for a walk, walked or waiting for a way of L1, sent; its data here, or its write acknowledged. -/
inductive ReqSt where
  | todo | walking | way | sent | here | acked
  deriving DecidableEq, Repr

/-- One barge of a global operation: its untranslated barge address, the pieces of rows in it as (row, address, bytes, place in the operation's buffer), its state, its tag, the
translated barge, the acknowledgements it awaits, and its data; the cycle of its request (R122); whether a write of this spire to its barge came after it (R250). -/
structure Req where
  barge : Nat
  pieces : List (Nat × Nat × Nat × Nat)
  st : ReqSt
  tag : Nat
  phys : Nat
  left : Nat
  data : List Byte
  due : Nat := 0
  stale : Bool := false
  deriving DecidableEq, Repr

/-- A global operation outstanding (R87): the operation, its order of issue, its barges, rows arrived, the bytes gathered or to be stored by place, the acquire generation at its issue (R252). -/
structure Async where
  op : MovOp
  seq : Nat
  reqs : List Req
  rows : List Nat
  buf : List (Nat × List Byte)
  gen : Nat := 0
  deriving DecidableEq, Repr

/-- A line of L1 (R249): its barge address as translated, its data, and whether it was prefetched (R255). -/
structure Line where
  addr : Nat
  data : List Byte
  prefetched : Bool
  deriving DecidableEq, Repr

/-- A prefetch in flight (R252): its tag, translated barge address, acquire generation, whether a write of this spire to the barge came after it (R250), and its untranslated address (R263). -/
structure Pre where
  tag : Nat
  addr : Nat
  gen : Nat
  stale : Bool := false
  va : Nat := 0
  deriving DecidableEq, Repr

/-- A prefetch stream (R253): page, last demand barge, direction upward, trained, next barge to request. -/
structure PStream where
  page : Nat
  last : Nat
  up : Bool
  trained : Bool
  next : Nat
  deriving DecidableEq, Repr

/-- A cached translation (R260): first untranslated address, size, frame, writes permitted, no prefetch. -/
structure Xlt where
  va : Nat
  size : Nat
  frame : Nat
  w : Bool
  nopf : Bool
  deriving DecidableEq, Repr

/-- Real work of one instruction in a context (R163): its time in ns, and the share of its cell-cycles that real products fill. -/
structure Work where
  start : Nat
  stop : Nat
  real : Nat
  total : Nat
  deriving DecidableEq, Repr

/-- Cycles `a` to `b` of an array instruction in a context, with the 64ths of them in which its cells do real work and run dummy operations (R139, R145, R163). -/
structure Seg where
  a : Nat
  b : Nat
  busy : Nat
  dum : Nat
  deriving DecidableEq, Repr

/-- The current-holding state of one array context (R140): state as R144, the duty at the time `since` (ns) a ramp began, the end of the last real occupancy in ns and in spire cycles, since when
consecutive 64 ns intervals are sparse, and the work that the current interval may still meet (R163); whether a ramp-down is that of sparse work; the part of an active cycle that a ramp-up has in
hand (64ths); the cycles of issued instructions that are not counted yet. -/
structure HoldCtx where
  st : Nat
  duty : Nat
  since : Nat
  gapFrom : Nat
  sparseFrom : Option Nat
  work : List Work
  gapCyc : Nat := 0
  bySparse : Bool := false
  frac : Nat := 0
  segs : List Seg := []
  deriving DecidableEq, Repr

/-- How far BUSY and DUMMY are counted: the spire cycle, and the 64ths of a cycle in hand (R145). -/
structure ArrCount where
  upTo : Nat
  busy : Nat
  dum : Nat
  deriving DecidableEq, Repr

/-- Matrix, vector and scalar storage and the tile file, as rows by index: `tiles` and `scales` by 32·t + row, `accs` by 32·a + row. -/
structure Regs where
  tiles : Table (BitVec 1024)
  scales : Table Word
  accs : Table (BitVec 2048)
  vec : Table (BitVec 2048)
  kmasks : Table Word
  descs : Table (BitVec 2048)
  scal : Table Word
  rng : Table Word
  deriving DecidableEq, Repr

/-- The mover's side: operations outstanding; operations abandoned, and those being reissued, each with its order of issue (R102, R125); L1 lines most recently used first, the acquire generation,
prefetches in flight and streams, translations; a TRANSLATION fault in progress since a time, with its operation and MIGR (R262); the next tag; since which cycle all slots are held (R277);
the barges that a prefetch hint has still to request (R255). -/
structure MoverSt where
  ops : List Async
  abandoned : List (Nat × MovOp)
  redo : List (Nat × MovOp) := []
  l1 : List Line
  gen : Nat
  pre : List Pre
  streams : List PStream
  xlt : List Xlt
  faultAt : Option Nat
  faultSeq : Nat := 0
  migr : Bool
  nextTag : Nat
  fullSince : Option Nat
  hints : List Nat := []
  deriving DecidableEq, Repr

/-- A spire. `cycle` is its own count of spire cycles, and it stands at time `ns0` plus the time of the cycles since `cyc0`; `ctxFree` when an array context is past its occupancy, `matNext` the earliest issue
of a split instruction after the last one of the matrix engine (R132);
`inject` the engine armed for a residue error (R73); `counted` how far the array's cycles are counted (R145); `stopAt` the cycle of the fault that stopped the spire, `recAt` the cycle in which SPR_FAULT was filled (R105);
`descs` the descriptor bits that landings wrote in the cycle `cycle` (R191). -/
structure Spire where
  cycle : Nat
  cyc0 : Nat
  ns0 : Nat
  seq : Nat
  mat : Eng
  vec : Eng
  mov : Eng
  sqr : Eng
  ctxFree0 : Nat
  ctxFree1 : Nat
  matNext : Nat
  regs : Regs
  landings : List Landing
  reads : List RowRead
  upds : List CellUpd
  holds : List Hold
  mover : MoverSt
  hold0 : HoldCtx
  hold1 : HoldCtx
  inject : Option Nat
  counted : ArrCount := { upTo := 0, busy := 0, dum := 0 }
  stopAt : Option Nat := none
  recAt : Option Nat := none
  descs : List (Nat × BitVec 2048) := []
  deriving DecidableEq, Repr

/-- A task (R485 to R487, R95 to R98): its handle, the spires of its gang (sites), the command or graph node it answers to, its start, watchdog, program, epoch, how it ends, what update requests were frozen, and whether the detectors of R159
have disagreed in it. -/
structure Task where
  handle : Nat
  gang : List Nat
  cmd : Option Nat
  node : Option (Nat × Nat)
  start : Nat
  limit : Nat
  program : Nat
  epoch : Nat
  fault : Option (Nat × Nat × Nat)
  finished : List Nat
  update : Nat
  nreq : Nat
  frozen : Nat
  started : Bool
  abortCmds : List Nat
  pauseCmds : List Nat
  disagreed : Bool := false
  deriving DecidableEq, Repr

/-- A held write that waits for a line (R270): its packet, since when, and whether its wait has reached STALL_LIM. -/
structure HeldWr where
  pkt : CPkt
  since : Nat
  reported : Bool
  deriving DecidableEq, Repr

/-- An epoch slot's held writes (R266 to R270): 128-byte quarters by address; barges held and whether each is spilled; writes waiting, oldest first, with the time up to which their
wait is counted (R279); what the slot holds beside its registers; whether a step-end's commit is held DELAYED (R430). -/
structure Epoch where
  quarters : Table (List Byte)
  spilled : Table Bool
  waiting : List HeldWr
  since : Nat
  persist : Bool
  touched : List Nat
  ovf : Bool
  commit : Bool
  deriving DecidableEq, Repr

end Sys2Proof.Machine
end

