-- ==== Sys2Proof/Machine/State.lean ====
section
/-!
DEFINITION. The state of the block: everything the manual gives an A960 and what a command leaves behind, as plain data; the reasons a command can stop; and the module
as it stands before its input power is applied. One table holds every register of BAR0 (R7 to R11, R462); memory holds the towers, the far tier and the local stores by
device address (R193); the other fields hold what the chapters describe beside their registers.
-/
namespace Sys2Proof.Machine

open Sys2Proof

/-- Why the block stops with a fault. There is no such reason: whatever reaches the block has an effect that the manual gives, a bad access or command included, so the type is empty. -/
inductive Fault where
  deriving DecidableEq, Repr

/-- Why the block gives a command no meaning. -/
inductive Refusal where
  /-- Raised by the dispatch alone, for a command whose meaning is not written. Safe: nothing is claimed of it. No arm of the dispatch answers it in this model. -/
  | notModelled (mnemonic : String)
  deriving DecidableEq, Repr

/-- The state. Fields, in order:
`pending` the commands and events that wait, first in, first out (the model's own queue);
`now` the device time base in ns (R370, R595);
`regs` every register of BAR0, by its offset, where it differs from its reset value (Registers);
`mem` the bytes of the tower window, the far window and the local-store windows, by device address, where they are not zero (R193, R241, R296);
`hcp` queue pairs, admitted commands, the forwarding tracker, event counts, and the entries and vectors sent (R465 to R481);
`jnl` the journal (R511 to R520); `errs` error records and stops (R547 to R557); `mbx` mailboxes (R503 to R510);
`canal` the routers of both domes (R316 to R338); `aq` the aqueduct (R339 to R341); `groups` the canal multicast groups (R333);
`pod` links, streams, route tables and phase boundaries (R347 to R379); `mirror` mirroring (R374 to R377);
`spires` the spires by site: engines, tiles, registers, masks, descriptors, caches, prefetch, hold state (R74 to R240);
`tasks` the running tasks by handle (R94 to R104); `epochs` the two epoch slots with what they hold (R265 to R276); `syncGroups` the sync-group table (R228);
`job` the running job (R448, R490); `programs` the loaded programs, and `progCount` how many were loaded (R485); `graphs` the task graphs (R488, R489);
`coll` the collectives engine (R387 to R413); `stepEnd` the step-end that runs (R422, R423); `ovfRun` overflow steps in a row, beyond what CONSEC_OVF shows (R426);
`stq` the stage queues (R453 to R455); `bsn` the basin (R527 to R543); `towers` the towers by number (R288 to R300); `far` port H1 (R305 to R308);
`warm` a warm reset under way (R563); `reinit` functions at rung 2 (R560); `pwr` the lockkeeper, power and clocks (R574 to R595); `fw` boot flash and security (R600 to R624);
`tst` test modes (R635 to R648); `answers` what the block has answered to its readers (the model's record of its outputs);
`freeCtr` the model's own counter into the free values (Config). -/
structure State where
  pending : List Instr
  now : Nat
  regs : Table Word
  mem : Memory
  hcp : Hcp
  jnl : Journal
  errs : Errs
  mbx : Mailbox
  canal : Canal
  aq : Aqueduct
  groups : Table CGroup
  pod : Pod
  mirror : Mirror
  spires : Table Spire
  tasks : Table Task
  epochs : Table Epoch
  syncGroups : Table (BitVec 128)
  job : Job
  programs : List Program
  progCount : Nat
  graphs : Table Graph
  coll : Engine16
  stepEnd : Option StepEnd
  ovfRun : Nat
  stq : Table StageQ
  bsn : Basin
  towers : Table Tower
  far : Far
  warm : Option Warm
  reinit : List Reinit
  pwr : Power
  fw : Firmware
  tst : Test
  answers : List Answer
  freeCtr : Nat
  deriving DecidableEq, Repr

/-- The module before its input power is applied (R574, R579): every register at the reset value of its field table (R10), with SEC_STATE.SECURE_BOOT as its fuse gives it on
every shipped module (R626), nothing in any memory or queue, the next restart a power-on (R519). POWER_UP and the boot stages follow from here. -/
def State.reset : State :=
  { pending := [], now := 0, regs := [(R.SEC_STATE, 1)], mem := [],
    hcp := { queues := [], cmds := [], tracker := [], eseq := [], cqOut := [], msix := [] },
    jnl := { ring := [], changed := [], persist := none, persistDsq := 0, covered := [], late := false, making := none, fullDone := false, log := [], highWater := 0, stepTime := 0, lastSpec := 0, mirEpoch := 0, mirSlot := 0,
             mirClose := 0, mirSpec := 0, copyDseq := 0, copyTime := 0 },
    errs := { ring := [], store := [], lastRead := 0, lost := 0, stopCount := 0, stopsSeen := [], stopTime := 0 },
    mbx := { chans := [], stage := [] },
    canal := { inq := [], used := [], freed := [], deficit := [], serving := [], turn := [], forks := [], acks := [], arrived := [] },
    aq := { txSeq := [], rxSeq := [], replay := [], held := [], winStart := [], winCount := [], lost := [] },
    groups := [],
    pod := { links := [], io := { inbox := [], held := [], sent := [] }, streams := [], nextStream := 0, rt := [], rtMask := [], rtLoaded := false, shadowLoaded := false,
             phases := [], phase := { stage := 0, node := none, swapAt := 0, arrivals := [], first := 0, newMap := false }, sigTags := [], nextTag := 0, dead := [], ready := false,
             tbCount := 0, tbLast := 0, tbWindow := 0, mcIn := [], landed := [] },
    mirror := { regions := [], d0 := [], d1 := [], c := [], full := false, fullLeft := [], openEpoch := 0, closing := none, closeTime := 0, closeSpec := 0, commitSent := false,
                inFlight := [], waits := [], pregions := [] },
    spires := [], tasks := [], epochs := [], syncGroups := [], job := { mapping := 0, root := 0, redrawn := false }, programs := [], progCount := 0, graphs := [],
    coll := { running := [], waiting := [], sent := [] }, stepEnd := none, ovfRun := 0, stq := [],
    bsn := { ckpts := [], capture := none, restore := none, blocks := [], patrolEnd := 0, patrolled := [], keyGen := 0, records := 0, wearNote := 0, retireCopy := [], factory := [] },
    towers := [], far := { reqs := [], failed := false }, warm := none, reinit := [],
    pwr := { at_ := .dark, cause := .none, lkBase := 0, due := 0, returned := 0, persisted := false, failedAt := none, attempt := 0, oos := false, recovery := false, clamp := false,
             clampCycles := 0, coolSince := none, winE := 0, tickE := 0, sampleAt := 0, fast := false, stepAt := [], stepDome := 0, unmet := false, silent := false, beatAt := 0,
             sensors := [], hold := [], holdEnd := [], straps := 0, restart := 1, stageAt := 0, booting := false, energy := 0, tickAt := 0, thermAt := 0, leaving := none },
    fw := { banks := [], active := [], pend := [], update := none, nonce := none, nonceAt := 0, svnDue := [], policy := 0, podRecord := 0, sessions := 0, lkSessions := 0 },
    tst := { scan := false, ir := .idcode, dwell := none, prbs := [], ppr := false, h1 := false },
    answers := [], freeCtr := 0 }

end Sys2Proof.Machine
end

