-- ==== Sys2Proof/Machine/Ops.lean ====
section
/-!
DEFINITION. Shared operations: registers and counters, device memory, completion queues and vectors, events, the journal and error
records. Every command's meaning goes through these.
-/
namespace Sys2Proof.Machine

/-! Registers. -/

/-- The stored value of the register at an offset of BAR0. -/
def State.reg (s : State) (off : Nat) : Word := tget regReset s.regs off

/-- Store a register. -/
def State.setReg (s : State) (off : Nat) (v : Word) : State := { s with regs := tset regReset s.regs off v }

/-- A field of a word (R8). -/
def fget (v : Word) (f : Fld) : Nat := v.toNat / 2 ^ f.lo % 2 ^ (f.hi + 1 - f.lo)

/-- A word with one field replaced; the value is cut to the field's width. -/
def fset (v : Word) (f : Fld) (x : Nat) : Word :=
  BitVec.ofNat 64 (v.toNat - fget v f * 2 ^ f.lo + x % 2 ^ (f.hi + 1 - f.lo) * 2 ^ f.lo)

/-- A field of a register. -/
def State.fld (s : State) (off : Nat) (f : Fld) : Nat := fget (s.reg off) f

/-- Set a field of a register. -/
def State.setFld (s : State) (off : Nat) (f : Fld) (x : Nat) : State := s.setReg off (fset (s.reg off) f x)

/-- Set several fields of a register. -/
def State.setFlds (s : State) (off : Nat) (fs : List (Fld × Nat)) : State :=
  s.setReg off (fs.foldl (fun v p => fset v p.1 p.2) (s.reg off))

/-- Add to a 64-bit statistics counter (R14). -/
def State.bump (s : State) (off : Nat) (n : Nat := 1) : State := s.setReg off (s.reg off + BitVec.ofNat 64 n)

/-- Write a first-of-several record register (VALID, MORE and the rest): the first event fills it, a later one sets MORE. -/
def State.record (s : State) (off : Nat) (valid more : Fld) (fs : List (Fld × Nat)) : State :=
  if s.fld off valid = 1 then s.setFld off more 1
  else s.setReg off (((valid, 1) :: fs).foldl (fun v p => fset v p.1 p.2) 0)

/-- The short timestamp (R15). -/
def State.stamp (s : State) : Nat := s.now % 2 ^ 32

/-! Device memory (untranslated device addresses). -/

/-- Bytes of device memory. -/
def State.load (s : State) (a n : Nat) : List Byte := Memory.readBytes s.mem a n

/-- A little-endian number of device memory. -/
def State.loadLE (s : State) (a n : Nat) : Nat := Memory.readLE s.mem a n

/-- The 2 MiB chunks that a range of addresses touches, by base address (R375). -/
def chunksOf (a n : Nat) : List Nat := if n = 0 then [] else (List.range ((a % 0x200000 + n - 1) / 0x200000 + 1)).map (fun i => (a / 0x200000 + i) * 0x200000)

/-- A chunk of a mirrored region; the journal working region is one (R375). -/
def Mirror.covers (m : Mirror) (c : Nat) : Bool :=
  m.regions != [] && (m.regions.any (fun r => Nat.ble r.base c && Nat.blt c (r.base + r.len)) || (Nat.ble 0x005DFF800000 c && Nat.blt c 0x005E00000000))

/-- A write applied to memory marks its chunks dirty in both bitmaps (R375). -/
def Mirror.mark (m : Mirror) (a n : Nat) : Mirror :=
  let cs := (chunksOf a n).filter m.covers
  { m with d0 := m.d0 ++ cs.filter (fun c => !m.d0.contains c), d1 := m.d1 ++ cs.filter (fun c => !m.d1.contains c) }

/-! Where this module stands in its pod. -/

/-- Own physical position. -/
def State.position (s : State) : Nat := s.fld R.LNK_POD_CFG F.LNK_POD_CFG_POSITION

/-- A pod of one until the first POD_CONFIG (R378). -/
def State.alone (s : State) : Bool := (List.range 8).all (fun n => s.reg (R.LNK_LMAP n) == 0)

/-- The position of a logical number, none where the map does not name it (R378). -/
def State.posOf (s : State) (l : Nat) : Option Nat :=
  if s.alone then (if l = 0 then some s.position else none)
  else
    let e := (s.reg (R.LNK_LMAP (l / 8))).toNat / 2 ^ (8 * (l % 8)) % 256
    if l < 64 ∧ e / 128 = 1 then some (e % 64) else none

/-- The logical number of a position. -/
def State.logicalOf (s : State) (p : Nat) : Option Nat := (List.range 64).find? (fun l => s.posOf l == some p)

/-- MODULE of an entry: own logical number, or the position where there is none (R473). -/
def State.moduleId (s : State) : Nat := if s.fld R.LNK_POD_CFG F.LNK_POD_CFG_SPARE = 1 then s.position else s.fld R.LNK_POD_CFG F.LNK_POD_CFG_LOGICAL

/-- This module's own H0 serves the host: the gateway, or a module outside any pod (R368, R476). -/
def State.servesHost (s : State) : Bool := s.alone || s.fld R.LNK_POD_CFG F.LNK_POD_CFG_GATEWAY == 1

/-- Two or four expanders of equal capacity are striped (R306). -/
def farStriped (caps : List Nat) : Bool := (caps.length == 2 || caps.length == 4) && caps.all (fun c => c == caps.headD 0)

/-! Link packets out. -/

/-- A link of the pod; an untouched one is empty. -/
def emptyLink : Link :=
  { pktq := [], dataq := [], replay := [], resend := [], txSeq := 0, rxSeq := 0, bad := false, ack := 0, used := [], owed := [],
    deficit := [], cls := 0, since := 0, tries := 0, winStart := 0, winCount := 0, wasActive := false, rx := [], txCtx := [], waitOpen := [] }

/-- A link's state. -/
def State.link (s : State) (n : Nat) : Link := (tfind s.pod.links n).getD emptyLink

/-- Store a link's state. -/
def State.setLink (s : State) (n : Nat) (l : Link) : State := { s with pod := { s.pod with links := tinsert s.pod.links n l } }

/-- LNK_STATUS.STATE of a link: 0 DISABLED, 1 TRAIN, 2 ALIGN, 3 IDENT, 4 ACTIVE, 5 RETRAIN, 6 FAILED, 7 MISWIRED, 8 TEST. -/
def State.linkState (s : State) (n : Nat) : Nat := s.fld (R.LNK_STATUS n) F.LNK_STATUS_STATE

/-- The active bank. -/
def State.bank (s : State) : Nat := s.fld R.LNK_PHASE_CTL F.LNK_PHASE_CTL_BANK

/-- Entry of a route table in a bank (R363); an entry of a table not loaded reads 0 and routes nothing. -/
def State.rtEntry (s : State) (bank table pos : Nat) : Nat := tget (fun _ => 0) s.pod.rt ((bank * 5 + table) * 64 + pos)

/-- Direction groups of the topology (R360): their number. -/
def groupsOf (topo : Nat) : Nat := match topo with | 1 => 2 | 2 => 2 | 3 => 4 | 4 => 6 | _ => 0

/-- The links of direction group `k` in dome half `h` (R361). -/
def groupLinks (topo k h : Nat) : List Nat :=
  let g := groupsOf topo
  if g = 0 then [] else (List.range (24 / g)).map (fun j => h * 24 + 24 / g * k + j)

/-- The links a hop of direction `k` may use: masked ACTIVE links of the own dome half, or of the other half where it has none (R363). -/
def State.hopLinks (s : State) (table k half : Nat) : List Nat :=
  let topo := s.fld R.LNK_POD_CFG F.LNK_POD_CFG_TOPO
  let mask := tget (fun _ => 0) s.pod.rtMask (s.bank * 5 + table)
  let ok := fun n => decide (mask / 2 ^ n % 2 = 1) && s.linkState n == 4
  let own := (groupLinks topo k half).filter ok
  if own = [] then (groupLinks topo k (1 - half)).filter ok else own

/-- The link of the next hop to a position, with its virtual lane, from the table; none where the table marks it unreachable. `n` chooses in the group (R363). -/
def State.nextHop (s : State) (table dest n half : Nat) : Option (Nat × Nat) :=
  if s.pod.rtLoaded = false then none else
  let e := s.rtEntry s.bank table dest
  let dir := e / 2 ^ 13
  if dir ≥ 6 then none else
  let ls := s.hopLinks table dir half
  match ls[n % ls.length]? with
  | some l => some (l, e / 2 ^ 12 % 2)
  | none => none

/-- A destination that a table marks unreachable, or a table not loaded (R363). -/
def State.unreachable (s : State) (table dest : Nat) : Bool := !s.pod.rtLoaded || Nat.ble 6 (s.rtEntry s.bank table dest / 2 ^ 13)

/-- The direction group of a link, 7 outside the topology (R361, R380). -/
def linkGroup (topo n : Nat) : Nat := let g := groupsOf topo; if g = 0 then 7 else n % 24 / (24 / g)

/-- The lane of a forwarded packet (R362): on the dateline hop and after it in the same dimension VL1, else VL0. -/
def State.laneOn (s : State) (n m vlIn vl : Nat) : Nat :=
  let topo := s.fld R.LNK_POD_CFG F.LNK_POD_CFG_TOPO
  if linkGroup topo n / 2 = linkGroup topo m / 2 then max vlIn vl else vl

/-- One more part of a received frame waits to go on (R354). -/
def State.addPiece (s : State) (piece : Option (Nat × Nat)) : State :=
  match piece with
  | none => s
  | some (n, q) =>
    let l := s.link n
    match tfind l.pieces q with
    | some (k, c) => s.setLink n { l with pieces := tinsert l.pieces q (k, c + 1) }
    | none => s

/-- A part of a received frame has gone on: with the last one the frame has left the buffer, and its credit is owed (R354). -/
def State.pieceGone (s : State) (piece : Option (Nat × Nat)) : State :=
  match piece with
  | none => s
  | some (n, q) =>
    let l := s.link n
    match tfind l.pieces q with
    | some (k, c) =>
      if c ≤ 1 then s.setLink n { l with pieces := terase l.pieces q, owed := tset (fun _ => 0) l.owed k (tget (fun _ => 0) l.owed k + 1) }
      else s.setLink n { l with pieces := tinsert l.pieces q (k, c - 1) }
    | none => s

/-- Put a link packet on the queue of a link. -/
def State.enqueueL (s : State) (n : Nat) (p : LPkt) (piece : Option (Nat × Nat) := none) : State :=
  let l := s.link n
  let k := p.lclass * 2 + p.vl
  s.setLink n { l with pktq := tinsert l.pktq k ((tfind l.pktq k).getD [] ++ [{ pkt := p, piece := piece }]) }

/-- Put frames of stream data on the queue of a link. -/
def State.enqueueD (s : State) (n k : Nat) (ds : List DataSeg) : State :=
  let l := s.link n
  s.setLink n { l with dataq := tinsert l.dataq k ((tfind l.dataq k).getD [] ++ ds) }

/-- Cut stream data into DATA frames of at most 2 KiB, the last marked (R350). -/
def cutFrames : Nat → Nat → List Byte → List DataSeg
  | 0, _, _ => []
  | fuel + 1, ctx, bs =>
    let r := bs.drop 2048
    let h := bs.take 2048
    ⟨ctx, (h.length + 255) / 256, r.isEmpty, h, none⟩ :: (if r.isEmpty then [] else cutFrames fuel ctx r)

/-- A transit stream has its onward context: its receive context leads there, and the frames that waited follow the open (R353). -/
def State.unpark (s : State) (w : WaitPkt) (n c : Nat) : State :=
  match w.inLink, w.park with
  | some i, some t =>
    let l := s.link i
    let s := s.setLink i { l with rx := l.rx.map (fun e => if e.2.park = some t then (e.1, { e.2 with onward := some (n, c), vlOut := w.pkt.vl, park := none }) else e) }
    let ds := (tfind s.pod.parked t).getD []
    ({ s with pod := { s.pod with parked := terase s.pod.parked t } } : State).enqueueD n (w.pkt.lclass * 2 + w.pkt.vl) (ds.map (fun d => { d with ctx := c }))
  | _, _ => s

/-- A stream takes a context of a link: the STREAM_OPEN, and its data behind it (R353). -/
def State.openWith (s : State) (n c : Nat) (w : WaitPkt) : State :=
  let l := s.link n
  let own := match w.pkt.body, w.inLink with | .streamOpen _ _ _ _ orig, none => tinsert l.txOwn c orig | _, _ => terase l.txOwn c
  let s := (s.setLink n { l with txCtx := l.txCtx ++ [c], txOwn := own }).enqueueL n { w.pkt with id := c } w.piece
  if w.park.isSome then s.unpark w n c else s.enqueueD n (w.pkt.lclass * 2 + w.pkt.vl) (cutFrames (w.data.length / 2048 + 1) c w.data)

/-- Open a stream on a link with a free context of the 1,024; with none free, or others waiting, the open waits in order (R353). -/
def State.openOnLink (s : State) (n : Nat) (w : WaitPkt) : State :=
  let l := s.link n
  match l.waitOpen, (List.range 1024).find? (fun c => !l.txCtx.contains c) with
  | [], some c => s.openWith n c w
  | _, _ => s.setLink n { l with waitOpen := l.waitOpen ++ [w] }

/-- A link packet is held until it can be sent. -/
def State.holdL (s : State) (w : WaitPkt) : State := { s with pod := { s.pod with io := { s.pod.io with held := s.pod.io.held ++ [w] } } }

/-- A phase boundary holds a packet: one that this module originates, but for the barrier's own (R366). -/
def State.phaseHolds (s : State) (p : LPkt) : Bool :=
  (s.pod.phase.stage == 2 || s.pod.phase.stage == 3) && p.srcPos == s.position && !(match p.body with | .phase _ _ _ => true | _ => false)

/-- Send a link packet on by its table, its own or one in transit; it is held while a phase boundary holds injections (R366) and while no ACTIVE link of its table leads on, and never
dropped (R226). A stream takes its link by its stream number, a packet by source plus destination (R363). -/
def State.sendW (s : State) (w : WaitPkt) : State :=
  if s.phaseHolds w.pkt then s.holdL w else
  let p := if w.inLink.isNone then { w.pkt with tgen := s.fld R.LNK_PHASE_CTL F.LNK_PHASE_CTL_TGEN } else w.pkt
  let k := match p.body with | .streamOpen _ _ _ _ orig => orig | _ => p.srcPos + p.destPos
  match s.nextHop p.table p.destPos k w.half with
  | none => s.holdL w
  | some (m, vl) =>
    let p := { p with vl := match w.inLink with | some n => s.laneOn n m p.vl vl | none => vl }
    match p.body with
    | .streamOpen _ _ _ _ _ => s.openOnLink m { w with pkt := p }
    | _ => s.enqueueL m p w.piece

/-- Send a link packet of this module, with the data of a stream it opens. -/
def State.sendLD (s : State) (p : LPkt) (bs : List Byte) (half : Nat := 0) : State := s.sendW { pkt := p, data := bs, half := half }

/-- What was held is sent, in order, each in its dome half; what still cannot go is held on (R226, R366). -/
def State.releaseHeld (s : State) : State :=
  let h := s.pod.io.held
  let s : State := { s with pod := { s.pod with io := { s.pod.io with held := [] } } }
  h.foldl (fun s w => s.sendW w) s

/-- Send a routed link packet of this module. -/
def State.sendL (s : State) (p : LPkt) (half : Nat := 0) : State := s.sendLD p [] half

/-- A link packet of this module to a position, by the default table. -/
def State.lpkt (s : State) (lclass dest id : Nat) (b : LBody) : LPkt :=
  { lclass := lclass, vl := 0, tgen := s.fld R.LNK_PHASE_CTL F.LNK_PHASE_CTL_TGEN, table := 4, destPos := dest, srcPos := s.position, id := id, body := b }

/-- One ACTIVE link of every direction group, the lowest numbered (R373). -/
def State.oneLinkPerGroup (s : State) : List Nat :=
  let topo := s.fld R.LNK_POD_CFG F.LNK_POD_CFG_TOPO
  (List.range (groupsOf topo)).filterMap (fun k => (groupLinks topo k 0 ++ groupLinks topo k 1).find? (fun n => s.linkState n == 4))

/-- Send a link-local packet on one ACTIVE link of every group; DEST_POS is the neighbour's position (R352, R373). -/
def State.flood (s : State) (id : Nat) (b : LBody) : State :=
  (s.oneLinkPerGroup).foldl (fun s n => s.enqueueL n (s.lpkt 0 (s.fld (R.LNK_STATUS n) F.LNK_STATUS_NB_POS) id b)) s

/-! Chunks read before a write to them (R375, R376, R535). -/

/-- Position of the pair partner (R374, R386). -/
def State.partnerPos (s : State) : Option Nat :=
  if s.fld R.LNK_MIR_CFG F.LNK_MIR_CFG_EN = 1 then s.posOf (s.fld R.LNK_MIR_CFG F.LNK_MIR_CFG_PARTNER) else none

/-- Open an L3 or L2 stream of this module to a position (R353); its number is its own. -/
def State.openStream (s : State) (dest addr : Nat) (kind collId owner lclass table half : Nat) (bs : List Byte) : State :=
  let k := s.pod.nextStream
  let b := (bs.length + 511) / 512
  let st : Stream := { dest := dest, addr := addr, barges := b, collId := collId, kind := kind, table := table, lclass := lclass, owner := owner }
  let s := { s with pod := { s.pod with streams := tinsert s.pod.streams k st, nextStream := (k + 1) % 65536 } }
  s.sendLD { s.lpkt lclass dest 0 (.streamOpen addr b collId kind k) with table := table } (bs ++ List.replicate (b * 512 - bs.length) 0) half

/-- LNK_MIR_STAT (R386). -/
def State.showMirror (s : State) : State :=
  let m := s.mirror
  let st := if m.closing = none then (if m.openEpoch = 0 then 0 else 1) else if m.c = [] then 3 else 2
  s.setFlds R.LNK_MIR_STAT [(F.LNK_MIR_STAT_STATE, st), (F.LNK_MIR_STAT_SLOT, m.openEpoch % 2), (F.LNK_MIR_STAT_FULL, if m.full then 1 else 0), (F.LNK_MIR_STAT_PENDING, m.c.length)]

/-- Where a chunk lies in a mirror slot at the partner (R375); the manual gives no slot of the journal working region. -/
def Mirror.slotAddr (m : Mirror) (slot c : Nat) : Nat :=
  match m.regions.find? (fun r => Nat.ble r.base c && Nat.blt c (r.base + r.len)) with
  | some r => (if slot = 0 then r.slot0 else r.slot1) + (c - r.base)
  | none => (Config.journalSlot slot).toNat + c % 0x800000

/-- Send a chunk of mirror epoch `n` to the partner (R376); the stream is noted with its chunk. -/
def State.sendChunk (s : State) (n c : Nat) : State :=
  match s.partnerPos with
  | some pos =>
    let m := s.mirror
    let s := { s with mirror := { m with inFlight := m.inFlight ++ [(s.pod.nextStream, c)] } }
    let s := s.bump R.LNK_MIR_BYTES 0x200000
    s.openStream pos (m.slotAddr (n % 2) c) 4 0 0 3 4 (if c < 0x006000000000 then 0 else 1) (Memory.readBytes s.mem c 0x200000)
  | none => s

/-- The time since which some chunk of a table has been waited on, up to now: waits that overlap count once (DESIGN CHOICE, notes/assumptions/136.md). -/
def waitedNs (t : Table Nat) (now : Nat) : Nat := now - t.foldl (fun m e => min m e.2) now

/-- The waits on one chunk end: the others have been counted up to now. -/
def waitsAfter (t : Table Nat) (c now : Nat) : Table Nat := (terase t c).map (fun e => (e.1, now))

/-- Writes that waited on a closing chunk of the mirror go on: their time is counted (R376). -/
def State.releaseMirror (s : State) (c : Nat) : State :=
  let t := s.mirror.waits
  { s.bump R.LNK_MIR_WAIT_NS (waitedNs t s.now) with mirror := { s.mirror with waits := waitsAfter t c s.now } }

/-- A chunk of the closing set is copied (R376). -/
def State.copyClosing (s : State) (c : Nat) : State :=
  match s.mirror.closing with
  | some n => ((({ s with mirror := { s.mirror with c := s.mirror.c.filter (fun x => x != c) } }).sendChunk n c).releaseMirror c).showMirror
  | none => s

/-- BSN_CAPTURE (R544). -/
def State.showCapture (s : State) : State :=
  match s.bsn.capture with
  | some k => s.setFlds R.BSN_CAPTURE [(F.BSN_CAPTURE_REMAIN, k.left.length), (F.BSN_CAPTURE_HELD, k.held.length)]
  | none => s.setReg R.BSN_CAPTURE 0

/-- Writes that waited on a capture's chunk go on (R535). -/
def State.releaseCapture (s : State) (c : Nat) : State :=
  match s.bsn.capture with
  | some k =>
    let s := s.bump R.BSN_CAPTURE_WAIT_NS (waitedNs k.held s.now)
    ({ s with bsn := { s.bsn with capture := some { k with held := waitsAfter k.held c s.now } } }).showCapture
  | none => s

/-- A chunk of the own section is read into the checkpoint being written (R535). -/
def State.captureChunk (s : State) (c : Nat) : State :=
  match s.bsn.capture with
  | some k =>
    let k := { k with left := k.left.filter (fun x => x != c), ck := { k.ck with own := Memory.writeBytes k.ck.own c (Memory.readBytes s.mem c 0x200000) } }
    (({ s with bsn := { s.bsn with capture := some k } }).releaseCapture c).bump R.BSN_WR_BYTES 0x200000
  | none => s

/-- Chunks of a range that a mirror close or a capture still has to read. -/
def State.heldChunks (s : State) (a n : Nat) : List Nat :=
  let cap := match s.bsn.capture with | some c => c.left | none => []
  if s.mirror.c == [] && cap == [] then [] else (chunksOf a n).filter (fun c => s.mirror.c.contains c || cap.contains c)

/-- A write of Lantern, the engine or the host waits until the chunks it touches have been read: they are read first, at once. -/
def State.readFirst (s : State) (a n : Nat) : State :=
  (s.heldChunks a n).foldl (fun s c =>
    let s := if s.mirror.c.contains c then s.copyClosing c else s
    if (match s.bsn.capture with | some k => k.left.contains c | none => false) then s.captureChunk c else s) s

/-- Store bytes to device memory; mirrored chunks become dirty (R375). -/
def State.store (s : State) (a : Nat) (bs : List Byte) : State :=
  let s := s.readFirst a bs.length
  { s with mem := Memory.writeBytes s.mem a bs, mirror := s.mirror.mark a bs.length }

/-- Store a little-endian number. -/
def State.storeLE (s : State) (a n v : Nat) : State := s.store a (bytesLE n v)

/-! Completion queues (R465 to R469). -/

/-- An untouched queue pair. -/
def emptyQueue : Queue :=
  { sqTail := 0, cqHead := 0, phase := 1, hold := [], waiting := [], unsignalled := 0, oldest := 0, evLost := 0 }

def State.queue (s : State) (q : Nat) : Queue := (tfind s.hcp.queues q).getD emptyQueue

def State.setQueue (s : State) (q : Nat) (x : Queue) : State := { s with hcp := { s.hcp with queues := tinsert s.hcp.queues q x } }

/-- Entries of the submission queue (R500: 0 acts as 1, above 12 as 12). -/
def State.sqSize (s : State) (q : Nat) : Nat := 2 ^ (max 1 (min 12 (s.fld (R.HCP_Q_CFG q) F.HCP_Q_CFG_SQ_LOG2)))

/-- Entries of the completion queue (0 acts as 1, above 16 as 16). -/
def State.cqSize (s : State) (q : Nat) : Nat := 2 ^ (max 1 (min 16 (s.fld (R.HCP_Q_CFG q) F.HCP_Q_CFG_CQ_LOG2)))

def State.sqOn (s : State) (q : Nat) : Bool := s.fld (R.HCP_Q_CFG q) F.HCP_Q_CFG_SQ_EN == 1
def State.cqOn (s : State) (q : Nat) : Bool := s.fld (R.HCP_Q_CFG q) F.HCP_Q_CFG_CQ_EN == 1
def State.cqTail (s : State) (q : Nat) : Nat := s.fld (R.HCP_Q_STATUS q) F.HCP_Q_STATUS_CQ_TAIL

/-- The completion queue is full when the next tail is the host's head (R467). -/
def State.cqFull (s : State) (q : Nat) : Bool := (s.cqTail q + 1) % s.cqSize q == (s.queue q).cqHead

/-- Send an MSI-X vector. -/
def State.vector (s : State) (v : Nat) : State := { s with hcp := { s.hcp with msix := s.hcp.msix ++ [v] } }

/-- Send a queue's vector and start counting anew; a vector of 64 or more sends none (R469, R500). -/
def State.signalQueue (s : State) (q : Nat) : State :=
  let v := s.fld (R.HCP_Q_CFG q) F.HCP_Q_CFG_VECTOR
  let s := s.setQueue q { s.queue q with unsignalled := 0 }
  if v < 64 then s.vector v else s

/-- The coalescing count is reached, or the coalescing time is 0 (R469, R500: COUNT 0 acts as 1). -/
def State.signalDue (s : State) (q n : Nat) : Bool :=
  Nat.ble (max 1 (s.fld (R.HCP_Q_CFG q) F.HCP_Q_CFG_CO_COUNT)) n || s.fld (R.HCP_Q_CFG q) F.HCP_Q_CFG_CO_TIME == 0

/-- Write an entry at the tail: its 32 bytes with the phase bit, the tail's advance and wrap, and the coalescing count (R468, R469). -/
def State.cqWrite (s : State) (q : Nat) (e : CqEntry) : State :=
  let x := s.queue q
  let t := s.cqTail q
  let base := s.fld (R.HCP_CQ_BASE q) F.HCP_CQ_BASE_BASE * 4096
  let s := { s with hcp := { s.hcp with cqOut := s.hcp.cqOut ++ [(q, e)] } }
  let s := if s.fld (R.HCP_CQ_BASE q) F.HCP_CQ_BASE_LOC = 1 then s.storeLE (base + 32 * t) 32 (entryWord e x.phase) else s
  let t' := (t + 1) % s.cqSize q
  let s := s.setFld (R.HCP_Q_STATUS q) F.HCP_Q_STATUS_CQ_TAIL t'
  let n := x.unsignalled + 1
  let s := s.setQueue q { x with phase := if t' = 0 then 1 - x.phase else x.phase, unsignalled := n, oldest := if x.unsignalled = 0 then s.now else x.oldest }
  if s.signalDue q n then s.signalQueue q else s

/-- Put an entry on a completion queue of this module: written when there is room and nothing waits, else into the hold of 1,024; an event that finds the
hold full is lost, a reply waits in Lantern; a disabled queue discards (R466, R468). -/
def State.cqPost (s : State) (q : Nat) (e : CqEntry) : State :=
  let x := s.queue q
  if s.cqOn q = false then s.bump (if e.disp = .event then R.HCP_EVT_LOST else R.HCP_CQ_DROP)
  else if x.hold = [] ∧ x.waiting = [] ∧ s.cqFull q = false then s.cqWrite q e
  else if x.hold.length < 1024 ∧ x.waiting = [] then s.setQueue q { x with hold := x.hold ++ [e] }
  else if e.disp = .event then (s.bump R.HCP_EVT_LOST).setQueue q { x with evLost := x.evLost + 1 }
  else s.setQueue q { x with waiting := x.waiting ++ [e] }

/-- Move waiting entries into a completion queue while it has room: the hold first, then what waits in Lantern. -/
def drainQueue : Nat → Nat → State → State
  | 0, _, s => s
  | fuel + 1, q, s =>
    let x := s.queue q
    if s.cqFull q then s else
    match x.hold, x.waiting with
    | e :: r, w => drainQueue fuel q ((s.setQueue q { x with hold := r ++ w.take 1, waiting := w.drop 1 }).cqWrite q e)
    | [], e :: w => drainQueue fuel q ((s.setQueue q { x with waiting := w }).cqWrite q e)
    | [], [] => s

/-- The entry of an event (R475): SOURCE and the source's count in place of SEQ, the full time, DATA0 to 3. -/
def State.eventEntry (s : State) (ev : Event) (kind idx eseq d0 d1 d2 d3 : Nat) : CqEntry :=
  { status := eventCode ev, disp := .event, final := false, module := s.moduleId, seq := kind % 16 * 0x1000 + idx % 0x1000 + eseq % 0x10000 * 0x10000,
    tAccept := s.now % 2 ^ 32, tDone := s.now / 2 ^ 32 % 2 ^ 32, r0 := d0 % 2 ^ 32, r1 := d1 % 2 ^ 32, r2 := d2 % 2 ^ 32, r3 := d3 % 2 ^ 32 }

/-- Post an entry to a queue at a position: this module's own, or over the links as an HCP_REPLY (R368). -/
def State.replyTo (s : State) (pos q fwd : Nat) (e : CqEntry) : State :=
  if pos = s.position then s.cqPost q e else s.sendL (s.lpkt 1 pos fwd (.hcpReply e q))

/-- The queue that receives module-wide events: HCP_CTL.EVT_CQ of the module whose H0 serves the host (R476). -/
def State.postModule (s : State) (e : CqEntry) : State :=
  if s.servesHost then
    (let q := s.fld R.HCP_CTL F.HCP_CTL_EVT_CQ
     if s.fld R.HCP_CTL F.HCP_CTL_EVT_EN = 0 ∨ s.cqOn q = false then s.bump R.HCP_EVT_LOST else s.cqPost q e)
  else
    -- DESIGN CHOICE (notes/assumptions/3.md): an event of a module without the host travels as an HCP_REPLY with queue 64.
    s.sendL (s.lpkt 1 (((List.range 64).find? (fun p => decide (p ≠ s.position) && s.logicalOf p == some 0)).getD 0) 0xFFFF (.hcpReply e 64))

/-- Post an event. `dst` is the position, queue and tracker index of the command it is tied to; none for a module-wide event (R476). -/
def State.event (s : State) (ev : Event) (kind idx : Nat) (d : List Nat) (dst : Option (Nat × Nat × Nat) := none) : State :=
  let src := kind * 0x1000 + idx
  let n := tget (fun _ => 0) s.hcp.eseq src
  let e := s.eventEntry ev kind idx n (d.getD 0 0) (d.getD 1 0) (d.getD 2 0) (d.getD 3 0)
  let s := { s with hcp := { s.hcp with eseq := tset (fun _ => 0) s.hcp.eseq src ((n + 1) % 0x10000) } }
  match dst with
  | some (pos, q, fwd) => s.replyTo pos q fwd e
  | none => s.postModule e

/-- When a queue has room again and events were lost, one EVENTS_LOST is posted (R468). -/
def State.postLost (s : State) (q : Nat) : State :=
  let x := s.queue q
  if x.evLost = 0 ∨ x.hold.length ≥ 1024 ∨ x.waiting ≠ [] then s
  else (s.setQueue q { x with evLost := 0 }).event .eventsLost 1 q [x.evLost] (some (s.position, q, 0))

/-! The journal (R511 to R515). -/

/-- A state that is final (R514): neither ACCEPTED nor STARTED. -/
def finalState (st : Nat) : Bool := st != 1 && st != 2

/-- Write one entry at the next DSEQ. -/
def State.jPut (s : State) (f : Nat → JEntry) : State :=
  let d := (s.reg R.JNL_NEWEST).toNat + 1
  let e := f d
  let s := { s with jnl := { s.jnl with ring := tinsert s.jnl.ring (d % 65536) e, changed := s.jnl.changed.filter (· ≠ d % 65536) ++ [d % 65536],
                                        highWater := if d % 65536 = 0 then d + 2 ^ 17 else s.jnl.highWater } }
  ((s.setReg R.JNL_NEWEST (BitVec.ofNat 64 d)).setReg R.JNL_OLDEST (BitVec.ofNat 64 (max 1 (d - 65535)))).bump R.JNL_ENTRIES

/-- Before a ring index whose entry is not final is overwritten, the entry is carried (R515). At most 320 commands are open at once. -/
def carryOpen : Nat → State → State
  | 0, s => s
  | fuel + 1, s =>
    match tfind s.jnl.ring (((s.reg R.JNL_NEWEST).toNat + 1) % 65536) with
    | some e => if finalState e.state then s else carryOpen fuel ((s.jPut (fun d => { e with dseq := d, kind := 1 })).bump R.JNL_CARRIES)
    | none => s

/-- Append a journal entry, carrying first what it would overwrite. -/
def State.jAppend (s : State) (f : Nat → JEntry) : State := (carryOpen 321 s).jPut f

/-- Change the newest entry of a command: itself or its newest carry (R515); a final entry never changes. -/
def State.jUpdate (s : State) (dseq : Nat) (f : JEntry → JEntry) : State :=
  let best := s.jnl.ring.foldl (fun (b : Option (Nat × JEntry)) p =>
    if p.2.orig = dseq then (match b with | some q => if q.2.dseq < p.2.dseq then some p else b | none => some p) else b) none
  match best with
  | some (i, e) =>
    if finalState e.state then s
    else { s with jnl := { s.jnl with ring := tinsert s.jnl.ring i (f e), changed := s.jnl.changed.filter (· ≠ i) ++ [i] } }
  | none => s

/-! Commands and their entries (R474, R514). -/

/-- An admitted command by its DSEQ. -/
def State.cmd? (s : State) (id : Nat) : Option Cmd := s.hcp.cmds.find? (fun c => c.dseq == id)

/-- Change an admitted command. -/
def State.setCmd (s : State) (c : Cmd) : State :=
  { s with hcp := { s.hcp with cmds := s.hcp.cmds.map (fun x => if x.dseq = c.dseq then c else x) } }

/-- Slots held: reserved and shared (R477). -/
def State.slots (s : State) (k : Nat) : Nat := (s.hcp.cmds.filter (fun c => c.slot == k)).length

/-- HCP_ADMIT_STAT shows the slots and tracker entries held (R499). -/
def State.showSlots (s : State) : State :=
  let c0 := (s.hcp.cmds.filter (fun c => c.cls == 0 && c.slot != 0)).length
  s.setFlds R.HCP_ADMIT_STAT [(F.HCP_ADMIT_STAT_C0, c0), (F.HCP_ADMIT_STAT_SHARED, s.slots 2), (F.HCP_ADMIT_STAT_FWD, s.hcp.tracker.length)]

/-- A freed slot goes to the earliest class-0 command that holds none (R665); then the slots are shown. -/
def State.regrant (s : State) : State :=
  match s.hcp.cmds.find? (fun c => c.slot == 0) with
  | some c =>
    if s.slots 1 < 32 then (s.setCmd { c with slot := 1 }).showSlots
    else if s.slots 2 < 224 then (s.setCmd { c with slot := 2 }).showSlots else s.showSlots
  | none => s.showSlots

/-- The entry of a command: its own SEQ and short times. -/
def State.cmdEntry (s : State) (c : Cmd) (st : Status) (d : Disp) (final : Bool) (r : List Nat) : CqEntry :=
  { status := statusCode st, disp := d, final := final, module := s.moduleId, seq := c.seq, tAccept := c.tAccept % 2 ^ 32,
    tDone := if final then s.stamp else 0, r0 := r.getD 0 0 % 2 ^ 32, r1 := r.getD 1 0 % 2 ^ 32, r2 := r.getD 2 0 % 2 ^ 32, r3 := r.getD 3 0 % 2 ^ 32 }

/-- Post an entry for a command. -/
def State.postCmd (s : State) (c : Cmd) (e : CqEntry) : State := s.replyTo c.pos c.queue c.fwd e

/-- The command has started: the journal first (R514), then an admission entry STARTED unless it had one already or is QUIET (R474). -/
def State.startCmd (s : State) (c : Cmd) (r0 : Nat) : State :=
  let s := s.jUpdate c.dseq (fun e => { e with state := 2, status := statusCode .started, tStart := s.now })
  let s := s.setCmd { c with attempted := true, delayed := none, started := true, tStart := s.now }
  if c.attempted ∨ c.quiet then s else s.postCmd c (s.cmdEntry c .started .served false [r0])

/-- The command ends: journal, then its final entry SERVED, and its slot is freed (R474, R477, R514). -/
def State.finishCmd (s : State) (id : Nat) (st : Status) (r : List Nat) : State :=
  match s.cmd? id with
  | none => s
  | some c =>
    let s := s.jUpdate id (fun e => { e with state := if statusFails st then 4 else 3, status := statusCode st, r0 := r.getD 0 0 % 2 ^ 32,
                                             tStart := if c.started then e.tStart else s.now, tDone := s.now })
    let s := s.postCmd c (s.cmdEntry c st .served true r)
    ({ s with hcp := { s.hcp with cmds := s.hcp.cmds.filter (fun x => x.dseq ≠ id) } }).regrant

/-- A delayed command that never started ends REFUSED with WAIT_EXPIRED or JOB_STOPPED (R480). -/
def State.expireCmd (s : State) (id : Nat) (st : Status) : State :=
  match s.cmd? id with
  | none => s
  | some c =>
    let s := s.jUpdate id (fun e => { e with state := 5, status := statusCode st, tDone := s.now })
    let s := s.postCmd c (s.cmdEntry c st .refused true [])
    ({ s with hcp := { s.hcp with cmds := s.hcp.cmds.filter (fun x => x.dseq ≠ id) }, graphs := terase s.graphs id }).regrant

/-- The command cannot start: DELAYED with its reason and the estimate of the wait, once (R474, R480). -/
def State.delayCmd (s : State) (c : Cmd) (why : Status) (est : Nat) : State :=
  if c.attempted then s.setCmd { c with delayed := some why }
  else
    let s := s.jUpdate c.dseq (fun e => { e with status := statusCode why })
    let s := (s.setCmd { c with attempted := true, delayed := some why }).bump R.HCP_DELAYED
    s.postCmd c (s.cmdEntry c why .delayed false [est])

/-- The destination of a command's own events (R476). -/
def State.cmdDest (s : State) (id : Nat) : Option (Nat × Nat × Nat) := (s.cmd? id).map (fun c => (c.pos, c.queue, c.fwd))

/-! Error records (R547 to R552). -/

/-- The job's state: 0 NONE, 1 RUNNING, 2 STOPPING, 3 STOPPED (R553, R572). -/
def State.jobState (s : State) : Nat := s.fld R.ERR_JOB F.ERR_JOB_STATE

/-- The next stop identifier: position and a per-module count, never 0 (R554). -/
def State.newStopId (s : State) : Nat × State :=
  let c := (s.errs.stopCount + 1) % 1024
  let c := if s.position = 0 ∧ c = 0 then 1 else c
  (s.position * 1024 + c, { s with errs := { s.errs with stopCount := c } })

/-- Write a record, then the event and the vector of its class (R549, R551). The ring index is RSEQ mod 1,024. -/
def State.putRecord (s : State) (cause cls skind sindex rung d0 d1 dseq : Nat) (flags stopId : Nat) : State :=
  let n := (s.reg R.ERR_NEWEST).toNat + 1
  let i := n % 1024
  let lost := match tfind s.errs.ring i with | some o => !o.read | none => false
  let rec_ : ErrRec := { rseq := n, time := s.now, cls := cls, skind := skind, sindex := sindex, cause := cause, rung := rung, flags := flags,
                         jobId := if s.jobState = 0 then 0 else (s.reg R.ERR_JOB_ID).toNat, detail0 := d0 % 2 ^ 64, detail1 := d1 % 2 ^ 64, dseq := dseq, stopId := stopId, read := false }
  let s := { s with errs := { s.errs with ring := tinsert s.errs.ring i rec_, lost := if lost then s.errs.lost + 1 else s.errs.lost,
                                          store := if cls ≥ 3 then (s.errs.store ++ [rec_]).drop (s.errs.store.length + 1 - 16) else s.errs.store } }
  let s := (s.setReg R.ERR_NEWEST (BitVec.ofNat 64 n)).bump (R.ERR_CLASS cls)
  let s := s.setFld R.ERR_STATUS F.ERR_STATUS_UNREAD (s.errs.ring.filter (fun p => !p.2.read)).length
  let s := if lost then s.setFld R.ERR_STATUS F.ERR_STATUS_LOST 1 else s
  let s := if cls ≥ min 4 (s.fld R.ERR_CTL F.ERR_CTL_EVT_CLASS) then s.event .errorRecord skind sindex [cls, i] else s
  if cls ≥ 2 then s.vector 66 else s

/-- A class 0 or 1 record, which stops nothing. -/
def State.note (s : State) (cause cls skind sindex d0 d1 : Nat) (dseq : Nat := 0) : State :=
  s.putRecord cause cls skind sindex (if cls = 1 then 2 else 0) d0 d1 dseq 0 0

/-- A fresh index into the free values (Config): the model's own counter. -/
def State.fresh (s : State) : Nat × State := (s.freeCtr, { s with freeCtr := s.freeCtr + 1 })

/-! Rung 2 (R560). -/

/-- A function is at rung 2 from now on. -/
def State.pushReinit (s : State) (kind index : Nat) (cmd : Option Nat) (was : Nat := 0) : State :=
  { s with reinit := s.reinit ++ [({ kind := kind, index := index, since := s.now, cmd := cmd, was := was } : Reinit)] }

end Sys2Proof.Machine
end

