-- ==== Sys2Proof/Machine/Canal.lean ====
section
/-!
DEFINITION. The canals and the aqueduct: routes and fork masks (R330 to R334), injection, forwarding by deficit round robin, credits (R325 to R328).
-/
namespace Sys2Proof.Machine

/-! The mesh. -/

def domeOf (site : Nat) : Nat := site / 512
def rowOf (site : Nat) : Nat := site % 512 / 32
def colOf (site : Nat) : Nat := site % 32
def siteAt (d r c : Nat) : Nat := d * 512 + r * 32 + c

/-- The reach of a site within its dome (R21). -/
def reachOf (site : Nat) : Nat := 2 * (rowOf site / 4) + colOf site / 16

/-- The router of a site has failed its built-in self-test (R332, R344). -/
def State.routerFailed (s : State) (site : Nat) : Bool := (s.reg (R.CNL_FAILED (domeOf site) (site % 512 / 64))).getLsbD (site % 64)

/-- The neighbour through a port (R317): 1 N, 2 E, 3 S, 4 W. -/
def neighbour (site port : Nat) : Option Nat :=
  let d := domeOf site
  let r := rowOf site
  let c := colOf site
  match port with
  | 1 => if r = 0 then none else some (siteAt d (r - 1) c)
  | 2 => if c = 31 then none else some (siteAt d r (c + 1))
  | 3 => if r = 15 then none else some (siteAt d (r + 1) c)
  | 4 => if c = 0 then none else some (siteAt d r (c - 1))
  | _ => none

def oppositePort : Nat → Nat
  | 1 => 3 | 3 => 1 | 2 => 4 | 4 => 2 | p => p

/-- A neighbour that exists and has not failed. -/
def State.liveNeighbour (s : State) (site port : Nat) : Bool :=
  match neighbour site port with | some n => !s.routerFailed n | none => false

/-- The side step round a failed router: the first live of two ports, the one nearer the destination first. -/
def State.sideStep (s : State) (site a b : Nat) : Nat := if s.liveNeighbour site a then a else if s.liveNeighbour site b then b else 0xF

/-- The output toward the router of a site of the same dome (R331): along the row to its column, then along the column, with the detours of R331 round
failed routers. 0 once there, 0xF where no live way is left. -/
def State.routeToSite (s : State) (site dst : Nat) : Nat :=
  let r := rowOf site
  let c := colOf site
  let tr := rowOf dst
  let tc := colOf dst
  let h := if tc > c then 2 else 4
  let v := if tr > r then 3 else 1
  if c ≠ tc then
    let next := siteAt (domeOf site) r (if tc > c then c + 1 else c - 1)
    if s.routerFailed next then s.sideStep site v (oppositePort v)
    else if colOf next = tc ∧ r ≠ tr ∧ s.routerFailed (siteAt (domeOf site) (if tr > r then r + 1 else r - 1) tc) then s.sideStep site v h
    else h
  else if r ≠ tr then
    (if s.liveNeighbour site v then v else s.sideStep site 4 2)
  else 0

/-- Where agents attach (R318): the site and the port, chosen among several ports by the source's number. -/
def agentPort (agent src : Nat) : Nat × Nat :=
  match agent with
  | 0 => (siteAt 0 0 0, 4)
  | 1 => (siteAt 0 1 0, 4)
  | 2 => (siteAt 0 (2 + src % 2) 0, 4)
  | 3 => (siteAt 1 (2 + src % 2) 31, 2)
  | 4 => (siteAt 0 0 (8 + src % 16), 1)
  | _ => (siteAt 1 0 (8 + src % 16), 1)

/-- The edge-row router of a reach in the crossbar column nearest a column: 16 × (q mod 2) + (c mod 16), passing over failed ones (R330). -/
def State.edgeRouter (s : State) (dome q c : Nat) : Nat :=
  let row := 4 * (q / 2) + 3
  let at_ := fun k => siteAt dome row (16 * (q % 2) + k)
  let want := c % 16
  let order := (List.range 16).flatMap (fun d => (if d ≤ want then [want - d] else []) ++ (if d ≠ 0 ∧ want + d < 16 then [want + d] else []))
  match order.find? (fun k => !s.routerFailed (at_ k)) with
  | some k => at_ k
  | none => at_ want

/-- The column a packet started from: its source site's, or its agent port's. -/
def CPkt.srcCol (p : CPkt) : Nat := if p.skind = 0 then colOf p.src else colOf (agentPort p.src p.dest).1

/-- The site of its dome that a canal packet heads for, and the port it then takes: its site, the crossbar port of its slice or of the crossing (R330), its agent's port. -/
def State.target (s : State) (dome : Nat) (p : CPkt) : Nat × Nat :=
  let cross := fun q => (s.edgeRouter dome q p.srcCol, 5)
  match p.dkind with
  | 0 => if domeOf p.dest = dome then (p.dest, 0) else cross (reachOf p.dest)
  | 1 =>
    let q := p.dest / 16
    if q / 8 = dome then (siteAt dome (4 * (q % 8 / 2) + 3) (16 * (q % 2) + p.dest % 16), 5) else cross (q % 8)
  | 2 =>
    match tfind s.groups (p.dest) with
    | some g =>
      let own := if dome = 0 then g.rootW else g.rootE
      let oth := if dome = 0 then g.rootE else g.rootW
      (match own, oth with
       | some r, _ => (r, 0)
       | none, some r => cross (reachOf r)
       | none, none => (0, 0xF))
    | none => (0, 0xF)
  | _ =>
    let (site, port) := agentPort p.dest p.src
    if domeOf site = dome then (site, port) else cross (reachOf site)

/-- The output of a packet at a router. -/
def State.outPort (s : State) (site : Nat) (p : CPkt) : Nat :=
  let (t, port) := s.target (domeOf site) p
  if port = 0xF then 0xF else if site = t then port else s.routeToSite site t

/-- Entry of a router's route table (R330): what CNL_RT_DATA shows. -/
def State.routeEntry (s : State) (site entry : Nat) : Nat :=
  let d := domeOf site
  if s.fld (R.CNL_STATUS d) F.CNL_STATUS_TABLES_VALID = 0 then 0
  else if entry < 512 then (if s.routerFailed (d * 512 + entry) then 0xF else s.routeToSite site (d * 512 + entry))
  else if entry < 520 then (let t := s.edgeRouter d (entry - 512) (colOf site); if t = site then 5 else s.routeToSite site t)
  else if entry < 536 then
    (let a := entry - 520
     if a ≤ 5 ∧ domeOf (agentPort a site).1 = d then (let (t, p) := agentPort a site; if t = site then p else s.routeToSite site t) else 0xF)
  else 0

/-! Fork masks (R333). -/

/-- The ports taken at `site` on the way from a root to a member: none where the way does not pass here. -/
def State.treePort (s : State) : Nat → Nat → Nat → Nat → Option Nat
  | 0, _, _, _ => none
  | fuel + 1, cur, dst, site =>
    let p := s.routeToSite cur dst
    if cur = site then some p
    else if p = 0 ∨ p = 0xF then none
    else match neighbour cur p with | some n => s.treePort fuel n dst site | none => none

/-- The fork mask of a group at a router, as the ports of its branches; at a root, port 6 crosses the aqueduct where the packet did not come from there (R334). 0xF stands
for a branch that has no live way on (R337). -/
def State.forkPorts (s : State) (g : CGroup) (site : Nat) (fromAq : Bool) : List Nat :=
  let root := if domeOf site = 0 then g.rootW else g.rootE
  let oth := if domeOf site = 0 then g.rootE else g.rootW
  match root with
  | none => []
  | some r =>
    let ms := g.members.filter (fun m => domeOf m == domeOf site)
    let ps := ms.filterMap (fun m => s.treePort 64 r m site)
    (List.range 6).filter (fun p => ps.contains p) ++ (if ps.contains 0xF then [0xF] else []) ++ (if site = r ∧ oth ≠ none ∧ !fromAq then [6] else [])

/-! Queues and credits (R325, R326). -/

/-- The number of a queue: router inputs 0 L, 1 N, 2 E, 3 S, 4 W and 5 X, 6 the crossbar's input for the aqueduct, 8 + p the lock that output p of the router delivers into. -/
def qKey (site port tc : Nat) : Nat := (site * 16 + port) * 4 + tc

def State.inq (s : State) (site port tc : Nat) : List CPkt := (tfind s.canal.inq (qKey site port tc)).getD []

def State.setInq (s : State) (site port tc : Nat) (l : List CPkt) : State :=
  { s with canal := { s.canal with inq := if l = [] then terase s.canal.inq (qKey site port tc) else tinsert s.canal.inq (qKey site port tc) l } }

/-- Depth of a router input or spire lock queue, in flits (R326). -/
def qDepth (tc : Nat) : Nat := if tc = 0 then 4 else 18

/-- Flits of a packet: its head and its data. -/
def CPkt.flits (p : CPkt) : Nat := 1 + p.len

/-- Where a packet goes that leaves an output: a router's input, the aqueduct, or delivery. -/
inductive Hop where
  | router (site port : Nat)
  | aqueduct (site : Nat)
  | deliver (site port : Nat)
  | nowhere
  deriving DecidableEq, Repr

def State.hopOf (_s : State) (site port : Nat) (p : CPkt) : Hop :=
  match port with
  | 0 => .deliver site 0
  | 5 => if p.dkind = 1 ∧ p.dest / 16 / 8 = domeOf site then .deliver site 5 else .aqueduct site
  | 6 => .aqueduct site
  | 0xF => .nowhere
  | q => match neighbour site q with | some n => .router n (oppositePort q) | none => .deliver site q

/-- The queue an output's credit counts: the next router's input, the crossbar's input before the aqueduct, or the lock of the spire, slice or agent that the output delivers into (R29, R326). -/
def hopKey (h : Hop) (tc : Nat) : Nat :=
  match h with
  | .router n q => qKey n q tc
  | .deliver n q => qKey n (8 + q) tc
  | .aqueduct n => qKey n 6 tc
  | .nowhere => 0

/-- There is credit for the whole packet (R325, R326). -/
def State.hasCredit (s : State) (h : Hop) (p : CPkt) : Bool :=
  match h with
  | .nowhere => false
  | _ => Nat.ble (tget (fun _ => 0) s.canal.used (hopKey h p.tc) + p.flits) (qDepth p.tc)

def State.outbox (s : State) (k : Nat) : List CPkt := (tfind s.canal.outbox k).getD []

def State.setOutbox (s : State) (k : Nat) (l : List CPkt) : State :=
  { s with canal := { s.canal with outbox := if l = [] then terase s.canal.outbox k else tinsert s.canal.outbox k l } }

/-- A packet enters the lock of a site or an agent's port, whose flits its writer counts; they are injected flits (R345), but for a slice's response and a router's own MC_ACK, which use neither lock nor
agent port. -/
def State.enterLock (s : State) (site port : Nat) (p : CPkt) : State :=
  let k := qKey site port p.tc
  let s := { s with canal := { s.canal with used := tset (fun _ => 0) s.canal.used k (tget (fun _ => 0) s.canal.used k + p.flits) } }
  let s := s.setInq site port p.tc (s.inq site port p.tc ++ [p])
  if port = 5 ∨ p.typ = 8 then s else s.bump (R.CNL_FLITS_TC (domeOf site) p.tc) p.flits

/-- A lock has room for a packet of its class (R326). -/
def State.lockRoom (s : State) (site port : Nat) (p : CPkt) : Bool :=
  Nat.ble (tget (fun _ => 0) s.canal.used (qKey site port p.tc) + p.flits) (qDepth p.tc)

/-- Put a packet into the lock at a router's port; a full lock holds its writer, whose later packets of the class wait behind it (R29). -/
def State.injectAt (s : State) (site port : Nat) (p : CPkt) : State :=
  let k := qKey site port p.tc
  if s.outbox k = [] ∧ s.lockRoom site port p = true then s.enterLock site port p else s.setOutbox k (s.outbox k ++ [p])

/-- Put a packet on its way into the network at a site's own lock or an agent's port. -/
def State.inject (s : State) (p : CPkt) : State :=
  let (site, port) := if p.skind = 0 then (p.src, 0) else agentPort p.src p.dest
  s.injectAt site port p

/-- Held writers of a lock go on while it has room, in order. -/
def enterHeld (site port tc : Nat) : Nat → State → State
  | 0, s => s
  | fuel + 1, s =>
    match s.outbox (qKey site port tc) with
    | [] => s
    | p :: r => if s.lockRoom site port p then enterHeld site port tc fuel ((s.setOutbox (qKey site port tc) r).enterLock site port p) else s

/-- Hand a packet over: into the next queue, the aqueduct's lock, or to its site, slice or agent. -/
def State.handOver (s : State) (h : Hop) (p : CPkt) : State :=
  let k := hopKey h p.tc
  let s := { s with canal := { s.canal with used := tset (fun _ => 0) s.canal.used k (tget (fun _ => 0) s.canal.used k + p.flits) } }
  match h with
  | .router n q => s.setInq n q p.tc (s.inq n q p.tc ++ [p])
  | .aqueduct n => { s with aq := { s.aq with held := s.aq.held ++ [(n, p)] } }
  | .deliver n _ => { s with canal := { s.canal with arrived := s.canal.arrived ++ [if p.dkind = 2 then { p with dkind := 0, dest := n } else p] } }
  | .nowhere => s

/-- A buffer's flits are freed: their credit is on its way back (R325). -/
def State.freeFlits (s : State) (site port tc n : Nat) : State :=
  let k := qKey site port tc
  { s with canal := { s.canal with freed := tset (fun _ => 0) s.canal.freed k (tget (fun _ => 0) s.canal.freed k + n) } }

/-- The router and the output by which a delivered packet reached its site, slice or agent. -/
def State.exitOf (s : State) (p : CPkt) : Nat × Nat :=
  if p.dkind = 0 then (p.dest, 0) else if p.dkind = 3 then agentPort p.dest p.src else ((s.target (p.dest / 16 / 8) p).1, 5)

/-- A delivered packet is taken up by what it reached: it leaves the list and frees its lock. -/
def State.takeArrived (s : State) (p : CPkt) : State :=
  if s.canal.arrived.contains p then
    let s := { s with canal := { s.canal with arrived := s.canal.arrived.erase p, before := s.canal.before.erase p } }
    s.freeFlits (s.exitOf p).1 (8 + (s.exitOf p).2) p.tc p.flits
  else s

/-- Two packets of one class from one source to one destination, which arrive in the order sent (R329). -/
def CPkt.sameFlow (p q : CPkt) : Bool := p.skind == q.skind && p.src == q.src && p.dkind == q.dkind && p.dest == q.dest && p.tc == q.tc

/-- A delivered packet is the oldest of its flow: no stage reorders the packets of one source (R226, R243, R248, R250). -/
def State.inTurn (s : State) (p : CPkt) : Bool := s.canal.arrived.find? (fun q => q.sameFlow p) == some p

/-! Arbitration (R327). -/

/-- What an output may send of a class: the head of an input queue routed to it, by input port, or a branch of a fork (input 8 + its place). -/
def State.offers (s : State) (site out tc : Nat) : List (Nat × CPkt) :=
  let heads := (List.range 6).filterMap (fun i =>
    match s.inq site i tc with
    | p :: _ =>
      let forked := p.dkind == 2 && (p.tree || (s.target (domeOf site) p).1 == site)
      if forked then none else if s.outPort site p = out then some (i, p) else none
    | [] => none)
  let fs := (tfind s.canal.forks site).getD []
  let branches := (List.range fs.length).filterMap (fun j =>
    match fs[j]? with
    | some f => if f.pkt.tc = tc ∧ f.toSend.contains out then some (8 + j, { f.pkt with tree := true }) else none
    | none => none)
  heads ++ branches

/-- Round robin over the inputs: the first offer at or after the turn. -/
def pickTurn (turn : Nat) (os : List (Nat × CPkt)) : Option (Nat × CPkt) :=
  match os.find? (fun o => Nat.ble turn o.1) with | some o => some o | none => os.head?

/-- The quantum of a class at an output, as CNL_ARB_QUANTUM was when its round began: values below 9 act as 9, for TC0 0 as 1 (R342). -/
def State.quantum (s : State) (site out tc : Nat) : Nat :=
  let w := BitVec.ofNat 64 (tget (fun _ => 0) s.canal.quanta (site * 8 + out))
  match tc with
  | 0 => max 1 (fget w F.CNL_ARB_QUANTUM_Q0)
  | 1 => max 9 (fget w F.CNL_ARB_QUANTUM_Q1)
  | 2 => max 9 (fget w F.CNL_ARB_QUANTUM_Q2)
  | _ => max 9 (fget w F.CNL_ARB_QUANTUM_Q3)

/-- A round of an output begins, with the turn of TC0: CNL_ARB_QUANTUM as it now is holds for the round (R342). -/
def State.beginRound (s : State) (site out : Nat) : State :=
  if tget (fun _ => 0) s.canal.serving (site * 8 + out) = 0 then
    { s with canal := { s.canal with quanta := tset (fun _ => 0) s.canal.quanta (site * 8 + out) (s.reg (R.CNL_ARB_QUANTUM (domeOf site))).toNat } }
  else s

def State.setDeficit (s : State) (site out tc v : Nat) : State :=
  { s with canal := { s.canal with deficit := tset (fun _ => 0) s.canal.deficit (qKey site out tc) v } }

/-- Serve an output once: pass over classes that cannot send, giving each its quantum as its turn begins, until one sends a packet; at most one whole
round is passed over. `serving` holds twice the class plus one once its quantum is given. -/
def serveOutput : Nat → Nat → Nat → State → State × Option (Nat × CPkt)
  | 0, _, _, s => (s, none)
  | fuel + 1, site, out, s =>
    let key := site * 8 + out
    let s := s.beginRound site out
    let v := tget (fun _ => 0) s.canal.serving key
    let tc := v / 2 % 4
    let pass := fun (s : State) => serveOutput fuel site out { s with canal := { s.canal with serving := tset (fun _ => 0) s.canal.serving key ((tc + 1) % 4 * 2) } }
    match pickTurn (tget (fun _ => 0) s.canal.turn (qKey site out tc)) (s.offers site out tc) with
    | none => pass (s.setDeficit site out tc 0)
    | some (i, p) =>
      let d := tget (fun _ => 0) s.canal.deficit (qKey site out tc) + (if v % 2 = 0 then s.quantum site out tc else 0)
      let s := { s with canal := { s.canal with serving := tset (fun _ => 0) s.canal.serving key (tc * 2 + 1) } }
      let h := s.hopOf site out p
      if s.hasCredit h p = false then pass ((s.setDeficit site out tc d).bump (R.CNL_CREDIT_WAIT (domeOf site)))
      else if Nat.ble p.flits d = false then pass (s.setDeficit site out tc d)
      else
        let s := { s with canal := { s.canal with turn := tset (fun _ => 0) s.canal.turn (qKey site out tc) (i + 1) } }
        ((s.setDeficit site out tc (d - p.flits)).handOver h p, some (i, p))

/-- After a send: the head leaves its input, or the branch leaves its fork, whose input entry is freed with the last branch (R335). -/
def State.afterSend (s : State) (site out i : Nat) (p : CPkt) : State :=
  let s := if i < 8 then (s.setInq site i p.tc ((s.inq site i p.tc).drop 1)).freeFlits site i p.tc p.flits
    else
      let fs := (tfind s.canal.forks site).getD []
      let fs' := fs.mapIdx (fun j f => if j = i - 8 then { f with toSend := f.toSend.erase out } else f)
      let s := { s with canal := { s.canal with forks := tinsert s.canal.forks site fs' } }
      match fs'[i - 8]? with
      | some f => if f.toSend = [] then (s.setInq site f.inPort f.pkt.tc ((s.inq site f.inPort f.pkt.tc).drop 1)).freeFlits site f.inPort f.pkt.tc f.pkt.flits else s
      | none => s
  if s.offers site out p.tc = [] then s.setDeficit site out p.tc 0 else s

/-! The aqueduct's channels (R326, R339, R340). -/

/-- The source of a packet: a site, or an agent from 1,024 up (R340). -/
def CPkt.srcKey (p : CPkt) : Nat := if p.skind = 0 then p.src else 1024 + p.src

/-- The root of a group in a dome. -/
def CGroup.root (g : CGroup) (d : Nat) : Option Nat := if d = 0 then g.rootW else g.rootE

/-- The site of a dome a crossing packet heads for. -/
def State.farSite (s : State) (dome : Nat) (p : CPkt) : Nat :=
  match p.dkind with
  | 0 => p.dest
  | 1 => (s.target dome p).1
  | 2 => match tfind s.groups p.dest with | some g => (g.root dome).getD 0 | none => 0
  | _ => (agentPort p.dest p.src).1

/-- The channel of a crossing: 8q + (S mod 8) (R340). -/
def State.aqChannel (s : State) (dome : Nat) (p : CPkt) : Nat := 8 * reachOf (s.farSite dome p) + p.srcKey % 8

/-- Where a packet leaves the far crossbar: to its slice, or through the canal port of its column (R330). -/
def State.aqExit (s : State) (dome : Nat) (p : CPkt) : Hop :=
  let t := s.farSite dome p
  if p.dkind = 1 then .deliver t 5 else .router (s.edgeRouter dome (reachOf t) (colOf t)) 5

def State.recv (s : State) (k : Nat) : List CPkt := (tfind s.aq.recv k).getD []
def State.setRecv (s : State) (k : Nat) (l : List CPkt) : State := { s with aq := { s.aq with recv := if l = [] then terase s.aq.recv k else tinsert s.aq.recv k l } }
def State.aqReplays (s : State) (k : Nat) : List CPkt := (tfind s.aq.replay k).getD []
def State.setReplays (s : State) (k : Nat) (l : List CPkt) : State := { s with aq := { s.aq with replay := if l = [] then terase s.aq.replay k else tinsert s.aq.replay k l } }

/-- Reserved flits of a class at a channel's receiver (R326). -/
def aqReserve (tc : Nat) : Nat := if tc = 0 then 8 else 9

/-- A channel's receiver has room for a packet: in the reserve of its class, and beyond that in the 125 flits that all classes share (R326). -/
def State.recvRoom (s : State) (k : Nat) (p : CPkt) : Bool :=
  let inUse := fun tc => (((s.recv k ++ s.aqReplays k).filter (fun q => q.tc == tc)).map CPkt.flits).sum + (if p.tc = tc then p.flits else 0)
  Nat.ble ((List.range 4).map (fun tc => inUse tc - aqReserve tc)).sum 125

/-- What a receiver holds leaves the far crossbar, each class in order, as far as there is credit; its room is free then (DESIGN CHOICE, notes/assumptions/134.md). -/
def drainRecv (k : Nat) : Nat → State → State
  | 0, s => s
  | fuel + 1, s =>
    let q := s.recv k
    match q.find? (fun p => q.find? (fun x => x.tc == p.tc) == some p && s.hasCredit (s.aqExit (1 - k / 64) p) p) with
    | some p => drainRecv k fuel ((s.setRecv k (q.erase p)).handOver (s.aqExit (1 - k / 64) p) p)
    | none => s

def State.drainChannel (s : State) (k : Nat) : State := drainRecv k (s.recv k).length s

/-- CREDIT_RETURN (R29, R325): the credits of freed buffer entries reach the sender; a writer that the lock held goes on, and so does what an aqueduct receiver holds. -/
def execCreditReturn (site port tc : Nat) (s : State) : Host.Outcome State Fault Refusal :=
  let k := qKey site port tc
  let n := tget (fun _ => 0) s.canal.freed k
  let s := { s with canal := { s.canal with used := tset (fun _ => 0) s.canal.used k (tget (fun _ => 0) s.canal.used k - n), freed := terase s.canal.freed k } }
  let s := enterHeld site port tc (s.outbox k).length s
  .next (s.aq.recv.foldl (fun s x => s.drainChannel x.1) s)

end Sys2Proof.Machine
end

