-- ==== Sys2Proof/Machine/Numbers.lean ====
section
/-!
DEFINITION. Element formats and exact arithmetic (R38 to R60): a decoded value is a NaN, an infinity or a signed integer times a power
of two; operations are exact and a result is rounded once.
-/
namespace Sys2Proof.Machine

/-- A decoded value: `fin neg m e` is (−1)^neg · m · 2^e. -/
inductive Num where
  | nan
  | inf (neg : Bool)
  | fin (neg : Bool) (m : Nat) (e : Int)
  deriving DecidableEq, Repr

def Num.isNan : Num → Bool
  | .nan => true
  | _ => false

def Num.isInf : Num → Bool
  | .inf _ => true
  | _ => false

def Num.isZero : Num → Bool
  | .fin _ m _ => m == 0
  | _ => false

def Num.negate : Num → Num
  | .nan => .nan
  | .inf n => .inf (!n)
  | .fin n m e => .fin (!n) m e

/-- The special codes of a format: IEEE infinities and NaNs, the one NaN code of E4M3, none, or two's complement (INT8). -/
inductive Special where
  | ieee | e4m3 | finite | int8
  deriving DecidableEq, Repr

/-- An element format (R38): width, mantissa bits, exponent bias, special codes. -/
structure Fmt where
  width : Nat
  mant : Nat
  bias : Int
  special : Special
  deriving DecidableEq, Repr

def fmtFp32 : Fmt := ⟨32, 23, 127, .ieee⟩
def fmtBf16 : Fmt := ⟨16, 7, 127, .ieee⟩
def fmtFp16 : Fmt := ⟨16, 10, 15, .ieee⟩
def fmtE4m3 : Fmt := ⟨8, 3, 7, .e4m3⟩
def fmtE5m2 : Fmt := ⟨8, 2, 15, .ieee⟩
def fmtE2m3 : Fmt := ⟨6, 3, 1, .finite⟩
def fmtE3m2 : Fmt := ⟨6, 2, 3, .finite⟩
def fmtE2m1 : Fmt := ⟨4, 1, 1, .finite⟩
def fmtInt8 : Fmt := ⟨8, 6, 0, .int8⟩

/-- The magnitude code of infinity: exponent all ones, mantissa 0. -/
def Fmt.infMag (f : Fmt) : Nat := 2 ^ (f.width - 1) - 2 ^ f.mant

/-- The magnitude code of the largest finite value. -/
def Fmt.maxMag (f : Fmt) : Nat :=
  match f.special with
  | .ieee => f.infMag - 1
  | .e4m3 => 2 ^ (f.width - 1) - 2
  | .finite => 2 ^ (f.width - 1) - 1
  | .int8 => 127

/-- The canonical NaN (R47); a format without NaN writes +0 (R59). -/
def Fmt.nanCode (f : Fmt) : Nat :=
  match f.special with
  | .ieee => f.infMag + 2 ^ (f.mant - 1)
  | .e4m3 => 0x7F
  | .finite => 0
  | .int8 => 0

/-- A code from its sign and magnitude: the sign bit, or two's complement for INT8. -/
def Fmt.pack (f : Fmt) (neg : Bool) (mag : Nat) : Nat :=
  match f.special with
  | .int8 => if neg then (256 - mag) % 256 else mag
  | _ => if neg then 2 ^ (f.width - 1) + mag else mag

/-- The exponent of the least significant bit of a subnormal. -/
def Fmt.minLsb (f : Fmt) : Int := match f.special with | .int8 => -6 | _ => 1 - f.bias - f.mant

/-- The value of a code (R38, R39, R48). -/
def Fmt.decode (f : Fmt) (code : Nat) : Num :=
  match f.special with
  | .int8 => if code % 256 < 128 then .fin false (code % 256) (-6) else .fin true (256 - code % 256) (-6)
  | _ =>
    let neg := code / 2 ^ (f.width - 1) % 2 == 1
    let mag := code % 2 ^ (f.width - 1)
    let ex := mag / 2 ^ f.mant
    let man := mag % 2 ^ f.mant
    if f.special == .ieee && Nat.ble f.infMag mag then (if mag = f.infMag then .inf neg else .nan)
    else if f.special == .e4m3 && mag == 0x7F then .nan
    else if ex = 0 then .fin neg man f.minLsb
    else .fin neg (2 ^ f.mant + man) (f.minLsb + ex - 1)

/-- m · 2^e counted in units of 2^q: the whole part, and the fraction as `num / 2^sh`. -/
def scaleTo (m : Nat) (e q : Int) : Nat × Nat × Nat :=
  if q ≤ e then (m * 2 ^ (e - q).toNat, 0, 0)
  else
    let sh := (q - e).toNat
    (m / 2 ^ sh, m % 2 ^ sh, sh)

/-- One unit is added: to nearest, ties to even (R54), or stochastically by the top 16 discarded bits (R56). -/
def roundsUp (r : Option Nat) (whole num sh : Nat) : Bool :=
  match r with
  | none => Nat.blt (2 ^ sh) (2 * num) || (2 * num == 2 ^ sh && num != 0 && whole % 2 == 1)
  | some r =>
    let f := if 16 ≤ sh then num / 2 ^ (sh - 16) else num * 2 ^ (16 - sh)
    Nat.ble 65536 (f + r) && num != 0

/-- The magnitude code of m · 2^e rounded to a format; it may exceed the largest finite one. -/
def Fmt.roundMag (f : Fmt) (r : Option Nat) (m : Nat) (e : Int) : Nat :=
  if m = 0 then 0 else
  match f.special with
  | .int8 =>
    let (w, n, sh) := scaleTo m e (-6)
    if roundsUp r w n sh then w + 1 else w
  | _ =>
    let top : Int := e + m.log2
    let q := max (top - f.mant) f.minLsb
    let (w, n, sh) := scaleTo m e q
    let w := if roundsUp r w n sh then w + 1 else w
    (q - f.minLsb).toNat * 2 ^ f.mant + w

/-! Exact operations (R47). An exact zero sum is −0 only from two negative zeros. -/

/-- The signed integer of a finite value in units of 2^q, q not above its exponent. -/
def signedAt (neg : Bool) (m : Nat) (e q : Int) : Int :=
  let v : Int := (m * 2 ^ (e - q).toNat : Nat)
  if neg then -v else v

def Num.add : Num → Num → Num
  | .nan, _ => .nan
  | _, .nan => .nan
  | .inf a, .inf b => if a = b then .inf a else .nan
  | .inf a, _ => .inf a
  | _, .inf b => .inf b
  | .fin na ma ea, .fin nb mb eb =>
    let q := min ea eb
    let v := signedAt na ma ea q + signedAt nb mb eb q
    if v = 0 then .fin (na && nb && ma == 0 && mb == 0) 0 0 else .fin (v < 0) v.natAbs q

def Num.mul : Num → Num → Num
  | .nan, _ => .nan
  | _, .nan => .nan
  | .inf a, .inf b => .inf (a != b)
  | .inf a, .fin nb mb _ => if mb = 0 then .nan else .inf (a != nb)
  | .fin na ma _, .inf b => if ma = 0 then .nan else .inf (na != b)
  | .fin na ma ea, .fin nb mb eb => .fin (na != nb) (ma * mb) (ea + eb)

/-- Times a power of two, exactly. -/
def Num.scale (x : Num) (k : Int) : Num :=
  match x with
  | .fin n m e => .fin n m (e + k)
  | x => x

/-- A quotient with more bits than any format keeps, its last bit standing for what lies below. -/
def Num.div : Num → Num → Num
  | .nan, _ => .nan
  | _, .nan => .nan
  | .inf _, .inf _ => .nan
  | .inf a, .fin nb _ _ => .inf (a != nb)
  | .fin na _ _, .inf b => .fin (na != b) 0 0
  | .fin na ma ea, .fin nb mb eb =>
    if mb = 0 then (if ma = 0 then .nan else .inf (na != nb))
    else
      let n := ma * 2 ^ 64
      .fin (na != nb) (2 * (n / mb) + (if n % mb = 0 then 0 else 1)) (ea - eb - 65)

/-- The integer square root, from its highest possible bit down. -/
def isqrtFrom (n : Nat) : Nat → Nat → Nat
  | 0, r => r
  | k + 1, r => isqrtFrom n k (if (r + 2 ^ k) * (r + 2 ^ k) ≤ n then r + 2 ^ k else r)

def isqrt (n : Nat) : Nat := isqrtFrom n (n.log2 / 2 + 1) 0

/-- A square root with more bits than any format keeps, its last bit standing for what lies below. -/
def Num.sqrt : Num → Num
  | .nan => .nan
  | .inf n => if n then .nan else .inf false
  | .fin n m e =>
    if m = 0 then .fin n 0 0
    else if n then .nan
    else
      let odd := e % 2 != 0
      let v := m * 2 ^ (if odd then 129 else 128)
      let r := isqrt v
      .fin false (2 * r + (if r * r = v then 0 else 1)) ((if odd then e - 1 else e) / 2 - 65)

/-- Order of two values, −0 below +0 (R202); a NaN is not below anything. -/
def Num.key : Num → Num → Int
  | .fin na ma ea, .fin nb mb eb => signedAt na ma ea (min ea eb) - signedAt nb mb eb (min ea eb)
  | .inf a, .inf b => if a = b then 0 else if a then -1 else 1
  | .inf a, _ => if a then -1 else 1
  | _, .inf b => if b then 1 else -1
  | _, _ => 0

/-- x < y as numbers. -/
def Num.lt (x y : Num) : Bool := !x.isNan && !y.isNan && decide (Num.key x y < 0)

/-- x = y as numbers: the two zeros are equal. -/
def Num.eqv (x y : Num) : Bool := !x.isNan && !y.isNan && decide (Num.key x y = 0)

def Num.negative : Num → Bool
  | .nan => false
  | .inf n => n
  | .fin n _ _ => n

/-- Which of two values is the larger, −0 below +0: the first unless the second is above it (R202). -/
def Num.firstLarger (x y : Num) : Bool := Num.lt y x || (Num.eqv x y && (!x.negative || y.negative))

/-! Format tags (R44, R46). -/

/-- The class of an operand tag (R46). -/
inductive TagClass where
  | wide | half | byte | nibble
  deriving DecidableEq, Repr

/-- Elements, format, scale plane and class of a tag; none for metadata and the reserved tags. -/
def tagInfo (t : Nat) : Option (Fmt × Nat × Bool × TagClass) :=
  match t with
  | 0x0 => some (fmtFp32, 32, false, .wide)
  | 0x1 => some (fmtBf16, 64, false, .half)
  | 0x2 => some (fmtFp16, 64, false, .half)
  | 0x3 => some (fmtE4m3, 128, false, .byte)
  | 0x4 => some (fmtE5m2, 128, false, .byte)
  | 0x5 => some (fmtE4m3, 128, true, .byte)
  | 0x6 => some (fmtE5m2, 128, true, .byte)
  | 0x7 => some (fmtE2m3, 128, true, .byte)
  | 0x8 => some (fmtE3m2, 128, true, .byte)
  | 0x9 => some (fmtInt8, 128, true, .byte)
  | 0xA => some (fmtE2m1, 256, false, .nibble)
  | 0xB => some (fmtE2m1, 256, true, .nibble)
  | _ => none

def tagScaled (t : Nat) : Bool := match tagInfo t with | some (_, _, s, _) => s | none => false

/-- Element `i` of a packed row of `w`-bit elements, bit 0 the row's lowest (R43). -/
def elemAt (row w i : Nat) : Nat := row / 2 ^ (w * i) % 2 ^ w

/-- Pack elements, the first lowest (R43). -/
def packElems (w : Nat) (xs : List Nat) : Nat := xs.foldr (fun x v => x % 2 ^ w + 2 ^ w * v) 0

/-- The scale of an E8M0 code: the exponent, none for the NaN code 0xFF (R38, R40). -/
def scaleExp (code : Nat) : Option Int := if code = 0xFF then none else some ((code : Int) - 127)

end Sys2Proof.Machine
end

