-- ==== Sys2Proof/Machine/Flags.lean ====
section
/-!
DEFINITION. The number-status flags of R61: which flag each operand and each result sets.
-/
namespace Sys2Proof.Machine

/-- The bits of SPR_NUMSTAT (R65). -/
def flInvalid : Nat := 1
def flNanIn : Nat := 2
def flOverflow : Nat := 4
def flSaturate : Nat := 8
def flInfIn : Nat := 16
def flUnderflow : Nat := 32
def flMxSpecial : Nat := 64

/-- A flag word if a condition holds. -/
def flagIf (c : Bool) (f : Nat) : Nat := if c then f else 0

/-- The flags an operand sets by being a NaN or an infinity. -/
def operandFlags : Num → Nat
  | .nan => flNanIn
  | .inf _ => flInfIn
  | .fin _ _ _ => 0

/-- The flags of several operands. -/
def operandsFlags (xs : List Num) : Nat := xs.foldl (fun f x => f ||| operandFlags x) 0

/-- INVALID: a NaN from operands none of which is a NaN. -/
def invalidFlag (xs : List Num) (r : Num) : Nat := flagIf (r.isNan && !xs.any Num.isNan) flInvalid

/-- A result rounded to a format (R54, R59, R61): its code and the flags that rounding sets. `sat` says that the target clamps to its largest
finite magnitude; `r` is the 16-bit draw of stochastic rounding, none for nearest even. -/
def roundTo (f : Fmt) (sat : Bool) (r : Option Nat) (x : Num) : Nat × Nat :=
  match x with
  | .nan => (f.nanCode, 0)
  | .inf neg => if sat then (f.pack neg f.maxMag, flSaturate) else (f.pack neg f.infMag, 0)
  | .fin neg m e =>
    let v := f.roundMag r m e
    if f.maxMag < v then (if sat then (f.pack neg f.maxMag, flSaturate) else (f.pack neg f.infMag, flOverflow))
    else (f.pack neg v, flagIf (m != 0 && v == 0) flUnderflow)

/-- An arithmetic result in a format that keeps infinities: operand flags, INVALID, and those of rounding. -/
def arithTo (f : Fmt) (xs : List Num) (r : Num) : Nat × Nat :=
  let (c, g) := roundTo f false none r
  (c, operandsFlags xs ||| invalidFlag xs r ||| g)

end Sys2Proof.Machine
end

