-- ==== Sys2Proof/Machine/SpireCore.lean ====
section
/-!
DEFINITION. Access to a spire: storage, tags, clock, landing writes, the words of sync cells, the fault record, the landing and abandoning of work.
-/
namespace Sys2Proof.Machine

/-! The spire. -/

def emptyEng : Eng := { st := .idle, free := 0, qpos := 0, pc := 0, queue := 0, wait := none, since := 0, resume := none, out := 0, loop := none }

def emptyRegs : Regs := { tiles := [], scales := [], accs := [], vec := [], kmasks := [], descs := [], scal := [], rng := [] }

def emptyMover : MoverSt := { ops := [], abandoned := [], l1 := [], gen := 0, pre := [], streams := [], xlt := [], faultAt := none, migr := false, nextTag := 0, fullSince := none }

/-- An array context at power-on: QUIET at duty 0. -/
def emptyHold : HoldCtx := { st := 0, duty := 0, since := 0, gapFrom := 0, sparseFrom := none, work := [] }

/-- A spire after power-on: everything zero (R116, R175, R199, R214, R663). -/
def emptySpire : Spire :=
  { cycle := 0, cyc0 := 0, ns0 := 0, seq := 0, mat := emptyEng, vec := emptyEng, mov := emptyEng, sqr := emptyEng, ctxFree0 := 0, ctxFree1 := 0, matNext := 0,
    regs := emptyRegs, landings := [], reads := [], upds := [], holds := [], mover := emptyMover, hold0 := emptyHold, hold1 := emptyHold,
    inject := none }

def State.spire (s : State) (site : Nat) : Spire := (tfind s.spires site).getD emptySpire

def State.setSpire (s : State) (site : Nat) (p : Spire) : State := { s with spires := tinsert s.spires site p }

def State.modSpire (s : State) (site : Nat) (f : Spire → Spire) : State := s.setSpire site (f (s.spire site))

/-- An engine of a spire. -/
def Spire.eng (p : Spire) : Engine → Eng
  | .matrix => p.mat
  | .vector => p.vec
  | .mover => p.mov
  | .seq => p.sqr

def Spire.setEng (p : Spire) (e : Engine) (x : Eng) : Spire :=
  match e with
  | .matrix => { p with mat := x }
  | .vector => { p with vec := x }
  | .mover => { p with mov := x }
  | .seq => { p with sqr := x }

/-- The number of an engine in the fault record (R111); the array's context 0. -/
def engNo : Engine → Nat
  | .matrix => 0
  | .vector => 2
  | .mover => 3
  | .seq => 4

/-- The four engines in the order of R105. -/
def allEngines : List Engine := [.matrix, .vector, .mover, .seq]

/-! Site registers: state, clock. -/

/-- SPR_STATUS.STATE: 0 IDLE, 1 RUN, 2 PAUSING, 3 PAUSED, 4 FAULTED, 5 ENDING, 6 FENCED (R110). -/
def State.spState (s : State) (site : Nat) : Nat := s.fld (R.SPR_STATUS site) F.SPR_STATUS_STATE

def State.setSpState (s : State) (site v : Nat) : State := s.setFld (R.SPR_STATUS site) F.SPR_STATUS_STATE v

/-- A site that is enabled and has a logical number (R107). -/
def State.enabled (s : State) (site : Nat) : Bool := s.fld (R.SPR_CAP site) F.SPR_CAP_ENABLED == 1

/-- Logical number of a site (R108). -/
def State.logical (s : State) (site : Nat) : Nat := s.fld (R.SPR_MAP site) F.SPR_MAP_LOGICAL

/-- The site of a logical spire number. -/
def State.siteOf (s : State) (l : Nat) : Option Nat := (List.range 1024).find? (fun i => s.enabled i && s.logical i == l)

/-- The step of a site's spire clock: 6.25 k MHz (R584). -/
def State.clockStep (s : State) (site : Nat) : Nat :=
  max 64 (if domeOf site = 0 then s.fld R.CLK_SPIRE_W F.CLK_SPIRE_W_CUR else s.fld R.CLK_SPIRE_E F.CLK_SPIRE_E_CUR)

/-- The device time, in ns, of a cycle of a spire: a cycle at step k lasts 160 / k ns. -/
def State.nsOf (s : State) (site cycle : Nat) : Nat :=
  let p := s.spire site
  p.ns0 + (cycle - p.cyc0) * 160 / s.clockStep site

/-- The first cycle of a spire at or after a time. -/
def State.cycleAt (s : State) (site ns : Nat) : Nat :=
  let p := s.spire site
  p.cyc0 + ((ns - p.ns0) * s.clockStep site + 159) / 160

def State.hazEn (s : State) (site : Nat) : Bool := s.fld (R.SPR_CTL site) F.SPR_CTL_HAZ_EN == 1

/-- Set NUMSTAT flags (R61). -/
def State.orFlags (s : State) (site f : Nat) : State :=
  if f = 0 then s else s.setReg (R.SPR_NUMSTAT site) (s.reg (R.SPR_NUMSTAT site) ||| BitVec.ofNat 64 f)

/-! Storage. -/

def Spire.tileRow (p : Spire) (t r : Nat) : BitVec 1024 := tget (fun _ => 0) p.regs.tiles (32 * t + r)
def Spire.scaleRow (p : Spire) (t r : Nat) : Word := tget (fun _ => 0) p.regs.scales (32 * t + r)
def Spire.accRow (p : Spire) (a r : Nat) : BitVec 2048 := tget (fun _ => 0) p.regs.accs (32 * a + r)
def Spire.vreg (p : Spire) (v : Nat) : BitVec 2048 := tget (fun _ => 0) p.regs.vec v
def Spire.desc (p : Spire) (d : Nat) : BitVec 2048 := tget (fun _ => 0) p.regs.descs d
def Spire.scalar (p : Spire) (x : Nat) : Word := tget (fun _ => 0) p.regs.scal x

/-- K0 reads all ones (R198). -/
def Spire.mask (p : Spire) (k : Nat) : Word := if k = 0 then BitVec.allOnes 64 else tget (fun _ => 0) p.regs.kmasks k

/-- The tag of an operand tile as landed (R146). -/
def State.tagOp (s : State) (site t : Nat) : Nat := (s.reg (R.SPR_TAG_OP site)).toNat / 16 ^ t % 16

/-- The tag of an accumulator tile as landed (R147). -/
def State.tagAcc (s : State) (site a : Nat) : Nat := (s.reg (R.SPR_TAG_ACC site)).toNat / 16 ^ a % 16

/-- The first byte of a site's local-store window (R193). -/
def lsBase (site : Nat) : Nat := 0xF00000000000 + site * 0x80000

/-- Bytes of a local store: 384 KiB. -/
def lsSize : Nat := 0x60000

/-- Masked write of a word. -/
def merge {w : Nat} (old data mask : BitVec w) : BitVec w := (old &&& ~~~mask) ||| (data &&& mask)

/-- Change a spire's storage. -/
def State.modRegs (s : State) (site : Nat) (f : Regs → Regs) : State := s.modSpire site (fun p => { p with regs := f p.regs })

/-- Apply one landing write (R77, R118). Writes to K0 are discarded (R198). -/
def State.applyWr (s : State) (site : Nat) (w : SWr) : State :=
  let p := s.spire site
  match w with
  | .tile t r d m => s.modRegs site (fun x => { x with tiles := tset (fun _ => 0) x.tiles (32 * t + r) (merge (p.tileRow t r) d m) })
  | .scale t r d m => s.modRegs site (fun x => { x with scales := tset (fun _ => 0) x.scales (32 * t + r) (merge (p.scaleRow t r) d m) })
  | .acc a r d m => s.modRegs site (fun x => { x with accs := tset (fun _ => 0) x.accs (32 * a + r) (merge (p.accRow a r) d m) })
  | .vec v d m => s.modRegs site (fun x => { x with vec := tset (fun _ => 0) x.vec v (merge (p.vreg v) d m) })
  | .kmask k d m => if k = 0 then s else s.modRegs site (fun x => { x with kmasks := tset (fun _ => 0) x.kmasks k (merge (p.mask k) d m) })
  | .desc d v m => s.modRegs site (fun x => { x with descs := tset (fun _ => 0) x.descs d (merge (p.desc d) v m) })
  | .scal i v => s.modRegs site (fun x => { x with scal := tset (fun _ => 0) x.scal i v })
  | .tagOp t g => s.setReg (R.SPR_TAG_OP site) (merge (s.reg (R.SPR_TAG_OP site)) (BitVec.ofNat 64 (g * 16 ^ t)) (BitVec.ofNat 64 (15 * 16 ^ t)))
  | .tagAcc a g => s.setReg (R.SPR_TAG_ACC site) (merge (s.reg (R.SPR_TAG_ACC site)) (BitVec.ofNat 64 (g * 16 ^ a)) (BitVec.ofNat 64 (15 * 16 ^ a)))
  | .ls off bs => s.store (lsBase site + off) bs

/-- Apply several writes in order. -/
def State.applyWrs (s : State) (site : Nat) (ws : List SWr) : State := ws.foldl (fun s w => s.applyWr site w) s

/-! Sync cell words (R215). -/

def cCount : Fld := ⟨15, 0⟩
def cPend : Fld := ⟨17, 16⟩
def cRgrp : Fld := ⟨25, 20⟩
def cKind : Fld := ⟨28, 26⟩
def cGen : Fld := ⟨30, 29⟩
def cFull : Fld := ⟨31, 31⟩
def cHeld : Fld := ⟨47, 32⟩
def cHcell : Fld := ⟨47, 42⟩
def cTarget : Fld := ⟨63, 48⟩
def cHspire : Fld := ⟨57, 48⟩
def cHmod : Fld := ⟨63, 58⟩

/-- The word of a cell. -/
def State.cell (s : State) (site c : Nat) : Word := s.reg (R.SPR_SYNC_CELL site c)

/-- A cell word with its reserved bits zero and the FULL bit that a barrier cell reads (R215): 0 for BHOME, PEND = 0 for BPART. -/
def cellForm (w : Word) : Word :=
  match fget w cKind with
  | 0 => w &&& 0x9C00FFFF#64
  | 1 => w &&& 0xFFFFFFFF7FF0FFFF#64
  | 2 => fset (w &&& 0xFFFFFC007C030000#64) cFull (if fget w cPend = 0 then 1 else 0)
  | _ => w

def State.setCell (s : State) (site c : Nat) (w : Word) : State := s.setReg (R.SPR_SYNC_CELL site c) (cellForm w)

/-- The cell exists and is of a kind (R216). -/
def State.cellIs (s : State) (site c kind : Nat) : Bool := Nat.blt c 48 && fget (s.cell site c) cKind == kind

/-! Work that is dropped or abandoned. -/

/-- Local mover forms not landed and global operations outstanding, from an order of issue on, are abandoned (R102, R103, R125): loads keep their destination, stores what they have written; each landing
signal waits for the reissue (R104). They join, in order of issue, what was abandoned before and what was still to be reissued. The number abandoned now is returned. -/
def State.abandonMover (s : State) (site fromSeq : Nat) : Nat × State :=
  let p := s.spire site
  let ls := p.landings.filter (fun l => l.mov != none && Nat.ble fromSeq l.seq)
  let as_ := p.mover.ops.filter (fun a => Nat.ble fromSeq a.seq)
  let all := (ls.filterMap (fun l => l.mov.map (fun m => (l.seq, m)))) ++ as_.map (fun a => (a.seq, a.op))
  let sorted := sortOn Prod.fst (p.mover.abandoned ++ p.mover.redo ++ all)
  (all.length, s.modSpire site (fun p => { p with
    landings := p.landings.filter (fun l => !(l.mov != none && Nat.ble fromSeq l.seq)),
    reads := p.reads.filter (fun r => !(all.map Prod.fst).contains r.seq),
    mover := { p.mover with ops := p.mover.ops.filter (fun a => !Nat.ble fromSeq a.seq), abandoned := sorted, redo := [] } }))

/-- Cycles held are counted: gates of loops in SPR_LOOP_GATE, fences nowhere, others in SPR_SYNC_WAIT (R187, R239). -/
def State.countHeld (s : State) (site : Nat) (w : Wait) (n : Nat) : State :=
  match w with
  | .gate _ _ => s.bump (R.SPR_LOOP_GATE site) n
  | .fence _ _ _ _ => s
  | _ => s.bump (R.SPR_SYNC_WAIT site) n

/-- Stop an engine that has not ended: it issues no more, its loop is left where it stands, and the cycles it was held are counted. One that was issuing may still issue in this cycle (R75, R105). -/
def State.stopEng (s : State) (site : Nat) (e : Engine) : State :=
  let p := s.spire site
  let x := p.eng e
  if x.st = .ended ∨ x.st = .idle then s
  else
    let s := match x.st, x.wait with | .wait, some w => s.countHeld site w (p.cycle - x.since) | _, _ => s
    s.modSpire site (fun p => p.setEng e { x with st := .stop, wait := none, resume := none, last := x.st == .run })

/-- Stop every engine: no engine issues again, and no hold of an engine goes on. -/
def State.stopEngines (s : State) (site : Nat) : State :=
  (allEngines.foldl (fun s e => s.stopEng site e) s).modSpire site (fun p => { p with holds := p.holds.filter (fun h => h.eng == 5) })

/-- Write the fault record (R105, R111, R112, R196): the first fault fills it; of several in one cycle the engine that comes first in the order of R105 does; a further one sets MORE. -/
def State.faultRecord (s : State) (site cls eng row qpos addr : Nat) (restartable : Bool) (iter : Option Nat) : State :=
  let p := s.spire site
  let held := s.fld (R.SPR_FAULT site) F.SPR_FAULT_VALID == 1
  if held && !(p.recAt == some p.cycle && Nat.blt eng (s.fld (R.SPR_FAULT site) F.SPR_FAULT_ENGINE)) then s.setFld (R.SPR_FAULT site) F.SPR_FAULT_MORE 1
  else
    let w := [(F.SPR_FAULT_VALID, 1), (F.SPR_FAULT_MORE, if held then 1 else 0), (F.SPR_FAULT_RESTARTABLE, if restartable then 1 else 0), (F.SPR_FAULT_CLASS, cls), (F.SPR_FAULT_ENGINE, eng),
              (F.SPR_FAULT_ROW, row), (F.SPR_FAULT_QPOS, qpos)].foldl (fun v f => fset v f.1 f.2) (0 : Word)
    let s := (s.setReg (R.SPR_FAULT site) w).modSpire site (fun p => { p with recAt := some p.cycle })
    let s := s.setReg (R.SPR_FAULT_ADDR site) (BitVec.ofNat 64 (if cls = 2 || cls = 3 then addr % 2 ^ 48 else 0))
    match iter with
    | some n => (s.setReg (R.SPR_LOOP_FAULT site) 0).setFlds (R.SPR_LOOP_FAULT site) [(F.SPR_LOOP_FAULT_VALID, 1), (F.SPR_LOOP_FAULT_ITER, n)]
    | none => s.setReg (R.SPR_LOOP_FAULT site) 0

/-- The running task of a site. -/
def State.taskAt (s : State) (site : Nat) : Option Task := (s.tasks.find? (fun (p : Nat × Task) => p.2.gang.contains site)).map Prod.snd

def State.setTask (s : State) (t : Task) : State := { s with tasks := tinsert s.tasks t.handle t }

/-- The task of a site takes note of its first fault: class, engine, logical spire (R487). -/
def State.taskFault (s : State) (site cls eng : Nat) : State :=
  match s.taskAt site with
  | some t => if t.fault = none then s.setTask { t with fault := some (cls, eng, s.logical site) } else s
  | none => s

/-- The spire is running or pausing a task, so that a fault stops it. -/
def State.spLive (s : State) (site : Nat) : Bool := (let v := s.spState site; v == 1 || v == 2 || v == 3 || v == 5)

/-- The ABORT or TIMEOUT of a spire by Lantern (R98, R102): its mover operations are abandoned, its engines stop, the fault is recorded with ENGINE 7. -/
def State.abortSpire (s : State) (site cls : Nat) : State :=
  if s.spLive site = false then s else
  let (n, s) := s.abandonMover site 0
  let s := if s.spState site = 1 then s.bump (R.SPR_RESTART_COUNT site) n else s
  let s := s.faultRecord site cls 7 0 0 0 false none
  ((s.stopEngines site).setSpState site 4).taskFault site cls 7

end Sys2Proof.Machine
end

