-- ==== Sys2Proof/Machine/Convert.lean ====
section
/-!
DEFINITION. Conversions between formats (R43, R55 to R60, R203): narrowing, MX encoding, widening, and the rows a mover store forms (R119, R126, R128).
-/
namespace Sys2Proof.Machine

/-- The format of an element name. -/
def elemFmt : Elem → Fmt
  | .fp32 => fmtFp32
  | .bf16 => fmtBf16
  | .fp16 => fmtFp16
  | .e4m3 => fmtE4m3
  | .e5m2 => fmtE5m2
  | .e2m3 => fmtE2m3
  | .e3m2 => fmtE3m2
  | .e2m1 => fmtE2m1
  | .int8 => fmtInt8
  | .mxE4m3 => fmtE4m3
  | .mxE5m2 => fmtE5m2
  | .mxE2m3 => fmtE2m3
  | .mxE3m2 => fmtE3m2
  | .mxE2m1 => fmtE2m1
  | .mxInt8 => fmtInt8

/-- The name of an MX format (R44): its elements with their block scales. -/
def Elem.isMx : Elem → Bool
  | .mxE4m3 | .mxE5m2 | .mxE2m3 | .mxE3m2 | .mxE2m1 | .mxInt8 => true
  | _ => false

/-- A format that R44 knows only with a scale plane: an MX format, or its elements E2M3, E3M2 and INT8. -/
def Elem.scaled (e : Elem) : Bool := e.isMx || e == .e2m3 || e == .e3m2 || e == .int8

/-- A target that clamps to its largest finite value (R59): all but BF16, FP16, FP32 and, with E5M2_INF, E5M2. -/
def saturates (f : Fmt) (e5m2Inf : Bool) : Bool :=
  if f.width = 8 ∧ f.special = .ieee then !e5m2Inf else f.special != .ieee

/-- A narrowing conversion (R59): the code and the flags of R61. -/
def narrow (f : Fmt) (e5m2Inf : Bool) (r : Option Nat) (x : Num) : Nat × Nat :=
  let (c, g) := roundTo f (saturates f e5m2Inf) r x
  (c, operandFlags x ||| g)

/-- The largest normal exponent of an MX element format (R60). -/
def mxEmax (f : Fmt) : Int :=
  match f.special with
  | .int8 => 0
  | .e4m3 => 8
  | .ieee => 15
  | .finite => if f.mant = 3 then 2 else if f.mant = 2 then 4 else 2

/-- ⌊log2⌋ of the largest magnitude, none if every value is zero. -/
def amaxLog (xs : List Num) : Option Int :=
  xs.foldl (fun a x => match x with
    | .fin _ m e => if m = 0 then a else (match a with | some b => some (max b (e + m.log2)) | none => some (e + m.log2))
    | _ => a) none

/-- One MX block (R60): its scale, its codes and its flags; `rs` the draws of stochastic rounding. -/
def mxEncode (f : Fmt) (e5m2Inf : Bool) (rs : List (Option Nat)) (xs : List Num) : Nat × List Nat × Nat :=
  if xs.any (fun x => x.isNan || x.isInf) then (0xFF, xs.map (fun _ => 0), operandsFlags xs ||| flMxSpecial)
  else match amaxLog xs with
    | none => (0, xs.map (fun _ => 0), 0)
    | some l =>
      let s := (max 0 (min 254 (l - mxEmax f + 127))).toNat
      let cs := (xs.zip rs).map (fun (p : Num × Option Nat) => narrow f e5m2Inf p.2 (p.1.scale (127 - (s : Int))))
      (s, cs.map Prod.fst, cs.foldl (fun g c => g ||| c.2) 0)

/-- A widened element (R203): its FP32 code and flags; the scale of an MX source multiplies it. -/
def widen (f : Fmt) (scale : Option Nat) (code : Nat) : Nat × Nat :=
  match scale with
  | none => let x := f.decode code; ((roundTo fmtFp32 false none x).1, operandFlags x)
  | some sc =>
    match scaleExp sc with
    | none => (fmtFp32.nanCode, flNanIn)
    | some k =>
      let x := (f.decode code).scale k
      let (c, g) := roundTo fmtFp32 false none x
      (c, operandFlags x ||| g)

/-- E5M2_INF as it stands (R64). -/
def State.e5m2Inf (s : State) (site : Nat) : Bool := s.fld (R.SPR_NUMCTL site) F.SPR_NUMCTL_E5M2_INF == 1

/-- The 64 FP32 codes of a row. -/
def fp32Codes (row : BitVec 2048) : List Nat := (List.range 64).map (fun i => elemAt row.toNat 32 i)

/-- The bytes of accumulator row `r` converted to a tag (R128): the packed elements, the two scale bytes of an MX target, the flags. -/
def accRowBytes (row : BitVec 2048) (tag : Nat) (inf : Bool) : List Byte × List Byte × Nat :=
  match tagInfo tag with
  | none => ([], [], 0)
  | some (f, _, scaled, cls) =>
    if cls = .wide then (bytesLE 256 row.toNat, [], 0)
    else
      let xs := (fp32Codes row).map fmtFp32.decode
      if scaled then
        let (s0, c0, g0) := mxEncode f inf (List.replicate 32 none) (xs.take 32)
        let (s1, c1, g1) := mxEncode f inf (List.replicate 32 none) (xs.drop 32)
        (bytesLE (8 * f.width) (packElems f.width (c0 ++ c1)), bytesLE 1 s0 ++ bytesLE 1 s1, g0 ||| g1)
      else
        let cs := xs.map (narrow f inf none)
        (bytesLE (8 * f.width) (packElems f.width (cs.map Prod.fst)), [], cs.foldl (fun g c => g ||| c.2) 0)

/-- Scale bytes per row of an MX tag in memory (R126). -/
def scaleBytes (tag : Nat) : Nat := match tagInfo tag with | some (_, n, _, _) => n / 32 | none => 0

end Sys2Proof.Machine
end

