-- ==== Sys2Proof/Machine/MemPath.lean ====
section
/-!
DEFINITION. The memory path: windows (R193), interleave (R282, R283), retirement (R301, R303), translation (R258 to R261), and speculation's overlay
of committed memory (R264 to R270).
-/
namespace Sys2Proof.Machine

/-! Windows and places. -/

/-- The end of the tower window (R193). -/
def towerEnd : Nat := 0x00C000000000

def farBase : Nat := 0x100000000000

/-- The end of the far window (R306). -/
def State.farEnd (s : State) : Nat := farBase + s.fld R.TWR_FAR_CFG F.TWR_FAR_CFG_SIZE_GIB * 2 ^ 30

def isTower (a : Nat) : Bool := Nat.blt a towerEnd

def State.isFar (s : State) (a : Nat) : Bool := Nat.ble farBase a && Nat.blt a s.farEnd

/-- The site whose local-store window holds an address. -/
def lsSite (a : Nat) : Option Nat :=
  let o := a - 0xF00000000000
  if 0xF00000000000 ≤ a ∧ o / 0x80000 < 1024 ∧ o % 0x80000 < lsSize then some (o / 0x80000) else none

/-- The window of a global address (R193), first and last byte. -/
def State.windowOf (s : State) (a : Nat) : Option (Nat × Nat) :=
  if isTower a then some (0, towerEnd - 1)
  else if s.isFar a then some (farBase, s.farEnd - 1)
  else match lsSite a with
    | some k => some (lsBase k, lsBase k + lsSize - 1)
    | none => none

def inWindow (w : Option (Nat × Nat)) (a n : Nat) : Bool :=
  match w with
  | some (lo, hi) => Nat.ble lo a && Nat.ble (a + n - 1) hi
  | none => false

/-- The power state is QUIESCENT, STANDBY (R582). -/
def State.quiescent (s : State) : Bool := s.fld R.PWR_STATUS F.PWR_STATUS_STATE == 1
def State.standby (s : State) : Bool := s.fld R.PWR_STATUS F.PWR_STATUS_STATE == 2

/-- The dome of a tower address (R282). -/
def towerDome (a : Nat) : Nat := if a < 0x006000000000 then 0 else 1

/-- The interleave entry of a region of a dome (R315). -/
def State.ilEntry (s : State) (d r : Nat) : Nat := (s.reg (R.TWR_IL ((384 * d + r) / 8))).toNat / 2 ^ (8 * (r % 8)) % 256

/-- Dome, dome channel and channel-local barge of a tower address (R282, R283). -/
def State.towerPlace (s : State) (a : Nat) : Nat × Nat × Nat :=
  let d := towerDome a
  let o := a - d * 0x006000000000
  let r := o / 2 ^ 30
  let b := o / 512 % 2 ^ 21
  let e := s.ilEntry d r
  if e / 64 = 1 then (d, 16 * (e % 8) + b % 16, 131072 * (r / 8) + b / 16) else (d, b % 128, 16384 * r + b / 128)

/-- The address of a place: the inverse of R282 and R283. -/
def State.towerAddr (s : State) (d g c : Nat) : Nat :=
  let grp := c / 131072
  if s.ilEntry d (8 * grp) / 64 = 1 then
    let j := ((List.range 8).find? (fun j => s.ilEntry d (8 * grp + j) % 8 == g / 16)).getD 0
    d * 0x006000000000 + (8 * grp + j) * 2 ^ 30 + (c % 131072 * 16 + g % 16) * 512
  else d * 0x006000000000 + c / 16384 * 2 ^ 30 + (c % 16384 * 128 + g) * 512

/-- Bank, column and row of a channel-local barge (R285). -/
def bankOf (c : Nat) : Nat := c % 64
def columnOf (c : Nat) : Nat := c / 64 % 4
def dramRowOf (c : Nat) : Nat := c / 256

/-- Pseudo-channel of a byte of a barge, and the word within it (R285). -/
def pseudoOf (byte : Nat) : Nat := if 256 ≤ byte then 1 else 0
def pseudoWordOf (byte : Nat) : Nat := byte % 256 / 8

/-- The byte of a barge at which a word of a pseudo-channel begins: R285 inverted. -/
def byteOfWord (pseudo word : Nat) : Nat := 256 * pseudo + 8 * word

/-- Speculation is enabled (R264). -/
def State.specOn (s : State) : Bool := s.fld R.GLB_SPEC_CTL F.GLB_SPEC_CTL_EN == 1

/-- In the shadow area of a dome (R264). -/
def inShadow (a : Nat) : Bool := (Nat.ble 0x005E00000000 a && Nat.blt a 0x006000000000) || (Nat.ble 0x00BE00000000 a && Nat.blt a towerEnd)

/-- The journal working region (R517), closed to tasks. -/
def inJournal (a : Nat) : Bool := Nat.ble 0x005DFF800000 a && Nat.ble a 0x005DFFFFFFFF

/-- A retirement entry covers an address (R301). -/
def State.entryCovers (s : State) (w a : Nat) : Bool :=
  match w / 2 ^ 62 with
  | 1 => w / 2 ^ 16 % 2 ^ 32 == a / 2 ^ 16
  | 2 => w / 2 ^ 16 % 2 ^ 32 / 32 == a / 2 ^ 21
  | 3 => isTower a && (let (d, g, c) := s.towerPlace a; w / 2 ^ 13 % 8 == 4 * d + g / 32 && w / 64 % 32 == g % 32 && w % 64 == bankOf c)
  | _ => false

/-- Entries of the retirement table in use, with their index (R301). -/
def State.retireEntries (s : State) : List (Nat × Nat) :=
  (s.regs.filter (fun (p : Nat × Word) => Nat.ble (R.TWR_RETIRE 0) p.1 && Nat.blt p.1 (R.TWR_RETIRE 512))).map (fun (p : Nat × Word) => ((p.1 - R.TWR_RETIRE 0) / 8, p.2.toNat))

/-- An access meets a retirement entry; the shadow area is exempt while speculation is enabled (R303, R304). -/
def State.retired (s : State) (a : Nat) : Bool := !(s.specOn && inShadow a) && s.retireEntries.any (fun e => s.entryCovers e.2 a)

/-! Translation (R258 to R261). -/

/-- How a walk ends: a page, its page not present (with MIGR), or an entry that faults. -/
inductive Walk where
  | page (x : Xlt)
  | missing (migr : Bool)
  | bad
  deriving DecidableEq, Repr

/-- A next-level table: aligned to its size, in the tower window, not in the shadow area while speculation is enabled (R261). -/
def State.tableOk (s : State) (a size : Nat) : Bool := a % size == 0 && isTower a && !(s.specOn && inShadow a)

/-- A frame of a page: of the page's kind, aligned, inside the far tier, not in the shadow area while speculation is enabled (R260, R261). -/
def State.frameOk (s : State) (va frame size : Nat) : Bool :=
  frame % size == 0 && (if isTower va then isTower frame && !(s.specOn && inShadow frame) else s.isFar frame && s.isFar (frame + size - 1))

/-- Levels left, with the table of the first. A table is read as committed. -/
def State.walkFrom (s : State) (va : Nat) : Nat → Nat → Walk
  | 0, _ => .bad
  | k + 1, tab =>
    let (shift, n) := match k with | 3 => (39, 512) | 2 => (30, 512) | 1 => (21, 512) | _ => (16, 32)
    if s.tableOk tab (8 * n) = false then .bad else
    let e := s.loadLE (tab + 8 * (va / 2 ^ shift % n)) 8
    let leaf := e / 2 % 2 == 1
    if e % 2 = 0 then .missing (leaf && e / 32 % 2 == 1)
    else if e / 2 ^ 48 ≠ 0 ∨ e / 64 % 4 ≠ 0 ∨ e / 4 % 2 ≠ 0 then .bad
    else
      let a := e / 256 % 2 ^ 40 * 256
      if leaf then
        if Nat.ble 2 k then .bad
        else
          let size := 2 ^ shift
          if s.frameOk va a size then .page { va := va / size * size, size := size, frame := a, w := e / 8 % 2 == 1, nopf := e / 16 % 2 == 1 } else .bad
      else if k = 0 then .bad else s.walkFrom va k a

/-- A walk from a task's table root (R257, R258). -/
def State.walk (s : State) (root va : Nat) : Walk := s.walkFrom va 4 root

/-- The root of a site's task. -/
def State.xltRoot (s : State) (site : Nat) : Nat := s.fld (R.SPR_XLT_ROOT site) F.SPR_XLT_ROOT_ROOT * 4096

/-- The cached translation of an address. -/
def Spire.xlt (p : Spire) (va : Nat) : Option Xlt := p.mover.xlt.find? (fun x => Nat.ble x.va va && Nat.blt va (x.va + x.size))

/-! Speculation: epochs and their held writes (R265 to R270). -/

def emptyEpoch : Epoch := { quarters := [], spilled := [], waiting := [], since := 0, persist := false, touched := [], ovf := false, commit := false }

def State.epoch (s : State) (k : Nat) : Epoch := (tfind s.epochs k).getD emptyEpoch

def State.setEpoch (s : State) (k : Nat) (e : Epoch) : State := { s with epochs := tinsert s.epochs k e }

/-- State of an epoch slot: 0 FREE, 1 OPEN, 2 STALLED, 3 DOOMED, 4 DRAIN_C, 5 DRAIN_D (R271, R278). -/
def State.epState (s : State) (k : Nat) : Nat := s.fld (R.GLB_SPEC_STAT k) F.GLB_SPEC_STAT_STATE

def State.setEpState (s : State) (k v : Nat) : State := s.setFld (R.GLB_SPEC_STAT k) F.GLB_SPEC_STAT_STATE v

/-- The slot of an epoch number, while it is held (R265). -/
def State.epSlot (s : State) (n : Nat) : Option Nat := [0, 1].find? (fun k => s.epState k != 0 && (s.reg (R.GLB_SPEC_NUM k)).toNat == n)

/-- The slot of an open parent. -/
def State.epParent (s : State) (k : Nat) : Option Nat :=
  let r := s.reg (R.GLB_SPEC_STAT k)
  if fget r F.GLB_SPEC_STAT_HAS_PARENT = 1 then some (fget r F.GLB_SPEC_STAT_PARENT_SLOT) else none

/-- The quarter a slot holds at a quarter address, while its writes are held. -/
def State.heldQuarter (s : State) (k qa : Nat) : Option (List Byte) :=
  if Nat.ble 1 (s.epState k) && Nat.ble (s.epState k) 2 then tfind (s.epoch k).quarters qa else none

/-- 128 bytes as a reader under SPEC `spec` (0 none, else slot + 1) sees them: committed, overlaid by the parent's held writes, then its own (R267); committed only once the epoch
is discarded (R273). -/
def State.quarterFor (s : State) (spec qa : Nat) : List Byte :=
  let k := spec - 1
  if spec = 0 ∨ s.epState k = 3 then s.load qa 128 else
  match s.heldQuarter k qa with
  | some b => b
  | none =>
    match s.epParent k with
    | some j => (match s.heldQuarter j qa with | some b => b | none => s.load qa 128)
    | none => s.load qa 128

/-- A barge as a reader sees it (R250, R267). -/
def State.readBarge (s : State) (spec a : Nat) : List Byte := (List.range 4).flatMap (fun i => s.quarterFor spec (a + 128 * i))

/-- Barges a slot holds in slices (not spilled) of the set of a barge. -/
def State.setUse (s : State) (a : Nat) : Nat :=
  let (d, g, _) := s.towerPlace a
  [0, 1].foldl (fun n k => n + ((s.epoch k).spilled.filter (fun (x : Nat × Bool) =>
    !x.2 && (let (d', g', _) := s.towerPlace x.1; d' == d && g' == g && Config.sliceSet x.1 == Config.sliceSet a))).length) 0

def spillReg (a : Nat) : Nat := if towerDome a = 0 then R.GLB_SPEC_SPILL_W else R.GLB_SPEC_SPILL_E

/-- Shadow barges a dome has (R269). -/
def shadowBarges : Nat := 15728640

/-- Room for a held line of a barge: it has one, a way of its set is free, or a shadow barge is (R269). `true` in the second place means it spills. -/
def State.heldRoom (s : State) (k a : Nat) : Option Bool :=
  match tfind (s.epoch k).spilled a with
  | some x => some x
  | none => if s.setUse a < 8 then some false else if (s.reg (spillReg a)).toNat < shadowBarges then some true else none

/-- Hold a write of a slot: each quarter written, over what the slot reads there (R268). -/
def State.holdWrite (s : State) (k a : Nat) (spill : Bool) (qs : List (Nat × List Byte)) : State :=
  let e := s.epoch k
  let fresh := (tfind e.spilled a).isNone
  let s := if fresh && spill then s.bump (spillReg a) else s
  let q := qs.foldl (fun (t : Table (List Byte)) p => tinsert t p.1 p.2) e.quarters
  s.setEpoch k { e with quarters := q, spilled := tinsert e.spilled a spill,
                        touched := if e.touched.contains (a / 0x200000) then e.touched else e.touched ++ [a / 0x200000] }

/-- The quarters that a WR packet writes (R319, R320). A store of less than a quarter carries its bytes at their place in the quarter's data,
with the byte address in ADDR (DESIGN CHOICE, notes/assumptions/21.md). -/
def State.wrQuarters (s : State) (p : CPkt) (spec : Nat) : List (Nat × List Byte) :=
  let base := p.addr / 512 * 512
  if p.len = 0 then
    let old := s.readBarge spec base
    let o := p.addr % 512
    let new := (old.take o ++ p.data ++ old.drop (o + p.data.length)).take 512
    ((List.range 4).filter (fun k => Nat.blt (128 * k) (o + p.data.length) && Nat.blt o (128 * k + 128))).map (fun k => (base + 128 * k, (new.drop (128 * k)).take 128))
  else
    let ks := (List.range 4).filter (fun k => p.qmask.testBit k)
    (List.range ks.length).map (fun i => (base + 128 * ks.getD i 0, (p.data.drop (128 * i)).take 128))

/-- Committed memory takes quarters whole (R250). -/
def State.commitQuarters (s : State) (qs : List (Nat × List Byte)) : State := qs.foldl (fun s q => s.store q.1 q.2) s

end Sys2Proof.Machine
end

