-- ==== Sys2Proof/Machine/HcpQueues.lean ====
section
/-!
DEFINITION. Queue pairs of the command protocol: doorbells, enabling and disabling, coalescing, resets of H0 (R464 to R469).
-/
namespace Sys2Proof.Machine

/-- Fetch of a queue is paused: 512 or more entries in the hold, or a class-0 packet of it that waits for a slot (R468, R665). -/
def State.fetchPaused (s : State) (q : Nat) : Bool :=
  Nat.ble 512 (s.queue q).hold.length || s.hcp.cmds.any (fun c => c.queue == q && c.pos == s.position && c.slot == 0)

/-- HCP_Q_STATUS shows the hold, the pause and a full queue (R500). -/
def State.showQueue (s : State) (q : Nat) : State :=
  s.setFlds (R.HCP_Q_STATUS q) [(F.HCP_Q_STATUS_HOLD, (s.queue q).hold.length), (F.HCP_Q_STATUS_FETCH_PAUSED, if s.fetchPaused q then 1 else 0),
    (F.HCP_Q_STATUS_CQ_FULL, if s.cqOn q && s.cqFull q then 1 else 0)]

/-- A write of HCP_SQ_TAIL (R467): the tail is set; a value of the queue size or above is ignored and sets DB_ERR; a disabled queue ignores doorbells (R466). -/
def State.sqDoorbell (s : State) (q v : Nat) : State :=
  let t := v % 4096
  if s.sqOn q = false then s
  else if t < s.sqSize q then s.setQueue q { s.queue q with sqTail := t }
  else s.setFld (R.HCP_Q_STATUS q) F.HCP_Q_STATUS_DB_ERR 1

/-- SQ_TAIL_DOORBELL (R467, R636): lost during an H0 dwell. -/
def execSqTailDoorbell (q v : Nat) (s : State) : Host.Outcome State Fault Refusal := .next (if s.tst.dwell.isSome then s else s.sqDoorbell q v)

/-- A write of HCP_CQ_HEAD (R467, R468): the host's head frees entries; what waits is written; a value of the queue size or above is ignored and sets DB_ERR. -/
def State.cqDoorbell (s : State) (q v : Nat) : State :=
  let h := v % 65536
  if h < s.cqSize q then
    let s := s.setQueue q { s.queue q with cqHead := h }
    let x := s.queue q
    let s := if s.cqOn q then (drainQueue (x.hold.length + x.waiting.length) q s).postLost q else s
    s.showQueue q
  else s.setFld (R.HCP_Q_STATUS q) F.HCP_Q_STATUS_DB_ERR 1

/-- CQ_HEAD_DOORBELL (R467, R636). -/
def execCqHeadDoorbell (q v : Nat) (s : State) : Host.Outcome State Fault Refusal := .next (if s.tst.dwell.isSome then s else s.cqDoorbell q v)

/-- Enable a submission queue (R466): head and tail become 0; the expected sequence number is HCP_SQ_SEQ, the register itself. -/
def State.sqEnable (s : State) (q : Nat) : State :=
  if s.sqOn q then s
  else
    let s := (s.setFld (R.HCP_Q_CFG q) F.HCP_Q_CFG_SQ_EN 1).setFld (R.HCP_Q_STATUS q) F.HCP_Q_STATUS_SQ_HEAD 0
    s.setQueue q { s.queue q with sqTail := 0 }

/-- SQ_ENABLE (R466). -/
def execSqEnable (q : Nat) (s : State) : Host.Outcome State Fault Refusal := .next (s.sqEnable q)

/-- SQ_DISABLE (R466): fetch stops; packets already fetched go on. -/
def execSqDisable (q : Nat) (s : State) : Host.Outcome State Fault Refusal := .next (s.setFld (R.HCP_Q_CFG q) F.HCP_Q_CFG_SQ_EN 0)

/-- Enable a completion queue (R466): tail 0, the device's view of the head 0, phase 1. -/
def State.cqEnable (s : State) (q : Nat) : State :=
  if s.cqOn q then s
  else
    let s := (s.setFld (R.HCP_Q_CFG q) F.HCP_Q_CFG_CQ_EN 1).setFld (R.HCP_Q_STATUS q) F.HCP_Q_STATUS_CQ_TAIL 0
    (s.setQueue q { s.queue q with cqHead := 0, phase := 1, unsignalled := 0 }).showQueue q

/-- CQ_ENABLE (R466). -/
def execCqEnable (q : Nat) (s : State) : Host.Outcome State Fault Refusal := .next (s.cqEnable q)

/-- Disable a completion queue: the entries for it are discarded and counted (R466). -/
def State.cqDisable (s : State) (q : Nat) : State :=
  let x := s.queue q
  let es := x.hold ++ x.waiting
  let s := s.setFld (R.HCP_Q_CFG q) F.HCP_Q_CFG_CQ_EN 0
  ((s.bump R.HCP_CQ_DROP es.length).setQueue q { x with hold := [], waiting := [], unsignalled := 0 }).showQueue q

/-- CQ_DISABLE (R466). -/
def execCqDisable (q : Nat) (s : State) : Host.Outcome State Fault Refusal := .next (s.cqDisable q)

/-- MSIX_COALESCE_TIMEOUT (R469): the oldest entry not signalled has waited TIME µs; the vector is sent. -/
def execMsixCoalesceTimeout (q : Nat) (s : State) : Host.Outcome State Fault Refusal :=
  let x := s.queue q
  if x.unsignalled = 0 then .next s
  else .next (({ s with now := max s.now (x.oldest + 1000 * s.fld (R.HCP_Q_CFG q) F.HCP_Q_CFG_CO_TIME) }).signalQueue q)

/-- The reset of H0's own state (R464): every queue disabled, the MSI-X table cleared, HCP_BAR2_BASE 0; admitted commands and all else go on. -/
def State.h0Reset (s : State) : State :=
  let s := (List.range 64).foldl (fun s q => if s.sqOn q || s.cqOn q then (s.setFld (R.HCP_Q_CFG q) F.HCP_Q_CFG_SQ_EN 0).cqDisable q else s) s
  let s := (List.range 144).foldl (fun s k => s.setReg (R.HCP_MSIX_TABLE k) 0) s
  s.setReg R.HCP_BAR2_BASE 0

/-- FUNCTION_LEVEL_RESET (R464). -/
def execFunctionLevelReset (s : State) : Host.Outcome State Fault Refusal := .next s.h0Reset

end Sys2Proof.Machine
end

