-- ==== Sys2Proof/Machine/Mailboxes.lean ====
section
/-!
DEFINITION. Mailbox channels and partner channels (R503 to R510) and the persistence of the journal (R517, R518).
-/
namespace Sys2Proof.Machine

/-- The journal working region (R517). -/
def workBase : Nat := 0x005DFF800000

def emptyChannel : Channel := { full := false, ptr := 0, tag := 0, up := false, count := 0, landed := 0 }

def State.chan (s : State) (c : Nat) : Channel := (tfind s.mbx.chans c).getD emptyChannel

def State.sender (s : State) (c : Nat) : Nat := s.fld (R.MBX_BIND c) F.MBX_BIND_SENDER
def State.receiver (s : State) (c : Nat) : Nat := s.fld (R.MBX_BIND c) F.MBX_BIND_RECEIVER
def State.bound (s : State) (c : Nat) : Bool := s.fld (R.MBX_BIND c) F.MBX_BIND_VALID == 1

/-- A partner channel joins this module to Lantern of the pair partner, identity 0x0003 (R503). -/
def State.partnerChan (s : State) (c : Nat) : Bool := s.sender c == 3 || s.receiver c == 3

def isHostAgent (a : Nat) : Bool := Nat.ble 0x100 a && Nat.ble a 0x10F

/-- Store a channel; MBX_CH_STAT shows it: PSTATE 0 local, 1 DOWN, 2 IDLE, 3 in transit (R522). -/
def State.setChan (s : State) (c : Nat) (x : Channel) : State :=
  let s := { s with mbx := { s.mbx with chans := tinsert s.mbx.chans c x } }
  let ps := if s.partnerChan c = false then 0 else if x.up = false then 1 else if x.full ∧ s.receiver c = 3 then 3 else 2
  s.setFlds (R.MBX_CH_STAT c) [(F.MBX_CH_STAT_FULL, if x.full then 1 else 0), (F.MBX_CH_STAT_PSTATE, ps)]

/-- Vector 64 for a host agent (R508). -/
def State.notifyAgent (s : State) (a : Nat) : State := if isHostAgent a then s.vector 64 else s

/-- The message or count of channel `c` to the partner's landing barge (R509, R517). -/
def State.partnerSend (s : State) (c : Nat) (x : Channel) : State :=
  match s.partnerPos with
  | some pos => s.openStream pos (workBase + 0x1000 + 512 * c) 6 0 c 3 4 0 (bytesLE 8 x.ptr ++ bytesLE 4 x.tag ++ bytesLE 4 x.count)
  | none => s

/-- The staging pointer of an agent: MBX_TX_PTR of a host agent's page, its own register for an internal agent (R505). -/
def State.staged (s : State) (agent : Nat) : Nat :=
  if isHostAgent agent then (s.reg (R.MBX_TX_PTR (agent - 0x100))).toNat else (tget (fun _ => 0) s.mbx.stage agent).toNat

/-- A write of MBX_TX_SEND by an agent sends its staged pointer with a tag, or is rejected (R505). -/
def State.mailboxSend (s : State) (agent c tag : Nat) : State :=
  let x := s.chan c
  let rej := fun (s : State) (f : Fld) => (if isHostAgent agent then s.setFld (R.MBX_TX_STAT (agent - 0x100)) f 1 else s).bump R.MBX_REJECTED
  if (s.bound c && s.sender c == agent && (!s.partnerChan c || x.up)) = false then rej s F.MBX_TX_STAT_REJ_BIND
  else if x.full then rej s F.MBX_TX_STAT_REJ_FULL
  else
    let x := { x with full := true, ptr := s.staged agent, tag := tag % 2 ^ 32, count := if s.receiver c = 3 then (x.count + 1) % 2 ^ 32 else x.count }
    let s := (s.setChan c x).bump R.MBX_SENT
    if s.receiver c = 3 then s.partnerSend c x else s.notifyAgent (s.receiver c)

/-- MAILBOX_SEND (R505). The command of an agent that stages its pointer with it carries the pointer. -/
def execMailboxSend (agent c tag : Nat) (ptr : Option Word) (s : State) : Host.Outcome State Fault Refusal :=
  let s := match ptr with
    | some p => if isHostAgent agent then s.setReg (R.MBX_TX_PTR (agent - 0x100)) p else { s with mbx := { s.mbx with stage := tinsert s.mbx.stage agent p } }
    | none => s
  .next (s.mailboxSend agent c tag)

/-- The bound receiver has read a held message (R506): FULL is cleared and the sender told, a partner's by the count. -/
def State.mailboxReceive (s : State) (agent c : Nat) : State :=
  let x := s.chan c
  if s.bound c && s.receiver c == agent && x.full then
    let x := { x with full := false, ptr := 0, tag := 0 }
    let s := s.setChan c x
    if s.sender c = 3 then s.partnerSend c { x with count := x.landed } else s.notifyAgent (s.sender c)
  else s

/-- MAILBOX_RECEIVE (R506): a read of MBX_RX_MSG. -/
def execMailboxReceive (agent c : Nat) (s : State) : Host.Outcome State Fault Refusal := .next (s.mailboxReceive agent c)

/-- PARTNER_MESSAGE_LANDED (R509): landing barge `c` holds a new count and the channel is empty; Lantern makes it full with the landed message. -/
def execPartnerMessageLanded (c : Nat) (s : State) : Host.Outcome State Fault Refusal :=
  let x := s.chan c
  let a := workBase + 0x1000 + 512 * c
  let n := s.loadLE (a + 12) 4
  if s.bound c && s.sender c == 3 && x.up && !x.full && n != x.landed then
    let s := s.setChan c { x with full := true, ptr := s.loadLE a 8, tag := s.loadLE (a + 8) 4, landed := n }
    .next (s.notifyAgent (s.receiver c))
  else .next s

/-- PARTNER_COUNT_RETURNED (R509): the returned count matches; the sending channel is empty and its sender told. -/
def execPartnerCountReturned (c : Nat) (s : State) : Host.Outcome State Fault Refusal :=
  let x := s.chan c
  if s.bound c && s.receiver c == 3 && x.full && s.loadLE (workBase + 0x1000 + 512 * c + 12) 4 == x.count then
    .next ((s.setChan c { x with full := false, ptr := 0, tag := 0 }).notifyAgent (s.sender c))
  else .next s

/-- Partner channels go DOWN and empty; each message held is lost (R510). -/
def State.partnerDown (s : State) : State :=
  (List.range 32).foldl (fun s c =>
    if s.bound c && s.partnerChan c then
      let x := s.chan c
      let s := if x.full then s.bump R.MBX_LOST else s
      s.setChan c { x with full := false, ptr := 0, tag := 0, up := false }
    else s) s

/-- A warm reset empties every channel, local ones too (R510). -/
def State.mailboxReset (s : State) : State :=
  (List.range 32).foldl (fun s c =>
    let x := s.chan c
    if s.bound c && x.full then (s.bump R.MBX_LOST).setChan c { x with full := false, ptr := 0, tag := 0 } else s) s.partnerDown

/-- Once a pair is confirmed, a channel that both ends bind consistently is IDLE; one whose counterpart is absent stays DOWN (R509). `cs` are the partner's counterparts. -/
def State.partnerUp (s : State) (cs : List Nat) : State :=
  (List.range 32).foldl (fun s c => if s.bound c && s.partnerChan c then s.setChan c { s.chan c with up := cs.contains c } else s) s

/-! The journal on its way to memory and flash (R512, R517, R518). -/

/-- The 64 bytes of an entry (R512). -/
def jBytes (e : JEntry) : List Byte :=
  bytesLE 8 e.dseq ++ bytesLE 8 (if Nat.ble 2 e.kind then 0 else e.orig) ++ bytesLE 4 e.seq ++ bytesLE 2 e.opcode ++ bytesLE 1 e.queue
    ++ bytesLE 1 (e.kind % 4 * 64 + e.cls % 4 * 16 + (if e.forwarded then 8 else 0) + (if e.ordered then 4 else 0))
    ++ bytesLE 1 e.state ++ bytesLE 1 (e.pos % 64) ++ bytesLE 2 e.status ++ bytesLE 4 e.r0 ++ bytesLE 8 e.digest ++ bytesLE 8 e.tAccept
    ++ bytesLE 8 e.tStart ++ bytesLE 8 e.tDone

/-- The header of the working region (R517). -/
def State.workHeader (s : State) : List Byte :=
  bytesLE 8 (s.reg R.ERR_JOB_ID).toNat ++ bytesLE 8 s.jnl.copyDseq ++ bytesLE 8 s.jnl.copyTime ++ bytesLE 1 (s.fld R.LNK_POD_CFG F.LNK_POD_CFG_LOGICAL) ++ List.replicate 39 0

/-- The step-state entry (R517). -/
def State.stepEntry (s : State) : List Byte :=
  bytesLE 1 (s.fld R.GLB_LS_STATE F.GLB_LS_STATE_EXP) ++ bytesLE 1 (s.fld R.GLB_LS_STATE F.GLB_LS_STATE_CONSEC_OVF)
    ++ bytesLE 2 (s.fld R.GLB_LS_STATE F.GLB_LS_STATE_CLEAN) ++ List.replicate 4 0 ++ bytesLE 8 (s.reg R.GLB_STEPS).toNat
    ++ bytesLE 8 s.jnl.lastSpec ++ bytesLE 8 s.jnl.stepTime ++ List.replicate 32 0

/-- The mirror record held for the partner (R517). -/
def State.mirrorRecord (s : State) : List Byte :=
  bytesLE 8 s.jnl.mirEpoch ++ bytesLE 1 s.jnl.mirSlot ++ List.replicate 7 0 ++ bytesLE 8 s.jnl.mirClose ++ bytesLE 8 s.jnl.mirSpec ++ List.replicate 32 0

/-- Lantern writes the step-state entry into the region at each decision (R517). -/
def State.writeStepEntry (s : State) : State := s.store (workBase + 0x40) s.stepEntry

/-- Lantern writes the mirror record at each MIRROR_COMMIT received (R517). -/
def State.writeMirrorRecord (s : State) : State := s.store (workBase + 0x80) s.mirrorRecord

/-- Ring entries into the region's ring image (R517). -/
def State.copyRing (s : State) (idx : List Nat) : State :=
  idx.foldl (fun s i => match tfind s.jnl.ring i with | some e => s.store (workBase + 0x400000 + 64 * i) (jBytes e) | none => s) s

/-- The whole region from SRAM, after a warm reset or an interleave change of its group (R517). -/
def State.rewriteWork (s : State) : State :=
  let s := s.store workBase s.workHeader
  (s.writeStepEntry.writeMirrorRecord).copyRing (s.jnl.ring.map Prod.fst)

/-- NAND bytes of stored bytes, with the parity of R529. -/
def nandBytes (n : Nat) : Nat := (n * 40 + 38) / 39

/-- Units of a record on flash: header, step-state entry, mirror record and entries, padded to whole units (R539). -/
def PRec.units (r : PRec) : Nat := (192 + 64 * (if r.full then 65536 else r.ents.length) + 4095) / 4096

/-- The bytes of a record that its digest covers after the header's first 32: step-state entry, mirror record, then the entries; a full record holds every ring position, an empty one as zeros (R539). -/
def PRec.body (r : PRec) : List Byte :=
  r.step ++ r.mir ++ (if r.full then (List.range 65536).flatMap (fun i => match tfind r.ents i with | some e => jBytes e | none => List.replicate 64 0)
    else r.ents.flatMap (fun p => jBytes p.2))

/-- Header bytes 0 to 31 of a record (R539). -/
def PRec.head (r : PRec) : List Byte :=
  bytesLE 8 r.rseq ++ bytesLE 8 r.newest ++ bytesLE 8 r.start ++ bytesLE 4 (if r.full then 65536 else r.ents.length)
    ++ bytesLE 1 (if r.full then 1 else 0) ++ bytesLE 1 (if r.orderly then 1 else 0) ++ List.replicate 2 0

/-- A record as it lies on flash, before its padding (R539). -/
def PRec.bytes (r : PRec) : List Byte := r.head ++ (sha384 (r.head ++ r.body)).take 32 ++ r.body

/-- The journal area is a ring of 16,777,216 units: the oldest records give way (R530, R539). -/
def trimLog : List PRec → List PRec
  | [] => []
  | r :: rs => if Nat.blt 16777216 (((r :: rs).map PRec.units).foldl (· + ·) 0) then trimLog rs else r :: rs

/-- The record of a persistence that starts now: full at the first since READY, at every 1,024th record and at an orderly power-off, else a delta; none where nothing has changed (R539, R540; DEDUCED, notes/assumptions/140.md). -/
def State.recordFor (s : State) (orderly : Bool) : Option PRec :=
  let n := s.bsn.records + 1
  let full := orderly || !s.jnl.fullDone || n % 1024 == 0
  let ents := if full then s.jnl.ring else s.jnl.changed.filterMap (fun i => (tfind s.jnl.ring i).map (fun e => (i, e)))
  let was := s.jnl.log.getLast?
  if orderly || !s.jnl.fullDone || ents != [] || was.map (fun r => r.step) != some s.stepEntry || was.map (fun r => r.mir) != some s.mirrorRecord then
    some { rseq := n, newest := (s.reg R.JNL_NEWEST).toNat, start := s.now, full := full, orderly := orderly, ents := ents, step := s.stepEntry, mir := s.mirrorRecord }
  else none

/-- Start a persistence: every changed entry, the step-state entry and the mirror record into the working region, and the record that goes to flash (R518, R539). -/
def State.persistStart (s : State) (orderly : Bool) : State :=
  let r := s.recordFor orderly
  let s := { s with jnl := { s.jnl with persist := some s.now, persistDsq := (s.reg R.JNL_NEWEST).toNat, copyDseq := (s.reg R.JNL_NEWEST).toNat, copyTime := s.now,
                                        covered := s.jnl.changed, changed := [], late := false, making := r } }
  let s := match r with | some r => s.bump R.BSN_WR_BYTES (4096 * r.units) | none => s
  let s := s.store workBase s.workHeader
  (s.writeStepEntry.writeMirrorRecord).copyRing s.jnl.covered

/-- JOURNAL_PERSIST (R518): at a 1 ms window boundary Lantern persists the journal; one still running delays it and counts, as does a basin controller that restarts (R560). -/
def execJournalPersist (s : State) : Host.Outcome State Fault Refusal :=
  if s.fld R.JNL_STATUS F.JNL_STATUS_READY = 0 then .next s
  else
    let s := { s with now := (s.now / 1000000 + 1) * 1000000 }
    if s.fld R.BSN_STATUS F.BSN_STATUS_STATE = 4 ∨ s.jnl.persist.isSome then .next (({ s with jnl := { s.jnl with late := true } } : State).bump R.JNL_PERSIST_LATE)
    else .next (s.persistStart false)

/-- A persistence has ended: on flash and covered, or failed with PERSIST_FAIL, its record and notice; the entries then wait for the next (R518). -/
def State.persistEnd (s : State) (ok : Bool) : State :=
  match s.jnl.persist with
  | none => s
  | some t =>
    let j := s.jnl
    if ok then
      let s := { s with jnl := { j with persist := none, covered := [], making := none, fullDone := j.fullDone || j.making.isSome, log := trimLog (j.log ++ j.making.toList) },
                        bsn := { s.bsn with records := s.bsn.records + j.making.toList.length } }
      let s := match j.making with | some r => s.bump R.BSN_NAND_WR_BYTES (nandBytes (4096 * r.units)) | none => s
      ((s.setReg R.JNL_PERSISTED (BitVec.ofNat 64 j.persistDsq)).setReg R.JNL_PERSIST_TIME (BitVec.ofNat 64 t)).bump R.JNL_PERSISTS
    else
      let s := { s with jnl := { j with persist := none, covered := [], making := none, changed := j.covered ++ j.changed.filter (fun i => !j.covered.contains i) } }
      let s := s.setFld R.JNL_STATUS F.JNL_STATUS_PERSIST_FAIL 1
      let s := s.note 0x0007 0 0 0 (s.reg R.JNL_NEWEST).toNat 0
      if s.fld R.JNL_CTL F.JNL_CTL_NOTIFY_EN = 1 then s.vector 65 else s

/-- A persistence that was delayed starts as soon as it can (R518). -/
def State.persistLate (s : State) : State := if s.jnl.late && s.jnl.persist.isNone && s.fld R.BSN_STATUS F.BSN_STATUS_STATE != 4 then s.persistStart false else s

/-- JOURNAL_PERSIST_COMPLETE (R518): the delayed one follows. -/
def execJournalPersistComplete (ok : Bool) (s : State) : Host.Outcome State Fault Refusal := .next (s.persistEnd ok).persistLate

/-- The journal restart of R519: open entries become INTERRUPTED, but the warm reset's own command COMPLETED with RESET_DONE; a restart entry; vector 65. -/
def State.journalRestart (s : State) (cause : Nat) (resetCmd : Nat) : State :=
  let t := s.now
  let fix := fun (e : JEntry) =>
    if finalState e.state then e
    else if e.orig = resetCmd ∧ resetCmd ≠ 0 then { e with state := 3, status := statusCode .resetDone, tDone := t }
    else { e with state := 6, tDone := t }
  let ch := (s.jnl.ring.filter (fun p => !finalState p.2.state)).map Prod.fst
  let s : State := { s with jnl := { s.jnl with ring := s.jnl.ring.map (fun (p : Nat × JEntry) => (p.1, fix p.2)), changed := s.jnl.changed.filter (fun i => !ch.contains i) ++ ch } }
  let s := s.jAppend (fun d => { dseq := d, orig := 0, seq := 0, opcode := 0, queue := 0, kind := 3, cls := 0, forwarded := false, ordered := false, state := 3, pos := s.position, status := 0, r0 := 0, digest := cause, tAccept := t, tStart := t, tDone := t })
  let s := s.setFld R.JNL_STATUS F.JNL_STATUS_RESTART cause
  if s.fld R.JNL_CTL F.JNL_CTL_NOTIFY_EN = 1 then s.vector 65 else s

end Sys2Proof.Machine
end

