-- ==== Sys2Proof/Machine/Work.lean ====
section
/-!
DEFINITION. Shared by the work of Lantern and the engine: responses of the memory side, writes that wait on a chunk, translated access of the job (R390), graph
nodes (R489), the end of a collective (R408, R409, R413), epochs dropped and drained (R270 to R273), tasks and stage queues.
-/
namespace Sys2Proof.Machine

/-! Responses of slices and sites (R321). -/

/-- The response to a request: class TC1, to its source, with its tag. A slice's response enters at the crossbar port of its router and carries that router's site. -/
def State.respond (s : State) (p : CPkt) (typ len status : Nat) (data : List Byte) : State :=
  let (site, port) := if p.dkind = 1 then ((s.target (p.dest / 16 / 8) p).1, 5) else if p.dkind = 3 then agentPort p.dest p.src else (p.dest, 0)
  s.injectAt site port { p with
    tc := 1, typ := typ, dkind := if p.skind = 0 then 0 else 3, dest := p.src, skind := if p.dkind = 3 then 1 else 0,
    src := if p.dkind = 3 then p.dest else site, len := len, spec := 0, qmask := 0, status := status, addr := 0, data := data, tree := false }

def State.ackWrite (s : State) (p : CPkt) (status : Nat) : State := s.respond p 4 0 status []

/-! Writes that wait on a chunk (R376, R535). -/

/-- A chunk of a range that a mirror close or a capture still has to read. -/
def State.heldChunk (s : State) (a n : Nat) : Option Nat := (s.heldChunks a n).head?

/-- A write waits on a chunk from now on; the registers show it. -/
def State.noteHeld (s : State) (c : Nat) : State :=
  let s := if s.mirror.c.contains c && (tfind s.mirror.waits c).isNone then { s with mirror := { s.mirror with waits := tinsert s.mirror.waits c s.now } } else s
  match s.bsn.capture with
  | some k =>
    if k.left.contains c && (tfind k.held c).isNone then
      let k := { k with held := tinsert k.held c s.now }
      ({ s with bsn := { s.bsn with capture := some k } }).showCapture
    else s
  | none => s

/-! Translated access of the job (R390). -/

/-- The answer of a translated access: addresses with lengths, a page not present, or an address fault. -/
inductive Place where
  | at_ (runs : List (Nat × Nat))
  | absent (va : Nat) (migr : Bool)
  | bad
  deriving DecidableEq, Repr

/-- A site whose window answers (R243). -/
def State.siteUp (s : State) (site : Nat) : Bool := s.enabled site && s.spState site != 6

/-- Where a run of bytes inside one 64 KiB page lies, or in a local-store window. -/
def State.placeRun (s : State) (root va n : Nat) (write : Bool) : Place :=
  match lsSite va with
  | some site => if s.siteUp site then .at_ [(va, n)] else .bad
  | none =>
    if s.specOn && inShadow va then .bad else
    match s.walk root va with
    | .bad => .bad
    | .missing m => .absent va m
    | .page x =>
      let pa := x.frame + (va - x.va)
      if (write && !x.w) || s.retired pa then .bad else .at_ [(pa, n)]

/-- A range cut at 64 KiB boundaries, placed run by run. -/
def State.placeFrom (s : State) (root : Nat) (write : Bool) : Nat → Nat → Nat → Place
  | 0, _, _ => .at_ []
  | fuel + 1, va, n =>
    if n = 0 then .at_ [] else
    let k := min n (0x10000 - va % 0x10000)
    match s.placeRun root va k write with
    | .at_ r =>
      (match s.placeFrom root write fuel (va + k) (n - k) with
       | .at_ q => .at_ (r ++ q)
       | x => x)
    | x => x

/-- A range of untranslated addresses, inside one window (R193, R390). -/
def State.place (s : State) (root va n : Nat) (write : Bool) : Place :=
  if inWindow (s.windowOf va) va n then s.placeFrom root write (n / 0x10000 + 2) va n else .bad

/-- The worst of several ranges: ready, a page absent, or an address fault. -/
def State.placeAll (s : State) (root : Nat) : List (Nat × Nat × Bool) → Place
  | [] => .at_ []
  | (va, n, w) :: r =>
    match s.place root va n w, s.placeAll root r with
    | .bad, _ => .bad
    | _, .bad => .bad
    | .absent v m, _ => .absent v m
    | .at_ _, x => x

/-- Bytes of the job's memory, where they are placed. -/
def State.jobLoad (s : State) (va n : Nat) : List Byte :=
  match s.place s.job.root va n false with
  | .at_ rs => rs.flatMap (fun r => s.load r.1 r.2)
  | _ => List.replicate n 0

def State.jobLE (s : State) (va n : Nat) : Nat := natLE (s.jobLoad va n)

/-- Store bytes into the runs they are placed in. -/
def storeRuns : List (Nat × Nat) → List Byte → State → State
  | [], _, s => s
  | (a, n) :: r, bs, s => storeRuns r (bs.drop n) (s.store a (bs.take n))

/-- Store into the job's memory; nothing where it is not placed. -/
def State.jobStore (s : State) (va : Nat) (bs : List Byte) : State :=
  match s.place s.job.root va bs.length true with
  | .at_ rs => storeRuns rs bs s
  | _ => s

/-- A page fault that Lantern reports to a completion queue (R262). -/
def State.pageFault (s : State) (dst : Option (Nat × Nat × Nat)) (va task spire : Nat) : State :=
  s.event .pageFault 0 0 [va % 2 ^ 32, va / 2 ^ 32, task, spire] dst

/-! Graph nodes (R489). -/

/-- A task handle (R485); a node's index stands in bits 25 to 14 of its graph's. -/
def handleOf (queue seq : Nat) (node : Option Nat) : Nat :=
  let low := seq % 2 ^ 26
  queue * 2 ^ 26 + (match node with | none => low | some k => k % 4096 * 2 ^ 14 + low % 2 ^ 14)

def Graph.setNode (g : Graph) (k : Nat) (st : NodeSt) : Graph := { g with nodes := g.nodes.mapIdx (fun i n => if i = k then { n with st := st } else n) }

/-- Nodes whose predecessors have all completed or been skipped become eligible (R167). -/
def Graph.refresh (g : Graph) : Graph :=
  let excess := fun (k : Nat) => match g.nodes[k]? with | some n => n.st == .done || n.st == .skipped | none => true
  { g with elig := g.elig ++ (List.range g.nodes.length).filter (fun k =>
      match g.nodes[k]? with | some n => n.st == .wait && n.preds.all excess && !g.elig.contains k | none => false) }

def State.setGraph (s : State) (g : Nat) (x : Graph) : State := { s with graphs := tinsert s.graphs g x }

/-- The graph has ended: every node has completed or been skipped, or one has failed and none runs (R489). -/
def State.closeGraph (s : State) (g : Nat) : State :=
  match tfind s.graphs g with
  | none => s
  | some x =>
    let run := (x.nodes.filter (fun n => n.st == .done || n.st == .failed)).length
    let skipped := (x.nodes.filter (fun n => n.st == .skipped)).length
    let open_ := x.nodes.any (fun n => n.st == .running || n.st == .ready)
    let left := x.nodes.any (fun n => n.st == .wait)
    match x.failed with
    | some f => if open_ then s else { s with graphs := terase s.graphs g }.finishCmd g .graphFailed [run, skipped, f]
    | none => if open_ || left then s else { s with graphs := terase s.graphs g }.finishCmd g .ok [run, skipped, 0xFFFFFFFF]

/-- A node has ended with a status and its final words: its entry if it asked for one, and what that means for its graph (R170, R489). -/
def State.nodeDone (s : State) (g k : Nat) (st : Status) (r : List Nat) : State :=
  match tfind s.graphs g with
  | none => s
  | some x =>
    match x.nodes[k]? with
    | none => s
    | some n =>
      let dst := if statusFails st then NodeSt.failed else if st = .skippedPredicate then .skipped else .done
      let x := x.setNode k dst
      let x := if statusFails st && x.failed == none then { x with failed := some k } else x
      let s := s.setGraph g x.refresh
      let s := match s.cmd? g with
        | some c => if n.comp then s.postCmd c (s.cmdEntry c st .served false [r.getD 0 0, r.getD 1 0, r.getD 2 0, k]) else s
        | none => s
      s.closeGraph g

/-- A command or a node has ended. -/
def State.ended (s : State) (cmd : Option Nat) (node : Option (Nat × Nat)) (st : Status) (r : List Nat) : State :=
  let s := match cmd with | some id => s.finishCmd id st r | none => s
  match node with | some (g, k) => s.nodeDone g k st r | none => s

/-- Nodes not yet started are abandoned, and a graph with none running ends (R555). -/
def State.stopGraphs (s : State) : State :=
  s.graphs.foldl (fun s (p : Nat × Graph) =>
    let x := p.2
    let first := (x.nodes.findIdx? (fun n => n.st == .wait || n.st == .ready)).getD 0
    let x := { x with nodes := x.nodes.map (fun n => if n.st = .ready then { n with st := .wait } else n), failed := if x.failed = none && x.nodes.any (fun n => n.st == .wait || n.st == .ready) then some first else x.failed }
    (s.setGraph p.1 x).closeGraph p.1) s

/-! Signals of Lantern and the engine to a cell of this module (R391, R454). -/

/-- ADD n to a cell of a logical spire of this module: agents 4 and 5 send it as a SIG. -/
def State.addToCell (s : State) (word : Nat) : State :=
  let n := word % 0x10000
  match s.siteOf (word / 2 ^ 22 % 1024) with
  | some site =>
    if n = 0 then s else
    s.inject {
      tc := 0, typ := 5, dkind := 0, dest := site, skind := 1, src := if domeOf site = 0 then 4 else 5, len := 0, spec := 0, qmask := 0, status := 0, tag := 0, addr := 0,
      sig := { cell := word / 2 ^ 16 % 64, op := 0, n := n, gen := 0, origModule := s.moduleId, origSpire := word / 2 ^ 22 % 1024 }, data := [], tree := false }
  | none => s

/-! Collectives. -/

/-- `n` bytes of a 128-byte descriptor from byte `o`. -/
def descAt (d : BitVec 1024) (o n : Nat) : Nat := d.toNat / 2 ^ (8 * o) % 2 ^ (8 * n)

/-- Bits [hi:lo] of HDR (R392, R402, R422). -/
def hdrBits (d : BitVec 1024) (hi lo : Nat) : Nat := d.toNat / 2 ^ lo % 2 ^ (hi + 1 - lo)

/-- FP32 addition under R54. -/
def fadd32 (a b : Half) : Half :=
  let x := fmtFp32.decode a.toNat
  let y := fmtFp32.decode b.toNat
  BitVec.ofNat 32 (arithTo fmtFp32 [x, y] (Num.add x y)).1

/-- LNK_CE_STATUS shows the queues running (R415). -/
def State.showEngine (s : State) : State :=
  s.setFlds R.LNK_CE_STATUS [(F.LNK_CE_STATUS_ACTIVE, s.coll.running.length), (F.LNK_CE_STATUS_QBUSY, s.coll.running.foldl (fun v (p : Nat × Coll) => v + 2 ^ p.1) 0)]

/-- LNK_CE_ERR: 1 stall, 2 member mismatch, 3 address, 4 bad route (R416). -/
def State.ceErr (s : State) (reason queue collId : Nat) : State :=
  s.record R.LNK_CE_ERR F.LNK_CE_ERR_VALID F.LNK_CE_ERR_MORE
    [(F.LNK_CE_ERR_REASON, reason), (F.LNK_CE_ERR_QUEUE, queue), (F.LNK_CE_ERR_COLL_ID, collId), (F.LNK_CE_ERR_TIME, s.stamp)]

/-- A gradient collective on the AUTO path, which a bank swap moves to the bucketed path for the rest of it (R400). -/
def Coll.auto (c : Coll) : Bool := Nat.ble (hdrBits c.d 63 56) 4 && hdrBits c.d 25 24 == 0

/-- FLAGS of the result block (R408). -/
def Coll.flags (c : Coll) : Nat :=
  (if c.bkts.any (fun (p : Nat × Bkt) => p.2.ovf) then 1 else 0) + (if c.bkts.any (fun (p : Nat × Bkt) => p.2.empty) then 2 else 0)
    + (if c.switched then 4 else 0) + (if c.usedBucketed then 8 else 0)

/-- REDSQ of a bucket: the piece squares in member-index order (R399). -/
def Bkt.redSq (b : Bkt) : Half := b.sqs.foldl (fun v p => fadd32 v p.2) 0

/-- The 64 bytes of the result block (R408). -/
def Coll.block (c : Coll) (now : Nat) : List Byte :=
  let sum := fun (f : Bkt → Half) => (c.bkts.foldl (fun v (p : Nat × Bkt) => fadd32 v (f p.2)) (0 : Half)).toNat
  bytesLE 2 (statusCode c.status) ++ bytesLE 2 c.flags ++ bytesLE 4 0 ++ bytesLE 8 c.tStart ++ bytesLE 8 now ++ bytesLE 4 (sum Bkt.redSq) ++ bytesLE 4 (sum (fun b => b.localSq))
    ++ bytesLE 8 c.bytes ++ bytesLE 4 c.suppressed ++ bytesLE 4 c.groups ++ bytesLE 4 c.a ++ bytesLE 4 c.b ++ bytesLE 4 c.recv ++ bytesLE 4 c.maxOff

/-- The bytes of a step record (R428). -/
def stepRecord (outcome status ovfMods gsq norm kappa expUsed expNext cleanNext steps epoch tCap tDec : Nat) : List Byte :=
  bytesLE 4 outcome ++ bytesLE 2 status ++ bytesLE 2 ovfMods ++ bytesLE 4 gsq ++ bytesLE 4 norm ++ bytesLE 4 kappa ++ bytesLE 1 expUsed ++ bytesLE 1 expNext
    ++ bytesLE 2 0 ++ bytesLE 4 cleanNext ++ bytesLE 4 0 ++ bytesLE 8 steps ++ bytesLE 8 epoch ++ bytesLE 8 tCap ++ bytesLE 8 tDec

/-- A step-end whose collective failed: no decision; the record carries the status (R423). -/
def State.stepFails (s : State) (st : Status) : State :=
  match s.stepEnd with
  | none => s
  | some x =>
    let e := (x.exp % 256).toNat
    let s := s.jobStore (descAt x.d 56 8) (stepRecord 0xFFFFFFFF (statusCode st) 0 0 0 0 e e x.clean x.steps (if hdrBits x.d 35 35 = 1 then descAt x.d 16 8 else 0) x.tCapture 0)
    { s with stepEnd := none }.ended x.cmd x.node st [0xFFFFFFFF, 0, e]

/-- A running collective on the AUTO path changes its path (R400, R417). -/
def State.setPath (s : State) (q : Nat) (c : Coll) (bucketed fixed : Bool) : State :=
  let s := if c.bucketed == bucketed then s else s.bump R.LNK_CE_SWITCHES
  { s with coll := { s.coll with running := tinsert s.coll.running q { c with bucketed := bucketed, fixed := fixed, switched := c.switched || c.bucketed != bucketed } } }

/-- A packet opens one of some own streams. -/
def LPkt.opensOne (me : Nat) (ks : List Nat) (p : LPkt) : Bool :=
  p.srcPos == me && (match p.body with | .streamOpen _ _ _ _ orig => ks.contains orig | _ => false)

/-- What a link still has of some own streams goes: their opens, their data, their contexts. -/
def Link.dropStreams (l : Link) (me : Nat) (ks : List Nat) : Link :=
  let cs := (l.txOwn.filter (fun e => ks.contains e.2)).map Prod.fst
  { l with
    pktq := l.pktq.map (fun e => (e.1, e.2.filter (fun x => !x.pkt.opensOne me ks))), dataq := l.dataq.map (fun e => (e.1, e.2.filter (fun d => !cs.contains d.ctx))),
    txCtx := l.txCtx.filter (fun c => !cs.contains c), txOwn := l.txOwn.filter (fun e => !ks.contains e.2), waitOpen := l.waitOpen.filter (fun w => !w.pkt.opensOne me ks) }

/-- The streams of a queue are abandoned: what has not left goes, and their contexts are free (R413, R560). -/
def State.dropStreams (s : State) (q : Nat) : State :=
  let mine := fun (p : Nat × Stream) => Nat.ble p.2.kind 2 && p.2.owner == q
  let ks := (s.pod.streams.filter mine).map Prod.fst
  if ks = [] then s else
  { s with pod := { s.pod with
    streams := s.pod.streams.filter (fun p => !mine p), links := s.pod.links.map (fun e => (e.1, e.2.dropStreams s.position ks)),
    io := { s.pod.io with held := s.pod.io.held.filter (fun w => !w.pkt.opensOne s.position ks) } } }

/-- The collective of a queue ends (R408, R409, R413): its result block, then its signal unless it failed, its event, and what it answers to. -/
def State.endColl (s : State) (q : Nat) (st : Status) : State :=
  match tfind s.coll.running q with
  | none => s
  | some c =>
    let c := { c with status := st }
    let s := s.jobStore (descAt c.d 72 8 * (if hdrBits c.d 63 56 < 6 then 1 else 0) + descAt c.d 88 8 * (if hdrBits c.d 63 56 < 6 then 0 else 1)) (c.block s.now)
    let s := if statusFails st then s.dropStreams q else s
    let s := ({ s with coll := { s.coll with running := terase s.coll.running q } }.bump R.LNK_CE_COMPLETED).showEngine
    let sig := if hdrBits c.d 63 56 < 6 then descAt c.d 84 4 else descAt c.d 100 4
    let s := if statusFails st then s else s.addToCell sig
    let s := if hdrBits c.d 22 22 = 1 ∧ c.step = false then s.event .collDone 6 q [statusCode st, hdrBits c.d 51 36, q] c.dst else s
    let s := if c.step && statusFails st then s.stepFails st else s
    s.ended c.cmd c.node st [c.bytes, c.flags]

/-- Every collective ends with COLL_ABORTED, those that wait too; every stage queue stops (R413, R555). -/
def State.stopEngine (s : State) : State :=
  let s := (s.coll.running.map Prod.fst).foldl (fun s q => s.endColl q .collAborted) s
  let ws := s.coll.waiting.flatMap (fun (p : Nat × List CollWait) => p.2)
  let s := { s with coll := { s.coll with waiting := [] } }
  let s := ws.foldl (fun s w => if w.step then s.stepFails .collAborted else s.ended w.cmd w.node .collAborted []) s
  let s := (List.range 32).foldl (fun s q => if (tfind s.stq q).isSome then s.setReg (R.LNK_STQ_STAT q) 0 else s) s
  { s with stq := [], pod := { s.pod with streams := s.pod.streams.filter (fun (p : Nat × Stream) => p.2.kind != 3) } }

/-! Tasks. -/

/-- Tasks of an epoch slot that run (`epoch` of a task is its slot plus one). -/
def State.epochTasks (s : State) (k : Nat) : Nat := (s.tasks.filter (fun (p : Nat × Task) => p.2.epoch == k + 1)).length

def State.showEpochTasks (s : State) : State :=
  [0, 1].foldl (fun s k => s.setFld (R.GLB_SPEC_STAT k) F.GLB_SPEC_STAT_TASKS (s.epochTasks k)) s

/-! Epochs (R270 to R273). -/

/-- Time for which at least one held write has waited and that is not yet counted (R279). -/
def State.stallNow (s : State) : Nat :=
  match [0, 1].find? (fun k => (s.epoch k).waiting != []) with
  | some k => s.now - (s.epoch k).since
  | none => 0

/-- The time during which at least one held write waited is counted up to now (R279). -/
def State.countStall (s : State) : State :=
  [0, 1].foldl (fun s k => if (s.epoch k).waiting = [] then s else s.setEpoch k { s.epoch k with since := s.now }) (s.bump R.GLB_SPEC_STALL_NS s.stallNow)

/-- One waiting write of a slot (R270): it goes on where its dome has room and none of its flow still waits before it; else it is kept. -/
def retryOne (k : Nat) (r : State × List HeldWr) (w : HeldWr) : State × List HeldWr :=
  match r.1.heldRoom k (w.pkt.addr / 512 * 512), r.2.any (fun x => x.pkt.sameFlow w.pkt) with
  | some sp, false => ((r.1.holdWrite k (w.pkt.addr / 512 * 512) sp (r.1.wrQuarters w.pkt (k + 1))).ackWrite w.pkt 0, r.2)
  | _, _ => (r.1, r.2 ++ [w])

/-- The waiting writes of a slot take room that has become free, in order (R270); once none waits the epoch is OPEN again (R271). -/
def State.retryHeld (s : State) (k : Nat) : State :=
  if (s.epoch k).waiting = [] then (if s.epState k = 2 then s.setEpState k 1 else s) else
  let s := s.countStall
  let (s, left) := (s.epoch k).waiting.foldl (retryOne k) (s, [])
  let s := s.setEpoch k { s.epoch k with waiting := left }
  if left = [] ∧ s.epState k = 2 then s.setEpState k 1 else s

/-- Shadow barges of a slot are free again. -/
def State.freeSpill (s : State) (k : Nat) : State :=
  (s.epoch k).spilled.foldl (fun s (x : Nat × Bool) => if x.2 then s.setReg (spillReg x.1) (s.reg (spillReg x.1) - 1) else s) s

/-- Discard what a slot holds (R273): its held data at once, its waiting writes as dropped; DOOMED while its tasks run, else DRAIN_D. -/
def State.dropSlot (s : State) (k : Nat) : State :=
  if s.epState k = 1 ∨ s.epState k = 2 then
    let s := s.countStall.freeSpill k
    let ws := (s.epoch k).waiting
    let s := s.setEpoch k emptyEpoch
    let s := ws.foldl (fun s w => s.ackWrite w.pkt 0) s
    let s := s.setEpState k (if s.epochTasks k = 0 then 5 else 3)
    (s.bump R.GLB_SPEC_DISCARDS).retryHeld (1 - k)
  else s

/-- Discard an epoch with its child (R273). -/
def State.discardSlot (s : State) (k : Nat) : State :=
  let child := s.epParent (1 - k) == some k && Nat.ble 1 (s.epState (1 - k)) && Nat.ble (s.epState (1 - k)) 2
  let s := s.dropSlot k
  if child then s.dropSlot (1 - k) else s

/-- The slot is FREE (R271). -/
def State.freeSlot (s : State) (k : Nat) : State :=
  let s := (s.freeSpill k).setEpoch k emptyEpoch
  ((s.setReg (R.GLB_SPEC_STAT k) 0).setReg (R.GLB_SPEC_NUM k) 0).retryHeld (1 - k)

/-- The last task of a DOOMED epoch has ended (R271). -/
def State.settleDoomed (s : State) : State :=
  [0, 1].foldl (fun s k => if s.epState k = 3 ∧ s.epochTasks k = 0 then s.setEpState k 5 else s) s.showEpochTasks

end Sys2Proof.Machine
end

