-- ==== Sys2Proof/Machine/JobStop.lean ====
section
/-!
DEFINITION. Job faults and the job stop (R551 to R558), and the first part of a warm reset (R295, R562, R563).
-/
namespace Sys2Proof.Machine

/-! The stop of a job (R555). -/

/-- A command that belongs to a job (R480, R555): the task group, and the parts of the job and basin groups that act for a running job. -/
def jobOpcode (op : Nat) : Bool :=
  (Nat.ble 0x0302 op && Nat.ble op 0x030B) || (Nat.ble 0x0405 op && Nat.ble op 0x040C) || op == 0x0502

/-- Step 1: each delayed command of the job ends with JOB_STOPPED. -/
def State.endDelayed (s : State) : State :=
  (s.hcp.cmds.filter (fun c => c.delayed != none && !c.started && jobOpcode c.opcode)).foldl (fun s c => s.expireCmd c.dseq .jobStopped) s

/-- Step 2: every task of the job is aborted, and no further node starts. -/
def State.abortTasks (s : State) : State :=
  (s.tasks.flatMap (fun (p : Nat × Task) => p.2.gang)).foldl (fun s site => s.abortSpire site 9) s

/-- Step 5: the open mirror epoch and C are abandoned; what waited on C goes on, and chunks not safely copied stay dirty. -/
def State.abandonMirror (s : State) : State :=
  let s := (s.mirror.waits.map Prod.fst).foldl (fun s c => s.releaseMirror c) s
  let m := s.mirror
  let back := m.c ++ m.inFlight.map Prod.snd
  let n := match m.closing with | some k => k | none => m.openEpoch
  let add := fun (d : List Nat) => d ++ (back.eraseDups).filter (fun c => !d.contains c)
  let m := if m.commitSent then { m with openEpoch := 0 } else
    { m with c := [], inFlight := [], closing := none, openEpoch := 0, d0 := if n % 2 = 0 then add m.d0 else m.d0, d1 := if n % 2 = 1 then add m.d1 else m.d1 }
  { s with mirror := m, pod := { s.pod with streams := s.pod.streams.filter (fun (p : Nat × Stream) => p.2.kind != 4) } }.showMirror

/-- Step 6: a capture is abandoned; what waited on it goes on, and its command ends (R535). -/
def State.abandonCapture (s : State) (st : Option Status) : State :=
  match s.bsn.capture with
  | none => s
  | some k =>
    let s := (k.held.map Prod.fst).foldl (fun s c => s.releaseCapture c) s
    let s := { s with bsn := { s.bsn with capture := none, ckpts := s.bsn.ckpts.filter (fun c => c.state != 2) } }
    let s := ((s.setReg R.BSN_CAPTURE 0).setReg R.BSN_CKPT_EPOCH 0).setFld R.BSN_STATUS F.BSN_STATUS_CAPTURE 0
    match st with | some x => s.finishCmd k.cmd x [] | none => s

/-- Step 7: injections held at a phase boundary are released without a swap; its node ends with the job. -/
def State.abandonPhase (s : State) : State :=
  let b := s.pod.phase
  let s : State := { s with pod := { s.pod with phase := { b with stage := 0, node := none, swapAt := 0, arrivals := [], first := 0 } } }
  let s := s.releaseHeld
  match b.node with | some (g, k) => s.nodeDone g k .jobStopped [] | none => s

/-- Commands that wait for the module to be STOPPED, and the state itself (R555, R557). -/
def State.settleStop (s : State) : State :=
  if s.jobState = 2 && s.tasks.isEmpty && s.coll.running.isEmpty && s.epState 0 == 0 && s.epState 1 == 0 then
    let s := s.setFld R.ERR_JOB F.ERR_JOB_STATE 3
    (s.hcp.cmds.filter (fun c => c.opcode == 0x0404 && c.started)).foldl (fun s c => s.finishCmd c.dseq .ok []) s
  else s

/-- The actions of R555 at the first stop of a job, but for the record that a receiver writes. -/
def State.beginStop (s : State) (id src : Nat) : State :=
  let s := s.setFlds R.ERR_JOB [(F.ERR_JOB_STOP_ID, id), (F.ERR_JOB_SRC_POS, src), (F.ERR_JOB_STATE, 2)]
  let s := { s with errs := { s.errs with stopTime := s.now } }
  let s := s.endDelayed.abortTasks.stopEngine
  let s := [0, 1].foldl (fun s k => s.discardSlot k) s
  ((((s.abandonMirror).abandonCapture (some .ckptIncomplete)).abandonPhase).stopGraphs).partnerDown

/-- Step 8's event and vector (R555, R557). -/
def State.noticeStop (s : State) (id src : Nat) (first : Bool) : State :=
  let s := s.event .jobStop 0 0 [id, src]
  if first then s.vector 67 else s

/-- Send a stop of this module (R554): the packet, then its own actions. -/
def State.sendStop (s : State) (id : Nat) : State :=
  let s := (s.bump R.ERR_STOPS_SENT).flood id (.stop 0 s.position (s.reg R.ERR_JOB_ID).toNat)
  let s := { s with errs := { s.errs with stopsSeen := s.errs.stopsSeen ++ [id] } }
  ((s.beginStop id s.position).noticeStop id s.position true).settleStop

/-- A class 2 record (R547, R554): a job fault stops a RUNNING job pod-wide. -/
def State.raise (s : State) (cause skind sindex rung d0 d1 : Nat) : State :=
  if s.jobState = 1 then
    let (id, s) := s.newStopId
    (s.putRecord cause 2 skind sindex rung d0 d1 0 1 id).sendStop id
  else s.putRecord cause 2 skind sindex rung d0 d1 0 0 0

/-! The warm reset (R295, R562, R563). -/

/-- Registers that a warm reset keeps. -/
def keptReg (off : Nat) : Bool := match regAt off with | some r => r.keep | none => false

/-- The registers after a warm reset: those that survive, the others at their reset value. -/
def State.warmRegs (s : State) : Table Word := s.regs.filter (fun (p : Nat × Word) => keptReg p.1)

def emptyBasinRun (b : Basin) : Basin := { b with capture := none, restore := none, ckpts := b.ckpts.filter (fun c => c.state != 2) }

def emptyEngine16 : Engine16 := { running := [], waiting := [], sent := [] }

def emptyMirror : Mirror := { regions := [], d0 := [], d1 := [], c := [], full := false, fullLeft := [], openEpoch := 0, closing := none, closeTime := 0, closeSpec := 0, commitSent := false, inFlight := [], waits := [], pregions := [] }

/-- Far-tier memory, which the module never clears. -/
def farOnly (m : Memory) : Memory := m.filter (fun c => Nat.ble farBase c.1 && Nat.blt c.1 0xF00000000000)

/-- Links go to TRAIN where enabled; receive contexts, queues and streams are gone. -/
def State.resetLinks (s : State) : State :=
  let s : State := { s with pod := { s.pod with
    links := [], rt := s.pod.rt.filter (fun p => p.1 / 64 % 5 = 4), rtMask := s.pod.rtMask.filter (fun p => p.1 % 5 = 4),
    io := { s.pod.io with inbox := [], held := [] }, streams := [], phases := [], shadowLoaded := false, sigTags := [],
    phase := { stage := 0, node := none, swapAt := 0, arrivals := [], first := 0, newMap := false }, mcIn := [], landed := [], parked := [] } }
  (List.range 48).foldl (fun s n =>
    let s := s.setFld (R.LNK_STATUS n) F.LNK_STATUS_STATE (if s.fld (R.LNK_CTL n) F.LNK_CTL_EN = 1 then 1 else 0)
    s.setLink n { s.link n with since := s.now }) s

/-! Towers. -/

/-- A tower before its first pass. -/
def State.newTower (s : State) : Tower :=
  { passStart := s.now, scrubbed := s.now, ce := [], advised := [], ceStart := s.now, latch := none, down := [], refreshed := [], throttleAt := s.now, tempWin := 0, testing := none }

def State.tower (s : State) (t : Nat) : Tower := (tfind s.towers t).getD s.newTower

def State.setTower (s : State) (t : Nat) (w : Tower) : State := { s with towers := tinsert s.towers t w }

/-- Time throttled up to now is counted (R290). -/
def State.countThrottle (s : State) (t : Nat) : State :=
  let w := s.tower t
  let s := if 2 ≤ s.fld (R.TWR_STATUS t) F.TWR_STATUS_LEVEL then s.bump (R.TWR_THROTTLE_NS t) (s.now - w.throttleAt) else s
  s.setTower t { w with throttleAt := s.now }

/-- What a warm reset clears (R562): towers and local stores read zero, spires, tasks, collectives, epochs and tables are empty, queues are disabled; the journal's ring, the error
ring, bindings, the pod and pair configuration, the interleave and retirement tables, the towers' counts and windows and the statistics stay; time throttled, held and stalled up to now is counted first (R239, R279, R281, R290, R296, R300). -/
def State.clearModule (s : State) : State :=
  let s := (List.range 8).foldl (fun s t => s.countThrottle t) s.countStall
  let s := s.spires.foldl (fun s (p : Nat × Spire) => s.stopEngines p.1) s
  let severe := (List.range 8).map (fun t => (t, s.fld (R.TWR_STATUS t) F.TWR_STATUS_ODECC))
  let s := s.mailboxReset
  let q0 := s.hcp.queues.filter (fun (p : Nat × Queue) => s.cqOn p.1)
  let s := q0.foldl (fun s (p : Nat × Queue) => s.cqDisable p.1) s
  let s : State := { s with
    regs := s.warmRegs, mem := farOnly s.mem, spires := [], tasks := [], epochs := [], syncGroups := [], groups := [], graphs := [], programs := [],
    coll := { emptyEngine16 with sent := s.coll.sent }, stepEnd := none, stq := [], bsn := emptyBasinRun s.bsn,
    hcp := { s.hcp with queues := [], cmds := [], tracker := [] },
    canal := { inq := [], used := [], freed := [], deficit := [], serving := [], turn := [], forks := [], acks := [], arrived := [] },
    aq := { s.aq with txSeq := [], rxSeq := [], replay := [], held := [], recv := [] },
    mirror := { emptyMirror with regions := s.mirror.regions, full := s.mirror.full, pregions := s.mirror.pregions },
    jnl := { s.jnl with persist := none, covered := [], late := false, making := none, fullDone := false, changed := s.jnl.covered ++ s.jnl.changed.filter (fun i => !s.jnl.covered.contains i) },
    far := { s.far with reqs := [] }, reinit := [], towers := s.towers.map (fun (p : Nat × Tower) => (p.1, { p.2 with testing := none })),
    tst := { scan := false, ir := .idcode, dwell := none, prbs := [], ppr := false, h1 := false }, pwr := { s.pwr with hold := [], holdEnd := [], leaving := none }, fw := { s.fw with sessions := 0, lkSessions := 0 }, job := { mapping := 0, root := 0, redrawn := false } }
  let s := severe.foldl (fun s p => s.setFld (R.TWR_STATUS p.1) F.TWR_STATUS_ODECC p.2) s
  s.resetLinks

/-- A warm reset is under way since now. -/
def State.beginWarm (s : State) (cmd : Option Cmd) : State := { s with warm := some { since := s.now, cmd := cmd } }

/-- Start a warm reset: the module clears what R562 gives; WARM_RESET_COMPLETE ends it. `cmd` is the command that asked for it. -/
def State.startWarm (s : State) (cmd : Option Cmd) : State :=
  match s.warm with
  | some _ => s
  | none => s.clearModule.beginWarm cmd

/-- Hardware sends the notice at once, on one ACTIVE link of every group (R295, R373): the frame is among those sent. -/
def State.floodNow (s : State) (id : Nat) (b : LBody) : State :=
  s.oneLinkPerGroup.foldl (fun s n =>
    let l := s.link n
    let f : Frame := { tgen := s.fld R.LNK_PHASE_CTL F.LNK_PHASE_CTL_TGEN, fseq := (l.txSeq + 1) % 4096, ack := l.rxSeq, nak := l.bad, credClass := 0, credVl := 0, credit := 0,
                       body := .packet 0 0 [s.lpkt 0 (s.fld (R.LNK_STATUS n) F.LNK_STATUS_NB_POS) id b], fecCorrected := 0, fecOk := true, crcOk := true }
    { s with pod := { s.pod with io := { s.pod.io with sent := s.pod.io.sent ++ [(n, f)] } } }) s

/-- A class 3 record (R295, R551): the module-reset notice, the record with its identifier, and the warm reset. -/
def State.raise3 (s : State) (cause skind sindex d0 d1 : Nat) : State :=
  match s.warm with
  | some _ => s
  | none =>
    let (id, s) := s.newStopId
    let s := (s.bump R.ERR_STOPS_SENT).floodNow id (.stop 1 s.position (if s.jobState = 0 then 0 else (s.reg R.ERR_JOB_ID).toNat))
    (s.putRecord cause 3 skind sindex 3 d0 d1 0 1 id).startWarm none

end Sys2Proof.Machine
end

