-- ==== Sys2Proof/Machine/SpireFault.lean ====
section
/-!
DEFINITION. Spire faults (R99, R100, R105) and the remote error of a sync cell (R229).
-/
namespace Sys2Proof.Machine

/-- Class codes of R99. -/
def clFormat : Nat := 1
def clTranslation : Nat := 2
def clAddress : Nat := 3
def clArithmetic : Nat := 4
def clHazard : Nat := 5
def clSync : Nat := 6
def clIllegal : Nat := 7
def clTimeout : Nat := 8
def clAbort : Nat := 9

/-- A fault that is not restartable (R100): recorded, every engine stops, the task takes note, and the job fault of R26 follows with its cause. A spire without a
live task records it only; an engine that faults in the cycle of the first fault does so too (R105). -/
def State.spireFault (s : State) (site cls eng row qpos addr : Nat) (iter : Option Nat := none) (cause : Nat := 0x0201) : State :=
  let live := s.spLive site
  let s := s.faultRecord site cls eng row qpos addr false iter
  if live then
    let s := ((s.stopEngines site).setSpState site 4).taskFault site cls eng
    let s := s.modSpire site (fun p => { p with stopAt := some p.cycle })
    if cause = 0x0202 then s.raise cause 2 site 0 (s.reg (R.SPR_RSD_LOG site)).toNat 0
    else if cause = 0x0203 then s.raise cause 2 site 0 (s.reg (R.SPR_SYNC_REMERR site)).toNat 0
    else s.raise cause 2 site 0 (s.reg (R.SPR_FAULT site)).toNat (s.reg (R.SPR_FAULT_ADDR site)).toNat
  else if cause = 0x0203 then s.raise cause 2 site 0 (s.reg (R.SPR_SYNC_REMERR site)).toNat 0
  else s

/-- The remote error of R229: REASON 1 wrong kind, 2 generation, 3 TARGET 0, 4 release at PEND 0. -/
def State.remoteError (s : State) (site reason cell omod ospire : Nat) : State :=
  let s := s.record (R.SPR_SYNC_REMERR site) F.SPR_SYNC_REMERR_VALID F.SPR_SYNC_REMERR_MORE
    [(F.SPR_SYNC_REMERR_REASON, reason), (F.SPR_SYNC_REMERR_CELL, cell), (F.SPR_SYNC_REMERR_SRC_SPIRE, ospire), (F.SPR_SYNC_REMERR_SRC_MODULE, omod)]
  s.spireFault site clSync 4 0 0 0 none 0x0203

end Sys2Proof.Machine
end

