-- ==== Sys2Proof/Machine/MovPath.lean ====
section
/-!
DEFINITION. The path of a mover operation (R119 to R128): forms, the rows of local forms, and the requests of global forms, each made in its own cycle (R122, R123, R243, R247 to R255), with their faults (R101, R125).
-/
namespace Sys2Proof.Machine

/-! Forms. -/

/-- Segments of a transposed load and their bytes, by tag (R127). -/
def transposedShape (tag : Nat) : Option (Nat × Nat) :=
  match tag with
  | 0 => some (32, 128) | 1 => some (64, 64) | 2 => some (64, 64) | 3 => some (128, 32) | 4 => some (128, 32) | 0xA => some (256, 16) | _ => none

/-- Bytes of a data row (R115, R128). -/
def MovOp.rowBytes (m : MovOp) : Nat :=
  match m.form with
  | .transposed => (match transposedShape m.tag with | some (_, b) => b | none => 0)
  | .accLoad => 256
  | .accStore => (match tagInfo m.tag with | some (f, _, _, _) => 8 * f.width | none => 0)
  | .copyIn => 512
  | .copyOut => 512
  | _ => 128

/-- Data rows, segments or barges. -/
def MovOp.rows (m : MovOp) : Nat :=
  match m.form with
  | .transposed => (match transposedShape m.tag with | some (n, _) => n | none => 0)
  | .copyIn => m.n
  | .copyOut => m.n
  | _ => 32

/-- Bytes of a scale row: none where the form has no scale plane (R126, R128). -/
def MovOp.scaleRowBytes (m : MovOp) : Nat :=
  match m.form with
  | .loadScale => scaleBytes m.tag
  | .storeScale => scaleBytes m.stag
  | .accStore => if tagScaled m.tag then 2 else 0
  | _ => 0

def MovOp.isStore (m : MovOp) : Bool := m.form == .store || m.form == .storeScale || m.form == .accStore || m.form == .copyOut

/-- Address of data row `i` (R120), modulo 2^48 (R192). -/
def MovOp.rowAddr (m : MovOp) (i : Nat) : Nat := ((((m.base : Int) + i * m.stride) % (2 ^ 48 : Nat))).toNat

def MovOp.scaleAddr (m : MovOp) (i : Nat) : Nat := ((((m.sbase : Int) + i * m.sstride) % (2 ^ 48 : Nat))).toNat

/-- Occupancy and latency of a local form, occupancy of a global one (R86, R119). -/
def MovOp.occ (m : MovOp) : Nat :=
  match m.form with
  | .load => 32 | .loadScale => 34 | .transposed => if m.global then 64 else 32 | .accLoad => 64
  | .store => 32 | .storeScale => 34 | .accStore => 64 | .copyIn => m.n | .copyOut => m.n

def MovOp.lat (m : MovOp) : Nat :=
  match m.form with
  | .load => 36 | .loadScale => 38 | .transposed => 40 | .accLoad => 68 | .store => 36 | .storeScale => 38 | .accStore => 70 | _ => 0

/-- Every row of an operation as (row number, address, bytes): data rows, then scale rows numbered 32 to 63 (R125). -/
def MovOp.spans (m : MovOp) : List (Nat × Nat × Nat) :=
  (List.range m.rows).map (fun i => (i, m.rowAddr i, m.rowBytes)) ++
    (if m.scaleRowBytes = 0 then [] else (List.range 32).map (fun i => (32 + i, m.scaleAddr i, m.scaleRowBytes)))

/-- The window a row must lie in (R193). -/
def MovOp.winOf (m : MovOp) (row : Nat) : Option (Nat × Nat) := if m.scaleRowBytes ≠ 0 ∧ 32 ≤ row then m.swin else m.win

/-- The tag checks at issue (R118, R126 to R128). -/
def State.movFormat (s : State) (site : Nat) (m : MovOp) : Bool :=
  match m.form with
  | .load => Nat.blt m.tag 0xD && !tagScaled m.tag
  | .loadScale => tagScaled m.tag
  | .transposed => (transposedShape m.tag).isSome
  | .accLoad => Nat.blt m.tag 0xD
  | .store => !tagScaled m.stag
  | .storeScale => tagScaled m.stag
  | .accStore => s.tagAcc site m.t == 0 && Nat.blt m.tag 0xC
  | _ => true

/-- Register numbers in range. -/
def MovOp.inRange (m : MovOp) : Bool :=
  match m.form with
  | .accLoad => Nat.blt m.t 4
  | .accStore => Nat.blt m.t 4
  | .copyIn => Nat.ble 1 m.n && Nat.ble m.n 256
  | .copyOut => Nat.ble 1 m.n && Nat.ble m.n 256
  | _ => Nat.blt m.t 16

/-- The local-store rows an operation touches: all rows of a local form, the local side of a copy. -/
def MovOp.lsSpans (m : MovOp) : List (Nat × Nat × Nat) :=
  match m.form with
  | .copyIn => (List.range m.n).map (fun i => (i, (m.ls + 512 * i) % 2 ^ 48, 512))
  | .copyOut => (List.range m.n).map (fun i => (i, (m.ls + 512 * i) % 2 ^ 48, 512))
  | _ => if m.global then [] else m.spans

/-- The lowest row outside the local store (R121). -/
def MovOp.lsBad (m : MovOp) : Option (Nat × Nat) := (m.lsSpans.find? (fun x => !Nat.ble (x.2.1 + x.2.2) lsSize)).map (fun x => (x.1, x.2.1))

/-! What a load lands. -/

/-- The tile row `i` of a transposed load, from the bytes of its segments (R127). -/
def transposeRow (f : Fmt) (segs : List (List Byte)) (i : Nat) : Nat := packElems f.width (segs.map (fun b => elemAt (natLE b) f.width i))

/-- The writes of a load from its data rows and scale rows (R118, R123, R126 to R128). -/
def MovOp.loadWrites (m : MovOp) (data scales : List (List Byte)) : List SWr :=
  let all := BitVec.allOnes 1024
  match m.form with
  | .load => (List.range 32).map (fun i => SWr.tile m.t i (BitVec.ofNat 1024 (natLE (data.getD i []))) all) ++ [SWr.tagOp m.t m.tag]
  | .loadScale =>
    (List.range 32).map (fun i => SWr.tile m.t i (BitVec.ofNat 1024 (natLE (data.getD i []))) all)
      ++ (List.range 32).map (fun i => SWr.scale m.t i (BitVec.ofNat 64 (natLE (scales.getD i []))) (BitVec.allOnes 64)) ++ [SWr.tagOp m.t m.tag]
  | .transposed =>
    (match tagInfo m.tag with
     | some (f, _, _, _) => (List.range 32).map (fun i => SWr.tile m.t i (BitVec.ofNat 1024 (transposeRow f data i)) all) ++ [SWr.tagOp m.t m.tag]
     | none => [])
  | .accLoad => (List.range 32).map (fun i => SWr.acc m.t i (BitVec.ofNat 2048 (natLE (data.getD i []))) (BitVec.allOnes 2048)) ++ [SWr.tagAcc m.t m.tag]
  | .copyIn => (List.range m.n).map (fun i => SWr.ls (m.ls + 512 * i) (data.getD i []))
  | _ => []

/-! When rows are read and requested. -/

/-- The cycle of its occupancy in which a row is read or requested: data rows evenly, scale rows of a form with a scale plane in the two cycles after them (R122, R124, R126); an accumulator store's scale
row with its data row (R128). -/
def MovOp.rowCycle (m : MovOp) (i : Nat) : Nat :=
  match m.form with
  | .loadScale => if i < 32 then i else 32 + (i - 32) / 16
  | .storeScale => if i < 32 then i else 32 + (i - 32) / 16
  | .copyIn => i
  | .copyOut => i
  | .accStore => i % 32 * 2
  | _ => i * m.occ / max 1 m.rows

/-- The reads of a store's source rows (R124). -/
def MovOp.rowReads (m : MovOp) (seq t : Nat) : List RowRead :=
  if m.isStore then (List.range (if m.form = .storeScale then 64 else m.rows)).map (fun i => { due := t + m.rowCycle i, seq := seq, row := i }) else []

/-- What source row `i` of a store gives (R43, R119, R124, R126, R128): rows by number with their bytes, and the flags its conversion sets. -/
def State.storeRow (s : State) (site : Nat) (m : MovOp) (i : Nat) : List (Nat × List Byte) × Nat :=
  let p := s.spire site
  match m.form with
  | .copyOut => ([(i, s.load (lsBase site + m.ls + 512 * i) 512)], 0)
  | .accStore =>
    let (d, sc, g) := accRowBytes (p.accRow m.t i) m.tag m.inf
    ((i, d) :: (if sc = [] then [] else [(32 + i, sc)]), g)
  | _ =>
    if 32 ≤ i then ([(i, bytesLE (scaleBytes m.stag) (p.scaleRow m.t (i - 32)).toNat)], 0)
    else
      let row := (p.tileRow m.t i).toNat
      let fp6 := match tagInfo m.stag with | some (f, _, _, _) => f.width == 6 | none => false
      ([(i, bytesLE 128 (if fp6 then row % 2 ^ 768 else row))], 0)

/-- The address of a row: a data row, or a scale row from 32 on. -/
def MovOp.addrOf (m : MovOp) (row : Nat) : Nat := if m.scaleRowBytes ≠ 0 ∧ 32 ≤ row then m.scaleAddr (row - 32) else m.rowAddr row

/-- Row read of a store (R124): the row goes to local store, or into the operation's buffer for its requests; its conversion's flags are set now (R61, R128). -/
def State.readRow (s : State) (site : Nat) (r : RowRead) : State :=
  let p := s.spire site
  match p.landings.find? (fun l => l.seq == r.seq && l.mov != none) with
  | some l =>
    (match l.mov with
     | some m =>
       let (rows, g) := s.storeRow site m r.row
       (rows.foldl (fun s x => s.store (lsBase site + m.addrOf x.1) x.2) s).orFlags site g
     | none => s)
  | none =>
    match p.mover.ops.find? (fun a => a.seq == r.seq) with
    | some a =>
      let (rows, g) := s.storeRow site a.op r.row
      let buf := a.buf.filter (fun (b : Nat × List Byte) => !rows.any (fun x => x.1 == b.1)) ++ rows
      (s.modSpire site (fun p => { p with mover := { p.mover with ops := p.mover.ops.map (fun x => if x.seq = r.seq then { x with buf := buf } else x) } })).orFlags site g
    | none => s

/-! Slots and requests. -/

/-- A request holds a barge slot (R247). -/
def Req.held (r : Req) : Bool := r.st == .walking || r.st == .way || r.st == .sent

/-- Barge slots in use (R247). -/
def Spire.slots (p : Spire) : Nat := (p.mover.ops.flatMap (fun a => a.reqs.filter Req.held)).length + p.mover.pre.length

/-- The rows of an operation grouped by barge, in ascending row order (R122), each made when its first row comes, a store's when its last is read; `cyc` the cycle of a row. -/
def groupBarges (store : Bool) (cyc : Nat → Nat) (spans : List (Nat × Nat × Nat)) : List Req :=
  let cut := spans.flatMap (fun x => if x.2.1 / 512 = (x.2.1 + x.2.2 - 1) / 512 then [(x.1, x.2.1, x.2.2, 0)] else
    let n := 512 - x.2.1 % 512
    [(x.1, x.2.1, n, 0), (x.1, x.2.1 + n, x.2.2 - n, n)])
  cut.foldl (fun (rs : List Req) pc =>
    let b := pc.2.1 / 512 * 512
    if rs.any (fun r => r.barge == b) then rs.map (fun r => if r.barge = b then { r with pieces := r.pieces ++ [pc], due := if store then max r.due (cyc pc.1) else r.due } else r)
    else rs ++ [{ barge := b, pieces := [pc], st := .todo, tag := 0, phys := 0, left := 0, data := [], due := cyc pc.1 }]) []

/-- SPEC of a site's task: 0, or its epoch slot plus one (R320). -/
def State.specOf (s : State) (site : Nat) : Nat := match s.taskAt site with | some t => t.epoch | none => 0

def State.modMover (s : State) (site : Nat) (f : MoverSt → MoverSt) : State := s.modSpire site (fun p => { p with mover := f p.mover })

/-- Replace one request of an operation. -/
def State.setReq (s : State) (site seq barge : Nat) (f : Req → Req) : State :=
  s.modMover site (fun m => { m with ops := m.ops.map (fun a => if a.seq = seq then { a with reqs := a.reqs.map (fun r => if r.barge = barge then f r else r) } else a) })

/-- The lowest row of some requests that meets a condition on its pieces, with the row's own address. -/
def Async.lowRow (a : Async) (rs : List Req) (f : Nat × Nat × Nat × Nat → Bool) : Nat × Nat :=
  let row := (((rs.flatMap (fun r => r.pieces.filter f)).map (·.1)).min?).getD 0
  (row, a.op.addrOf row)

/-- A row of a global operation faults with ADDRESS (R100, R125, R193, R243). The operation lands nothing, and so no later iteration of its instruction does (R183). -/
def State.moverAddress (s : State) (site seq row addr : Nat) : State :=
  match (s.spire site).mover.ops.find? (fun a => a.seq == seq) with
  | some a =>
    let gone := fun (x : Async) => x.seq == seq || (a.op.iter.isSome && x.op.iter.isSome && x.op.qpos == a.op.qpos && Nat.blt seq x.seq)
    let s := s.modSpire site (fun p => { p with
      reads := p.reads.filter (fun r => !(p.mover.ops.any (fun x => gone x && x.seq == r.seq))),
      mover := { p.mover with ops := p.mover.ops.filter (fun x => !gone x) } })
    s.spireFault site clAddress 3 row a.op.qpos addr a.op.iter
  | none => s

/-- The queue that a task's page-fault event goes to: that of the command that launched it, or of the command of its graph (R262, R476, R497). -/
def State.gangQueue (s : State) (t : Task) : Option (Nat × Nat × Nat) :=
  let of_ := fun (id : Nat) => (s.cmd? id).map (fun c => (c.pos, c.queue, c.fwd))
  match t.cmd, t.node with
  | some id, _ => of_ id
  | none, some (g, _) => of_ g
  | none, none => none

/-- A page is not present (R101, R125): recorded with the lowest row that met it and counted, the operation and every later mover operation abandoned, the mover stopped until the fault is cleared. -/
def State.moverTranslation (s : State) (site seq row addr : Nat) (migr : Bool) : State :=
  let p := s.spire site
  match p.mover.ops.find? (fun a => a.seq == seq) with
  | some a =>
    let s := s.faultRecord site clTranslation 3 row a.op.qpos addr true a.op.iter
    let s := s.bump (R.SPR_RESTART_COUNT site)
    let (_, s) := s.abandonMover site seq
    let x := p.mov
    let s := match x.st, x.wait with | .wait, some w => s.countHeld site w (p.cycle - x.since) | _, _ => s
    let s := s.modSpire site (fun p => { p with mov := { p.mov with st := .transl, since := p.cycle }, mover := { p.mover with faultAt := some s.now, faultSeq := seq, migr := migr, hints := [] } })
    match s.taskAt site with
    | some t => if migr then s else s.event .pageFault 2 site [addr % 2 ^ 32, addr / 2 ^ 32, t.handle % 2 ^ 32, s.logical site] (s.gangQueue t)
    | none => s
  | none => s

/-- The request packet of a spire (R320, R321). -/
def moverPkt (typ dkind dest site spec tag addr : Nat) (qmask len : Nat) (data : List Byte) : CPkt :=
  { tc := 2, typ := typ, dkind := dkind, dest := dest, skind := 0, src := site, len := len, spec := spec, qmask := qmask, status := 0, tag := tag, addr := addr,
    sig := { cell := 0, op := 0, n := 0, gen := 0, origModule := 0, origSpire := 0 }, data := data, tree := false }

/-- Where a translated barge, or a local-store window, is served (R243, R244). -/
def State.homeDest (s : State) (a : Nat) : Nat × Nat :=
  if isTower a then (let (d, g, _) := s.towerPlace a; (1, 128 * d + g))
  else match lsSite a with
    | some k => (0, k)
    | none => (3, 3)

/-- The bytes of a barge's pieces, from the operation's buffer of rows read: none while a row is not read yet. -/
def Async.pieceBytes (a : Async) (pc : Nat × Nat × Nat × Nat) : Option (List Byte) :=
  ((a.buf.find? (fun (b : Nat × List Byte) => b.1 == pc.1)).map Prod.snd).map (fun bs => (bs.drop pc.2.2.2).take pc.2.2.1)

/-- The WR packets of a barge: one of whole quarters where its pieces are quarters, else one for each piece. -/
def wrPackets (site spec tag phys dkind dest : Nat) (ps : List (Nat × List Byte)) : List CPkt :=
  if ps.all (fun p => p.1 % 128 == 0 && p.2.length % 128 == 0) then
    let qs := ps.flatMap (fun p => (List.range (p.2.length / 128)).map (fun i => (p.1 / 128 + i, (p.2.drop (128 * i)).take 128)))
    let ks := (List.range 4).filter (fun k => qs.any (fun q => q.1 == k))
    let data := ks.flatMap (fun k => ((qs.filter (fun q => q.1 == k)).getLast?.map Prod.snd).getD [])
    [moverPkt 3 dkind dest site spec tag phys (ks.foldl (fun m k => m + 2 ^ k) 0) (2 * ks.length) data]
  else ps.map (fun p => moverPkt 3 dkind dest site spec tag (phys + p.1) (2 ^ (p.1 / 128)) 0 p.2)

/-! L1. -/

/-- The L1 set of a line (R249). -/
def l1Set (a : Nat) : Nat := a / 512 % 16

/-- Ways of a set that are reserved: loads and prefetches in flight whose data has not come (R123, R249; DEDUCED, notes/assumptions/104.md). -/
def Spire.reserved (p : Spire) (a : Nat) : Nat :=
  (p.mover.ops.flatMap (fun o => if o.op.isStore then [] else o.reqs.filter (fun r => r.st == .sent && (lsSite r.barge).isNone && l1Set r.phys == l1Set a))).length
    + (p.mover.pre.filter (fun x => l1Set x.addr == l1Set a)).length

/-- A way of the set is not reserved. -/
def Spire.wayFree (p : Spire) (a : Nat) : Bool := Nat.blt (p.reserved a) 8

/-- A way is reserved for a line to come: where the set is full, its least recently used line goes (R240, R249). -/
def Spire.reserve (p : Spire) (a : Nat) : List Line :=
  let same := p.mover.l1.filter (fun y => l1Set y.addr == l1Set a)
  if 8 ≤ same.length + p.reserved a then (match same.getLast? with | some old => p.mover.l1.filter (fun y => y.addr != old.addr) | none => p.mover.l1) else p.mover.l1

/-- A barge takes the way reserved for it, most recent first. -/
def l1Fill (l1 : List Line) (x : Line) : List Line := x :: l1.filter (fun y => y.addr != x.addr)

/-- A stream's next barge lies beyond its latest demand (R253). -/
def PStream.beyond (x : PStream) (b : Nat) : PStream := { x with last := b, next := if x.up then max x.next (b + 512) else min x.next (b - 512) }

/-- A demand miss of the mover trains a prefetch stream (R253): two misses in consecutive barges of one page; the least recently used of eight is replaced. -/
def trainStreams (ss : List PStream) (page b : Nat) : List PStream :=
  match ss.find? (fun x => x.page == page && (b == x.last + 512 || b + 512 == x.last)) with
  | some x =>
    let up := b == x.last + 512
    let y := if x.trained && x.up == up then x else { x with up := up, trained := true, next := b }
    y.beyond b :: ss.filter (fun y => y != x)
  | none => ({ page := page, last := b, up := true, trained := false, next := b } :: ss).take 8

/-- A demand access that hits moves a trained stream on. -/
def hitStreams (ss : List PStream) (page b : Nat) : List PStream :=
  ss.map (fun st => if st.page = page ∧ st.trained ∧ (if st.up then Nat.blt st.last b else Nat.blt b st.last) then st.beyond b else st)

/-- A write of this spire to a barge updates its line, and what an earlier read of it will still bring is not kept (R249, R250). -/
def MoverSt.wrote (m : MoverSt) (phys : Nat) (parts : List (Nat × List Byte)) : MoverSt :=
  let upd := fun (d : List Byte) => parts.foldl (fun (d : List Byte) x => d.take x.1 ++ x.2 ++ d.drop (x.1 + x.2.length)) d
  { m with
    l1 := m.l1.map (fun l => if l.addr = phys then { l with data := upd l.data } else l),
    pre := m.pre.map (fun y => if y.addr = phys then { y with stale := true } else y),
    ops := m.ops.map (fun o => { o with reqs := o.reqs.map (fun q => if q.phys = phys ∧ q.st = .sent ∧ !o.op.isStore then { q with stale := true } else q) }) }

/-! Making a request. -/

/-- A store's packets go to their home with a new tag; the request awaits their acknowledgements. -/
def State.sendWrites (s : State) (site seq barge phys : Nat) (ps : List CPkt) : State :=
  let tag := (s.spire site).mover.nextTag
  let s := (s.modMover site (fun m => { m with nextTag := (m.nextTag + 1) % 65536 })).setReq site seq barge (fun r => { r with st := .sent, tag := tag, phys := phys, left := ps.length })
  ps.foldl (fun s x => s.inject x) s

/-- A translated barge of the towers or the far tier: a store's write, or a load's line from L1 or its home (R249, R254, R261). -/
def State.requestAt (s : State) (site : Nat) (a : Async) (r : Req) (x : Xlt) (parts : List (Nat × List Byte)) : State :=
  let p := s.spire site
  let spec := s.specOf site
  let phys := x.frame + (r.barge - x.va)
  let tag := p.mover.nextTag
  let (dk, dest) := s.homeDest phys
  if a.op.isStore then
    if x.w then (s.modMover site (fun m => m.wrote phys parts)).sendWrites site a.seq r.barge phys (wrPackets site spec tag phys dk dest parts)
    else (let (row, addr) := a.lowRow [r] (fun _ => true); s.moverAddress site a.seq row addr)
  else
    match p.mover.l1.find? (fun l => l.addr == phys) with
    | some l =>
      let s := s.bump (R.SPR_L1_HIT site)
      let s := if l.prefetched then s.bump (R.SPR_PF_USED site) else s
      let s := s.modMover site (fun m => { m with l1 := l1Fill m.l1 l, streams := hitStreams m.streams x.va r.barge })
      s.setReq site a.seq r.barge (fun r => { r with st := .here, phys := phys, data := l.data })
    | none =>
      if p.wayFree phys = false then s.setReq site a.seq r.barge (fun r => { r with st := .way, phys := phys })
      else
        let s := s.bump (R.SPR_L1_MISS site)
        let s := s.modMover site (fun m => { m with
          nextTag := (m.nextTag + 1) % 65536, l1 := p.reserve phys,
          streams := if s.fld (R.SPR_MEM_CTL site) F.SPR_MEM_CTL_PF_EN = 1 then trainStreams m.streams x.va r.barge else m.streams })
        let s := s.setReq site a.seq r.barge (fun r => { r with st := .sent, tag := tag, phys := phys })
        s.inject (moverPkt 1 dk dest site spec tag phys 15 0 [])

/-- Take one request of an operation forward: its checks, its translation, and its home (R122, R193, R243, R257). A local-store window of the own spire is served at once. -/
def State.request (s : State) (site : Nat) (a : Async) (r : Req) : State :=
  let p := s.spire site
  let store := a.op.isStore
  let outside := fun (pc : Nat × Nat × Nat × Nat) => !inWindow (a.op.winOf pc.1) pc.2.1 pc.2.2.1
  let fault := fun (f : Nat × Nat × Nat × Nat → Bool) => let (row, addr) := a.lowRow [r] f; s.moverAddress site a.seq row addr
  let parts : Option (List (Nat × List Byte)) := if store then r.pieces.mapM (fun pc => (a.pieceBytes pc).map (fun b => (pc.2.1 % 512, b))) else some []
  match parts with
  | none => s
  | some parts =>
  if r.pieces.any outside then fault outside else
  match lsSite r.barge with
  | some k =>
    if k = site then
      (if store then (parts.foldl (fun s x => s.store (r.barge + x.1) x.2) s).setReq site a.seq r.barge (fun r => { r with st := .acked })
       else s.setReq site a.seq r.barge (fun x => { x with st := .here, data := s.load r.barge 512 }))
    else if s.enabled k = false || (store && s.specOf site != 0) then fault (fun _ => true)
    else
      let tag := p.mover.nextTag
      s.sendWrites site a.seq r.barge r.barge (if store then wrPackets site 0 tag r.barge 0 k parts else [moverPkt 1 0 k site 0 tag r.barge 15 0 []])
  | none =>
    if (s.specOn && inShadow r.barge) || inJournal r.barge || (store && s.specOf site != 0 && !isTower r.barge) then fault (fun _ => true) else
    match p.xlt r.barge with
    | none =>
      let first := !(p.mover.ops.any (fun o => o.reqs.any (fun q => q.st == .walking && q.barge / 65536 == r.barge / 65536)))
      let s := if first then s.bump (R.SPR_XLT_MISS site) else s
      s.setReq site a.seq r.barge (fun r => { r with st := .walking })
    | some x => s.requestAt site a r x parts

/-- A local-store window of the own site, which needs no slot (R243). -/
def Req.own (r : Req) (site : Nat) : Bool := lsSite r.barge == some site

/-- The next request to make, in order of issue and of rows (R122). -/
def Spire.nextReq (p : Spire) : Option (Async × Req) := p.mover.ops.findSome? (fun a => (a.reqs.find? (fun r => r.st == .todo)).map (fun r => (a, r)))

/-- Requests with a slot that wait for a way of L1 or have just been translated. -/
def Spire.ways (p : Spire) : List (Async × Req) := p.mover.ops.flatMap (fun a => (a.reqs.filter (fun r => r.st == .way)).map (fun r => (a, r)))

/-- SPR_SLOT_FULL counts the cycles with all 40 slots held (R277). -/
def State.noteSlots (s : State) (site : Nat) : State :=
  let p := s.spire site
  match p.mover.fullSince with
  | some f => if p.slots < 40 then (s.bump (R.SPR_SLOT_FULL site) (p.cycle - f)).modMover site (fun m => { m with fullSince := none }) else s
  | none => if 40 ≤ p.slots then s.modMover site (fun m => { m with fullSince := some p.cycle }) else s

/-- A form whose requests had to pause for slots goes on `n` cycles later: its rows, its requests, and its occupancy (R81, R122). -/
def Spire.lengthen (p : Spire) (seq n : Nat) : Spire :=
  { p with
    reads := p.reads.map (fun r => if r.seq = seq then { r with due := r.due + n } else r),
    mov := { p.mov with free := p.mov.free + n },
    mover := { p.mover with ops := p.mover.ops.map (fun a => if a.seq = seq then { a with reqs := a.reqs.map (fun r => if r.st = .todo then { r with due := r.due + n } else r) } else a) } }

/-- The mover's operation that has port M in the cycle the spire stands at, by its order of issue: a local form within its occupancy, or a copy to global memory with rows still to read (R119, R242). -/
def Spire.portOwner (p : Spire) : Option Nat :=
  match p.landings.find? (fun l => match l.mov with | some m => l.eng == 3 && Nat.blt (p.cycle + m.lat) (l.due + m.occ) | none => false) with
  | some l => some l.seq
  | none => (p.mover.ops.find? (fun a => a.op.form == .copyOut && p.reads.any (fun r => r.seq == a.seq))).map (fun a => a.seq)

/-- A remote request takes the cycle on port M: where the mover has the port, the request is one that has waited 7 cycles, and the mover's occupancy and landing are a cycle later (R81, R242; DEDUCED, notes/assumptions/130.md). -/
def Spire.takePort (p : Spire) : Spire :=
  match p.portOwner with
  | some q => let p := p.lengthen q 1; { p with landings := p.landings.map (fun l => if l.seq = q ∧ l.mov.isSome then { l with due := l.due + 1 } else l) }
  | none => p

/-- The mover makes requests: the spire runs its task, or a fault leaves what is issued to complete (R100). -/
def State.moves (s : State) (site : Nat) : Bool := s.spLive site || s.spState site == 4

/-- The requests that are due in the cycle the spire stands at, while slots are free (R122, R247). -/
def pumpReqs : Nat → Nat → State → State
  | 0, _, s => s
  | fuel + 1, site, s =>
    let p := s.spire site
    match p.nextReq with
    | some (a, r) =>
      if r.due ≤ p.cycle ∧ (p.slots < 40 ∨ r.own site) then
        let s := if r.due < p.cycle then s.modSpire site (fun p => p.lengthen a.seq (p.cycle - r.due)) else s
        pumpReqs fuel site (s.request site a r)
      else s
    | none => s

/-- Issue one prefetch of an untranslated barge whose translation and way are there. -/
def State.prefetchAt (s : State) (site va phys : Nat) : State :=
  let p := s.spire site
  if p.mover.l1.any (fun l => l.addr == phys) || p.mover.pre.any (fun y => y.addr == phys) then s
  else
    let tag := p.mover.nextTag
    let (dk, dest) := s.homeDest phys
    let s := s.modMover site (fun m => { m with nextTag := (m.nextTag + 1) % 65536, l1 := p.reserve phys, pre := m.pre ++ [{ tag := tag, addr := phys, gen := m.gen, va := va }] })
    (s.bump (R.SPR_PF_ISSUE site)).inject (moverPkt 1 dk dest site (s.specOf site) tag phys 15 0 [])

/-- The translated barge that a prefetch of `b` may request: none where R254 drops it. -/
def State.prefetchTo (s : State) (site b : Nat) : Option Nat :=
  if (lsSite b).isSome || (s.specOn && inShadow b) || inJournal b then none
  else match (s.spire site).xlt b with
    | none => none
    | some x => if x.nopf then none else some (x.frame + (b - x.va))

/-- The barges of a prefetch hint, while slots and ways are free (R247, R255). -/
def pumpHints : Nat → Nat → State → State
  | 0, _, s => s
  | fuel + 1, site, s =>
    let p := s.spire site
    match p.mover.hints with
    | [] => s
    | b :: rest =>
      match s.prefetchTo site b with
      | none => pumpHints fuel site ((s.bump (R.SPR_PF_DROP site)).modMover site (fun m => { m with hints := rest }))
      | some phys =>
        if p.slots < 40 ∧ p.wayFree phys then pumpHints fuel site ((s.prefetchAt site b phys).modMover site (fun m => { m with hints := rest }))
        else s

/-- What the mover may request in the cycle the spire stands at: what waits for a way, what is due, hints. -/
def State.pump (s : State) (site : Nat) : State :=
  if s.moves site = false then s else
  let s := (s.spire site).ways.foldl (fun s x =>
    match (s.spire site).mover.ops.find? (fun a => a.seq == x.1.seq) with
    | some a => s.request site a x.2
    | none => s) s
  let s := pumpReqs ((s.spire site).mover.ops.foldl (fun n a => n + a.reqs.length) 1) site s
  (pumpHints 17 site s).noteSlots site

/-! Start of an operation. -/

/-- Start an operation with its order of issue at cycle `t`, where the spire stands, its checks done (R78, R119, R123, R124): a local load reads its rows now, a store row by row through its occupancy, a
global form makes requests as its rows come. -/
def State.startMov (s : State) (site seq : Nat) (m : MovOp) (t : Nat) : State :=
  if m.global then
    let a : Async := { op := m, seq := seq, reqs := groupBarges m.isStore (fun i => t + m.rowCycle i) m.spans, rows := [], buf := [], gen := (s.spire site).mover.gen }
    s.modSpire site (fun p => { p with reads := p.reads ++ m.rowReads seq t, mover := { p.mover with ops := p.mover.ops ++ [a] } })
  else
    let at_ := fun (x : Nat × Nat × Nat) => s.load (lsBase site + x.2.1) x.2.2
    let writes := if m.isStore then [] else m.loadWrites ((m.spans.take m.rows).map at_) ((m.spans.drop m.rows).map at_)
    s.modSpire site (fun p => { p with
      reads := p.reads ++ m.rowReads seq t,
      landings := p.landings ++ [{ due := t + m.lat, seq := seq, eng := 3, qpos := m.qpos, writes := writes, sig := m.sig, flags := 0, ac := 0, ctxs := 0, mov := some m,
                                   iter := m.iter, haz := m.haz, trap := m.trap }] })

/-! Reissue (R102, R125, R194). -/

/-- The next operation to reissue may start: the mover runs again, and what was issued before has made its requests. -/
def State.redoReady (s : State) (site : Nat) : Bool :=
  let p := s.spire site
  p.mover.redo != [] && s.spState site == 1 && (p.mov.st == .run || p.mov.st == .wait || p.mov.st == .ended) && p.nextReq.isNone && Nat.blt p.slots 40

/-- Reissue the next abandoned operation from its first row, in the cycle the spire stands at, if it is due: its source tag is latched again, its occupancy taken, and an iteration counted (R92, R197). -/
def State.reissue (s : State) (site : Nat) : State :=
  let p := s.spire site
  match p.mover.redo with
  | [] => s
  | (q, m) :: rest =>
    if s.redoReady site = false ∨ p.cycle < p.mov.free then s
    else
      let m := { m with stag := if m.form = .accStore then m.stag else s.tagOp site m.t, haz := s.hazEn site }
      let s := s.modSpire site (fun p => { p with mov := { p.mov with free := p.cycle + m.occ + (if m.haz then 1 else 0) }, mover := { p.mover with redo := rest } })
      let s := if m.iter.isSome then s.bump (R.SPR_LOOP_ITER site) else s
      s.startMov site q m p.cycle

/-- The cycle in which the mover next does something by itself: a request that is due and has a slot, a hint, a reissue. -/
def State.movDue (s : State) (site : Nat) : Option Nat :=
  let p := s.spire site
  if s.moves site = false then none else
  match p.nextReq with
  | some (_, r) => if p.slots < 40 ∨ r.own site then some (max p.cycle r.due) else none
  | none => if s.redoReady site then some (max p.cycle p.mov.free) else none

end Sys2Proof.Machine
end

