-- ==== Sys2Proof/Machine/SpireRun.lean ====
section
/-!
DEFINITION. The run of a spire through its cycles: remote signals (R225 to R233), the updates of a cell in one cycle (R219), landings (R77, R82, R83),
store row reads (R124), waits (R75), and the issue of an instruction.
-/
namespace Sys2Proof.Machine

/-! Signals out (R225 to R228). -/

/-- The sync-group entry (R228): modules, canal group, cell. -/
def State.syncGroup (s : State) (k : Nat) : BitVec 128 := tget (fun _ => 0) s.syncGroups k

def groupModules (e : BitVec 128) : Nat := e.toNat % 2 ^ 64
def groupCanal (e : BitVec 128) : Nat := e.toNat / 2 ^ 64 % 256
def groupCell (e : BitVec 128) : Nat := e.toNat / 2 ^ 74 % 64

/-- A canal packet of a site without data. -/
def siteReq (tc typ dkind dest src tag : Nat) (p : SigPay) : CPkt :=
  { tc := tc, typ := typ, dkind := dkind, dest := dest, skind := 0, src := src, len := 0, spec := 0, qmask := 0, status := 0, tag := tag, addr := 0, sig := p, data := [], tree := false }

/-- The signal tag of a link SIG, with the site and engine that await its acknowledgement. -/
def State.takeSigTag (s : State) (site eng : Nat) : Nat × State :=
  let k := s.pod.nextTag
  (k, { s with pod := { s.pod with nextTag := (k + 1) % 65536, sigTags := s.pod.sigTags ++ [(k, 8 * site + eng)] } })

/-- One unicast signal of an engine (R225, R226): over the canal to a spire of the own module, over the links to another. The engine counts what is not yet delivered. -/
def State.sendSignal (s : State) (site eng m l : Nat) (p : SigPay) : State :=
  if some m = s.logicalOf s.position ∨ s.posOf m = some s.position then
    (match s.siteOf l with
     | some d => s.inject (siteReq 0 5 0 d site eng p)
     | none => s)
  else match s.posOf m with
    | some pos =>
      let (k, s) := s.takeSigTag site eng
      s.sendL (s.lpkt 0 pos k (.sig p false l)) (domeOf site)
    | none => s

/-- The module numbers that are members of a sync group. -/
def membersOf (e : BitVec 128) : List Nat := (List.range 64).filter (fun m => (groupModules e).testBit m)

/-- A multicast to a member module that cannot be delivered (R227): recorded with REASON 2, and a job fault. -/
def State.undelivered (s : State) (site g : Nat) : State :=
  let d := domeOf site
  let s := s.record (R.CNL_MC_STUCK d) F.CNL_MC_STUCK_VALID F.CNL_MC_STUCK_MORE
    [(F.CNL_MC_STUCK_REASON, 2), (F.CNL_MC_STUCK_CLASS, 0), (F.CNL_MC_STUCK_GROUP, g), (F.CNL_MC_STUCK_PORT, 0), (F.CNL_MC_STUCK_SITE, site), (F.CNL_MC_STUCK_TIME, s.stamp)]
  s.raise 0x0502 5 d 0 (s.reg (R.CNL_MC_STUCK d)).toNat 0

/-- One message of a multicast per member module (R228), with the cell of the group's entry; the number sent. A member that the logical map does not name cannot be reached (R227). -/
def State.sendMulticast (s : State) (site eng g : Nat) (p : SigPay) : Nat × State :=
  let e := s.syncGroup g
  let p := { p with cell := groupCell e }
  (((membersOf e).filter (fun m => (s.posOf m).isSome)).length, (membersOf e).foldl (fun s m =>
    match s.posOf m with
    | some pos =>
      if pos = s.position then s.inject (siteReq 0 7 2 (groupCanal e) site eng p)
      else (let (k, s) := s.takeSigTag site eng; s.sendL (s.lpkt 0 pos k (.sig p true g)) (domeOf site))
    | none => s.undelivered site g) s)

/-- Engine number of a wait and of its count of signals out. -/
def engOf : Nat → Engine
  | 0 => .matrix | 1 => .matrix | 2 => .vector | 3 => .mover | _ => .seq

def State.addOut (s : State) (site : Nat) (e : Engine) (n : Nat) : State :=
  s.modSpire site (fun p => let x := p.eng e; p.setEng e { x with out := x.out + n })

/-- A signal is delivered (condition S of R222). -/
def State.sigDelivered (s : State) (site : Nat) (e : Engine) : State :=
  s.modSpire site (fun p => let x := p.eng e; p.setEng e { x with out := x.out - 1 })

/-- The acknowledgement of a signal by its tag: 0 to 4 name an engine, 5 a home's release, which nothing awaits. -/
def State.sigDone (s : State) (site tag : Nat) : State := if tag < 5 then s.sigDelivered site (engOf tag) else s

/-! One cell in one cycle (R218, R219). -/

/-- COUNT plus n, saturating (R218). -/
def State.cellAdd (s : State) (site c n : Nat) : State :=
  let w := s.cell site c
  let v := fget w cCount + n
  let s := s.setCell site c (fset w cCount (min v 0xFFFF))
  if v ≤ 0xFFFF then s
  else (s.setReg (R.SPR_SYNC_SATHI site) (s.reg (R.SPR_SYNC_SATHI site) ||| BitVec.ofNat 64 (2 ^ c))).bump (R.SPR_SYNC_SATCNT site)

/-- COUNT minus n, saturating (R218). -/
def State.cellDec (s : State) (site c n : Nat) : State :=
  let w := s.cell site c
  let v := fget w cCount
  let s := s.setCell site c (fset w cCount (v - n))
  if n ≤ v then s
  else (s.setReg (R.SPR_SYNC_SATLO site) (s.reg (R.SPR_SYNC_SATLO site) ||| BitVec.ofNat 64 (2 ^ c))).bump (R.SPR_SYNC_SATCNT site)

/-- An update that finds its cell of another kind (R216, R229). -/
def State.wrongKind (s : State) (site : Nat) (u : CellUpd) : State :=
  if u.remote then s.remoteError site 1 u.cell u.omod u.ospire else s.spireFault site clSync u.eng 0 u.qpos 0 u.iter

def State.countIn (s : State) (site : Nat) (u : CellUpd) : State := if u.remote then s.bump (R.SPR_SYNC_SIGIN site) else s

/-- Step 1 of R219: the additions of a cell are summed and applied once. -/
def State.applyAdds (s : State) (site c : Nat) (us : List CellUpd) : State :=
  let adds := us.filterMap (fun u => match u.op with | .add n => some (u, n) | _ => none)
  if adds = [] then s
  else if s.cellIs site c 0 then
    (adds.foldl (fun s a => s.countIn site a.1) s).cellAdd site c (adds.foldl (fun n a => n + a.2) 0)
  else adds.foldl (fun s a => s.wrongKind site a.1) s

/-- End of a hold that R234 limits. -/
def State.endHold (s : State) (site c eng : Nat) : State :=
  s.modSpire site (fun p => { p with holds := p.holds.filter (fun h => !(h.cell == c && h.eng == eng)) })

def State.startHold (s : State) (site c eng ns : Nat) : State :=
  s.modSpire site (fun p => { p with holds := p.holds ++ [{ cell := c, eng := eng, since := ns, reached := false }] })

/-- The round of a home closes (R233): the release leaves in the next cycle; held arrivals open the next round. -/
def State.closeRound (s : State) (site c cyc : Nat) : State :=
  let w := s.cell site c
  let g := fget w cGen
  let held := fget w cHeld
  let w := fset (fset (fset w cGen (g + 1)) cCount held) cHeld 0
  let s := (s.setCell site c w).endHold site c 5
  let l := s.logical site
  let m := (s.logicalOf s.position).getD 0
  let (_, s) := s.sendMulticast site 5 (fget w cRgrp) { cell := 0, op := 3, n := 0, gen := g, origModule := m, origSpire := l }
  let s := s.bump (R.SPR_SYNC_SIGOUT site)
  if held = fget w cTarget ∧ held ≠ 0 then
    s.modSpire site (fun p => { p with upds := p.upds ++ [{ due := cyc + 1, cell := c, op := .close, eng := 5, qpos := 0, remote := false, omod := 0, ospire := 0 }] })
  else s

/-- Steps 2 to 6 of R219 for one update, takes apart. -/
def State.applyUpd (s : State) (site cyc : Nat) (u : CellUpd) : State :=
  let c := u.cell
  let w := s.cell site c
  match u.op with
  | .add _ => s
  | .dec n => if s.cellIs site c 0 then s.cellDec site c n else s.wrongKind site u
  | .fill => if s.cellIs site c 0 then (s.countIn site u).setCell site c (fset w cFull 1) else s.wrongKind site u
  | .drain => if s.cellIs site c 0 then s.setCell site c (fset w cFull 0) else s.wrongKind site u
  | .release g =>
    if s.cellIs site c 2 = false then s.wrongKind site u
    else
      let pend := fget w cPend
      if pend = 0 then s.remoteError site 4 c u.omod u.ospire
      else if g ≠ (fget w cGen + 4 - pend) % 4 then s.remoteError site 2 c u.omod u.ospire
      else (s.countIn site u).setCell site c (fset w cPend (pend - 1))
  | .barrive => if s.cellIs site c 2 then s.setCell site c (fset (fset w cGen (fget w cGen + 1)) cPend (fget w cPend + 1)) else s.wrongKind site u
  | .arrive g =>
    if s.cellIs site c 1 = false then s.wrongKind site u
    else
      let gen := fget w cGen
      if fget w cTarget = 0 then s.remoteError site 3 c u.omod u.ospire
      else if g = gen then
        let n := fget w cCount + 1
        let s := (s.countIn site u).setCell site c (fset w cCount n)
        if n = fget w cTarget then s.closeRound site c cyc else s
      else if g = (gen + 1) % 4 then
        let s := (s.countIn site u).setCell site c (fset w cHeld (fget w cHeld + 1))
        if fget w cHeld = 0 then s.startHold site c 5 (s.nsOf site cyc) else s
      else s.remoteError site 2 c u.omod u.ospire
  | .host v => s.setCell site c v
  | .close => s.closeRound site c cyc

/-- The place of an update in the order of R219; FILL before DRAIN is undone by the rule that a fill prevails, so fills come last. -/
def updRank : CellOp → Nat
  | .add _ => 0 | .dec _ => 3 | .drain => 4 | .fill => 5 | .release _ => 6 | .barrive => 7 | .arrive _ => 6 | .close => 6 | .host _ => 8

/-- The key of an update's place: decrements of one cycle in engine order, the others as they came. -/
def updKey (u : CellUpd) : Nat := 8 * updRank u.op + (match u.op with | .dec _ => u.eng | _ => 0)

/-- All updates that reach the cells in one cycle (R219). -/
def State.applyCycle (s : State) (site cyc : Nat) (us : List CellUpd) : State :=
  let cells := us.foldl (fun (l : List Nat) u => if l.contains u.cell then l else l ++ [u.cell]) []
  cells.foldl (fun s c =>
    let mine := us.filter (fun u => u.cell == c)
    let s := s.applyAdds site c mine
    let rest := sortOn updKey (mine.filter (fun u => updRank u.op != 0))
    rest.foldl (fun s u => s.applyUpd site cyc u) s) s

/-! Waits (R75, R217, R222, R231, R232). -/

/-- Writes of an engine issued before an order of issue that are not complete (condition W of R222): fixed-latency writes that have not landed; of the mover its loads, stores and copies, those abandoned
included. -/
def Spire.writesOut (p : Spire) (e : Engine) (before : Nat) : Bool :=
  p.landings.any (fun l => engOf l.eng == e && (l.writes != [] || l.mov != none) && Nat.blt l.seq before)
    || (e == .mover && (p.mover.ops.any (fun a => Nat.blt a.seq before) || (p.mover.abandoned ++ p.mover.redo).any (fun x => Nat.blt x.1 before)))

/-- A wait's condition holds as the cell stands. -/
def State.waitHolds (s : State) (site : Nat) (e : Engine) (w : Wait) : Bool :=
  let p := s.spire site
  match w with
  | .full c => fget (s.cell site c) cFull == 1
  | .empty c => fget (s.cell site c) cFull == 0
  | .ge c n => Nat.ble n (fget (s.cell site c) cCount)
  | .take c n => Nat.ble n (fget (s.cell site c) cCount)
  | .gate c n => Nat.ble n (fget (s.cell site c) cCount)
  | .pend c k => Nat.ble (fget (s.cell site c) cPend) k
  | .arrive c => Nat.blt (fget (s.cell site c) cPend) 2
  | .fence w sg before _ => (!w || !p.writesOut e before) && (!sg || (p.eng e).out == 0)

/-- Engines held on a wait that now holds resume 2 cycles after cycle `cyc`. -/
def State.wake (s : State) (site cyc : Nat) : State :=
  allEngines.foldl (fun s e =>
    let x := (s.spire site).eng e
    match x.st, x.wait, x.resume with
    | .wait, some w, none =>
      let c := match w with | .fence _ _ _ a => max cyc a | _ => cyc
      if s.waitHolds site e w then s.modSpire site (fun p => p.setEng e { x with resume := some (c + 2) }) else s
    | _, _, _ => s) s

/-! Landings (R77, R82, R83, R91). -/

/-- A resource that hazard-check mode tracks: type (0 operand tile, 1 accumulator, 2 vector register, 3 scalar, and beyond R113 mask, descriptor, local store) and index. -/
abbrev Res := Nat × Nat

def wrRes : SWr → Option Res
  | .tile t _ _ _ => some (0, t)
  | .scale t _ _ _ => some (0, t)
  | .acc a _ _ _ => some (1, a)
  | .vec v _ _ => some (2, v)
  | .kmask _ _ _ => none
  | .desc _ _ _ => none
  | .scal x _ => some (3, x)
  | .tagOp t _ => some (0, t)
  | .tagAcc a _ => some (1, a)
  | .ls _ _ => none

def Landing.targets (l : Landing) : List Res := (l.writes.filterMap wrRes).eraseDups

/-- Record a hazard (R91, R113). -/
def State.hazard (s : State) (site kind reader writer : Nat) (r : Res) (qpos : Nat) : State :=
  let s := s.bump (R.SPR_HAZ_COUNT site)
  s.record (R.SPR_HAZ_FIRST site) F.SPR_HAZ_FIRST_VALID F.SPR_HAZ_FIRST_MORE
    [(F.SPR_HAZ_FIRST_KIND, kind), (F.SPR_HAZ_FIRST_READER, reader), (F.SPR_HAZ_FIRST_WRITER, writer), (F.SPR_HAZ_FIRST_RESTYPE, r.1), (F.SPR_HAZ_FIRST_INDEX, r.2), (F.SPR_HAZ_FIRST_QPOS, qpos)]

/-- The destination a residue record names in TILE (R71, R199): the accumulator of the array, the register of the vector engine; of a tile row its tile, of a scatter nothing. -/
def Landing.destination (l : Landing) : Nat :=
  if l.eng < 2 then l.ac
  else match l.writes with
    | .vec d _ _ :: _ => d
    | .kmask d _ _ :: _ => d
    | .tile t _ _ _ :: _ => t
    | _ => 0

/-- The update of an attached signal. -/
def sigOp (g : AttSig) : CellOp := match g.op with | .add => .add g.n | .dec => .dec g.n | .fill => .fill | .drain => .drain

/-- A residue mismatch (R70, R71): counted, recorded, and an arithmetic fault. -/
def State.residueFault (s : State) (site : Nat) (l : Landing) (r : Rsd) : State :=
  let s := s.bump (R.SPR_RSD_COUNT site)
  let s := s.record (R.SPR_RSD_LOG site) F.SPR_RSD_LOG_VALID F.SPR_RSD_LOG_MORE
    [(F.SPR_RSD_LOG_ENGINE, l.eng), (F.SPR_RSD_LOG_POINT, r.point), (F.SPR_RSD_LOG_TILE, l.destination), (F.SPR_RSD_LOG_ROW, r.row), (F.SPR_RSD_LOG_COL, r.col),
     (F.SPR_RSD_LOG_EXPECTED, r.expected), (F.SPR_RSD_LOG_OBSERVED, r.observed), (F.SPR_RSD_LOG_QPOS, l.qpos)]
  s.spireFault site clArithmetic l.eng 0 l.qpos 0 l.iter 0x0202

/-- The array results that chain on an abandoned one, in its contexts (R80, R134), land nothing either: a later accumulating instruction on the same accumulator is one, and what chains on that; an
overwriting one is not, and what follows chains on it. They keep their flags (R61). `bad` are the contexts whose accumulator is abandoned. -/
def abandonChain (ac : Nat) : List Landing → Nat → List Landing
  | [], _ => []
  | l :: rest, bad =>
    if l.ctxs = 0 ∨ l.ac ≠ ac then l :: abandonChain ac rest bad
    else if l.acc ∧ l.ctxs &&& bad ≠ 0 then { l with writes := [], sig := none, rsd := none } :: abandonChain ac rest (bad ||| l.ctxs)
    else if l.acc then l :: abandonChain ac rest bad
    else l :: abandonChain ac rest (bad &&& (3 - l.ctxs))

/-- Whether a landing's residue check finds a mismatch: one of the datapath itself, or that of an armed corruption, which this result takes (R70, R73). -/
def State.mismatch (s : State) (site : Nat) (l : Landing) : Option Rsd × State :=
  if !l.bad && (s.spire site).inject != some l.eng then (none, s)
  else match l.rsd with
    | none => (none, s)
    | some r => (some r, if l.bad then s else s.modSpire site (fun p => { p with inject := none }))

/-- Apply a landing: its flags, its writes whole, its signal in this cycle (R61, R77, R85). A result whose residue does not match is a residue fault and lands nothing; the array results that chain on it
land nothing either (R70, R134). That all elements of a fixed-latency instruction are formed in its landing cycle is the model's choice (DESIGN CHOICE, notes/assumptions/108.md). -/
def State.land (s : State) (site cyc : Nat) (l : Landing) : State :=
  let s := s.orFlags site l.flags
  match s.mismatch site l with
  | (some r, s) =>
    let s := if l.ctxs = 0 then s else s.modSpire site (fun p => { p with
      landings := abandonChain l.ac (sortOn Landing.seq (p.landings.filter (fun x => Nat.blt l.seq x.seq))) l.ctxs ++ p.landings.filter (fun x => !Nat.blt l.seq x.seq) })
    s.residueFault site l r
  | (none, s) =>
    let s := s.applyWrs site l.writes
    let ds := l.writes.filterMap (fun w => match w with | .desc d _ m => some (d, m) | _ => none)
    let s := if ds = [] then s else s.modSpire site (fun p => { p with descs := p.descs ++ ds })
    match l.sig with
    | some g => s.modSpire site (fun p => { p with upds := p.upds ++ [{ due := cyc, cell := g.cell, op := sigOp g, eng := l.eng, qpos := l.qpos, remote := false, omod := 0, ospire := 0, iter := l.iter }] })
    | none => s

/-- Engine order of landings in one cycle (R83): matrix, vector, mover, sequencer. -/
def landRank (l : Landing) : Nat := (if l.eng ≤ 1 then 0 else l.eng) * 2 ^ 40 + l.seq

/-- Two landings touch one bit of the same destination: the two halves of a split pair do not collide (R133). -/
def collide (a b : Landing) : Bool :=
  a.targets.any (fun r => b.targets.contains r) && !(a.ctxs != 0 && b.ctxs != 0 && a.ctxs &&& b.ctxs == 0)

/-- The landings of a cycle, in order. A landing on a tile on which another engine lands in this cycle is applied one cycle later (R83); one of the same engine prevails (R82).
A collision is counted in hazard-check mode as of the later one's issue (R91, R109); in a spire that still runs it is trapped as that one's fault (R93), after which what is in flight lands (R100). -/
def State.landAll (s : State) (site cyc : Nat) : List Landing → List Landing → State
  | [], _ => s
  | l :: rest, done =>
    match done.find? (fun d => collide d l) with
    | none => State.landAll (s.land site cyc l) site cyc rest (done ++ [l])
    | some d =>
      let r := ((l.targets.filter (fun r => d.targets.contains r)).head?).getD (0, 0)
      let s := if l.haz then s.hazard site 1 l.eng d.eng r l.qpos else s
      if l.haz && l.trap && s.spLive site then State.landAll (s.spireFault site clHazard l.eng 0 l.qpos 0 l.iter) site cyc rest done
      else if engOf d.eng = engOf l.eng ∨ (r.1 ≠ 0 ∧ r.1 ≠ 1) then State.landAll (s.land site cyc l) site cyc rest (done ++ [l])
      else State.landAll (s.modSpire site (fun p => { p with landings := p.landings ++ [{ l with due := cyc + 1 }] })) site cyc rest done

/-! Takes and arrivals of held engines. -/

/-- Apply the additions that reach a cell up to cycle `t`, as a take at `t` finds them (R219 step 2); the spire already stands at `t`. -/
def State.flushAdds (s : State) (site c t : Nat) : State :=
  let p := s.spire site
  let isAdd := fun (u : CellUpd) => u.cell == c && Nat.ble u.due t && (match u.op with | .add _ => true | _ => false)
  let us := p.upds.filter isAdd
  (s.modSpire site (fun p => { p with upds := p.upds.filter (fun u => !isAdd u) })).applyAdds site c us

/-- A take of n in cycle `t`, if COUNT allows: whether it was applied. -/
def State.tryTake (s : State) (site c n t : Nat) : Bool × State :=
  let s := s.flushAdds site c t
  if n ≤ fget (s.cell site c) cCount then (true, s.setCell site c (fset (s.cell site c) cCount (fget (s.cell site c) cCount - n))) else (false, s)

/-- Push a cell update of an engine of this spire. -/
def State.pushUpd (s : State) (site due cell : Nat) (op : CellOp) (eng qpos : Nat) (iter : Option Nat := none) : State :=
  s.modSpire site (fun p => { p with upds := p.upds ++ [{ due := due, cell := cell, op := op, eng := eng, qpos := qpos, remote := false, omod := 0, ospire := 0, iter := iter }] })

/-- The arrival of BARRIVE on cell c at cycle t (R231): GEN and PEND move, the arrival goes to the home. -/
def State.sendArrival (s : State) (site : Nat) (e : Engine) (c t qpos : Nat) : State :=
  let w := s.cell site c
  let m := (s.logicalOf s.position).getD 0
  let p : SigPay := { cell := fget w cHcell, op := 2, n := 0, gen := fget w cGen, origModule := m, origSpire := s.logical site }
  let s := s.pushUpd site t c .barrive (engNo e) qpos
  ((s.sendSignal site (engNo e) (fget w cHmod) (fget w cHspire) p).addOut site e 1).bump (R.SPR_SYNC_SIGOUT site)

/-- A held instruction issues and its engine runs again: its next issue is at cycle `r` at the earliest. The vector engine counts it (R213), the matrix engine's split instructions follow it (R132). -/
def State.goOn (s : State) (site : Nat) (e : Engine) (r : Nat) : State :=
  let s := s.modSpire site (fun p =>
    let x := p.eng e
    let p := if e = .matrix then { p with matNext := max p.matNext r } else p
    p.setEng e { x with st := .run, wait := none, resume := none, free := max x.free r })
  if e = .vector then s.bump (R.SPR_VEC_ISSUE site) else s

/-- An engine whose take came too late goes on waiting. -/
def State.stay (s : State) (site : Nat) (e : Engine) : State :=
  s.modSpire site (fun p => let x := p.eng e; p.setEng e { x with resume := none })

/-- A gate's take happened: the iteration may end. -/
def State.gateTaken (s : State) (site : Nat) (e : Engine) : State :=
  s.modSpire site (fun p => let x := p.eng e; p.setEng e { x with loop := x.loop.map (fun l => { l with gateTaken := true }) })

/-- The iteration an engine's loop stands at (R196). -/
def Eng.iter (x : Eng) : Option Nat := x.loop.map (·.next)

/-- What a held instruction does in its cycle of resumption `r`, having waited `held` cycles. The kind of its cell is checked as it acts (R216); a take or an arrival that finds no room waits on
(R219, R231). In hazard-check mode an instruction, though not a loop's gate, takes one cycle more (R92). -/
def State.resumeWith (s : State) (site : Nat) (e : Engine) (w : Wait) (r held : Nat) : State :=
  let x := (s.spire site).eng e
  let q := x.qpos - 1
  let r' := r + (if s.hazEn site then 1 else 0)
  match w with
  | .take c n =>
    if s.cellIs site c 0 = false then s.spireFault site clSync (engNo e) 0 q 0
    else
      let y := s.tryTake site c n r
      if y.1 then (y.2.countHeld site w held).goOn site e r' else y.2.stay site e
  | .gate c n =>
    if s.cellIs site c 0 = false then s.spireFault site clSync (engNo e) 0 q 0 x.iter
    else
      let y := s.tryTake site c n r
      if y.1 then ((y.2.countHeld site w held).goOn site e r).gateTaken site e else y.2.stay site e
  | .arrive c =>
    if s.cellIs site c 2 = false then s.spireFault site clSync (engNo e) 0 q 0
    else if fget (s.cell site c) cPend < 2 then (((s.countHeld site w held).goOn site e (r' + 1)).sendArrival site e c r q).endHold site c (engNo e)
    else s.stay site e
  | _ => (s.countHeld site w held).goOn site e r'

/-- Held engines whose cycle of resumption has come act, in engine order (R75, R219). -/
def State.resumeDue (s : State) (site c : Nat) : State :=
  allEngines.foldl (fun s e =>
    let x := (s.spire site).eng e
    match x.st, x.wait, x.resume with
    | .wait, some w, some r => if r ≤ c ∧ s.spState site = 1 then s.resumeWith site e w c (c - x.since) else s
    | _, _, _ => s) s

/-! The clock. -/

/-- The cycles in which held engines resume. -/
def Spire.resumes (p : Spire) : List Nat := allEngines.filterMap (fun e => if (p.eng e).st = .wait then (p.eng e).resume else none)

/-- The cycle of the next thing to happen in a spire: a landing, a row read, a cell update, a resumption, a request or reissue of the mover. -/
def State.nextDue (s : State) (site : Nat) : Option Nat :=
  let p := s.spire site
  (p.landings.map (·.due) ++ p.reads.map (·.due) ++ p.upds.map (·.due) ++ (if s.spState site = 1 then p.resumes else []) ++ (s.movDue site).toList).min?

/-- The spire stands at cycle `c`, never earlier than it did; what landings wrote into descriptors is known for the cycle it stands at (R191). -/
def Spire.stand (p : Spire) (c : Nat) : Spire := { p with cycle := max c p.cycle, descs := if p.cycle < c then [] else p.descs }

/-- Everything of one cycle: landings, reissues, row reads, requests, resumptions; if `full`, the updates of the cycle and the waits they satisfy, which ends the cycle. -/
def State.runCycle (s : State) (site c : Nat) (full : Bool) : State :=
  let c := max c (s.spire site).cycle
  let p := s.spire site
  let ls := sortOn landRank (p.landings.filter (fun l => Nat.ble l.due c))
  let s := s.modSpire site (fun p => { p.stand c with landings := p.landings.filter (fun l => !Nat.ble l.due c) })
  let s := (s.landAll site c ls []).reissue site
  let rs := (s.spire site).reads.filter (fun r => Nat.ble r.due c)
  let s := s.modSpire site (fun p => { p with reads := p.reads.filter (fun r => !Nat.ble r.due c) })
  let s := (rs.foldl (fun s r => s.readRow site r) s).pump site
  let s := s.resumeDue site c
  let late := fun (u : CellUpd) => if full then Nat.ble u.due c else Nat.blt u.due c
  let us := (s.spire site).upds.filter late
  let s := s.modSpire site (fun p => { p with upds := p.upds.filter (fun u => !late u) })
  let s := s.applyCycle site c us
  if full then (s.wake site c).modSpire site (fun p => p.stand (c + 1)) else s

/-- Run the events before cycle `t`, whole cycle by whole cycle. -/
def runBefore : Nat → Nat → Nat → State → State
  | 0, _, _, s => s
  | fuel + 1, site, t, s =>
    match s.nextDue site with
    | some c => if c < t then runBefore fuel site t (s.runCycle site c true) else s
    | none => s

/-- More cycles than can hold something to do in a spire without a further instruction. -/
def Spire.busyCycles (p : Spire) : Nat :=
  4 * (p.landings.length + p.reads.length + p.upds.length + (p.mover.ops.map (fun a => a.reqs.length)).sum) + 1200 * p.mover.redo.length + 80

/-- The spire stands at cycle `t` (never earlier than it does): every event before `t` has happened, and the landings of `t`, which an instruction issuing at `t` sees (R77);
the updates of `t` are seen from `t + 1` (R217). -/
def State.runTo (s : State) (site t : Nat) : State :=
  let p := s.spire site
  let t := max t p.cycle
  let s := runBefore p.busyCycles site t s
  s.runCycle site t false

/-- Run whole cycles until no cell update is to come: a spire's cells as they settle (R219, R221, R233). -/
def settleUpds : Nat → Nat → State → State
  | 0, _, s => s
  | fuel + 1, site, s =>
    if (s.spire site).upds = [] then s
    else match s.nextDue site with
      | some c => settleUpds fuel site (s.runCycle site c true)
      | none => s

def State.settleCells (s : State) (site : Nat) : State := settleUpds (s.spire site).busyCycles site s

/-! Resuming a held engine. -/

/-- A held engine goes on if its cycle of resumption is known: the spire runs to it. -/
def State.resumeEngine (s : State) (site : Nat) (e : Engine) : State :=
  match ((s.spire site).eng e).wait, ((s.spire site).eng e).resume with
  | some _, some r => s.runTo site r
  | _, _ => s

/-- Run the spire's own events until engine `e` is no longer held or nothing is to come. -/
def runForResume : Nat → Nat → Engine → State → State
  | 0, _, _, s => s
  | fuel + 1, site, e, s =>
    if ((s.spire site).eng e).st ≠ .wait then s else
    match s.nextDue site with
    | some c => runForResume fuel site e (s.runCycle site c true)
    | none => s.wake site (s.spire site).cycle

/-! Issue. -/

/-- The earliest cycle at which an engine issues. -/
def Spire.issueAt (p : Spire) (e : Engine) : Nat := max p.cycle (p.eng e).free

/-- The engine issues (R75): it runs and the spire runs its task, or it still may in the cycle in which another engine's fault stopped the spire (R105). -/
def State.issuing (s : State) (site : Nat) (e : Engine) : Bool :=
  let p := s.spire site
  let x := p.eng e
  (s.spState site == 1 && x.st == .run) || (s.spState site == 4 && x.st == .stop && x.last && p.stopAt == some p.cycle && Nat.ble x.free p.cycle)

/-- The engine may take a next instruction (R75): its queue holds one, and no loop of its own is in progress. -/
def State.canIssue (s : State) (site : Nat) (e : Engine) : Bool :=
  let x := (s.spire site).eng e
  s.issuing site e && x.loop.isNone && Nat.blt 0 x.queue

/-- The mover is not past its occupancy while requests of it are still to be made or reissues to come, and it pauses while all barge slots are held (R75, R122, R247). -/
def State.slotsFree (s : State) (site : Nat) (e : Engine) : Bool :=
  let p := s.spire site
  e != .mover || (p.nextReq.isNone && p.mover.redo == [] && p.mover.hints == [] && Nat.blt p.slots 40)

/-- The engine takes its next instruction in the cycle the spire stands at. -/
def State.takes (s : State) (site : Nat) (e : Engine) : Bool := s.canIssue site e && s.slotsFree site e

/-- A tile that an asynchronous load will write. -/
def Async.target (a : Async) : Option Res :=
  match a.op.form with
  | .load | .loadScale | .transposed => some (0, a.op.t)
  | .accLoad => some (1, a.op.t)
  | _ => none

/-- Early reads are counted, each resource once, and the first of a trap faults the reader: the state and whether the instruction goes on. Of several landings pending on a resource WRITER names the first
issued of fixed latency, and the mover's outstanding load only where there is none (DESIGN CHOICE, notes/assumptions/112.md). -/
def State.earlyReads (s : State) (site eng qpos : Nat) (reads : List Res) (skip : Landing → Bool) (iter : Option Nat := none) : Bool × State :=
  if s.hazEn site = false then (true, s) else
  let p := s.spire site
  let hits := reads.eraseDups.filterMap (fun r =>
    match p.landings.find? (fun l => !skip l && l.targets.contains r) with
    | some l => some (r, l.eng)
    | none => if p.mover.ops.any (fun a => a.target == some r) then some (r, 3) else none)
  if hits = [] then (true, s)
  else
    let s := hits.foldl (fun s h => s.hazard site 0 eng h.2 h.1 qpos) s
    if s.fld (R.SPR_CTL site) F.SPR_CTL_HAZ_TRAP = 1 then (false, s.spireFault site clHazard eng 0 qpos 0 iter) else (true, s)

/-- The attached signal's cell must exist and be PLAIN at issue; a release signal belongs to the matrix and vector engines (R85, R216). -/
def State.sigOk (s : State) (site : Nat) (g : Option AttSig) : Bool :=
  match g with | some a => s.cellIs site a.cell 0 | none => true

def sigForm (e : Engine) (g : Option AttSig) : Bool :=
  match g with
  | some a => (!a.release || e == .matrix || e == .vector) && (match a.op with | .add | .dec => Nat.ble 1 a.n && Nat.ble a.n 65535 | _ => true)
  | none => true

/-- The update of an attached signal is on its way. -/
def State.pushSig (s : State) (site due eng qpos : Nat) (g : Option AttSig) (iter : Option Nat := none) : State :=
  match g with | some a => s.pushUpd site due a.cell (sigOp a) eng qpos iter | none => s

/-- The landing signal of an instruction; a release signal is none. -/
def landSig (g : Option AttSig) : Option AttSig := match g with | some a => if a.release then none else some a | none => none

/-- The release signal. -/
def relSig (g : Option AttSig) : Option AttSig := match g with | some a => if a.release then some a else none | none => none

/-- The instruction at cycle `t` has issued: position, instruction queue, and the engine's next issue (R75, R92). -/
def State.issued (s : State) (site : Nat) (e : Engine) (t occ : Nat) : State :=
  let extra := if s.hazEn site then 1 else 0
  s.modSpire site (fun p =>
    let x := p.eng e
    let p := if e = .matrix then { p with matNext := t + occ + extra } else p
    p.setEng e { x with free := t + occ + extra, qpos := x.qpos + 1, pc := x.pc + 1, queue := x.queue - 1 })

/-- A sequence number in order of issue. -/
def State.nextSeq (s : State) (site : Nat) : Nat × State :=
  ((s.spire site).seq, s.modSpire site (fun p => { p with seq := p.seq + 1 }))

/-! Residues (R67, R68, R71, R73). -/

/-- A choice that the manual leaves open, by the order of issue of an instruction and its spire: the element that an armed corruption meets, and by how much the predicted residue is corrupted. -/
def residueChoice (site seq : Nat) : Nat := (Config.residue (1024 * seq + site)).toNat

/-- The predicted residue as an armed corruption leaves it: not the residue of the result (R73). -/
def corrupted (base predicted choice : Nat) : Nat := (predicted + 1 + choice % (base - 1)) % base

/-- The significand of a code with its hidden bit; an INT8 code as it stands. -/
def Fmt.significand (f : Fmt) (code : Nat) : Nat :=
  match f.special with
  | .int8 => code
  | _ => let mag := code % 2 ^ (f.width - 1); if mag / 2 ^ f.mant = 0 then mag else 2 ^ f.mant + mag % 2 ^ f.mant

/-- What an instruction of fixed latency does at issue: occupancy, latency (0: no landing), writes, flags, what it reads, whether it forms a result that the residue check covers, the check's point (R212), the format of its
elements, how many there are over the 64 lanes and the bit at which the first stands in its destination; of a scatter the lanes of its writes. -/
structure Effect where
  occ : Nat
  lat : Nat
  writes : List SWr
  flags : Nat
  reads : List Res
  result : Bool
  point : Nat := 2
  fmt : Fmt := fmtFp32
  elems : Nat := 64
  first : Nat := 0
  lanes : List Nat := []
  deriving DecidableEq, Repr

/-- The results that an instruction of the vector engine forms (R200: of unmasked lanes only), each with its lane. -/
def Effect.formed (x : Effect) : List (Nat × Nat) :=
  let w := if x.point = 2 then x.fmt.width else 32
  let packed := fun (data mask : Nat) => ((List.range x.elems).filter (fun i => elemAt (mask / 2 ^ x.first) w i != 0)).map (fun i => (i * 64 / x.elems, elemAt (data / 2 ^ x.first) w i))
  match x.writes with
  | .vec _ d m :: _ => packed d.toNat m.toNat
  | .tile _ _ d m :: _ => packed d.toNat m.toNat
  | .kmask _ d m :: _ => ((List.range 64).filter (fun l => m.getLsbD l)).map (fun l => (l, if d.getLsbD l then 1 else 0))
  | ws => x.lanes.zip (ws.map (fun w => match w with | .ls _ bs => natLE bs | _ => 0))

/-- The vector engine's check of one result (R68, R71): the lane is one of those the instruction forms, POINT 1 an integer result and 2 a significand, modulo 3. What the operands predict is the residue of the
result that they form, until a corruption. -/
def Effect.check (x : Effect) (choice : Nat) : Option Rsd :=
  if x.result = false then none else
  match x.formed with
  | [] => none
  | first :: _ =>
    let (l, v) := x.formed.getD (choice % x.formed.length) first
    let o := (if x.point = 2 then x.fmt.significand v else v) % 3
    some { row := 0, col := l, point := x.point, expected := corrupted 3 o (choice / 2 ^ 16), observed := o }

/-- Issue an instruction of fixed latency on an engine (R75, R77, R85): prepare at its issue cycle, check its signal, its operands (`f` gives the effect or the class and address of the fault), its early reads,
then schedule its landing. -/
def State.issueFixed (s : State) (site : Nat) (e : Engine) (sig : Option AttSig) (f : State → Except (Nat × Nat) Effect) : State :=
  if s.canIssue site e = false then s else
  let t := (s.spire site).issueAt e
  let s := s.runTo site t
  if s.takes site e = false then s else
  let q := ((s.spire site).eng e).qpos
  let n := engNo e
  if sigForm e sig = false then s.spireFault site clIllegal n 0 q 0
  else if s.sigOk site sig = false then s.spireFault site clSync n 0 q 0
  else match f s with
    | .error (c, a) => s.spireFault site c n 0 q a
    | .ok x =>
      let (go, s) := s.earlyReads site n q x.reads (fun _ => false)
      if go = false then s else
      let (seq, s) := s.nextSeq site
      let s := s.modSpire site (fun p => { p with landings := p.landings ++
        (if x.lat = 0 then [] else [{ due := t + x.lat, seq := seq, eng := n, qpos := q, writes := x.writes, sig := landSig sig, flags := x.flags, ac := 0, ctxs := 0, mov := none,
                                      haz := s.hazEn site, trap := s.fld (R.SPR_CTL site) F.SPR_CTL_HAZ_TRAP == 1, rsd := x.check (residueChoice site seq) }]) })
      let s := if x.lat = 0 then s.pushSig site t n q (landSig sig) else s
      (s.pushSig site t n q (relSig sig)).issued site e t x.occ

/-- Bring a held engine to its resumption, if its wait is satisfied, before it takes its next instruction. -/
def State.ready (s : State) (site : Nat) (e : Engine) : State :=
  let x := (s.spire site).eng e
  if x.st = .wait ∧ x.resume.isSome ∧ x.loop.isNone then s.resumeEngine site e else s

end Sys2Proof.Machine
end

