-- ==== Sys2Proof/Machine/Mover.lean ====
section
/-!
DEFINITION. The mover's operations: their issue (R118 to R121), translation faults and reissue (R101 to R104, R125, R194), completion and responses (R87, R123, R183, R247 to R252), translation walks (R258 to R262) and
prefetch (R253 to R255).
-/
namespace Sys2Proof.Machine

/-! Issue of an operation. -/

/-- The checks of an operation at issue, and the class, row and address of a fault (R118, R121, R126 to R128, R193). -/
def State.movCheck (s : State) (site : Nat) (m : MovOp) : Option (Nat × Nat × Nat) :=
  if m.inRange = false then some (clIllegal, 0, 0)
  else if s.movFormat site m = false then some (clFormat, 0, 0)
  else match m.lsBad with
    | some (row, a) => some (clAddress, row, lsBase site + a)
    | none =>
      if m.global && m.win.isNone then some (clAddress, 0, m.base)
      else if m.global && m.scaleRowBytes != 0 && m.swin.isNone then some (clAddress, 32, m.sbase)
      else none

/-- What a load or store reads of tiles (R91). -/
def MovOp.reads (m : MovOp) : List Res :=
  match m.form with
  | .store => [(0, m.t)] | .storeScale => [(0, m.t)] | .accStore => [(1, m.t)] | _ => []

/-- Issue one operation (or iteration) at cycle `t`: whether it issued, and the state. -/
def State.movIssue (s : State) (site : Nat) (m : MovOp) (t : Nat) : Bool × State :=
  match s.movCheck site m with
  | some (c, row, a) => (false, s.spireFault site c 3 row m.qpos a m.iter)
  | none =>
    let (go, s) := s.earlyReads site 3 m.qpos m.reads (fun _ => false) m.iter
    if go = false then (false, s)
    else
      let (seq, s) := s.nextSeq site
      let s := s.startMov site seq m t
      (true, if m.global then s.pump site else s)

/-! Reissue. -/

/-- The mover goes on: what was abandoned is reissued, in order of issue, `first` at its head if it is among them; then issue continues (R102, R125, R194). -/
def State.restartMover (s : State) (site : Nat) (first : Option Nat) : State :=
  let p := s.spire site
  let t := max p.cycle (s.cycleAt site s.now)
  let (a, b) := p.mover.abandoned.partition (fun x => some x.1 == first)
  let s := s.modMover site (fun m => { m with abandoned := [], redo := a ++ b, faultAt := none, migr := false })
  let s := s.modSpire site (fun p => { p with mov := { p.mov with st := if p.mov.st = .ended then .ended else if p.mov.wait.isSome then .wait else .run, since := t, free := max p.mov.free t } })
  s.runTo site t

/-- SPR_FAULT of a spire is cleared (R101, R111): the record goes, with the address and the iteration that belong to it (DESIGN CHOICE, notes/assumptions/111.md). A mover that a TRANSLATION fault stopped
reissues what it abandoned, the faulting operation first; in a spire that is PAUSED it waits for the resume (R102). -/
def State.clearFault (s : State) (site : Nat) : State :=
  let s := ((s.setReg (R.SPR_FAULT site) 0).setReg (R.SPR_FAULT_ADDR site) 0).setReg (R.SPR_LOOP_FAULT site) 0
  let p := s.spire site
  if p.mov.st ≠ .transl then s
  else if s.spState site = 1 then s.restartMover site (some p.mover.faultSeq)
  else s.modSpire site (fun p => { p with mov := { p.mov with st := .stop }, mover := { p.mover with faultAt := none } })

/-! Completion. -/

/-- Rows of a load whose every piece is here. -/
def Async.rowHere (a : Async) (row : Nat) : Bool :=
  let ps := a.reqs.filter (fun r => r.pieces.any (fun pc => pc.1 == row))
  ps != [] && ps.all (fun r => r.st == .here)

/-- The bytes of a row of a load. -/
def Async.rowBytes (a : Async) (row : Nat) : List Byte :=
  (sortOn Prod.fst (a.reqs.flatMap (fun r => (r.pieces.filter (fun pc => pc.1 == row)).map (fun pc => (pc.2.2.2, (r.data.drop (pc.2.1 % 512)).take pc.2.2.1))))).flatMap Prod.snd

/-- GLOBAL_ROW_ARRIVAL (R123): a row of a load has arrived and is held until the last. -/
def execGlobalRowArrival (site seq row : Nat) (s : State) : Host.Outcome State Fault Refusal :=
  .next (s.modMover site (fun m => { m with ops := m.ops.map (fun a =>
    if a.seq = seq ∧ !a.op.isStore ∧ a.rowHere row ∧ !a.rows.contains row then { a with rows := a.rows ++ [row], buf := a.buf ++ [(row, a.rowBytes row)] } else a) }))

/-- An operation has completed: every row of a load is held, every barge of a store acknowledged. -/
def Async.complete (a : Async) : Bool :=
  if a.op.isStore then a.reqs.all (fun r => r.st == .acked) && a.reqs != []
  else a.op.spans.all (fun x => a.rows.contains x.1)

/-- An earlier iteration of the same looped instruction has not landed (R183). -/
def Spire.earlierIter (p : Spire) (a : Async) : Bool :=
  let before := fun (b : MovOp) => b.qpos == a.op.qpos && b.iter.isSome && Nat.blt (b.iter.getD 0) (a.op.iter.getD 0)
  a.op.iter.isSome && (p.mover.ops.any (fun b => before b.op) || (p.mover.abandoned ++ p.mover.redo).any (fun b => before b.2))

/-- MOVER_ASYNC_LANDING (R87, R183): an operation whose rows have all arrived, or whose writes are all acknowledged, lands whole and fires its signal, in a cycle of its own or with the other landings of that cycle (R82, R83, R91, R137). -/
def execMoverAsyncLanding (site seq : Nat) (s : State) : Host.Outcome State Fault Refusal :=
  let p := s.spire site
  match p.mover.ops.find? (fun a => a.seq == seq) with
  | some a =>
    if a.complete = false || p.earlierIter a then .next s
    else
      let c := max (p.cycle + 1) (s.cycleAt site s.now)
      let rows := fun (i : Nat) => ((a.buf.find? (fun (b : Nat × List Byte) => b.1 == i)).map Prod.snd).getD []
      let ws := if a.op.isStore then [] else a.op.loadWrites ((List.range a.op.rows).map rows) (if a.op.scaleRowBytes = 0 then [] else (List.range 32).map (fun i => rows (32 + i)))
      let l : Landing := { due := c, seq := seq, eng := 3, qpos := a.op.qpos, writes := ws, sig := a.op.sig, flags := 0, ac := 0, ctxs := 0, mov := none, iter := a.op.iter, haz := a.op.haz, trap := a.op.trap }
      let s := s.modSpire site (fun p => { p with landings := p.landings ++ [l], mover := { p.mover with ops := p.mover.ops.filter (fun x => x.seq != seq) } })
      .next ((s.runTo site c).wake site c)
  | none => .next s

/-! Responses. -/

/-- The spire stands at the cycle in which something from outside reaches it: it has run up to it. -/
def State.reach (s : State) (site : Nat) : State := s.runTo site (max (s.spire site).cycle (s.cycleAt site s.now))

/-- A read response for a demand request or a prefetch (R247, R249, R252): the slot is free; its line stays in L1 unless an acquire or a write of this spire came between. -/
def State.readData (s : State) (p : CPkt) : State :=
  let site := p.dest
  let s := s.reach site
  let m := (s.spire site).mover
  match m.pre.find? (fun x => x.tag == p.tag) with
  | some x =>
    let s := s.modMover site (fun m => { m with pre := m.pre.filter (fun y => y.tag != p.tag) })
    let s := if p.status = 0 ∧ x.gen = m.gen ∧ x.stale = false then s.modMover site (fun m => { m with l1 := l1Fill m.l1 { addr := x.addr, data := p.data, prefetched := true } })
             else s.bump (R.SPR_PF_DROP site)
    s.pump site
  | none =>
    match m.ops.findSome? (fun a => (a.reqs.find? (fun r => r.st == .sent && r.tag == p.tag && !a.op.isStore)).map (fun r => (a, r))) with
    | some (a, r) =>
      if p.status ≠ 0 then (let (row, addr) := a.lowRow [r] (fun _ => true); s.moverAddress site a.seq row addr)
      else
        let s := s.setReq site a.seq r.barge (fun r => { r with st := .here, data := p.data })
        let s := if (lsSite r.barge).isNone ∧ a.gen = m.gen ∧ r.stale = false then s.modMover site (fun m => { m with l1 := l1Fill m.l1 { addr := r.phys, data := p.data, prefetched := false } }) else s
        s.pump site
    | none => s

/-- A write acknowledgement (R222, R247). -/
def State.writeAck (s : State) (p : CPkt) : State :=
  let site := p.dest
  let s := s.reach site
  match (s.spire site).mover.ops.findSome? (fun a => (a.reqs.find? (fun r => r.st == .sent && r.tag == p.tag && a.op.isStore)).map (fun r => (a, r))) with
  | some (a, r) =>
    if p.status ≠ 0 then (let (row, addr) := a.lowRow [r] (fun _ => true); s.moverAddress site a.seq row addr)
    else
      let s := (s.setReq site a.seq r.barge (fun r => { r with left := r.left - 1, st := if r.left ≤ 1 then .acked else .sent })).pump site
      s.wake site (s.spire site).cycle
  | none => s

/-- TRANSLATION_WALK_COMPLETE (R258 to R261): the walk of a request's page ends in a cached translation, a TRANSLATION fault or an ADDRESS fault. Up to 64 translations are cached, the oldest going first.
A page that is not present faults at the lowest row that waits for it (R125). -/
def execTranslationWalkComplete (site seq barge : Nat) (s : State) : Host.Outcome State Fault Refusal :=
  let s := s.reach site
  let p := s.spire site
  match p.mover.ops.findSome? (fun a => if a.seq = seq then (a.reqs.find? (fun r => r.barge == barge && r.st == .walking)).map (fun r => (a, r)) else none) with
  | some (a, _) =>
    let (row, addr) := a.lowRow (a.reqs.filter (fun r => r.st == .walking && r.barge / 65536 == barge / 65536)) (fun _ => true)
    (match s.walk (s.xltRoot site) barge with
     | .page x =>
       let s := s.modMover site (fun m => { m with
         xlt := (m.xlt ++ [x]).drop (m.xlt.length + 1 - 64),
         ops := m.ops.map (fun o => { o with reqs := o.reqs.map (fun q => if q.st = .walking ∧ x.va ≤ q.barge ∧ q.barge < x.va + x.size then { q with st := .way } else q) }) })
       .next (s.pump site)
     | .missing migr => .next (s.moverTranslation site a.seq row addr migr)
     | .bad => .next (s.moverAddress site a.seq row addr))
  | none => .next s

/-! Prefetch (R253 to R255). -/

/-- PREFETCH_ISSUE (R253, R254): a trained stream requests its next barge, up to PF_DEPTH ahead, while PF_RESERVE slots are free. -/
def execPrefetchIssue (site k : Nat) (s : State) : Host.Outcome State Fault Refusal :=
  let s := s.reach site
  let p := s.spire site
  match p.mover.streams[k]? with
  | some x =>
    let depth := max 1 (min 16 (s.fld (R.SPR_MEM_CTL site) F.SPR_MEM_CTL_PF_DEPTH))
    let reserve := min 40 (s.fld (R.SPR_MEM_CTL site) F.SPR_MEM_CTL_PF_RESERVE)
    let ahead := if x.up then (x.next - x.last) / 512 else (x.last - x.next) / 512
    if x.trained && s.fld (R.SPR_MEM_CTL site) F.SPR_MEM_CTL_PF_EN == 1 && Nat.ble 1 ahead && Nat.ble ahead depth && Nat.ble (max 1 reserve) (40 - p.slots) then
      match s.prefetchTo site x.next with
      | some phys => if (s.spire site).wayFree phys = false then .next s else
        let s := s.prefetchAt site x.next phys
        .next ((s.modMover site (fun m => { m with streams := m.streams.mapIdx (fun i y => if i = k then { y with next := if y.up then y.next + 512 else y.next - 512 } else y) })).noteSlots site)
      | none =>
        let s := s.bump (R.SPR_PF_DROP site)
        .next ((s.modMover site (fun m => { m with streams := m.streams.mapIdx (fun i y => if i = k then { y with next := if y.up then y.next + 512 else y.next - 512 } else y) })).noteSlots site)
    else .next s
  | none => .next s

/-- PREFETCH_ARRIVAL (R252, R253): a prefetched barge arrives in L1; one from before an acquire is dropped. -/
def execPrefetchArrival (p : CPkt) (s : State) : Host.Outcome State Fault Refusal :=
  if s.canal.arrived.contains p && p.typ == 2 && (s.spire p.dest).mover.pre.any (fun x => x.tag == p.tag) then .next ((s.takeArrived p).readData p)
  else .next s

end Sys2Proof.Machine
end

