-- ==== Sys2Proof/Machine/Links.lean ====
section
/-!
DEFINITION. Links: frames, replay and credit (R348 to R357), bring-up (R358, R359), streams (R353), phases (R365 to R367) and the time base (R370 to R372).
-/
namespace Sys2Proof.Machine

/-! Link states. -/

/-- Enter a link state; the time is kept for its limits. -/
def State.enterLink (s : State) (n st : Nat) : State :=
  (s.setFld (R.LNK_STATUS n) F.LNK_STATUS_STATE st).setLink n { s.link n with since := s.now }

/-- LNK_ERR of a link (R381). -/
def State.linkErr (s : State) (n reason : Nat) : State :=
  s.record (R.LNK_ERR n) F.LNK_ERR_VALID F.LNK_ERR_MORE [(F.LNK_ERR_REASON, reason), (F.LNK_ERR_TIME, s.stamp)]

/-- RETRAIN: what is not acknowledged will be resent in order on return (R357). -/
def State.enterRetrain (s : State) (n : Nat) : State := ((s.enterLink n 5).bump (R.LNK_RETRAINS n))

/-- A rung 2 of a link that did not bring it back ends, and its command with RUNG_FAILED (R560). -/
def State.linkRungFails (s : State) (n : Nat) : State :=
  match s.reinit.find? (fun r => r.kind == 2 && r.index == n) with
  | none => s
  | some r =>
    let s := { s with reinit := s.reinit.erase r }
    match r.cmd with | some id => s.finishCmd id .rungFailed [] | none => s

/-- FAILED: recorded, and the job fault of R26 follows (R357). -/
def State.failLink (s : State) (n reason : Nat) : State :=
  let s := (s.enterLink n 6).linkErr n reason
  (s.raise 0x0402 4 n 0 (s.reg (R.LNK_ERR n)).toNat 0).linkRungFails n

/-- A write of LNK_CTL.EN (R358). -/
def State.writeLinkEnable (s : State) (n : Nat) (on : Bool) : State :=
  let s := s.setFld (R.LNK_CTL n) F.LNK_CTL_EN (if on then 1 else 0)
  if on then (if s.linkState n = 0 then (s.enterLink n 1).setLink n { s.link n with since := s.now, tries := 0 } else s) else s.enterLink n 0

/-- LINK_ENABLE_WRITE (R358). -/
def execLinkEnableWrite (n : Nat) (on : Bool) (s : State) : Host.Outcome State Fault Refusal := .next (s.writeLinkEnable n on)

/-- A write of LNK_CTL.RETRAIN (R357, R358): RETRAIN from ACTIVE, TRAIN from FAILED or MISWIRED; elsewhere no effect. -/
def State.writeRetrain (s : State) (n : Nat) : State :=
  match s.linkState n with
  | 4 => s.enterRetrain n
  | 6 => (s.enterLink n 1).setLink n { s.link n with since := s.now, tries := 0 }
  | 7 => (s.enterLink n 1).setLink n { s.link n with since := s.now, tries := 0 }
  | _ => s

/-- LINK_RETRAIN_REQUEST (R357). -/
def execLinkRetrainRequest (n : Nat) (s : State) : Host.Outcome State Fault Refusal := .next (s.writeRetrain n)

/-- LINK_RETRY_LIMIT (R357, R381): the replays of the window have reached RETRY_LIM; 0 disables. REASON 1 is recorded as the link enters RETRAIN (DEDUCED, notes/assumptions/132.md). -/
def execLinkRetryLimit (n : Nat) (s : State) : Host.Outcome State Fault Refusal :=
  let lim := s.fld (R.LNK_CTL n) F.LNK_CTL_RETRY_LIM
  .next (if s.linkState n = 4 ∧ lim ≠ 0 ∧ (s.link n).winCount ≥ lim then (s.linkErr n 1).enterRetrain n else s)

/-- LINK_TRAINING_COMPLETE (R358): TRAIN goes to ALIGN; RETRAIN keeps its state until IDENT ends it. -/
def execLinkTrainingComplete (n : Nat) (s : State) : Host.Outcome State Fault Refusal :=
  .next (if s.linkState n = 1 then s.enterLink n 2 else s)

/-- The IDENT packet this module sends on a link (R359). -/
def State.identBody (s : State) (n : Nat) : LBody :=
  .ident (s.fld R.LNK_POD_CFG F.LNK_POD_CFG_POD_ID) s.position n Config.serial.toNat

/-- Time moves to the end of a link state's limit (R13). -/
def State.atLimit (s : State) (n ns : Nat) : State := { s with now := max s.now ((s.link n).since + ns) }

/-- LINK_TRAIN_TIMEOUT (R358): 500 ms in TRAIN; FAILED with REASON 2. -/
def execLinkTrainTimeout (n : Nat) (s : State) : Host.Outcome State Fault Refusal :=
  .next (if s.linkState n = 1 then (s.atLimit n 500000000).failLink n 2 else s)

/-- LINK_ALIGN_TIMEOUT (R358): 1 ms in ALIGN; TRAIN again, at most three times, then FAILED with REASON 3. -/
def execLinkAlignTimeout (n : Nat) (s : State) : Host.Outcome State Fault Refusal :=
  .next (if s.linkState n = 2 then
    let s := s.atLimit n 1000000
    let t := (s.link n).tries
    if t ≥ 3 then s.failLink n 3 else (s.enterLink n 1).setLink n { s.link n with since := s.now, tries := t + 1 }
  else s)

/-- LINK_IDENT_TIMEOUT (R358): 100 µs in IDENT without a match; TRAIN. -/
def execLinkIdentTimeout (n : Nat) (s : State) : Host.Outcome State Fault Refusal :=
  .next (if s.linkState n = 3 then (s.atLimit n 100000).enterLink n 1 else s)

/-- LINK_RETRAIN_TIMEOUT (R358): 5 ms in RETRAIN; FAILED with REASON 6. -/
def execLinkRetrainTimeout (n : Nat) (s : State) : Host.Outcome State Fault Refusal :=
  .next (if s.linkState n = 5 then (s.atLimit n 5000000).failLink n 6 else s)

/-! Pod geometry (R360, R361). -/

/-- Dimensions of the pod; a dimension not configured counts as 1. -/
def State.dims (s : State) : Nat × Nat × Nat :=
  (max 1 (s.fld R.LNK_POD_CFG F.LNK_POD_CFG_DIMX), max 1 (s.fld R.LNK_POD_CFG F.LNK_POD_CFG_DIMY), max 1 (s.fld R.LNK_POD_CFG F.LNK_POD_CFG_DIMZ))

/-- The positions of the pod (R360). -/
def State.podSize (s : State) : Nat := if s.fld R.LNK_POD_CFG F.LNK_POD_CFG_TOPO = 0 then 1 else s.dims.1 * s.dims.2.1 * s.dims.2.2

/-- The neighbour of a position in a direction (R361). -/
def stepPos (dims : Nat × Nat × Nat) (p dir : Nat) : Nat :=
  let (dx, dy, dz) := dims
  let x := p % dx
  let y := p / dx % dy
  let z := p / (dx * dy)
  let f := fun (c d : Nat) => if dir % 2 = 0 then (c + 1) % d else (c + d - 1) % d
  match dir / 2 with
  | 0 => f x dx + dx * (y + dy * z)
  | 1 => x + dx * (f y dy + dy * z)
  | _ => x + dx * (y + dy * f z dz)

/-- The neighbour's position and link that R361 predicts. -/
def State.predicted (s : State) (n : Nat) : Nat × Nat :=
  let topo := s.fld R.LNK_POD_CFG F.LNK_POD_CFG_TOPO
  let g := groupsOf topo
  let k := linkGroup topo n
  let half := 24 / g
  (stepPos s.dims s.position k, n / 24 * 24 + half * (k ^^^ 1) + n % half)

/-! Time parent (R370, R371). -/

/-- The time master and phase home: the lowest position in service (R370, R371). -/
def State.master (s : State) : Nat := ((List.range s.podSize).find? (fun p => !s.pod.dead.contains p)).getD 0

/-- Hops of the default route to a position (R362: the shorter way round each ring). -/
def State.hops (s : State) (p q : Nat) : Nat :=
  let (dx, dy, dz) := s.dims
  let one := fun (a b d : Nat) => let f := (b + d - a) % d; min f (d - f)
  one (p % dx) (q % dx) dx + one (p / dx % dy) (q / dx % dy) dy + one (p / (dx * dy)) (q / (dx * dy)) dz

/-- PARENT_LINK and DEPTH (R370, R385): the lowest-numbered ACTIVE link of the group toward the master; 0 at the master. -/
def State.showParent (s : State) : State :=
  if s.master = s.position then s.setFlds R.LNK_TB_STATUS [(F.LNK_TB_STATUS_PARENT_LINK, 0), (F.LNK_TB_STATUS_DEPTH, 0)]
  else
    let dir := s.rtEntry s.bank 4 s.master / 2 ^ 13
    let topo := s.fld R.LNK_POD_CFG F.LNK_POD_CFG_TOPO
    let l := ((groupLinks topo dir 0 ++ groupLinks topo dir 1).find? (fun n => s.linkState n == 4)).getD 0
    s.setFlds R.LNK_TB_STATUS [(F.LNK_TB_STATUS_PARENT_LINK, l), (F.LNK_TB_STATUS_DEPTH, s.hops s.position s.master)]

/-- Leaving STANDBY ends when the links of the topology are ACTIVE and the time base is locked (R583). -/
def State.standbyLeft (s : State) : State :=
  match s.pwr.leaving with
  | none => s
  | some (id, _) =>
    let topo := s.fld R.LNK_POD_CFG F.LNK_POD_CFG_TOPO
    let ls := (List.range (groupsOf topo)).flatMap (fun k => groupLinks topo k 0 ++ groupLinks topo k 1)
    if ls.all (fun n => s.linkState n == 4) && s.fld R.LNK_TB_STATUS F.LNK_TB_STATUS_LOCKED == 1 then
      (({ s with pwr := { s.pwr with leaving := none } }).setFld R.PWR_STATUS F.PWR_STATUS_STATE 0).finishCmd id .ok []
    else s

/-- A link is ACTIVE again: a rung 2 of it is done, with its command (R560). -/
def State.linkUp (s : State) (n : Nat) : State :=
  match s.reinit.find? (fun r => r.kind == 2 && r.index == n) with
  | none => s.standbyLeft
  | some r =>
    let s := { s with reinit := s.reinit.erase r }
    (match r.cmd with | some id => s.finishCmd id .ok [] | none => s).standbyLeft

/-- The words of IDENT are the ones predicted: the link comes up. FSEQ and ACK start at zero the first time and are kept across RETRAIN, after which everything not
acknowledged is resent (R358). -/
def State.identified (s : State) (n : Nat) : State :=
  let s := s.enterLink n 4
  let l := s.link n
  s.setLink n (if l.wasActive then { l with resend := l.replay, tries := 0 }
    else { l with wasActive := true, txSeq := 0, rxSeq := 0, ack := 0, bad := false, replay := [], resend := [], used := [], owed := [], tries := 0 })

/-- The neighbour and the direction group of a link are shown (R359). -/
def State.showNeighbour (s : State) (n pos link : Nat) : State :=
  s.setFlds (R.LNK_STATUS n) [(F.LNK_STATUS_NB_POS, pos), (F.LNK_STATUS_NB_LINK, link),
    (F.LNK_STATUS_GROUP, linkGroup (s.fld R.LNK_POD_CFG F.LNK_POD_CFG_TOPO) n)]

/-- IDENT (R358, R359): a match brings the link up, and what waited for a link goes on (R226); a mismatch leaves it MISWIRED with REASON 5. -/
def execIdent (n : Nat) (p : LPkt) (s : State) : Host.Outcome State Fault Refusal :=
  match p.body with
  | .ident podId pos link _ =>
    if s.linkState n = 3 ∨ s.linkState n = 5 then
      let s := s.showNeighbour n pos link
      if podId == s.fld R.LNK_POD_CFG F.LNK_POD_CFG_POD_ID && (pos, link) == s.predicted n then
        let t := s.identified n
        .next (((if s.linkState n == 5 then t.note 0x0401 1 4 n (t.reg (R.LNK_RETRAINS n)).toNat 0 else t).showParent.linkUp n).releaseHeld)
      else .next ((s.enterLink n 7).linkErr n 5)
    else .next s
  | _ => .next s

/-! Sending frames (R350, R354 to R356). -/

/-- 32-byte units of a link packet: its header and payload (R351, R352). -/
def LPkt.units (p : LPkt) : Nat := match p.body with | .hcp _ => 17 | .hcpReply _ _ => 2 | _ => 1

/-- The whole packets that fit a 2 KiB PACKET frame, from the front of a queue, and the rest. -/
def takeFit : Nat → List Queued → List Queued × List Queued
  | _, [] => ([], [])
  | room, p :: r => if p.pkt.units ≤ room then (let (a, b) := takeFit (room - p.pkt.units) r; (p :: a, b)) else ([], p :: r)

/-- Credit at the neighbour (R354): the class and lane's own reserve frame, or one of the 32 shared. -/
def Link.credit (l : Link) (k : Nat) : Bool :=
  let u := fun i => tget (fun _ => 0) l.used i
  u k == 0 || Nat.ble (((List.range 8).map (fun i => u i - 1)).sum + 1) 32

/-- What a class has to send on a lane: its packets first, then stream data. -/
def Link.waiting (l : Link) (k : Nat) : Bool := (tfind l.pktq k).getD [] != [] || (tfind l.dataq k).getD [] != []

/-- The frame body a class and lane sends next, the link after it left its queue, and the parts of received frames that go on with it. -/
def Link.popFrame (l : Link) (k : Nat) : FrameBody × Link × List (Option (Nat × Nat)) :=
  let ps := (tfind l.pktq k).getD []
  if ps ≠ [] then
    let (a, b) := takeFit 64 ps
    (.packet (k / 2) (k % 2) (a.map (·.pkt)), { l with pktq := tinsert l.pktq k b }, a.map (·.piece))
  else match (tfind l.dataq k).getD [] with
    | d :: r => (.data d.ctx d.flits d.bytes, { l with dataq := tinsert l.dataq k r, txCtx := if d.last then l.txCtx.erase d.ctx else l.txCtx, txOwn := if d.last then terase l.txOwn d.ctx else l.txOwn }, [d.piece])
    | [] => (.idle, l, [])

/-- The quantum of a link class in frames; 0 acts as 1 (R383). -/
def State.lquantum (s : State) (c : Nat) : Nat :=
  max 1 (s.fld R.LNK_ARB_QUANTUM (match c with | 0 => F.LNK_ARB_QUANTUM_Q0 | 1 => F.LNK_ARB_QUANTUM_Q1 | 2 => F.LNK_ARB_QUANTUM_Q2 | _ => F.LNK_ARB_QUANTUM_Q3))

/-- Choose the class and lane by deficit round robin: the class in service while its deficit lasts, then the next that has a frame with credit; a deficit
is zero at the end of its turn (R355). `used` counts turns passed over. -/
def chooseClass (s : State) : Nat → Link → Option (Nat × Link)
  | 0, _ => none
  | fuel + 1, l =>
    let c := l.cls
    let d := tget (fun _ => 0) l.deficit c
    let k := [c * 2, c * 2 + 1].find? (fun k => l.waiting k && l.credit k)
    match k with
    | some k =>
      if d = 0 then some (k, { l with deficit := tset (fun _ => 0) l.deficit c (s.lquantum c - 1) })
      else if d = 1 then some (k, { l with deficit := tset (fun _ => 0) l.deficit c 0, cls := (c + 1) % 4 })
      else some (k, { l with deficit := tset (fun _ => 0) l.deficit c (d - 1) })
    | none => chooseClass s fuel { l with deficit := tset (fun _ => 0) l.deficit c 0, cls := (c + 1) % 4 }

/-- After the first frame of a turn whose quantum is one, the turn ends. -/
def Link.endTurn (l : Link) (k : Nat) : Link :=
  if tget (fun _ => 0) l.deficit (k / 2) = 0 ∧ l.cls = k / 2 then { l with cls := (l.cls + 1) % 4 } else l

/-- The frame word's ACK, NAK and CREDIT, and the credit owed that they pay (R349). -/
def State.emit (s : State) (n fseq : Nat) (b : FrameBody) : State :=
  let l := s.link n
  let k := ((List.range 8).find? (fun k => tget (fun _ => 0) l.owed k != 0)).getD 0
  let c := min 15 (tget (fun _ => 0) l.owed k)
  let f : Frame := { tgen := s.fld R.LNK_PHASE_CTL F.LNK_PHASE_CTL_TGEN, fseq := fseq, ack := l.rxSeq, nak := l.bad, credClass := k / 2, credVl := k % 2,
                     credit := c, body := b, fecCorrected := 0, fecOk := true, crcOk := true }
  let s := s.setLink n { l with owed := tset (fun _ => 0) l.owed k (tget (fun _ => 0) l.owed k - c) }
  let s := { s with pod := { s.pod with io := { s.pod.io with sent := s.pod.io.sent ++ [(n, f)] } } }
  if b = .idle then s else s.bump (R.LNK_TX_FRAMES n)

/-- LINK_ALIGN_COMPLETE (R358, R359): ALIGN goes to IDENT; there, and in RETRAIN, the link sends IDENT, in a PACKET frame outside the sequence (DESIGN CHOICE, notes/assumptions/133.md);
DEST_POS is not yet known and zero (R352). -/
def execLinkAlignComplete (n : Nat) (s : State) : Host.Outcome State Fault Refusal :=
  let b : FrameBody := .packet 0 0 [s.lpkt 0 0 0 (s.identBody n)]
  .next (if s.linkState n = 2 then (s.enterLink n 3).emit n (s.link n).txSeq b else if s.linkState n = 5 then s.emit n (s.link n).txSeq b else s)

/-- An open that waited for a context takes one when it is free (R353). -/
def State.retryOpen (s : State) (n : Nat) : State :=
  let l := s.link n
  match l.waitOpen, (List.range 1024).find? (fun c => !l.txCtx.contains c) with
  | w :: r, some c => (s.setLink n { l with waitOpen := r }).openWith n c w
  | _, _ => s

/-- A frame time of a 100 µs window, in which an L2 frame waits for credit or does not (R400). -/
def Link.countL2 (l : Link) (w : Nat) : Link :=
  let wait := [4, 5].any (fun k => l.waiting k && !l.credit k)
  let now := if l.l2Now.1 = w then l.l2Now else (w, 0, 0)
  { l with l2Now := (w, now.2.1 + (if wait then 1 else 0), now.2.2 + 1), l2Last := if l.l2Now.1 = w then l.l2Last else l.l2Now }

/-- The frame times of a window in which L2 frames waited for credit, and all, over the links of a table's mask; 0 of 1 where there was none (R400). -/
def State.l2Share (s : State) (table w : Nat) : Nat × Nat :=
  let mask := tget (fun _ => 0) s.pod.rtMask (s.bank * 5 + table)
  let of := fun (l : Link) => if l.l2Now.1 = w then l.l2Now.2 else if l.l2Last.1 = w then l.l2Last.2 else (0, 0)
  let r := ((List.range 48).filter (fun n => decide (mask / 2 ^ n % 2 = 1))).foldl (fun r n => (r.1 + (of (s.link n)).1, r.2 + (of (s.link n)).2)) (0, 0)
  if r.2 = 0 then (0, 1) else r

/-- FRAME_SEND (R350, R355, R356): at a frame time an ACTIVE link resends what a NAK asked for, else sends the frame its arbitration chooses, else IDLE. -/
def execFrameSend (n : Nat) (s : State) : Host.Outcome State Fault Refusal :=
  if s.linkState n ≠ 4 ∨ s.tst.scan then .next s else
  let l := (s.link n).countL2 (s.now / 100000)
  match l.resend with
  | (q, b) :: r => .next ((s.setLink n { l with resend := r }).emit n q b)
  | [] =>
    if l.replay.length ≥ 64 then .next (((s.setLink n l).bump (R.LNK_REPLAY_FULL n)).emit n l.txSeq .idle)
    else match chooseClass s 5 l with
      | some (k, l) =>
        let l := l.endTurn k
        let (b, l, gone) := l.popFrame k
        let q := (l.txSeq + 1) % 4096
        let l := { l with txSeq := q, replay := l.replay ++ [(q, b)], used := tset (fun _ => 0) l.used k (tget (fun _ => 0) l.used k + 1) }
        .next ((gone.foldl (fun s x => s.pieceGone x) ((s.setLink n l).emit n q b)).retryOpen n)
      | none =>
        let s := if (List.range 8).any (fun k => l.waiting k) then s.bump (R.LNK_CREDIT_WAIT n) else s
        .next ((s.setLink n { l with deficit := [] }).emit n l.txSeq .idle)

/-- A received packet is acted on: it leaves the list of received packets. -/
def State.takeInbox (s : State) (n : Nat) (p : LPkt) : State := { s with pod := { s.pod with io := { s.pod.io with inbox := s.pod.io.inbox.erase (n, p) } } }

/-! Phases (R365 to R367). -/

def State.setPhase (s : State) (b : Boundary) : State := { s with pod := { s.pod with phase := b } }

/-- Swap the banks: BANK and TGEN flip, the phase advances, the held injections go and the graph node completes (R366). -/
def State.bankSwap (s : State) : State :=
  let r := R.LNK_PHASE_CTL
  let s := s.setFlds r [(F.LNK_PHASE_CTL_BANK, 1 - s.bank), (F.LNK_PHASE_CTL_TGEN, 1 - s.fld r F.LNK_PHASE_CTL_TGEN),
    (F.LNK_PHASE_CTL_PHASE, if s.pod.phases.length = 0 then 0 else (s.fld r F.LNK_PHASE_CTL_PHASE + 1) % s.pod.phases.length)]
  let node := s.pod.phase.node
  let subs := if s.pod.phase.newMap then s.hcp.cmds.filter (fun c => c.opcode == 0x040D && c.started) else []
  let s := { s with pod := { s.pod with shadowLoaded := false, rtLoaded := true } }
  let s := s.setPhase { stage := 0, node := none, swapAt := 0, arrivals := [], first := 0, newMap := false }
  let s := ((s.bump R.LNK_PHASE_COUNT).showParent).releaseHeld
  let s := subs.foldl (fun s c => s.finishCmd c.dseq .ok []) s
  let s := s.coll.running.foldl (fun s (p : Nat × Coll) => if p.2.auto then s.setPath p.1 p.2 true true else s) s
  match node with | some (g, k) => s.nodeDone g k .ok [] | none => s

/-- All originated link traffic has completed end to end (R366). -/
def State.quiet (s : State) : Bool := s.pod.streams.isEmpty && s.pod.sigTags.isEmpty && s.hcp.tracker.isEmpty

/-- Positions of the pod in service, spares included (R366, R378). -/
def State.livePositions (s : State) : List Nat := (List.range s.podSize).filter (fun p => !s.pod.dead.contains p)

/-- At the phase home: an arrival counts; with the last one the barrier closes at this instant and the release goes out (R366). -/
def State.phaseArrived (s : State) (pos : Nat) : State :=
  let b := s.pod.phase
  let s := s.setPhase { b with arrivals := if b.arrivals.contains pos then b.arrivals else b.arrivals ++ [pos], first := if b.arrivals = [] then s.now else b.first }
  if s.livePositions.all (fun p => s.pod.phase.arrivals.contains p) then
    let tc := s.now
    let k := s.fld R.LNK_PHASE_CTL F.LNK_PHASE_CTL_PHASE
    let s := (s.livePositions.filter (fun p => p ≠ s.position)).foldl (fun s p =>
      s.sendL (s.lpkt 0 p (0x8000 + k % 8 * 0x1000) (.phase true k tc))) s
    s.setPhase { s.pod.phase with stage := 3, swapAt := tc + 2000, arrivals := [] }
  else s

/-- PHASE_BOUNDARY (R365, R366): the module waits for its shadow bank and for its own traffic to complete, then holds every new injection and sends its arrival to the phase home. -/
def execPhaseBoundary (graph node : Nat) (s : State) : Host.Outcome State Fault Refusal :=
  let s := if s.pod.phase.stage = 0 then s.setPhase { s.pod.phase with stage := 1, node := some (graph, node) } else s
  if s.pod.phase.stage = 1 ∧ s.pod.shadowLoaded ∧ s.quiet then
    let s := s.setPhase { s.pod.phase with stage := 2 }
    let home := s.master
    if home = s.position then .next (s.phaseArrived home)
    else
      let k := s.fld R.LNK_PHASE_CTL F.LNK_PHASE_CTL_PHASE
      .next (s.sendL (s.lpkt 0 home (k % 8 * 0x1000) (.phase false k 0)))
  else .next s

/-- Copy a phase's four cut tables and masks, and the default table beside them, into a bank. -/
def State.loadBank (s : State) (bank : Nat) (ph : PhaseTables) : State :=
  let rt := (List.range 4).foldl (fun rt t => (List.range 64).foldl (fun rt e =>
    tset (fun _ => 0) rt ((bank * 5 + t) * 64 + e) ((ph.entries.getD t []).getD e 0)) rt) s.pod.rt
  let rt := (List.range 64).foldl (fun rt e => tset (fun _ => 0) rt ((bank * 5 + 4) * 64 + e) (tget (fun _ => 0) rt (((1 - bank) * 5 + 4) * 64 + e))) rt
  let ms := (List.range 4).foldl (fun m t => tset (fun _ => 0) m (bank * 5 + t) (ph.masks.getD t 0)) s.pod.rtMask
  let ms := tset (fun _ => 0) ms (bank * 5 + 4) (tget (fun _ => 0) ms ((1 - bank) * 5 + 4))
  { s with pod := { s.pod with rt := rt, rtMask := ms } }

/-- PHASE_SHADOW_LOADED (R365): Lantern has copied the next phase of the list into the shadow bank. -/
def execPhaseShadowLoaded (s : State) : Host.Outcome State Fault Refusal :=
  let n := s.pod.phases.length
  if s.fld R.LNK_PHASE_CTL F.LNK_PHASE_CTL_MODE = 0 ∨ s.pod.shadowLoaded ∨ n = 0 then .next s
  else
    match s.pod.phases[(s.fld R.LNK_PHASE_CTL F.LNK_PHASE_CTL_PHASE + 1) % n]? with
    | some ph =>
      let s := s.loadBank (1 - s.bank) ph
      .next { s with pod := { s.pod with shadowLoaded := true } }
    | none => .next s

/-- PHASE (R366): an arrival at the phase home, or the release with its close time. -/
def execPhase (n : Nat) (p : LPkt) (s : State) : Host.Outcome State Fault Refusal :=
  if s.pod.io.inbox.contains (n, p) = false then .next s else
  let s := s.takeInbox n p
  match p.body with
  | .phase false _ _ => .next (s.phaseArrived p.srcPos)
  | .phase true _ tc => .next (if s.pod.phase.stage = 2 then s.setPhase { s.pod.phase with stage := 3, swapAt := tc + 2000 } else s)
  | _ => .next s

/-- Missing positions packed a byte each, lowest first, in the word an event or record has for them. -/
def packMissing (ms : List Nat) (bytes : Nat) : Nat := (List.range (min bytes ms.length)).foldl (fun v i => v + ms.getD i 0 * 256 ^ i) 0

/-- PHASE_HOLD_LIMIT (R366, R385): the phase home has held HOLD_LIM ns since the first arrival; 0 disables. The barrier goes on holding. -/
def execPhaseHoldLimit (s : State) : Host.Outcome State Fault Refusal :=
  let lim := s.fld R.LNK_PHASE_CTL F.LNK_PHASE_CTL_HOLD_LIM
  if lim = 0 ∨ s.pod.phase.arrivals = [] then .next s
  else
    let s := { s with now := max s.now (s.pod.phase.first + lim) }
    let ms := s.livePositions.filter (fun p => !s.pod.phase.arrivals.contains p)
    let s := s.setFld R.LNK_PHASE_CTL F.LNK_PHASE_CTL_ALARM 1
    let s := s.note 0x0403 0 4 0 (packMissing ms 8) 0
    .next (s.event .phaseHold 4 0 [packMissing ms 4])

/-- BANK_SWAP (R366): 2,000 ns after the close the module swaps its banks. -/
def execBankSwap (s : State) : Host.Outcome State Fault Refusal :=
  if s.pod.phase.stage = 3 then .next ({ s with now := max s.now s.pod.phase.swapAt }).bankSwap else .next s

/-! Streams landing (R353). -/

/-- The addresses of a stream are those of the job for a stage-queue slot (R453), untranslated for mirror chunks, restores and partner notices. -/
def State.streamPlace (s : State) (kind a n : Nat) : Place :=
  if kind = 3 then s.place s.job.root a n true
  else if inWindow (some (0, towerEnd - 1)) a n && !(chunksOf a n).any (fun c => s.retired c) then .at_ [(a, n)] else .bad

/-- The collectives engine writes stream data where the stream says. Pieces, counts and runs (KIND 0 to 2) are placed by the command that acts on them. -/
def State.engineStore (s : State) (kind a : Nat) (bs : List Byte) : State :=
  if kind ≤ 2 then s else match s.streamPlace kind a bs.length with
  | .at_ rs => storeRuns rs bs s
  | _ => s

/-- The destination of a stream fails its addresses (STREAM_ACK status 1). -/
def State.streamFails (s : State) (x : RxCtx) : Bool :=
  Nat.blt 2 x.kind && (match s.streamPlace x.kind x.addr (512 * x.barges) with | .bad => true | _ => false)

/-! Receiving frames (R353, R356). -/

/-- Serial comparison with 12 bits: `a` at or before `b` (R356). -/
def seqLe (a b : Nat) : Bool := Nat.blt ((b + 4096 - a) % 4096) 2048

/-- The reverse direction's word: ACK frees the replay buffer, NAK asks for a replay from ACK + 1, CREDIT frees the neighbour's buffer (R349, R356). -/
def State.frameWord (s : State) (n : Nat) (f : Frame) : State :=
  let l := s.link n
  let left := l.replay.filter (fun e => !seqLe e.1 f.ack)
  let k := f.credClass * 2 + f.credVl
  let l := { l with replay := left, ack := f.ack, used := tset (fun _ => 0) l.used k (tget (fun _ => 0) l.used k - f.credit) }
  if f.nak && left != [] && l.resend == [] then
    let fresh := Nat.ble (l.winStart + 1000000) s.now
    (s.setLink n { l with resend := left, winStart := if fresh then s.now / 1000000 * 1000000 else l.winStart, winCount := if fresh then 1 else l.winCount + 1 }).bump (R.LNK_REPLAY n)
  else s.setLink n l

/-- A packet for another position goes on by its table, in the dome half it came on and on the lane of R362, or is held while no link leads on (R226); one for this position is kept for its
row. A stream open in transit takes its receive context, and binds one of the next link when there is one (R353). `piece` is the frame it came in. -/
def State.receivePkt (s : State) (n : Nat) (piece : Option (Nat × Nat)) (p : LPkt) : State :=
  let local_ := p.destPos == s.position || (match p.body with | .stop _ _ _ => true | .time _ _ _ _ => true | .ident _ _ _ _ => true | _ => false)
  if local_ then { s with pod := { s.pod with io := { s.pod.io with inbox := s.pod.io.inbox ++ [(n, p)] } } }
  else
    let s := s.addPiece piece
    match p.body with
    | .streamOpen addr len cid kind orig =>
      let t := s.pod.nextPark
      let l := s.link n
      let x : RxCtx := { src := p.srcPos, dest := p.destPos, addr := addr, barges := len, got := 0, acked := 0, collId := cid, kind := kind, orig := orig, lclass := p.lclass, onward := none, vlIn := p.vl, park := some t }
      let s := s.setLink n { l with rx := tinsert l.rx p.id x }
      let s : State := { s with pod := { s.pod with nextPark := t + 1 } }
      s.sendW { pkt := p, data := [], half := n / 24, inLink := some n, piece := piece, park := some t }
    | _ => s.sendW { pkt := p, data := [], half := n / 24, inLink := some n, piece := piece }

/-- Bind a receive context for a stream that ends here (R353). -/
def State.bindOpen (s : State) (n : Nat) (p : LPkt) : State :=
  match p.body with
  | .streamOpen addr len cid kind orig =>
    let l := s.link n
    let x : RxCtx := { src := p.srcPos, dest := p.destPos, addr := addr, barges := len, got := 0, acked := 0, collId := cid, kind := kind, orig := orig, lclass := p.lclass, onward := none, vlIn := p.vl }
    (s.setLink n { l with rx := tinsert l.rx p.id x }).takeInbox n p
  | _ => s

/-- STREAM_OPEN (R353): the open of a stream that ends here takes its receive context; one in transit was bound onward as it arrived. -/
def execStreamOpen (n : Nat) (p : LPkt) (s : State) : Host.Outcome State Fault Refusal :=
  .next (if s.pod.io.inbox.contains (n, p) then s.bindOpen n p else s)

/-- A context's open that waits among the received packets is acted on before its data. -/
def State.bindFirst (s : State) (n ctx : Nat) : State :=
  match s.pod.io.inbox.find? (fun x => x.1 == n && x.2.id == ctx && (match x.2.body with | .streamOpen _ _ _ _ _ => true | _ => false)) with
  | some x => s.bindOpen n x.2
  | none => s

/-- Stream data of a context: forwarded to its onward context or kept until there is one, or landed at consecutive addresses by the collectives engine (R353). -/
def State.receiveData (s : State) (n ctx flits : Nat) (piece : Option (Nat × Nat)) (bs : List Byte) : State :=
  let l := s.link n
  match tfind l.rx ctx with
  | none => s
  | some x =>
    let b := (bs.length + 511) / 512
    let done := Nat.ble x.barges (x.got + b)
    let on := (s.setLink n { l with rx := if done then terase l.rx ctx else tinsert l.rx ctx { x with got := x.got + b } }).addPiece piece
    match x.onward, x.park with
    | some (m, c), _ => on.enqueueD m (x.lclass * 2 + x.vlOut) [{ ctx := c, flits := flits, last := done, bytes := bs, piece := piece }]
    | none, some t => { on with pod := { on.pod with parked := tinsert on.pod.parked t ((tfind on.pod.parked t).getD [] ++ [{ ctx := 0, flits := flits, last := done, bytes := bs, piece := piece }]) } }
    | none, none =>
      let s := s.engineStore x.kind (x.addr + 512 * x.got) bs
      s.setLink n { s.link n with rx := tinsert l.rx ctx { x with got := x.got + b, acked := x.acked + b } }

/-- FRAME_RECEIVE (R356, R367): a bad frame, and each later one until the replay, is discarded and a NAK is owed; a good one is acknowledged, its word and its body are acted on. -/
def execFrameReceive (n : Nat) (f : Frame) (s : State) : Host.Outcome State Fault Refusal :=
  if s.linkState n ≠ 4 then .next s else
  let s := if f.fecCorrected = 0 then s else s.bump (R.LNK_FEC_CORR n) f.fecCorrected
  let s := if f.fecOk then (if f.crcOk then s else s.bump (R.LNK_CRC_ERR n)) else s.bump (R.LNK_FEC_UNCORR n)
  let l := s.link n
  let sequenced := f.body != .idle
  let good := f.fecOk && f.crcOk && (!sequenced || f.fseq == (l.rxSeq + 1) % 4096)
  if good = false then .next (s.setLink n { l with bad := true })
  else
    let s := s.frameWord n f
    let s := if f.tgen ≠ s.fld R.LNK_PHASE_CTL F.LNK_PHASE_CTL_TGEN ∧ s.pod.phase.stage ≥ 2 then (s.bump R.LNK_PHASE_EARLY).bankSwap else s
    if sequenced = false then .next s
    else
      let s := match f.body with | .data ctx _ _ => s.bindFirst n ctx | _ => s
      let k := match f.body with | .packet c v _ => c * 2 + v | .data ctx _ _ => ((tfind (s.link n).rx ctx).map (fun x => x.lclass * 2 + x.vlIn)).getD 4 | .idle => 0
      let l := s.link n
      let piece := some (n, f.fseq)
      let s := (s.setLink n { l with rxSeq := f.fseq, bad := false, pieces := tinsert l.pieces f.fseq (k, 1) }).bump (R.LNK_RX_FRAMES n)
      .next ((match f.body with
        | .packet _ _ ps => ps.foldl (fun (s : State) p => s.receivePkt n piece p) s
        | .data ctx flits bs => s.receiveData n ctx flits piece bs
        | .idle => s).pieceGone piece)

/-! Streams at their ends (R353). -/

/-- STREAM_LANDED (R353): every write of the stream is acknowledged; STREAM_ACK returns to the origin and the context is freed. -/
def execStreamLanded (n ctx : Nat) (s : State) : Host.Outcome State Fault Refusal :=
  match tfind (s.link n).rx ctx with
  | none => .next s
  | some x =>
    if x.onward.isNone ∧ x.acked ≥ x.barges then
      let l := s.link n
      let s := s.setLink n { l with rx := terase l.rx ctx }
      let s := { s with pod := { s.pod with landed := s.pod.landed ++ [(⟨x.kind, x.addr, x.barges, x.src⟩ : Landed)] } }
      .next (s.sendL { s.lpkt x.lclass x.src x.orig (.streamAck (if s.streamFails x then 1 else 0)) with table := 4 } (n / 24))
    else .next s

/-! Time base (R370 to R372). -/

/-- Loss of lock (R372): LOCKED clears, ALARM sets, the event is posted and a class 0 record written; once per loss. -/
def State.tbAlarm (s : State) (offset : Nat) : State :=
  if s.fld R.LNK_TB_STATUS F.LNK_TB_STATUS_LOCKED = 1 ∨ s.fld R.LNK_TB_STATUS F.LNK_TB_STATUS_ALARM = 0 then
    let s := s.setFlds R.LNK_TB_STATUS [(F.LNK_TB_STATUS_LOCKED, 0), (F.LNK_TB_STATUS_ALARM, 1)]
    let s := s.note 0x0404 0 4 (s.fld R.LNK_TB_STATUS F.LNK_TB_STATUS_PARENT_LINK) (s.reg R.LNK_TB_STATUS).toNat 0
    (s.bump R.LNK_TB_ALARMS).event .timebaseAlarm 4 (s.fld R.LNK_TB_STATUS F.LNK_TB_STATUS_PARENT_LINK) [offset]
  else s.setFld R.LNK_TB_STATUS F.LNK_TB_STATUS_LOCKED 0

/-- TIME_EXCHANGE_TICK (R370): once per 1 ms window a module other than the master asks its parent. -/
def execTimeExchangeTick (s : State) : Host.Outcome State Fault Refusal :=
  if s.master = s.position then .next s
  else
    let w := max (s.now / 1000000) s.pod.tbWindow
    let s := { s with now := max s.now (w * 1000000) }
    let n := s.fld R.LNK_TB_STATUS F.LNK_TB_STATUS_PARENT_LINK
    if s.linkState n ≠ 4 then .next { s with pod := { s.pod with tbWindow := w + 1 } }
    else
      let s := { s with pod := { s.pod with tbWindow := w + 1, tbCount := (s.pod.tbCount + 1) % 0x8000 } }
      .next (s.enqueueL n (s.lpkt 0 (s.fld (R.LNK_STATUS n) F.LNK_STATUS_NB_POS) s.pod.tbCount (.time false s.now 0 0)))

/-- TIME (R370): a request is answered with t2 and t3; a response corrects the time base by ((t2 − t1) − (t4 − t3)) / 2, stepped before the pod is first ready, else
slewed by at most 100 ns, and its offset decides the lock. -/
def execTimePacket (n : Nat) (p : LPkt) (s : State) : Host.Outcome State Fault Refusal :=
  if s.pod.io.inbox.contains (n, p) = false then .next s else
  let s := s.takeInbox n p
  match p.body with
  | .time false t1 _ _ =>
    .next (s.enqueueL n (s.lpkt 0 (s.fld (R.LNK_STATUS n) F.LNK_STATUS_NB_POS) (p.id % 0x8000 + 0x8000) (.time true t1 s.now s.now)))
  | .time true t1 t2 t3 =>
    let off : Int := (((t2 : Int) - t1) - ((s.now : Int) - t3)) / 2
    let slew : Int := if s.pod.ready then max (-100) (min 100 off) else off
    let s := { s with now := ((s.now : Int) + slew).toNat, pod := { s.pod with tbLast := s.now } }
    let o16 := (off % 65536).toNat
    let s := s.setFld R.LNK_TB_STATUS F.LNK_TB_STATUS_OFFSET o16
    if off.natAbs ≤ 20 then .next (s.setFld R.LNK_TB_STATUS F.LNK_TB_STATUS_LOCKED 1).standbyLeft
    else .next (s.tbAlarm (off % 2 ^ 32).toNat)
  | _ => .next s

/-- TIMEBASE_EXCHANGE_TIMEOUT (R372): 10 ms without an exchange. -/
def execTimebaseExchangeTimeout (s : State) : Host.Outcome State Fault Refusal :=
  if s.master = s.position then .next s
  else
    let s := { s with now := max s.now (s.pod.tbLast + 10000000) }
    .next (s.tbAlarm (let o := s.fld R.LNK_TB_STATUS F.LNK_TB_STATUS_OFFSET; if o ≥ 0x8000 then o + 0xFFFF0000 else o))

end Sys2Proof.Machine
end

