-- ==== Sys2Proof/Machine/Hold.lean ====
section
/-!
DEFINITION. Holding the supply current across gaps (R138 to R145, R163).
-/
namespace Sys2Proof.Machine

/-- GAP_THRESH in ns; values above 16,000 act as 16,000 (R143). -/
def State.gapThresh (s : State) (site : Nat) : Nat := min 16000 (s.fld (R.SPR_ARR_CTL site) F.SPR_ARR_CTL_GAP_THRESH)

/-- The device time a spire has reached. -/
def State.spireNs (s : State) (site : Nat) : Nat := max s.now (s.nsOf site (s.spire site).cycle)

/-- Decrements of 1/64 in `d` ns of ramp-down: one at the end of each 312.5 ns (R140). -/
def downSteps (d : Nat) : Nat := 2 * d / 625

/-- The duty at a time (R140, R141). -/
def HoldCtx.dutyAt (h : HoldCtx) (t : Nat) : Nat :=
  match h.st with
  | 0 => 0
  | 3 => h.duty - downSteps (t - h.since)
  | 4 => min 64 (h.duty + (t - h.since) / 64)
  | _ => h.duty

/-- A ramp that has ended: QUIET or ACTIVE (R140). -/
def HoldCtx.settleRamp (h : HoldCtx) (t : Nat) : HoldCtx :=
  if h.st = 3 ∧ h.dutyAt t = 0 then { h with st := 0, duty := 0 }
  else if h.st = 4 ∧ h.dutyAt t = 64 then { h with st := 1, duty := 64 } else h

/-- The state at time `t` (R140): a gap that began after real work is held, at the threshold it ramps down, and ramps end. A sparse ramp-down runs on through real work and shorter gaps (R163). -/
def HoldCtx.at_ (h : HoldCtx) (thresh t : Nat) : HoldCtx :=
  let h := if (h.st = 1 ∨ h.st = 4) ∧ h.gapFrom < t then (let d := (h.settleRamp h.gapFrom).dutyAt h.gapFrom; { h with st := 2, duty := d }) else h
  let h := if h.st = 2 ∧ h.gapFrom + thresh ≤ t then { h with st := 3, since := h.gapFrom + thresh, bySparse := false } else h
  let h := if h.st = 3 ∧ h.bySparse ∧ h.gapFrom + thresh ≤ t then { h with bySparse := false } else h
  h.settleRamp t

/-- The duty that dummy operations fill at a time in a gap (R139, R140). -/
def HoldCtx.gapDuty (h : HoldCtx) (thresh t : Nat) : Nat :=
  let x := h.at_ thresh t
  if x.st = 2 ∨ x.st = 3 then x.dutyAt t else 0

/-- The times at which the duty of a gap may change: the threshold, and the end of each 312.5 ns of the ramp-down (R140). -/
def HoldCtx.gapCuts (h : HoldCtx) (thresh : Nat) : List Nat :=
  let base := if h.st = 3 then h.since else h.gapFrom + thresh
  base :: (List.range 64).map (fun i => base + (625 * (i + 1) + 1) / 2)

/-- The pieces that a list of cuts makes of the stretch from `a` to `b`. -/
def piecesOf (a b : Nat) (cuts : List Nat) : List (Nat × Nat) :=
  let cs := a :: sortOn id (cuts.filter (fun c => Nat.blt a c && Nat.blt c b)).eraseDups
  if b ≤ a then [] else cs.zip (cs.drop 1 ++ [b])

/-- The dummy operations of a gap in the cycles `a` to `b`; `cyc` gives the first cycle at or after a time, `ns` the time of a cycle. -/
def HoldCtx.gapSegs (h : HoldCtx) (cyc ns : Nat → Nat) (thresh a b : Nat) : List Seg :=
  let x := max a h.gapCyc
  (piecesOf x b ((h.gapCuts thresh).map cyc)).map (fun c => { a := c.1, b := c.2, busy := 0, dum := h.gapDuty thresh (max (ns c.1) (h.gapFrom + 1)) })

/-- A stretch of cycles within others. -/
def Seg.clip (x : Seg) (a b : Nat) : Seg := { x with a := max a x.a, b := min b x.b }

/-- The 64ths of a cycle, summed from `a` to `b`, in which at least one of some stretches is active: the larger duty counts, as the active cycles of a smaller one lie among those of a larger
(R145; DESIGN CHOICE, notes/assumptions/115.md). -/
def unionFill (f : Seg → Nat) (xs : List Seg) (a b : Nat) : Nat :=
  (piecesOf a b (xs.flatMap (fun x => [x.a, x.b]))).foldl (fun n c =>
    n + (c.2 - c.1) * xs.foldl (fun m x => if x.a ≤ c.1 ∧ c.2 ≤ x.b then max m (f x) else m) 0) 0

/-- Bring the hold state of both contexts to the cycle `c` at time `t`, and count the cycles of real work and of dummy operations up to it (R145). -/
def State.settleHoldAt (s : State) (site c t : Nat) : State :=
  let p := s.spire site
  let th := s.gapThresh site
  let k := p.counted
  let xs := (p.hold0.segs ++ p.hold1.segs ++ p.hold0.gapSegs (s.cycleAt site) (s.nsOf site) th k.upTo c ++ p.hold1.gapSegs (s.cycleAt site) (s.nsOf site) th k.upTo c).map (fun x => x.clip k.upTo c)
  let busy := k.busy + unionFill Seg.busy xs k.upTo c
  let dum := k.dum + unionFill Seg.dum xs k.upTo c
  let s := if busy < 64 then s else s.bump (R.SPR_ARR_BUSY site) (busy / 64)
  let s := if dum < 64 then s else s.bump (R.SPR_ARR_DUMMY site) (dum / 64)
  let left := fun (h : HoldCtx) => { h.at_ th t with segs := h.segs.filter (fun x => Nat.blt c x.b) }
  s.modSpire site (fun p => { p with hold0 := left p.hold0, hold1 := left p.hold1, counted := { upTo := max k.upTo c, busy := busy % 64, dum := dum % 64 } })

/-- The same at a time. -/
def State.settleHold (s : State) (site t : Nat) : State := s.settleHoldAt site (s.cycleAt site t) t

/-! A real instruction. -/

/-- What an array instruction does in the cycles of its occupancy, in order: cycles, and whether its products form in all its cells (0), in none (1), or in some, with their share in 64ths (2) (R159, R160, R163). -/
structure APart where
  n : Nat
  kind : Nat
  share : Nat := 64
  deriving DecidableEq, Repr

/-- A real instruction issues in a context at time `t` (R140, R141): the state it runs in. -/
def HoldCtx.realIssue (h : HoldCtx) (t : Nat) : HoldCtx :=
  match h.st with
  | 1 => h
  | 4 => h
  | 2 => if h.duty = 64 then { h with st := 1 } else { h with st := 4, duty := max h.duty 1, since := t, frac := 0, sparseFrom := none }
  | _ => if h.bySparse then h else { h with st := 4, duty := max (h.dutyAt t) 1, since := t, frac := 0, sparseFrom := none }

/-- How far an instruction has come on a ramp: the step of the ramp, the cycle, the 64ths of an active cycle in hand. -/
structure RampAt where
  step : Nat
  cyc : Nat
  frac : Nat
  deriving DecidableEq, Repr

/-- `w` active cycles on a ramp-up that stood at duty `d` at its start and whose step `j` ends in cycle `bound j` (R141): the stretches of cycles with their duty, and how far the ramp then is.
At 64/64 every cycle is active. -/
def rampWalk (d : Nat) (bound : Nat → Nat) : Nat → Nat → RampAt → List (Nat × Nat × Nat) × RampAt
  | 0, w, x => ([(x.cyc, x.cyc + w, 64)], { x with cyc := x.cyc + w })
  | fuel + 1, w, x =>
    let D := min 64 (d + x.step)
    if D = 64 then ([(x.cyc, x.cyc + w, 64)], { x with cyc := x.cyc + w, frac := 0 })
    else
      let e := max x.cyc (bound x.step)
      let got := (x.frac + (e - x.cyc) * D) / 64
      if w ≤ got then
        let m := (64 * w - x.frac + D - 1) / D
        ([(x.cyc, x.cyc + m, D)], { x with cyc := x.cyc + m, frac := x.frac + m * D - 64 * w })
      else
        let (l, y) := rampWalk d bound fuel (w - got) { step := x.step + 1, cyc := e, frac := (x.frac + (e - x.cyc) * D) % 64 }
        ((x.cyc, e, D) :: l, y)

/-- The cycles of an instruction's parts in a context in state `h` from cycle `t` (time `ns`), and where it ends (R141, R145, R163). In ACTIVE what skipping and gating leave idle is filled with dummy
operations; in a sparse ramp-down, only up to D; on a ramp-up, not. -/
def HoldCtx.runParts (h : HoldCtx) (cyc : Nat → Nat) (t ns : Nat) (ps : List APart) : List Seg × RampAt :=
  let x0 : RampAt := { step := (ns - h.since) / 64, cyc := t, frac := h.frac }
  ps.foldl (fun (a : List Seg × RampAt) q =>
    if h.st = 4 then
      let (l, y) := rampWalk h.duty (fun j => cyc (h.since + 64 * (j + 1))) 64 q.n a.2
      (a.1 ++ l.map (fun z => { a := z.1, b := z.2.1, busy := if q.kind = 1 then 0 else z.2.2, dum := if z.2.2 = 64 ∧ q.kind ≠ 0 then 64 else 0 }), y)
    else
      let D := if h.st = 3 then h.dutyAt ns else 64
      let dum := match q.kind with | 0 => 0 | 1 => D | _ => if q.share < D then 64 else 0
      (a.1 ++ [{ a := a.2.cyc, b := a.2.cyc + q.n, busy := if q.kind = 1 then 0 else 64, dum := dum }], { a.2 with cyc := a.2.cyc + q.n })) ([], x0)

/-- Issue of an array instruction on contexts `ctxs` (1, 2 or 3) at cycle `t`, in parts that together take its occupancy: the cycles added, the contexts' states, STRETCH (R141, R145). A full instruction
ends when the slower context has done its share. `real` of `total` cell-cycles form products (R163). -/
def State.holdIssue (s : State) (site ctxs t : Nat) (ps : List APart) (real total : Nat) : Nat × State :=
  let ns := s.nsOf site t
  let s := s.settleHoldAt site t ns
  let p := s.spire site
  let occ := ps.foldl (fun n q => n + q.n) 0
  let h0 := if ctxs % 2 = 1 then p.hold0.realIssue ns else p.hold0
  let h1 := if 2 ≤ ctxs then p.hold1.realIssue ns else p.hold1
  let r0 := h0.runParts (s.cycleAt site) t ns ps
  let r1 := h1.runParts (s.cycleAt site) t ns ps
  let e := max (if ctxs % 2 = 1 then r0.2.cyc else t) (if 2 ≤ ctxs then r1.2.cyc else t)
  let fin := s.nsOf site e
  let w : Work := { start := ns, stop := fin, real := real, total := total }
  let close := fun (h : HoldCtx) (r : List Seg × RampAt) => { h with gapFrom := fin, gapCyc := e, frac := r.2.frac, segs := h.segs ++ r.1, work := (h.work.filter (fun x => Nat.blt (ns / 64 * 64) (x.stop + 64))) ++ [w] }
  let st := e - (t + occ)
  let s := if st = 0 then s else s.bump (R.SPR_ARR_STRETCH site) st
  (st, s.modSpire site (fun p => { p with
    hold0 := if ctxs % 2 = 1 then close h0 r0 else h0,
    hold1 := if 2 ≤ ctxs then close h1 r1 else h1,
    ctxFree0 := if ctxs % 2 = 1 then e else p.ctxFree0,
    ctxFree1 := if 2 ≤ ctxs then e else p.ctxFree1 }))

def Spire.holdCtx (p : Spire) (c : Nat) : HoldCtx := if c = 0 then p.hold0 else p.hold1

def Spire.setHoldCtx (p : Spire) (c : Nat) (h : HoldCtx) : Spire := if c = 0 then { p with hold0 := h } else { p with hold1 := h }

/-- What SPR_ARR_STAT reads (R144). -/
def State.arrStat (s : State) (site : Nat) : Nat :=
  let t := s.spireNs site
  let th := s.gapThresh site
  let h0 := (s.spire site).hold0.at_ th t
  let h1 := (s.spire site).hold1.at_ th t
  h1.dutyAt t * 2 ^ 19 + h1.st * 2 ^ 16 + h0.dutyAt t * 8 + h0.st

/-- Device time goes to `t`, and the hold state with it. -/
def State.holdTo (s : State) (site t : Nat) : State :=
  let s : State := { s with now := max s.now t }
  s.settleHold site (s.spireNs site)

/-- GAP_THRESHOLD_REACHED (R140): the gap of a context is as long as GAP_THRESH. -/
def execGapThresholdReached (site c : Nat) (s : State) : Host.Outcome State Fault Refusal :=
  let s := s.settleHold site (s.spireNs site)
  let h := (s.spire site).holdCtx c
  .next (if h.st = 2 then s.holdTo site (h.gapFrom + s.gapThresh site) else s)

/-- DUTY_DECREMENT (R140): the end of the next 312.5 ns of a ramp-down. -/
def execDutyDecrement (site c : Nat) (s : State) : Host.Outcome State Fault Refusal :=
  let s := s.settleHold site (s.spireNs site)
  let h := (s.spire site).holdCtx c
  .next (if h.st = 3 then s.holdTo site (h.since + (625 * (downSteps (s.spireNs site - h.since) + 1) + 1) / 2) else s)

/-- DUTY_INCREMENT (R141): the end of the next 64 ns of a ramp-up. -/
def execDutyIncrement (site c : Nat) (s : State) : Host.Outcome State Fault Refusal :=
  let s := s.settleHold site (s.spireNs site)
  let h := (s.spire site).holdCtx c
  .next (if h.st = 4 then s.holdTo site (h.since + 64 * ((s.spireNs site - h.since) / 64 + 1)) else s)

/-- Cell-cycles of real products in an interval of 64 ns, as a share of 2^16 of the context's. -/
def HoldCtx.fillOf (h : HoldCtx) (a : Nat) : Nat :=
  h.work.foldl (fun n w => n + (min w.stop (a + 64) - max w.start a) * 1024 * w.real / max 1 w.total) 0

/-- SPARSE_INTERVAL_END (R163): a 64 ns interval of the time base ends. Sparse intervals that together span GAP_THRESH, short gaps among them, lower the duty; the first that is not sparse starts the ramp up. -/
def execSparseIntervalEnd (site c : Nat) (s : State) : Host.Outcome State Fault Refusal :=
  let a := s.spireNs site / 64 * 64
  let b := a + 64
  let s : State := { s with now := max s.now b }
  let s := s.settleHold site (s.spireNs site)
  let h := (s.spire site).holdCtx c
  let sparse := Nat.ble (2 * h.fillOf a) 65536
  let working := h.st == 1 || h.st == 2 || (h.st == 3 && h.bySparse)
  let h' :=
    if working = false then { h with sparseFrom := none }
    else if sparse then
      let from_ := h.sparseFrom.getD a
      if h.st ≠ 3 ∧ b - from_ ≥ s.gapThresh site then { h with sparseFrom := some from_, st := 3, duty := if h.st = 1 then 64 else h.duty, since := b, bySparse := true }
      else { h with sparseFrom := some from_ }
    else if h.st = 3 then { h with sparseFrom := none, st := 4, duty := max (h.dutyAt b) 1, since := b, frac := 0 }
    else { h with sparseFrom := none }
  .next (s.modSpire site (fun p => p.setHoldCtx c { h' with work := h'.work.filter (fun w => Nat.blt b w.stop) }))

/-- A write of GAP_THRESH (R142): compared at once with the current gap. -/
def State.writeGapThresh (s : State) (site v : Nat) : State :=
  let t := s.spireNs site
  let s := s.settleHold site t
  let s := s.setFld (R.SPR_ARR_CTL site) F.SPR_ARR_CTL_GAP_THRESH v
  let th := s.gapThresh site
  let f := fun (h : HoldCtx) => if h.st = 2 ∧ h.gapFrom + th ≤ t then { h with st := 3, since := t, bySparse := false } else h
  s.modSpire site (fun p => { p with hold0 := f p.hold0, hold1 := f p.hold1 })

/-- GAP_THRESH_WRITE (R142). -/
def execGapThreshWrite (site v : Nat) (s : State) : Host.Outcome State Fault Refusal := .next (s.writeGapThresh site v)

end Sys2Proof.Machine
end

