-- ==== Sys2Proof/Machine/Array.lean ====
section
/-!
DEFINITION. The matrix array: MMA, MMA.SP and MMA.DIAG (R130, R131, R149 to R156), the accumulation path (R49 to R53), zero-block skipping (R157 to R162), and their issue.
-/
namespace Sys2Proof.Machine

/-! Operands. -/

/-- The elements of a tile row under the tile's tag (R43, R44). -/
def State.rowElems (s : State) (site t r : Nat) : List Num :=
  match tagInfo (s.tagOp site t) with
  | some (f, n, _, _) => let v := ((s.spire site).tileRow t r).toNat; (List.range n).map (fun i => f.decode (elemAt v f.width i))
  | none => []

/-- The scale exponent of block `b` of a tile row: 0 without a scale plane, none for a NaN block (R40, R41). -/
def State.rowScale (s : State) (site t r b : Nat) : Option Int :=
  if tagScaled (s.tagOp site t) then scaleExp (((s.spire site).scaleRow t r).toNat / 256 ^ b % 256) else some 0

/-- Products of one reduction block with the two scales. -/
structure Block where
  pairs : List (Num × Num)
  sa : Option Int
  sb : Option Int
  deriving DecidableEq, Repr

/-- The exponent of the leading bit of a finite nonzero value. -/
def Num.expo : Num → Option Int
  | .fin _ m e => if m = 0 then none else some (e + m.log2)
  | _ => none

/-- The exponent of a nonzero product: the sum of its operands' (R49), so that a product lies below 2 to the exponent plus two and 80 bits hold the sum of 32 in any order. -/
def prodExp (p : Num × Num) : Option Int :=
  match p.1.expo, p.2.expo with
  | some x, some y => some (x + y)
  | _, _ => none

/-- The least significant bit of the window of some products. -/
def windowLsb (ps : List (Num × Num)) : Option Int := ((ps.filterMap prodExp).max?).map (fun e => e - 72)

/-- The exact sum of the products in the window of E_max (R49). -/
def windowSum (ps : List (Num × Num)) : Num :=
  match windowLsb ps with
  | none => .fin false 0 0
  | some q =>
    let v := ps.foldl (fun (v : Int) p =>
      match Num.mul p.1 p.2 with
      | .fin n m e => let w : Int := ((scaleTo m e q).1 : Nat); if n then v - w else v + w
      | _ => v) 0
    .fin (v < 0) v.natAbs q

/-- A block sum (R49, R50, R53), not yet rounded. -/
def Block.sum (b : Block) : Num :=
  match b.sa, b.sb with
  | some x, some y =>
    let ms := b.pairs.map (fun p => Num.mul p.1 p.2)
    if ms.any Num.isNan then .nan
    else if ms.contains (.inf true) then (if ms.contains (.inf false) then .nan else .inf true)
    else if ms.contains (.inf false) then .inf false
    else (windowSum b.pairs).scale (x + y)
  | _, _ => .nan

/-- Flags of the operands and the sum of a block (R61): the values of a NaN block are NaN, whatever its elements (R40). -/
def Block.flags (b : Block) (r : Num) : Nat :=
  let side := fun (sc : Option Int) (xs : List Num) => if sc.isNone && xs != [] then flNanIn else operandsFlags xs
  let f := side b.sa (b.pairs.map Prod.fst) ||| side b.sb (b.pairs.map Prod.snd)
  f ||| flagIf (r.isNan && f &&& flNanIn == 0) flInvalid

/-- One block enters an accumulator element (R50 to R52): a zero sum changes nothing. -/
def accumulate (a : Nat × Nat) (b : Block) : Nat × Nat :=
  let r := b.sum
  let fl := b.flags r
  if r.isZero then (a.1, a.2 ||| fl)
  else
    let (c, g) := roundTo fmtFp32 false none r
    let x := fmtFp32.decode a.1
    let y := fmtFp32.decode c
    let (d, h) := roundTo fmtFp32 false none (Num.add x y)
    let z := fmtFp32.decode d
    (d, a.2 ||| fl ||| g ||| h ||| operandFlags x ||| flagIf (z.isNan && !x.isNan && !y.isNan) flInvalid)

/-! The residue checks of an output element (R67). -/

/-- A number modulo 7; a negative one as (−|x|) mod 7. -/
def res7 (n : Int) : Nat := (n % 7).toNat

/-- The integer significand of a finite operand. -/
def Num.signif : Num → Nat
  | .fin _ m _ => m
  | _ => 0

/-- Multiply: the residue that the two significands predict, and that of their product. -/
def mulCheck (p : Num × Num) : Nat × Nat := (res7 p.1.signif * res7 p.2.signif % 7, res7 (p.1.signif * p.2.signif : Nat))

/-- An aligned product: a shift by k multiplies its residue by 2^(k mod 3), and bits that are discarded are removed first. -/
def alignedRes (m : Nat) (e q : Int) : Nat := if q ≤ e then res7 m * 2 ^ ((e - q).toNat % 3) % 7 else res7 (scaleTo m e q).1

/-- Block sum: the sum of the aligned products' residues, and the residue of the block sum. -/
def sumCheck (b : Block) : Nat × Nat :=
  match windowLsb b.pairs with
  | none => (0, 0)
  | some q =>
    (b.pairs.foldl (fun n p => match Num.mul p.1 p.2 with
        | .fin neg m e => (n + (if neg then 7 - alignedRes m e q else alignedRes m e q)) % 7
        | _ => n) 0,
     match windowSum b.pairs with | .fin neg m _ => res7 (if neg then -(m : Int) else m) | _ => 0)

/-- Accumulate: the residue of the two aligned significands with the rounding increment, and that of the new accumulator's significand. -/
def accCheck (a : Nat) (b : Block) : Nat × Nat :=
  let x := fmtFp32.decode a
  let y := fmtFp32.decode (roundTo fmtFp32 false none b.sum).1
  let z := fmtFp32.decode (accumulate (a, 0) b).1
  match Num.add x y, z with
  | .fin _ m e, .fin _ m' e' =>
    let w := (scaleTo m e e').1
    ((res7 w + res7 ((m' : Int) - w)) % 7, res7 m')
  | _, _ => (res7 z.signif, res7 z.signif)

/-! The operations (R130, R149). -/

/-- Reduction depth K of a class (R130). -/
def depthOf : TagClass → Nat
  | .wide => 32 | .half => 64 | .byte => 128 | .nibble => 256

def ArrIns.cols (i : ArrIns) : List Nat := match i.ctx with | none => List.range 64 | some c => (List.range 32).map (fun j => 32 * c + j)

/-- The B row of output column `j`: its tile and row. -/
def ArrIns.bRow (i : ArrIns) (j : Nat) : Nat × Nat := match i.ctx with | none => (if j < 32 then i.tb else i.tb2, j % 32) | some _ => (i.tb, j % 32)

/-- The next-numbered tile. -/
def nextTile (t : Nat) : Nat := (t + 1) % 16

/-- The tile and column of an MMA.DIAG operand for output column `j`. -/
def diagPlace (cls : TagClass) (t w j : Nat) : Nat × Nat :=
  match cls with
  | .wide => (if j < 32 then t else nextTile t, j % 32)
  | .half => (t, j)
  | _ => (t, 64 * w + j)

/-- The operand tiles an array instruction reads (R46). -/
def ArrIns.tiles (i : ArrIns) (f : AForm) (cls : TagClass) : List Nat :=
  match f with
  | .mma => [i.ta, i.tb] ++ (if i.ctx = none then [i.tb2] else [])
  | .sp => [i.ta, i.ta2, i.tb] ++ (if i.ctx = none then [i.tb2] else [])
  | .diag => (i.cols.flatMap (fun j => [(diagPlace cls i.ta i.window j).1, (diagPlace cls i.tb i.window j).1])).eraseDups

/-- The tiles whose tags are checked (R45, R46): with both tiles of an FP32 window, in the split form too. -/
def ArrIns.checked (i : ArrIns) (f : AForm) (cls : TagClass) : List Nat :=
  match f, cls with
  | .diag, .wide => [i.ta, nextTile i.ta, i.tb, nextTile i.tb]
  | _, _ => i.tiles f cls

/-- Stored elements per B row of an instruction, and the first (R150). -/
def ArrIns.stored (i : ArrIns) (k : Nat) : Nat × Nat := if i.p416 then (k / 2, i.half * (k / 2)) else (k, 0)

/-- The position field of stored element `x` of output column `j` (R151, R152). -/
def State.spPos (s : State) (site : Nat) (i : ArrIns) (k j x : Nat) : Nat :=
  let u := match i.ctx with | none => if j < 32 then 0 else 1 | some c => c
  let row := ((s.spire site).tileRow i.tm (j % 32)).toNat
  let base := 8 * (64 * u + i.slot * (k / 4))
  if i.p416 then 16 * (x / 4) + row / 2 ^ (base + 16 * (x / 4) + 4 * (x % 4)) % 16 else 4 * (x / 2) + row / 2 ^ (base + 4 * (x / 2) + 2 * (x % 2)) % 4

/-- A elements of logical block `q` of row `r`, with their scale. -/
def State.aBlock (s : State) (site : Nat) (f : AForm) (i : ArrIns) (k r q : Nat) : List Num × Option Int :=
  if f = .sp ∧ k / 32 ≤ q then (((s.rowElems site i.ta2 r).drop (32 * (q - k / 32))).take 32, s.rowScale site i.ta2 r (q - k / 32))
  else (((s.rowElems site i.ta r).drop (32 * q)).take 32, s.rowScale site i.ta r q)

/-- B elements that meet block `q` in output column `j`, their scale, and for MMA.SP the A element each meets within the block. -/
def State.bBlock (s : State) (site : Nat) (f : AForm) (i : ArrIns) (k j q : Nat) : List (Num × Nat) × Option Int :=
  let (t, r) := i.bRow j
  match f with
  | .sp =>
    let per := if i.p416 then 8 else 16
    let first := (i.stored k).2
    let xs := s.rowElems site t r
    ((List.range per).map (fun y => let x := per * q + y; (xs.getD (first + x) (.fin false 0 0), s.spPos site i k j x - 32 * q)), s.rowScale site t r ((first + per * q) / 32))
  | _ =>
    let xs := ((s.rowElems site t r).drop (32 * q)).take 32
    (xs.zip (List.range 32), s.rowScale site t r q)

/-- The products of block `q` for output (r, j). -/
def mkBlock (a : List Num × Option Int) (b : List (Num × Nat) × Option Int) : Block :=
  { pairs := b.1.map (fun (y : Num × Nat) => (a.1.getD y.2 (.fin false 0 0), y.1)), sa := a.2, sb := b.2 }

/-- The one product of MMA.DIAG for output (r, j). -/
def State.diagBlock (s : State) (site : Nat) (i : ArrIns) (cls : TagClass) (r j : Nat) : Block :=
  let (ta, ca) := diagPlace cls i.ta i.window j
  let (tb, cb) := diagPlace cls i.tb i.window j
  { pairs := [((s.rowElems site ta r).getD ca (.fin false 0 0), (s.rowElems site tb r).getD cb (.fin false 0 0))],
    sa := s.rowScale site ta r (ca / 32), sb := s.rowScale site tb r (cb / 32) }

/-! Skipping and gating (R157 to R161). -/

/-- Which bands of a block are all zero in A, and whether no non-finite B element meets it (R158). -/
structure Judged where
  zero : List Bool
  finite : Bool
  deriving DecidableEq, Repr

def Judged.allZero (d : Judged) : Bool := d.zero != [] && d.zero.all id

def Judged.skippable (d : Judged) : Bool := d.allZero && d.finite

def State.judge (s : State) (site : Nat) (f : AForm) (i : ArrIns) (k q : Nat) : Judged :=
  { zero := (List.range 4).map (fun b => (List.range 8).all (fun r => let x := s.aBlock site f i k (8 * b + r) q; x.2.isSome && x.1.all Num.isZero)),
    finite := i.cols.all (fun j => let y := s.bBlock site f i k j q; y.2.isSome && y.1.all (fun (z : Num × Nat) => !z.1.isNan && !z.1.isInf)) }

/-- The decision on block `q`: where the two detectors disagree, neither skipped nor gated (R159). -/
def State.pairedJudge (s : State) (site : Nat) (f : AForm) (i : ArrIns) (k q : Nat) : Judged := if i.disagree.contains q then { zero := [], finite := true } else s.judge site f i k q

/-- Blocks of an instruction. -/
def blocksOf (f : AForm) (k : Nat) : Nat := match f with | .mma => k / 32 | .sp => 2 * k / 32 | .diag => 0

/-- Minimum occupancy (R86). -/
def minOcc (f : AForm) (cls : TagClass) : Nat :=
  match f with
  | .diag => (match cls with | .wide => 256 | .half => 64 | .byte => 32 | .nibble => 16)
  | _ => if cls = .wide then 256 else 128

/-- The counters of R165. -/
def State.skipCounts (s : State) (site : Nat) (js : List Judged) (c : Nat) (skipOn gateOn : Bool) : State :=
  let z := (js.filter Judged.skippable).length
  let bands := js.foldl (fun n d =>
    if skipOn && d.skippable then n + 4 else if gateOn && d.finite then n + (d.zero.filter id).length else n) 0
  let decl := (js.filter (fun d => d.allZero && !d.finite)).length
  let b := fun (s : State) off n => if n = 0 then s else s.bump off n
  let s := if skipOn then b (b s (R.SPR_SKIP_KBLK site) z) (R.SPR_SKIP_SAVED site) (z * c / 2) else s
  b (b s (R.SPR_SKIP_BAND site) bands) (R.SPR_SKIP_DECLINED site) decl

/-- Disagreements of the detectors: counted, and at the first of a task Lantern writes a corrected-class record (R159, R550). -/
def State.noteDisagree (s : State) (site n : Nat) : State :=
  if n = 0 then s
  else
    let s := s.bump (R.SPR_SKIP_DISAGREE site) n
    match s.taskAt site with
    | some t => if t.disagreed then s else (s.setTask { t with disagreed := true }).note 0x0204 0 2 site (s.reg (R.SPR_SKIP_DISAGREE site)).toNat 0
    | none => s

/-- The parts of an occupancy of `occ0` cycles, `c` of them a block (R86, R160, R163). -/
def partsOf (js : List Judged) (occ0 c : Nat) (skipOn gateOn : Bool) : List APart :=
  if js = [] then [{ n := occ0, kind := 0 }]
  else js.map (fun d =>
    let g := if gateOn && d.finite then (d.zero.filter id).length else 0
    if skipOn && d.skippable then { n := c / 2, kind := 1 } else if g = 0 then { n := c, kind := 0 } else if g = 4 then { n := c, kind := 1 } else { n := c, kind := 2, share := 16 * (4 - g) })

/-! The result. -/

/-- A row of an accumulator as an array instruction takes it: what array results in flight on it will have left (R80). -/
def Spire.chainedRow (p : Spire) (ac ctxs r : Nat) : BitVec 2048 :=
  let ls := sortOn Landing.seq (p.landings.filter (fun l => l.ctxs != 0 && l.ac == ac && l.ctxs &&& ctxs != 0))
  ls.foldl (fun v l => l.writes.foldl (fun v w => match w with | .acc a x d m => if a = ac ∧ x = r then merge v d m else v | _ => v) v) (p.accRow ac r)

/-- An array result in flight on an accumulator, in these contexts. -/
def Spire.chains (p : Spire) (ac ctxs : Nat) : Bool := p.landings.any (fun l => l.ctxs != 0 && l.ac == ac && l.ctxs &&& ctxs != 0)

def ArrIns.ctxs (i : ArrIns) : Nat := match i.ctx with | none => 3 | some 0 => 1 | some _ => 2

/-- Band `b` forms the products of a block. -/
def Judged.forms (d : Judged) (gateOn skipOn : Bool) (b : Nat) : Bool := !((skipOn && d.skippable) || (gateOn && d.finite && d.zero.getD b false))

/-- One output element: its code and flags. -/
def State.arrElem (s : State) (site : Nat) (f : AForm) (i : ArrIns) (cls : TagClass) (js : List Judged) (gateOn skipOn : Bool) (start : Nat) (r j : Nat) : Nat × Nat :=
  let k := depthOf cls
  match f with
  | .diag => accumulate (start, 0) (s.diagBlock site i cls r j)
  | _ =>
    (List.range (blocksOf f k)).foldl (fun a q =>
      match js[q]? with
      | some d =>
        if d.forms gateOn skipOn (r / 8) then accumulate a (mkBlock (s.aBlock site f i k r q) (s.bBlock site f i k j q)) else a
      | none => a) (start, 0)

/-- The residue check of an array instruction that an armed corruption meets (R67, R71, R73, R166): of one of the elements and blocks that form products, at one of the three check points. `start` is an
element's value before the instruction. -/
def State.arrResidue (s : State) (site : Nat) (f : AForm) (i : ArrIns) (cls : TagClass) (js : List Judged) (gateOn skipOn : Bool) (choice : Nat) (start : Nat → Nat → Nat) : Option Rsd :=
  let k := depthOf cls
  let blocks := fun (r : Nat) => if f = .diag then [0] else (List.range (blocksOf f k)).filter (fun q => match js[q]? with | some d => d.forms gateOn skipOn (r / 8) | none => false)
  let rows := (List.range 32).filter (fun r => blocks r != [])
  match rows with
  | [] => none
  | first :: _ =>
    let r := rows.getD (choice % rows.length) first
    let j := i.cols.getD (choice / 2 ^ 8 % i.cols.length) 0
    let q := (blocks r).getD (choice / 2 ^ 16 % (blocks r).length) 0
    let b := if f = .diag then s.diagBlock site i cls r j else mkBlock (s.aBlock site f i k r q) (s.bBlock site f i k j q)
    let before := if f = .diag then start r j else ((blocks r).filter (fun x => Nat.blt x q)).foldl (fun a x => (accumulate (a, 0) (mkBlock (s.aBlock site f i k r x) (s.bBlock site f i k j x))).1) (start r j)
    let point := 1 + choice / 2 ^ 24 % 3
    let (p, o) := if point = 1 then mulCheck (b.pairs.getD (choice / 2 ^ 28 % max 1 b.pairs.length) (.nan, .nan)) else if point = 2 then sumCheck b else accCheck before b
    some { row := r, col := j, point := point, expected := corrupted 7 p (choice / 2 ^ 40), observed := o }

/-- The checks at issue: the class of the operands, or the class of the fault (R45, R46, R156). -/
def State.arrCheck (s : State) (site : Nat) (f : AForm) (i : ArrIns) : Except Nat TagClass :=
  let tag := fun t => s.tagOp site t
  let inRange := Nat.blt i.ac 4 && Nat.blt i.ta 16 && Nat.blt i.ta2 16 && Nat.blt i.tb 16 && Nat.blt i.tb2 16 && Nat.blt i.tm 16 && Nat.blt i.half 2
    && (match i.ctx with | none => true | some c => Nat.blt c 2)
  if inRange = false then .error clIllegal else
  match tagInfo (tag i.ta) with
  | none => .error clFormat
  | some (_, _, _, cls) =>
    let ok := (i.checked f cls).all (fun t => match tagInfo (tag t) with | some (_, _, _, c) => c == cls | none => false)
    let accOk := (i.accumulate && (s.spire site).chains i.ac i.ctxs) || s.tagAcc site i.ac == 0
    let spOk := f != .sp || (tag i.tm == 0xC && Nat.blt i.slot (256 / depthOf cls))
    let wOk := f != .diag || (match cls with | .byte => Nat.blt i.window 2 | .nibble => Nat.blt i.window 4 | _ => true)
    if ok && accOk && spOk then (if wOk then .ok cls else .error clIllegal) else .error clFormat

/-- Latency beyond the occupancy: 107, in split mode 75; one less in native latency on an unrepaired array (R86, R88). -/
def State.arrTail (s : State) (site : Nat) (i : ArrIns) : Nat :=
  (if i.ctx = none then 107 else 75) - (if s.fld (R.SPR_CTL site) F.SPR_CTL_LAT_NATIVE = 1 ∧ s.fld (R.SPR_CAP site) F.SPR_CAP_ARRAY_ADJ = 0 then 1 else 0)

/-- The mask of an instruction's columns in an accumulator row. -/
def ctxMask (ctxs : Nat) : BitVec 2048 :=
  BitVec.ofNat 2048 ((if ctxs % 2 = 1 then 2 ^ 1024 - 1 else 0) + (if 2 ≤ ctxs then (2 ^ 1024 - 1) * 2 ^ 1024 else 0))

/-- Issue an array instruction (or an iteration) at cycle `t`, where the spire stands (R78 to R81, R130 to R134, R159, R160): whether it issued, its occupancy, the state. -/
def State.arrIssue (s : State) (site : Nat) (f : AForm) (i : ArrIns) (t q : Nat) (land rel : Option AttSig) (iter : Option Nat) : Bool × Nat × State :=
  let eng := match i.ctx with | some 1 => 1 | _ => 0
  match s.arrCheck site f i with
  | .error c => (false, 0, s.spireFault site c eng 0 q 0 iter)
  | .ok cls =>
    let k := depthOf cls
    let n := blocksOf f k
    let skipOn := s.fld (R.SPR_SKIP_CTL site) F.SPR_SKIP_CTL_SKIP_EN == 1
    let gateOn := s.fld (R.SPR_SKIP_CTL site) F.SPR_SKIP_CTL_BAND_GATE == 1
    let js := (List.range n).map (fun x => s.pairedJudge site f i k x)
    let p := s.spire site
    let reads : List Res := ((i.tiles f cls) ++ (if f = .sp then [i.tm] else [])).map (fun x => (0, x)) ++ (if i.accumulate then [(1, i.ac)] else [])
    let chained := fun (l : Landing) => l.ctxs != 0 && l.ac == i.ac && l.targets == [(1, l.ac)]
    let (go, s) := s.earlyReads site eng q reads chained iter
    if go = false then (false, 0, s) else
    let occ0 := minOcc f cls
    let c := if n = 0 then 0 else occ0 / n
    let z := if skipOn then (js.filter Judged.skippable).length else 0
    let occ := occ0 - z * c / 2
    let start := fun (r j : Nat) => if i.accumulate then elemAt (p.chainedRow i.ac i.ctxs r).toNat 32 j else 0
    let elems := (List.range 32).map (fun r => i.cols.map (fun j => (j, s.arrElem site f i cls js gateOn skipOn (start r j) r j)))
    let rsd := s.arrResidue site f i cls js gateOn skipOn (residueChoice site p.seq) start
    let s := s.noteDisagree site ((List.range n).filter (fun x => i.disagree.contains x)).length
    let s := s.skipCounts site js c skipOn gateOn
    let s := if f = .sp then s.bump (R.SPR_SP_ISSUE site) else s
    let rows := elems.map (fun xs => xs.foldl (fun (v : Nat) x => v + x.2.1 * 2 ^ (32 * x.1)) 0)
    let flags := elems.foldl (fun g xs => xs.foldl (fun g x => g ||| x.2.2) g) 0
    let writes := (List.range 32).map (fun r => SWr.acc i.ac r (BitVec.ofNat 2048 (rows.getD r 0)) (ctxMask i.ctxs)) ++ [SWr.tagAcc i.ac 0]
    let gatedBands := js.foldl (fun m d => if (skipOn && d.skippable) then m else if gateOn && d.finite then m + (d.zero.filter id).length else m) 0
    let total := 4 * occ
    let (st, s) := s.holdIssue site i.ctxs t (partsOf js occ0 c skipOn gateOn) (if f = .diag then total / 32 else total - 2 * z * c - gatedBands * c) total
    let (seq, s) := s.nextSeq site
    let s := s.modSpire site (fun p => { p with landings := p.landings ++ [{ due := t + occ + st + s.arrTail site i, seq := seq, eng := eng, qpos := q, writes := writes, sig := land,
                                                                                                flags := flags, ac := i.ac, ctxs := i.ctxs, mov := none, acc := i.accumulate,
                                                                                                iter := iter, haz := s.hazEn site, trap := s.fld (R.SPR_CTL site) F.SPR_CTL_HAZ_TRAP == 1, rsd := rsd }] })
    (true, occ + st, s.pushSig site t eng q rel iter)

/-- The earliest issue of an array instruction (R132). -/
def Spire.arrAt (p : Spire) (i : ArrIns) : Nat :=
  match i.ctx with
  | none => max (max p.cycle p.mat.free) (max p.ctxFree0 p.ctxFree1)
  | some c => max (max p.cycle p.matNext) (if c = 0 then p.ctxFree0 else p.ctxFree1)

/-- After issue: positions and the next issue. A split instruction lets the other context's issue on the next cycle (R132), unless it is the last iteration of a looped one, whose occupancy passes first (R182);
what is no array instruction waits for the whole occupancy (DESIGN CHOICE, notes/assumptions/113.md). -/
def State.arrIssued (s : State) (site : Nat) (i : ArrIns) (t occ : Nat) (advance whole : Bool) : State :=
  let extra := if s.hazEn site then 1 else 0
  s.modSpire site (fun p => { p with
    mat := { p.mat with free := max p.mat.free (t + occ + extra), qpos := p.mat.qpos + (if advance then 1 else 0), pc := p.mat.pc + (if advance then 1 else 0),
                        queue := if advance then p.mat.queue - 1 else p.mat.queue },
    matNext := if i.ctx.isSome && !whole then t + 1 + extra else t + occ + extra,
    ctxFree0 := if i.ctxs % 2 = 1 then p.ctxFree0 + extra else p.ctxFree0,
    ctxFree1 := if 2 ≤ i.ctxs then p.ctxFree1 + extra else p.ctxFree1 })

end Sys2Proof.Machine
end

