-- ==== Sys2Proof/Machine/Loops.lean ====
section
/-!
DEFINITION. Descriptors and hardware loops (R175 to R195), and the array and mover commands, which may name a descriptor.
-/
namespace Sys2Proof.Machine

/-! Descriptors (R176, R177). -/

/-- `n` bytes of a descriptor from byte `o`. -/
def dField (d : BitVec 2048) (o n : Nat) : Nat := d.toNat / 2 ^ (8 * o) % 2 ^ (8 * n)

def signed (w v : Nat) : Int := if v < 2 ^ (w - 1) then v else (v : Int) - (2 ^ w : Nat)

def dCount (d : BitVec 2048) (k : Nat) : Nat := dField d (8 + 4 * k) 4
def dStride (d : BitVec 2048) (k s : Nat) : Int := signed 32 (dField d (32 + 16 * k + 4 * s) 4)
def dBase (d : BitVec 2048) (s : Nat) : Nat := dField d (128 + 8 * s) 8
def dAdv (d : BitVec 2048) (s : Nat) : Int := signed 64 (dField d (160 + 8 * s) 8)
def dLevels (d : BitVec 2048) : Nat := dField d 0 8 % 16
def dSigLevel (d : BitVec 2048) : Nat := dField d 0 8 / 2 ^ 4 % 8
def dAccLevel (d : BitVec 2048) : Nat := dField d 0 8 / 2 ^ 8 % 8
def dGateLevel (d : BitVec 2048) : Nat := dField d 0 8 / 2 ^ 12 % 8
def dGateN (d : BitVec 2048) : Nat := dField d 0 8 / 2 ^ 16 % 256
def dGateCell (d : BitVec 2048) : Nat := dField d 0 8 / 2 ^ 24 % 64

/-- Reserved fields are zero (R176, R177). -/
def dReservedOk (d : BitVec 2048) : Bool :=
  let h := dField d 0 8
  h / 2 ^ 30 == 0 && h / 2 ^ 15 % 2 == 0 && h / 2 ^ 11 % 2 == 0 && h / 2 ^ 7 % 2 == 0 && dField d 192 64 == 0 && (List.range 4).all (fun s => Nat.blt (dBase d s) (2 ^ 48))

/-- The levels of the header are in range (R179). -/
def dLevelsOk (d : BitVec 2048) : Bool :=
  let l := dLevels d
  let ok := fun x => x == 7 || (Nat.blt x (max l 1) && x != 6)
  Nat.ble l 6 && ok (dSigLevel d) && (dGateN d == 0 || ok (dGateLevel d)) && Nat.ble (dAccLevel d) l

/-- What a looped body moves: the slots of its form (R178): granule (1 for an index) and modulus. -/
abbrev Slots := List (Nat × Nat × Nat)

def MovOp.slots (m : MovOp) : Slots :=
  match m.form with
  | .copyIn => [(0, 128, 2 ^ 48), (1, 128, 2 ^ 48)]
  | .copyOut => [(0, 128, 2 ^ 48), (1, 128, 2 ^ 48)]
  | f =>
    let g := match f with | .transposed => max 1 m.rowBytes | _ => 128
    [(0, g, 2 ^ 48), (1, 1, if f = .accLoad ∨ f = .accStore then 4 else 16)] ++ (if f = .loadScale ∨ f = .storeScale ∨ (f = .accStore ∧ m.scaleRowBytes ≠ 0) then [(2, 1, 2 ^ 48)] else [])

/-- Slots per half of a metadata tile for the class of a tile's tag (R151). -/
def State.slotsPerHalf (s : State) (site t : Nat) : Nat := match tagInfo (s.tagOp site t) with | some (_, _, _, c) => 256 / depthOf c | none => 1

def State.bodySlots (s : State) (site : Nat) (d : BitVec 2048) (b : LoopBody) : Slots :=
  match b with
  | .mov m => m.slots
  | .arr f _ => [(0, 1, 16), (1, 1, 16), (2, 1, 4)] ++ (if f = .sp then [(3, 1, 16 * s.slotsPerHalf site (dBase d 0 % 16))] else [])

/-- An address slot's BASE, its STRIDE of every level and its ADV are multiples of its granule (R179). -/
def granulesOk (d : BitVec 2048) (ss : Slots) : Bool :=
  ss.all (fun x => dBase d x.1 % x.2.1 == 0 && dAdv d x.1 % x.2.1 == 0 && (List.range 6).all (fun k => dStride d k x.1 % x.2.1 == 0))

/-- The indices of iteration `n`, level 0 first (R181). -/
def indices (d : BitVec 2048) (n : Nat) : List Nat :=
  ((List.range (dLevels d)).foldl (fun (a : List Nat × Nat) k => let c := max 1 (dCount d k); (a.1 ++ [a.2 % c], a.2 / c)) ([], n)).1

/-- Iterations of the nest. -/
def tripCount (d : BitVec 2048) : Nat := (List.range (dLevels d)).foldl (fun n k => n * dCount d k) 1

/-- The value of a slot at iteration `n` (R181). -/
def slotValue (d : BitVec 2048) (ss : Slots) (n s : Nat) : Nat :=
  match ss.find? (fun x => x.1 == s) with
  | some (_, _, m) =>
    let is := indices d n
    let v : Int := (List.range is.length).foldl (fun (v : Int) k => v + (is.getD k 0 : Nat) * dStride d k s) (dBase d s)
    (v % (m : Int)).toNat
  | none => 0

/-- The lowest `g` indices of iteration `n` are all zero. -/
def lowZero (d : BitVec 2048) (n g : Nat) : Bool := ((indices d n).take g).all (· == 0)

/-- The lowest `g` indices all stand at their last. -/
def lowLast (d : BitVec 2048) (n g : Nat) : Bool := (((indices d n).take g).zip (List.range g)).all (fun (x : Nat × Nat) => x.1 + 1 == dCount d x.2)

/-- Iteration `n` is gated (R187). -/
def gated (d : BitVec 2048) (n : Nat) : Bool := dGateN d != 0 && (if dGateLevel d = 7 then n == 0 else lowZero d n (dGateLevel d))

/-- Iteration `n` fires the attached signal (R186). -/
def fires (d : BitVec 2048) (n total : Nat) : Bool := if dSigLevel d = 7 then n + 1 == total else lowLast d n (dSigLevel d)

/-- The accumulate bit of iteration `n` (R185). -/
def accOf (d : BitVec 2048) (n : Nat) (bit : Bool) : Bool := if dAccLevel d = 0 then bit else !lowZero d n (dAccLevel d)

/-- The advance of R190, field by field, after the working copy is taken. Fields under `keep` were written by a landing of this cycle, which prevails (R191). -/
def advance (d : BitVec 2048) (ss : Slots) (keep : BitVec 2048) : BitVec 2048 :=
  let d' := ss.foldl (fun (v : BitVec 2048) x =>
    let b := (((dBase d x.1 : Int) + dAdv d x.1) % (x.2.2 : Int)).toNat
    merge v (BitVec.ofNat 2048 (b * 2 ^ (8 * (128 + 8 * x.1)))) (BitVec.ofNat 2048 ((2 ^ 64 - 1) * 2 ^ (8 * (128 + 8 * x.1))))) d
  merge d' d keep

/-! Issue of a looped instruction. -/

/-- The bits of a descriptor that landings have written in the cycle the spire stands at: they prevail over its advance (R191). -/
def Spire.descLanded (p : Spire) (k : Nat) : BitVec 2048 := p.descs.foldl (fun (v : BitVec 2048) x => if x.1 = k then v ||| x.2 else v) 0

/-- An iteration of an array body (R184, R185). -/
def State.arrAtIter (s : State) (site : Nat) (d : BitVec 2048) (f : AForm) (i : ArrIns) (n : Nat) : ArrIns :=
  let ss : Slots := [(0, 1, 16), (1, 1, 16), (2, 1, 4)]
  let ta := slotValue d ss n 0
  let tb := slotValue d ss n 1
  let sph := s.slotsPerHalf site ta
  let qv := slotValue d [(3, 1, 16 * sph)] n 3
  { i with ta := ta, ta2 := nextTile ta, tb := tb, tb2 := nextTile tb, ac := slotValue d ss n 2, accumulate := accOf d n i.accumulate,
           tm := if f = .sp then qv / sph else i.tm, slot := if f = .sp then qv % sph else i.slot }

/-- An iteration of a mover body. -/
def movAtIter (d : BitVec 2048) (m : MovOp) (n total : Nat) : MovOp :=
  let v := slotValue d m.slots n
  let m := { m with iter := some n, base := v 0, sig := if fires d n total then m.sig else none }
  match m.form with
  | .copyIn => { m with ls := v 1, stride := 512 }
  | .copyOut => { m with ls := v 1, stride := 512 }
  | _ => { m with t := v 1, sbase := if m.slots.any (fun x => x.1 == 2) then v 2 else m.sbase }

/-- What an operation takes from the spire at its issue: HAZ_EN and HAZ_TRAP (R109), E5M2_INF (R64), and a store its source tag (R78). -/
def State.latchTag (s : State) (site : Nat) (m : MovOp) : MovOp :=
  let m := { m with haz := s.hazEn site, trap := s.fld (R.SPR_CTL site) F.SPR_CTL_HAZ_TRAP == 1, inf := s.e5m2Inf site }
  match m.form with
  | .accStore => { m with stag := s.tagAcc site m.t }
  | .store => { m with stag := s.tagOp site m.t }
  | .storeScale => { m with stag := s.tagOp site m.t }
  | _ => m

def State.modEng (s : State) (site : Nat) (e : Engine) (f : Eng → Eng) : State := s.modSpire site (fun p => p.setEng e (f (p.eng e)))

/-- The engine number of an instruction in a fault record (R111): a split instruction of context 1 has its own. -/
def LoopBody.engNo (b : LoopBody) (e : Engine) : Nat := match b with | .arr _ i => (match i.ctx with | some 1 => 1 | _ => 0) | .mov _ => Machine.engNo e

/-- Issue the next iteration of an engine's loop (R181 to R187): its gate first, then its body. A split array iteration waits for its own context's occupancy alone (R184). A gate that is open before the
iteration's cycle is taken in it, another one holds the engine (R75, R187); its cell's kind is checked each time (R216). -/
def State.loopStep (s : State) (site : Nat) (e : Engine) : State :=
  match ((s.spire site).eng e).loop with
  | none => s
  | some l =>
    if s.issuing site e = false then s else
    let p := s.spire site
    let t := match l.body with
      | .arr _ i => p.arrAt i
      | .mov _ => p.issueAt e
    let s := s.runTo site t
    let x := (s.spire site).eng e
    if s.issuing site e = false ∨ s.slotsFree site e = false then s else
    let q := x.qpos - 1
    let c := dGateCell l.desc
    let g := dGateN l.desc
    let gate := gated l.desc l.next && !l.gateTaken
    if gate && !s.cellIs site c 0 then s.spireFault site clSync (l.body.engNo e) 0 q 0 (some l.next)
    else
    let (free, s) := if gate then (if s.waitHolds site e (.gate c g) then s.tryTake site c g t else (false, s)) else (true, s)
    if free = false then s.modEng site e (fun x => { x with st := .wait, wait := some (.gate c g), since := t, resume := none })
    else
      let total := l.total
      let n := l.next
      let after := fun (s : State) => (s.bump (R.SPR_LOOP_ITER site)).modEng site e (fun x =>
        { x with loop := if n + 1 = total then none else some { l with next := n + 1, gateTaken := false } })
      match l.body with
      | .arr f i =>
        let sig := if fires l.desc n total then i.sig else none
        let i := s.arrAtIter site l.desc f i n
        let (ok, occ, s) := s.arrIssue site f i t q (landSig sig) (relSig sig) (some n)
        if ok then after (s.arrIssued site i t occ false (n + 1 == total)) else s
      | .mov m =>
        let m := s.latchTag site (movAtIter l.desc m n total)
        let (ok, s) := s.movIssue site m t
        let extra := if s.hazEn site then 1 else 0
        if ok then after (s.modEng site e (fun x => { x with free := t + m.occ + extra })) else s

/-- The checks of a descriptor at issue (R179): the class of a fault. -/
def State.descFault (s : State) (site : Nat) (d : BitVec 2048) (ss : Slots) : Option Nat :=
  if dReservedOk d = false ∨ dLevelsOk d = false ∨ granulesOk d ss = false then some clIllegal
  else if dGateN d ≠ 0 ∧ s.cellIs site (dGateCell d) 0 = false then some clSync
  else none

/-- Start a looped instruction at cycle `t`, or end it at once if it is zero-trip (R180, R188, R190): the descriptor's checks come before its counts are looked at, and its working copy and advance before the
wait of a gated iteration 0 (DESIGN CHOICE, notes/assumptions/116.md). -/
def State.startLoop (s : State) (site : Nat) (e : Engine) (t k : Nat) (d : BitVec 2048) (body : LoopBody) (sig : Option AttSig) : State :=
  let q := ((s.spire site).eng e).qpos
  let n := body.engNo e
  let ss := s.bodySlots site d body
  match s.descFault site d ss with
  | some cls => s.spireFault site cls n 0 q 0
  | none =>
    let s := s.modRegs site (fun r => { r with descs := tset (fun _ => 0) r.descs k (advance d ss ((s.spire site).descLanded k)) })
    if tripCount d = 0 then
      let s := s.bump (R.SPR_LOOP_ZERO site)
      let s := s.pushSig site (t + 1) n q (landSig sig)
      (s.pushSig site t n q (relSig sig)).issued site e t 1
    else
      let body := match body with
        | .mov m =>
          let v := slotValue d ss 0
          LoopBody.mov { m with win := if m.global then s.windowOf (v 0) else none, swin := if m.global ∧ m.scaleRowBytes ≠ 0 then s.windowOf (v 2) else none }
        | b => b
      let s := s.modEng site e (fun x => { x with qpos := x.qpos + 1, pc := x.pc + 1, queue := x.queue - 1, loop := some { desc := d, body := body, next := 0, total := tripCount d, gateTaken := false } })
      s.loopStep site e

/-- LOOP_ITERATION_ISSUE (R182): the next iteration of a looped instruction issues when its turn comes. -/
def execLoopIterationIssue (site : Nat) (e : Engine) (s : State) : Host.Outcome State Fault Refusal := .next (s.loopStep site e)

/-! Array commands. -/

/-- Issue an array instruction, looped or not (R130, R149, R180). -/
def State.arrCommand (s : State) (site : Nat) (f : AForm) (i : ArrIns) : State :=
  let s := s.ready site .matrix
  if s.canIssue site .matrix = false then s else
  let t := (s.spire site).arrAt i
  let s := s.runTo site t
  if s.takes site .matrix = false then s else
  let q := (s.spire site).mat.qpos
  let n := LoopBody.engNo (.arr f i) .matrix
  if sigForm .matrix i.sig = false then s.spireFault site clIllegal n 0 q 0
  else if s.sigOk site i.sig = false then s.spireFault site clSync n 0 q 0
  else
    let plain := fun (s : State) =>
      let (ok, occ, s) := s.arrIssue site f i t q (landSig i.sig) (relSig i.sig) none
      if ok then s.arrIssued site i t occ true false else s
    match i.desc with
    | none => plain s
    | some k =>
      if Nat.ble 32 k then s.spireFault site clIllegal n 0 q 0
      else
        let d := (s.spire site).desc k
        if dLevels d ≠ 0 then s.startLoop site .matrix t k d (.arr f i) i.sig
        else match s.descFault site d (s.bodySlots site d (.arr f i)) with
          | some cls => s.spireFault site cls n 0 q 0
          | none => plain s

/-- MMA (R130). -/
def execMma (site : Nat) (i : ArrIns) (s : State) : Host.Outcome State Fault Refusal := .next (s.arrCommand site .mma i)

/-- MMA.SP (R149). -/
def execMmaSp (site : Nat) (i : ArrIns) (s : State) : Host.Outcome State Fault Refusal := .next (s.arrCommand site .sp i)

/-- MMA.DIAG (R130). -/
def execMmaDiag (site : Nat) (i : ArrIns) (s : State) : Host.Outcome State Fault Refusal := .next (s.arrCommand site .diag i)

/-! Mover commands. -/

/-- A mover operation as it stands at its issue: its stream position, the windows of its rows (R193), the source tag of a store (R78). -/
def State.movAtIssue (s : State) (site : Nat) (m : MovOp) : MovOp :=
  s.latchTag site { m with qpos := (s.spire site).mov.qpos, win := if m.global then s.windowOf m.base else none, swin := if m.global ∧ m.scaleRowBytes ≠ 0 then s.windowOf m.sbase else none }

/-- Issue a mover operation, looped or not. -/
def State.movCommand (s : State) (site : Nat) (m : MovOp) (desc : Option Nat) : State :=
  let s := s.ready site .mover
  if s.canIssue site .mover = false then s else
  let t := (s.spire site).issueAt .mover
  let s := s.runTo site t
  if s.takes site .mover = false then s else
  let q := (s.spire site).mov.qpos
  if sigForm .mover m.sig = false then s.spireFault site clIllegal 3 0 q 0
  else if s.sigOk site m.sig = false then s.spireFault site clSync 3 0 q 0
  else
    let plain := fun (s : State) =>
      let m := s.movAtIssue site m
      let (ok, s) := s.movIssue site m t
      if ok then s.issued site .mover t m.occ else s
    match desc with
    | none => plain s
    | some k =>
      if Nat.ble 32 k then s.spireFault site clIllegal 3 0 q 0
      else
        let d := (s.spire site).desc k
        if dLevels d ≠ 0 then s.startLoop site .mover t k d (.mov { m with qpos := q }) m.sig
        else match s.descFault site d (s.bodySlots site d (.mov m)) with
          | some cls => s.spireFault site cls 3 0 q 0
          | none => plain s

/-- The operation a tile form names (R119, R120): base and stride in granules of the form. -/
def tileOp (f : MForm) (i : TileIns) : MovOp :=
  let g := match f with | .transposed => (match transposedShape i.tag with | some (_, b) => b | none => 1) | _ => 128
  { form := f, global := i.global, t := i.t, base := i.base * g, stride := i.stride * g, sbase := i.sbase, sstride := i.sstride, tag := i.tag, stag := 0, n := 0, ls := 0,
    win := none, swin := none, qpos := 0, iter := none, sig := i.sig }

/-- TILE_LOAD (R119). -/
def execTileLoad (site : Nat) (i : TileIns) (s : State) : Host.Outcome State Fault Refusal := .next (s.movCommand site (tileOp .load i) i.desc)

/-- TILE_LOAD_SCALE (R126). -/
def execTileLoadScale (site : Nat) (i : TileIns) (s : State) : Host.Outcome State Fault Refusal := .next (s.movCommand site (tileOp .loadScale i) i.desc)

/-- TRANSPOSED_LOAD (R127). -/
def execTransposedLoad (site : Nat) (i : TileIns) (s : State) : Host.Outcome State Fault Refusal := .next (s.movCommand site (tileOp .transposed i) i.desc)

/-- ACCUMULATOR_LOAD (R128). -/
def execAccumulatorLoad (site : Nat) (i : TileIns) (s : State) : Host.Outcome State Fault Refusal := .next (s.movCommand site (tileOp .accLoad i) i.desc)

/-- TILE_STORE (R119). -/
def execTileStore (site : Nat) (i : TileIns) (s : State) : Host.Outcome State Fault Refusal := .next (s.movCommand site (tileOp .store i) i.desc)

/-- TILE_STORE_SCALE (R126). -/
def execTileStoreScale (site : Nat) (i : TileIns) (s : State) : Host.Outcome State Fault Refusal := .next (s.movCommand site (tileOp .storeScale i) i.desc)

/-- ACCUMULATOR_STORE (R128). -/
def execAccumulatorStore (site : Nat) (i : TileIns) (s : State) : Host.Outcome State Fault Refusal := .next (s.movCommand site (tileOp .accStore i) i.desc)

/-- MOVER_COPY (R86): between a global address and the local store, one barge a cycle. -/
def execMoverCopy (site : Nat) (i : CopyIns) (s : State) : Host.Outcome State Fault Refusal :=
  .next (s.movCommand site { form := if i.toGlobal then .copyOut else .copyIn, global := true, t := 0, base := i.gaddr, stride := 512, sbase := 0, sstride := 0, tag := 0, stag := 0, n := i.n, ls := i.ls,
                             win := none, swin := none, qpos := 0, iter := none, sig := i.sig } i.desc)

/-- PREFETCH_HINT (R255): 1 to 16 barges into L1, whatever PF_RESERVE holds; the mover pauses while they find no slot (R247). -/
def execPrefetchHint (site a n : Nat) (s : State) : Host.Outcome State Fault Refusal :=
  let s := s.ready site .mover
  if s.canIssue site .mover = false then .next s else
  let t := (s.spire site).issueAt .mover
  let s := s.runTo site t
  if s.takes site .mover = false then .next s else
  let q := (s.spire site).mov.qpos
  if n = 0 ∨ 16 < n then .next (s.spireFault site clIllegal 3 0 q 0)
  else
    let s := s.modMover site (fun m => { m with hints := (List.range n).map (fun i => a / 512 * 512 + 512 * i) })
    .next ((s.issued site .mover t 1).pump site)

/-! Descriptor operations (R189). -/

/-- A mover operation of fixed latency on a descriptor: its forms, a misaligned offset among them (DESIGN CHOICE, notes/assumptions/7.md), local-store checks (R121), then its landing. -/
def State.descCommand (s : State) (site occ lat : Nat) (ok : Bool) (off bytes : Nat) (writes : State → List SWr) : State :=
  (s.ready site .mover).issueFixed site .mover none (fun s =>
    if ok = false then .error (clIllegal, 0)
    else if lsSize < off + bytes then .error (clAddress, lsBase site + off)
    else .ok { occ := occ, lat := lat, writes := writes s, flags := 0, reads := [], result := false })

/-- DLOAD (R189). -/
def execDload (site d off : Nat) (s : State) : Host.Outcome State Fault Refusal :=
  .next (s.descCommand site 2 6 (Nat.blt d 32 && off % 128 == 0) off 256 (fun s => [.desc d (BitVec.ofNat 2048 (s.loadLE (lsBase site + off) 256)) (BitVec.allOnes 2048)]))

/-- DSTORE (R189). -/
def execDstore (site d off : Nat) (s : State) : Host.Outcome State Fault Refusal :=
  .next (s.descCommand site 2 6 (Nat.blt d 32 && off % 128 == 0) off 256 (fun s => [.ls off (bytesLE 256 ((s.spire site).desc d).toNat)]))

/-- DCOUNT (R189). -/
def execDcount (site d k off : Nat) (s : State) : Host.Outcome State Fault Refusal :=
  .next (s.descCommand site 1 6 (Nat.blt d 32 && Nat.blt k 6 && off % 4 == 0) off 4 (fun s =>
    [.desc d (BitVec.ofNat 2048 (s.loadLE (lsBase site + off) 4 * 2 ^ (8 * (8 + 4 * k)))) (BitVec.ofNat 2048 ((2 ^ 32 - 1) * 2 ^ (8 * (8 + 4 * k))))]))

/-- Place and bytes of a descriptor field (R176); none for one that does not exist. -/
def dPlace : DField → Option (Nat × Nat)
  | .hdr => some (0, 8)
  | .count k => if k < 6 then some (8 + 4 * k, 4) else none
  | .stride k s => if k < 6 ∧ s < 4 then some (32 + 16 * k + 4 * s, 4) else none
  | .base s => if s < 4 then some (128 + 8 * s, 8) else none
  | .adv s => if s < 4 then some (160 + 8 * s, 8) else none

/-- DSET (R189): the sequencer writes one field of a descriptor from a scalar register. -/
def execDset (site d : Nat) (f : DField) (x : Nat) (s : State) : Host.Outcome State Fault Refusal :=
  .next ((s.ready site .seq).issueFixed site .seq none (fun s =>
    match dPlace f with
    | some (o, n) =>
      if d < 32 then .ok { occ := 1, lat := 2, writes := [.desc d (BitVec.ofNat 2048 (((s.spire site).scalar x).toNat % 2 ^ (8 * n) * 2 ^ (8 * o))) (BitVec.ofNat 2048 ((2 ^ (8 * n) - 1) * 2 ^ (8 * o)))],
                           flags := 0, reads := [(3, x)], result := false }
      else .error (clIllegal, 0)
    | none => .error (clIllegal, 0)))

end Sys2Proof.Machine
end

