-- ==== Sys2Proof/Machine/Transcend.lean ====
section
/-!
DEFINITION. The approximations of R210 and R211: the exact points, the special inputs, and for the rest a free value of Config kept within
the error bound of R210. The exact functions are computed to far more bits than FP32 holds, to judge the bound.
-/
namespace Sys2Proof.Machine

/-- One, with room for a long quotient. -/
def numOne : Num := .fin false (2 ^ 160) (-160)

/-- 2^(f / 2^100) in units of 2^-128, f below 2^100: the product of the roots of two that the bits of f select, the highest first. -/
def exp2Frac (f : Nat) : Nat → Nat → Nat → Nat
  | 0, _, acc => acc
  | k + 1, root, acc =>
    let root := isqrt (root * 2 ^ 128)
    exp2Frac f k root (if f.testBit k then acc * root / 2 ^ 128 else acc)

/-- 2^(v / 2^100). -/
def exp2Num (v : Int) : Num :=
  let f := (v % (2 ^ 100 : Nat)).toNat
  .fin false (exp2Frac f 100 (2 * 2 ^ 128) (2 ^ 128)) (v / (2 ^ 100 : Nat) - 128)

/-- A finite value in units of 2^-100, downward. -/
def fixed100 (neg : Bool) (m : Nat) (e : Int) : Int :=
  let (w, n, _) := scaleTo m e (-100)
  if neg then -((if n = 0 then w else w + 1 : Nat) : Int) else (w : Int)

/-- The fraction bits of log2 of z / 2^128, z in [2^128, 2^129), the highest first. -/
def log2Frac : Nat → Nat → Nat → Nat
  | 0, _, acc => acc
  | k + 1, z, acc =>
    let z := z * z / 2 ^ 128
    if 2 ^ 129 ≤ z then log2Frac k (z / 2) (2 * acc + 1) else log2Frac k z (2 * acc)

/-- log2 of m · 2^e, m not 0. -/
def log2Num (m : Nat) (e : Int) : Num :=
  let b := log2Frac 64 (m * 2 ^ 128 / 2 ^ m.log2) 0
  let v : Int := (e + m.log2) * (2 ^ 64 : Nat) + b
  .fin (v < 0) v.natAbs (-64)

/-- log2 of e in units of 2^-120. -/
def log2E : Nat := 1917670637729674084946755258930051709

/-- 2^(±2^k · |x| · log2 e) for x = m · 2^e below 256. -/
def expOf (neg : Bool) (m : Nat) (e : Int) (k : Nat) : Num :=
  let (w, _, _) := scaleTo (m * log2E * 2 ^ k) (e - 120) (-100)
  exp2Num (if neg then -(w : Int) else w)

/-- tanh of |x|. -/
def tanhNum (m : Nat) (e : Int) : Num :=
  if Num.lt (.fin false m e) (.fin false 64 0) then
    let y := expOf false m e 1
    Num.div (Num.add y (Num.negate numOne)) (Num.add y numOne)
  else numOne

/-- 1 / (1 + e^-x). -/
def sigmNum (neg : Bool) (m : Nat) (e : Int) : Num :=
  if Num.lt (.fin false m e) (.fin false 256 0) then Num.div (.fin false (2 ^ 700) (-700)) (Num.add numOne (expOf (!neg) m e 0))
  else if neg then .fin false 1 (-400) else numOne

/-- The spacing of FP32 at a finite value, subnormal spacing included (R210). -/
def ulpOf : Num → Num
  | .fin _ m e => .fin false 1 (max (e + m.log2 - 23) (-149))
  | x => x

/-- |c − a| is at most a bound. -/
def within (c a bound : Num) : Bool :=
  match Num.add c (Num.negate a) with
  | .fin _ m e => !Num.lt bound (.fin false m e)
  | _ => false

/-- The value of a magnitude code of FP32. -/
def magNum (c : Nat) : Num := fmtFp32.decode c

/-- The magnitude codes next below and next above a magnitude that is no FP32 number. -/
def around (a : Num) : Nat × Nat :=
  let c := (roundTo fmtFp32 false none a).1
  if Num.lt a (magNum c) then (c - 1, c) else (c, c + 1)

/-- The codes around a magnitude that lie within one ulp of it. -/
def oneUlp (a : Num) : Nat × Nat := around a

/-- The codes around a magnitude that lie within two ulp of it, and never below what a smaller magnitude allows. -/
def twoUlp (a : Num) : Nat × Nat :=
  let (dn, up) := around a
  let ok := fun c => within (magNum c) a (ulpOf a |>.scale 1)
  ((if ok (dn - 2) then dn - 2 else if ok (dn - 1) then dn - 1 else dn), (if ok (up + 2) then up + 2 else if ok (up + 1) then up + 1 else up))

/-- The codes that lie within 2⁻²³ of a magnitude. -/
def absolute23 (a : Num) : Nat × Nat :=
  let d : Num := .fin false 1 (-23)
  ((if Num.lt a d then 0 else (around (Num.add a d.negate)).2), (around (Num.add a d)).1)

/-- A free monotone function of a 31-bit key: the tree halves the keys, and at each node a free value parts the results of its halves (R210). -/
def monotone (op key : Nat) : Nat → Nat → Nat → Nat → Nat
  | 0, node, lo, hi => lo + (Config.transcend op node).toNat % (hi - lo + 1)
  | b + 1, node, lo, hi =>
    let v := lo + (Config.transcend op node).toNat % (hi - lo + 1)
    if key.testBit b then monotone op key b (2 * node + 1) v hi else monotone op key b (2 * node) lo v

/-- A result within the bound (R210): sign `neg`, magnitude that of the unit's free monotone function, held to the codes `range` that the bound allows and to those of the exact points around it.
`rising` says whether magnitudes grow with that of the input. The flag is that of a result that is zero. -/
def bounded (op : Nat) (x : BitVec 32) (rising neg : Bool) (range exact : Nat × Nat) : Nat × Nat :=
  let key := if rising then x.toNat % 2 ^ 31 else 2 ^ 31 - 1 - x.toNat % 2 ^ 31
  let v := monotone op key 31 1 0 (2 ^ 31 - 1)
  let c := max (max range.1 exact.1) (min (min range.2 exact.2) v)
  (fmtFp32.pack neg c, flagIf (c == 0) flUnderflow)

/-- No exact point beyond the finite magnitudes. -/
def freely : Nat × Nat := (0, fmtFp32.maxMag)

/-- The code of one. -/
def codeOne : Nat := 0x3F800000

/-- An exactly known result. -/
def exactly (a : Num) : Nat × Nat := roundTo fmtFp32 false none a

/-- m is a power of two. -/
def isPow2 (m : Nat) : Bool := m != 0 && m == 2 ^ m.log2

/-- One lane of an approximation (R210, R211): its code and flags. -/
def approx (op : Nat) (x : BitVec 32) : Nat × Nat :=
  match fmtFp32.decode x.toNat with
  | .nan => (fmtFp32.nanCode, flNanIn)
  | .inf neg =>
    (match op with
     | 0 => (if neg then 0 else fmtFp32.infMag, flInfIn)
     | 1 => if neg then (fmtFp32.nanCode, flInvalid ||| flInfIn) else (fmtFp32.infMag, flInfIn)
     | 2 => (fmtFp32.pack neg 0, flInfIn)
     | 3 => if neg then (fmtFp32.nanCode, flInvalid ||| flInfIn) else (0, flInfIn)
     | 4 => (fmtFp32.pack neg 0x3F800000, flInfIn)
     | _ => (if neg then 0 else 0x3F800000, flInfIn))
  | .fin neg m e =>
    (match op with
     | 0 =>
       let v := fixed100 neg m e
       if v ≥ 128 * 2 ^ 100 then (fmtFp32.infMag, flOverflow)
       else if v < -150 * 2 ^ 100 then (0, flUnderflow)
       else if v % (2 ^ 100 : Nat) = 0 ∧ v ≥ -149 * 2 ^ 100 ∧ (scaleTo m e (-100)).2.1 = 0 then exactly (exp2Num v)
       else bounded (if neg then 1 else 0) x (!neg) false (oneUlp (exp2Num v)) freely
     | 1 =>
       if m = 0 then (fmtFp32.pack true fmtFp32.infMag, flOverflow)
       else if neg then (fmtFp32.nanCode, flInvalid)
       else if isPow2 m then exactly (let k : Int := e + m.log2; .fin (k < 0) k.natAbs 0)
       else
         let a := log2Num m e
         let b := match a with | .fin s m e => (s, Num.fin false m e) | y => (false, y)
         let near := e + m.log2 = -1 ∨ e + m.log2 = 0
         bounded (if b.1 then 3 else 2) x (!b.1) b.1 (if near then absolute23 b.2 else oneUlp b.2) (if near then (0, codeOne) else freely)
     | 2 =>
       if m = 0 then (fmtFp32.pack neg fmtFp32.infMag, flOverflow)
       else
         let a := Num.div numOne (.fin false m e)
         if isPow2 m then exactly (if neg then a.negate else a)
         else if (exactly a).1 = fmtFp32.infMag then exactly (if neg then a.negate else a)
         else bounded (if neg then 5 else 4) x false neg (oneUlp a) freely
     | 3 =>
       if m = 0 then (fmtFp32.pack neg fmtFp32.infMag, flOverflow)
       else if neg then (fmtFp32.nanCode, flInvalid)
       else
         let a := Num.div numOne (Num.sqrt (.fin false m e))
         if isPow2 m && (e + m.log2) % 2 == 0 then exactly a else bounded 6 x false false (oneUlp a) freely
     | 4 =>
       if Num.lt (.fin false m e) (.fin false 1 (-12)) then (x.toNat, 0)
       else
         bounded (if neg then 9 else 8) x true neg (twoUlp (tanhNum m e)) (0x397FFFFF, codeOne)
     | _ =>
       if m = 0 then (0x3F000000, 0)
       else
         bounded (if neg then 11 else 10) x (!neg) false (twoUlp (sigmNum neg m e)) (if neg then (0, 0x3F000000) else (0x3F000000, codeOne)))

end Sys2Proof.Machine
end

