-- ==== Sys2Proof/Machine/Vector.lean ====
section
/-!
DEFINITION. The vector engine (R198 to R213).
-/
namespace Sys2Proof.Machine

/-! Lanes. -/

/-- Number format of a floating-point vector format, its elements and width; none for INT32. -/
def vfmtInfo : VFmt → Option (Fmt × Nat × Nat)
  | .f => some (fmtFp32, 64, 32)
  | .bf16 => some (fmtBf16, 128, 16)
  | .fp16 => some (fmtFp16, 128, 16)
  | .int => none

/-- The bits of a register that a mask lets through (R200). -/
def laneMask (k : Word) : BitVec 2048 :=
  BitVec.ofNat 2048 ((List.range 64).foldl (fun v l => if k.getLsbD l then v + (2 ^ 32 - 1) * 2 ^ (32 * l) else v) 0)

/-- The unmasked elements of a packed result, and their flags: `g` gives the code and flags of an element. -/
def laneResults (k : Word) (n w : Nat) (g : Nat → Nat × Nat) : BitVec 2048 × Nat :=
  let xs := (List.range n).map (fun i => if k.getLsbD (i * w / 32) then g i else (0, 0))
  (BitVec.ofNat 2048 (packElems w (xs.map Prod.fst)), xs.foldl (fun f x => f ||| x.2) 0)

/-- The effect of a lane-wise instruction on register `d` under mask `k`. -/
def vecEffect (occ lat d : Nat) (k : Word) (n w : Nat) (reads : List Nat) (result : Bool) (g : Nat → Nat × Nat) (point : Nat := 2) (fmt : Fmt := fmtFp32) : Effect :=
  let (v, f) := laneResults k n w g
  { occ := occ, lat := lat, writes := [.vec d v (laneMask k)], flags := f, reads := reads.map (fun r => (2, r)), result := result, point := point, fmt := fmt, elems := n }

/-- Issue on the vector engine, which counts every instruction (R213). -/
def State.vecIssue (s : State) (site : Nat) (sig : Option AttSig) (f : State → Except (Nat × Nat) Effect) : State :=
  let s := s.ready site .vector
  let q := (s.spire site).vec.qpos
  let s := s.issueFixed site .vector sig f
  if (s.spire site).vec.qpos = q then s else s.bump (R.SPR_VEC_ISSUE site)

/-- Registers named are in range. -/
def VIns.ok (i : VIns) : Bool := Nat.blt i.d 32 && Nat.blt i.a 32 && Nat.blt i.b 32 && Nat.blt i.c 32 && Nat.blt i.k 8

def illegal {α : Type} : Except (Nat × Nat) α := .error (clIllegal, 0)

/-- A floating-point instruction of up to three sources, its result rounded once to the source format (R201). -/
def State.vecFloat (s : State) (site : Nat) (i : VIns) (occ lat nsrc : Nat) (op : Num → Num → Num → Num) (point : Nat := 2) : State :=
  s.vecIssue site i.sig (fun s =>
    match i.ok, vfmtInfo i.fmt with
    | true, some (f, n, w) =>
      let p := s.spire site
      let el := fun v x => f.decode (elemAt (p.vreg v).toNat w x)
      .ok (vecEffect occ lat i.d (p.mask i.k) n w ([i.a, i.b, i.c].take nsrc) true (fun x =>
        let xs := ([el i.a x, el i.b x, el i.c x]).take nsrc
        arithTo f xs (op (el i.a x) (el i.b x) (el i.c x))) point f)
    | _, _ => illegal)

/-- An instruction on the raw bits of each element, with flags. -/
def State.vecBits (s : State) (site : Nat) (i : VIns) (lat nsrc : Nat) (allowInt result : Bool) (op : Option Fmt → Nat → Nat → Nat → Nat × Nat) : State :=
  s.vecIssue site i.sig (fun s =>
    let p := s.spire site
    let (ok, f, n, w) : Bool × Option Fmt × Nat × Nat := match vfmtInfo i.fmt with | some (f, n, w) => (true, some f, n, w) | none => (allowInt, none, 64, 32)
    if i.ok && ok then
      .ok (vecEffect 1 lat i.d (p.mask i.k) n w ([i.a, i.b, i.c].take nsrc) result (fun x =>
        op f (elemAt (p.vreg i.a).toNat w x) (elemAt (p.vreg i.b).toNat w x) (elemAt (p.vreg i.c).toNat w x)))
    else illegal)

/-- An INT32 instruction of each lane (R201). -/
def State.vecInt (s : State) (site : Nat) (i : VIns) (nsrc : Nat) (op : BitVec 32 → BitVec 32 → BitVec 32) : State :=
  s.vecIssue site i.sig (fun s =>
    let p := s.spire site
    if i.ok && i.fmt == .int then
      .ok (vecEffect 1 2 i.d (p.mask i.k) 64 32 ([i.a, i.b].take nsrc) true (fun x =>
        ((op (BitVec.ofNat 32 (elemAt (p.vreg i.a).toNat 32 x)) (BitVec.ofNat 32 (elemAt (p.vreg i.b).toNat 32 x))).toNat, 0)) 1)
    else illegal)

/-! Arithmetic (R201). -/

/-- VADD. -/
def execVadd (site : Nat) (i : VIns) (s : State) : Host.Outcome State Fault Refusal := .next (s.vecFloat site i 1 4 2 (fun a b _ => Num.add a b))

/-- VSUB. -/
def execVsub (site : Nat) (i : VIns) (s : State) : Host.Outcome State Fault Refusal := .next (s.vecFloat site i 1 4 2 (fun a b _ => Num.add a b.negate))

/-- VMUL. -/
def execVmul (site : Nat) (i : VIns) (s : State) : Host.Outcome State Fault Refusal := .next (s.vecFloat site i 1 4 2 (fun a b _ => Num.mul a b))

/-- VFMA. -/
def execVfma (site : Nat) (i : VIns) (s : State) : Host.Outcome State Fault Refusal := .next (s.vecFloat site i 1 4 3 (fun a b c => Num.add (Num.mul a b) c))

/-- VFMS. -/
def execVfms (site : Nat) (i : VIns) (s : State) : Host.Outcome State Fault Refusal := .next (s.vecFloat site i 1 4 3 (fun a b c => Num.add (Num.mul a b) c.negate))

/-- VFNMA. -/
def execVfnma (site : Nat) (i : VIns) (s : State) : Host.Outcome State Fault Refusal := .next (s.vecFloat site i 1 4 3 (fun a b c => Num.add (Num.mul a b).negate c))

/-- The larger or the smaller of two values (R202). -/
def Num.pick (larger : Bool) (x y : Num) : Num :=
  if x.isNan || y.isNan then .nan else if Num.firstLarger x y == larger then x else y

/-- VMAX (R202). -/
def execVmax (site : Nat) (i : VIns) (s : State) : Host.Outcome State Fault Refusal := .next (s.vecFloat site i 1 2 2 (fun a b _ => Num.pick true a b) 1)

/-- VMIN (R202). -/
def execVmin (site : Nat) (i : VIns) (s : State) : Host.Outcome State Fault Refusal := .next (s.vecFloat site i 1 2 2 (fun a b _ => Num.pick false a b) 1)

/-- A sign operation: the sign bit of an element; exact, without a flag. A NaN keeps its payload, as R201's "sign bit only" says, and takes the sign too, although R47 would give the canonical NaN of a
result that is NaN (DESIGN CHOICE, notes/assumptions/118.md). -/
def State.vecSign (s : State) (site : Nat) (i : VIns) (nsrc : Nat) (op : Nat → Nat → Nat → Nat) : State :=
  s.vecBits site i 2 nsrc false false (fun f a b _ => match f with | some f => (op (2 ^ (f.width - 1)) a b, 0) | none => (a, 0))

/-- VABS. -/
def execVabs (site : Nat) (i : VIns) (s : State) : Host.Outcome State Fault Refusal := .next (s.vecSign site i 1 (fun t a _ => a % t))

/-- VNEG. -/
def execVneg (site : Nat) (i : VIns) (s : State) : Host.Outcome State Fault Refusal := .next (s.vecSign site i 1 (fun t a _ => if a < t then a + t else a - t))

/-- VCPSGN: the magnitude of a with the sign of b; R201 does not say which operand gives the sign (DESIGN CHOICE, notes/assumptions/118.md). -/
def execVcpsgn (site : Nat) (i : VIns) (s : State) : Host.Outcome State Fault Refusal := .next (s.vecSign site i 2 (fun t a b => a % t + b / t * t))

/-- A condition on two numbers (R201). -/
def condNum (c : Cond) (x y : Num) : Bool :=
  let un := x.isNan || y.isNan
  match c with
  | .eq => Num.eqv x y
  | .ne => !Num.eqv x y
  | .lt => Num.lt x y
  | .le => Num.lt x y || Num.eqv x y
  | .gt => Num.lt y x
  | .ge => Num.lt y x || Num.eqv x y
  | .unord => un

/-- A condition on two signed integers. -/
def condInt (c : Cond) (x y : Int) : Bool :=
  match c with
  | .eq => x == y | .ne => x != y | .lt => decide (x < y) | .le => decide (x ≤ y) | .gt => decide (y < x) | .ge => decide (y ≤ x) | .unord => false

/-- VCMP: the mask bit of a lane, for both its elements in the H forms. -/
def execVcmp (site : Nat) (i : VIns) (s : State) : Host.Outcome State Fault Refusal :=
  .next (s.vecIssue site i.sig (fun s =>
    let p := s.spire site
    let k := p.mask i.k
    let va := (p.vreg i.a).toNat
    let vb := (p.vreg i.b).toNat
    let lanes := (List.range 64).filter (fun l => k.getLsbD l)
    let (bit, flags) : (Nat → Bool) × Nat := match vfmtInfo i.fmt with
      | some (f, n, w) =>
        let per := n / 64
        let pair := fun l j => (f.decode (elemAt va w (per * l + j)), f.decode (elemAt vb w (per * l + j)))
        (fun l => (List.range per).all (fun j => condNum i.cc (pair l j).1 (pair l j).2),
         lanes.foldl (fun g l => (List.range per).foldl (fun g j => g ||| operandsFlags [(pair l j).1, (pair l j).2]) g) 0)
      | none => (fun l => condInt i.cc (BitVec.ofNat 32 (elemAt va 32 l)).toInt (BitVec.ofNat 32 (elemAt vb 32 l)).toInt, 0)
    if i.ok && Nat.blt i.d 8 then
      .ok { occ := 1, lat := 2, writes := [.kmask i.d (BitVec.ofNat 64 (lanes.foldl (fun v l => if bit l then v + 2 ^ l else v) 0)) k], flags := flags,
            reads := [(2, i.a), (2, i.b)], result := true, point := 1 }
    else illegal))

/-- VSEL: the lanes of mask register `n` choose a, the others b. -/
def execVsel (site : Nat) (i : VIns) (s : State) : Host.Outcome State Fault Refusal :=
  .next (s.vecIssue site i.sig (fun s =>
    let p := s.spire site
    let c := p.mask i.n
    if i.ok && Nat.blt i.n 8 then
      .ok (vecEffect 1 2 i.d (p.mask i.k) 64 32 [i.a, i.b] true (fun l => (elemAt (p.vreg (if c.getLsbD l then i.a else i.b)).toNat 32 l, 0)) 1)
    else illegal))

/-! Integer and logic (R201). -/

/-- VIADD. -/
def execViadd (site : Nat) (i : VIns) (s : State) : Host.Outcome State Fault Refusal := .next (s.vecInt site i 2 (fun a b => a + b))

/-- VISUB. -/
def execVisub (site : Nat) (i : VIns) (s : State) : Host.Outcome State Fault Refusal := .next (s.vecInt site i 2 (fun a b => a - b))

/-- VIMUL. -/
def execVimul (site : Nat) (i : VIns) (s : State) : Host.Outcome State Fault Refusal := .next (s.vecInt site i 2 (fun a b => a * b))

/-- VAND. -/
def execVand (site : Nat) (i : VIns) (s : State) : Host.Outcome State Fault Refusal := .next (s.vecInt site i 2 (fun a b => a &&& b))

/-- VOR. -/
def execVor (site : Nat) (i : VIns) (s : State) : Host.Outcome State Fault Refusal := .next (s.vecInt site i 2 (fun a b => a ||| b))

/-- VXOR. -/
def execVxor (site : Nat) (i : VIns) (s : State) : Host.Outcome State Fault Refusal := .next (s.vecInt site i 2 (fun a b => a ^^^ b))

/-- VNOT. -/
def execVnot (site : Nat) (i : VIns) (s : State) : Host.Outcome State Fault Refusal := .next (s.vecInt site i 1 (fun a _ => ~~~a))

/-- VSHL: counts above 31 give 0. -/
def execVshl (site : Nat) (i : VIns) (s : State) : Host.Outcome State Fault Refusal := .next (s.vecInt site i 2 (fun a b => if b.toNat < 32 then a <<< b.toNat else 0))

/-- VSHR: counts above 31 give 0. -/
def execVshr (site : Nat) (i : VIns) (s : State) : Host.Outcome State Fault Refusal := .next (s.vecInt site i 2 (fun a b => if b.toNat < 32 then a >>> b.toNat else 0))

/-- VSRA: counts above 31 give the sign fill. -/
def execVsra (site : Nat) (i : VIns) (s : State) : Host.Outcome State Fault Refusal := .next (s.vecInt site i 2 (fun a b => a.sshiftRight (min 31 b.toNat)))

/-- VIMAX. -/
def execVimax (site : Nat) (i : VIns) (s : State) : Host.Outcome State Fault Refusal := .next (s.vecInt site i 2 (fun a b => if b.slt a then a else b))

/-- VIMIN. -/
def execVimin (site : Nat) (i : VIns) (s : State) : Host.Outcome State Fault Refusal := .next (s.vecInt site i 2 (fun a b => if b.slt a then b else a))

/-- VIOTA: the lane index. -/
def execViota (site : Nat) (i : VIns) (s : State) : Host.Outcome State Fault Refusal :=
  .next (s.vecIssue site i.sig (fun s => if i.ok then .ok (vecEffect 1 2 i.d ((s.spire site).mask i.k) 64 32 [] true (fun l => (l, 0)) 1) else illegal))

/-- VLANE: lane `n` of a into every lane. -/
def execVlane (site : Nat) (i : VIns) (s : State) : Host.Outcome State Fault Refusal :=
  .next (s.vecIssue site i.sig (fun s =>
    if i.ok && Nat.blt i.n 64 then .ok (vecEffect 1 2 i.d ((s.spire site).mask i.k) 64 32 [i.a] true (fun _ => (elemAt ((s.spire site).vreg i.a).toNat 32 i.n, 0)) 1) else illegal))

/-- A mask operation on the lanes of its mask (R200). -/
def State.maskOp (s : State) (site : Nat) (i : VIns) (op : Word → Word → Word) : State :=
  s.vecIssue site i.sig (fun s =>
    let p := s.spire site
    if Nat.blt i.d 8 && Nat.blt i.a 8 && Nat.blt i.b 8 && Nat.blt i.k 8 then
      .ok { occ := 1, lat := 2, writes := [.kmask i.d (op (p.mask i.a) (p.mask i.b)) (p.mask i.k)], flags := 0, reads := [], result := true, point := 1 }
    else illegal)

/-- KAND. -/
def execKand (site : Nat) (i : VIns) (s : State) : Host.Outcome State Fault Refusal := .next (s.maskOp site i (fun a b => a &&& b))

/-- KOR. -/
def execKor (site : Nat) (i : VIns) (s : State) : Host.Outcome State Fault Refusal := .next (s.maskOp site i (fun a b => a ||| b))

/-- KXOR. -/
def execKxor (site : Nat) (i : VIns) (s : State) : Host.Outcome State Fault Refusal := .next (s.maskOp site i (fun a b => a ^^^ b))

/-- KNOT. -/
def execKnot (site : Nat) (i : VIns) (s : State) : Host.Outcome State Fault Refusal := .next (s.maskOp site i (fun a _ => ~~~a))

/-! Conversions (R203, R204, R664). -/

/-- A segment of a tile row for elements of width `w` (R203, R204): its bytes and whether the offset is one of the permitted. -/
def segOk (n w off : Nat) : Bool := let b := n * w / 8; off % b == 0 && Nat.ble (off + b) (if w = 6 then 96 else 128)

/-- VCVTW (R203): 64 elements to FP32. -/
def execVcvtw (site : Nat) (i : VCvt) (s : State) : Host.Outcome State Fault Refusal :=
  .next (s.vecIssue site i.sig (fun s =>
    let p := s.spire site
    match i.dst, i.src with
    | .reg d, .reg v =>
      let f := elemFmt i.elem
      if (Nat.blt d 32 && Nat.blt v 32 && Nat.blt i.k 8 && Nat.blt i.half 2) = false then illegal
      else if i.elem = .fp32 ∨ i.elem.scaled then .error (clFormat, 0)
      else .ok (vecEffect 1 2 d (p.mask i.k) 64 32 [v] true (fun l => widen f none (elemAt (p.vreg v).toNat f.width (l + (if f.width = 16 then 64 * i.half else 0)))))
    | .reg d, .row t r off =>
      if (Nat.blt d 32 && Nat.blt t 16 && Nat.blt r 32 && Nat.blt i.k 8) = false then illegal
      else match tagInfo (s.tagOp site t) with
        | some (f, _, scaled, cls) =>
          if cls = .wide then .error (clFormat, 0)
          else if segOk 64 f.width off = false then illegal
          else
            let row := (p.tileRow t r).toNat
            let first := 8 * off / f.width
            let (v, g) := laneResults (p.mask i.k) 64 32 (fun l =>
              widen f (if scaled then some ((p.scaleRow t r).toNat / 256 ^ ((first + l) / 32) % 256) else none) (elemAt row f.width (first + l)))
            .ok { occ := 1, lat := 2, writes := [.vec d v (laneMask (p.mask i.k))], flags := g, reads := [(0, t)], result := true }
        | none => .error (clFormat, 0)
    | _, _ => illegal))

/-! Stochastic rounding (R55 to R57). -/

/-- One step of a lane generator (R57). -/
def drawStep (x : Word) : Word :=
  let x := x ^^^ (x <<< 13)
  let x := x ^^^ (x >>> 7)
  x ^^^ (x <<< 17)

/-- The seed of a lane (R57). -/
def seedOf (seed : Word) (logical lane : Nat) : Word :=
  let x := seed ^^^ BitVec.ofNat 64 (logical * 2 ^ 16 ||| lane * 2 ^ 8 ||| 0x5A)
  if x = 0 then 1 else x

/-- Seed every lane of a spire (R57). -/
def State.seedLanes (s : State) (site : Nat) : State :=
  let seed := s.reg (R.SPR_RNG_SEED site)
  let l := s.logical site
  s.modRegs site (fun r => { r with rng := (List.range 64).map (fun i => (i, seedOf seed l i)) |>.filter (fun (x : Nat × Word) => x.2 != 0) })

def Spire.rngOf (p : Spire) (l : Nat) : Word := tget (fun _ => 0) p.regs.rng l

/-- Stochastic rounding is selected (R55). -/
def State.selects (s : State) (site : Nat) (r : Rnd) : Bool :=
  match r with | .nearest => false | .stochastic => true | .spireDefault => s.fld (R.SPR_NUMCTL site) F.SPR_NUMCTL_RND_DEFAULT == 1

/-- The draws of an instruction that converts `per` elements in each lane, by element, and the state after them; all lanes draw (R200). With SR_EN clear the draws are made and not used (R64). -/
def State.draws (s : State) (site : Nat) (sel : Bool) (per : Nat) : List (Option Nat) × State :=
  if sel = false then (List.replicate (64 * per) none, s)
  else
    let use := s.fld (R.SPR_NUMCTL site) F.SPR_NUMCTL_SR_EN == 1
    let lanes := (List.range 64).map (fun l => (List.range per).foldl (fun (a : List (Option Nat) × Word) _ =>
      let x := drawStep a.2
      (a.1 ++ [if use then some (x.toNat / 2 ^ 48) else none], x)) ([], (s.spire site).rngOf l))
    let rng := (List.range 64).zip (lanes.map Prod.snd) |>.filter (fun (x : Nat × Word) => x.2 != 0)
    (lanes.flatMap Prod.fst, (s.modRegs site (fun r => { r with rng := rng })).bump (R.SPR_VEC_SRDRAW site) (64 * per))

/-- Issue of an instruction that may draw: its draws happen at issue, whatever follows; a faulting one draws nothing. -/
def State.drawIssue (s : State) (site : Nat) (sig : Option AttSig) (sel : State → Bool) (per : Nat) (f : State → List (Option Nat) → Except (Nat × Nat) Effect) : State :=
  let s := s.ready site .vector
  let q := (s.spire site).vec.qpos
  let s' := s.vecIssue site sig (fun s => f s (s.draws site (sel s) per).1)
  if (s'.spire site).vec.qpos = q then s' else (s'.draws site (sel s') per).2

/-- A write of a tile row with its tag; with no unmasked lane nothing is written, the tag included (R118, R200). -/
def tagged (w : List SWr) (mask t tag : Nat) : List SWr := if mask = 0 then [] else w ++ [.tagOp t tag]

/-- Bits of result elements in a row or register, for unmasked lanes: data and mask. -/
def packMasked (k : Word) (n w : Nat) (codes : List Nat) : Nat × Nat :=
  let on := fun i => k.getLsbD (i / (n / 64))
  (packElems w ((List.range n).map (fun i => if on i then codes.getD i 0 else 0)), packElems w ((List.range n).map (fun i => if on i then 2 ^ w - 1 else 0)))

/-- VCVTN (R204): 64 FP32 values, or the 128 of an H register, to a narrower format. -/
def execVcvtn (site : Nat) (i : VCvt) (s : State) : Host.Outcome State Fault Refusal :=
  let per := if i.fmt = .f then 1 else 2
  .next (s.drawIssue site i.sig (fun s => s.selects site i.rnd) per (fun s rs =>
    let p := s.spire site
    let f := elemFmt i.elem
    let k := p.mask i.k
    match vfmtInfo i.fmt, i.src with
    | some (sf, n, sw), .reg v =>
      if (Nat.blt v 32 && Nat.blt i.k 8 && f.width != 32 && f != sf && !i.elem.isMx) = false then illegal
      else
        let rs' := (List.range n).map (fun x => narrow f (s.e5m2Inf site) (rs.getD x none) (sf.decode (elemAt (p.vreg v).toNat sw x)))
        let flags := (List.range n).foldl (fun g x => if k.getLsbD (x / per) then g ||| (rs'.getD x (0, 0)).2 else g) 0
        let (data, mask) := packMasked k n f.width (rs'.map Prod.fst)
        (match i.dst with
         | .reg d =>
           if d < 32 then
             .ok { occ := 1, lat := 3, writes := [.vec d (BitVec.ofNat 2048 data) (BitVec.ofNat 2048 (mask + (2 ^ 2048 - 2 ^ (n * f.width))))], flags := flags, reads := [(2, v)], result := true, fmt := f, elems := n }
           else illegal
         | .row t r off =>
           if (Nat.blt t 16 && Nat.blt r 32 && segOk n f.width off) = false then illegal
           else if 0xD ≤ i.tag then .error (clFormat, 0)
           else .ok { occ := 1, lat := 3, writes := tagged [.tile t r (BitVec.ofNat 1024 (data * 2 ^ (8 * off))) (BitVec.ofNat 1024 (mask * 2 ^ (8 * off)))] mask t i.tag, flags := flags, reads := [(2, v)], result := true, fmt := f, elems := n, first := 8 * off })
    | _, _ => illegal))

/-- VCVTI (R201): FP32 to INT32, to nearest even, saturating. -/
def toInt32 (x : Num) : Nat × Nat :=
  match x with
  | .nan => (0, flInvalid ||| flNanIn)
  | .inf neg => (if neg then 0x80000000 else 0x7FFFFFFF, flSaturate ||| flInfIn)
  | .fin neg m e =>
    let (w, n, sh) := scaleTo m e 0
    let v := if roundsUp none w n sh then w + 1 else w
    let gone := flagIf (m != 0 && v == 0) flUnderflow
    if neg then (if v ≤ 2 ^ 31 then ((2 ^ 32 - v) % 2 ^ 32, gone) else (0x80000000, flSaturate))
    else (if v < 2 ^ 31 then (v, gone) else (0x7FFFFFFF, flSaturate))

/-- VCVTI. -/
def execVcvti (site : Nat) (i : VIns) (s : State) : Host.Outcome State Fault Refusal :=
  .next (s.vecIssue site i.sig (fun s =>
    let p := s.spire site
    if i.ok then .ok (vecEffect 1 3 i.d (p.mask i.k) 64 32 [i.a] true (fun l => toInt32 (fmtFp32.decode (elemAt (p.vreg i.a).toNat 32 l)))) else illegal))

/-- VCVTF: INT32 to FP32, to nearest even. -/
def execVcvtf (site : Nat) (i : VIns) (s : State) : Host.Outcome State Fault Refusal :=
  .next (s.vecIssue site i.sig (fun s =>
    let p := s.spire site
    if i.ok then .ok (vecEffect 1 3 i.d (p.mask i.k) 64 32 [i.a] true (fun l =>
      let v := (BitVec.ofNat 32 (elemAt (p.vreg i.a).toNat 32 l)).toInt
      roundTo fmtFp32 false none (.fin (v < 0) v.natAbs 0))) else illegal))

/-- VMXENC (R664): 64 FP32 values to two MX blocks of a tile row. -/
def execVmxenc (site : Nat) (i : VCvt) (s : State) : Host.Outcome State Fault Refusal :=
  .next (s.drawIssue site i.sig (fun s => s.selects site i.rnd) 1 (fun s rs =>
    let p := s.spire site
    let k := p.mask i.k
    match i.dst, i.src, tagInfo i.tag with
    | .row t r off, .reg v, some (f, _, true, _) =>
      if (Nat.blt v 32 && Nat.blt t 16 && Nat.blt r 32 && Nat.blt i.k 8 && segOk 64 f.width off) = false then illegal
      else
        let vals := (List.range 64).map (fun l => if k.getLsbD l then fmtFp32.decode (elemAt (p.vreg v).toNat 32 l) else .fin false 0 0)
        let enc := fun b => mxEncode f (s.e5m2Inf site) ((rs.drop (32 * b)).take 32) ((vals.drop (32 * b)).take 32)
        let on := fun b => (List.range 32).any (fun l => k.getLsbD (32 * b + l))
        let (data, mask) := packMasked k 64 f.width ((enc 0).2.1 ++ (enc 1).2.1)
        let first := 8 * off / f.width / 32
        let sc := ([0, 1].filter on).foldl (fun (a : Nat × Nat) b => (a.1 + (enc b).1 * 256 ^ (first + b), a.2 + 255 * 256 ^ (first + b))) (0, 0)
        let flags := ([0, 1].filter on).foldl (fun g b => g ||| (enc b).2.2) 0
        .ok { occ := 2, lat := 6, writes := tagged [.tile t r (BitVec.ofNat 1024 (data * 2 ^ (8 * off))) (BitVec.ofNat 1024 (mask * 2 ^ (8 * off))),
                                                    .scale t r (BitVec.ofNat 64 sc.1) (BitVec.ofNat 64 sc.2)] mask t i.tag,
              flags := flags, reads := [(2, v)], result := true, fmt := f, first := 8 * off }
    | .row _ _ _, .reg _, _ => .error (clFormat, 0)
    | _, _, _ => illegal))

/-! Reductions (R208). -/

/-- One step of the tree, adjacent pairs. -/
def pairUp (op : Nat × Nat → Nat × Nat → Nat × Nat) : List (Nat × Nat) → List (Nat × Nat)
  | a :: b :: r => op a b :: pairUp op r
  | l => l

/-- A reduction of the lanes to one FP32 code, written to every unmasked lane. An infinity or NaN that the tree itself forms is no operand: it sets neither INF_IN nor NAN_IN further on (DESIGN CHOICE, notes/assumptions/109.md). -/
def State.vecReduce (s : State) (site : Nat) (i : VIns) (ident : Nat) (op : Num → Num → Num) (point : Nat) : State :=
  s.vecIssue site i.sig (fun s =>
    let p := s.spire site
    let k := p.mask i.k
    match i.ok, vfmtInfo i.fmt with
    | true, some (f, n, w) =>
      let comb := fun (a b : Nat × Nat) =>
        let x := fmtFp32.decode a.1
        let y := fmtFp32.decode b.1
        let r := op x y
        let (c, g) := roundTo fmtFp32 false none r
        (c, a.2 ||| b.2 ||| g ||| flagIf (r.isNan && !x.isNan && !y.isNan) flInvalid)
      let lane := fun l =>
        if k.getLsbD l = false then (ident, 0)
        else
          let xs := (List.range (n / 64)).map (fun j => f.decode (elemAt (p.vreg i.a).toNat w (n / 64 * l + j)))
          let cs := xs.map (fun x => ((roundTo fmtFp32 false none x).1, operandFlags x))
          match cs with | [a] => a | [a, b] => comb a b | _ => (ident, 0)
      let tree := (List.range 6).foldl (fun xs _ => pairUp comb xs) ((List.range 64).map lane)
      let (c, g) := tree.headD (ident, 0)
      .ok { occ := 1, lat := 12, writes := [.vec i.d (BitVec.ofNat 2048 (packElems 32 (List.replicate 64 c))) (laneMask k)], flags := g, reads := [(2, i.a)], result := true, point := point }
    | _, _ => illegal)

/-- VRSUM: masked lanes contribute −0. -/
def execVrsum (site : Nat) (i : VIns) (s : State) : Host.Outcome State Fault Refusal := .next (s.vecReduce site i 0x80000000 Num.add 2)

/-- VRMAX: masked lanes contribute −∞. -/
def execVrmax (site : Nat) (i : VIns) (s : State) : Host.Outcome State Fault Refusal := .next (s.vecReduce site i 0xFF800000 (Num.pick true) 1)

/-- VRMIN: masked lanes contribute +∞. -/
def execVrmin (site : Nat) (i : VIns) (s : State) : Host.Outcome State Fault Refusal := .next (s.vecReduce site i 0x7F800000 (Num.pick false) 1)

/-! Approximations, division, root (R210, R211). -/

/-- An approximation of each FP32 lane. -/
def State.vecApprox (s : State) (site : Nat) (i : VIns) (occ lat op : Nat) : State :=
  s.vecIssue site i.sig (fun s =>
    let p := s.spire site
    if i.ok && i.fmt == .f then .ok (vecEffect occ lat i.d (p.mask i.k) 64 32 [i.a] true (fun l => approx op (BitVec.ofNat 32 (elemAt (p.vreg i.a).toNat 32 l)))) else illegal)

/-- VEXP2. -/
def execVexp2 (site : Nat) (i : VIns) (s : State) : Host.Outcome State Fault Refusal := .next (s.vecApprox site i 1 12 0)

/-- VLOG2. -/
def execVlog2 (site : Nat) (i : VIns) (s : State) : Host.Outcome State Fault Refusal := .next (s.vecApprox site i 1 12 1)

/-- VRCP. -/
def execVrcp (site : Nat) (i : VIns) (s : State) : Host.Outcome State Fault Refusal := .next (s.vecApprox site i 1 12 2)

/-- VRSQRT. -/
def execVrsqrt (site : Nat) (i : VIns) (s : State) : Host.Outcome State Fault Refusal := .next (s.vecApprox site i 1 12 3)

/-- VTANH. -/
def execVtanh (site : Nat) (i : VIns) (s : State) : Host.Outcome State Fault Refusal := .next (s.vecApprox site i 2 16 4)

/-- VSIGM. -/
def execVsigm (site : Nat) (i : VIns) (s : State) : Host.Outcome State Fault Refusal := .next (s.vecApprox site i 2 16 5)

/-- One lane of a correctly rounded quotient (R211): a nonzero value over zero forms an infinity from finite operands. -/
def quotient (x y : Num) : Nat × Nat :=
  let r := Num.div x y
  let (c, g) := arithTo fmtFp32 [x, y] r
  (c, g ||| flagIf (r.isInf && !x.isInf && !y.isInf) flOverflow)

/-- VDIV. -/
def execVdiv (site : Nat) (i : VIns) (s : State) : Host.Outcome State Fault Refusal :=
  .next (s.vecIssue site i.sig (fun s =>
    let p := s.spire site
    let el := fun v l => fmtFp32.decode (elemAt (p.vreg v).toNat 32 l)
    if i.ok && i.fmt == .f then .ok (vecEffect 8 24 i.d (p.mask i.k) 64 32 [i.a, i.b] true (fun l => quotient (el i.a l) (el i.b l))) else illegal))

/-- VSQRT. -/
def execVsqrt (site : Nat) (i : VIns) (s : State) : Host.Outcome State Fault Refusal :=
  .next (s.vecIssue site i.sig (fun s =>
    let p := s.spire site
    if i.ok && i.fmt == .f then
      .ok (vecEffect 8 24 i.d (p.mask i.k) 64 32 [i.a] true (fun l => let x := fmtFp32.decode (elemAt (p.vreg i.a).toNat 32 l); arithTo fmtFp32 [x] (Num.sqrt x)))
    else illegal))

/-! Moves (R205). -/

/-- VTR: a tile row to a register, raw bits. An accumulator tile holds FP32 only, under tag 0x0 (R45); the bits of an operand tile move whatever its tag, a metadata tile's 0xC included, since a raw move gives
them no format (DESIGN CHOICE, notes/assumptions/110.md). -/
def execVtr (site : Nat) (i : VMove) (s : State) : Host.Outcome State Fault Refusal :=
  .next (s.vecIssue site i.sig (fun s =>
    let p := s.spire site
    let m := laneMask (p.mask i.k)
    if (Nat.blt i.v 32 && Nat.blt i.k 8 && Nat.blt i.r 32 && Nat.blt i.t (if i.acc then 4 else 16) && Nat.blt i.half 2) = false then illegal
    else if i.acc then (if s.tagAcc site i.t = 0 then .ok { occ := 1, lat := 3, writes := [.vec i.v (p.accRow i.t i.r) m], flags := 0, reads := [(1, i.t)], result := false } else .error (clFormat, 0))
    else
      let sh := 1024 * i.half
      .ok { occ := 1, lat := 3, writes := [.vec i.v (BitVec.ofNat 2048 ((p.tileRow i.t i.r).toNat * 2 ^ sh)) (m &&& BitVec.ofNat 2048 ((2 ^ 1024 - 1) * 2 ^ sh))], flags := 0, reads := [(0, i.t)], result := false }))

/-- VRT: a register to a tile row, raw bits, with the tag it carries; tag 0x0 for an accumulator row. -/
def execVrt (site : Nat) (i : VMove) (s : State) : Host.Outcome State Fault Refusal :=
  .next (s.vecIssue site i.sig (fun s =>
    let p := s.spire site
    let m := laneMask (p.mask i.k)
    if (Nat.blt i.v 32 && Nat.blt i.k 8 && Nat.blt i.r 32 && Nat.blt i.t (if i.acc then 4 else 16) && Nat.blt i.half 2) = false then illegal
    else if i.acc then .ok { occ := 1, lat := 3, writes := if m = 0 then [] else [.acc i.t i.r (p.vreg i.v) m, .tagAcc i.t 0], flags := 0, reads := [(2, i.v)], result := false }
    else if 0xD ≤ i.tag then .error (clFormat, 0)
    else
      let half := fun (x : BitVec 2048) => BitVec.ofNat 1024 (x.toNat / 2 ^ (1024 * i.half))
      .ok { occ := 1, lat := 3, writes := tagged [.tile i.t i.r (half (p.vreg i.v)) (half m)] (half m).toNat i.t i.tag, flags := 0, reads := [(2, i.v)], result := false }))

/-! Local store (R206). -/

/-- The offsets of the unmasked lanes. -/
def laneOffsets (k : Word) (base size : Nat) (idx : Nat → Nat) : List (Nat × Nat) :=
  ((List.range 64).filter (fun l => k.getLsbD l)).map (fun l => (l, base + idx l * size))

/-- Bank passes: the most distinct 8-byte words that one bank is asked for. -/
def bankPasses (offs : List (Nat × Nat)) : Nat :=
  let words := (offs.map (fun x => x.2 / 8)).eraseDups
  (List.range 64).foldl (fun m b => max m (words.filter (fun w => w % 64 == b)).length) 1

/-- An access of the local store: forms checked, every unmasked address checked, then gather or scatter. -/
def State.vecMem (s : State) (site : Nat) (i : VMem) (scatter linear : Bool) : State :=
  let size := if linear then 4 else i.size
  let offsOf := fun (s : State) => let p := s.spire site; laneOffsets (p.mask i.k) i.base size (fun l => if linear then l else elemAt (p.vreg i.idx).toNat 32 l)
  let s := s.ready site .vector
  let q := (s.spire site).vec.qpos
  let s' := s.vecIssue site i.sig (fun s =>
    let p := s.spire site
    let offs := offsOf s
    if (Nat.blt i.v 32 && Nat.blt i.idx 32 && Nat.blt i.k 8 && (size == 1 || size == 2 || size == 4) && i.base % size == 0) = false then illegal
    else match offs.find? (fun x => Nat.blt lsSize (x.2 + size)) with
      | some x => .error (clAddress, lsBase site + x.2)
      | none =>
        let occ := 4 + (bankPasses offs - 1)
        let reads := (if scatter then [(2, i.v)] else []) ++ (if linear then [] else [(2, i.idx)])
        if scatter then
          .ok { occ := occ, lat := occ + 12, writes := offs.map (fun x => SWr.ls x.2 (bytesLE size (elemAt (p.vreg i.v).toNat 32 x.1))), flags := 0, reads := reads, result := true, point := 1, lanes := offs.map Prod.fst }
        else
          let v := offs.foldl (fun v x => v + s.loadLE (lsBase site + x.2) size * 2 ^ (32 * x.1)) 0
          .ok { occ := occ, lat := occ + 12, writes := [.vec i.v (BitVec.ofNat 2048 v) (laneMask (p.mask i.k))], flags := 0, reads := reads, result := true, point := 1 })
  if (s'.spire site).vec.qpos = q then s' else
  let n := (s'.spire site).vec.free - (s.spire site).issueAt .vector - (if s'.hazEn site then 5 else 4)
  if n = 0 then s' else s'.bump (R.SPR_VEC_BANKPASS site) n

/-- VGATHER. -/
def execVgather (site : Nat) (i : VMem) (s : State) : Host.Outcome State Fault Refusal := .next (s.vecMem site i false false)

/-- VSCATTER. -/
def execVscatter (site : Nat) (i : VMem) (s : State) : Host.Outcome State Fault Refusal := .next (s.vecMem site i true false)

/-- VLD. -/
def execVld (site : Nat) (i : VMem) (s : State) : Host.Outcome State Fault Refusal := .next (s.vecMem site i false true)

/-- VST. -/
def execVst (site : Nat) (i : VMem) (s : State) : Host.Outcome State Fault Refusal := .next (s.vecMem site i true true)

end Sys2Proof.Machine
end

