-- ==== Sys2Proof/Machine/Sync.lean ====
section
/-!
DEFINITION. Sync operations, fences and signals (R214 to R239), the sequencer's scalar operations and branches (R74, R86), and the events of a spire's own run.
-/
namespace Sys2Proof.Machine

/-- A sync operation or branch at its issue: `f` acts at the issue cycle and position, and says the occupancy, or none where it raised a fault or holds the engine (R217). -/
def State.syncIssue (s : State) (site : Nat) (e : Engine) (f : State → Nat → Nat → Option Nat × State) : State :=
  let s := s.ready site e
  if s.canIssue site e = false then s else
  let t := (s.spire site).issueAt e
  let s := s.runTo site t
  if s.takes site e = false then s else
  let (occ, s) := f s t ((s.spire site).eng e).qpos
  match occ with
  | some n =>
    let s := s.issued site e t n
    if e = .vector then s.bump (R.SPR_VEC_ISSUE site) else s
  | none => s

/-- SYNC at issue (R216). -/
def State.syncFault (s : State) (site : Nat) (e : Engine) (q : Nat) : Option Nat × State := (none, s.spireFault site clSync (engNo e) 0 q 0)

def State.illegalFault (s : State) (site : Nat) (e : Engine) (q : Nat) : Option Nat × State := (none, s.spireFault site clIllegal (engNo e) 0 q 0)

/-- A local update of a plain cell, applied at issue + 1 (R217). -/
def State.localUpd (s : State) (site : Nat) (e : Engine) (c : Nat) (op : CellOp) (ok : Bool) : State :=
  s.syncIssue site e (fun s t q =>
    if ok = false then s.illegalFault site e q
    else if s.cellIs site c 0 = false then s.syncFault site e q
    else (some 1, s.pushUpd site (t + 1) c op (engNo e) q))

/-- FILL (R217). -/
def execSyncFill (site : Nat) (e : Engine) (c : Nat) (s : State) : Host.Outcome State Fault Refusal := .next (s.localUpd site e c .fill true)

/-- DRAIN (R217). -/
def execDrain (site : Nat) (e : Engine) (c : Nat) (s : State) : Host.Outcome State Fault Refusal := .next (s.localUpd site e c .drain true)

/-- ADD (R217): n is 1 to 65,535. -/
def execAdd (site : Nat) (e : Engine) (c n : Nat) (s : State) : Host.Outcome State Fault Refusal := .next (s.localUpd site e c (.add n) (Nat.ble 1 n && Nat.ble n 65535))

/-- DEC (R217): n is 1 to 65,535. -/
def execDec (site : Nat) (e : Engine) (c n : Nat) (s : State) : Host.Outcome State Fault Refusal := .next (s.localUpd site e c (.dec n) (Nat.ble 1 n && Nat.ble n 65535))

/-- The engine holds at its wait from cycle `t`; the wait issues once it is satisfied (R75). An engine of a spire that another engine's fault has stopped in this cycle holds no more. -/
def State.holdEngine (s : State) (site : Nat) (e : Engine) (w : Wait) (t : Nat) : State :=
  (s.issued site e t 0).modEng site e (fun x => if x.st = .run then { x with st := .wait, wait := some w, since := t, resume := none } else x)

/-- A wait on a cell: one cycle if its condition holds at issue, else the engine is held (R86, R217). -/
def State.waitOp (s : State) (site : Nat) (e : Engine) (c kind : Nat) (ok : Bool) (w : Wait) : State :=
  s.syncIssue site e (fun s t q =>
    if ok = false then s.illegalFault site e q
    else if s.cellIs site c kind = false then s.syncFault site e q
    else if s.waitHolds site e w then (some 1, s)
    else (none, s.holdEngine site e w t))

/-- WAITF (R217). -/
def execWaitf (site : Nat) (e : Engine) (c : Nat) (s : State) : Host.Outcome State Fault Refusal := .next (s.waitOp site e c 0 true (.full c))

/-- WAITE (R217). -/
def execWaite (site : Nat) (e : Engine) (c : Nat) (s : State) : Host.Outcome State Fault Refusal := .next (s.waitOp site e c 0 true (.empty c))

/-- WAITGE (R217). -/
def execWaitge (site : Nat) (e : Engine) (c n : Nat) (s : State) : Host.Outcome State Fault Refusal := .next (s.waitOp site e c 0 (Nat.ble n 65535) (.ge c n))

/-- WAITGE.TAKE (R217, R219): the take is applied in the issue cycle, or the engine is held. -/
def execWaitgeTake (site : Nat) (e : Engine) (c n : Nat) (s : State) : Host.Outcome State Fault Refusal :=
  .next (s.syncIssue site e (fun s t q =>
    if (Nat.ble 1 n && Nat.ble n 65535) = false then s.illegalFault site e q
    else if s.cellIs site c 0 = false then s.syncFault site e q
    else if s.waitHolds site e (.take c n) then
      (match s.tryTake site c n t with
       | (true, s) => (some 1, s)
       | (false, s) => (none, s.holdEngine site e (.take c n) t))
    else (none, s.holdEngine site e (.take c n) t)))

/-- SREAD (R217): the whole word of a cell of any kind to a scalar register. -/
def execSread (site x c : Nat) (s : State) : Host.Outcome State Fault Refusal :=
  .next ((s.ready site .seq).issueFixed site .seq none (fun s =>
    if c < 48 then .ok { occ := 1, lat := 3, writes := [.scal x (s.cell site c)], flags := 0, reads := [], result := false } else .error (clSync, 0)))

/-- BARRIVE (R231). A home that is no module of the logical map raises SYNC, as a signal to it does (DEDUCED, notes/assumptions/24.md). -/
def execBarrive (site : Nat) (e : Engine) (c : Nat) (s : State) : Host.Outcome State Fault Refusal :=
  .next (s.syncIssue site e (fun s t q =>
    if s.cellIs site c 2 = false then s.syncFault site e q
    else if (s.posOf (fget (s.cell site c) cHmod)).isNone || Nat.blt 959 (fget (s.cell site c) cHspire) then s.syncFault site e q
    else if fget (s.cell site c) cPend < 2 then (some 1, s.sendArrival site e c t q)
    else (none, (s.holdEngine site e (.arrive c) t).startHold site c (engNo e) (s.nsOf site t))))

/-- BWAIT (R232): k is 0 or 1. -/
def execBwait (site : Nat) (e : Engine) (c k : Nat) (s : State) : Host.Outcome State Fault Refusal := .next (s.waitOp site e c 2 (Nat.ble k 1) (.pend c k))

/-- The payload of a signal of this spire (R322, R225). -/
def State.sigPay (s : State) (site c : Nat) (op : RemOp) : SigPay :=
  let m := (s.logicalOf s.position).getD 0
  match op with
  | .add n => { cell := c, op := 0, n := n, gen := 0, origModule := m, origSpire := s.logical site }
  | .fill => { cell := c, op := 1, n := 0, gen := 0, origModule := m, origSpire := s.logical site }

def RemOp.ok : RemOp → Bool
  | .add n => Nat.ble 1 n && Nat.ble n 65535
  | .fill => true

/-- SIG (R225). -/
def execSig (site : Nat) (e : Engine) (m l c : Nat) (op : RemOp) (s : State) : Host.Outcome State Fault Refusal :=
  .next (s.syncIssue site e (fun s _ q =>
    if op.ok = false then s.illegalFault site e q
    else if (s.posOf m).isNone || Nat.blt 959 l || Nat.ble 48 c then s.syncFault site e q
    else (some 1, ((s.sendSignal site (engNo e) m l (s.sigPay site c op)).addOut site e 1).bump (R.SPR_SYNC_SIGOUT site))))

/-- SIG.MC (R225, R228): one message to each member module of a sync group. -/
def execSigMc (site : Nat) (e : Engine) (g : Nat) (op : RemOp) (s : State) : Host.Outcome State Fault Refusal :=
  .next (s.syncIssue site e (fun s _ q =>
    if (op.ok && Nat.blt g 64) = false then s.illegalFault site e q
    else
      let (n, s) := s.sendMulticast site (engNo e) g (s.sigPay site (groupCell (s.syncGroup g)) op)
      (some 1, (s.addOut site e n).bump (R.SPR_SYNC_SIGOUT site))))

/-- The acquire of a fence (R252): every L1 line goes; what loads and prefetches issued so far still bring is not kept. -/
def State.acquire (s : State) (site : Nat) : State :=
  let n := (s.spire site).mover.l1.length
  let s := if n = 0 then s else s.bump (R.SPR_ACQ_DISCARD site) n
  s.modMover site (fun m => { m with l1 := [], gen := m.gen + 1 })

/-- FENCE (R222): the engine is held until each condition named holds; the next instruction issues 2 cycles later. -/
def execFence (site : Nat) (e : Engine) (w sg a : Bool) (s : State) : Host.Outcome State Fault Refusal :=
  .next (s.syncIssue site e (fun s t q =>
    if (w || sg || a) = false then s.illegalFault site e q
    else
      let s := if a then s.acquire site else s
      let fw := Wait.fence w sg (s.spire site).seq (if a then t + 2 else t)
      let s := s.holdEngine site e fw t
      (none, if s.waitHolds site e fw then s.modEng site e (fun x => { x with resume := some ((if a then t + 2 else t) + 2) }) else s)))

/-- END (R97): the engine idles. -/
def execEndStream (site : Nat) (e : Engine) (s : State) : Host.Outcome State Fault Refusal :=
  .next (s.syncIssue site e (fun s t _ =>
    let s := s.issued site e t 1
    let s := if e = .vector then s.bump (R.SPR_VEC_ISSUE site) else s
    (none, s.modEng site e (fun x => if x.st = .run then { x with st := .ended } else x))))

/-! The sequencer (R74, R86). -/

/-- A scalar operation: 64-bit two's complement. -/
def scalarOp (op : SOp) (a b : Word) : Word :=
  match op with
  | .add => a + b
  | .sub => a - b
  | .and => a &&& b
  | .or => a ||| b
  | .xor => a ^^^ b
  | .shl => if b.toNat < 64 then a <<< b.toNat else 0
  | .shr => if b.toNat < 64 then a >>> b.toNat else 0
  | .sra => a.sshiftRight (min 63 b.toNat)
  | .mul => a * b
  | .lt => if a.slt b then 1 else 0
  | .ltu => if a.ult b then 1 else 0

def State.srcVal (s : State) (site : Nat) (x : SSrc) : Word := match x with | .reg r => (s.spire site).scalar r | .imm v => v

def SSrc.res : SSrc → List Res
  | .reg r => [(3, r)]
  | .imm _ => []

/-- SCALAR_ARITHMETIC (R86): latency 1, a multiply 3. -/
def execScalarArithmetic (site : Nat) (op : SOp) (d : Nat) (a b : SSrc) (s : State) : Host.Outcome State Fault Refusal :=
  .next ((s.ready site .seq).issueFixed site .seq none (fun s =>
    .ok { occ := 1, lat := if op = .mul then 3 else 1, writes := [.scal d (scalarOp op (s.srcVal site a) (s.srcVal site b))], flags := 0, reads := a.res ++ b.res, result := false }))

/-- The condition of a sequencer branch. -/
def branchHolds (c : BCond) (a b : Word) : Bool :=
  match c with
  | .always => true | .eq => a == b | .ne => a != b | .lt => a.slt b | .ge => !a.slt b | .ltu => a.ult b | .geu => !a.ult b

/-- Depth of an engine's instruction queue (R74). -/
def queueDepth : Engine → Nat
  | .matrix => 16 | .vector => 64 | .mover => 32 | .seq => 32

/-- A branch taken goes on at instruction `target` of the stream, which is fetched anew; a branch back over no more than the queue's depth needs no refetching (R74). -/
def State.jump (s : State) (site : Nat) (e : Engine) (target : Nat) : State :=
  s.modEng site e (fun x => { x with pc := target, queue := if target < x.pc ∧ x.pc ≤ target + queueDepth e then min (queueDepth e) (x.queue + (x.pc - target)) else 0 })

/-- BRANCH (R74, R86): occupancy 1 not taken, 4 taken. -/
def execBranch (site : Nat) (c : BCond) (a b : SSrc) (target : Nat) (s : State) : Host.Outcome State Fault Refusal :=
  .next (s.syncIssue site .seq (fun s t q =>
    let (go, s) := s.earlyReads site 4 q (a.res ++ b.res) (fun _ => false)
    if go = false then (none, s)
    else if branchHolds c (s.srcVal site a) (s.srcVal site b) then (none, (s.issued site .seq t 4).jump site .seq target)
    else (some 1, s)))

/-- The runs left of a repeat block of `n` runs as its last instruction, at index `pc`, is reached: a block not in progress has just run once (R74). -/
def Eng.repsLeft (x : Eng) (n : Nat) : Nat := if tget (fun _ => 0) x.reps x.pc = 0 then n - 1 else tget (fun _ => 0) x.reps x.pc - 1

/-- The test of a branch, as a cell stands after every update up to issue − 1 (R86), or by the runs left of a repeat block (R74). -/
def State.cellTest (s : State) (site : Nat) (e : Engine) (c : CellTest) : Bool :=
  match c with
  | .always => true
  | .counted n => ((s.spire site).eng e).repsLeft n != 0
  | .isFull c => fget (s.cell site c) cFull == 1
  | .isEmpty c => fget (s.cell site c) cFull == 0
  | .atLeast c n => Nat.ble n (fget (s.cell site c) cCount)

def CellTest.cell? : CellTest → Option Nat
  | .always => none | .counted _ => none | .isFull c => some c | .isEmpty c => some c | .atLeast c _ => some c

/-- The end of a repeat block takes note of the runs left. -/
def State.noteReps (s : State) (site : Nat) (e : Engine) (c : CellTest) : State :=
  match c with
  | .counted n => s.modEng site e (fun x => { x with reps := tset (fun _ => 0) x.reps x.pc (x.repsLeft n) })
  | _ => s

/-- SYNC_BRANCH (R74, R86): the matrix, vector and mover engines branch on a plain cell's state, jump, or repeat a block, which costs what a jump costs (DESIGN CHOICE, notes/assumptions/119.md). A block of no
run is no instruction (R99). -/
def execSyncBranch (site : Nat) (e : Engine) (c : CellTest) (target : Nat) (s : State) : Host.Outcome State Fault Refusal :=
  .next (s.syncIssue site e (fun s t q =>
    let ok := match c.cell? with | some k => s.cellIs site k 0 | none => true
    if e = .seq ∨ c = .counted 0 then s.illegalFault site e q
    else if ok = false then s.syncFault site e q
    else if s.cellTest site e c then
      let s := ((s.noteReps site e c).issued site e t 4).jump site e target
      (none, if e = .vector then s.bump (R.SPR_VEC_ISSUE site) else s)
    else (some 1, s.noteReps site e c)))

/-! The spire's own events. -/

/-- All spires of a task that have not finished are PAUSED. -/
def State.isPaused (s : State) (t : Task) : Bool := t.gang.all (fun i => s.spState i == 3 || s.spState i == 5)

/-- Pause commands whose task is PAUSED now end (called as landings settle). -/
def State.settlePauses (s : State) (site : Nat) : State :=
  match s.taskAt site with
  | some t => if t.pauseCmds ≠ [] ∧ s.isPaused t then t.pauseCmds.foldl (fun s c => s.finishCmd c .ok []) (s.setTask { t with pauseCmds := [] }) else s
  | none => s

/-- The stopping of a spire is complete: every surviving instruction has landed (R102). -/
def State.settlePause (s : State) (site : Nat) : State :=
  if s.spState site = 2 && (s.spire site).landings.isEmpty then (s.setSpState site 3).settlePauses site else s

/-- The spire's next event: a landing and what comes before it, else, whole, the cycle of the next request, row read or cell update; what mover and cells can do now in any case. -/
def State.nextEvent (s : State) (site : Nat) : State :=
  match ((s.spire site).landings.map (·.due)).min? with
  | some c => (s.runTo site c).pump site
  | none => match s.nextDue site with
    | some c => s.runCycle site c true
    | none => s.pump site

/-- An uncorrectable error of an on-die memory (R117, R295, R550): its record names the site, or 0xFFFF for Lantern's own, and the structure; the warm reset follows.
The count of the tower near the site takes it, tower 0's for Lantern (R295; DESIGN CHOICE, notes/assumptions/122.md). -/
def State.sramUe (s : State) (site memory : Nat) : State :=
  let k := if memory = 6 then 0xFFFF else site
  (s.bump (R.TWR_UE_COUNT (if memory = 6 then 0 else 4 * domeOf site + reachOf site / 2))).raise3 0x0206 2 k k memory

/-- The datapath's own residue mismatch, of the next result to land that is an array's or the vector engine's (R67, R68). -/
def State.upsetNext (s : State) (site : Nat) (r : Rsd) : State :=
  let p := s.spire site
  match sortOn (fun l => l.due * 2 ^ 50 + landRank l) (p.landings.filter (fun l => Nat.blt l.eng 3)) with
  | l :: _ => s.modSpire site (fun p => { p with landings := p.landings.map (fun x => if x.seq = l.seq then { x with rsd := some r, bad := true } else x) })
  | [] => s

/-- INSTRUCTION_LANDING (R77): the spire runs to its next landing, with all that comes before it; with none to come, to its next event. An error of the on-die memories or of the datapath comes with it. -/
def execInstructionLanding (site : Nat) (u : Upset) (s : State) : Host.Outcome State Fault Refusal :=
  match u with
  | .quiet => .next ((s.nextEvent site).settlePause site)
  | .sram k => .next (s.sramUe site k)
  | .residue row col point expected observed =>
    .next (((s.upsetNext site { row := row, col := col, point := point, expected := expected, observed := observed }).nextEvent site).settlePause site)

/-- ENGINE_ISSUE_RESUME (R75): a held engine goes on at its cycle of resumption; the mover makes what requests it can. -/
def execEngineIssueResume (site : Nat) (e : Engine) (s : State) : Host.Outcome State Fault Refusal :=
  if s.spState site ≠ 1 then .next s
  else if ((s.spire site).eng e).st ≠ .wait then .next (s.pump site)
  else .next ((runForResume (s.spire site).busyCycles site e s).resumeEngine site e)

/-- INSTRUCTION_FETCH_RETURN (R74, R76): instructions reach an engine's queue, up to its depth; a fetch past the stream's last instruction is an ADDRESS fault at the position beyond it. -/
def execInstructionFetchReturn (site : Nat) (e : Engine) (n : Nat) (s : State) : Host.Outcome State Fault Refusal :=
  let x := (s.spire site).eng e
  let extent := match s.taskAt site with | some t => (Config.streamExtent t.program (engNo e)).toNat | none => 0
  if x.st = .idle ∨ x.st = .ended ∨ x.st = .stop then .next s
  else if x.queue = 0 ∧ extent ≤ x.pc then .next (s.spireFault site clAddress (engNo e) 0 x.qpos 0)
  else .next (s.modEng site e (fun x => { x with queue := min (queueDepth e) (x.queue + min n (extent - x.pc - x.queue)) }))

/-- RSD_INJECT_ARM (R73): ignored while the debug lock is closed; engine 3 arms nothing. -/
def State.armInject (s : State) (site v : Nat) : State :=
  if s.fld R.SEC_STATE F.SEC_STATE_DEBUG_OPEN = 0 then s
  else if fget (BitVec.ofNat 64 v) F.SPR_RSD_INJECT_ARM = 1 ∧ fget (BitVec.ofNat 64 v) F.SPR_RSD_INJECT_ENGINE < 3 then
    s.modSpire site (fun p => { p with inject := some (fget (BitVec.ofNat 64 v) F.SPR_RSD_INJECT_ENGINE) })
  else s

def execRsdInjectArm (site v : Nat) (s : State) : Host.Outcome State Fault Refusal := .next (s.armInject site v)

/-- RNG_SEED_WRITE (R57, R58). -/
def State.writeSeed (s : State) (site : Nat) (v : Word) : State := (s.setReg (R.SPR_RNG_SEED site) v).seedLanes site

def execRngSeedWrite (site : Nat) (v : Word) (s : State) : Host.Outcome State Fault Refusal := .next (s.writeSeed site v)

/-- The cycle at which something from outside reaches a spire. -/
def State.arriveAt (s : State) (site : Nat) : Nat := max (s.spire site).cycle (s.cycleAt site s.now)

/-- What reaches a cell from outside reaches it in a cycle of its own, which ends with it (DESIGN CHOICE, notes/assumptions/120.md); a spire that runs no task then settles. -/
def State.cellReached (s : State) (site : Nat) (u : Nat → CellUpd) : State :=
  let t := s.arriveAt site
  let s := ((s.runTo site t).modSpire site (fun p => { p with upds := p.upds ++ [u t] })).runCycle site t true
  if s.spState site = 1 ∨ s.spState site = 2 then s else s.settleCells site

/-- A host write of a cell (R219 step 6, R221): in the cycle it reaches the spire. -/
def State.writeCell (s : State) (site c : Nat) (v : Word) : State :=
  s.cellReached site (fun t => { due := t, cell := c, op := .host v, eng := 5, qpos := 0, remote := false, omod := 0, ospire := 0 })

/-- SYNC_CELL_WRITE (R221). -/
def execSyncCellWrite (site c : Nat) (v : Word) (s : State) : Host.Outcome State Fault Refusal := .next (if c < 48 then s.writeCell site c v else s)

/-! The hold limit (R234). -/

/-- A hold reaches the limit: flag, count, and a corrected-class record. -/
def State.holdReached (s : State) (site : Nat) (h : Hold) : State :=
  let s := s.modSpire site (fun p => { p with holds := p.holds.map (fun x => if x = h then { x with reached := true } else x) })
  let s := (s.setReg (R.SPR_SYNC_HOLDFLG site) (s.reg (R.SPR_SYNC_HOLDFLG site) ||| BitVec.ofNat 64 (2 ^ h.cell))).bump (R.SPR_SYNC_HOLDCNT site)
  s.note 0x0205 0 2 site (s.reg (R.SPR_SYNC_HOLDFLG site)).toNat 0

/-- A write of the limit is compared at once with every running hold. -/
def State.writeHoldLim (s : State) (site v : Nat) : State :=
  let s := s.setReg (R.SPR_SYNC_HOLD_LIM site) (BitVec.ofNat 64 (v % 2 ^ 32))
  if v % 2 ^ 32 = 0 then s
  else ((s.spire site).holds.filter (fun h => !h.reached && Nat.ble (h.since + v % 2 ^ 32) (s.spireNs site))).foldl (fun s h => s.holdReached site h) s

/-- HOLD_LIM_WRITE (R234). -/
def execHoldLimWrite (site v : Nat) (s : State) : Host.Outcome State Fault Refusal := .next (s.writeHoldLim site v)

/-- SYNC_HOLD_LIMIT_REACHED (R234): the hold at a cell has lasted the limit; `eng` 5 is the hold of a home. -/
def execSyncHoldLimitReached (site c eng : Nat) (s : State) : Host.Outcome State Fault Refusal :=
  let lim := (s.reg (R.SPR_SYNC_HOLD_LIM site)).toNat
  match (s.spire site).holds.find? (fun h => h.cell == c && h.eng == eng && !h.reached) with
  | some h => if lim = 0 then .next s else .next (({ s with now := max s.now (h.since + lim) }).holdReached site h)
  | none => .next s

/-! Signals in (R226 to R233). -/

/-- The update that a signal payload makes. -/
def sigUpd (p : SigPay) : CellOp := match p.op with | 0 => .add p.n | 1 => .fill | 2 => .arrive p.gen | _ => .release p.gen

/-- The cell of a payload accepts it by its kind (R229). -/
def State.sigFits (s : State) (site : Nat) (p : SigPay) : Bool := s.cellIs site p.cell (match p.op with | 2 => 1 | 3 => 2 | _ => 0)

/-- A signal reaches a site (R226, R230): dropped and counted at a FENCED one, else applied in its arrival cycle. The first part is the status of R352: 1 for a message that R229 discards. -/
def State.signalNow (s : State) (site : Nat) (p : SigPay) (old : Bool := false) : Nat × State :=
  if s.spState site = 6 ∧ old = false then (0, s.bump (R.SPR_SYNC_DROP site))
  else
    (if (s.runTo site (s.arriveAt site)).sigFits site p then 0 else 1,
     s.cellReached site (fun t => { due := t, cell := p.cell, op := sigUpd p, eng := 4, qpos := 0, remote := true, omod := p.origModule, ospire := p.origSpire }))

/-- REMOTE_SIGNAL_ARRIVAL (R226): an ADD or FILL from another spire or module. -/
def execRemoteSignalArrival (site : Nat) (p : SigPay) (s : State) : Host.Outcome State Fault Refusal := .next (if p.op < 2 then (s.signalNow site p).2 else s)

/-- BARRIER_ARRIVAL (R233). -/
def execBarrierArrival (site : Nat) (p : SigPay) (s : State) : Host.Outcome State Fault Refusal := .next (if p.op = 2 then (s.signalNow site p).2 else s)

/-- BARRIER_RELEASE (R232). -/
def execBarrierRelease (site : Nat) (p : SigPay) (s : State) : Host.Outcome State Fault Refusal := .next (if p.op = 3 then (s.signalNow site p).2 else s)

end Sys2Proof.Machine
end

