-- ==== Sys2Proof/Machine/Pods.lean ====
section
/-!
DEFINITION. Packets between modules: signals (R352), stream ends (R353), stops (R373, R555), and mirroring (R374 to R377); route tables (R362).
-/
namespace Sys2Proof.Machine

/-! Signals between modules (R225 to R230). -/

/-- A signal received is the oldest of its source and link, so that the signals of one engine are applied in issue order (R226, R363). -/
def State.sigInTurn (s : State) (n : Nat) (p : LPkt) : Bool :=
  s.pod.io.inbox.find? (fun x => x.1 == n && x.2.srcPos == p.srcPos && (match x.2.body with | .sig _ _ _ => true | _ => false)) == some (n, p)

/-- LINK_SIG (R225, R226, R352): a signal for a logical spire is applied here and acknowledged; a multicast is sent into the canal group of its sync group, and acknowledged when that
is delivered. A logical number that no site has is answered as a FENCED site is. -/
def execLinkSig (n : Nat) (p : LPkt) (s : State) : Host.Outcome State Fault Refusal :=
  if s.sigInTurn n p then
    let s := s.takeInbox n p
    match p.body with
    | .sig pay false dest =>
      let (st, s) := match s.siteOf dest with | some site => s.signalNow site pay | none => (0, s)
      .next (s.sendL (s.lpkt 0 p.srcPos p.id (.sigAck st)) (n / 24))
    | .sig pay true g =>
      let e := s.syncGroup g
      let tag := s.pod.nextTag
      let s := { s with pod := { s.pod with nextTag := (tag + 1) % 65536, mcIn := tinsert s.pod.mcIn tag (p.srcPos, p.id) } }
      .next (s.inject { siteReq 0 7 2 (groupCanal e) (4 + n / 24) tag { pay with cell := groupCell e } with skind := 1 })
    | _ => .next s
  else .next s

/-- LINK_SIG_ACK (R225, R352): delivery reaches the engine that sent the signal (condition S of R222). -/
def execLinkSigAck (n : Nat) (p : LPkt) (s : State) : Host.Outcome State Fault Refusal :=
  match s.pod.io.inbox.contains (n, p), s.pod.sigTags.find? (fun t => t.1 == p.id) with
  | true, some t =>
    let s := s.takeInbox n p
    let s : State := { s with pod := { s.pod with sigTags := s.pod.sigTags.filter (fun x => x.1 != p.id) } }
    let site := t.2 / 8
    let s := s.sigDone site (t.2 % 8)
    .next (s.wake site (max (s.spire site).cycle (s.cycleAt site s.now)))
  | _, _ => .next s

/-! Stream ends (R353). -/

/-- What the end of a stream means to its originator, by its kind (R352): a mirror chunk that failed stays dirty; a stage-queue slot has left. -/
def State.streamEnded (s : State) (k : Nat) (x : Stream) (status : Nat) : State :=
  match x.kind with
  | 4 =>
    let m := s.mirror
    let back := if status = 0 then [] else (m.inFlight.filter (fun f => f.1 == k)).map Prod.snd
    let m := { m with inFlight := m.inFlight.filter (fun f => f.1 != k) }
    let m := match m.closing with
      | some _ => { m with c := m.c ++ back.filter (fun c => !m.c.contains c) }
      | none => if m.openEpoch % 2 = 0 then { m with d0 := m.d0 ++ back.filter (fun c => !m.d0.contains c) } else { m with d1 := m.d1 ++ back.filter (fun c => !m.d1.contains c) }
    { s with mirror := m }.showMirror
  | 3 =>
    match tfind s.stq x.owner with
    | some q => { s with stq := tinsert s.stq x.owner { q with flying := q.flying.filter (fun f => f != k) } }
    | none => s
  | _ => s

/-- STREAM_ACK (R353): end-to-end completion reaches the originator. An address failure ends the collective that sent the stream (R390). -/
def execStreamAck (n : Nat) (p : LPkt) (s : State) : Host.Outcome State Fault Refusal :=
  match s.pod.io.inbox.contains (n, p), p.body, tfind s.pod.streams p.id with
  | true, .streamAck status, some x =>
    let s := s.takeInbox n p
    let s := { s with pod := { s.pod with streams := terase s.pod.streams p.id } }
    let s := s.streamEnded p.id x status
    if x.kind ≤ 2 ∧ status = 1 ∧ x.owner < 16 then
      let s := s.ceErr 3 x.owner x.collId
      .next ((s.endColl x.owner .collAddress).raise 0x0602 6 x.owner 0 (s.reg R.LNK_CE_ERR).toNat 0)
    else .next s
  | true, _, _ => .next (s.takeInbox n p)
  | _, _, _ => .next s

/-! Stops (R373, R554 to R557). -/

/-- A stop during a ROLLBACK ends it with JOB_STOPPED (R557). -/
def State.stopRollback (s : State) : State :=
  match s.hcp.cmds.find? (fun c => c.opcode == 0x0606 && c.started) with
  | some c => ({ s with bsn := { s.bsn with restore := none } } : State).finishCmd c.dseq .jobStopped []
  | none => s

/-- STOP (R373, R555, R557): the first copy of an identifier is forwarded on one ACTIVE link of every group and counted; the first stop of a RUNNING job stops it, a later one is
recorded; a module without a job does nothing else. -/
def execStop (n : Nat) (p : LPkt) (s : State) : Host.Outcome State Fault Refusal :=
  match s.pod.io.inbox.contains (n, p), p.body with
  | true, .stop kind src job =>
    let s := s.takeInbox n p
    if s.errs.stopsSeen.contains p.id then .next s else
    let s : State := { s with errs := { s.errs with stopsSeen := s.errs.stopsSeen ++ [p.id] } }
    let s := (s.flood p.id p.body).bump R.ERR_STOPS_RECV
    let mine := s.jobState != 0 && (kind == 1 || job == (s.reg R.ERR_JOB_ID).toNat)
    if mine = false then .next s
    else
      let first := s.jobState == 1
      let s := if first then s.beginStop p.id src else s.stopRollback
      let s := s.putRecord 0x0006 2 0 0 0 p.id src 0 0 p.id
      .next ((s.noticeStop p.id src first).settleStop)
  | _, _ => .next s

/-- STOP_TIMEOUT (R556): still STOPPING at STOP_LIM; the record and the warm reset. -/
def execStopTimeout (s : State) : Host.Outcome State Fault Refusal :=
  if s.jobState = 2 then
    let s : State := { s with now := max s.now (s.errs.stopTime + 1000000 * max 1 (s.fld R.ERR_CTL F.ERR_CTL_STOP_LIM)) }
    .next (s.raise3 0x0002 0 0 (s.fld R.ERR_JOB F.ERR_JOB_STOP_ID) 0)
  else .next s

/-! Mirroring (R375 to R377). -/

/-- Every chunk of the declared regions and of the journal working region. -/
def Mirror.allChunks (m : Mirror) : List Nat :=
  if m.regions = [] then [] else m.regions.flatMap (fun r => chunksOf r.base r.len) ++ chunksOf 0x005DFF800000 0x800000

/-- Set the full-copy mark (R376). -/
def State.markFull (s : State) : State :=
  { s with mirror := { s.mirror with full := true, fullLeft := s.mirror.allChunks } }.showMirror

/-- The dirty bitmap of a slot. -/
def Mirror.dirty (m : Mirror) (slot : Nat) : List Nat := if slot = 0 then m.d0 else m.d1

def Mirror.setDirty (m : Mirror) (slot : Nat) (d : List Nat) : Mirror := if slot = 0 then { m with d0 := d } else { m with d1 := d }

/-- MIRROR_CHUNK_COPY (R376): the copier sends a chunk of C; or, once the epoch before has committed, a dirty chunk of the open epoch, whose bit clears as the stream opens. -/
def execMirrorChunkCopy (c : Nat) (s : State) : Host.Outcome State Fault Refusal :=
  let m := s.mirror
  if s.partnerPos = none then .next s
  else if m.closing.isSome then .next (if m.c.contains c then s.copyClosing c else s)
  else if m.openEpoch = 0 then .next s
  else
    let slot := m.openEpoch % 2
    if (m.dirty slot).contains c || m.fullLeft.contains c then
      let m := m.setDirty slot ((m.dirty slot).filter (fun x => x != c))
      let s := { s with mirror := { m with fullLeft := m.fullLeft.filter (fun x => x != c) } }
      .next (s.sendChunk m.openEpoch c)
    else .next s

/-- MIRROR_EPOCH_COMPLETE (R377): C is empty and every stream of the epoch has completed; MIRROR_COMMIT goes to the partner. -/
def execMirrorEpochComplete (s : State) : Host.Outcome State Fault Refusal :=
  let m := s.mirror
  match m.closing, s.partnerPos with
  | some n, some pos =>
    if m.c = [] ∧ m.inFlight = [] ∧ m.commitSent = false then
      let s := { s with mirror := { m with commitSent := true } }
      .next (s.sendL (s.lpkt 3 pos (n % 2) (.mirrorCommit (n % 2) n m.closeTime m.closeSpec)))
    else .next s
  | _, _ => .next s

/-- MIRROR_COMMIT (R377, R517): the partner's epoch is recorded here, in memory and journal, and acknowledged. -/
def execMirrorCommit (n : Nat) (p : LPkt) (s : State) : Host.Outcome State Fault Refusal :=
  match s.pod.io.inbox.contains (n, p), p.body with
  | true, .mirrorCommit slot epoch close spec =>
    let s := s.takeInbox n p
    let s := { s with jnl := { s.jnl with mirEpoch := epoch, mirSlot := slot, mirClose := close, mirSpec := spec } }
    .next (s.writeMirrorRecord.sendL (s.lpkt 3 p.srcPos slot (.mirrorAck slot epoch)) (n / 24))
  | _, _ => .next s

/-- MIRROR_ACK (R377): the epoch is committed; the full-copy mark clears with it. -/
def execMirrorAck (n : Nat) (p : LPkt) (s : State) : Host.Outcome State Fault Refusal :=
  match s.pod.io.inbox.contains (n, p), p.body with
  | true, .mirrorAck slot epoch =>
    let s := s.takeInbox n p
    let m := s.mirror
    if m.closing = some epoch ∧ m.commitSent then
      let s : State := { s with mirror := { m with closing := none, commitSent := false, full := if m.fullLeft = [] then false else m.full } }
      let s := (s.setReg R.LNK_MIR_EPOCH (BitVec.ofNat 64 epoch)).showMirror
      .next (s.event .mirrorCommitted 0 0 [epoch % 2 ^ 32, epoch / 2 ^ 32, slot])
    else .next s
  | _, _ => .next s

/-! Route tables (R362 to R364). -/

/-- Coordinates of a position. -/
def coordsOf (dims : Nat × Nat × Nat) (p : Nat) : List Nat := [p % dims.1, p / dims.1 % dims.2.1, p / (dims.1 * dims.2.1)]

def posAt (dims : Nat × Nat × Nat) (c : List Nat) : Nat := c.getD 0 0 + dims.1 * (c.getD 1 0 + dims.2.1 * c.getD 2 0)

/-- The positions passed from coordinate `a` to `b` of dimension `k`, going + or −, the end included. -/
def wayOf (dims : Nat × Nat × Nat) (c : List Nat) (k d b : Nat) (plus : Bool) : List Nat :=
  let a := c.getD k 0
  let n := if plus then (b + d - a) % d else (a + d - b) % d
  (List.range n).map (fun i => posAt dims (c.set k (if plus then (a + i + 1) % d else (a + d * 2 - i - 1) % d)))

/-- The route-table entry from `p` to `q` over the axes `axes` (R362): the first dimension that differs, the shorter way, or the other round its ring past a dead position. 0xE000 where none is left. -/
def routeWord (dims : Nat × Nat × Nat) (dead axes : List Nat) (p q : Nat) : Nat :=
  if p = q then 6 * 2 ^ 13 else
  if dead.contains q then 7 * 2 ^ 13 else
  let c := coordsOf dims p
  let t := coordsOf dims q
  let ds := [dims.1, dims.2.1, dims.2.2]
  let diff := [0, 1, 2].filter (fun k => c.getD k 0 != t.getD k 0)
  if diff.any (fun k => !axes.contains k) then 7 * 2 ^ 13 else
  match diff with
  | [] => 7 * 2 ^ 13
  | k :: _ =>
    let d := ds.getD k 1
    let b := t.getD k 0
    let near := Nat.ble (2 * ((b + d - c.getD k 0) % d)) d
    let ok := fun plus => !(wayOf dims c k d b plus).any (fun x => dead.contains x)
    let word := fun (plus : Bool) => (2 * k + (if plus then 0 else 1)) * 2 ^ 13 + (if (plus && c.getD k 0 == d - 1) || (!plus && c.getD k 0 == 0) then 2 ^ 12 else 0)
    if ok near then word near else if ok (!near) then word (!near) else 7 * 2 ^ 13

/-- Write a table of a bank from its 64 entries and mask. -/
def State.putTable (s : State) (bank t : Nat) (es : List Nat) (mask : Nat) : State :=
  { s with pod := { s.pod with
    rt := (List.range 64).foldl (fun rt e => tset (fun _ => 0) rt ((bank * 5 + t) * 64 + e) (es.getD e 0)) s.pod.rt,
    rtMask := tset (fun _ => 0) s.pod.rtMask (bank * 5 + t) mask } }

/-- The entries of a table over some axes from a position. -/
def State.tableFor (s : State) (axes : List Nat) : List Nat :=
  (List.range 64).map (fun q => if q < s.podSize then routeWord s.dims s.pod.dead axes s.position q else 7 * 2 ^ 13)

/-- The links of some axes. -/
def State.axisMask (s : State) (axes : List Nat) : Nat :=
  let topo := s.fld R.LNK_POD_CFG F.LNK_POD_CFG_TOPO
  (List.range 48).foldl (fun m n => if axes.contains (linkGroup topo n / 2) then m + 2 ^ n else m) 0

/-- The default table in a bank (R362, R363). -/
def State.buildDefault (s : State) (bank : Nat) : State := s.putTable bank 4 (s.tableFor [0, 1, 2]) (s.axisMask [0, 1, 2])

/-- A direction whose every link is FAILED or MISWIRED, so that no table may use it (R358, R359). -/
def State.noLinks (s : State) (k : Nat) : Bool :=
  let topo := s.fld R.LNK_POD_CFG F.LNK_POD_CFG_TOPO
  (groupLinks topo k 0 ++ groupLinks topo k 1).all (fun n => s.linkState n == 6 || s.linkState n == 7)

/-- Some pair of live positions has no route, or this module none whose links are there (R359, R362). -/
def State.unroutable (s : State) : Bool :=
  let word := routeWord s.dims s.pod.dead [0, 1, 2]
  s.livePositions.any (fun p => s.livePositions.any (fun q => p != q && (word p q / 2 ^ 13 == 7 || (p == s.position && s.noLinks (word p q / 2 ^ 13)))))

end Sys2Proof.Machine
end

