-- ==== Sys2Proof/Machine/CanalRows.lean ====
section
/-!
DEFINITION. What canal packets do where they arrive (R243, R250, R264 to R270, R303, R307, R321, R332), multicasts (R334 to R337), the aqueduct (R339 to R341).
-/
namespace Sys2Proof.Machine

/-! Forwarding (R323, R325, R327). -/

/-- Where a packet that leaves an output is received: the next router and its port, else the router it leaves with the port it leaves by (R323). -/
def State.hopEnd (s : State) (site out : Nat) (p : CPkt) : Nat × Nat :=
  match s.hopOf site out p with
  | .router n q => (n, q)
  | _ => (site, out)

/-- An uncorrectable word of a flit (R295, R323, R550): counted, in the tower near the router (DESIGN CHOICE, notes/assumptions/122.md), recorded with site and port, and the warm reset follows; the word is not delivered. -/
def State.canalUe (s : State) (site port : Nat) : State :=
  (s.bump (R.TWR_UE_COUNT (4 * domeOf site + reachOf site / 2))).raise3 0x0503 5 (domeOf site) site port

/-- PACKET_FORWARD (R323, R325, R327): a router output sends one whole credited packet, chosen by deficit round robin; words corrected at the receiver are counted. -/
def execPacketForward (site out : Nat) (w : HopWords) (s : State) : Host.Outcome State Fault Refusal :=
  match serveOutput 9 site out s, w with
  | (t, some (i, p)), .clean => .next (t.afterSend site out i p)
  | (t, some (i, p)), .corrected n => .next ((t.afterSend site out i p).bump (R.CNL_CORR (domeOf (s.hopEnd site out p).1)) n)
  | (_, some (_, p)), .uncorrectable => .next (s.canalUe (s.hopEnd site out p).1 (s.hopEnd site out p).2)
  | (t, none), _ => .next t

/-! Reads (R250, R267, R303). -/

/-- An access met a retirement entry: counted; an agent other than the host's port writes a record, and the job fault follows (R303). -/
def State.retiredHit (s : State) (a kind : Nat) : State :=
  let s := s.bump R.TWR_RETIRED_HIT
  if kind = 0 then s else s.raise 0x0304 0 0 0 a kind

/-- A spire runs to the cycle in which port M serves something from outside, whose access then comes after a port-V write of the cycle (R207), and which may cost the mover a cycle (R242). -/
def State.reachSite (s : State) (site : Nat) : State := (s.runTo site (s.arriveAt site)).modSpire site Spire.takePort

/-- An access that comes over the canals to a local store finds the spire in the cycle in which it arrives, and takes its port M (R207, R242); any other address has no spire. -/
def State.reachAddr (s : State) (a : Nat) : State := match lsSite a with | some site => s.reachSite site | none => s

/-- A write of Lantern to device memory, barge by barge (R303): at a retired location it fails, is recorded, and the job fault follows; the window of a site
that is not up takes nothing (R243). -/
def State.lanternStore (s : State) (a : Nat) (bs : List Byte) : State :=
  ((List.range (bs.length / 512 + 2)).foldl (fun (r : Nat × List Byte × State) _ =>
    let (a, bs, s) := r
    let k := min bs.length (512 - a % 512)
    if k = 0 then r
    else (a + k, bs.drop k, if s.retired a then s.retiredHit a 1 else match lsSite a with
      | some site => if s.siteUp site then (s.reachSite site).store a (bs.take k) else s
      | none => s.store a (bs.take k))) (a, bs, s)).2.2

/-- The kind of a requester for R303: 0 for a task or the host's port, else its agent. -/
def CPkt.reqKind (p : CPkt) : Nat := if p.skind = 0 ∨ p.src = 2 then 0 else p.src + 1

/-- A slice whose channel is OFFLINE (R560): what needs the channel is held there. -/
def State.channelHeld (s : State) (p : CPkt) : Bool := match tfind s.towers (p.dest / 32) with | some w => w.down.contains (p.dest % 32) | none => false

/-- The expander of an offset among expanders concatenated from number `i` on, and the address there (R306). -/
def farConcat : Nat → List Nat → Nat → Nat × Nat
  | i, m :: m' :: r, f => if f < m * 1048576 then (i, f) else farConcat (i + 1) (m' :: r) (f - m * 1048576)
  | i, _, f => (i, f)

/-- The expander of a far address and the address there (R306). -/
def State.farPlace (s : State) (a : Nat) : Nat × Nat :=
  let f := a - 0x100000000000
  let n := s.far.sizes.length
  if farStriped s.far.sizes then (f / 4096 % n, f / 4096 / n * 4096 + f % 4096)
  else farConcat 0 s.far.sizes f

/-- A request at H1 (R303, R306, R307, R308): 384 are tracked, further ones wait; with H1 failed every request fails. -/
def State.farTake (s : State) (p : CPkt) : State :=
  let a := p.addr / 512 * 512
  let typ := if p.typ = 1 then 2 else 4
  let len := if p.typ = 1 then 8 else 0
  if s.far.failed then ((s.takeArrived p).bump R.TWR_FAR_FAIL).respond p typ len 3 []
  else if s.retired a then ((s.takeArrived p).retiredHit a p.reqKind).respond p typ len 2 []
  else if Nat.ble 384 s.far.reqs.length then s
  else let s := s.takeArrived p; { s with far := { s.far with reqs := s.far.reqs ++ [({ pkt := p, since := s.now, at_ := s.farPlace a } : FarReq)] } }

/-- A request is served in its turn: none of its flow is older, and none older waits as a held write (R243, R248, R250, R270). -/
def State.mayServe (s : State) (p : CPkt) : Bool := s.inTurn p && [0, 1].all (fun k => !(s.epoch k).waiting.any (fun w => w.pkt.sameFlow p))

/-- A write that a mirror close or a capture makes wait at its slice (R376, R535). -/
def State.writeHeld (s : State) (p : CPkt) : Bool := p.typ == 3 && p.spec == 0 && !s.retired (p.addr / 512 * 512) && (s.heldChunk (p.addr / 512 * 512) 512).isSome

/-- The request that a slice serves next: its requesters take turns, after the one it served last (R248; the order of turns DESIGN CHOICE, notes/assumptions/123.md; what waits before a channel, 131.md). -/
def State.slicePick (s : State) (slice : Nat) : Option CPkt :=
  let last := tget (fun _ => 0) s.canal.served slice
  let key := fun (p : CPkt) => if Nat.ble last p.srcKey then p.srcKey else p.srcKey + 2048
  (s.canal.arrived.filter (fun p => p.dkind == 1 && p.dest == slice && (p.typ == 1 || p.typ == 3) && s.mayServe p && !s.writeHeld p)).foldl
    (fun b p => match b with | none => some p | some x => if key p < key x then some p else b) none

/-- A slice serves a request: the turn passes to the next requester. -/
def State.sliceTakes (s : State) (p : CPkt) : State :=
  { s with canal := { s.canal with served := tset (fun _ => 0) s.canal.served p.dest (p.srcKey + 1) } }

/-- A site takes a packet: it is up, or the packet was in its queue as it was fenced (R332). -/
def State.takesIn (s : State) (site : Nat) (p : CPkt) : Bool := s.siteUp site || s.canal.before.contains p

/-- RD (R243, R250, R267, R321, R583): a slice reads a barge whole, overlaid by what the requester's epoch holds; a site reads its window; H1 tracks the request. -/
def execRd (p : CPkt) (s : State) : Host.Outcome State Fault Refusal :=
  if (s.mayServe p && p.typ == 1) = false then .next s else
  let a := p.addr / 512 * 512
  .next (match p.dkind with
    | 0 => if s.quiescent then s else if s.takesIn p.dest p then (let s := s.reachSite p.dest; (s.takeArrived p).respond p 2 8 0 (s.load a 512)) else (s.takeArrived p).respond p 2 8 1 []
    | 1 => if s.channelHeld p ∨ s.slicePick p.dest ≠ some p then s else let s := s.sliceTakes p; if s.retired a then ((s.takeArrived p).retiredHit a p.reqKind).respond p 2 8 2 [] else (s.takeArrived p).respond p 2 8 0 (s.readBarge p.spec a)
    | _ => if p.dkind = 3 ∧ p.dest = 3 then s.farTake p else s)

/-- RD_DATA (R247, R321). -/
def execRdData (p : CPkt) (s : State) : Host.Outcome State Fault Refusal :=
  if s.canal.arrived.contains p && p.typ == 2 then .next (if p.dkind = 0 then (s.takeArrived p).readData p else s.takeArrived p) else .next s

/-! Writes (R250, R266 to R270, R376, R535). -/

/-- A speculative write at its slice (R268 to R271): held where there is room, else it waits and its epoch is STALLED; of a discarded epoch it is dropped, with its acknowledgement. -/
def State.specWrite (s : State) (p : CPkt) : State :=
  let k := p.spec - 1
  let a := p.addr / 512 * 512
  if s.epState k = 1 ∨ s.epState k = 2 then
    match s.heldRoom k a with
    | some sp => ((s.takeArrived p).holdWrite k a sp (s.wrQuarters p p.spec)).ackWrite p 0
    | none =>
      let s := (s.takeArrived p).countStall
      let e := s.epoch k
      (s.setEpoch k { e with since := s.now, waiting := e.waiting ++ [{ pkt := p, since := s.now, reported := false }] }).setEpState k 2
  else (s.takeArrived p).ackWrite p 0

/-- WR (R243, R250, R266, R303, R321): applied whole at its home slice or site and acknowledged; a write to a chunk that a mirror close or a capture has yet to read waits for it. -/
def execWr (p : CPkt) (s : State) : Host.Outcome State Fault Refusal :=
  if (s.mayServe p && p.typ == 3) = false then .next s else
  let a := p.addr / 512 * 512
  .next (match p.dkind with
    | 0 => if s.quiescent then s else if s.takesIn p.dest p then (let s := s.reachSite p.dest; ((s.takeArrived p).commitQuarters (s.wrQuarters p 0)).ackWrite p 0) else (s.takeArrived p).ackWrite p 1
    | 1 =>
      if s.channelHeld p then s
      else if s.writeHeld p then (match s.heldChunk a 512 with | some c => s.noteHeld c | none => s)
      else if s.slicePick p.dest ≠ some p then s
      else
        let s := s.sliceTakes p
        if s.retired a then ((s.takeArrived p).retiredHit a p.reqKind).ackWrite p 2
        else if p.spec ≠ 0 then s.specWrite p
        else ((s.takeArrived p).commitQuarters (s.wrQuarters p 0)).ackWrite p 0
    | _ => if p.dkind = 3 ∧ p.dest = 3 then s.farTake p else s)

/-- WR_ACK (R222, R247, R321). -/
def execWrAck (p : CPkt) (s : State) : Host.Outcome State Fault Refusal :=
  if s.canal.arrived.contains p && p.typ == 4 then .next (if p.dkind = 0 then (s.takeArrived p).writeAck p else s.takeArrived p) else .next s

/-! Signals and Lantern's accesses (R226, R230, R321, R332). -/

/-- CANAL_SIG (R226, R230): a signal, arrival or release reaches its site, and its delivery is acknowledged. -/
def execCanalSig (p : CPkt) (s : State) : Host.Outcome State Fault Refusal :=
  if s.inTurn p && p.typ == 5 && p.dkind == 0 then .next (((s.takeArrived p).signalNow p.dest p.sig (s.canal.before.contains p)).2.respond p 6 0 0 []) else .next s

/-- A site's engine learns that a signal is delivered (condition S of R222). -/
def State.sigAcked (s : State) (site tag : Nat) : State :=
  let s := s.sigDone site tag
  s.wake site (max (s.spire site).cycle (s.cycleAt site s.now))

/-- CANAL_SIG_ACK (R222). -/
def execCanalSigAck (p : CPkt) (s : State) : Host.Outcome State Fault Refusal :=
  if s.canal.arrived.contains p && p.typ == 6 then .next (if p.dkind = 0 then (s.takeArrived p).sigAcked p.dest p.tag else s.takeArrived p) else .next s

/-- CFG (R321, R332): an access of Lantern to a site is answered, with STATUS 1 where the site is disabled or FENCED. The manual gives the packet no register field, and BAR0 accesses act at once. -/
def execCfg (p : CPkt) (s : State) : Host.Outcome State Fault Refusal :=
  if s.canal.arrived.contains p && p.typ == 9 && p.dkind == 0 then
    .next ((s.takeArrived p).respond p 10 (if p.len = 0 then 1 else 0) (if s.takesIn p.dest p then 0 else 1) [])
  else .next s

/-- CFG_RSP (R321). -/
def execCfgRsp (p : CPkt) (s : State) : Host.Outcome State Fault Refusal :=
  if s.canal.arrived.contains p && p.typ == 10 then .next (s.takeArrived p) else .next s

/-! Multicast (R334 to R337). -/

def State.forksAt (s : State) (site : Nat) : List Fork := (tfind s.canal.forks site).getD []

def State.setForks (s : State) (site : Nat) (fs : List Fork) : State :=
  { s with canal := { s.canal with forks := if fs = [] then terase s.canal.forks site else tinsert s.canal.forks site fs } }

/-- Where the acknowledgement of a router's fork goes: the router it came from with the branch there, through the port it arrived on, or over the aqueduct to the other root (R336). -/
def State.upstream (s : State) (site : Nat) (f : Fork) : Option (Nat × Nat) :=
  match f.inPort with
  | 5 => (tfind s.groups f.pkt.dest).bind (fun g => (g.root (1 - domeOf site)).map (fun r => (r, 6)))
  | 0 => none
  | p => (neighbour site p).map (fun n => (n, oppositePort p))

/-- A branch of a fork is acknowledged (R336): with the last one the fork's entry is free, and one MC_ACK goes up, or from the first root to the source. -/
def State.branchAcked (s : State) (site port src tag : Nat) : State :=
  let fs := s.forksAt site
  match fs.find? (fun f => f.pkt.srcKey == src && f.pkt.tag == tag && f.toAck.contains port) with
  | none => s
  | some f =>
    let f' := { f with toAck := f.toAck.erase port }
    if f'.toAck ≠ [] ∨ f'.toSend ≠ [] then s.setForks site (fs.map (fun x => if x = f then f' else x))
    else
      let s := s.setForks site (fs.filter (fun x => x != f))
      if f.first then s.injectAt site 0 { f.pkt with tc := 1, typ := 8, dkind := if f.pkt.skind = 0 then 0 else 3, dest := f.pkt.src, skind := 0, src := site, len := 0, data := [], tree := false }
      else match s.upstream site f with
        | some (n, p) => { s with canal := { s.canal with acks := s.canal.acks ++ [(n, p, src, tag)] } }
        | none => s

/-- A copy is delivered to a site (R332, R335): a signal is applied, bulk data lands in the local store; a FENCED site drops it; acknowledged either way. -/
def State.deliverCopy (s : State) (site : Nat) (p : CPkt) : State :=
  let old := s.canal.before.contains p
  let s := s.takeArrived p
  let s := if p.tc = 0 then (s.signalNow site p.sig old).2 else if s.siteUp site || old then (s.reachSite site).store (lsBase site + (Config.mcOffset p.tag).toNat % lsSize) p.data else s
  s.branchAcked site 0 p.srcKey p.tag

/-- A packet at a tree router takes a fork-state entry of the 32; while none is free it waits and the cycle counts (R335). -/
def State.forkHead (s : State) (site port tc : Nat) : State :=
  match s.inq site port tc with
  | [] => s
  | p :: _ =>
    let fs := s.forksAt site
    let here := p.dkind == 2 && (p.tree || (s.target (domeOf site) p).1 == site)
    if here = false || fs.any (fun f => f.inPort == port && f.pkt.tc == tc && f.toSend != []) then s
    else if Nat.ble 32 fs.length then s.bump (R.CNL_FORK_WAIT (domeOf site))
    else match tfind s.groups p.dest with
      | none => s
      | some g =>
        let ports := s.forkPorts g site (p.tree && port == 5)
        if ports = [] then s else
        let s := if g.root (domeOf site) = some site then s.bump (R.CNL_MC_SENT (domeOf site)) else s
        s.setForks site (fs ++ [({ pkt := p, inPort := port, toSend := ports, toAck := ports, since := s.now, reported := [], first := !p.tree } : Fork)])

/-- MC (R334, R335): a multicast packet at a tree router forks, or a copy reaches its site. -/
def execMc (site : Nat) (w : McAt) (s : State) : Host.Outcome State Fault Refusal :=
  .next (match w with
    | .input port tc => s.forkHead site port tc
    | .deliver => match s.canal.arrived.find? (fun p => p.typ == 7 && p.dkind == 0 && p.dest == site) with
      | some p => s.deliverCopy site p
      | none => s)

/-- A multicast is complete for its source: an engine's condition S (R222), or the signal of another module that the engine's agent multicast here (R225). -/
def State.mcDone (s : State) (p : CPkt) : State :=
  let s := s.takeArrived p
  if p.dkind = 0 then s.sigAcked p.dest p.tag
  else match tfind s.pod.mcIn p.tag with
    | some (pos, id) => ({ s with pod := { s.pod with mcIn := terase s.pod.mcIn p.tag } }).sendL (s.lpkt 0 pos id (.sigAck 0))
    | none => s

/-- MC_ACK (R336). -/
def execMcAck (w : McAckAt) (s : State) : Host.Outcome State Fault Refusal :=
  .next (match w with
    | .router site port src tag =>
      if s.canal.acks.contains (site, port, src, tag) then ({ s with canal := { s.canal with acks := s.canal.acks.erase (site, port, src, tag) } }).branchAcked site port src tag else s
    | .source p => if s.canal.arrived.contains p && p.typ == 8 then s.mcDone p else s)

/-- MC_BRANCH_TIMEOUT (R337): a branch has waited TIMEOUT ns for credit: REASON 1; one that crosses an aqueduct direction lost for good, or whose next hop reads 0xF, is undeliverable: REASON 2 and the job fault. -/
def execMcBranchTimeout (site port : Nat) (s : State) : Host.Outcome State Fault Refusal :=
  let d := domeOf site
  let fs := s.forksAt site
  match fs.find? (fun f => f.toSend.contains port && !f.reported.contains port) with
  | none => .next s
  | some f =>
    let lim := s.fld (R.CNL_MC_CTL d) F.CNL_MC_CTL_TIMEOUT
    let dead := (port == 6 && s.aq.lost.contains d) || port == 0xF
    if lim = 0 ∧ dead = false then .next s
    else
      let s : State := if dead then s else { s with now := max s.now (f.since + lim) }
      let s := s.setForks site (fs.map (fun x => if x = f then { x with reported := x.reported ++ [port] } else x))
      let reason := if dead then 2 else 1
      let s := s.record (R.CNL_MC_STUCK d) F.CNL_MC_STUCK_VALID F.CNL_MC_STUCK_MORE
        [(F.CNL_MC_STUCK_REASON, reason), (F.CNL_MC_STUCK_CLASS, f.pkt.tc), (F.CNL_MC_STUCK_GROUP, f.pkt.dest), (F.CNL_MC_STUCK_PORT, port), (F.CNL_MC_STUCK_SITE, site), (F.CNL_MC_STUCK_TIME, s.stamp)]
      let s := if dead then s else s.bump (R.CNL_MC_STUCKCNT d)
      let w := (s.reg (R.CNL_MC_STUCK d)).toNat
      if dead then .next (s.raise 0x0502 5 d 0 w 0)
      else .next ((s.note 0x0501 0 5 d w 0).event .mcStuck 5 d [f.pkt.dest, site, 1])

/-! The aqueduct (R339 to R341). -/

def aqStateFld (dir : Nat) : Fld := if dir = 0 then F.CNL_AQ_STATUS_STATE_WE else F.CNL_AQ_STATUS_STATE_EW
def State.aqState (s : State) (dir : Nat) : Nat := s.fld R.CNL_AQ_STATUS (aqStateFld dir)
def State.setAqState (s : State) (dir v : Nat) : State := s.setFld R.CNL_AQ_STATUS (aqStateFld dir) v

/-- A counter pair of the aqueduct, WE then EW. -/
def aqCtr (we dir : Nat) : Nat := we + 8 * dir

/-- CNL_AQ_ERR: 1 retry limit, 2 retraining failed (R346). -/
def State.aqErr (s : State) (dir ch reason : Nat) : State :=
  s.record R.CNL_AQ_ERR F.CNL_AQ_ERR_VALID F.CNL_AQ_ERR_MORE [(F.CNL_AQ_ERR_DIR, dir), (F.CNL_AQ_ERR_CHANNEL, ch), (F.CNL_AQ_ERR_REASON, reason), (F.CNL_AQ_ERR_TIME, s.stamp)]

/-- A replay (R341): counted in the 1 ms window of its channel; at the limit the direction fails, and Lantern retrains it (DESIGN CHOICE, notes/assumptions/134.md: FAILED until that ends). -/
def State.aqReplay (s : State) (dir ch : Nat) : State :=
  let k := dir * 64 + ch
  let w := s.now / 1000000
  let n := if tget (fun _ => 0) s.aq.winStart k = w then tget (fun _ => 0) s.aq.winCount k + 1 else 1
  let s : State := { s with aq := { s.aq with winStart := tset (fun _ => 0) s.aq.winStart k w, winCount := tset (fun _ => 0) s.aq.winCount k n } }
  let s := s.bump (aqCtr R.CNL_AQ_RETRY_WE dir)
  let lim := s.fld R.CNL_AQ_CTL F.CNL_AQ_CTL_RETRY_LIM
  if lim ≠ 0 ∧ lim ≤ n then ((s.aqErr dir ch 1).setAqState dir 3).pushReinit 5 dir none else s

/-- A packet of a channel arrives, its sequence numbers with it, and leaves the far crossbar once it has credit (R341). -/
def State.aqArrive (s : State) (dir ch : Nat) (p : CPkt) : State :=
  let k := dir * 64 + ch
  let s : State := { s with aq := { s.aq with txSeq := tset (fun _ => 0) s.aq.txSeq k ((tget (fun _ => 0) s.aq.txSeq k + p.flits) % 128),
                                              rxSeq := tset (fun _ => 0) s.aq.rxSeq k ((tget (fun _ => 0) s.aq.rxSeq k + p.flits) % 128) } }
  let s := s.bump (aqCtr R.CNL_AQ_FLITS_WE dir) p.flits
  (s.setRecv k (s.recv k ++ [p])).drainChannel k

/-- The packet a channel sends next: of the oldest of each class at the sending crossbar, the oldest that the receiver has room for (R324, R326; DESIGN CHOICE, notes/assumptions/134.md). -/
def State.aqNext (s : State) (dir ch : Nat) : Option (Nat × CPkt) :=
  let q := s.aq.held.filter (fun x => domeOf x.1 == dir && s.aqChannel (1 - dir) x.2 == ch)
  q.find? (fun x => q.find? (fun y => y.2.tc == x.2.tc) == some x && s.recvRoom (dir * 64 + ch) x.2)

/-- Something waits to cross a channel. -/
def State.aqWaits (s : State) (dir ch : Nat) : Bool := s.aq.held.any (fun x => domeOf x.1 == dir && s.aqChannel (1 - dir) x.2 == ch)

/-- AQUEDUCT_FLIT_RECEIVE (R326, R339 to R341): the next packet of a channel, first one that is to be replayed, crosses with its correctable words corrected, or stays in the replay buffer for another try;
`dir` 0 is WE. Nothing crosses while the direction is not UP; without credit of the receiver the channel waits. -/
def execAqueductFlitReceive (dir ch : Nat) (r : AqFlit) (s : State) : Host.Outcome State Fault Refusal :=
  if s.aqState dir ≠ 2 ∨ 1 < dir then .next s else
  let k := dir * 64 + ch
  let s' := match r with | .corrected w => s.bump (aqCtr R.CNL_AQ_CORR_WE dir) w | _ => s
  match s.aqReplays k, s.aqNext dir ch with
  | p :: rest, _ => .next (if r = .bad then s.aqReplay dir ch else (s'.setReplays k rest).aqArrive dir ch p)
  | [], some (n, p) =>
    let gone := fun (s : State) => ({ s with aq := { s.aq with held := s.aq.held.erase (n, p) } } : State).freeFlits n 6 p.tc p.flits
    .next (if r = .bad then ((gone s).setReplays k [p]).aqReplay dir ch else (gone s').aqArrive dir ch p)
  | [], none => .next (if s.aqWaits dir ch then s.bump (aqCtr R.CNL_AQ_CREDIT_WAIT_WE dir) else s)

end Sys2Proof.Machine
end

