-- ==== Sys2Proof/Machine/Go.lean ====
section
/-!
DEFINITION. How an admitted command is started: what its start answers, and the entries that follow (R474, R479, R480).
-/
namespace Sys2Proof.Machine

/-- What the start of a command answers: finished at once, work remains, cannot start yet, or turned away. -/
inductive Go where
  | done (st : Status) (r : List Nat)
  | run (r0 : Nat)
  | wait (why : Status) (est : Nat)
  | refuse (st : Status) (r0 : Nat)
  deriving DecidableEq, Repr

/-- An unknown wait (R480). -/
def unknown : Nat := 0xFFFFFFFF

/-- A command that was admitted and is turned away at its start: final REFUSED (R534 names two such ends). -/
def State.refuseCmd (s : State) (id : Nat) (st : Status) (r0 : Nat) : State :=
  match s.cmd? id with
  | none => s
  | some c =>
    let s := s.jUpdate id (fun e => { e with state := 4, status := statusCode st, r0 := r0, tDone := s.now })
    let s := s.postCmd c (s.cmdEntry c st .refused true [r0, s.position])
    ({ s with hcp := { s.hcp with cmds := s.hcp.cmds.filter (fun x => x.dseq ≠ id) } }).regrant

/-- What a start answered becomes entries. -/
def State.answer (s : State) (c : Cmd) : Go → State
  | .done st r => s.finishCmd c.dseq st r
  | .run r0 => s.startCmd c r0
  | .wait w e => s.delayCmd c w e
  | .refuse st r0 => s.refuseCmd c.dseq st r0

/-- An earlier command of the same queue to this module has not posted its final entry (R470, ORDERED). -/
def State.behind (s : State) (c : Cmd) : Bool := s.hcp.cmds.any (fun x => x.queue == c.queue && x.pos == c.pos && Nat.blt x.dseq c.dseq)

/-- An earlier command of the same queue to this module has not had its first entry: they come in queue order (R368, R479). -/
def State.notYet (s : State) (c : Cmd) : Bool := s.hcp.cmds.any (fun x => x.queue == c.queue && x.pos == c.pos && Nat.blt x.dseq c.dseq && !x.attempted && !x.started)

/-- A command that has had no entry yet and could have one now: it holds a slot, and its queue's earlier ones have had theirs. -/
def State.isNew (s : State) (c : Cmd) : Bool := !c.attempted && !c.started && c.slot != 0 && !s.notYet c

/-- Another new command comes before `c`: one of a lower class number, or an earlier one of its class (R479). One that found it could not start is DELAYED and holds no other up. -/
def State.outranked (s : State) (c : Cmd) : Bool :=
  s.hcp.cmds.any (fun x => x.dseq != c.dseq && s.isNew x && (Nat.blt x.cls c.cls || (x.cls == c.cls && Nat.blt x.dseq c.dseq)))

/-- Lantern tries to start an admitted command of an opcode: not while it waits for a slot, nor before one that is first in class order, nor before an earlier one it is ORDERED after. -/
def State.attempt (s : State) (op id : Nat) (f : Cmd → State → Go × State) : State :=
  match s.cmd? id with
  | none => s
  | some c =>
    if c.opcode ≠ op || c.started || c.slot == 0 || s.notYet c || s.outranked c then s
    else if c.ordered && s.behind c then s.delayCmd c .waitOrdered unknown
    else (let (g, s) := f c s; s.answer c g)

/-- Parameters as one number, and a field of them. -/
def Cmd.par (c : Cmd) (o n : Nat) : Nat := parAt c.pkt o n

end Sys2Proof.Machine
end

