-- ==== Sys2Proof/Machine/Tasks.lean ====
section
/-!
DEFINITION. Tasks: launch, start, finish and completion (R94 to R98), pause, resume and abort (R102), update requests (R434), the task group of R485 to R487.
-/
namespace Sys2Proof.Machine

/-! The LAUNCH parameter block (R486). -/

/-- A LAUNCH parameter block: 448 bytes. -/
abbrev LaunchBlk := BitVec 3584

def blkAt (b : LaunchBlk) (o n : Nat) : Nat := b.toNat / 2 ^ (8 * o) % 2 ^ (8 * n)

/-- The block of a LAUNCH packet. -/
def launchBlk (p : Packet) : LaunchBlk := BitVec.ofNat 3584 (p.toNat / 2 ^ 512)

/-- Logical spires of a bitmap of 120 bytes at an offset. -/
def blkSet (b : LaunchBlk) (o : Nat) : List Nat := (List.range 960).filter (fun l => b.toNat.testBit (8 * o + l))

def gangOf (b : LaunchBlk) : List Nat := blkSet b 16

/-- The 16-byte cell entries at CELLS, as (cell, word); none where one is malformed (R486). -/
def State.cellEntries (s : State) (a n : Nat) : Option (List (Nat × Nat)) :=
  let es := (List.range n).map (fun i => (s.loadLE (a + 16 * i) 8, s.loadLE (a + 16 * i + 8) 8))
  if es.all (fun e => Nat.blt e.1 48) then some es else none

/-! Update requests (R431 to R434). -/

/-- Entry g of the group table (R431). -/
def State.groupAt (s : State) (g : Nat) : Nat := s.fld R.GLB_PGT_BASE F.GLB_PGT_BASE_BASE + 128 * g

/-- A parameter group that an update may name (R431): reserved fields zero, KIND, NARROW and PBLOCK in range. -/
def State.groupOk (s : State) (g : Nat) : Bool :=
  let a := s.groupAt g
  let fl := s.loadLE a 4
  let kind := fl / 2 ^ 28 % 4
  let nar := fl / 2 ^ 24 % 16
  let pb := s.loadLE (a + 40) 2
  Nat.blt g (s.fld R.GLB_PGT_BASE F.GLB_PGT_BASE_NGROUPS) && fl % 2 ^ 23 == 0 && kind != 3 && Nat.ble nar 4 && s.loadLE (a + 28) 4 == 0 && s.loadLE (a + 47) 1 == 0
    && (s.load (a + 96) 32).all (fun b => b == 0) && (pb == 0 || (kind == 2 && Nat.ble 32 pb && Nat.ble pb 4096 && pb % 32 == 0))

/-- The first request of an update list that names a bad group. -/
def State.badRequest (s : State) (a n : Nat) : Option Nat := (List.range n).find? (fun i => !s.groupOk (s.loadLE (a + 64 * i) 2))

/-- At an update launch each request of a frozen group is marked, and counted in its group and on the module (R434); how many. -/
def State.freezeRequests (s : State) (a n : Nat) : Nat × State :=
  let fz := (List.range n).filter (fun i => (s.loadLE (s.groupAt (s.loadLE (a + 64 * i) 2)) 4).testBit 31)
  (fz.length, fz.foldl (fun s i =>
    let g := s.groupAt (s.loadLE (a + 64 * i) 2)
    ((s.storeLE (a + 64 * i + 56) 4 2).storeLE (g + 64) 8 (s.loadLE (g + 64) 8 + 1)).bump R.GLB_UPD_FROZEN) s)

/-! Launch (R95). -/

/-- Refusals of a launch at its start: a fenced or absent spire, a latency mismatch, an epoch that takes no task, a bad update group (R89, R95, R265, R431). -/
def State.launchRefused (s : State) (b : LaunchBlk) : Option (Status × Nat) :=
  let gang := gangOf b
  let adj := blkSet b 136
  let fenced := gang.find? (fun l => match s.siteOf l with | some i => s.spState i == 6 | none => true)
  let mis := gang.find? (fun l => match s.siteOf l with | some i => s.fld (R.SPR_CAP i) F.SPR_CAP_ARRAY_ADJ != (if adj.contains l then 1 else 0) | none => false)
  let ep := blkAt b 256 8
  if fenced.isSome then some (.gangFenced, fenced.getD 0)
  else if (blkAt b 268 1).testBit 0 && mis.isSome then some (.latencyMismatch, mis.getD 0)
  else if ep != 0 && (match s.epSlot ep with | some k => s.epState k != 1 && s.epState k != 2 | none => true) then some (.epochUnknown, 0)
  else if blkAt b 320 8 != 0 then (match s.badRequest (blkAt b 320 8) (blkAt b 328 4) with | some i => some (.badParam, i) | none => none)
  else none

/-- The rest of a running task's watchdog in µs, or unknown. -/
def State.taskRest (s : State) (t : Task) : Nat := if t.limit = 0 then unknown else t.limit - (s.now - t.start) / 1000

/-- A spire takes its task (R95 steps 2 and 3): control, seed, flags, cells, translation root, entry points, RUN. What reached a cell before is applied first, so that a kept cell keeps it, with the hold of a
home that runs there (R220, R234). L1 holds nothing at the start (R241). -/
def State.prepareSpire (s : State) (site : Nat) (b : LaunchBlk) (handle : Nat) (cells : List (Nat × Nat)) : State :=
  let s := s.settleCells site
  let m := blkAt b 268 1
  let s := s.setFlds (R.SPR_CTL site) [(F.SPR_CTL_LAT_NATIVE, m % 2), (F.SPR_CTL_HAZ_EN, m / 2), (F.SPR_CTL_HAZ_TRAP, m / 4)]
  let s := (s.setReg (R.SPR_NUMCTL site) (BitVec.ofNat 64 (blkAt b 272 4) &&& 0x7F0031#64)).setReg (R.SPR_NUMSTAT site) 0
  let s := s.writeSeed site (BitVec.ofNat 64 (blkAt b 280 8))
  let s := ((s.setReg (R.SPR_SYNC_SATHI site) 0).setReg (R.SPR_SYNC_SATLO site) 0).setReg (R.SPR_SYNC_HOLDFLG site) 0
  let keep := blkAt b 288 6
  let kept := fun (c : Nat) => keep.testBit c && !cells.any (fun e => e.1 == c)
  let s := (List.range 48).foldl (fun s c =>
    match cells.reverse.find? (fun e => e.1 == c) with
    | some e => s.setCell site c (BitVec.ofNat 64 e.2)
    | none => if keep.testBit c then s else s.setReg (R.SPR_SYNC_CELL site c) 0) s
  let root := if blkAt b 304 8 = 0 then s.job.root else blkAt b 304 8
  let s := (s.setReg (R.SPR_XLT_ROOT site) 0).setFld (R.SPR_XLT_ROOT site) F.SPR_XLT_ROOT_ROOT (root / 4096)
  let s := (s.setReg (R.SPR_STATUS site) 0).setFlds (R.SPR_STATUS site) [(F.SPR_STATUS_STATE, 1), (F.SPR_STATUS_TASK, handle)]
  let e := fun (k : Nat) => { emptyEng with pc := blkAt b (8 + 2 * k) 2 }
  s.modSpire site (fun p => { p with
    mat := e 0, vec := e 1, mov := e 2, sqr := e 3, landings := [], reads := [], upds := [], holds := p.holds.filter (fun h => h.eng == 5 && kept h.cell), stopAt := none, recAt := none,
    mover := { p.mover with ops := [], abandoned := [], redo := [], l1 := [], gen := p.mover.gen + 1, streams := [], xlt := [], faultAt := none, migr := false, hints := [] } })

/-- Start a task on its gang, or say why not (R95). `cells` were read at admission. The answer of a started task is `run` with its handle. -/
def State.launch (s : State) (b : LaunchBlk) (handle : Nat) (cmd : Option Nat) (node : Option (Nat × Nat)) (cells : List (Nat × Nat)) : Go × State :=
  match s.launchRefused b with
  | some (st, r0) => (.refuse st r0, s)
  | none =>
    let sites := (gangOf b).filterMap s.siteOf
    if s.quiescent then (.wait .waitIdle unknown, s) else
    match s.tasks.find? (fun (p : Nat × Task) => p.2.gang.any sites.contains) with
    | some (_, t) => (.wait .waitSpires (s.taskRest t), s)
    | none =>
      if Nat.ble 32 s.tasks.length then (.wait .waitGangSlot (s.tasks.foldl (fun m (p : Nat × Task) => min m (s.taskRest p.2)) unknown), s)
      else
        let n := if blkAt b 320 8 = 0 then 0 else blkAt b 328 4
        let (fz, s) := s.freezeRequests (blkAt b 320 8) n
        if n ≠ 0 ∧ fz = n then (.done .skippedFrozen [0, 0, 0, fz], s)
        else
          let ep := if blkAt b 256 8 = 0 then 0 else match s.epSlot (blkAt b 256 8) with | some k => k + 1 | none => 0
          let t : Task := { handle := handle, gang := sites, cmd := cmd, node := node, start := s.now, limit := blkAt b 264 4, program := blkAt b 0 8, epoch := ep, fault := none, finished := [],
                            update := blkAt b 320 8, nreq := n, frozen := fz, started := true, abortCmds := [], pauseCmds := [] }
          let s := sites.foldl (fun s i => s.prepareSpire i b handle cells) (s.setTask t)
          (.run handle, s.showEpochTasks)

/-- LAUNCH (R95, R485 to R487). -/
def cmdLaunch (c : Cmd) (s : State) : Go × State := s.launch (launchBlk c.pkt) (handleOf c.queue c.seq none) (some c.dseq) none c.data

def execLaunch (id : Nat) (s : State) : Host.Outcome State Fault Refusal := .next (s.attempt 0x0303 id cmdLaunch)

/-- The vector hold stands on every spire of the gang of a site's task (R585). -/
def State.gangHeld (s : State) (site : Nat) : Bool :=
  match s.tasks.find? (fun (p : Nat × Task) => p.2.gang.contains site) with
  | some (_, t) => t.gang.all s.pwr.hold.contains
  | none => true

/-- SPIRE_START (R95 step 4, R96, R585): the start multicast reaches a spire once the vector hold of its gang stands, and its four engines start in the same cycle. -/
def execSpireStart (site : Nat) (s : State) : Host.Outcome State Fault Refusal :=
  let p := s.spire site
  if s.spState site = 1 ∧ s.gangHeld site ∧ allEngines.all (fun e => (p.eng e).st == .idle) then
    let t := max p.cycle (s.cycleAt site s.now)
    .next (s.setSpire site (allEngines.foldl (fun p e => p.setEng e { p.eng e with st := .run, free := t }) (p.stand t)))
  else .next s

/-- A spire has finished (R97). -/
def State.spireDone (s : State) (site : Nat) : Bool :=
  let p := s.spire site
  allEngines.all (fun e => (p.eng e).st == .ended && (p.eng e).out == 0) && p.landings.isEmpty && p.mover.ops.isEmpty && p.mover.abandoned.isEmpty && p.mover.redo.isEmpty && p.reads.isEmpty

/-- SPIRE_FINISHED (R97): the spire waits as ENDING for the rest of its gang. A pause does not keep a spire from having finished. -/
def execSpireFinished (site : Nat) (s : State) : Host.Outcome State Fault Refusal :=
  match s.taskAt site with
  | some t =>
    if s.spState site ∈ [1, 2, 3] ∧ s.spireDone site ∧ t.finished.contains site = false then
      let s := s.settleCells site
      let s := { s with now := s.spireNs site }
      .next ((s.setSpState site 5).setTask { t with finished := t.finished ++ [site] })
    else .next s
  | none => .next s

/-! Completion (R97, R487). -/

/-- The overflow indicator of a gang (R62). -/
def State.ovfOf (s : State) (gang : List Nat) : Bool :=
  gang.any (fun i => (s.reg (R.SPR_NUMSTAT i)).toNat &&& s.fld (R.SPR_NUMCTL i) F.SPR_NUMCTL_OVF_MASK != 0)

/-- The SYNC_SAT indicator of a gang (R218). -/
def State.satOf (s : State) (gang : List Nat) : Bool := gang.any (fun i => s.reg (R.SPR_SYNC_SATHI i) != 0 || s.reg (R.SPR_SYNC_SATLO i) != 0)

/-- Everything a faulted task's spires had issued has landed (R100, R102). -/
def State.quiesced (s : State) (t : Task) : Bool :=
  t.gang.all (fun i => let p := s.spire i; p.landings.isEmpty && p.mover.ops.isEmpty)

/-- The task ends: its gang is released, its indicators collected, and its command or node answered (R97, R421, R487). -/
def State.endTask (s : State) (t : Task) : State :=
  let s := t.gang.foldl (fun s i => s.settleCells i) s
  let ovf := s.ovfOf t.gang
  let dead := t.epoch != 0 && s.epState (t.epoch - 1) == 3
  let st : Status := match t.fault with
    | some (8, _, _) => .taskTimeout
    | some (9, _, _) => .taskAborted
    | some _ => .taskFault
    | none => if dead then .epochDiscarded else .ok
  let r0 := match t.fault with | some (c, e, l) => c % 16 * 2 ^ 28 + e % 16 * 2 ^ 24 + l % 1024 * 2 ^ 14 | none => 0
  let r := [r0, (if ovf then 1 else 0) + (if s.satOf t.gang then 2 else 0), (s.now - t.start) / 1000, t.frozen]
  let s := if ovf = false then s
    else if t.epoch = 0 then s.setFld R.GLB_STEP_LATCH F.GLB_STEP_LATCH_OVF 1
    else if dead then s else s.setEpoch (t.epoch - 1) { s.epoch (t.epoch - 1) with ovf := true }
  let s := t.gang.foldl (fun s i =>
    let s := s.stopEngines i
    let s := if s.spState i = 4 ∨ s.spState i = 6 then s else s.setSpState i 0
    (s.setFld (R.SPR_STATUS i) F.SPR_STATUS_TASK 0).setReg (R.SPR_XLT_ROOT i) 0) s
  let s : State := { s with pwr := { s.pwr with holdEnd := t.gang.foldl (fun h i => tinsert h i s.now) s.pwr.holdEnd } }
  let s := { s with tasks := terase s.tasks t.handle }.settleDoomed
  let s := s.ended t.cmd t.node st r
  let s := t.abortCmds.foldl (fun s c => s.finishCmd c .ok []) s
  (t.pauseCmds.foldl (fun s c => s.finishCmd c .badState []) s).settleStop

/-- TASK_COMPLETION (R97, R100): every spire of the gang has finished, or a fault has ended the task and what was issued has landed. -/
def execTaskCompletion (handle : Nat) (s : State) : Host.Outcome State Fault Refusal :=
  match tfind s.tasks handle with
  | some t => .next (if t.gang.all t.finished.contains || (t.fault != none && s.quiesced t) then s.endTask t else s)
  | none => .next s

/-- TASK_WATCHDOG_EXPIRY (R98): every spire that has not finished records a timeout, and the job fault follows. -/
def execTaskWatchdogExpiry (handle : Nat) (s : State) : Host.Outcome State Fault Refusal :=
  match tfind s.tasks handle with
  | some t =>
    if t.limit = 0 then .next s
    else
      let s := { s with now := max s.now (t.start + 1000 * t.limit) }
      let late := t.gang.filter (fun i => !t.finished.contains i)
      let s := late.foldl (fun s i => s.abortSpire i 8) s
      let i := late.headD 0
      .next (if late = [] then s else s.raise 0x0201 2 i 0 (s.reg (R.SPR_FAULT i)).toNat (s.reg (R.SPR_FAULT_ADDR i)).toNat)
  | none => .next s

/-! Pause, resume, abort, query (R102, R485). -/

/-- The spires of a running gang stop issuing; mover operations not landed are abandoned (R102, R103). -/
def State.pauseSpire (s : State) (site : Nat) : State :=
  if s.spState site ≠ 1 then s else
  let (n, s) := s.abandonMover site 0
  let s := s.bump (R.SPR_RESTART_COUNT site) n
  let s := allEngines.foldl (fun s e =>
    let x := (s.spire site).eng e
    match x.st, x.wait with
    | .wait, some w => (s.countHeld site w ((s.spire site).cycle - x.since)).modSpire site (fun p => p.setEng e { x with st := .stop, resume := none })
    | .run, _ => s.modSpire site (fun p => p.setEng e { x with st := .stop })
    | _, _ => s) s
  (s.setSpState site 2).settlePause site

/-- PAUSE (R102): the final entry is posted once STATE is PAUSED; landings bring it there. -/
def cmdPause (c : Cmd) (s : State) : Go × State :=
  match tfind s.tasks (c.par 0 4) with
  | none => (.done .badState [], s)
  | some t =>
    if t.gang.any (fun i => s.spState i == 1) = false then (.done (if s.isPaused t then .ok else .badState) [], s)
    else
      let s := t.gang.foldl (fun s i => s.pauseSpire i) s
      if s.isPaused t then (.done .ok [], s) else (.run 0, s.setTask { t with pauseCmds := t.pauseCmds ++ [c.dseq] })

def execPause (id : Nat) (s : State) : Host.Outcome State Fault Refusal := .next (s.attempt 0x0305 id cmdPause)

/-- A spire issues again from PAUSED: the mover reissues what it abandoned, and each engine continues; a mover that a TRANSLATION fault stopped waits for the fault to be cleared (R102). -/
def State.resumeSpire (s : State) (site : Nat) : State :=
  if s.spState site ≠ 3 then s else
  let t := s.arriveAt site
  let s := (s.runTo site t).setSpState site 1
  let s := s.modSpire site (fun p => allEngines.foldl (fun p e =>
    let x := p.eng e
    if x.st = .stop then p.setEng e { x with st := if x.wait.isSome then .wait else .run, since := t, free := max x.free t } else p) p)
  (if (s.spire site).mover.faultAt = none then s.restartMover site none else s).wake site t

/-- RESUME (R102): accepted only in PAUSED. -/
def cmdResume (c : Cmd) (s : State) : Go × State :=
  match tfind s.tasks (c.par 0 4) with
  | none => (.done .badState [], s)
  | some t => if s.isPaused t && t.gang.any (fun i => s.spState i == 3) then (.done .ok [], t.gang.foldl (fun s i => s.resumeSpire i) s) else (.done .badState [], s)

def execResume (id : Nat) (s : State) : Host.Outcome State Fault Refusal := .next (s.attempt 0x0306 id cmdResume)

/-- ABORT (R102): a pause followed by an ABORT fault; the final entry follows the task's completion. -/
def cmdAbort (c : Cmd) (s : State) : Go × State :=
  match tfind s.tasks (c.par 0 4) with
  | none => (.done .badState [], s)
  | some t =>
    let s := t.gang.foldl (fun s i => s.abortSpire i 9) (s.setTask { t with abortCmds := t.abortCmds ++ [c.dseq] })
    let i := t.gang.headD 0
    (.run 0, s.raise 0x0201 2 i 0 (s.reg (R.SPR_FAULT i)).toNat 0)

def execAbort (id : Nat) (s : State) : Host.Outcome State Fault Refusal := .next (s.attempt 0x0307 id cmdAbort)

/-- The state of a task as one value (R110): the first spire that is not finished, else ENDING. -/
def State.taskState (s : State) (t : Task) : Nat := match t.gang.find? (fun i => s.spState i != 5) with | some i => s.spState i | none => 5

/-- TASK_QUERY (R485). -/
def cmdTaskQuery (c : Cmd) (s : State) : Go × State :=
  match tfind s.tasks (c.par 0 4) with
  | none => (.done .badState [], s)
  | some t => (.done .ok [s.taskState t, (s.now - t.start) / 1000], s)

def execTaskQuery (id : Nat) (s : State) : Host.Outcome State Fault Refusal := .next (s.attempt 0x030B id cmdTaskQuery)

/-! Programs (R485). -/

/-- A loaded program by its handle. -/
def State.program (s : State) (h : Nat) : Option Program := s.programs.find? (fun p => p.handle.toNat == h)

/-- PROGRAM_LOAD: the image is opaque (R1), so whether it passes its check, and its handle, are free values. -/
def cmdProgramLoad (c : Cmd) (s : State) : Go × State :=
  if Config.imageValid (s.load (c.par 0 8) (c.par 8 8)) then
    let h := Config.programHandle s.progCount
    (.done .ok [h.toNat, h.toNat / 2 ^ 32], { s with programs := s.programs ++ [{ handle := h, addr := c.par 0 8, size := c.par 8 8 }], progCount := s.progCount + 1 })
  else (.done .programInvalid [], s)

def execProgramLoad (id : Nat) (s : State) : Host.Outcome State Fault Refusal := .next (s.attempt 0x0301 id cmdProgramLoad)

/-- PROGRAM_UNLOAD: WAIT_TASKS while a task of the program runs or an admitted LAUNCH names it. -/
def cmdProgramUnload (c : Cmd) (s : State) : Go × State :=
  let h := c.par 0 8
  let ts := s.tasks.filter (fun (p : Nat × Task) => p.2.program == h)
  if ts != [] || s.hcp.cmds.any (fun x => x.opcode == 0x0303 && x.par 0 8 == h) then (.wait .waitTasks (ts.foldl (fun m (p : Nat × Task) => max m (s.taskRest p.2)) 0), s)
  else (.done .ok [], { s with programs := s.programs.filter (fun p => p.handle.toNat != h) })

def execProgramUnload (id : Nat) (s : State) : Host.Outcome State Fault Refusal := .next (s.attempt 0x0302 id cmdProgramUnload)

end Sys2Proof.Machine
end

