-- ==== Sys2Proof/Machine/JobCommands.lean ====
section
/-!
DEFINITION. The job group (R490): pod configuration, job start, end and stop, pairs, tables, phase lists, mirror closes and substitution.
-/
namespace Sys2Proof.Machine

/-! The pod (R378, R379). -/

/-- Own logical number, spare and gateway marks, from the map (R378). -/
def State.showLogical (s : State) : State :=
  let p := s.position
  match s.logicalOf p with
  | some l => s.setFlds R.LNK_POD_CFG [(F.LNK_POD_CFG_LOGICAL, l), (F.LNK_POD_CFG_SPARE, 0)]
  | none => s.setFlds R.LNK_POD_CFG [(F.LNK_POD_CFG_LOGICAL, 0), (F.LNK_POD_CFG_SPARE, 1)]

/-- One byte of the logical map: bit 7 valid, the position below. -/
def State.setMap (s : State) (l : Nat) (pos : Option Nat) : State :=
  s.setReg (R.LNK_LMAP (l / 8)) (fset (s.reg (R.LNK_LMAP (l / 8))) ⟨8 * (l % 8) + 7, 8 * (l % 8)⟩ (match pos with | some p => 128 + p | none => 0))

/-- The logical map, the gateway and the default tables of both banks from a POD_CONFIG (R378, R362). -/
def State.takeMap (s : State) (c : Cmd) : State :=
  let s := (List.range 64).foldl (fun s l => let p := c.par l 1; s.setMap l (if p < 64 then some p else none)) s
  let s := (s.setFld R.LNK_POD_CFG F.LNK_POD_CFG_GATEWAY (if c.par 64 1 = s.position then 1 else 0)).showLogical
  (s.buildDefault 0).buildDefault 1

/-- The pod map is in use and the module shows READY on its links. -/
def State.mapReady (s : State) : State := { s with pod := { s.pod with rtLoaded := true, ready := true } }

/-- POD_CONFIG (R378, R490): the logical map, the gateway, the default table in both banks; the pod is ready when every live pair has a route (R362). -/
def cmdPodConfig (c : Cmd) (s : State) : Go × State :=
  let s := s.takeMap c
  if s.unroutable then (.done .tablesUnbuildable [], s)
  else (.done .ok [], s.mapReady.showParent.releaseHeld)

def execPodConfig (id : Nat) (s : State) : Host.Outcome State Fault Refusal := .next (s.attempt 0x0401 id cmdPodConfig)

/-- The cut tables of an axis-mode job (R364): cut c along the axis its instance lies on. -/
def axisOf (dims : Nat × Nat × Nat) (ps : List Nat) : Option Nat :=
  match ps with
  | [] => none
  | p :: _ =>
    let differs := fun k => ps.any (fun q => (coordsOf dims q).getD k 0 != (coordsOf dims p).getD k 0)
    match [0, 1, 2].filter differs with
    | [] => some 0
    | [k] => some k
    | _ => none

/-- SUBSTITUTE (R379, R371): the failed position goes out of service, the spare takes its number, tables are computed anew into the shadow bank, and a phase barrier applies them;
in redrawn mode the phase list is cleared (R634). Both modules of the new pair copy everything. -/
def cmdSubstitute (c : Cmd) (s : State) : Go × State :=
  match s.posOf (c.par 0 1) with
  | none => (.done .badState [], s)
  | some old =>
    let s := { s with pod := { s.pod with dead := if s.pod.dead.contains old then s.pod.dead else s.pod.dead ++ [old], phases := [] } }
    let s := ((s.setMap (c.par 0 1) (some (c.par 1 1))).showLogical).partnerDown
    let b := 1 - s.bank
    let s := s.buildDefault b
    let s := [0, 1, 2, 3].foldl (fun s t =>
      let m := tget (fun _ => 0) s.pod.rtMask (s.bank * 5 + t)
      let axes := [0, 1, 2].filter (fun k => (s.axisMask [k]) &&& m != 0)
      s.putTable b t (if m = 0 then List.replicate 64 0 else s.tableFor axes) m) s
    let newPair := s.fld R.LNK_MIR_CFG F.LNK_MIR_CFG_EN == 1 && (s.fld R.LNK_MIR_CFG F.LNK_MIR_CFG_PARTNER == c.par 0 1 || c.par 1 1 == s.position)
    let s : State := if newPair then s.markFull else s
    let s := { s with pod := { s.pod with shadowLoaded := true } }
    (.run 0, s.setPhase { s.pod.phase with stage := 1, newMap := true, node := none })

def execSubstitute (id : Nat) (s : State) : Host.Outcome State Fault Refusal := .next (s.attempt 0x040D id cmdSubstitute)

/-! The job (R448 to R450, R553, R568, R569). -/

/-- A cut of a mapping record: KIND, SIZE, STRIDE, ITEMS and its reserved byte. -/
def cutOf (r : Nat) (c : Nat) : Nat × Nat × Nat × Nat × Nat :=
  let w := r / 2 ^ (64 * (1 + c)) % 2 ^ 64
  (w / 2 ^ 56, w / 2 ^ 48 % 256, w / 2 ^ 40 % 256, w / 2 ^ 8 % 2 ^ 32, w % 256)

/-- The holders that agree with a module in a cut (R449). -/
def cutPeers (size stride nmod m : Nat) : List Nat :=
  (List.range nmod).filter (fun k => k % stride == m % stride && k / (stride * size) == m / (stride * size))

/-- The first fault of a mapping record (R449, R450): a cut, or 0xFFFFFFFF for the record as a whole. -/
def State.mappingFault (s : State) (r : Nat) (redrawn : Bool) : Option Nat :=
  let nmod := r % 2 ^ 32
  let ncut := r / 2 ^ 32 % 256
  let vst := r / 2 ^ 40 % 256
  let valid := ((List.range 64).filter (fun l => (s.posOf l).isSome)).length
  let cuts := (List.range 4).map (cutOf r)
  let pipe := (List.range ncut).any (fun c => (cuts.getD c (0, 0, 0, 0, 0)).1 == 4)
  let whole := nmod != valid || nmod == 0 || Nat.blt 4 ncut || vst == 0 || Nat.blt 8 vst || (vst != 1 && !pipe) || r / 2 ^ 48 % 2 ^ 16 != 0 || r / 2 ^ 320 != 0
  if whole then some 0xFFFFFFFF else
  (List.range 4).find? (fun c =>
    let (kind, size, stride, items, res) := cuts.getD c (0, 0, 0, 0, 0)
    if Nat.ble ncut c then kind + size + stride + items + res != 0
    else
      let twice := (List.range c).any (fun d => (cuts.getD d (0, 0, 0, 0, 0)).1 == kind)
      let bad := size == 0 || Nat.blt 64 size || stride == 0 || Nat.blt 64 stride || nmod % (size * stride) != 0 || res != 0 || kind == 0 || Nat.blt 4 kind
      bad || (kind == 1 && items != 0) || twice || (kind == 4 && Nat.blt items (size * vst))
        || (!redrawn && (List.range nmod).any (fun m => axisOf s.dims ((cutPeers size stride nmod m).filterMap s.posOf) == none)))

/-- The cut tables of an axis-mode job in both banks (R364). -/
def State.axisTables (s : State) (r : Nat) : State :=
  (List.range (r / 2 ^ 32 % 256)).foldl (fun s c =>
    let (_, size, stride, _, _) := cutOf r c
    let own := (s.logicalOf s.position).getD 0
    match axisOf s.dims ((cutPeers size stride (r % 2 ^ 32) own).filterMap s.posOf) with
    | some k => [0, 1].foldl (fun s b => s.putTable b c (s.tableFor [k]) (s.axisMask [k])) s
    | none => s) s

/-- Write the loss-scale state (R427, R444). -/
def State.setScale (s : State) (exp : Int) (clean consec steps : Nat) : State :=
  ({ s with ovfRun := consec }.setFlds R.GLB_LS_STATE [(F.GLB_LS_STATE_EXP, (exp % 256).toNat), (F.GLB_LS_STATE_CLEAN, clean), (F.GLB_LS_STATE_CONSEC_OVF, min 255 consec)]).setReg R.GLB_STEPS (BitVec.ofNat 64 steps)

/-- A byte as two's complement. -/
def sbyte (v : Nat) : Int := if v % 256 ≥ 128 then (v % 256 : Int) - 256 else v % 256

/-- An exponent of GLB_LS_CTL; values outside −64 to 64 act as the nearer limit (R443). -/
def lsLimit (v : Nat) : Int := max (-64) (min 64 (sbyte v))

/-- What the start of a job sets on the module; a rejoin leaves it STOPPED and its scale state as it was (R427, R490, R569). -/
def State.jobStarted (s : State) (c : Cmd) (rejoin : Bool) : State :=
  let s := (s.setReg R.ERR_JOB 0).setFld R.ERR_JOB F.ERR_JOB_STATE (if rejoin then 3 else 1)
  let s := s.setReg R.ERR_JOB_ID (BitVec.ofNat 64 (c.par 0 8))
  let red := c.par 90 1 == 1
  let s : State := { s with job := { mapping := BitVec.ofNat 512 (c.par 8 64), root := c.par 72 8, redrawn := red } }
  let s := (s.setReg R.GLB_PGT_BASE 0).setFlds R.GLB_PGT_BASE [(F.GLB_PGT_BASE_NGROUPS, c.par 88 2), (F.GLB_PGT_BASE_BASE, c.par 80 8)]
  let s := s.setFlds R.LNK_PHASE_CTL [(F.LNK_PHASE_CTL_MODE, if red then 1 else 0), (F.LNK_PHASE_CTL_PHASE, 0)]
  let s := if red then s else s.axisTables (c.par 8 64)
  if rejoin then s
  else if (c.par 91 1).testBit 0 then (s.setScale (sbyte (c.par 92 1)) (c.par 94 2) (c.par 93 1) (c.par 96 8)).writeStepEntry
  else (s.setScale (lsLimit (s.fld R.GLB_LS_CTL F.GLB_LS_CTL_INIT_EXP)) 0 0 0).writeStepEntry

/-- Regions from an answer of the partner. -/
def regionsOf (rs : List (Nat × Nat × Nat × Nat)) : List Region := rs.map (fun (b, n, a0, a1) => ({ base := b, len := n, slot0 := a0, slot1 := a1 } : Region))

/-- A rejoining module's pair is confirmed again; a spare takes that of the number it holds, and copies everything (R379, R569, R571). Mirroring opens its next epoch after the rollback. -/
def State.rejoinPair (s : State) : Option PairInfo → State
  | none => s
  | some p =>
    let newcomer := s.fld R.LNK_MIR_CFG F.LNK_MIR_CFG_EN == 0
    let s := s.setFlds R.LNK_MIR_CFG [(F.LNK_MIR_CFG_EN, 1), (F.LNK_MIR_CFG_PARTNER, p.partner), (F.LNK_MIR_CFG_REGIONS, p.regions.length + 1)]
    let s : State := { s with mirror := { s.mirror with regions := regionsOf p.regions, pregions := regionsOf p.pregions } }
    (if newcomer then s.markFull else s.showMirror).partnerUp p.chans

/-- JOB_START's outcome once the others have answered (R490, R569). -/
def State.jobReply (s : State) (c : Cmd) : JobReply → Go × State
  | .none => (.run 0, s)
  | .agree => (.done .ok [], s.jobStarted c false)
  | .stopped p => (.done .ok [], (s.jobStarted c true).rejoinPair p)
  | .differ => (.done .jobMismatch [], s)

/-- JOB_START (R448 to R450, R490): alone in its pod the module agrees with itself. -/
def cmdJobStart (r : JobReply) (c : Cmd) (s : State) : Go × State :=
  if s.jobState ≠ 0 then (.done .badState [], s)
  else match s.mappingFault (c.par 8 64) (c.par 90 1 == 1) with
    | some k => (.refuse .mappingInvalid k, s)
    | none => s.jobReply c (if s.alone ∧ r = .none then .agree else r)

/-- A command that has started and waits for an answer from outside. -/
def State.waiting (s : State) (op id : Nat) : Option Cmd := s.hcp.cmds.find? (fun c => c.dseq == id && c.opcode == op && c.started)

def execJobStart (id : Nat) (r : JobReply) (s : State) : Host.Outcome State Fault Refusal :=
  match s.waiting 0x0402 id with
  | some c => (if r = .none then .next s else let (g, s) := s.jobReply c r; .next (s.answer c g))
  | none => .next (s.attempt 0x0402 id (cmdJobStart r))

/-- JOB_END (R490, R553): waits while a task, collective or epoch of the job remains. -/
def cmdJobEnd (c : Cmd) (s : State) : Go × State :=
  if s.jobState = 0 ∨ (s.reg R.ERR_JOB_ID).toNat ≠ c.par 0 8 then (.done .badState [], s)
  else if s.tasks.isEmpty && s.coll.running.isEmpty && s.epState 0 == 0 && s.epState 1 == 0 then
    (.done .ok [], (s.setReg R.ERR_JOB 0))
  else (.wait .waitTasks unknown, s)

def execJobEnd (id : Nat) (s : State) : Host.Outcome State Fault Refusal := .next (s.attempt 0x0403 id cmdJobEnd)

/-- JOB_STOP (R554, R557): a stop of a RUNNING job; in STOPPING and STOPPED none is sent. -/
def cmdJobStop (c : Cmd) (s : State) : Go × State :=
  if (s.reg R.ERR_JOB_ID).toNat ≠ c.par 0 8 ∨ s.jobState = 0 then (.done .badState [], s)
  else
    let s := if s.jobState = 1 then (let (id, s) := s.newStopId; s.sendStop id) else s
    (if s.jobState = 3 then .done .ok [] else .run 0, s)

def execJobStop (id : Nat) (s : State) : Host.Outcome State Fault Refusal := .next (s.attempt 0x0404 id cmdJobStop)

/-! Pairs (R374, R375, R509). -/

/-- The regions of a PAIR list: 32-byte entries. -/
def State.regionList (s : State) (a n : Nat) : List Region :=
  (List.range n).map (fun i => { base := s.loadLE (a + 32 * i) 8, len := s.loadLE (a + 32 * i + 8) 8, slot0 := s.loadLE (a + 32 * i + 16) 8, slot1 := s.loadLE (a + 32 * i + 24) 8 })

/-- A persistent region and its slots: 2 MiB aligned, inside the tower window (R375, R634). -/
def Region.ok (r : Region) : Bool :=
  r.len != 0 && [r.base, r.len, r.slot0, r.slot1].all (fun a => a % 0x200000 == 0) && [r.base, r.slot0, r.slot1].all (fun a => Nat.ble (a + r.len) towerEnd)

/-- The pair is confirmed: configured, mirroring opens its next epoch, partner channels come up (R374, R509). A partner that has lost its copy asks for a full one (R569). -/
def State.pairConfirmed (s : State) (c : Cmd) (full : Bool) (cs : List Nat) : State :=
  let rs := s.regionList (c.par 8 8) (c.par 1 1)
  let s := s.setFlds R.LNK_MIR_CFG [(F.LNK_MIR_CFG_EN, 1), (F.LNK_MIR_CFG_PARTNER, c.par 0 1), (F.LNK_MIR_CFG_REGIONS, rs.length + 1)]
  let s : State := { s with mirror := { s.mirror with regions := rs, openEpoch := if s.jobState = 3 then 0 else (s.reg R.LNK_MIR_EPOCH).toNat + 1 } }
  (if full then s.markFull else s.showMirror).partnerUp cs

def State.pairReply (s : State) (c : Cmd) : PairReply → Go × State
  | .none => (.run 0, s)
  | .confirm empty rs cs =>
    (.done .ok [], ({ s with mirror := { s.mirror with pregions := regionsOf rs } } : State).pairConfirmed c empty cs)

/-- PAIR (R374, R490). -/
def cmdPair (r : PairReply) (c : Cmd) (s : State) : Go × State := s.pairReply c r

def execPair (id : Nat) (r : PairReply) (s : State) : Host.Outcome State Fault Refusal :=
  match s.waiting 0x0405 id with
  | some c => (if r = .none then .next s else let (g, s) := s.pairReply c r; .next (s.answer c g))
  | none => .next (s.attempt 0x0405 id (cmdPair r))

/-- PAIR_CONFIRM_TIMEOUT (R490): 10 ms without confirmation. -/
def execPairConfirmTimeout (id : Nat) (s : State) : Host.Outcome State Fault Refusal :=
  match s.waiting 0x0405 id with
  | some c => .next (({ s with now := max s.now (c.tStart + 10000000) }).finishCmd id .pairOneSided [])
  | none => .next s

/-! Tables (R228, R333, R338, R365, R453). -/

/-- SYNC_GROUPS_LOAD (R228). -/
def cmdSyncGroupsLoad (c : Cmd) (s : State) : Go × State :=
  let a := c.par 0 8
  let g := (List.range (c.par 9 1)).foldl (fun g i => tset (fun _ => 0) g (c.par 8 1 + i) (BitVec.ofNat 128 (s.loadLE (a + 16 * i) 16))) s.syncGroups
  (.done .ok [], { s with syncGroups := g })

def execSyncGroupsLoad (id : Nat) (s : State) : Host.Outcome State Fault Refusal := .next (s.attempt 0x0406 id cmdSyncGroupsLoad)

/-- A canal group of a 128-byte entry; none for what R333 refuses. -/
def State.canalGroup (s : State) (a : Nat) : Option CGroup :=
  let bits := s.loadLE a 120
  let ls := (List.range 960).filter (fun l => bits.testBit l)
  let ms := ls.filterMap s.siteOf
  let root := fun (o d : Nat) => let r := s.loadLE (a + o) 2; if r = 0xFFFF then (some none) else if r < 1024 && s.enabled r && domeOf r == d then some (some r) else none
  match root 120 0, root 122 1 with
  | some w, some e =>
    let need := fun (d : Nat) (r : Option Nat) => r.isSome == ms.any (fun m => domeOf m == d)
    if ms.length = ls.length ∧ need 0 w ∧ need 1 e ∧ s.loadLE (a + 124) 4 = 0 then some { members := ms, rootW := w, rootE := e } else none
  | _, _ => none

/-- CANAL_GROUPS_LOAD (R333, R338). -/
def cmdCanalGroupsLoad (c : Cmd) (s : State) : Go × State :=
  let a := c.par 0 8
  let first := c.par 8 1
  let n := c.par 9 1
  let gs := (List.range n).map (fun i => s.canalGroup (a + 128 * i))
  let held := s.canal.forks.any (fun (p : Nat × List Fork) => p.2.any (fun f => Nat.ble first f.pkt.dest && Nat.blt f.pkt.dest (first + n)))
  if gs.any (fun g => g == none) then (.refuse .groupInvalid (gs.findIdx (fun g => g == none)), s)
  else if held then (.wait .waitIdle unknown, s)
  else (.done .ok [], { s with groups := (List.range n).foldl (fun t i => match gs.getD i none with | some g => tinsert t (first + i) g | none => t) s.groups })

def execCanalGroupsLoad (id : Nat) (s : State) : Host.Outcome State Fault Refusal := .next (s.attempt 0x0407 id cmdCanalGroupsLoad)

/-- Bytes of a stage-queue entry (R453). -/
def sqAt (e : BitVec 512) (o n : Nat) : Nat := e.toNat / 2 ^ (8 * o) % 2 ^ (8 * n)

/-- LNK_STQ_STAT of a queue (R458). -/
def State.showStq (s : State) (q : Nat) : State :=
  match tfind s.stq q with
  | some x => s.setFlds (R.LNK_STQ_STAT q) [(F.LNK_STQ_STAT_DIR, sqAt x.entry 0 1), (F.LNK_STQ_STAT_PEER, sqAt x.entry 1 1), (F.LNK_STQ_STAT_PEER_Q, sqAt x.entry 2 1),
      (F.LNK_STQ_STAT_DEPTH, sqAt x.entry 3 1), (F.LNK_STQ_STAT_OCC, x.ahead - x.behind), (F.LNK_STQ_STAT_NEXT, x.ahead)]
  | none => s.setReg (R.LNK_STQ_STAT q) 0

/-- An entry that Lantern can check here (R453): its fields in range, its addresses inside their windows. -/
def State.sqOk (s : State) (e : BitVec 512) : Bool :=
  let dir := sqAt e 0 1
  let depth := sqAt e 3 1
  let bytes := sqAt e 8 4
  let inside := fun (a n : Nat) => inWindow (s.windowOf a) a n && !(s.specOn && inShadow a)
  if dir = 0 then e == 0 else
  Nat.ble dir 2 && Nat.blt (sqAt e 1 1) 64 && Nat.blt (sqAt e 2 1) 32 && Nat.ble 1 depth && Nat.ble depth 16 && Nat.ble (sqAt e 6 1) 4 && sqAt e 7 1 == 0
    && bytes % 512 == 0 && bytes != 0 && sqAt e 12 2 == 0 && sqAt e 24 8 % 512 == 0 && Nat.ble bytes (sqAt e 24 8) && sqAt e 48 16 == 0
    && inside (sqAt e 16 8) ((depth - 1) * sqAt e 24 8 + bytes) && inside (sqAt e 32 8) (8 * depth) && (dir == 1 || inside (sqAt e 40 8) (8 * depth))

/-- A queue whose other end is on this module agrees with it (R453): each names the other, one is OUT and one IN, with one DEPTH and one SLOT_BYTES. -/
def State.sqPair (s : State) (es : List (BitVec 512)) (i : Nat) : Bool :=
  let e := es.getD i 0
  let f := es.getD (sqAt e 2 1) 0
  if sqAt e 0 1 = 0 ∨ s.posOf (sqAt e 1 1) ≠ some s.position then true
  else sqAt f 0 1 + sqAt e 0 1 == 3 && s.posOf (sqAt f 1 1) == some s.position && sqAt f 2 1 == i && sqAt f 3 1 == sqAt e 3 1 && sqAt f 8 4 == sqAt e 8 4

/-- STAGEQ_LOAD (R453). `bad` is a queue whose other end, on another module, names or sizes it differently, as the two Lanterns find. -/
def cmdStageqLoad (bad : Option Nat) (c : Cmd) (s : State) : Go × State :=
  let es := (List.range (c.par 8 1)).map (fun i => BitVec.ofNat 512 (s.loadLE (c.par 0 8 + 64 * i) 64))
  match (List.range es.length).find? (fun i => !(s.sqOk (es.getD i 0) && s.sqPair es i)), bad with
  | some i, _ => (.refuse .badParam i, s)
  | none, some i => (.refuse .badParam i, s)
  | none, none =>
    let s := { s with stq := (List.range es.length).foldl (fun t i =>
      if sqAt (es.getD i 0) 0 1 = 0 then t else tinsert t i { entry := es.getD i 0, ahead := 0, behind := 0, since := s.now, lastPoll := s.now, flying := [] }) [] }
    (.done .ok [], (List.range 32).foldl (fun s q => (((s.setReg (R.LNK_STQ_FULL_NS q) 0).setReg (R.LNK_STQ_EMPTY_NS q) 0).setReg (R.LNK_STQ_MB q) 0).showStq q) s)

def execStageqLoad (id : Nat) (bad : Option Nat) (s : State) : Host.Outcome State Fault Refusal := .next (s.attempt 0x0408 id (cmdStageqLoad bad))

/-- A phase of the list (R490): four cut tables of 64 entries, each with its mask. -/
def State.phaseAt (s : State) (a : Nat) : PhaseTables :=
  { entries := (List.range 4).map (fun t => (List.range 64).map (fun e => s.loadLE (a + 136 * t + 2 * e) 2)),
    masks := (List.range 4).map (fun t => s.loadLE (a + 136 * t + 128) 8 % 2 ^ 48) }

/-- A cut table that leaves some live position unrouted while it routes others; one that routes to none is a cut not in use in the phase. -/
def State.tableBad (s : State) (es : List Nat) : Bool :=
  let others := s.livePositions.filter (fun p => p ≠ s.position)
  let un := others.filter (fun p => Nat.ble 6 (es.getD p 0 / 2 ^ 13))
  un != [] && un.length != others.length

/-- PHASE_LIST_LOAD (R364, R365): the first phase goes into the active bank. -/
def cmdPhaseListLoad (c : Cmd) (s : State) : Go × State :=
  let ps := (List.range (c.par 8 1)).map (fun i => s.phaseAt (c.par 0 8 + 544 * i))
  if ps.any (fun p => p.entries.any s.tableBad) then (.done .tablesUnbuildable [], s)
  else
    let s := { s with pod := { s.pod with phases := ps, shadowLoaded := false } }
    let s := s.setFld R.LNK_PHASE_CTL F.LNK_PHASE_CTL_PHASE 0
    (.done .ok [], match ps with
      | p :: _ => (List.range 4).foldl (fun s t => s.putTable s.bank t (p.entries.getD t []) (p.masks.getD t 0)) s
      | [] => s)

def execPhaseListLoad (id : Nat) (s : State) : Host.Outcome State Fault Refusal := .next (s.attempt 0x0409 id cmdPhaseListLoad)

/-- The regions of the own section: the pair's, or those listed at BSN_RGN_LIST when no pair is configured (R533). -/
def State.ckptRegions (s : State) : List Region :=
  if s.fld R.LNK_MIR_CFG F.LNK_MIR_CFG_EN = 1 then s.mirror.regions
  else s.regionList (s.fld R.BSN_RGN_LIST F.BSN_RGN_LIST_ADDR) (min 64 (s.fld R.BSN_RGN_LIST F.BSN_RGN_LIST_COUNT))

/-- An open epoch writes persistent regions (R33): by its PERSIST mark, or by a held write to a region declared by PAIR, or listed for checkpoints when no pair is configured. A discarded
epoch is open no more. -/
def State.epochPersists (s : State) : Bool :=
  [0, 1].any (fun k => Nat.ble 1 (s.epState k) && Nat.ble (s.epState k) 2 &&
    ((s.epoch k).persist || (s.epoch k).touched.any (fun x => s.ckptRegions.any (fun r => Nat.blt r.base ((x + 1) * 0x200000) && Nat.blt (x * 0x200000) (r.base + r.len)))))

/-- MIRROR_CLOSE (R376): the close instant moves the dirty set into C and opens the next epoch. -/
def cmdMirrorClose (c : Cmd) (s : State) : Go × State :=
  let m := s.mirror
  let n := c.par 0 8
  if s.fld R.LNK_MIR_CFG F.LNK_MIR_CFG_EN = 0 ∨ m.openEpoch ≠ n ∨ n = 0 then (.done .badState [], s)
  else if s.epochPersists then (.wait .waitSpeculation unknown, s)
  else if m.closing.isSome then (.wait .waitMirror unknown, s)
  else
    let d := m.dirty (n % 2)
    let cs := d ++ m.fullLeft.filter (fun x => !d.contains x)
    let s : State := { s with mirror := { m.setDirty (n % 2) [] with c := cs, fullLeft := [], closing := some n, closeTime := s.now, closeSpec := s.jnl.lastSpec, openEpoch := n + 1 } }
    (.done .ok [cs.length], s.showMirror)

def execMirrorClose (id : Nat) (s : State) : Host.Outcome State Fault Refusal := .next (s.attempt 0x040C id cmdMirrorClose)

end Sys2Proof.Machine
end

