-- ==== Sys2Proof/Machine/Basin.lean ====
section
/-!
DEFINITION. The basin: checkpoints, their restore, media upkeep and sanitize (R527 to R546), and the rollback (R567 to R570).
-/
namespace Sys2Proof.Machine

/-! Registers of the media (R543, R544). -/

/-- Units of the checkpoint area (R530). -/
def ckptArea : Nat := 976562500 - 16794112

/-- Units a checkpoint holds. -/
def State.usedUnits (s : State) : Nat :=
  (s.bsn.ckpts.map (fun c => c.units)).foldl (· + ·) 0 + (match s.bsn.capture with | some k => k.ck.units | none => 0)

def emptyBlock : NandBlock := { cycles := 0, progAt := 0, reads := 0, data := false, bad := false }

/-- A block of NAND, by die · 6,250 + number (R527). -/
def State.block (s : State) (k : Nat) : NandBlock := (tfind s.bsn.blocks k).getD emptyBlock
def State.setBlock (s : State) (k : Nat) (b : NandBlock) : State := { s with bsn := { s.bsn with blocks := tinsert s.bsn.blocks k b } }

/-- Grown bad blocks (R542). -/
def State.grownBad (s : State) : Nat := (s.bsn.blocks.filter (fun (p : Nat × NandBlock) => p.2.bad)).length

/-- BSN_CAP, BSN_WEAR, BSN_BLOCKS; the wear notes at 90 % and 100 % of the rated 3,000 cycles (R542). -/
def State.showBasin (s : State) : State :=
  let mx := s.bsn.blocks.foldl (fun m (p : Nat × NandBlock) => max m p.2.cycles) 0
  let sum := s.bsn.blocks.foldl (fun m (p : Nat × NandBlock) => if p.2.bad then m else m + p.2.cycles) 0
  let fb := s.bsn.factory.length
  let gb := s.grownBad
  let s := s.setFld R.BSN_CAP F.BSN_CAP_FREE (ckptArea - s.usedUnits)
  let s := s.setFlds R.BSN_WEAR [(F.BSN_WEAR_MAX_PE, mx), (F.BSN_WEAR_AVG_PE, sum / max 1 (250000 - fb - gb))]
  let s := s.setFlds R.BSN_BLOCKS [(F.BSN_BLOCKS_FACTORY_BAD, fb), (F.BSN_BLOCKS_GROWN_BAD, gb), (F.BSN_BLOCKS_SPARE_LEFT, 5000 - gb)]
  let s := if gb ≥ 5000 ∧ s.fld R.BSN_STATUS F.BSN_STATUS_STATE = 1 then s.setFld R.BSN_STATUS F.BSN_STATUS_STATE 2 else s
  let lvl := if 3000 ≤ mx then 2 else if 2700 ≤ mx then 1 else 0
  if s.bsn.wearNote < lvl then ({ s with bsn := { s.bsn with wearNote := lvl } } : State).note 0x0701 0 7 0 (s.reg R.BSN_ERR).toNat 0 else s

/-- BSN_ERR and its record (R531, R542, R545). -/
def State.bsnErr (s : State) (reason source die blk : Nat) : State :=
  let s := s.record R.BSN_ERR F.BSN_ERR_VALID F.BSN_ERR_MORE
    [(F.BSN_ERR_REASON, reason), (F.BSN_ERR_SOURCE, source), (F.BSN_ERR_DIE, die), (F.BSN_ERR_BLOCK, blk), (F.BSN_ERR_TIME, s.stamp)]
  s.note 0x0701 0 7 0 (s.reg R.BSN_ERR).toNat 0

def State.bsnState (s : State) : Nat := s.fld R.BSN_STATUS F.BSN_STATUS_STATE

/-- BASIN_INFO (R491): the checkpoint being written counts as held (R537). -/
def cmdBasinInfo (_ : Cmd) (s : State) : Go × State :=
  if s.bsnState = 3 then (.done .basinReadFailed [], s) else
  (.done .ok [s.fld R.BSN_CAP F.BSN_CAP_FREE * 4096 / 2 ^ 30, s.fld R.BSN_WEAR F.BSN_WEAR_MAX_PE * 100 / 3000,
    s.bsn.ckpts.length + (if s.bsn.capture.isSome then 1 else 0)], s)

def execBasinInfo (id : Nat) (s : State) : Host.Outcome State Fault Refusal := .next (s.attempt 0x0501 id cmdBasinInfo)

/-! Writing a checkpoint (R533 to R537). -/

/-- Bytes of a list of regions. -/
def regionBytes (rs : List Region) : Nat := (rs.map (fun r => r.len)).foldl (· + ·) 0

/-- A checkpoint of an epoch that is held (R537). -/
def State.ckpt (s : State) (e : Nat) : Option Ckpt := s.bsn.ckpts.find? (fun c => c.epoch == e)

/-- Why a CKPT_WRITE is refused at its admission (R534): no region, epoch 0, or the epoch is held. -/
def State.ckptBad (s : State) (e : Nat) : Bool :=
  s.ckptRegions == [] || e == 0 || (s.ckpt e).isSome || (match s.bsn.capture with | some k => k.ck.epoch == e | none => false)

/-- Checkpoints that automatic reclaim deletes for a space of `need` units: the oldest, until the space suffices or only KEEP remain (R537). Held checkpoints stand in order of T_COMMIT. -/
def reclaimFor (keep : Nat) : Nat → Nat → List Ckpt → List Nat
  | _, _, [] => []
  | free, need, c :: cs =>
    if need ≤ free ∧ cs.length + 1 < 16 then [] else if keep = 0 ∨ cs.length + 1 ≤ keep then [] else c.epoch :: reclaimFor keep (free + c.units) need cs

/-- The step-state entry of R517 as bytes of a commit record. -/
def recOf (l : List Byte) : List Byte := l ++ List.replicate (64 - l.length) 0

/-- CKPT_WRITE (R534, R535): the start is the capture instant. -/
def cmdCkptWrite (c : Cmd) (s : State) : Go × State :=
  let e := c.par 0 8
  let rs := s.ckptRegions
  let partner := s.fld R.BSN_CKPT_CTL F.BSN_CKPT_CTL_PARTNER = 1
  if s.ckptBad e then (.refuse .badState 0, s)
  else if s.bsnState = 2 then (.refuse .basinFull 0, s)
  else if s.bsnState ≠ 1 then (.refuse .basinReadFailed 0, s)
  else if s.bsn.capture.isSome || s.bsn.restore.isSome then (.wait .waitIdle unknown, s)
  else if s.epochPersists then (.wait .waitSpeculation unknown, s)
  else if partner ∧ (s.jnl.mirEpoch = 0 ∨ s.jnl.mirSpec ≠ s.jnl.lastSpec) then (.wait .waitMirror unknown, s)
  else if (rs.all (fun r => r.base % 0x200000 == 0 && r.len % 0x200000 == 0 && isTower r.base && Nat.ble (r.base + r.len) towerEnd)) = false then (.refuse .badParam 0, s)
  else
    let prs := if partner then s.mirror.pregions else []
    let bytes := regionBytes rs + regionBytes prs
    let units := bytes / 4096 + 8
    let gone := reclaimFor (s.fld R.BSN_CKPT_CTL F.BSN_CKPT_CTL_KEEP) (ckptArea - s.usedUnits) units s.bsn.ckpts
    let kept := s.bsn.ckpts.filter (fun k => !gone.contains k.epoch)
    let free := ckptArea - (kept.map (fun k => k.units)).foldl (· + ·) 0
    if free < units ∨ 16 ≤ kept.length then (.refuse .basinFull 0, s)
    else
      let slot := s.jnl.mirSlot
      let psec := prs.foldl (fun m r => Memory.writeBytes m r.base (s.load (if slot = 0 then r.slot0 else r.slot1) r.len)) ([] : Memory)
      let ck : Ckpt := { epoch := e, job := s.reg R.ERR_JOB_ID, logical := s.fld R.LNK_POD_CFG F.LNK_POD_CFG_LOGICAL,
                         plogical := if partner then s.fld R.LNK_MIR_CFG F.LNK_MIR_CFG_PARTNER else 0xFF, state := 2, bytes := bytes, tCapture := s.now, tCommit := 0,
                         spec := s.jnl.lastSpec, step := recOf s.stepEntry, pmirror := if partner then recOf s.mirrorRecord else List.replicate 64 0,
                         regions := rs.map (fun r => ⟨r.base, r.len, false⟩) ++ prs.map (fun r => ⟨r.base, r.len, true⟩), own := [], partner := psec, units := units }
      let left := rs.flatMap (fun r => (List.range (r.len / 0x200000)).map (fun i => r.base + i * 0x200000))
      let s : State := { s with bsn := { s.bsn with capture := some { ck := ck, left := left, held := [], reclaim := gone, cmd := c.dseq } } }
      let s := ((s.setReg R.BSN_CKPT_EPOCH (BitVec.ofNat 64 e)).setFld R.BSN_STATUS F.BSN_STATUS_CAPTURE 1).bump R.BSN_WR_BYTES (regionBytes prs)
      (.run 0, s.showCapture.showBasin)

def execCkptWrite (id : Nat) (s : State) : Host.Outcome State Fault Refusal := .next (s.attempt 0x0502 id cmdCkptWrite)

/-- CKPT_CAPTURE_CHUNK (R535): the controller reads the next chunk of the own section, one with a write waiting first; what waited on it goes on. -/
def execCkptCaptureChunk (s : State) : Host.Outcome State Fault Refusal :=
  .next (match s.bsn.capture with
    | some k => (match k.left.find? (fun c => (tfind k.held c).isSome), k.left with
      | some c, _ => (s.captureChunk c).showCapture
      | none, c :: _ => (s.captureChunk c).showCapture
      | none, [] => s)
    | none => s)

/-- CKPT_CAPTURE_COMPLETE (R535, R537): every section is programmed and the commit record written; the deletions of the reclaim take effect. -/
def execCkptCaptureComplete (s : State) : Host.Outcome State Fault Refusal :=
  .next (match s.bsn.capture with
    | some k =>
      if k.left ≠ [] then s else
      let ck := { k.ck with state := 0, tCommit := s.now }
      let s : State := { s with bsn := { s.bsn with capture := none, ckpts := (s.bsn.ckpts.filter (fun c => !k.reclaim.contains c.epoch)) ++ [ck] } }
      let s := ((s.setReg R.BSN_CAPTURE 0).setReg R.BSN_CKPT_EPOCH 0).setFld R.BSN_STATUS F.BSN_STATUS_CAPTURE 0
      let s := s.bump R.BSN_NAND_WR_BYTES (nandBytes (ck.bytes + 32768))
      (s.finishCmd k.cmd .ok [ck.bytes % 2 ^ 32, ck.bytes / 2 ^ 32]).showBasin
    | none => s)

/-- A 64-byte entry of CKPT_LIST (R537). -/
def ckptEntry (c : Ckpt) : List Byte :=
  bytesLE 8 c.epoch ++ bytesLE 8 c.job.toNat ++ bytesLE 1 c.logical ++ bytesLE 1 c.plogical ++ bytesLE 1 c.state ++ bytesLE 1 (if c.plogical = 0xFF then 0 else 1)
    ++ List.replicate 4 0 ++ bytesLE 8 c.bytes ++ bytesLE 8 c.tCommit ++ bytesLE 8 c.spec ++ List.replicate 16 0

/-- Checkpoints held, the one being written last. -/
def State.ckptsHeld (s : State) : List Ckpt := s.bsn.ckpts ++ (match s.bsn.capture with | some k => [k.ck] | none => [])

/-- CKPT_LIST (R537). -/
def cmdCkptList (c : Cmd) (s : State) : Go × State :=
  if s.bsnState = 3 then (.done .basinReadFailed [], s) else
  let l := s.ckptsHeld.take (c.par 8 2)
  (.done .ok [l.length], s.lanternStore (c.par 0 8) (l.flatMap ckptEntry))

def execCkptList (id : Nat) (s : State) : Host.Outcome State Fault Refusal := .next (s.attempt 0x0503 id cmdCkptList)

/-- CKPT_DELETE (R537). -/
def cmdCkptDelete (c : Cmd) (s : State) : Go × State :=
  let e := c.par 0 8
  if s.bsnState = 3 then (.done .basinReadFailed [], s)
  else if (match s.bsn.capture with | some k => k.ck.epoch == e | none => false) || (match s.bsn.restore with | some (_, x, _) => x == e | none => false) then (.refuse .badState 0, s)
  else if (s.ckpt e).isNone then (.done .ckptNotFound [], s)
  else (.done .ok [], ({ s with bsn := { s.bsn with ckpts := s.bsn.ckpts.filter (fun k => k.epoch != e) } } : State).showBasin)

def execCkptDelete (id : Nat) (s : State) : Host.Outcome State Fault Refusal := .next (s.attempt 0x0505 id cmdCkptDelete)

/-! Restoring (R538, R570). -/

/-- Replace a range of memory by what a section holds. -/
def overlay (m sec : Memory) (base len : Nat) : Memory :=
  let inside := fun (a : Nat) => Nat.ble base a && Nat.blt a (base + len)
  (sec.filter (fun c => inside c.1)).foldl (fun m c => Memory.writeByte m c.1 c.2) (m.filter (fun c => !inside c.1))

/-- Step state from a restored entry: GLB_LS_STATE, GLB_STEPS and the working region (R427, R517). -/
def State.restoreStep (s : State) (e : List Byte) : State :=
  let f := fun (o n : Nat) => natLE ((e.drop o).take n)
  let s := s.setScale (sbyte (f 0 1)) (f 2 2) (f 1 1) (f 8 8)
  ({ s with jnl := { s.jnl with lastSpec := f 16 8, stepTime := f 24 8 } } : State).writeStepEntry

/-- Chunks of regions become dirty for mirroring (R538). -/
def State.markRegions (s : State) (rs : List (Nat × Nat)) : State := { s with mirror := rs.foldl (fun m r => m.mark r.1 r.2) s.mirror }

/-- The region at which a restore ends. -/
def BadRegion.index : BadRegion → Nat
  | .codeword r _ => r
  | .digest r => r

/-- What a failed region leaves in the basin's counters and error register (R531, R538, R545). -/
def State.regionFails (s : State) : BadRegion → State
  | .codeword _ k => ((s.bump R.BSN_READ_RETRY 7).bump R.BSN_UNCORR).bsnErr 1 0 (k / 6250) (k % 6250)
  | .digest _ => s.bsnErr 5 0 0 0

/-- The own section of a checkpoint back into its regions; reading ends at region `bad` where one fails (R531, R538). -/
def State.restoreOwn (s : State) (k : Ckpt) (bad : Option BadRegion) : Status × State :=
  let rs := k.regions.filter (fun r => !r.partner)
  let good := match bad with | some b => rs.take b.index | none => rs
  let s : State := { s with mem := good.foldl (fun m r => overlay m k.own r.base r.len) s.mem }
  let s := s.bump R.BSN_RD_BYTES ((good.map (fun r => r.len)).foldl (· + ·) 0)
  let s := s.markRegions (good.map (fun r => (r.base, r.len)))
  match bad with
  | some b => if b.index < rs.length then (.basinReadFailed, s.regionFails b) else (.ok, s.restoreStep k.step)
  | none => (.ok, s.restoreStep k.step)

/-- The module's own checkpoint of an epoch serves: COMPLETE, of this job and logical number (R538). -/
def State.ownCkpt (s : State) (e : Nat) : Option Ckpt :=
  match s.ckpt e with
  | some k => if k.state = 0 ∧ k.job = s.reg R.ERR_JOB_ID ∧ k.logical = s.fld R.LNK_POD_CFG F.LNK_POD_CFG_LOGICAL then some k else none
  | none => none

/-- The end of a restore from the partner: its regions have landed (R538). -/
def State.landedFromPartner (s : State) (step : List Byte) : State :=
  (s.markRegions (s.mirror.regions.map (fun r => (r.base, r.len)))).restoreStep step

/-- A restore from a source: from the own basin at once, else the partner is asked (R538). -/
def State.restoreFrom (s : State) (c : Cmd) (e source : Nat) (bad : Option BadRegion) (r : RestoreReply) : Go × State :=
  let asked := fun (s : State) => ({ s with bsn := { s.bsn with restore := some (c.dseq, e, source) } } : State)
  let own := if source = 0 then s.ownCkpt e else none
  if s.bsnState = 3 ∧ source = 0 then (.done .basinReadFailed [], s)
  else if source == 0 && (match s.bsn.capture with | some k => k.ck.epoch == e | none => false) then (.done .ckptIncomplete [], s)
  else match own with
    | some k => let (st, s) := s.restoreOwn k bad; (.done st [], s)
    | none =>
      if s.partnerPos.isNone then (.done .ckptNotFound [], s) else
      match r with
      | .none => (.run 0, asked s)
      | .missing => (.done .ckptNotFound [], s)
      | .landed step => (.done .ok [], s.landedFromPartner step)

/-- CKPT_RESTORE (R538): BAD_STATE while a task of the job or a CKPT_WRITE runs. `bad` is a region that fails, `r` the partner's answer. -/
def cmdCkptRestore (bad : Option BadRegion) (r : RestoreReply) (c : Cmd) (s : State) : Go × State :=
  if s.tasks != [] || s.bsn.capture.isSome then (.refuse .badState 0, s) else s.restoreFrom c (c.par 0 8) (c.par 8 1) bad r

/-- A started restore hears from the partner. -/
def State.restoreHeard (s : State) (r : RestoreReply) : Status × State :=
  let s : State := { s with bsn := { s.bsn with restore := none } }
  match r with
  | .landed step => (.ok, s.landedFromPartner step)
  | _ => (.ckptNotFound, s)

def execCkptRestore (id : Nat) (bad : Option BadRegion) (r : RestoreReply) (s : State) : Host.Outcome State Fault Refusal :=
  match s.waiting 0x0504 id with
  | some c => if r = .none then .next s else (let (st, s) := s.restoreHeard r; .next (s.finishCmd c.dseq st []))
  | none => .next (s.attempt 0x0504 id (cmdCkptRestore bad r))

/-- The end of a rollback to epoch `n` (R570): the module runs again; after a mirror epoch the next one is n + 1. -/
def State.rolledBack (s : State) (source : Nat) (inplace : Bool) (n : Nat) : State :=
  let s := (s.setFld R.GLB_STEP_LATCH F.GLB_STEP_LATCH_OVF 0).setFld R.ERR_JOB F.ERR_JOB_STATE 1
  let s := (s.bump R.ERR_ROLLBACKS).bump R.ERR_INPLACE (if inplace then 1 else 0)
  let s := if source = 0 then s.markFull else s
  ({ s with mirror := { s.mirror with openEpoch := (if source = 1 then n else (s.reg R.LNK_MIR_EPOCH).toNat) + 1 } } : State).showMirror

/-- The restore may be made in place (R570): `n` is the last committed mirror epoch, the open epoch's dirty bitmap and C are empty, and the step state is that of the partner's record. -/
def State.inPlace (s : State) (n spec : Nat) : Bool :=
  (s.reg R.LNK_MIR_EPOCH).toNat == n && n != 0 && s.mirror.dirty ((n + 1) % 2) == [] && s.mirror.c == [] && s.jnl.lastSpec == spec

/-- ROLLBACK (R570): accepted only in STOPPED. `spec` is the speculation epoch of the partner's mirror record of this module. -/
def cmdRollback (bad : Option BadRegion) (r : RestoreReply) (spec : Nat) (c : Cmd) (s : State) : Go × State :=
  let n := c.par 0 8
  let src := c.par 8 1
  if s.jobState ≠ 3 then (.refuse .badState 0, s)
  else if src = 1 ∧ s.inPlace n spec then (.done .ok [], (s.restoreStep (s.load (workBase + 0x40) 64)).rolledBack src true n)
  else match s.restoreFrom c n (if src = 1 then 1 else 0) bad r with
    | (.done .ok x, s) => (.done .ok x, s.rolledBack src false n)
    | g => g

def execRollback (id : Nat) (bad : Option BadRegion) (r : RestoreReply) (spec : Nat) (s : State) : Host.Outcome State Fault Refusal :=
  match s.waiting 0x0606 id with
  | some c =>
    if r = .none then .next s
    else
      let (st, s) := s.restoreHeard r
      .next ((if st = .ok ∧ s.jobState = 3 then s.rolledBack (c.par 8 1) false (c.par 0 8) else s).finishCmd c.dseq st [])
  | none => .next (s.attempt 0x0606 id (cmdRollback bad r spec))

/-! Media (R531, R541, R542). -/

/-- A block that may take data: of the die, free and good. -/
def State.freeBlock (s : State) (k : Nat) : Bool := let b := s.block k; Nat.blt k 250000 && !b.bad && !b.data && !s.bsn.factory.contains k

/-- The data of a block moves to another of the same die; the old one is erased (R541). -/
def State.moveBlock (s : State) (k dst : Nat) : State :=
  let b := s.block k
  let n := s.block dst
  let s := s.setBlock dst { n with progAt := s.now, reads := 0, data := true }
  ((s.setBlock k { b with data := false, reads := 0, cycles := b.cycles + 1 }).bump R.BSN_NAND_WR_BYTES 20480000).showBasin

/-- A relocation that its rule calls for. -/
def State.relocate (s : State) (k dst ctr : Nat) : State :=
  if (s.block k).data && s.freeBlock dst && k / 6250 == dst / 6250 then (s.moveBlock k dst).bump ctr else s

/-- A block has been read in the patrol pass; with every programmed block read, the pass ends and its time is kept (R541). -/
def State.patrolRead (s : State) (k : Nat) : State :=
  let done := k :: s.bsn.patrolled.filter (· ≠ k)
  if s.bsn.blocks.all (fun (p : Nat × NandBlock) => !p.2.data || done.contains p.1) then { s with bsn := { s.bsn with patrolled := [], patrolEnd := s.now } }
  else { s with bsn := { s.bsn with patrolled := done } }

/-- PATROL_READ (R541): a programmed block is read; one that needed a retry, or held too many errors, is relocated under the retention count. -/
def execPatrolRead (k : Nat) (weak : Option Nat) (s : State) : Host.Outcome State Fault Refusal :=
  if (s.block k).data = false then .next s else
  let b := s.block k
  let s := (s.setBlock k { b with reads := b.reads + 1 }).patrolRead k
  .next (match weak with | some dst => s.relocate k dst R.BSN_REFRESH | none => s)

/-- RETENTION_REFRESH (R541): a block whose data is older than REFRESH_DAYS is relocated. -/
def execRetentionRefresh (k dst : Nat) (s : State) : Host.Outcome State Fault Refusal :=
  if (s.block k).data && s.freeBlock dst && k / 6250 == dst / 6250 then
    let age := max 1 (s.fld R.BSN_PATROL_CTL F.BSN_PATROL_CTL_REFRESH_DAYS) * 86400000000000
    let s := { s with now := max s.now ((s.block k).progAt + age) }
    .next (s.relocate k dst R.BSN_REFRESH)
  else .next s

/-- READ_DISTURB_RELOCATE (R541): a block read DISTURB_K · 1,000 times since its last program. -/
def execReadDisturbRelocate (k dst : Nat) (s : State) : Host.Outcome State Fault Refusal :=
  if max 1 (s.fld R.BSN_PATROL_CTL F.BSN_PATROL_CTL_DISTURB_K) * 1000 ≤ (s.block k).reads then .next (s.relocate k dst R.BSN_DISTURB) else .next s

/-- STATIC_LEVELLING (R541): the highest count exceeds the lowest of a block with data by 200: the data of that flight, block number `n`, moves to flight `to`. -/
def execStaticLevelling (n dst : Nat) (s : State) : Host.Outcome State Fault Refusal :=
  let mx := s.bsn.blocks.foldl (fun m (p : Nat × NandBlock) => max m p.2.cycles) 0
  let flight := (List.range 40).map (fun d => (d * 6250 + n, d * 6250 + dst))
  let has := flight.filter (fun p => (s.block p.1).data)
  let low := s.bsn.blocks.all (fun (p : Nat × NandBlock) => !p.2.data || has.any (fun q => Nat.ble (s.block q.1).cycles p.2.cycles))
  let spread := has.any (fun q => Nat.blt ((s.block q.1).cycles + 200) mx)
  if has != [] && low && spread && has.all (fun q => s.freeBlock q.2) && Nat.blt n 6250 && Nat.blt dst 6250 then
    .next ((has.foldl (fun s q => s.moveBlock q.1 q.2) s).bump R.BSN_WL_MOVES)
  else .next s

/-- BASIN_CODEWORD_READ (R531): a codeword of a block decodes, needs retries, is rebuilt, or is lost; what a loss means depends on who read it. -/
def execBasinCodewordRead (k : Nat) (who : BsnReader) (r : BsnRead) (s : State) : Host.Outcome State Fault Refusal :=
  if 250000 ≤ k then .next s else
  let b := s.block k
  let s := s.setBlock k { b with reads := b.reads + 1 }
  match r with
  | .clean => .next s
  | .decoded => .next (s.bump R.BSN_LDPC_CORR)
  | .retried n => .next (s.bump R.BSN_READ_RETRY (min 7 n))
  | .rebuilt => .next ((s.bump R.BSN_READ_RETRY 7).bump R.BSN_REBUILD)
  | .lost =>
    let s := (s.bump R.BSN_READ_RETRY 7).bump R.BSN_UNCORR
    let src := match who with | .restore => 0 | .journal _ => 1 | .relocation _ => 2 | .health _ => 3 | .superblock => 3
    let s := s.bsnErr 1 src (k / 6250) (k % 6250)
    .next (match who with
      | .restore => (match s.bsn.restore with
        | some (id, _, _) => ({ s with bsn := { s.bsn with restore := none } } : State).finishCmd id .basinReadFailed []
        | none => s)
      | .journal full => if full then s else s.setFld R.JNL_STATUS F.JNL_STATUS_LOST 1
      | .health both => if both then ({ s with bsn := { s.bsn with retireCopy := [] } } : State).setFld R.BSN_STATUS F.BSN_STATUS_HEALTH_LOST 1 else s
      | .superblock => (s.setFld R.BSN_STATUS F.BSN_STATUS_KEY_OK 0).setFld R.BSN_STATUS F.BSN_STATUS_STATE 3
      | .relocation e => { s with bsn := { s.bsn with ckpts := s.bsn.ckpts.map (fun c => if c.epoch = e then { c with state := 1 } else c) } })

/-- A block is retired at once, its data rewritten elsewhere (R542). -/
def State.retireBlock (s : State) (k dst reason source : Nat) : State :=
  if (Nat.blt k 250000 && !(s.block k).bad && !s.bsn.factory.contains k) = false then s else
  let b := s.block k
  let s := if b.data ∧ s.freeBlock dst then s.setBlock dst { s.block dst with progAt := s.now, reads := 0, data := true } else s
  let s := s.setBlock k { b with bad := true, data := false }
  (s.showBasin).bsnErr reason source (k / 6250) (k % 6250)

/-- NAND_PROGRAM_FAILURE (R542): the data goes to block `to` from the page buffer; `journal` where a persistence was being programmed. -/
def execNandProgramFailure (k dst : Nat) (journal : Bool) (s : State) : Host.Outcome State Fault Refusal := .next (s.retireBlock k dst 2 (if journal then 5 else 4))

/-- NAND_ERASE_FAILURE (R542). -/
def execNandEraseFailure (k : Nat) (s : State) : Host.Outcome State Fault Refusal := .next (s.retireBlock k k 3 2)

/-- BASIN_CONTROLLER_TIMEOUT (R560): no answer for 100 ms: the controller is reinitialised, and a capture ends. -/
def State.basinReinit (s : State) (cmd : Option Nat) : State :=
  ((s.abandonCapture (some .ckptIncomplete)).setFld R.BSN_STATUS F.BSN_STATUS_STATE 4).pushReinit 4 0 cmd

def execBasinControllerTimeout (s : State) : Host.Outcome State Fault Refusal :=
  if s.bsnState = 1 ∨ s.bsnState = 2 then .next (({ s with now := s.now + 100000000 } : State).basinReinit none) else .next s

/-- SANITIZE (R532): a write of BSN_SANITIZE.START, honoured in manufacturing service with no job: the key pair is replaced, and nothing stored can be read. -/
def State.sanitize (s : State) : State :=
  if s.fld R.SEC_STATE F.SEC_STATE_MANUF_SERVICE = 1 ∧ s.jobState = 0 then
    ({ s with bsn := { s.bsn with ckpts := [], keyGen := s.bsn.keyGen + 1 }, jnl := { s.jnl with log := [] } } : State).setFld R.BSN_SANITIZE F.BSN_SANITIZE_START 1
  else s

def execSanitize (s : State) : Host.Outcome State Fault Refusal := .next s.sanitize

/-- SANITIZE_COMPLETE (R532): journal and checkpoint areas are erased; the retirement table's copy and the block records, in the health area, are written anew. -/
def execSanitizeComplete (s : State) : Host.Outcome State Fault Refusal :=
  if s.fld R.BSN_SANITIZE F.BSN_SANITIZE_START = 1 then .next (s.setFld R.BSN_SANITIZE F.BSN_SANITIZE_START 0).showBasin else .next s

end Sys2Proof.Machine
end

