-- ==== Sys2Proof/Machine/Epochs.lean ====
section
/-!
DEFINITION. Epoch commands and their instants (R264 to R273).
-/
namespace Sys2Proof.Machine

/-- A 64-bit register of the number a slot holds. -/
def State.epNum (s : State) (k : Nat) : Nat := (s.reg (R.GLB_SPEC_NUM k)).toNat

/-- EPOCH_OPEN (R265): a duplicate and an unfit parent are refused; two busy slots delay it. -/
def cmdEpochOpen (c : Cmd) (s : State) : Go × State :=
  let n := c.par 0 8
  let parent := c.par 8 8
  if (s.epSlot n).isSome then (.refuse .epochDuplicate 0, s)
  else
    let pk := if parent = 0 then none else s.epSlot parent
    let fit := parent == 0 || (match pk with | some j => s.epState j == 1 || s.epState j == 2 | none => false)
    if fit = false then (.refuse .epochUnknown 8, s)
    else match [0, 1].find? (fun k => s.epState k == 0) with
      | none => (.wait .waitEpochSlot unknown, s)
      | some k =>
        let s := (s.setReg (R.GLB_SPEC_STAT k) 0).setFlds (R.GLB_SPEC_STAT k) [(F.GLB_SPEC_STAT_STATE, 1), (F.GLB_SPEC_STAT_HAS_PARENT, if pk.isSome then 1 else 0), (F.GLB_SPEC_STAT_PARENT_SLOT, pk.getD 0)]
        let s := (s.setReg (R.GLB_SPEC_NUM k) (BitVec.ofNat 64 n)).setEpoch k { emptyEpoch with persist := c.par 16 1 == 1 }
        (.done .ok [k], s)

def execEpochOpen (id : Nat) (s : State) : Host.Outcome State Fault Refusal := .next (s.attempt 0x0308 id cmdEpochOpen)

/-- Why a commit of a slot cannot be applied yet (R272, R535). -/
def State.commitWait (s : State) (k : Nat) : Option (Status × Nat) :=
  let rest := s.tasks.foldl (fun m (p : Nat × Task) => if p.2.epoch = k + 1 then max m (s.taskRest p.2) else m) 0
  if s.epochTasks k ≠ 0 then some (.waitTasks, rest)
  else if s.epState k = 2 then some (.waitTasks, unknown)
  else if (s.epParent k).isSome then some (.waitParent, unknown)
  else if (match s.bsn.capture with | some x => x.left != [] | none => false) then some (.waitIdle, unknown)
  else none

/-- The commit instant (R272): every held quarter replaces the committed one and marks its chunk dirty; the epoch's overflow reaches the step latch (R421); its child is a child no more;
the slot drains. -/
def State.commitSlot (s : State) (k : Nat) : State :=
  let e := s.epoch k
  let s := s.commitQuarters e.quarters
  let s := if e.ovf then s.setFld R.GLB_STEP_LATCH F.GLB_STEP_LATCH_OVF 1 else s
  let s := s.setEpoch k { emptyEpoch with spilled := e.spilled.filter (fun (x : Nat × Bool) => x.2) }
  let s := (s.setEpState k 4).bump R.GLB_SPEC_COMMITS
  let s : State := { s with jnl := { s.jnl with lastSpec := s.epNum k } }
  let s := if s.epParent (1 - k) = some k then s.setFlds (R.GLB_SPEC_STAT (1 - k)) [(F.GLB_SPEC_STAT_HAS_PARENT, 0), (F.GLB_SPEC_STAT_PARENT_SLOT, 0)] else s
  s.retryHeld (1 - k)

/-- EPOCH_COMMIT (R272): delayed until its conditions hold. An epoch that was discarded meanwhile ends it with EPOCH_DISCARDED. -/
def cmdEpochCommit (c : Cmd) (s : State) : Go × State :=
  let gone := (if c.delayed.isSome then Go.done .epochDiscarded [] else .refuse .epochUnknown 0)
  match s.epSlot (c.par 0 8) with
  | none => (gone, s)
  | some k =>
    if s.epState k = 3 then (.done .epochDiscarded [], s)
    else if s.epState k = 4 ∨ s.epState k = 5 then (gone, s)
    else match s.commitWait k with
      | some (w, e) => (.wait w e, s)
      | none => (.done .ok [s.now % 2 ^ 32, s.now / 2 ^ 32], s.commitSlot k)

def execEpochCommit (id : Nat) (s : State) : Host.Outcome State Fault Refusal := .next (s.attempt 0x0309 id cmdEpochCommit)

/-- EPOCH_COMMIT_INSTANT (R272): the conditions of a slot's waiting commit hold; it is the step-end's own, or a command's. -/
def execEpochCommitInstant (k : Nat) (s : State) : Host.Outcome State Fault Refusal :=
  if (s.epoch k).commit && s.epState k == 1 && (s.commitWait k).isNone then .next (s.commitSlot k)
  else match s.hcp.cmds.find? (fun c => c.opcode == 0x0309 && c.par 0 8 == s.epNum k && c.delayed.isSome) with
    | some c => if s.epState k = 1 then .next (s.attempt 0x0309 c.dseq cmdEpochCommit) else .next s
    | none => .next s

/-- EPOCH_DISCARD (R273). -/
def cmdEpochDiscard (c : Cmd) (s : State) : Go × State :=
  match s.epSlot (c.par 0 8) with
  | none => (.refuse .epochUnknown 0, s)
  | some k =>
    if s.epState k = 3 then (.done .ok [], s)
    else if s.epState k = 4 ∨ s.epState k = 5 then (.refuse .epochUnknown 0, s)
    else (.done .ok [], s.discardSlot k)

def execEpochDiscard (id : Nat) (s : State) : Host.Outcome State Fault Refusal := .next (s.attempt 0x030A id cmdEpochDiscard)

/-- EPOCH_DRAIN_COMPLETE (R271): a draining slot becomes FREE. -/
def execEpochDrainComplete (k : Nat) (s : State) : Host.Outcome State Fault Refusal :=
  .next (if s.epState k = 4 ∨ s.epState k = 5 then (s.freeSlot k).settleStop else s)

/-- Where events of a task go (R476). -/
def State.taskDest (s : State) (t : Task) : Option (Nat × Nat × Nat) :=
  match t.cmd, t.node with
  | some id, _ => s.cmdDest id
  | none, some (g, _) => s.cmdDest g
  | none, none => none

/-- EPOCH_STALL_LIMIT (R270): the oldest wait of a slot that has not yet been reported has lasted STALL_LIM µs; 0 disables. -/
def execEpochStallLimit (k : Nat) (s : State) : Host.Outcome State Fault Refusal :=
  let e := s.epoch k
  let lim := s.fld R.GLB_SPEC_CTL F.GLB_SPEC_CTL_STALL_LIM
  match e.waiting.find? (fun w => !w.reported) with
  | none => .next s
  | some w =>
    if lim = 0 then .next s
    else
      let s : State := { s with now := max s.now (w.since + 1000 * lim) }
      let s := (s.setEpoch k { e with waiting := e.waiting.replace w { w with reported := true } }).bump R.GLB_SPEC_STALLS
      let n := s.epNum k
      let s := s.note 0x0003 0 0 0 n 0
      .next (s.event .epochStalled 0 0 [n % 2 ^ 32, n / 2 ^ 32] ((s.tasks.find? (fun (p : Nat × Task) => p.2.epoch == k + 1)).bind (fun p => s.taskDest p.2)))

/-- A write of GLB_SPEC_CTL (R264): EN changes only with no task running and both slots FREE; the other fields are written. -/
def State.writeSpecCtl (s : State) (v : Word) : State :=
  let s := s.setFlds R.GLB_SPEC_CTL [(F.GLB_SPEC_CTL_DRAIN_SHARE, fget v F.GLB_SPEC_CTL_DRAIN_SHARE), (F.GLB_SPEC_CTL_STALL_LIM, fget v F.GLB_SPEC_CTL_STALL_LIM)]
  if s.tasks.isEmpty && s.epState 0 == 0 && s.epState 1 == 0 then s.setFld R.GLB_SPEC_CTL F.GLB_SPEC_CTL_EN (fget v F.GLB_SPEC_CTL_EN) else s

def execSpecCtlWrite (v : Word) (s : State) : Host.Outcome State Fault Refusal := .next (s.writeSpecCtl v)

end Sys2Proof.Machine
end

