-- ==== Sys2Proof/Machine/Collectives.lean ====
section
/-!
DEFINITION. The collectives engine (R387 to R401, R408 to R412): descriptors, start, readiness and paths, the ring, uneven all-to-all.
-/
namespace Sys2Proof.Machine

/-! Descriptors (R391, R392, R402). -/

def dOp (d : BitVec 1024) : Nat := hdrBits d 63 56
def dQueue (d : BitVec 1024) : Nat := hdrBits d 55 52
def dId (d : BitVec 1024) : Nat := hdrBits d 51 36
def dTable (d : BitVec 1024) : Nat := hdrBits d 35 33
def dFmt (d : BitVec 1024) : Nat := hdrBits d 32 29
def dToken (d : BitVec 1024) : Bool := Nat.ble 6 (dOp d)
def dMembers (d : BitVec 1024) : List Nat := (List.range 64).filter (fun m => (descAt d 8 8).testBit m)
def dBuckets (d : BitVec 1024) : Nat := descAt d 32 4
def dElems (d : BitVec 1024) : Nat := descAt d 36 4
def cStride (d : BitVec 1024) : Nat := descAt d 40 8
def dResult (d : BitVec 1024) : Nat := if dToken d then descAt d 88 8 else descAt d 72 8
def dNext (d : BitVec 1024) : Nat := if dToken d then descAt d 104 8 else descAt d 88 8

/-- Bytes of an element in a format: FP32, then 16-bit formats, then BYTES. -/
def fmtSize (f : Nat) : Nat := if f = 0 then 4 else if f = 4 then 1 else 2

/-- Bytes of an element of the results. -/
def dOutSize (d : BitVec 1024) : Nat := if hdrBits d 28 28 = 1 then 4 else fmtSize (dFmt d)

/-- Own logical number among the members, as its index (R387); none where this module is no member. -/
def State.memberIndex (s : State) (d : BitVec 1024) : Option Nat :=
  match s.logicalOf s.position with
  | some l => if (dMembers d).contains l then some ((dMembers d).filter (fun m => Nat.blt m l)).length else none
  | none => none

/-- The reserved fields and values that R391, R392 and R402 shut out. -/
def State.descBad (s : State) (d : BitVec 1024) : Bool :=
  let op := dOp d
  let common := op == 0 || Nat.blt 8 op || Nat.blt 4 (dTable d) || (s.memberIndex d).isNone || (dMembers d).any (fun m => (s.posOf m).isNone)
  if Nat.ble 6 op then
    common || dFmt d == 0 || Nat.blt 8 (dFmt d) || hdrBits d 27 26 == 3 || hdrBits d 24 23 != 0 || hdrBits d 21 0 != 0 || descAt d 112 16 != 0
      || Nat.blt 8388607 (descAt d 32 4) || descAt d 36 4 % 128 != 0 || descAt d 40 4 == 0 || Nat.blt 65535 (descAt d 40 4) || Nat.blt 16777215 (descAt d 44 4)
  else
    common || Nat.blt 4 (dFmt d) || hdrBits d 27 26 == 3 || hdrBits d 25 24 == 3 || hdrBits d 15 0 != 0 || descAt d 96 32 != 0
      || (dFmt d == 3 && hdrBits d 27 26 != 0) || (dFmt d == 4 && (op == 1 || op == 2 || hdrBits d 28 28 == 1))
      || (op != 5 && dBuckets d == 0) || (op != 5 && (Nat.blt 65535 (dBuckets d) || dElems d * fmtSize (dFmt d) % 128 != 0 || dElems d == 0 || cStride d % 512 != 0 || Nat.blt (cStride d) (512 + dElems d * fmtSize (dFmt d))))
      || (op != 5 && descAt d 64 8 != 0) || (op == 4 && !(dMembers d).contains (hdrBits d 21 16))

/-- The digest of a descriptor (R388, R389). -/
def collDigest (d : BitVec 1024) : Word :=
  let h := descAt d 0 8
  let clear := fun (h hi lo : Nat) => h - h / 2 ^ lo % 2 ^ (hi + 1 - lo) * 2 ^ lo
  let h := clear (clear (clear h 55 52) 35 33) 22 22
  let bytes := if dToken d then bytesLE 8 h ++ bytesLE 8 (descAt d 8 8) ++ bytesLE 4 (descAt d 36 4) ++ bytesLE 4 (descAt d 40 4) ++ bytesLE 4 (descAt d 44 4) ++ bytesLE 4 0
    else bytesLE 8 (clear h 25 24) ++ bytesLE 8 (descAt d 8 8) ++ bytesLE 4 (if dOp d = 5 then 0 else dBuckets d) ++ bytesLE 4 (dElems d) ++ bytesLE 8 0
  BitVec.ofNat 64 (digest8 bytes)

/-- The share of holder `i` of `n` items over `m` holders (R17): first and count. -/
def shareOf (n m i : Nat) : Nat × Nat := (i * (n / m) + min i (n % m), n / m + (if i < n % m then 1 else 0))

/-- Piece `i` of a bucket in quarter units (R394). -/
def pieceOf (d : BitVec 1024) (i : Nat) : Nat × Nat := shareOf (dElems d * fmtSize (dFmt d) / 128) (dMembers d).length i

/-- Byte offset and length of a piece in a source bucket and in a result bucket, payload included. -/
def srcPiece (d : BitVec 1024) (i : Nat) : Nat × Nat := let (a, n) := pieceOf d i; (512 + 128 * a, 128 * n)
def dstPiece (d : BitVec 1024) (i : Nat) : Nat × Nat :=
  let (a, n) := pieceOf d i
  (512 + 128 * a / fmtSize (dFmt d) * dOutSize d, 128 * n / fmtSize (dFmt d) * dOutSize d)

def srcBucket (d : BitVec 1024) (b : Nat) : Nat := descAt d 16 8 + b * cStride d
def dstBucket (d : BitVec 1024) (b : Nat) : Nat := descAt d 24 8 + b * cStride d

/-- The ranges an operation reads and writes, with whether it writes (R390). -/
def State.collRanges (s : State) (d : BitVec 1024) : List (Nat × Nat × Bool) :=
  let m := (dMembers d).length
  if dToken d then
    let t := descAt d 32 4
    let w := descAt d 36 4
    let c := descAt d 44 4
    let k := dFmt d
    let v := ((descAt d 40 4 + m - 1) / m * k + 63) / 64
    let e := (shareOf (descAt d 40 4) m ((s.memberIndex d).getD 0)).2
    let tok := if dOp d = 6 then (descAt d 16 8, t * w, false) else (descAt d 16 8, t * k * w, dOp d == 7)
    let rs := [tok, (descAt d 24 8, e * c * w, dOp d != 7), (descAt d 48 8, 2 * t * k, false), (descAt d 56 8, 4 * t * k, dOp d == 6),
      (descAt d 64 8, 4 * e * c, dOp d == 6), (dResult d, 64, true)] ++ (if dOp d = 6 then [(descAt d 72 8, 8 * e, true), (descAt d 80 8, 2 * m * v * 512, true)] else [])
    rs.filter (fun r => r.2.1 != 0)
  else if dOp d = 5 then
    let units := (List.range m).foldl (fun n j => n + s.jobLE (descAt d 64 8 + 4 * j) 4) 0
    ([(descAt d 16 8, units * 128, false), (descAt d 24 8, dBuckets d * 128, true), (descAt d 64 8, 4 * m, false), (descAt d 64 8 + 256, 4 * m, true), (dResult d, 64, true)]).filter (fun r => r.2.1 != 0)
  else
    let n := dBuckets d
    let span := fun (sz : Nat) => (n - 1) * cStride d + 512 + dElems d * sz
    let word := fun (a : Nat) => if a = 0 then [] else [(a, 8 * n, false)]
    [(descAt d 16 8, span (fmtSize (dFmt d)), false), (descAt d 24 8, span (dOutSize d), true), (dResult d, 64, true)] ++ word (descAt d 48 8) ++ word (descAt d 56 8)

/-! Running collectives. -/

def State.collAt (s : State) (q : Nat) : Option Coll := tfind s.coll.running q

def State.setColl (s : State) (q : Nat) (c : Coll) : State := { s with coll := { s.coll with running := tinsert s.coll.running q c } }

def State.modColl (s : State) (q : Nat) (f : Coll → Coll) : State := match s.collAt q with | some c => s.setColl q (f c) | none => s

/-- The collective has sent or received something (R411). -/
def State.active (s : State) (q : Nat) : State := s.modColl q (fun c => { c with last := s.now, stalled := false })

/-- A failed address: the record and the job fault (R390). -/
def State.collAddressFault (s : State) (q : Nat) : State :=
  match s.collAt q with
  | some c =>
    let s := s.ceErr 3 q (dId c.d)
    (s.endColl q .collAddress).raise 0x0602 6 q 0 (s.reg R.LNK_CE_ERR).toNat 0
  | none => s

/-- Send a message to a member by its index, with the bytes of its barges after the header barge (R387, R388). The member's own message takes no link. A member that the tables
do not reach ends the collective (R363). -/
def State.collSend (s : State) (q j kind addr : Nat) (header : Bool) (body : CollBody) (data : List Byte) : State :=
  match s.collAt q with
  | none => s
  | some c =>
    let m := (dMembers c.d).getD j 0
    match s.posOf m with
    | none => s
    | some pos =>
      let me := (s.memberIndex c.d).getD 0
      let s := { s with coll := { s.coll with sent := s.coll.sent ++ [(pos, ({ collId := dId c.d, digest := collDigest c.d, src := me, body := body } : CollMsg))] } }
      if pos = s.position then s.active q
      else if s.unreachable (dTable c.d) pos then (s.ceErr 4 q (dId c.d)).endColl q .collBadRoute
      else
        let hd := if header then (List.range 512).map (Config.headerByte s.pod.nextStream) else []
        let s := s.openStream pos addr kind (dId c.d) q 2 (dTable c.d) 0 (hd ++ data)
        (s.modColl q (fun c => { c with bytes := c.bytes + (if kind = 1 then 0 else data.length) })).active q

/-! The ring's arithmetic (R394, R395, R399). -/

/-- The elements of some bytes as FP32 codes, and whether a GRAD16 element passed the range (R395). -/
def decodeSet (fmt : Nat) (scale : Int) (bs : List Byte) : List Nat × Bool :=
  let n := natLE bs
  let k := bs.length / fmtSize fmt
  match fmt with
  | 0 => ((List.range k).map (fun i => elemAt n 32 i), false)
  | 1 => ((List.range k).map (fun i => (narrow fmtFp32 false none (fmtBf16.decode (elemAt n 16 i))).1), false)
  | 2 => ((List.range k).map (fun i => (narrow fmtFp32 false none (fmtFp16.decode (elemAt n 16 i))).1), false)
  | _ =>
    let xs := (List.range k).map (fun i => fmtFp16.decode (elemAt n 16 i))
    let cs := xs.map (fun x => (narrow fmtFp32 false none (x.scale scale)).1)
    (cs, (xs.zip cs).any (fun p => !p.1.isInf && (fmtFp32.decode p.2).isInf))

/-- FP32 codes encoded in a format, with the scale of GRAD16 and its overflow (R395, R59). -/
def encodeSet (fmt : Nat) (cs : List Nat) : Int × Bool × List Byte :=
  let xs := cs.map fmtFp32.decode
  match fmt with
  | 0 => (0, false, cs.flatMap (bytesLE 4))
  | 1 => (0, false, xs.flatMap (fun x => bytesLE 2 (narrow fmtBf16 false none x).1))
  | 2 => (0, false, xs.flatMap (fun x => bytesLE 2 (narrow fmtFp16 false none x).1))
  | _ =>
    if xs.any (fun x => x.isNan || x.isInf) then (0, true, xs.flatMap (fun x => bytesLE 2 (narrow fmtFp16 false none x).1))
    else match amaxLog xs with
      | none => (0, false, xs.flatMap (fun _ => bytesLE 2 0))
      | some a =>
        let sc := max (a - 14) (-125)
        (sc, false, xs.flatMap (fun x => bytesLE 2 (narrow fmtFp16 false none (x.scale (-sc))).1))

/-- One reduction: the received partial is the left operand (R392, R394). -/
def reduceCode (red a b : Nat) : Nat :=
  let x := fmtFp32.decode a
  let y := fmtFp32.decode b
  match red with
  | 0 => (arithTo fmtFp32 [x, y] (Num.add x y)).1
  | 1 => (arithTo fmtFp32 [x, y] (Num.pick true x y)).1
  | _ => (arithTo fmtFp32 [x, y] (Num.pick false x y)).1

/-- One level of the tree of R208. -/
def treeLevel : List Nat → List Nat
  | a :: b :: r => reduceCode 0 a b :: treeLevel r
  | r => r

/-- The sum of squares of a piece (R399): 16 lanes by FMA, then the tree. -/
def pieceSquares (cs : List Nat) : Half :=
  let lanes := (List.range 16).map (fun l => (cs.zipIdx.filter (fun p => p.2 % 16 == l)).foldl (fun acc p =>
    let x := fmtFp32.decode p.1
    let a := fmtFp32.decode acc
    (arithTo fmtFp32 [x, x, a] (Num.add (Num.mul x x) a)).1) 0)
  BitVec.ofNat 32 ((treeLevel (treeLevel (treeLevel (treeLevel lanes)))).headD 0)

/-- An empty share of a piece. -/
def emptyPart : Part := { scale := 0, ovf := false, empty := true, localSq := 0, redSq := 0, data := [] }

def emptyBkt : Bkt := { contrib := true, ovf := false, empty := false, localSq := 0, sqs := [], scales := [] }

def Coll.bkt (c : Coll) (b : Nat) : Bkt := (tfind c.bkts b).getD emptyBkt

def Coll.modBkt (c : Coll) (b : Nat) (f : Bkt → Bkt) : Coll := { c with bkts := tinsert c.bkts b (f (c.bkt b)) }

/-- The member's own values of a piece, as FP32 codes with overflow; none where it does not contribute (R398). -/
def State.ownValues (s : State) (c : Coll) (b i : Nat) : Option (List Nat × Bool) :=
  if (c.bkt b).contrib = false then none else
  let a := srcBucket c.d b
  let (o, n) := srcPiece c.d i
  let sc := sbyte (s.jobLE a 1)
  let (cs, v) := decodeSet (dFmt c.d) sc (s.jobLoad (a + o) n)
  some (cs, v || (s.jobLE (a + 1) 1).testBit 0)

/-- The member's SUMSQ of a bucket, for LOCAL_SQ (R399). -/
def State.ownSq (s : State) (c : Coll) (b i : Nat) : Half :=
  if i = 0 && hdrBits c.d 23 23 == 1 && (c.bkt b).contrib then BitVec.ofNat 32 (s.jobLE (srcBucket c.d b + 8) 4) else 0

/-- A member adds its values to a received partial: the values, none where nobody has contributed, with overflow and LOCAL_SQ. -/
def State.addOwn (s : State) (c : Coll) (b i : Nat) (left : Option Part) : Option (List Nat) × Bool × Half :=
  let own := s.ownValues c b i
  let lv := match left with
    | some p => if p.empty then none else some (decodeSet (dFmt c.d) p.scale p.data)
    | none => none
  let sq := match left with | some p => (if i = 0 then fadd32 p.localSq (s.ownSq c b i) else 0) | none => s.ownSq c b i
  let ov := (match left with | some p => p.ovf | none => false)
  match lv, own with
  | some (l, v), some (r, w) => (some ((l.zip r).map (fun p => reduceCode (hdrBits c.d 27 26) p.1 p.2)), ov || v || w, sq)
  | some (l, v), none => (some l, ov || v, sq)
  | none, some (r, w) => (some r, ov || w, sq)
  | none, none => (none, ov, sq)

/-- A partial in its format for the next hop. -/
def hopPart (d : BitVec 1024) (v : Option (List Nat) × Bool × Half) : Part :=
  match v.1 with
  | none => { emptyPart with ovf := v.2.1, localSq := v.2.2 }
  | some cs => let (sc, o, bs) := encodeSet (dFmt d) cs; { scale := sc, ovf := v.2.1 || o, empty := false, localSq := v.2.2, redSq := 0, data := bs }

/-- What an operation writes of a result piece. -/
def State.writePiece (s : State) (c : Coll) (b i : Nat) (bs : List Byte) : State :=
  let (o, n) := dstPiece c.d i
  s.jobStore (dstBucket c.d b + o) (if bs = [] then List.replicate n 0 else bs)

/-- A result piece is known: its overflow, emptiness, square, scale and LOCAL_SQ go into its bucket. -/
def Coll.notePiece (c : Coll) (b i : Nat) (p : Part) : Coll :=
  c.modBkt b (fun k => { k with ovf := k.ovf || p.ovf, empty := k.empty || p.empty, localSq := if i = 0 then p.localSq else k.localSq,
                                sqs := tinsert k.sqs i p.redSq, scales := tinsert k.scales i p.scale })

/-- The header of a result bucket (R396). -/
def resultHeader (d : BitVec 1024) (k : Bkt) : List Byte :=
  let head := bytesLE 1 0 ++ bytesLE 1 ((if k.ovf then 1 else 0) + (if k.empty then 2 else 0)) ++ bytesLE 2 0 ++ bytesLE 4 (dElems d) ++ bytesLE 4 k.localSq.toNat ++ bytesLE 4 k.redSq.toNat ++ List.replicate 48 0
  head ++ (List.range 448).map (fun i => match tfind k.scales i with | some e => BitVec.ofInt 8 e | none => 0)

/-- The next member on the ring. -/
def nextOf (d : BitVec 1024) (i : Nat) : Nat := (i + 1) % (dMembers d).length

/-- Pieces that have quarter units. -/
def livePieces (d : BitVec 1024) : List Nat := (List.range (dMembers d).length).filter (fun i => (pieceOf d i).2 != 0)

/-- Messages a member receives for each bucket (R393, R394). -/
def Coll.wants (d : BitVec 1024) (me : Nat) : Nat :=
  let m := (dMembers d).length
  let ps := livePieces d
  if m ≤ 1 then 0 else
  let red := (ps.filter (fun i => (i + 1) % m != me)).length
  let gat := (ps.filter (fun i => i != me)).length
  match dOp d with
  | 1 => red + gat
  | 2 => red
  | 3 => gat
  | _ => if (dMembers d).getD me 0 = hdrBits d 21 16 then 0 else ps.length

/-- A bucket is complete: its result header is written, and it leaves its ring (R396). -/
def State.settleRings (s : State) (q : Nat) : State :=
  match s.collAt q with
  | none => s
  | some c =>
    let done := c.rings.filter (fun r => Nat.ble r.want r.got)
    let s := done.foldl (fun s r => (List.range r.len).foldl (fun s j => s.jobStore (dstBucket c.d (r.first + j)) (resultHeader c.d (c.bkt (r.first + j)))) s) s
    s.modColl q (fun c => { c with rings := c.rings.filter (fun r => !Nat.ble r.want r.got) })

/-- A stream of shares goes on to the next member. -/
def State.sendParts (s : State) (q : Nat) (me : Nat) (body : CollBody) (ps : List Part) : State :=
  match s.collAt q with
  | some c =>
    let data := ps.flatMap (fun p => p.data)
    let s := if data = [] then s.bump R.LNK_CE_EMPTY else s
    s.collSend q (nextOf c.d me) 0 0 true body data
  | none => s

/-- The holder of a piece has its results for some buckets: it writes them, and in ALL_REDUCE sends them round (R394, R398, R399). -/
def State.holdPiece (s : State) (q me i first : Nat) (vs : List (Option (List Nat) × Bool × Half)) : State :=
  match s.collAt q with
  | none => s
  | some c =>
    let fmt := if hdrBits c.d 28 28 = 1 then 0 else dFmt c.d
    let parts := vs.map (fun v => match v.1 with
      | none => { emptyPart with ovf := v.2.1, localSq := v.2.2 }
      | some cs =>
        let (sc, o, bs) := encodeSet fmt cs
        ({ scale := sc, ovf := v.2.1 || o, empty := false, localSq := v.2.2, redSq := if hdrBits c.d 23 23 = 1 then pieceSquares cs else 0, data := bs } : Part))
    let s := parts.zipIdx.foldl (fun s p => (s.writePiece c (first + p.2) i p.1.data).modColl q (fun c => c.notePiece (first + p.2) i p.1)) s
    if dOp c.d = 1 ∧ (dMembers c.d).length > 1 then s.sendParts q me (.gather first i parts) parts else s

/-- A group of buckets starts its ring pass (R394, R398, R400). -/
def State.startGroup (s : State) (q first len : Nat) (bucketed : Bool) : State :=
  match s.collAt q with
  | none => s
  | some c =>
    let me := (s.memberIndex c.d).getD 0
    let m := (dMembers c.d).length
    let cnt := descAt c.d 56 8
    let bs := (List.range len).map (fun j => first + j)
    let out := bs.filter (fun b => cnt != 0 && s.jobLE (cnt + 8 * b) 4 == 0)
    let c := bs.foldl (fun c b => c.modBkt b (fun k => { k with contrib := !out.contains b })) c
    let c := { c with started := first + len, suppressed := c.suppressed + out.length, groups := c.groups + (if bucketed then 1 else 0), usedBucketed := c.usedBucketed || bucketed, due := false, readySince := s.now,
                      rings := c.rings ++ [{ first := first, len := len, got := 0, want := len * Coll.wants c.d me }], last := s.now }
    let s := (s.setColl q c).bump R.LNK_CE_SUPPRESSED out.length
    let s := s.bump (if bucketed then R.LNK_CE_BUCKETED else R.LNK_CE_STREAMED) len
    let raw := fun (b i : Nat) => ({ scale := if dFmt c.d = 3 then sbyte (s.jobLE (srcBucket c.d b) 1) else 0, ovf := (s.jobLE (srcBucket c.d b + 1) 1).testBit 0, empty := false, localSq := 0, redSq := 0,
                                     data := s.jobLoad (srcBucket c.d b + (srcPiece c.d i).1) (srcPiece c.d i).2 } : Part)
    let gathered := fun (b i : Nat) =>
      let p := raw b i
      let x := decodeSet (dFmt c.d) p.scale p.data
      if hdrBits c.d 28 28 = 1 then ({ p with scale := 0, ovf := p.ovf || x.2, data := (encodeSet 0 x.1).2.2 } : Part) else p
    let put := fun (s : State) (i : Nat) => bs.foldl (fun s b => (s.writePiece c b i (gathered b i).data).modColl q (fun c => c.notePiece b i (gathered b i))) s
    let s := match dOp c.d with
      | 3 =>
        if (pieceOf c.d me).2 = 0 then s
        else (let s := put s me; if m > 1 then s.sendParts q me (.gather first me (bs.map (fun b => gathered b me))) (bs.map (fun b => gathered b me)) else s)
      | 4 =>
        if (dMembers c.d).getD me 0 ≠ hdrBits c.d 21 16 then s
        else (livePieces c.d).foldl (fun s i => let s := put s i; if m > 1 then s.sendParts q me (.gather first i (bs.map (fun b => gathered b i))) (bs.map (fun b => gathered b i)) else s) s
      | _ =>
        if m = 1 then s.holdPiece q me 0 first (bs.map (fun b => s.addOwn c b 0 none))
        else ((livePieces c.d).filter (fun i => (i + 1) % m == me)).foldl (fun s i => let ps := bs.map (fun b => hopPart c.d (s.addOwn c b i none)); s.sendParts q me (.reduce first i ps) ps) s
    s.settleRings q

/-! Start (R388, R390). -/

/-- Lantern checks the addresses of a collective before it moves data: a fault ends it, an absent page makes it wait, for its migration or reported once (R262, R390). -/
def State.collReady (s : State) (q : Nat) : State :=
  match s.collAt q with
  | none => s
  | some c =>
    match s.placeAll s.job.root (s.collRanges c.d) with
    | .bad => s.collAddressFault q
    | .absent va migr =>
      if c.pageWait = some va ∧ c.pageMigr = migr then s
      else
        let s := s.setColl q { c with pageWait := some va, pageAt := s.now, pageMigr := migr }
        if migr then s else s.pageFault c.dst va 0 0xFFFF
    | .at_ _ =>
      let c := { c with pageWait := none, ready := if dToken c.d || descAt c.d 48 8 == 0 then dBuckets c.d else 0, readySince := s.now, lastPoll := s.now }
      s.setColl q c

/-- A collective takes its engine queue. -/
def State.beginColl (s : State) (q : Nat) (w : CollWait) : State :=
  let d := w.desc.getD (BitVec.ofNat 1024 (s.jobLE w.addr 128))
  let c : Coll := {
    addr := w.addr, d := d, cmd := w.cmd, node := w.node, dst := w.dst, step := w.step, tStart := s.now, status := .ok, pageWait := none,
    bucketed := hdrBits d 25 24 == 2 && !dToken d, fixed := false, switched := false, usedBucketed := false, ready := 0, started := 0, readySince := s.now, lastPoll := s.now, due := false,
    rings := [], bkts := [], bytes := 0, groups := 0, suppressed := 0, last := s.now, stalled := false, counts := [], replies := [], bad := false, excess := false, badToken := 0, badRank := 0,
    placed := false, payload := false, units := [], accepted := [], landed := [], padded := [], blocks := [], a := 0, b := 0, recv := 0, maxOff := 0 }
  ((s.setColl q c).bump R.LNK_CE_STARTED).showEngine

/-- The collective of a queue, where its addresses are ready. -/
def State.going (s : State) (q : Nat) : Option Coll :=
  match s.collAt q with
  | some c => if c.pageWait.isNone then some c else none
  | none => none

/-- The first of a queue's waiting collectives takes it. A descriptor that R392 or R402 shuts out ends with COLL_ADDRESS where no command can refuse it. -/
def State.startNext (s : State) (q : Nat) : State :=
  match s.collAt q, (tfind s.coll.waiting q).getD [] with
  | none, w :: r =>
    let s : State := { s with coll := { s.coll with waiting := tinsert s.coll.waiting q r } }
    let s := s.beginColl q w
    (match s.collAt q with
     | some c => if s.descBad c.d then s.endColl q .collAddress else s.collReady q
     | none => s)
  | _, _ => s

/-- Put a collective on its queue; it starts at once where the queue is idle (R388). -/
def State.queueColl (s : State) (q : Nat) (w : CollWait) : State :=
  ({ s with coll := { s.coll with waiting := tinsert s.coll.waiting q ((tfind s.coll.waiting q).getD [] ++ [w]) } }).startNext q

/-- COLLECTIVE (R388, R490): a descriptor that is reserved or out of range is refused. -/
def cmdCollective (c : Cmd) (s : State) : Go × State :=
  let d := BitVec.ofNat 1024 (s.jobLE (c.par 0 8) 128)
  if s.descBad d then (.refuse .badParam 0, s)
  else (.run 0, s.queueColl (dQueue d) { addr := c.par 0 8, desc := none, cmd := some c.dseq, node := none, dst := s.cmdDest c.dseq, step := false })

end Sys2Proof.Machine
end

