-- ==== Sys2Proof/Machine/StepEnd.lean ====
section
/-!
DEFINITION. The step-end (R418 to R430): its vector, its collective, its decision and what follows.
-/
namespace Sys2Proof.Machine

/-- What R422 refuses: a reserved field, too long a list, an address misaligned or outside the windows. -/
def State.stepBad (s : State) (d : BitVec 1024) : Bool :=
  let word := fun (o n al : Nat) => descAt d o 8 % al == 0 && inWindow (s.windowOf (descAt d o 8)) (descAt d o 8) n
  hdrBits d 63 56 != 0 || hdrBits d 33 0 != 0 || descAt d 34 2 != 0 || descAt d 68 60 != 0 || Nat.blt 256 (descAt d 32 2)
    || (descAt d 32 2 != 0 && !word 24 (8 * descAt d 32 2) 8) || (descAt d 40 8 != 0 && !word 40 16 16) || !(word 48 4096 4096 && isTower (descAt d 48 8)) || !word 56 64 64

/-- FP32 of an integer. -/
def fpInt (n : Int) : Nat := (arithTo fmtFp32 [] (.fin (decide (n < 0)) n.natAbs 0)).1

/-- Entries of the result list, with their block addresses. -/
def State.stepList (s : State) (d : BitVec 1024) : List (Bool × Nat) :=
  (List.range (descAt d 32 2)).map (fun i => let e := s.jobLE (descAt d 24 8 + 8 * i) 8; (e.testBit 63, e % 2 ^ 48))

/-- GSQ (R419). -/
def State.gsq (s : State) (d : BitVec 1024) : Half :=
  let v := (s.stepList d).foldl (fun (v : Half) e =>
    if e.1 then fadd32 (fadd32 v (BitVec.ofNat 32 (s.jobLE (e.2 + 24) 4))) (BitVec.ofNat 32 (s.jobLE (e.2 + 28) 4)) else v) 0
  if descAt d 40 8 = 0 then v else fadd32 v (BitVec.ofNat 32 (s.jobLE (descAt d 40 8) 4))

/-- Whether this member saw an overflow (R420). -/
def State.stepOvf (s : State) (d : BitVec 1024) : Bool :=
  s.fld R.GLB_STEP_LATCH F.GLB_STEP_LATCH_OVF == 1 || (s.stepList d).any (fun e => (s.jobLE (e.2 + 2) 2).testBit 0)
    || (descAt d 40 8 != 0 && s.jobLE (descAt d 40 8 + 4) 4 != 0)

/-- EXP of GLB_LS_STATE. -/
def State.lsExp (s : State) : Int := sbyte (s.fld R.GLB_LS_STATE F.GLB_LS_STATE_EXP)
def State.lsClean (s : State) : Nat := s.fld R.GLB_LS_STATE F.GLB_LS_STATE_CLEAN
def State.steps (s : State) : Nat := (s.reg R.GLB_STEPS).toNat

/-- The step vector of this member (R418). -/
def State.stepVector (s : State) (d : BitVec 1024) : List Nat :=
  [(s.gsq d).toNat, fpInt (if s.stepOvf d then 1 else 0), fpInt 1, fpInt (s.lsExp + 128), fpInt s.lsClean, fpInt (s.steps % 65536 : Nat)] ++ List.replicate 26 0

/-- The ALL_REDUCE descriptor of a step-end (R424). -/
def stepColl (d : BitVec 1024) : BitVec 1024 :=
  let vec := descAt d 48 8
  let hdr := 2 ^ 56 + hdrBits d 55 52 * 2 ^ 52 + hdrBits d 51 36 * 2 ^ 36 + 4 * 2 ^ 33 + 2 ^ 24
  BitVec.ofNat 1024 (hdr + descAt d 8 8 * 2 ^ 64 + vec * 2 ^ 128 + (vec + 0x400) * 2 ^ 192 + 2 ^ 256 + 32 * 2 ^ 288 + 0x400 * 2 ^ 320 + (vec + 0x800) * 2 ^ 576)

/-- Steps 1 and 2 of a step-end (R423): the capture, the source bucket, the collective. -/
def State.stepBegin (s : State) (d : BitVec 1024) (cmd : Option Nat) (node : Option (Nat × Nat)) (dst : Option (Nat × Nat × Nat)) : State :=
  let v := s.stepVector d
  let x : StepEnd := { cmd := cmd, node := node, d := d, exp := s.lsExp, clean := s.lsClean, steps := s.steps, tCapture := s.now }
  let s : State := { s with stepEnd := some x }.setReg R.GLB_STEP_LATCH 0
  let s := s.jobStore (descAt d 48 8) (bytesLE 4 0 ++ bytesLE 4 32 ++ List.replicate 504 0 ++ v.flatMap (bytesLE 4))
  s.queueColl (hdrBits d 55 52) { addr := 0, desc := some (stepColl d), cmd := none, node := none, dst := dst, step := true }

/-- STEP_END (R422, R430). -/
def cmdStepEnd (c : Cmd) (s : State) : Go × State :=
  let d := BitVec.ofNat 1024 (s.jobLE (c.par 0 8) 128)
  if s.stepBad d ∨ c.par 0 8 % 64 ≠ 0 ∨ s.descBad (stepColl d) then (.refuse .badParam 0, s)
  else if s.stepEnd.isSome then (.wait .waitStepEnd unknown, s)
  else (.run 0, s.stepBegin d (some c.dseq) none (s.cmdDest c.dseq))

def execStepEnd (id : Nat) (s : State) : Host.Outcome State Fault Refusal := .next (s.attempt 0x040B id cmdStepEnd)

/-! The decision (R425, R426). -/

/-- A decision: 0 CLEAN, 1 CLIP, 2 OVERFLOW, 3 MISMATCH; norm and κ as FP32 codes. -/
structure Decision where
  outcome : Nat
  norm : Nat
  kappa : Nat
  deriving DecidableEq, Repr

def fpOne : Nat := 0x3F800000

/-- R425, from the reduced vector, the captured state, the member count and MAXNORM. -/
def decideStep (v : List Nat) (exp : Int) (clean steplo m maxnorm : Nat) : Decision :=
  let x := fun (i : Nat) => fmtFp32.decode (v.getD i 0)
  let same := fun (i : Nat) (n : Int) => Num.eqv (x i) (.fin (decide (n < 0)) n.natAbs 0)
  if !(same 2 m && same 3 ((m : Int) * (exp + 128)) && same 4 (m * clean : Nat) && same 5 (m * steplo : Nat)) then ⟨3, 0, fpOne⟩
  else if !(same 1 0) || (x 0).isNan || (x 0).isInf then ⟨2, 0, fpOne⟩
  else
    let root := (arithTo fmtFp32 [] (Num.sqrt (x 0))).1
    let norm := (arithTo fmtFp32 [] ((fmtFp32.decode root).scale (-exp))).1
    let mx := fmtFp32.decode maxnorm
    if Num.lt (.fin false 0 0) mx && Num.lt mx (fmtFp32.decode norm) then ⟨1, norm, (arithTo fmtFp32 [] (Num.div mx (fmtFp32.decode norm))).1⟩
    else ⟨0, norm, fpOne⟩

/-- EXP and CLEAN after a step that was not an overflow (R426, R443). -/
def State.raiseScale (s : State) (exp : Int) (clean : Nat) : Int × Nat :=
  let iv := max 1 (s.fld R.GLB_LS_CTL F.GLB_LS_CTL_INTERVAL)
  if clean + 1 = iv then (min (exp + 1) (lsLimit (s.fld R.GLB_LS_CTL F.GLB_LS_CTL_MAX_EXP)), 0) else (exp, clean + 1)

/-- The state after a decision (R426): loss scale, counters, LOSS_SCALE_STUCK. -/
def State.stepState (s : State) (x : StepEnd) (o : Nat) : State :=
  match o with
  | 3 => s.bump R.GLB_STEP_MISMATCH
  | 2 =>
    let n := s.ovfRun + 1
    let e := max (x.exp - 1) (lsLimit (s.fld R.GLB_LS_CTL F.GLB_LS_CTL_MIN_EXP))
    let s := (s.setScale e 0 n s.steps).bump R.GLB_STEP_OVERFLOW
    let lim := s.fld R.GLB_LS_CTL F.GLB_LS_CTL_CONSEC_LIM
    if lim ≠ 0 ∧ n % lim = 0 then (s.note 0x0005 0 0 0 n 0).event .lossScaleStuck 0 0 [n] else s
  | _ =>
    let (e, c) := s.raiseScale x.exp x.clean
    (s.setScale e c 0 (x.steps + 1)).bump (if o = 0 then R.GLB_STEP_CLEAN else R.GLB_STEP_CLIP)

/-- The epoch after a decision (R423 step 5, R272, R273, R430): committed, its commit held until it may be, or discarded; whether it was held at all. -/
def State.stepEpoch (s : State) (d : BitVec 1024) (o : Nat) : Bool × State :=
  if hdrBits d 35 35 = 0 then (true, s) else
  match s.epSlot (descAt d 16 8) with
  | none => (false, s)
  | some k =>
    if s.epState k ≠ 1 ∧ s.epState k ≠ 2 then (false, s)
    else if o = 0 then (true, if (s.commitWait k).isNone then s.commitSlot k else s.setEpoch k { s.epoch k with commit := true })
    else (true, s.discardSlot k)

/-- Steps 3 to 6 of a step-end, when its collective has completed (R423 to R428). -/
def State.stepDecide (s : State) (x : StepEnd) : State :=
  let d := x.d
  let v := (List.range 32).map (fun i => s.jobLE (descAt d 48 8 + 0x400 + 512 + 4 * i) 4)
  let r := decideStep v x.exp x.clean (x.steps % 65536) (dMembers (stepColl d)).length (descAt d 36 4)
  let tDec := s.now
  let s := s.stepState x r.outcome
  let s : State := { s with jnl := { s.jnl with stepTime := tDec } }
  let (held, s) := s.stepEpoch d r.outcome
  let s := s.writeStepEntry
  let st : Status := if r.outcome = 3 then .stepMismatch else if held then .ok else .epochUnknown
  let en := (s.lsExp % 256).toNat
  let ovf := match fmtFp32.decode (v.getD 1 0) with | .fin _ m e => m * 2 ^ e.toNat / 2 ^ (-e).toNat | _ => 0
  let rec_ := stepRecord r.outcome (statusCode st) ovf (v.getD 0 0) r.norm r.kappa (x.exp % 256).toNat en s.lsClean s.steps (if hdrBits d 35 35 = 1 then descAt d 16 8 else 0) x.tCapture tDec
  let s := (s.jobStore (descAt d 56 8) rec_).addToCell (descAt d 64 4)
  let dst := match x.cmd, x.node with | some id, _ => s.cmdDest id | none, some (g, _) => s.cmdDest g | none, none => none
  let en32 := (s.lsExp % 2 ^ 32).toNat
  let s := if hdrBits d 34 34 = 1 then s.event .stepDecided 0 0 [r.outcome, r.kappa, en32] dst else s
  let s := { s with stepEnd := none }.ended x.cmd x.node st [r.outcome, r.kappa, en32]
  if r.outcome = 3 then s.raise 0x0004 0 0 0 (v.getD 2 0) (v.getD 3 0) else s

end Sys2Proof.Machine
end

