-- ==== Sys2Proof/Machine/Tokens.lean ====
section
/-!
DEFINITION. The token exchange (R402 to R407).
-/
namespace Sys2Proof.Machine

/-! The descriptor's fields (R402). -/

def tkK (d : BitVec 1024) : Nat := dFmt d
def tkFail (d : BitVec 1024) : Bool := hdrBits d 28 28 == 1
def tkPad (d : BitVec 1024) : Nat := hdrBits d 27 26
def tkTok (d : BitVec 1024) : Nat := descAt d 16 8
def tkEbuf (d : BitVec 1024) : Nat := descAt d 24 8
def tkT (d : BitVec 1024) : Nat := descAt d 32 4
def tkW (d : BitVec 1024) : Nat := descAt d 36 4
def tkE (d : BitVec 1024) : Nat := descAt d 40 4
def tkC (d : BitVec 1024) : Nat := descAt d 44 4
def tkRoute (d : BitVec 1024) : Nat := descAt d 48 8
def tkFate (d : BitVec 1024) : Nat := descAt d 56 8
def tkOrigin (d : BitVec 1024) : Nat := descAt d 64 8
def tkCntw (d : BitVec 1024) : Nat := descAt d 72 8
def tkWork (d : BitVec 1024) : Nat := descAt d 80 8
def tkCsig (d : BitVec 1024) : Nat := descAt d 96 4

def dM (d : BitVec 1024) : Nat := (dMembers d).length

/-- V: barges of a count vector. -/
def tkV (d : BitVec 1024) : Nat := ((tkE d + dM d - 1) / dM d * tkK d + 63) / 64

/-- First expert and number of experts of a member. -/
def tkOwn (d : BitVec 1024) (j : Nat) : Nat × Nat := shareOf (tkE d) (dM d) j

/-- The owner of an expert, with its local number. -/
def tkOwner (d : BitVec 1024) (x : Nat) : Nat × Nat :=
  let j := ((List.range (dM d)).find? (fun j => let (a, n) := tkOwn d j; Nat.ble a x && Nat.blt x (a + n))).getD 0
  (j, x - (tkOwn d j).1)

/-- Copies of a member in token order: token, rank, expert. -/
def State.copies (s : State) (d : BitVec 1024) : List (Nat × Nat × Nat) :=
  let k := tkK d
  (List.range (tkT d * k)).map (fun i => (i / k, i % k, s.jobLE (tkRoute d + 2 * i) 2))

/-- A dropped copy and a choice not made, in FATE. -/
def fateDropped : Nat := 0xFFFFFFFF
def fateNone : Nat := 0xFFFFFFFE

def State.fateAt (s : State) (d : BitVec 1024) (i : Nat) : Nat := s.jobLE (tkFate d + 4 * i) 4

def State.originAt (s : State) (d : BitVec 1024) (slot : Nat) : Nat := s.jobLE (tkOrigin d + 4 * slot) 4

/-- n[x][r] of a source (R403 step 1). -/
def countOf (cs : List (Nat × Nat × Nat)) (x r : Nat) : Nat := (cs.filter (fun c => c.2.1 == r && c.2.2 == x)).length

/-! DISPATCH: counts and placement (R403, R404). -/

/-- The count phase of a source (R403 steps 1 and 2): its counts to every owner, rank-major per expert, with the flag of a bad number. -/
def State.sendCounts (s : State) (q : Nat) (c : Coll) : State :=
  let d := c.d
  let cs := s.copies d
  let bad := cs.find? (fun x => Nat.ble (tkE d) x.2.2 && x.2.2 != 0xFFFF)
  let me := (s.memberIndex d).getD 0
  let s := s.setColl q { c with due := true, badToken := (bad.map (fun x => x.1)).getD 0, badRank := (bad.map (fun x => x.2.1)).getD 0, last := s.now }
  let s := match bad with | some _ => s.ceErr 4 q (dId d) | none => s
  (List.range (dM d)).foldl (fun s j =>
    let (a, n) := tkOwn d j
    let ns := (List.range n).flatMap (fun e => (List.range (tkK d)).map (fun r => countOf cs (a + e) r))
    let bs := ns.flatMap (bytesLE 4)
    s.collSend q j 1 (tkWork d + tkV d * 512 * me) false (.offers ns bad.isSome) (bs ++ List.replicate (tkV d * 512 - bs.length) 0)) s

/-- The counts a source offered to local expert `e` at rank `r`, in WORK. -/
def State.offered (s : State) (d : BitVec 1024) (src e r : Nat) : Nat := s.jobLE (tkWork d + tkV d * 512 * src + 4 * (e * tkK d + r)) 4

/-- The placement of an expert (R404): by rank, then by source, the number accepted and the base slot of each pair. -/
def placeByRank (cap : Nat) : List (Nat × Nat × Nat) → Nat → List (Nat × Nat × Nat × Nat)
  | [], _ => []
  | (r, src, n) :: t, b => let a := min n (cap - min cap b); (r, src, a, b) :: placeByRank cap t (b + a)

def State.placeExpert (s : State) (d : BitVec 1024) (e : Nat) : List (Nat × Nat × Nat × Nat) :=
  placeByRank (tkC d) ((List.range (tkK d)).flatMap (fun r => (List.range (dM d)).map (fun m => (r, m, s.offered d m e r)))) 0

/-- Write the count words and fire CSIG (R403 step 4). -/
def State.writeCounts (s : State) (c : Coll) : State :=
  (c.accepted.foldl (fun s (p : Nat × Nat) => s.jobStore (tkCntw c.d + 8 * p.1) (bytesLE 8 p.2)) s).addToCell (tkCsig c.d)

/-- TOKEN_COUNT_ARRIVAL (R403 step 2): the counts of a source are written to its place in WORK. -/
def State.takeCounts (s : State) (q src : Nat) (ns : List Nat) (bad : Bool) : State :=
  match s.going q with
  | none => s
  | some c =>
    if dOp c.d ≠ 6 ∨ c.counts.contains src then s else
    let bs := ns.flatMap (bytesLE 4)
    let s := s.jobStore (tkWork c.d + tkV c.d * 512 * src) (bs ++ List.replicate (tkV c.d * 512 - bs.length) 0)
    s.setColl q { c with counts := c.counts ++ [src], bad := c.bad || bad, last := s.now, stalled := false }

/-- TOKEN_PLACEMENT (R403 steps 3 and 4, R404): with all vectors held, the owner places copies and replies. A bad route flagged by any source ends the exchange before that. -/
def execTokenPlacement (q : Nat) (s : State) : Host.Outcome State Fault Refusal :=
  match s.going q with
  | none => .next s
  | some c =>
    let d := c.d
    if dOp d ≠ 6 ∨ c.placed ∨ c.counts.length ≠ dM d then .next s
    else if c.bad then .next ((s.setColl q { c with a := c.badToken, b := c.badRank }).endColl q .collBadRoute)
    else
      let me := (s.memberIndex d).getD 0
      let n := (tkOwn d me).2
      let pl := (List.range n).map (fun e => s.placeExpert d e)
      let total := fun (e : Nat) => (List.range (tkK d)).foldl (fun t r => (List.range (dM d)).foldl (fun t m => t + s.offered d m e r) t) 0
      let offers := (List.range n).map total
      let acc := pl.map (fun ps => ps.foldl (fun t p => t + p.2.2.1) 0)
      let most := offers.foldl max 0
      let excess := tkFail d && offers.any (fun t => Nat.blt (tkC d) t)
      let c := { c with placed := true, accepted := (List.range n).zip acc, recv := if excess then 0 else acc.foldl (· + ·) 0, maxOff := most, last := s.now }
      let s := s.setColl q c
      let s := if excess then s else s.bump R.LNK_CE_DROPPED (offers.foldl (· + ·) 0 - acc.foldl (· + ·) 0)
      let s := if excess then s else (List.range n).foldl (fun s e =>
        (List.range (tkC d - acc.getD e 0)).foldl (fun s i => s.jobStore (tkOrigin d + 4 * (e * tkC d + acc.getD e 0 + i)) (bytesLE 4 0xFFFFFFFF)) s) s
      let s := (List.range (dM d)).foldl (fun s j =>
        let ps := pl.flatMap (fun ps => (List.range (tkK d)).map (fun r => match ps.find? (fun p => p.1 == r && p.2.1 == j) with | some p => (p.2.2.1, p.2.2.2) | none => (0, 0)))
        let bs := ps.flatMap (fun p => bytesLE 4 p.1 ++ bytesLE 4 p.2)
        s.collSend q j 1 (tkWork d + tkV d * 512 * (dM d + me)) false (.places ps excess false) (bs ++ List.replicate (tkV d * 512 - bs.length) 0)) s
      .next (if tkFail d then s else s.writeCounts c)

/-- TOKEN_REPLY_ARRIVAL (R403 steps 3 and 4): an owner's answer is written to the second half of WORK. With the last of them the over-capacity flag ends the exchange, or under POLICY 1 the count words follow. -/
def State.takePlaces (s : State) (q src : Nat) (ps : List (Nat × Nat)) (excess : Bool) : State :=
  match s.going q with
  | none => s
  | some c =>
    if dOp c.d ≠ 6 ∨ c.replies.contains src then s else
    let bs := ps.flatMap (fun p => bytesLE 4 p.1 ++ bytesLE 4 p.2)
    let s := s.jobStore (tkWork c.d + tkV c.d * 512 * (dM c.d + src)) (bs ++ List.replicate (tkV c.d * 512 - bs.length) 0)
    let c := { c with replies := c.replies ++ [src], excess := c.excess || excess, last := s.now, stalled := false }
    let s := s.setColl q c
    if c.replies.length ≠ dM c.d then s
    else if c.excess then s.endColl q .collCapacityExceeded
    else if tkFail c.d then s.writeCounts c else s

/-! The payload (R405, R406). -/

/-- A run of consecutive slots: first slot, and for each its origin word and row. -/
structure Run where
  slot : Nat
  origins : List Nat
  rows : List Byte
  len : Nat
  deriving DecidableEq, Repr

/-- Copies cut into runs of consecutive slots. -/
def runsOf (xs : List (Nat × Nat × List Byte)) : List Run :=
  xs.foldl (fun rs x =>
    match rs.getLast? with
    | some r => if r.slot + r.len = x.1 then rs.dropLast ++ [⟨r.slot, r.origins ++ [x.2.1], r.rows ++ x.2.2, r.len + 1⟩] else rs ++ [⟨x.1, [x.2.1], x.2.2, 1⟩]
    | none => [⟨x.1, [x.2.1], x.2.2, 1⟩]) []

/-- The accepted count and base slot of this member's pair (x, r), in WORK. -/
def State.placeOf (s : State) (d : BitVec 1024) (x r : Nat) : Nat × Nat :=
  let (j, e) := tkOwner d x
  let a := tkWork d + tkV d * 512 * (dM d + j) + 8 * (e * tkK d + r)
  (s.jobLE a 4, s.jobLE (a + 4) 4)

/-- The slot of every copy, in token order (R405): the number of earlier copies of its pair counts up. -/
def State.slotsOf (s : State) (d : BitVec 1024) : List (Nat × Nat) → List (Nat × Nat × Nat) → List Nat
  | _, [] => []
  | used, (_, r, x) :: t =>
    if x = 0xFFFF then fateNone :: s.slotsOf d used t
    else
      let key := x * 8 + r
      let k := ((used.find? (fun (p : Nat × Nat) => p.1 == key)).map (fun p => p.2)).getD 0
      let (a, b) := s.placeOf d x r
      (if k < a then b + k else fateDropped) :: s.slotsOf d (tinsert used key (k + 1)) t

/-- One stream of origin words, which BYTES does not count, and one of rows, to the owner of an expert (R405). -/
def State.sendRun (s : State) (q : Nat) (d : BitVec 1024) (x : Nat) (r : Run) : State :=
  let (j, e) := tkOwner d x
  let s := match s.posOf ((dMembers d).getD j 0) with
    | some pos => if pos = s.position || r.origins == [] || s.unreachable (dTable d) pos then s
        else s.openStream pos (tkOrigin d + 4 * (e * tkC d + r.slot)) 2 (dId d) q 2 (dTable d) 0 (r.origins.flatMap (bytesLE 4))
    | none => s
  s.collSend q j 2 (tkEbuf d + (e * tkC d + r.slot) * tkW d) false (.run e r.slot r.origins r.rows) r.rows

/-- The runs of a source: by expert and rank, in token order. -/
def State.sendCopies (s : State) (q : Nat) (d : BitVec 1024) (cs : List (Nat × Nat × Nat)) (slots : List Nat) (origins : Bool) : State :=
  let me := (s.logicalOf s.position).getD 0
  let live := (cs.zip slots).filter (fun p => Nat.blt p.2 fateNone)
  let keys := (live.map (fun p => (p.1.2.2, p.1.2.1))).eraseDups
  keys.foldl (fun s k =>
    let mine := (live.filter (fun p => p.1.2.2 == k.1 && p.1.2.1 == k.2)).map (fun p =>
      let a := tkTok d + (if origins then p.1.1 else p.1.1 * tkK d + p.1.2.1) * tkW d
      (p.2, me * 2 ^ 26 + p.1.2.1 * 2 ^ 23 + p.1.1, s.jobLoad a (tkW d)))
    (runsOf mine).foldl (fun s r => s.sendRun q d k.1 (if origins then r else { r with origins := [] })) s) s

/-- TOKEN_PAYLOAD_START (R405): slots, FATE, runs. -/
def execTokenPayloadStart (q : Nat) (s : State) : Host.Outcome State Fault Refusal :=
  match s.going q with
  | none => .next s
  | some c =>
    let d := c.d
    if dOp d ≠ 6 ∨ c.payload ∨ c.replies.length ≠ dM d ∨ c.placed = false then .next s
    else
      let cs := s.copies d
      let slots := s.slotsOf d [] cs
      let s := slots.zipIdx.foldl (fun s p => s.jobStore (tkFate d + 4 * p.2) (bytesLE 4 p.1)) s
      let given := (slots.filter (fun x => Nat.blt x fateNone)).length
      let s := s.setColl q { c with payload := true, a := given, b := (slots.filter (fun x => x == fateDropped)).length, last := s.now }
      .next (s.sendCopies q d cs slots true)

/-- RETURN (R406): each owner sends its slots to their origins, by local expert and source; the source writes zero to dropped rows where ZERO_DROPPED asks for it. -/
def State.startReturn (s : State) (q : Nat) (c : Coll) : State :=
  let d := c.d
  let n := tkT d * tkK d
  let fates := (List.range n).map (s.fateAt d)
  let s := if hdrBits d 25 25 = 0 then s else fates.zipIdx.foldl (fun s p => if Nat.ble fateNone p.1 then s.jobStore (tkTok d + p.2 * tkW d) (List.replicate (tkW d) 0) else s) s
  let want := (fates.filter (fun x => Nat.blt x fateNone)).length
  let s := s.setColl q { c with payload := true, a := want, b := (fates.filter (fun x => x == fateDropped)).length, units := [(0, want)], last := s.now }
  let me := (s.memberIndex d).getD 0
  (List.range (tkOwn d me).2).foldl (fun s e =>
    let os := (List.range (tkC d)).map (fun i => (e * tkC d + i, s.originAt d (e * tkC d + i)))
    let os := os.filter (fun o => o.2 != 0xFFFFFFFF)
    (List.range (dM d)).foldl (fun s j =>
      let m := (dMembers d).getD j 0
      let mine := os.filter (fun o => o.2 / 2 ^ 26 == m)
      if mine = [] then s else
      let ks := mine.map (fun o => o.2 % 2 ^ 23 * tkK d + o.2 / 2 ^ 23 % 8)
      let rows := mine.flatMap (fun o => s.jobLoad (tkEbuf d + o.1 * tkW d) (tkW d))
      s.collSend q j 2 (tkTok d + ks.headD 0 * tkW d) false (.back ks rows) rows) s) s

/-- REDISPATCH (R406): each source sends its copy rows to the slots in FATE; an owner awaits a row for every ORIGIN word. -/
def State.startRedispatch (s : State) (q : Nat) (c : Coll) : State :=
  let d := c.d
  let cs := s.copies d
  let fates := (List.range cs.length).map (s.fateAt d)
  let me := (s.memberIndex d).getD 0
  let want := ((List.range ((tkOwn d me).2 * tkC d)).filter (fun i => s.originAt d i != 0xFFFFFFFF)).length
  let s := s.setColl q { c with payload := true, a := (fates.filter (fun x => Nat.blt x fateNone)).length, b := (fates.filter (fun x => x == fateDropped)).length, units := [(0, want)], recv := want, last := s.now }
  s.sendCopies q d cs fates false

/-- A run lands: its origin words and rows (R405, R406). -/
def State.takeRun (s : State) (q e slot : Nat) (origins : List Nat) (rows : List Byte) : State :=
  match s.going q with
  | none => s
  | some c =>
    let d := c.d
    let n := if tkW d = 0 then origins.length else rows.length / tkW d
    let s := if origins = [] then s else s.jobStore (tkOrigin d + 4 * (e * tkC d + slot)) (origins.flatMap (bytesLE 4))
    let s := s.jobStore (tkEbuf d + (e * tkC d + slot) * tkW d) rows
    let key := if dOp d = 6 then e else 0
    s.setColl q { c with landed := tinsert c.landed key ((tfind c.landed key).getD 0 + n), last := s.now, stalled := false }

/-- Rows come back to their copies (R406). -/
def State.takeBack (s : State) (q : Nat) (ks : List Nat) (rows : List Byte) : State :=
  match s.going q with
  | none => s
  | some c =>
    let w := tkW c.d
    let s := ks.zipIdx.foldl (fun s p => s.jobStore (tkTok c.d + p.1 * w) ((rows.drop (p.2 * w)).take w)) s
    s.setColl q { c with landed := tinsert c.landed 0 ((tfind c.landed 0).getD 0 + ks.length), last := s.now, stalled := false }

/-- Every row of a local expert has landed. -/
def Coll.expertLanded (c : Coll) (e : Nat) : Bool := (tfind c.landed e).getD 0 == (tfind c.accepted e).getD 0

/-- TOKEN_PADDING (R405): zero rows from an expert's count to the next multiple of 32, or to C. -/
def execTokenPadding (q e : Nat) (s : State) : Host.Outcome State Fault Refusal :=
  match s.going q with
  | none => .next s
  | some c =>
    let d := c.d
    if dOp d ≠ 6 ∨ tkPad d = 0 ∨ c.placed = false ∨ c.padded.contains e ∨ c.expertLanded e = false ∨ (tfind c.accepted e).isNone then .next s
    else
      let n := (tfind c.accepted e).getD 0
      let top := if tkPad d = 1 then (n + 31) / 32 * 32 else tkC d
      let s := (List.range (top - n)).foldl (fun s i => s.jobStore (tkEbuf d + (e * tkC d + n + i) * tkW d) (List.replicate (tkW d) 0)) s
      .next (s.setColl q { c with padded := c.padded ++ [e], last := s.now })

/-- A token exchange has done all its own work. -/
def Coll.tokensDone (c : Coll) : Bool :=
  if dOp c.d = 6 then c.payload && c.accepted.all (fun (p : Nat × Nat) => c.expertLanded p.1 && (tkPad c.d == 0 || c.padded.contains p.1))
  else c.payload && (tfind c.landed 0).getD 0 == (tfind c.units 0).getD 0

end Sys2Proof.Machine
end

