-- ==== Sys2Proof/Machine/CollRows.lean ====
section
/-!
DEFINITION. What the collectives engine does on its own: starts, polls, groups, arrivals, completions and stalls (R388 to R411).
-/
namespace Sys2Proof.Machine

/-! Start (R388, R390). -/

/-- The count phase of ALL_TO_ALLV: a member's count to every member (R401). -/
def State.sendUnits (s : State) (q : Nat) (c : Coll) : State :=
  let s := s.setColl q { c with due := true, last := s.now }
  (List.range (dM c.d)).foldl (fun s j => let n := s.jobLE (descAt c.d 64 8 + 4 * j) 4; s.collSend q j 1 0 false (.count n) (bytesLE 4 n ++ List.replicate 508 0)) s

/-- An exchange starts its first phase once its addresses are ready. -/
def State.startPhase (s : State) (q : Nat) : State :=
  match s.going q with
  | none => s
  | some c =>
    if c.due || c.payload then s else
    match dOp c.d with
    | 5 => s.sendUnits q c
    | 6 => s.sendCounts q c
    | 7 => s.startReturn q c
    | 8 => s.startRedispatch q c
    | _ => s

/-- COLLECTIVE (R388, R490). -/
def execCollective (id : Nat) (s : State) : Host.Outcome State Fault Refusal := .next (s.attempt 0x040A id cmdCollective)

/-- COLLECTIVE_START (R388, R390): the next collective of an idle queue takes it, or one that waited for a page tries again; an exchange starts its first phase. -/
def execCollectiveStart (q : Nat) (s : State) : Host.Outcome State Fault Refusal :=
  let s := match s.collAt q with
    | some c => if c.pageWait.isSome then s.collReady q else s
    | none => s.startNext q
  .next (s.startPhase q)

/-! Readiness and groups (R397, R400). -/

/-- READY_POLL (R397): the ready word of the lowest bucket not yet known ready. -/
def execReadyPoll (q : Nat) (s : State) : Host.Outcome State Fault Refusal :=
  match s.going q with
  | none => .next s
  | some c =>
    if dToken c.d || dOp c.d == 5 || descAt c.d 48 8 == 0 || Nat.ble (dBuckets c.d) c.ready then .next s
    else
      let s : State := { s with now := max s.now (c.lastPoll + max 50 (s.fld R.LNK_CE_CTL F.LNK_CE_CTL_POLL_NS)) }
      let hit := s.jobLE (descAt c.d 48 8 + 8 * c.ready) 4 == descAt c.d 80 4
      let c := { c with lastPoll := s.now }
      let c := if hit then { c with ready := c.ready + 1, readySince := if c.ready = c.started then s.now else c.readySince } else c
      .next ((s.setColl q c).bump R.LNK_CE_POLLS)

/-- BUCKET_START (R398, R400): the next bucket on the streamed path, at most 8 in flight; on the bucketed path a full group, or what is ready once the last bucket is. -/
def execBucketStart (q : Nat) (s : State) : Host.Outcome State Fault Refusal :=
  match s.going q with
  | none => .next s
  | some c =>
    let n := c.ready - c.started
    if dToken c.d || dOp c.d == 5 || n == 0 then .next s
    else if c.bucketed = false then .next (if c.rings.length < 8 then s.startGroup q c.started 1 false else s)
    else
      let k := max 1 (s.fld R.LNK_CE_CTL F.LNK_CE_CTL_COALESCE)
      .next (if k ≤ n then s.startGroup q c.started k true else if c.ready = dBuckets c.d then s.startGroup q c.started n true else s)

/-- COALESCE_TIMEOUT (R400): COALESCE_US since the first ready bucket of a group, which takes at most COALESCE buckets. -/
def execCoalesceTimeout (q : Nat) (s : State) : Host.Outcome State Fault Refusal :=
  match s.going q with
  | none => .next s
  | some c =>
    if dToken c.d || dOp c.d == 5 || c.bucketed == false || Nat.ble c.ready c.started then .next s
    else
      let s : State := { s with now := max s.now (c.readySince + 1000 * s.fld R.LNK_CE_CTL2 F.LNK_CE_CTL2_COALESCE_US) }
      .next (s.startGroup q c.started (min (max 1 (s.fld R.LNK_CE_CTL F.LNK_CE_CTL_COALESCE)) (c.ready - c.started)) true)

/-- CONGESTION_WINDOW (R400): a 100 µs window is complete, the last before now or the one that ends next; AUTO takes the bucketed path where the links of the collective's table waited for L2 credit in at
least CONG_PCT % of its frame times, and returns below half of that, unless a swap has occurred. -/
def execCongestionWindow (q : Nat) (s : State) : Host.Outcome State Fault Refusal :=
  match s.collAt q with
  | none => .next s
  | some c =>
    let w := max c.window (s.now / 100000 - 1)
    let s : State := { s with now := max s.now ((w + 1) * 100000) }
    let c := { c with window := w + 1 }
    let s := s.setColl q c
    let lim := min 100 (s.fld R.LNK_CE_CTL F.LNK_CE_CTL_CONG_PCT)
    let x := s.l2Share (dTable c.d) w
    if c.auto = false then .next s
    else if lim * x.2 ≤ 100 * x.1 then .next (s.setPath q c true c.fixed)
    else if 200 * x.1 < lim * x.2 ∧ c.fixed = false then .next (s.setPath q c false false)
    else .next s

/-! Arrivals (R388, R394, R401, R405). -/

/-- A message for the running collective of a queue: its digest is checked first (R388). One for a collective not yet started is held at its link, and changes nothing yet. -/
def State.onMessage (s : State) (q : Nat) (m : CollMsg) (f : Coll → State → State) : State :=
  match s.going q with
  | none => s
  | some c =>
    if m.collId ≠ dId c.d then s
    else if m.digest ≠ collDigest c.d then
      let s := s.ceErr 2 q (dId c.d)
      (s.endColl q .jobMismatch).raise 0x0602 6 q 0 (s.reg R.LNK_CE_ERR).toNat 0
    else f c s

/-- Shares of buckets that have arrived count in the rings they belong to. -/
def Coll.count (c : Coll) (first len : Nat) : Coll :=
  { c with rings := c.rings.map (fun r => { r with got := r.got + ((List.range len).filter (fun j => Nat.ble r.first (first + j) && Nat.blt (first + j) (r.first + r.len))).length }), stalled := false }

/-- A partial arrives (R394): this member adds its values, and holds the piece or sends it on. -/
def State.takeReduce (s : State) (q : Nat) (c : Coll) (first piece : Nat) (ps : List Part) : State :=
  if c.started < first + ps.length then s else
  let me := (s.memberIndex c.d).getD 0
  let vs := ps.zipIdx.map (fun p => s.addOwn c (first + p.2) piece (some p.1))
  let added := ps.zipIdx.foldl (fun n p => if p.1.empty || (c.bkt (first + p.2)).contrib == false then n else n + p.1.data.length) 0
  let s := (s.setColl q { c.count first ps.length with last := s.now }).bump R.LNK_CE_RED_BYTES added
  let s := if piece = me then s.holdPiece q me piece first vs
    else (let out := vs.map (hopPart c.d); s.sendParts q me (.reduce first piece out) out)
  s.settleRings q

/-- The member that started a piece of a gather on its way round: its holder, or the root (R393, R394). -/
def gatherFrom (d : BitVec 1024) (piece : Nat) : Nat := if dOp d = 4 then ((dMembers d).filter (fun m => Nat.blt m (hdrBits d 21 16))).length else piece

/-- A result arrives (R394): it is written, noted, and sent on unless the next member started it. -/
def State.takeGather (s : State) (q : Nat) (c : Coll) (first piece : Nat) (ps : List Part) : State :=
  if c.started < first + ps.length then s else
  let me := (s.memberIndex c.d).getD 0
  let s := s.setColl q { c.count first ps.length with last := s.now }
  let s := ps.zipIdx.foldl (fun s p => (s.writePiece c (first + p.2) piece p.1.data).modColl q (fun c => c.notePiece (first + p.2) piece p.1)) s
  let s := if nextOf c.d me = gatherFrom c.d piece then s else s.sendParts q me (.gather first piece ps) ps
  s.settleRings q

/-- A count arrives (R401): with all of them the received counts are written and the replies sent. -/
def State.takeUnits (s : State) (q : Nat) (c : Coll) (src n : Nat) : State :=
  if dOp c.d ≠ 5 ∨ (tfind c.units src).isSome then s else
  let c := { c with units := tinsert c.units src n, last := s.now, stalled := false }
  let s := s.setColl q c
  if c.units.length ≠ dM c.d then s else
  let s := c.units.foldl (fun s (p : Nat × Nat) => s.jobStore (descAt c.d 64 8 + 256 + 4 * p.1) (bytesLE 4 p.2)) s
  let excess := Nat.blt (dBuckets c.d) (c.units.foldl (fun t (p : Nat × Nat) => t + p.2) 0)
  (List.range (dM c.d)).foldl (fun s j => s.collSend q j 1 0 false (.reply excess) (bytesLE 4 (if excess then 1 else 0) ++ List.replicate 508 0)) s

/-- A reply arrives (R401): a failure flag ends the exchange; with the last good one the blocks are sent. -/
def State.takeReply (s : State) (q : Nat) (c : Coll) (src : Nat) (excess : Bool) : State :=
  if dOp c.d ≠ 5 ∨ c.replies.contains src then s else
  let c := { c with replies := c.replies ++ [src], excess := c.excess || excess, last := s.now, stalled := false }
  let s := s.setColl q c
  if c.replies.length ≠ dM c.d then s
  else if c.excess then s.endColl q .collCapacityExceeded
  else
    let s := s.setColl q { c with payload := true }
    let ns := (List.range (dM c.d)).map (fun j => s.jobLE (descAt c.d 64 8 + 4 * j) 4)
    (List.range (dM c.d)).foldl (fun s j =>
      let n := ns.getD j 0
      let bs := s.jobLoad (descAt c.d 16 8 + 128 * (ns.take j).foldl (· + ·) 0) (128 * n)
      if n = 0 then s else s.collSend q j 0 0 true (.block bs) bs) s

/-- A block arrives (R401): it follows those of lower sources. -/
def State.takeBlock (s : State) (q : Nat) (c : Coll) (src : Nat) (bs : List Byte) : State :=
  if dOp c.d ≠ 5 ∨ c.blocks.contains src then s else
  let before := c.units.foldl (fun t (p : Nat × Nat) => if p.1 < src then t + p.2 else t) 0
  (s.setColl q { c with blocks := c.blocks ++ [src], last := s.now, stalled := false }).jobStore (descAt c.d 24 8 + 128 * before) bs

/-- COLLECTIVE_PIECE_ARRIVAL (R388, R394, R401, R405, R406): a stream of a collective arrives with what it says. -/
def execCollectivePieceArrival (q : Nat) (m : CollMsg) (s : State) : Host.Outcome State Fault Refusal :=
  .next (s.onMessage q m (fun c s =>
    match m.body with
    | .reduce first piece ps => s.takeReduce q c first piece ps
    | .gather first piece ps => s.takeGather q c first piece ps
    | .count n => s.takeUnits q c m.src n
    | .reply excess => s.takeReply q c m.src excess
    | .block bs => s.takeBlock q c m.src bs
    | .run e slot os rows => s.takeRun q e slot os rows
    | .back ks rows => s.takeBack q ks rows
    | _ => s))

/-- TOKEN_COUNT_ARRIVAL (R403). -/
def execTokenCountArrival (q : Nat) (m : CollMsg) (s : State) : Host.Outcome State Fault Refusal :=
  .next (s.onMessage q m (fun _ s => match m.body with | .offers ns bad => s.takeCounts q m.src ns bad | _ => s))

/-- TOKEN_REPLY_ARRIVAL (R403). -/
def execTokenReplyArrival (q : Nat) (m : CollMsg) (s : State) : Host.Outcome State Fault Refusal :=
  .next (s.onMessage q m (fun _ s => match m.body with | .places ps excess _ => s.takePlaces q m.src ps excess | _ => s))

/-! Completion and stalls (R408 to R411). -/

/-- A member's own work is done: every bucket, block or run (R409). -/
def Coll.workDone (c : Coll) : Bool :=
  match dOp c.d with
  | 5 => c.payload && c.units.all (fun (p : Nat × Nat) => p.2 == 0 || c.blocks.contains p.1)
  | 6 => c.tokensDone
  | 7 => c.tokensDone
  | 8 => c.tokensDone
  | _ => c.started == dBuckets c.d && c.rings.isEmpty

/-- No stream that a queue originated is still open. -/
def State.streamsDone (s : State) (q : Nat) : Bool := s.pod.streams.all (fun (p : Nat × Stream) => !(Nat.ble p.2.kind 2 && p.2.owner == q))

/-- COLLECTIVE_COMPLETION (R409): all work done and every stream acknowledged; a step-end decides on its collective; the successor starts. -/
def execCollectiveCompletion (q : Nat) (s : State) : Host.Outcome State Fault Refusal :=
  match s.going q with
  | none => .next s
  | some c =>
    if c.workDone && s.streamsDone q then
      let st : Status := if dOp c.d = 6 ∧ c.b ≠ 0 then .copiesDropped else .ok
      let s := s.endColl q st
      let s := match c.step, s.stepEnd with | true, some x => s.stepDecide x | _, _ => s
      if dNext c.d = 0 ∨ (s.collAt q).isSome then .next s
      else
        let w : CollWait := { addr := dNext c.d, desc := none, cmd := none, node := none, dst := c.dst, step := false }
        .next ((({ s with coll := { s.coll with waiting := tinsert s.coll.waiting q (w :: (tfind s.coll.waiting q).getD []) } }).startNext q).startPhase q)
    else .next s

/-- COLLECTIVE_STALL (R411): nothing sent or received for STALL_MS; 0 disables. -/
def execCollectiveStall (q : Nat) (s : State) : Host.Outcome State Fault Refusal :=
  let ms := s.fld R.LNK_CE_CTL2 F.LNK_CE_CTL2_STALL_MS
  match s.collAt q with
  | none => .next s
  | some c =>
    if ms = 0 ∨ c.stalled then .next s
    else
      let s : State := { s with now := max s.now (c.last + 1000000 * ms) }
      let s := (s.setColl q { c with stalled := true }).ceErr 1 q (dId c.d)
      let s := (s.note 0x0601 0 6 q (s.reg R.LNK_CE_ERR).toNat 0).bump R.LNK_CE_STALLS
      .next (s.event .collStall 6 q [0, dId c.d, q] c.dst)

end Sys2Proof.Machine
end

