-- ==== Sys2Proof/Machine/Graphs.lean ====
section
/-!
DEFINITION. Task graphs: their check at submission (R172, R488, R489), predicates (R167 to R171, R632) and the start of nodes.
-/
namespace Sys2Proof.Machine

/-! Launch parameters (R482, R486). -/

/-- The address range of a parameter lies in one window; an empty one needs only its start there. -/
def State.rangeOk (s : State) (a n : Nat) : Bool := inWindow (s.windowOf a) a (max 1 n)

/-- The offset of the first launch parameter out of its range; none where all are in range. -/
def State.launchBad (s : State) (b : LaunchBlk) : Option Nat :=
  let n := blkAt b 294 2
  let cells := blkAt b 296 8
  let bad := fun (o : Nat) => match o with
    | 0 => !s.programs.any (fun p => p.handle == BitVec.ofNat 64 (blkAt b 0 8))
    | 16 => (gangOf b).isEmpty
    | 268 => blkAt b 268 1 / 8 != 0
    | 269 => blkAt b 269 3 != 0
    | 276 => blkAt b 276 4 != 0
    | 294 => Nat.blt 48 n
    | 296 => n != 0 && (!s.rangeOk cells (16 * n) || (List.range n).any (fun i => s.retired (cells + 16 * i)) || (s.cellEntries cells n).isNone)
    | 304 => blkAt b 304 8 % 4096 != 0 || !isTower (blkAt b 304 8)
    | 312 => !s.rangeOk (blkAt b 312 8) 1
    | 320 => blkAt b 320 8 != 0 && !s.rangeOk (blkAt b 320 8) (64 * blkAt b 328 4)
    | _ => blkAt b 332 116 != 0
  [0, 16, 268, 269, 276, 294, 296, 304, 312, 320, 332].find? bad

/-! Submission (R172, R488, R489). -/

/-- A node of the array at `a`. -/
def State.readNode (s : State) (a k : Nat) : GNode :=
  let o := a + 128 * k
  { kind := s.loadLE (o + 32) 1, comp := (s.loadLE (o + 33) 1).testBit 0, preds := (List.range (min 8 (s.loadLE (o + 34) 2))).map (fun i => s.loadLE (o + 36 + 2 * i) 2),
    pred := BitVec.ofNat 256 (s.loadLE o 32), args := s.loadLE (o + 56) 8, st := .wait, asked := false }

/-- Bits of a predicate record (R168). -/
def predBits (p : BitVec 256) (lo n : Nat) : Nat := p.toNat / 2 ^ lo % 2 ^ n
def predOp (p : BitVec 256) : Nat := predBits p 48 4
def predRef (p : BitVec 256) : Nat := predBits p 112 16
def predAddr (p : BitVec 256) : Nat := predBits p 0 48

/-- What R488 and R489 find wrong with node `k`, given the ancestors of the nodes before it. -/
def State.nodeBad (s : State) (a k : Nat) (anc : List (List Nat)) : Bool :=
  let o := a + 128 * k
  let n := s.readNode a k
  let op := predOp n.pred
  let mine := n.preds ++ n.preds.flatMap (fun p => anc.getD p [])
  n.preds.any (fun p => Nat.ble k p) || Nat.blt 8 (s.loadLE (o + 34) 2) || Nat.blt 4 n.kind || Nat.ble 2 (s.loadLE (o + 33) 1) || s.loadLE (o + 52) 4 != 0
    || s.loadLE (o + 64) 64 != 0 || (Nat.ble 3 n.kind && n.args != 0)
    || predBits n.pred 53 59 != 0 || op == 5 || Nat.ble 8 op
    || predAddr n.pred % 8 != 0 || !(isTower (predAddr n.pred) || s.isFar (predAddr n.pred))
    || (Nat.ble 6 op && !mine.contains (predRef n.pred))

/-- The first offending node. -/
def State.graphFaultFrom (s : State) (a : Nat) : Nat → Nat → List (List Nat) → Option Nat
  | 0, _, _ => none
  | n + 1, k, anc =>
    if s.nodeBad a k anc then some k
    else
      let ps := (s.readNode a k).preds
      s.graphFaultFrom a n (k + 1) (anc ++ [(ps ++ ps.flatMap (fun p => anc.getD p [])).eraseDups])

def State.graphFault (s : State) (a n : Nat) : Option Nat := s.graphFaultFrom a n 0 []

/-- The nodes are read at admission (R489). -/
def State.admitGraph (s : State) (id a n : Nat) : State :=
  s.setGraph id ({ nodes := (List.range n).map (s.readNode a), elig := [], failed := none } : Graph).refresh

/-- GRAPH_SUBMIT (R485, R489). -/
def cmdGraphSubmit (_ : Cmd) (s : State) : Go × State := (.run 0, s)

def execGraphSubmit (id : Nat) (s : State) : Host.Outcome State Fault Refusal := .next (s.attempt 0x0304 id cmdGraphSubmit)

/-! Predicates (R167 to R171). -/

/-- Two's complement of a 64-bit number. -/
def signed64 (v : Nat) : Int := (BitVec.ofNat 64 v).toInt

/-- A predicate that reads W (R169). -/
def wordHolds (p : BitVec 256) (w : Nat) : Bool :=
  let x := w &&& predBits p 128 64
  let v := predBits p 192 64
  let lt := if predBits p 52 1 = 1 then decide (signed64 x < signed64 v) else Nat.blt x v
  match predOp p with
  | 1 => x == v
  | 2 => x != v
  | 3 => lt
  | _ => !lt

/-- The root through which a node's task reads, and its epoch's slot plus one (R632). -/
def State.nodeView (s : State) (n : GNode) : Nat × Nat :=
  if n.kind ≠ 0 then (s.job.root, 0)
  else
    let b : LaunchBlk := BitVec.ofNat 3584 (s.loadLE n.args 448)
    let root := if blkAt b 304 8 = 0 then s.job.root else blkAt b 304 8
    (root, if blkAt b 256 8 = 0 then 0 else match s.epSlot (blkAt b 256 8) with | some k => k + 1 | none => 0)

/-- Where the command of a graph sends events. -/
def State.graphDest (s : State) (g : Nat) : Option (Nat × Nat × Nat) := s.cmdDest g

/-- Start the work of a node; one that cannot start yet stays ready. -/
def State.startNode (s : State) (g k : Nat) (n : GNode) (x : Graph) : State :=
  let running := s.setGraph g (x.setNode k .running)
  let ready := s.setGraph g (x.setNode k .ready)
  match n.kind with
  | 0 =>
    let b : LaunchBlk := BitVec.ofNat 3584 (s.loadLE n.args 448)
    (match s.launchBad b with
     | some o => running.nodeDone g k .badParam [o]
     | none =>
       let c := s.cmd? g
       let h := match c with | some c => handleOf c.queue c.seq (some k) | none => 0
       let cells := (s.cellEntries (blkAt b 296 8) (blkAt b 294 2)).getD []
       match running.launch b h none (some (g, k)) cells with
       | (.run _, t) => t
       | (.wait _ _, _) => ready
       | (.refuse st r0, t) => t.nodeDone g k st [r0]
       | (.done st r, t) => t.nodeDone g k st r)
  | 1 =>
    let d := BitVec.ofNat 1024 (s.jobLE n.args 128)
    if s.descBad d then running.nodeDone g k .collAddress []
    else (running.queueColl (dQueue d) { addr := n.args, desc := none, cmd := none, node := some (g, k), dst := s.graphDest g, step := false }).startPhase (dQueue d)
  | 2 =>
    let d := BitVec.ofNat 1024 (s.jobLE n.args 128)
    if s.stepBad d || n.args % 64 != 0 || s.descBad (stepColl d) then running.nodeDone g k .badParam []
    else if s.stepEnd.isSome then ready
    else running.stepBegin d none (some (g, k)) (s.graphDest g)
  | 3 => running
  | _ => running.nodeDone g k .ok []

/-- An entry of the graph waits for its queue's hold (R468). -/
def State.entryWaits (s : State) (g : Nat) : Bool :=
  match s.cmd? g with
  | some c => c.pos == s.position && (s.queue c.queue).waiting.any (fun e => e.seq == c.seq)
  | none => false

/-- PREDICATE_EVALUATION (R167 to R172, R632): the node that has been eligible longest is evaluated, and started or skipped; one that was ready tries again to start. -/
def execPredicateEvaluation (g k : Nat) (s : State) : Host.Outcome State Fault Refusal :=
  match tfind s.graphs g, (s.cmd? g).map (fun c => c.started) with
  | some x, some true =>
    match x.nodes[k]? with
    | none => .next s
    | some n =>
      if n.st = .ready then .next (if x.failed.isNone then s.startNode g k n x else s)
      else if n.st ≠ .wait || x.failed.isSome || s.entryWaits g || x.elig.find? (fun j => match x.nodes[j]? with | some m => m.st == .wait | none => false) != some k then .next s
      else
        let run := fun (b : Bool) => if b then s.startNode g k n x else s.nodeDone g k .skippedPredicate [0, 0, 0]
        let was := fun (st : NodeSt) => match x.nodes[predRef n.pred]? with | some m => m.st == st | none => false
        match predOp n.pred with
        | 0 => .next (s.startNode g k n x)
        | 6 => .next (run (was .done))
        | 7 => .next (run (was .skipped))
        | _ =>
          let (root, spec) := s.nodeView n
          match s.place root (predAddr n.pred) 8 false with
          | .at_ rs =>
            let pa := (rs.headD (0, 0)).1
            let w := natLE (((s.quarterFor spec (pa / 128 * 128)).drop (pa % 128)).take 8)
            .next (run (wordHolds n.pred w))
          | .absent va migr =>
            if n.asked then .next s
            else
              let h := match s.cmd? g with | some c => handleOf c.queue c.seq (some k) | none => 0
              let x := { x with nodes := x.nodes.mapIdx (fun i m => if i = k then { m with asked := true, askedAt := s.now, migr := migr } else m) }
              .next (if migr then s.setGraph g x else (s.setGraph g x).pageFault (s.graphDest g) va h 0)
          | .bad => .next ((s.nodeDone g k .taskFault [3 * 2 ^ 28]).raise 0x0201 0 0 0 0 (predAddr n.pred))
  | _, _ => .next s

end Sys2Proof.Machine
end

