-- ==== Sys2Proof/Machine/Power.lean ====
section
/-!
DEFINITION. Input power, sequencing, the clocks, the power cap and thermal protection (R27, R574 to R593, R597 to R599).
-/
namespace Sys2Proof.Machine

/-! The lockkeeper's time and store. -/

/-- The lockkeeper's own time. -/
def State.lk (s : State) : Nat := s.pwr.lkBase + s.now

/-- Move on to a time of the lockkeeper. -/
def State.toLk (s : State) (t : Nat) : State := { s with now := max s.now (t - s.pwr.lkBase) }

/-- A record of class 4 (R547, R548). -/
def State.cycleRecord (s : State) (cause skind d0 d1 : Nat) : State := s.putRecord cause 4 skind 0 4 d0 d1 0 0 0

/-- What a power-off keeps of a register: fuses, the lockkeeper store's counters and rail faults, and the last boot's FAIL code (R597, R598, R625 to R628). -/
def keptByStore (off : Nat) (v : Word) : Word :=
  if off = R.PWR_LOSSES ∨ off = R.SEC_BOOTS ∨ off = R.SEC_FW_UPDATES ∨ off = R.SEC_KEYS ∨ off = R.SEC_SVN_MIN then v
  else if off = R.SEC_STATE then BitVec.ofNat 64 (v.toNat % 4)
  else if off = R.SEC_BOOT_STAT then BitVec.ofNat 64 (v.toNat % 16)
  else if Nat.ble (R.PWR_RAIL 0) off && Nat.ble off (R.PWR_RAIL 13) then fset 0 F.PWR_RAIL_FAULT (fget v F.PWR_RAIL_FAULT)
  else regReset off

def emptyCanal : Canal := { inq := [], used := [], freed := [], deficit := [], serving := [], turn := [], forks := [], acks := [], arrived := [] }

def emptyPod (p : Pod) : Pod :=
  { p with links := [], io := { p.io with inbox := [], held := [] }, streams := [], rt := [], rtMask := [], rtLoaded := false, shadowLoaded := false, phases := [],
           phase := { stage := 0, node := none, swapAt := 0, arrivals := [], first := 0, newMap := false }, sigTags := [], dead := [], ready := false,
           tbCount := 0, tbLast := 0, tbWindow := 0, mcIn := [], landed := [], parked := [] }

/-- The rails are removed (R562, R580): what is not in the basin, the fuses, the boot flash or the lockkeeper store is lost. -/
def State.railsOff (s : State) (cause : OffCause) : State :=
  let regs := (s.regs.map (fun (p : Nat × Word) => (p.1, keptByStore p.1 p.2))).filter (fun (p : Nat × Word) => p.2 != regReset p.1)
  { s with
    regs := regs, mem := farOnly s.mem, spires := [], tasks := [], epochs := [], syncGroups := [], groups := [], graphs := [], programs := [],
    coll := { emptyEngine16 with sent := s.coll.sent }, stepEnd := none, ovfRun := 0, stq := [], bsn := emptyBasinRun s.bsn,
    hcp := { s.hcp with queues := [], cmds := [], tracker := [], eseq := [] },
    canal := emptyCanal, aq := { s.aq with txSeq := [], rxSeq := [], replay := [], held := [], recv := [], winStart := [], winCount := [], lost := [] },
    mirror := emptyMirror, pod := emptyPod s.pod, job := { mapping := 0, root := 0, redrawn := false },
    jnl := { s.jnl with ring := [], changed := [], persist := none, covered := [], late := false, making := none, fullDone := false, stepTime := 0, lastSpec := 0, mirEpoch := 0, mirSlot := 0, mirClose := 0, mirSpec := 0 },
    errs := { s.errs with ring := [], lastRead := 0, lost := 0, stopCount := 0, stopsSeen := [] }, mbx := { chans := [], stage := [] },
    towers := [], far := { reqs := [], failed := false }, warm := none, reinit := [],
    tst := { scan := false, ir := .idcode, dwell := none, prbs := [], ppr := false, h1 := false }, fw := { s.fw with update := none, nonce := none, svnDue := [], sessions := 0 },
    pwr := { s.pwr with at_ := .aux, cause := cause, hold := [], holdEnd := [], silent := false, fast := false, winE := 0, tickE := 0, energy := 0, booting := false, leaving := none, unmet := false } }

/-- A boot begins in AUX at stage 0 (R579 order 1, R604). -/
def State.beginBoot (s : State) (attempt : Nat) : State :=
  let s : State := { s with pwr := { s.pwr with cause := .none, returned := s.lk, booting := true, attempt := attempt, stageAt := s.lk } }
  s.setFlds R.SEC_BOOT_STAT [(F.SEC_BOOT_STAT_STAGE, 0), (F.SEC_BOOT_STAT_ATTEMPT, attempt)]

/-- Lantern's orderly persistence before a removal (R519): one persistence, whole. -/
def State.orderlyPersist (s : State) : State :=
  if s.fld R.JNL_STATUS F.JNL_STATUS_READY = 0 then s else
  let s := match s.jnl.persist with | some _ => s.persistEnd true | none => s
  (s.persistStart true).persistEnd true

/-- The module-reset notice (R373): its identifier is a stop's. -/
def State.resetNotice (s : State) : State :=
  let (id, s) := s.newStopId
  (s.bump R.ERR_STOPS_SENT).floodNow id (.stop 1 s.position (if s.jobState = 0 then 0 else (s.reg R.ERR_JOB_ID).toNat))

/-- Every engine of both domes stops issuing (R578). -/
def State.stopAll (s : State) : State := (s.spires.map Prod.fst).foldl (fun s i => s.stopEngines i) s

/-- Start an orderly power-off `wait` ns before the rails go (R565, R580, R593). One under way is completed without further action (R624). -/
def State.orderlyOff (s : State) (cause : OffCause) (wait : Nat) : State :=
  if s.pwr.at_ = .up then
    let s := s.orderlyPersist
    { s with pwr := { s.pwr with at_ := .orderly, cause := cause, due := s.lk + wait, restart := 1 } }
  else s

/-- POWER_CYCLE (R492, R565): final at once; the journal first. -/
def cmdPowerCycle (_ : Cmd) (s : State) : Go × State := (.done .ok [], s)

/-- A POWER_CYCLE that starts is followed by the orderly removal 10 ms after its final entry. -/
def State.tryPowerCycle (s : State) (id : Nat) : State :=
  let go := match s.cmd? id with | some c => c.opcode == 0x0605 && !c.started && c.slot != 0 && !s.notYet c && !s.outranked c && !(c.ordered && s.behind c) | none => false
  let s := s.attempt 0x0605 id cmdPowerCycle
  if go then s.orderlyOff .cycle 10000000 else s

def execPowerCycle (id : Nat) (s : State) : Host.Outcome State Fault Refusal := .next (s.tryPowerCycle id)

/-- POWER_REMOVAL (R565, R580): the time has come and the lockkeeper removes the rails, after the reset notice. A cycle restores power after 2 s. -/
def execPowerRemoval (s : State) : Host.Outcome State Fault Refusal :=
  if s.pwr.at_ = .orderly then
    let s := (s.toLk s.pwr.due).resetNotice.railsOff s.pwr.cause
    .next { s with pwr := { s.pwr with due := s.lk + 2000000000 } }
  else .next s

/-- POWER_RESTORE (R565, R566): 2 s after a cycle's removal, power returns through the boot. -/
def execPowerRestore (s : State) : Host.Outcome State Fault Refusal :=
  if s.pwr.at_ = .aux ∧ s.pwr.oos = false ∧ (s.pwr.cause = .cycle ∨ s.pwr.cause = .boot) then
    .next ((s.toLk s.pwr.due).beginBoot (if s.pwr.cause = .boot then 2 else 1))
  else .next s

/-! Input (R574, R578, R579, R581). -/

/-- A persistence that runs ends, and a last one starts if the journal is READY (R519). -/
def State.persistAgain (s : State) : State :=
  let s : State := match s.jnl.persist with | some _ => s.persistEnd true | none => s
  if s.fld R.JNL_STATUS F.JNL_STATUS_READY == 1 then s.persistStart false else s

/-- The module runs on its hold-up energy for 4.5 ms from the loss notice (R578). -/
def State.enterLoss (s : State) : State := { s with pwr := { s.pwr with at_ := .loss, due := s.lk + 4500000, persisted := false, restart := 2 } }

/-- The loss notice (R578 steps 1 to 3): the reset notice on the links, every engine stops, and one persistence. A capture is abandoned (R535). -/
def State.lossNotice (s : State) : State :=
  if s.pwr.at_ == .up || s.pwr.at_ == .orderly then
    (((s.setFld R.PWR_STATUS F.PWR_STATUS_LOSS 1).bump R.PWR_LOSSES).resetNotice.stopAll.abandonCapture none).persistAgain.enterLoss
  else s

/-- INPUT_LOSS (R574): input below 700 V for 20 µs, or above 880 V for more than 1 ms. -/
def execInputLoss (s : State) : Host.Outcome State Fault Refusal :=
  .next ((if s.pwr.at_ = .aux then ({ s with pwr := { s.pwr with booting := false, cause := .loss } } : State) else s.lossNotice).setFld R.PWR_STATUS F.PWR_STATUS_INPUT_OK 0)

/-- LOSS_PERSIST_DONE (R578 step 4): Lantern reports its persistence done, or 4.5 ms have passed; the rails go. -/
def execLossPersistDone (ok : Bool) (s : State) : Host.Outcome State Fault Refusal :=
  if s.pwr.at_ = .loss then
    let s := if ok then s.persistEnd true else s.toLk s.pwr.due
    .next (s.railsOff .loss)
  else .next s

/-- LOCKKEEPER_SUPPLY_LOSS (R578 step 5): the bus falls below 38 V. -/
def execLockkeeperSupplyLoss (s : State) : Host.Outcome State Fault Refusal :=
  if s.pwr.at_ = .aux ∧ s.pwr.cause = .loss then .next { s with pwr := { s.pwr with at_ := .dark, booting := false }, fw := { s.fw with lkSessions := 0, update := none } } else .next s

/-- POWER_UP (R579, R653, R658): input rises above 720 V: the auxiliary converter starts, the lockkeeper boots and samples the straps; after a loss that the lockkeeper outlived, the
input has been in band for 100 ms. -/
def execPowerUp (straps : Nat) (s : State) : Host.Outcome State Fault Refusal :=
  if s.pwr.at_ = .dark then
    .next (({ s with pwr := { s.pwr with at_ := .aux, straps := straps % 64, clampCycles := s.pwr.clampCycles + 1 } } : State).beginBoot 1)
  else if s.pwr.at_ = .aux ∧ s.pwr.cause = .loss then .next ((s.toLk (s.lk + 100000000)).beginBoot 1)
  else .next s

/-- CLAMP_SENSE_CLOSED (R662): power-up may begin. -/
def execClampSenseClosed (s : State) : Host.Outcome State Fault Refusal := .next { s with pwr := { s.pwr with clamp := true } }

/-- A boot has failed (R566): once more after a power cycle; a second failure within one hour holds the module OUT_OF_SERVICE. A pending image is no longer pending (R608). -/
def State.bootFailed (s : State) : State :=
  let s := s.cycleRecord 0x0803 8 s.pwr.attempt 0
  let again := match s.pwr.failedAt with | some t => Nat.ble s.lk (t + 3600000000000) | none => false
  let s := s.setFld R.SEC_BOOT_STAT F.SEC_BOOT_STAT_FAIL 6
  let t := s.lk
  let s := s.railsOff .boot
  { s with fw := { s.fw with pend := [] }, pwr := { s.pwr with failedAt := if again then none else some t, oos := again, due := t + 2000000000 } }

/-- RAIL_FAULT (R581): a rail misses or leaves its band: recorded; in operation a loss of input, at power-up a failed boot. -/
def execRailFault (n : Nat) (s : State) : Host.Outcome State Fault Refusal :=
  if n < 14 ∧ s.pwr.at_ ≠ .dark then
    let s := s.setFlds (R.PWR_RAIL n) [(F.PWR_RAIL_FAULT, 1), (F.PWR_RAIL_PGOOD, 0)]
    .next (if s.pwr.at_ = .aux then (if s.pwr.booting then s.bootFailed else s) else s.lossNotice)
  else .next s

/-! Clocks (R584 to R586). -/

def clkReg (d : Nat) : Nat := if d = 0 then R.CLK_SPIRE_W else R.CLK_SPIRE_E

/-- The core voltage of a step in mV (R584): 420 + 0.15 f plus the trim, up to a multiple of 5, within 600 to 740. -/
def coreMv (k : Nat) : Nat := max 600 (min 740 ((420 * 16 + 15 * k + 16 * (Config.voltTrim.toNat % 21) + 79) / 80 * 5))

/-- USER as it acts (R599). -/
def userStep (v : Nat) : Nat := max 64 (min 320 v)

/-- The step a dome moves toward: the lowest of its limits; while the sideband is silent, 1,800 MHz in place of CAP and THERM (R27, R586). -/
def State.target16 (s : State) (d : Nat) : Nat :=
  let u := userStep (s.fld (clkReg d) F.CLK_SPIRE_W_USER)
  if s.pwr.silent then min u 288 else min u (min 320 (min (s.fld (clkReg d) F.CLK_SPIRE_W_CAP) (s.fld (clkReg d) F.CLK_SPIRE_W_THERM)))

/-- CAP_LIMITING and THERM_LIMITING (R596). -/
def State.showLimits (s : State) : State :=
  let lim := fun (d : Nat) => (userStep (s.fld (clkReg d) F.CLK_SPIRE_W_USER), s.fld (clkReg d) F.CLK_SPIRE_W_CAP, s.fld (clkReg d) F.CLK_SPIRE_W_THERM)
  let cap := [0, 1].any (fun d => let (u, c, t) := lim d; Nat.blt c (min u (min t 320)))
  let th := [0, 1].any (fun d => let (u, c, t) := lim d; Nat.blt t (min u (min c 320)))
  s.setFlds R.PWR_STATUS [(F.PWR_STATUS_CAP_LIMITING, if cap then 1 else 0), (F.PWR_STATUS_THERM_LIMITING, if th then 1 else 0)]

/-- The cycle by which what a spire's engines have in flight has completed: fixed-latency landings and occupancies (R31). -/
def Spire.inFlight (p : Spire) : Nat := (p.landings.map (·.due) ++ p.reads.map (·.due) ++ allEngines.map (fun e => (p.eng e).free)).foldl max p.cycle

/-- The sites of a dome whose spires the state holds. -/
def State.domeSites (s : State) (d : Nat) : List Nat := (s.spires.filter (fun (p : Nat × Spire) => domeOf p.1 == d)).map Prod.fst

/-- The instructions in flight in a dome complete at the old clock (R31). -/
def State.landDome (s : State) (d : Nat) : State :=
  (s.domeSites d).foldl (fun s i => let s := s.runTo i (s.spire i).inFlight; { s with now := s.spireNs i }) s

/-- A spire's cycles after a switchover: its current is settled, and cycles count at the new step from the end of the pause (R30, R31). -/
def State.rebase (s : State) (d pause : Nat) : State :=
  let s := (s.domeSites d).foldl (fun s i => s.settleHold i s.now) s
  let cs := (s.domeSites d).map (fun i => (i, s.cycleAt i s.now))
  cs.foldl (fun s c => s.modSpire c.1 (fun p => { p with cyc0 := c.2, ns0 := s.now + pause })) s

/-- One step of a dome's clock, with its pause; the other PLL becomes active (R584, R585). -/
def State.stepClock (s : State) (d pause k : Nat) : State :=
  let s := (s.rebase d pause).setFlds (clkReg d) [(F.CLK_SPIRE_W_CUR, k), (F.CLK_SPIRE_W_VMV, coreMv k)]
  let a := s.fld R.CLK_PLL F.CLK_PLL_ACTIVE
  let s := s.setFld R.CLK_PLL F.CLK_PLL_ACTIVE (if a / 2 ^ d % 2 = 1 then a - 2 ^ d else a + 2 ^ d)
  (s.bump (if d = 0 then R.CLK_STEPS_W else R.CLK_STEPS_E)).bump (if d = 0 then R.CLK_PAUSE_NS_W else R.CLK_PAUSE_NS_E) pause

/-- SPIRE_CLOCK_STEP (R30, R31, R585): a dome's clock moves one step toward its lowest limit, 1 µs after its last step and 500 ns after the other dome's; the pause is at most 5 µs. -/
def execSpireClockStep (d pause : Nat) (s : State) : Host.Outcome State Fault Refusal :=
  let cur := s.fld (clkReg d) F.CLK_SPIRE_W_CUR
  let t := s.target16 d
  if 1 < d ∨ cur = t ∨ 5000 < pause ∨ s.pwr.at_ ≠ .up ∨ s.fld R.PWR_STATUS F.PWR_STATUS_STATE ≠ 0 then .next s
  else
    let last := fun (x : Nat) => tget (fun _ => 0) s.pwr.stepAt x
    let s := { s with now := max s.now (max (last d + 1000) (last (1 - d) + 500)) }.landDome d
    let s := s.stepClock d pause (if cur < t then cur + 1 else cur - 1)
    .next { s with now := s.now + pause, pwr := { s.pwr with stepAt := tset (fun _ => 0) s.pwr.stepAt d s.now, stepDome := d } }

/-- USER of a dome is written (R586). -/
def State.writeUser (s : State) (d v : Nat) : State := (s.setFld (clkReg d) F.CLK_SPIRE_W_USER v).showLimits

/-- CLOCK_USER_LIMIT_WRITE (R586, R599). -/
def execClockUserLimitWrite (d v : Nat) (s : State) : Host.Outcome State Fault Refusal := .next (if d ≤ 1 then s.writeUser d v else s)

/-- CLOCK_LIMIT (R493, R586): MHz rounded down to a whole step; RESULT0 is the dome's lowest limit in MHz. -/
def cmdClockLimit (c : Cmd) (s : State) : Go × State :=
  let d := c.par 0 1
  let s := s.writeUser d (userStep (c.par 2 2 * 4 / 25))
  (.done .ok [s.target16 d * 25 / 4], s)

def execClockLimit (id : Nat) (s : State) : Host.Outcome State Fault Refusal := .next (s.attempt 0x0703 id cmdClockLimit)

/-- VECTOR_HOLD_RAMP (R585): before a launch's start multicast the vector hold of its gang ramps up over 4 µs, or GAP_THRESH after its task a site's hold ramps down over 4 µs. -/
def execVectorHoldRamp (w : VecRamp) (s : State) : Host.Outcome State Fault Refusal :=
  .next (match w with
    | .up h => match tfind s.tasks h with
      | some t =>
        let new := t.gang.filter (fun i => !s.pwr.hold.contains i)
        if new = [] then s else { s with now := s.now + 4000, pwr := { s.pwr with hold := s.pwr.hold ++ new } }
      | none => s
    | .down site =>
      if s.pwr.hold.contains site && !s.tasks.any (fun (p : Nat × Task) => p.2.gang.contains site) then
        let t := tget (fun _ => 0) s.pwr.holdEnd site + min 16000 (s.fld (R.SPR_ARR_CTL site) F.SPR_ARR_CTL_GAP_THRESH) + 4000
        { s with now := max s.now t, pwr := { s.pwr with hold := s.pwr.hold.erase site, holdEnd := terase s.pwr.holdEnd site } }
      else s)

/-! The power cap (R588 to R591). -/

/-- The cap and the floor as they act (R596). -/
def State.capW (s : State) : Nat := max 600 (min 1400 (s.fld R.PWR_CAP_CTL F.PWR_CAP_CTL_CAP_W))
def State.floorStep (s : State) : Nat := max 64 (s.fld R.PWR_CAP_CTL F.PWR_CAP_CTL_FLOOR)

def State.setCapLimit (s : State) (d v : Nat) : State := s.setFld (clkReg d) F.CLK_SPIRE_W_CAP v

/-- Lower the CAP limit of a dome by one step, never below FLOOR (R589). -/
def State.lowerCap (s : State) (d : Nat) : State :=
  let c := s.fld (clkReg d) F.CLK_SPIRE_W_CAP
  if c ≤ s.floorStep then s else s.setCapLimit d (c - 1)

/-- `n` dome-steps down, alternating from dome `d`. -/
def lowerCaps : Nat → Nat → State → State
  | 0, _, s => s
  | n + 1, d, s => lowerCaps n (1 - d) (s.lowerCap d)

/-- A 1 ms window has ended (R590): with both CAP limits at FLOOR and the mean above CAP the cap is unmet, with one record for each run of such windows. -/
def State.endCapWindow (s : State) : State :=
  let mean := s.pwr.winE / 1000
  let s := s.setFlds R.PWR_WINDOW [(F.PWR_WINDOW_LAST, mean), (F.PWR_WINDOW_MAX, max mean (s.fld R.PWR_WINDOW F.PWR_WINDOW_MAX))]
  let excess := Nat.blt (s.capW * 1000) mean
  let floor := [0, 1].all (fun d => Nat.ble (s.fld (clkReg d) F.CLK_SPIRE_W_CAP) s.floorStep)
  let first := excess && floor && !s.pwr.unmet
  let s : State := { s with pwr := { s.pwr with winE := 0, winAt := s.now / 1000000 * 1000000, unmet := excess && floor } }
  let s := if excess && floor then (s.setFld R.PWR_STATUS F.PWR_STATUS_CAP_UNMET 1).bump R.PWR_CAP_UNMET_NS 1000000
    else if excess then s else s.setFld R.PWR_STATUS F.PWR_STATUS_CAP_UNMET 0
  if first then s.note 0x0804 0 8 0 mean s.capW else s

/-- What is stamped at the end of a window or later belongs to a later one (R13): the window in which `now` lies. -/
def State.rollCap (s : State) : State := if s.now < s.pwr.winAt + 1000000 then s else s.endCapWindow

/-- The clock at `t` at the earliest, and the window that time falls in. -/
def State.rollTo (s : State) (t : Nat) : State := { s with now := max s.now t }.rollCap

/-- Whether the fast limit holds after a sample of `mw` mW: it starts above 1,600 W and ends below 1,550 W (R588). -/
def fastAfter (was : Bool) (mw : Nat) : Bool := if 1600000 < mw then true else if mw < 1550000 then false else was

/-- A sample's power over its 10 µs, in the window, the tick and the module's energy (R588, R597). -/
def State.addEnergy (s : State) (mw : Nat) : State :=
  let e := s.pwr.energy + 10 * mw
  let s : State := { s with pwr := { s.pwr with sampleAt := s.now, winE := s.pwr.winE + 10 * mw, tickE := s.pwr.tickE + 10 * mw, energy := e, fast := fastAfter s.pwr.fast mw } }
  let s := s.setReg R.PWR_ENERGY_MJ (BitVec.ofNat 64 (e / 1000000))
  if 1400000 < mw then s.bump R.PWR_OVER_NS 10000 else s

/-- What a sample shows (R588, R591): voltage in 0.1 V, current in mA, power in mW. -/
def State.showInput (s : State) (dv ma mw : Nat) : State :=
  let s := s.setFlds R.PWR_INPUT [(F.PWR_INPUT_VIN, dv), (F.PWR_INPUT_IIN, ma), (F.PWR_INPUT_PIN, mw)]
  s.setFld R.PWR_STATUS F.PWR_STATUS_INPUT_OK (if Nat.ble 7400 dv && Nat.ble dv 8600 then 1 else 0)

/-- The time for which the CAP limit of a dome is the one that limits it (R588). -/
def State.countCap (s : State) : State :=
  let below := [0, 1].any (fun d => let c := s.fld (clkReg d) F.CLK_SPIRE_W_CAP; Nat.blt c (userStep (s.fld (clkReg d) F.CLK_SPIRE_W_USER)) && Nat.blt c (s.fld (clkReg d) F.CLK_SPIRE_W_THERM))
  if below then s.bump R.PWR_CAP_NS 10000 else s

/-- Above 1,600 W the CAP limits fall by a step on each dome every 1 µs until samples fall below 1,550 W (R588). -/
def State.fastCaps (s : State) : State := (if s.pwr.fast then lowerCaps 20 0 s else s).showLimits

/-- The rails of R576 in its table's order: the voltage in mV, of a core rail its highest, and the rating in 0.1 A. -/
def railTable : List (Nat × Nat) :=
  [(740, 6200), (740, 6200), (750, 1600), (750, 300), (1800, 150), (1100, 2000), (700, 800), (750, 1100), (900, 1400), (750, 1300), (800, 300), (3300, 30), (3300, 80), (1200, 120)]

/-- What a sample shows of the rails: voltage in mV and current in 0.1 A of rail 0 and those after it (R597). -/
def State.showRails (s : State) (rails : List (Nat × Nat)) : State :=
  ((rails.take 14).zip (List.range 14)).foldl (fun s p => s.setFlds (R.PWR_RAIL p.2) [(F.PWR_RAIL_MV, p.1.1), (F.PWR_RAIL_CURRENT, p.1.2)]) s

/-- POWER_SAMPLE (R588, R591, R597): the sample of each 10 µs. -/
def execPowerSample (dv ma mw : Nat) (rails : List (Nat × Nat)) (s : State) : Host.Outcome State Fault Refusal :=
  if s.pwr.at_ = .dark then .next s else .next (((((s.rollTo (s.pwr.sampleAt + 10000)).showInput dv ma mw).showRails rails).addEnergy mw).countCap).fastCaps

/-- The 100 µs point after the last one taken. -/
def State.nextTick (s : State) : Nat := (s.pwr.tickAt / 100000 + 1) * 100000

/-- The mean power in mW that the rest of the 1 ms window may take (R588). -/
def State.allowed (s : State) : Int := ((s.capW * 1000000 : Nat) - (s.pwr.winE : Int)) / ((1000 - s.now % 1000000 / 1000 : Nat) : Int)

/-- The cap loop's step at a tick (R588): the limits fall by the excess over what the window allows, or rise by one. -/
def State.capTick (s : State) (step hot : Nat) : State :=
  let cap := s.capW
  let p : Int := (s.pwr.tickE / 100 : Nat)
  let allowed := s.allowed
  let s : State := { s with pwr := { s.pwr with tickE := 0, tickAt := s.now } }
  if allowed < p then lowerCaps (((p - allowed).toNat + step - 1) / step) (hot % 2) s
  else if p < min allowed ((cap * 1000 : Nat) : Int) - 20000 then
    [0, 1].foldl (fun s d =>
      let c := s.fld (clkReg d) F.CLK_SPIRE_W_CAP
      if c < min (userStep (s.fld (clkReg d) F.CLK_SPIRE_W_USER)) (s.fld (clkReg d) F.CLK_SPIRE_W_THERM) then s.setCapLimit d (c + 1) else s) s
  else s

/-- POWER_CAP_TICK (R588): the cap loop at a 100 µs point; `step` is the lockkeeper's measure S in mW, `hot` the dome with the higher core-rail power. -/
def execPowerCapTick (step hot : Nat) (s : State) : Host.Outcome State Fault Refusal :=
  if s.pwr.at_ ≠ .up ∨ step = 0 then .next s else .next ((s.rollTo s.nextTick).capTick step hot).showLimits

/-- CAP_WINDOW_END (R590): the 1 ms window ends. -/
def execCapWindowEnd (s : State) : Host.Outcome State Fault Refusal :=
  if s.pwr.at_ ≠ .up then .next s else .next (s.rollTo (s.pwr.winAt + 1000000))

/-- POWER_CAP (R493, R589). -/
def State.setCap (s : State) (w : Nat) : State := s.setFld R.PWR_CAP_CTL F.PWR_CAP_CTL_CAP_W (max 600 w)

def cmdPowerCap (c : Cmd) (s : State) : Go × State :=
  let w := c.par 0 4
  if 1400 < w then (.done .capOutOfRange [], s) else (.done .ok [], s.setCap w)

def execPowerCap (id : Nat) (s : State) : Host.Outcome State Fault Refusal := .next (s.attempt 0x0702 id cmdPowerCap)

/-- TELEMETRY (R493). -/
def cmdTelemetry (_ : Cmd) (s : State) : Go × State :=
  let mhz := fun (d : Nat) => s.fld (clkReg d) F.CLK_SPIRE_W_CUR * 25 / 4
  (.done .ok [s.fld R.PWR_INPUT F.PWR_INPUT_PIN, s.fld R.PWR_TEMP F.PWR_TEMP_TOWER,
    max (s.fld R.PWR_TEMP F.PWR_TEMP_DOME_W) (s.fld R.PWR_TEMP F.PWR_TEMP_DOME_E), mhz 0 + mhz 1 * 0x10000], s)

def execTelemetry (id : Nat) (s : State) : Host.Outcome State Fault Refusal := .next (s.attempt 0x0704 id cmdTelemetry)

/-! The sideband (R27). -/

/-- SIDEBAND_HEARTBEAT_LOSS: no heartbeat for 2 ms: both spire clocks go to 1.8 GHz, and the loss is logged. -/
def execSidebandHeartbeatLoss (s : State) : Host.Outcome State Fault Refusal :=
  if s.pwr.silent ∨ s.pwr.at_ ≠ .up then .next s else
  let s : State := { s with now := max s.now (s.pwr.beatAt + 2000000), pwr := { s.pwr with silent := true } }
  .next ((s.setFld R.PWR_STATUS F.PWR_STATUS_SB_OK 0).note 0x0008 0 0 0 0 0)

/-- SIDEBAND_HEARTBEAT: a heartbeat; after a loss Lantern restores the lockkeeper's limits. -/
def execSidebandHeartbeat (s : State) : Host.Outcome State Fault Refusal :=
  if s.pwr.at_ = .up then .next (({ s with pwr := { s.pwr with silent := false, beatAt := s.now } } : State).setFld R.PWR_STATUS F.PWR_STATUS_SB_OK 1) else .next s

/-- FW_WATCHDOG (R564): a control core's heartbeat has been missing for 10 ms. -/
def execFwWatchdog (core : Nat) (s : State) : Host.Outcome State Fault Refusal :=
  if s.pwr.at_ = .up ∧ core < 4 then .next (s.raise3 0x0001 0 0 core 0) else .next s

/-! Temperature (R592, R593). -/

/-- A thermal shutdown: THERMAL_TRIP, an orderly persistence, and the rails go (R593). -/
def State.thermalTrip (s : State) (sensor temp : Nat) : State :=
  if s.pwr.at_ = .up then (s.cycleRecord 0x0801 8 sensor temp).orderlyOff .thermal 0 else s

/-- The trip point of a sensor in °C: dome sensors 64 to 127, towers 128 to 135, power stage 136 to 139 (R592, R622). -/
def tripPoint (sensor : Nat) : Nat := if sensor < 128 then 110 else if sensor < 136 then 105 else 125

/-- Highest reading of a range of sensors. -/
def State.hottest (s : State) (lo n : Nat) : Nat := ((List.range n).map (fun i => tget (fun _ => 0) s.pwr.sensors (lo + i))).foldl max 0

/-- The readings of a tick, those of sensors 64 to 139, are taken and shown (R592). -/
def State.takeTemps (s : State) (readings : List (Nat × Nat)) : State :=
  let s := { s with now := max s.now ((s.pwr.thermAt / 100000 + 1) * 100000) }
  let got := (readings.filter (fun p => Nat.ble 64 p.1 && Nat.ble p.1 139)).foldl (fun t p => tset (fun _ => 0) t p.1 p.2) s.pwr.sensors
  let s : State := { s with pwr := { s.pwr with thermAt := s.now, sensors := got } }
  s.setFlds R.PWR_TEMP [(F.PWR_TEMP_DOME_W, s.hottest 64 32), (F.PWR_TEMP_DOME_E, s.hottest 96 32), (F.PWR_TEMP_TOWER, s.hottest 128 8), (F.PWR_TEMP_STAGE, s.hottest 136 4)]

/-- The thermal limit of a dome moves a step down at T_LIMIT and up below its margin (R592). -/
def State.thermStep (s : State) (lim d : Nat) : State :=
  let t := s.fld (clkReg d) F.CLK_SPIRE_W_THERM
  let h := s.hottest (64 + 32 * d) 32
  if lim ≤ h then (if 64 < t then s.setFld (clkReg d) F.CLK_SPIRE_W_THERM (t - 1) else s)
  else if h < lim - 3 ∧ t < 320 then s.setFld (clkReg d) F.CLK_SPIRE_W_THERM (t + 1) else s

/-- The thermal limits of both domes at a tick (R592). -/
def State.thermLimits (s : State) : State :=
  let lim := max 80 (min 105 (s.fld R.PWR_THERM_CTL F.PWR_THERM_CTL_T_LIMIT))
  let s := (s.thermStep lim 0).thermStep lim 1
  (if Nat.ble lim (s.hottest 64 32) || Nat.ble lim (s.hottest 96 32) then s.bump R.PWR_THERM_NS 100000 else s).showLimits

/-- How long every sensor has been 20 °C below its trip point (R593). -/
def State.noteCool (s : State) : State :=
  let cool := s.pwr.sensors.all (fun (p : Nat × Nat) => Nat.ble (p.2 + 20) (tripPoint p.1))
  { s with pwr := { s.pwr with coolSince := if cool then some (s.pwr.coolSince.getD s.lk) else none } }

/-- THERMAL_TICK (R592): every 100 µs the lockkeeper reads its sensors and moves the THERM limits; a reading at a trip point shuts the module down. Readings by sensor number (R622). -/
def execThermalTick (readings : List (Nat × Nat)) (s : State) : Host.Outcome State Fault Refusal :=
  if s.pwr.at_ = .dark then .next s else
  let s := s.takeTemps readings
  let s := (if s.pwr.at_ ≠ .up then s else s.thermLimits).noteCool
  match s.pwr.sensors.find? (fun (p : Nat × Nat) => Nat.ble (tripPoint p.1) p.2) with
  | some (n, v) => .next (s.thermalTrip n v)
  | none => .next s

/-- THERMAL_RECOVERY (R593): every sensor has been 20 °C below its trip point for 60 s. -/
def execThermalRecovery (s : State) : Host.Outcome State Fault Refusal :=
  match s.pwr.coolSince with
  | some t => if s.pwr.at_ = .aux ∧ s.pwr.cause = .thermal then .next ((s.toLk (t + 60000000000)).beginBoot 1) else .next s
  | none => .next s

/-! Power states (R582, R583). -/

/-- The module is ACTIVE again, its core voltages those of the clocks (R583). -/
def State.wakeModule (s : State) : State :=
  if s.quiescent then
    let s := s.setFld R.PWR_STATUS F.PWR_STATUS_STATE 0
    [0, 1].foldl (fun s d => s.setFld (clkReg d) F.CLK_SPIRE_W_VMV (coreMv (s.fld (clkReg d) F.CLK_SPIRE_W_CUR))) s
  else s

/-- QUIESCENT_WAKE (R583): something needs a spire site. -/
def execQuiescentWake (s : State) : Host.Outcome State Fault Refusal := .next s.wakeModule

/-- Links and towers under test leave their states, and STATUS shows STANDBY (R582). -/
def State.darkPorts (s : State) : State :=
  let s := (List.range 48).foldl (fun s n => s.setFld (R.LNK_STATUS n) F.LNK_STATUS_STATE 0) s
  let s := (List.range 8).foldl (fun s t => if s.fld (R.TWR_STATUS t) F.TWR_STATUS_STATE = 2 then s.setFld (R.TWR_STATUS t) F.TWR_STATUS_STATE 1 else s) s
  (s.setReg R.TST_STATUS 0).setFld R.PWR_STATUS F.PWR_STATUS_STATE 2

/-- What loses its power in STANDBY keeps nothing: spires and local stores, canal, link and aqueduct buffers, test modes. -/
def State.unpowered (s : State) : State :=
  { s with spires := [], canal := emptyCanal, mem := s.mem.filter (fun c => Nat.blt c.1 0xF00000000000),
           aq := { s.aq with replay := [], held := [], recv := [] }, pod := { s.pod with links := [], io := { s.pod.io with inbox := [], held := [] }, streams := [], parked := [] },
           tst := { scan := false, ir := .idcode, dwell := none, prbs := [], ppr := false, h1 := false } }

/-- What STANDBY loses (R583): links go to DISABLED; routers, spires and slices lose their contents; test modes end (R636). Towers keep theirs, in self-refresh. -/
def State.enterStandby (s : State) : State :=
  s.darkPorts.unpowered

/-- What is left of a task's watchdog in µs (R480). -/
def State.taskLeft (s : State) (t : Task) : Nat := if t.limit = 0 then unknown else t.limit - (s.now - t.start) / 1000

/-- STANDBY's condition (R582): no job, both epoch slots FREE, and nothing running. -/
def State.standbyOk (s : State) : Bool :=
  s.jobState == 0 && s.epState 0 == 0 && s.epState 1 == 0 && s.tasks.isEmpty && s.coll.running.isEmpty && s.bsn.capture.isNone

/-- On leaving STANDBY, H1 retrains and is checked as by rung 2 of it; `was` says that the window is gone for good where the check fails (R634). -/
def State.standbyFar (s : State) : State :=
  if s.fld R.TWR_FAR_CFG F.TWR_FAR_CFG_SIZE_GIB = 0 then s
  else ({ s with far := { s.far with failed := true } } : State).pushReinit 6 0 none 1

/-- POWER_STATE (R493, R582, R583). -/
def cmdPowerState (c : Cmd) (s : State) : Go × State :=
  let now := s.fld R.PWR_STATUS F.PWR_STATUS_STATE
  match c.par 0 1 with
  | 0 =>
    if now = 0 then (.done .ok [], s)
    else if now = 1 then (.done .ok [], s.wakeModule)
    else if now = 2 then
      let s := ({ s with pwr := { s.pwr with leaving := some (c.dseq, s.now) } } : State).setFld R.PWR_STATUS F.PWR_STATUS_STATE 3
      (.run 0, s.resetLinks.standbyFar)
    else (.done .stateInvalid [], s)
  | 1 =>
    if now = 1 then (.done .ok [], s)
    else if now ≠ 0 then (.done .stateInvalid [], s)
    else match s.tasks with
      | [] => (.done .ok [], [0, 1].foldl (fun s d => s.setFld (clkReg d) F.CLK_SPIRE_W_VMV 600) (s.setFld R.PWR_STATUS F.PWR_STATUS_STATE 1))
      | (_, t) :: _ => (.wait .waitIdle (s.taskLeft t), s)
  | _ =>
    if now = 2 then (.done .ok [], s)
    else if now = 3 ∨ s.standbyOk = false then (.done .stateInvalid [], s)
    else (.done .ok [], s.enterStandby)

def execPowerState (id : Nat) (s : State) : Host.Outcome State Fault Refusal := .next (s.attempt 0x0701 id cmdPowerState)

/-- STANDBY_EXIT_TIMEOUT (R583): after 1 s STANDBY is left with the links that have trained. -/
def execStandbyExitTimeout (s : State) : Host.Outcome State Fault Refusal :=
  match s.pwr.leaving with
  | some (id, t) =>
    let s : State := { s with now := max s.now (t + 1000000000), pwr := { s.pwr with leaving := none } }
    .next ((s.setFld R.PWR_STATUS F.PWR_STATUS_STATE 0).finishCmd id .ok [])
  | none => .next s

end Sys2Proof.Machine
end

