-- ==== Sys2Proof/Machine/Boot.lean ====
section
/-!
DEFINITION. Images, the boot and its failures, the warm reset and its end (R90, R135, R136, R23, R331, R504, R519, R540, R562 to R566, R600 to R610).
-/
namespace Sys2Proof.Machine

/-! Images (R601, R602, R608). -/

/-- A field of a list of bytes. -/
def fieldOf (bs : List Byte) (o n : Nat) : Nat := natLE ((bs.drop o).take n)

/-- The image in a bank of a type. -/
def State.image (s : State) (typ bank : Nat) : List Byte := (tfind s.fw.banks (2 * typ + bank)).getD (Config.factoryImage (2 * typ + bank))

/-- The fused minimum of a type. -/
def State.svnMin (s : State) (typ : Nat) : Nat := (s.reg R.SEC_SVN_MIN).toNat / 2 ^ (8 * (typ - 1)) % 256

/-- A body that breaks the layout of a boot configuration fails check 1 (R603). -/
def cfgBody (body : List Byte) : Bool := body.length == 512 && Nat.ble (fieldOf body 256 1) 1 && Nat.ble (fieldOf body 257 1) 3 && (body.drop 258).all (fun b => b == 0)

/-- The checks of R602 in order: 0 where all pass, else the code of the first that fails. -/
def State.imageFail (s : State) (typ : Nat) (bs : List Byte) : Nat :=
  let f := fieldOf bs
  let body := (bs.drop 512).take (f 16 8)
  if (f 0 4 == 0x5746475A && f 4 2 == typ && f 6 2 == 1 && f 14 2 == 0 && f 72 24 == 0 && f 192 320 == 0 && Nat.ble (f 12 1) 64 && Nat.ble (f 13 1) 3
      && Nat.ble 1 (f 16 8) && Nat.ble (f 16 8) 16777216 && body.length == f 16 8 && (typ != 3 || cfgBody body)) = false then 1
  else if Config.signed (f 13 1) (bs.take 96) ((bs.drop 96).take 96) = false then 2
  else if (s.reg R.SEC_KEYS).getLsbD (f 13 1) then 3
  else if f 12 1 < s.svnMin typ then 4
  else if sha384 body ≠ (bs.drop 24).take 48 then 5 else 0

/-- The bank a type boots from: its pending bank, else its active one (R608). -/
def State.bootBank (s : State) (typ : Nat) : Nat := (tfind s.fw.pend typ).getD (tget (fun _ => 0) s.fw.active typ)

def fwReg (typ : Nat) : Nat := if typ = 1 then R.SEC_FW_LK else if typ = 2 then R.SEC_FW_LT else R.SEC_FW_CFG
def bankFld (typ : Nat) : Fld := if typ = 1 then F.SEC_BOOT_STAT_LK_BANK else if typ = 2 then F.SEC_BOOT_STAT_LT_BANK else F.SEC_BOOT_STAT_CFG_BANK

/-- An image runs: it is kept for its measurement (R613), and SEC_FW shows it (R626). -/
def State.showImage (s : State) (typ bank : Nat) : State :=
  let f := fieldOf (s.image typ bank)
  let s : State := { s with fw := { s.fw with running := tinsert s.fw.running typ (s.image typ bank) } }
  (s.setFlds (fwReg typ) [(F.SEC_FW_LK_VERSION, f 8 4), (F.SEC_FW_LK_SVN, f 12 1), (F.SEC_FW_LK_BANK, bank), (F.SEC_FW_LK_KEY, f 13 1),
    (F.SEC_FW_LK_PENDING, if tfind s.fw.pend typ = some (1 - bank) then 1 else 0)]).setFld R.SEC_BOOT_STAT (bankFld typ) bank

/-- Verify the image of a type in bank `b`, then in the other; FAIL keeps the last rejection, and a pending image that fails is no longer pending (R604, R608). -/
def State.verifyBank (s : State) (typ b : Nat) : Option Nat × State :=
  let x := s.imageFail typ (s.image typ b)
  if x = 0 then (some b, s.showImage typ b)
  else
    let s : State := { s.setFld R.SEC_BOOT_STAT F.SEC_BOOT_STAT_FAIL x with fw := { s.fw with pend := if tfind s.fw.pend typ = some b then terase s.fw.pend typ else s.fw.pend } }
    let y := s.imageFail typ (s.image typ (1 - b))
    if y = 0 then (some (1 - b), s.showImage typ (1 - b)) else (none, s.setFld R.SEC_BOOT_STAT F.SEC_BOOT_STAT_FAIL y)

/-- Verify the image of a type as a power-on does: the selected bank first. -/
def State.verifyType (s : State) (typ : Nat) : Option Nat × State := s.verifyBank typ (s.bootBank typ)

/-- The bank that runs of a type. -/
def State.runs (s : State) (typ : Nat) : Nat := s.fld (fwReg typ) F.SEC_FW_LK_BANK

/-- A warm reset is served the banks that booted, even where another image is pending (R607). -/
def State.verifyAgain (s : State) (typ : Nat) : Option Nat × State := s.verifyBank typ (s.runs typ)

/-- The image that runs of a type; none before the first. -/
def State.runningImage (s : State) (typ : Nat) : List Byte := (tfind s.fw.running typ).getD []

/-- Digests of the die's boot ROM, the header of the running Lantern image and the running boot configuration image (R613, indices 3 to 5). -/
def State.dieDigests (s : State) : List (List Byte) := [sha384 (Config.romImage 1), sha384 ((s.runningImage 2).take 512), sha384 (s.runningImage 3)]

/-- Lantern boots: the lockkeeper takes its digests (R613). -/
def State.lanternBoots (s : State) : State := { s with fw := { s.fw with lkSeen := s.dieDigests } }

/-- The body of the running boot configuration. -/
def State.cfg (s : State) : List Byte := ((s.image 3 (s.fld R.SEC_FW_CFG F.SEC_FW_LK_BANK)).drop 512).take 512

/-! What the stages load. -/

/-- The device time base and the periodic tasks start from 0 as the rails rise. -/
def State.startTime (s : State) : State :=
  { s with now := 0, pwr := { s.pwr with at_ := .up, lkBase := s.lk, beatAt := 0, sampleAt := 0, tickAt := 0, thermAt := 0, stepAt := [], winAt := 0, winE := 0, tickE := 0 } }

/-- Stage 1 (R579 orders 2 to 7): rails up, PLLs locked, the time base starts at 0. -/
def State.railsOn (s : State) (step : Nat) : State :=
  let s := (List.range 14).foldl (fun s n => s.setFld (R.PWR_RAIL n) F.PWR_RAIL_PGOOD 1) s
  let s := s.setFlds R.CLK_PLL [(F.CLK_PLL_PORT, 3), (F.CLK_PLL_LANTERN, 1), (F.CLK_PLL_TOWER, 255), (F.CLK_PLL_CANAL, 3), (F.CLK_PLL_SPIRE, 15), (F.CLK_PLL_OSC, 1)]
  let k := max 64 (min 192 step)
  let s := [0, 1].foldl (fun s d => s.setFlds (clkReg d) [(F.CLK_SPIRE_W_CUR, k), (F.CLK_SPIRE_W_VMV, coreMv k)]) s
  (s.setFlds R.PWR_STATUS [(F.PWR_STATUS_INPUT_OK, 1), (F.PWR_STATUS_SB_OK, 1), (F.PWR_STATUS_STATE, 3)]).startTime

/-- An entry of the binding table that is loaded with VALID = 0 (R504). -/
def badBinding (snd rcv : Nat) : Bool :=
  let known := fun (a : Nat) => a == 1 || a == 2 || a == 3 || (Nat.ble 0x100 a && Nat.ble a 0x10F)
  !known snd || !known rcv || snd == rcv

/-- The mailbox bindings of the configuration image. -/
def State.bindAll (s : State) (b : List Byte) : State :=
  (List.range 32).foldl (fun s c =>
    let e := fieldOf b (8 * c) 8
    let ok := decide (e / 2 ^ 63 = 1) && !badBinding (e / 2 ^ 32 % 2 ^ 16) (e / 2 ^ 16 % 2 ^ 16)
    s.setFlds (R.MBX_BIND c) [(F.MBX_BIND_VALID, if ok then 1 else 0), (F.MBX_BIND_SENDER, e / 2 ^ 32), (F.MBX_BIND_RECEIVER, e / 2 ^ 16)]) s

/-- The policy byte of the configuration image is in force. -/
def State.setPolicy (s : State) (n : Nat) : State := { s with fw := { s.fw with policy := n } }

/-- Stage 3: the binding table and its lock, attachment mode, POLICY, position and pod configuration (R504, R603, R653). -/
def State.fwInit (s : State) : State :=
  let b := s.cfg
  let s := s.bindAll b
  let s := s.setFlds R.MBX_STATUS [(F.MBX_STATUS_LOCKED, 1), (F.MBX_STATUS_BOUND, ((List.range 32).filter s.bound).length)]
  let s := s.setFlds R.SEC_STATE [(F.SEC_STATE_BINDINGS_LOCKED, 1), (F.SEC_STATE_IDE_REQUIRED, fieldOf b 257 1 % 2)]
  let s := s.setFld R.HCP_H0_STAT F.HCP_H0_STAT_CXL (fieldOf b 256 1)
  let w := s.fw.podRecord
  let cp := fun (f : Fld) => (f, fget w f)
  (s.setFlds R.LNK_POD_CFG [cp F.LNK_POD_CFG_POD_ID, cp F.LNK_POD_CFG_TOPO, cp F.LNK_POD_CFG_DIMX, cp F.LNK_POD_CFG_DIMY, cp F.LNK_POD_CFG_DIMZ, (F.LNK_POD_CFG_POSITION, s.pwr.straps)]).setPolicy (fieldOf b 257 1)

/-- The sites a dome enables: 480 good ones, those not failed, in ascending order (R23, R136). -/
def goodSites (d : Nat) (bad : List Nat) : List Nat := ((List.range 512).map (fun i => 512 * d + i)).filter (fun i => !bad.contains i)

/-- The failed active rows of a site's array. -/
def BootInfo.failedRows (i : BootInfo) (x : Nat) : List Nat := ((i.rows.filter (fun r => r.1 == x)).map Prod.snd).eraseDups

/-- An array that its spare row cannot repair (R136): more than one failed row, a failed spare row with a failed active row, a failed column. -/
def BootInfo.badArray (i : BootInfo) (x : Nat) : Bool :=
  Nat.blt 1 (i.failedRows x).length || (i.failedRows x != [] && i.spares.contains x) || i.columns.contains x

/-- The sites that self-test finds bad (R24, R136). -/
def BootInfo.badSites (i : BootInfo) : List Nat := (List.range 1024).filter (fun x => i.sites.contains x || i.routers.contains x || i.badArray x)

/-- The results of a self-test (R647). -/
def State.showSelfTest (s : State) (kind boot : Nat) (bad : List Nat) : State :=
  let bad := (bad.filter (fun x => Nat.blt x 1024)).eraseDups
  let s := s.setFlds R.TST_BIST_STAT [(F.TST_BIST_STAT_KIND, kind), (F.TST_BIST_STAT_BOOT, boot), (F.TST_BIST_STAT_FAILED, bad.length)]
  let s := (List.range 16).foldl (fun s n => s.setReg (R.TST_BIST_SITE n) 0) s
  bad.foldl (fun s x => let r := R.TST_BIST_SITE (x / 64); s.setReg r (s.reg r ||| BitVec.ofNat 64 (2 ^ (x % 64)))) s

/-- Stage 4 (R23, R90, R107, R108, R135, R136): self-test results, harvesting, numbering. A disabled site has its reach and logical number 0x3FF. False where a dome has fewer than 480 good sites. -/
def State.harvest (s : State) (i : BootInfo) : Bool × State :=
  let bad := i.badSites
  let en := (goodSites 0 bad).take 480 ++ (goodSites 1 bad).take 480
  let s := (List.range 1024).foldl (fun s x =>
    let rep := if en.contains x then i.failedRows x else []
    let s := s.setFlds (R.SPR_CAP x) [(F.SPR_CAP_ENABLED, if en.contains x then 1 else 0), (F.SPR_CAP_REPAIRED, if rep = [] then 0 else 1), (F.SPR_CAP_REP_ROW, rep.headD 0), (F.SPR_CAP_ARRAY_ADJ, if rep = [] then 0 else 1)]
    s.setFlds (R.SPR_MAP x) [(F.SPR_MAP_REACH, 8 * domeOf x + reachOf x), (F.SPR_MAP_LOGICAL, (en.idxOf? x).getD 0x3FF)]) s
  let s := i.routers.foldl (fun s x =>
    let r := R.CNL_FAILED (domeOf x) (x % 512 / 64)
    s.setReg r (s.reg r ||| BitVec.ofNat 64 (2 ^ (x % 64)))) s
  let s := [0, 1].foldl (fun s d => s.setFld (R.CNL_STATUS d) F.CNL_STATUS_FAILED ((i.routers.filter (fun x => domeOf x == d)).eraseDups.length)) s
  (Nat.ble 960 en.length, s.showSelfTest 1 1 bad)

/-- The outputs a packet takes from router to router on its way to a site; none where the way ends short (R331). -/
def State.routeChannels (s : State) : Nat → Nat → Nat → Option (List Nat)
  | 0, _, _ => none
  | fuel + 1, cur, dst =>
    match s.routeToSite cur dst with
    | 0 => some []
    | p => match neighbour cur p with
      | some n => if s.routerFailed n then none else (s.routeChannels fuel n dst).map (fun l => (cur * 8 + p) :: l)
      | none => none

/-- The routes of all pairs of live routers of a dome. -/
def State.allRoutes (s : State) (d : Nat) : List (Option (List Nat)) :=
  let live := ((List.range 512).map (fun i => 512 * d + i)).filter (fun x => !s.routerFailed x)
  live.flatMap (fun a => live.map (fun b => s.routeChannels 1024 a b))

/-- A graph has no cycle: edges into a node that no edge leaves can go, and in the end all do. -/
def acyclic : Nat → List (Nat × Nat) → Bool
  | 0, es => es.isEmpty
  | fuel + 1, es => es.isEmpty || acyclic fuel (es.filter (fun e => es.any (fun f => f.1 == e.2)))

/-- The route tables are acceptable (R331): every pair of live routers has a route, and the channel-dependency graph of all routes, the same for every class, has no cycle. In a dome without a failed router
every route goes along its row and then its column, and both hold. -/
def State.tablesOk (s : State) : Bool :=
  [0, 1].all (fun d => s.fld (R.CNL_STATUS d) F.CNL_STATUS_FAILED == 0 ||
    (let rs := s.allRoutes d
     let es := (rs.flatMap (fun r => let l := r.getD []; l.zip l.tail)).eraseDups
     rs.all Option.isSome && acyclic es.length es))

/-- Stage 5 (R331): the canal route tables, and the aqueduct trained with them; no acceptable set sets HARVEST_FAIL. -/
def State.canalTables (s : State) (ok : Bool) : State :=
  let s : State := if ok then { (s.setAqState 0 2).setAqState 1 2 with aq := { s.aq with lost := [] } } else s
  [0, 1].foldl (fun s d => s.setFlds (R.CNL_STATUS d) [(F.CNL_STATUS_TABLES_VALID, if ok then 1 else 0), (F.CNL_STATUS_HARVEST_FAIL, if ok then 0 else 1)]) s

/-- TWR_FAR_CFG from what H1 enumerates (R305, R306, R308), capacities in MiB: equal capacities on 2 or 4 expanders are striped. -/
def State.setFarCfg (s : State) (caps : List Nat) (bifur : Nat) : State :=
  let up := caps != []
  let size := caps.foldl (· + ·) 0
  let striped := farStriped caps
  s.setFlds R.TWR_FAR_CFG [(F.TWR_FAR_CFG_LINK_UP, if up then 1 else 0), (F.TWR_FAR_CFG_BIFUR, bifur), (F.TWR_FAR_CFG_EXPANDERS, caps.length),
    (F.TWR_FAR_CFG_STRIPED, if striped then 1 else 0), (F.TWR_FAR_CFG_SIZE_GIB, min 4096 (size / 1024))]

/-- Stage 6 (R286, R296, R305): towers trained and zero-filled, H1 enumerated. -/
def State.towersUp (s : State) (i : BootInfo) : State :=
  let s := (List.range 8).foldl (fun s t =>
    let down := (i.offline.filter (fun x => x / 32 == t)).map (fun x => x % 32)
    let s := s.setFld (R.TWR_STATUS t) F.TWR_STATUS_STATE (if down = [] then 1 else 3)
    let w := (tfind s.towers t).getD s.newTower
    { s with towers := tinsert s.towers t { w with down := down, testing := none } }) s
  ({ s with mem := s.mem.filter (fun c => !isTower c.1), far := { reqs := [], failed := false, sizes := i.far } } : State).setFarCfg i.far i.bifur

/-- The retirement table from its copy in the health area (R302). -/
def State.loadRetire (s : State) : State :=
  let s := s.bsn.retireCopy.foldl (fun s (p : Nat × Word) => s.setReg (R.TWR_RETIRE p.1) p.2) s
  s.setFld R.TWR_RETIRE_USED F.TWR_RETIRE_USED_USED s.bsn.retireCopy.length

/-- The records that a load applies: the newest full one that reads whole, then those that follow it in RSEQ order up to the first gap or unreadable one (R540). `bad` are those that do not read whole. -/
def loadable (log : List PRec) (bad : List Nat) : List PRec :=
  match (log.filter (fun r => r.full && !bad.contains r.rseq)).getLast? with
  | none => []
  | some f =>
    let later := log.filter (fun r => Nat.blt f.rseq r.rseq)
    f :: ((later.zip (List.range later.length)).takeWhile (fun p => p.1.rseq == f.rseq + 1 + p.2 && !bad.contains p.1.rseq)).map Prod.fst

/-- The ring that the records give. -/
def ringOf (rs : List PRec) : Table JEntry := rs.foldl (fun t r => r.ents.foldl (fun t p => tinsert t p.1 p.2) t) []

/-- The ring from flash (R519, R540), or, where no full record reads whole, an empty one from the high-water mark. A journal to which nothing was ever written is empty and starts at DSEQ 1 (R511). -/
def State.loadJournal (s : State) (key : Bool) (bad : List Nat) : State :=
  let rs := if key then loadable s.jnl.log bad else []
  let ok := key && (rs != [] || s.bsn.records == 0)
  let ring := ringOf rs
  let newest := if ok then ring.foldl (fun m (p : Nat × JEntry) => max m p.2.dseq) 0 else s.jnl.highWater - 1
  let s : State := { s with jnl := { s.jnl with ring := ring, changed := [], covered := [] } }
  let s := (s.setReg R.JNL_NEWEST (BitVec.ofNat 64 newest)).setReg R.JNL_OLDEST (BitVec.ofNat 64 (if newest = 0 then 0 else max 1 (newest - 65535)))
  let s := s.setFlds R.JNL_STATUS [(F.JNL_STATUS_READY, 1), (F.JNL_STATUS_LOST, if ok then 0 else 1)]
  (s.bump R.BSN_RD_BYTES (4096 * (rs.map PRec.units).foldl (· + ·) 0)).journalRestart (if ok then s.pwr.restart else 4) 0

/-- The error records that the lockkeeper kept (R548). -/
def State.loadErrors (s : State) : State :=
  let l := s.errs.store
  let n := l.foldl (fun m r => max m r.rseq) 0
  let s : State := { s with errs := { s.errs with ring := l.foldl (fun t r => tinsert t (r.rseq % 1024) { r with flags := r.flags ||| 2, read := false }) [] } }
  (s.setReg R.ERR_NEWEST (BitVec.ofNat 64 n)).setFld R.ERR_STATUS F.ERR_STATUS_UNREAD l.length

/-- Stage 7 (R302, R519, R531, R532, R540, R541). -/
def State.basinUp (s : State) (i : BootInfo) : State :=
  let ok := i.key && i.health
  let s := s.setFlds R.BSN_STATUS [(F.BSN_STATUS_KEY_OK, if i.key then 1 else 0), (F.BSN_STATUS_HEALTH_LOST, if i.health then 0 else 1), (F.BSN_STATUS_STATE, if i.key then 1 else 3)]
  let s : State := { s with bsn := { s.bsn with factory := i.factory, retireCopy := if ok then s.bsn.retireCopy else [] } }
  let s := if i.key then s else s.bsnErr 4 3 0 0
  s.loadErrors.loadRetire.showBasin.loadJournal i.key i.unread

/-- Stage 8 ends when every link of the topology is ACTIVE, FAILED or MISWIRED, and the time base is locked or 10 s have passed (R605). -/
def State.linksDone (s : State) : Bool :=
  let topo := s.fld R.LNK_POD_CFG F.LNK_POD_CFG_TOPO
  ((List.range (groupsOf topo)).flatMap (fun k => groupLinks topo k 0 ++ groupLinks topo k 1)).all (fun n => let x := s.linkState n; x == 4 || x == 6 || x == 7)

/-- At READY, where more than PATROL_DAYS have passed since the last completed patrol pass, a full pass starts at once (R541). -/
def State.patrolDue (s : State) : State :=
  if max 1 (s.fld R.BSN_PATROL_CTL F.BSN_PATROL_CTL_PATROL_DAYS) * 86400000000000 < s.now - s.bsn.patrolEnd then { s with bsn := { s.bsn with patrolled := [] } } else s

/-- READY (R605, R608): fetching begins; pending images that booted become active. -/
def State.moduleReady (s : State) : State :=
  let act := [1, 2, 3].foldl (fun a typ => if tfind s.fw.pend typ = some (s.runs typ) then tset (fun _ => 0) a typ (s.runs typ) else a) s.fw.active
  let s : State := { s with fw := { s.fw with active := act, pend := s.fw.pend.filter (fun p => p.2 != s.runs p.1) }, pwr := { s.pwr with booting := false }, pod := { s.pod with ready := true }, jnl := { s.jnl with fullDone := false } }
  let s := [1, 2, 3].foldl (fun s typ => s.setFld (fwReg typ) F.SEC_FW_LK_PENDING (if (tfind s.fw.pend typ).isSome then 1 else 0)) s
  ((s.setFld R.SEC_BOOT_STAT F.SEC_BOOT_STAT_STAGE 9).setFld R.PWR_STATUS F.PWR_STATUS_STATE 0).patrolDue

def State.stage (s : State) : Nat := s.fld R.SEC_BOOT_STAT F.SEC_BOOT_STAT_STAGE

/-- The next stage begins. -/
def State.nextStage (s : State) : State :=
  ({ s with pwr := { s.pwr with stageAt := s.lk } } : State).setFld R.SEC_BOOT_STAT F.SEC_BOOT_STAT_STAGE (s.stage + 1)

/-- What a boot stage does as it ends (R604); the state is left short of the next stage where the stage fails, and R566 follows. -/
def State.stageDone (s : State) (i : BootInfo) : State :=
  match s.stage with
  | 0 =>
    let (b, s) := s.verifyType 1
    if b.isSome then s.nextStage else { s with pwr := { s.pwr with recovery := true, booting := false } }
  | 1 => if s.pwr.clamp && !s.pwr.oos then (s.railsOn i.step).nextStage.bump R.SEC_BOOTS else s
  | 2 =>
    let (b, s) := s.verifyType 2
    let (c, s) := s.verifyType 3
    if b.isSome && c.isSome then s.lanternBoots.nextStage else s
  | 3 => s.fwInit.nextStage
  | 4 => let (ok, s) := s.harvest i; if ok then s.nextStage else s
  | 5 => if s.tablesOk then (s.canalTables true).nextStage else s.canalTables false
  | 6 => let s := s.towersUp i; if i.offline = [] then s.nextStage else s
  | 7 => (s.basinUp i).nextStage.resetLinks
  | 8 =>
    if s.linksDone = false then s
    else if s.fld R.LNK_TB_STATUS F.LNK_TB_STATUS_LOCKED = 1 then s.moduleReady
    else (s.toLk (s.pwr.stageAt + 10000000000)).moduleReady.tbAlarm 0
  | _ => s

/-- BOOT_STAGE_COMPLETE (R604): a stage ends, with what it found. -/
def execBootStageComplete (i : BootInfo) (s : State) : Host.Outcome State Fault Refusal :=
  if s.pwr.booting && (s.pwr.at_ == .aux || s.pwr.at_ == .up) && i.done then .next (s.stageDone i) else .next s

/-- BOOT_TIMEOUT (R566): no ready 60 s after power returns. -/
def execBootTimeout (s : State) : Host.Outcome State Fault Refusal :=
  if s.pwr.booting && (s.pwr.at_ == .aux || s.pwr.at_ == .up) then .next (s.toLk (s.pwr.returned + 60000000000)).bootFailed else .next s

/-! The warm reset (R562, R563, R607). -/

/-- WARM_RESET (R492): the reset starts; the journal keeps the command. -/
def cmdWarmReset (_ : Cmd) (s : State) : Go × State := (.run 0, s)

/-- A WARM_RESET that starts begins the reset, after its notice. -/
def State.tryWarmReset (s : State) (id : Nat) : State :=
  let s := s.attempt 0x0604 id cmdWarmReset
  match s.cmd? id with
  | some c => if c.opcode = 0x0604 ∧ c.started then s.resetNotice.startWarm (some c) else s
  | none => s

def execWarmReset (id : Nat) (s : State) : Host.Outcome State Fault Refusal := .next (s.tryWarmReset id)

/-- The tables, the towers and the basin as a warm reset leaves them. -/
def State.warmParts (s : State) (i : BootInfo) : State :=
  let s := (s.canalTables s.tablesOk).towersUp i
  (s.setFld R.BSN_STATUS F.BSN_STATUS_STATE (if s.fld R.BSN_STATUS F.BSN_STATUS_KEY_OK = 1 then 1 else 3)).showBasin

/-- No warm reset is under way. -/
def State.endWarm (s : State) : State := { s with warm := none }

/-- A warm reset ends: the default table, the working region, the journal's restart record, READY, and the command's completion entry. -/
def State.warmDone (s : State) (cmd : Option Cmd) : State :=
  let s := ((s.endWarm.patrolDue.buildDefault s.bank).rewriteWork.journalRestart 3 (match cmd with | some c => c.dseq | none => 0)).setFld R.PWR_STATUS F.PWR_STATUS_STATE 0
  match cmd with
  | some c => s.postCmd c (s.cmdEntry c .resetDone .served true [])
  | none => s

/-- WARM_RESET_COMPLETE (R519, R563, R605, R607): images, self-test and harvesting, zero-fill, tables, links that are each ACTIVE, FAILED or MISWIRED, the journal restart; then the command's RESET_DONE. A module whose images fail, that cannot harvest, or has a channel OFFLINE, is not ready, and R566 follows. -/
def execWarmResetComplete (i : BootInfo) (s : State) : Host.Outcome State Fault Refusal :=
  match s.warm with
  | none => .next s
  | some w =>
    if i.done = false ∨ s.linksDone = false then .next s else
    let lt := s.verifyAgain 2
    let cfg := lt.2.verifyAgain 3
    let r := cfg.2.lanternBoots.harvest i
    let s := r.2.warmParts i
    if lt.1.isSome && cfg.1.isSome && r.1 && r.2.tablesOk && i.offline == [] then .next (s.warmDone w.cmd) else .next s.bootFailed

/-- WARM_RESET_TIMEOUT (R563): a warm reset not complete within WARM_LIM: RESET_TIMEOUT, and the module's power is cycled. -/
def execWarmResetTimeout (s : State) : Host.Outcome State Fault Refusal :=
  match s.warm with
  | none => .next s
  | some w =>
    let lim := max 1500 (s.fld R.ERR_CTL F.ERR_CTL_WARM_LIM)
    let s := { s with now := max s.now (w.since + lim * 1000000) }
    let s := s.cycleRecord 0x0802 8 ((s.now - w.since) / 1000000) 0
    let t := s.lk
    let s := s.railsOff .cycle
    .next { s with pwr := { s.pwr with due := t + 2000000000 } }

end Sys2Proof.Machine
end

