-- ==== Sys2Proof/Machine/Towers.lean ====
section
/-!
DEFINITION. Towers and the far tier: the check code, the scrubber, the log, temperature, margining (R288 to R300, R309), and H1 (R307, R308).
-/
namespace Sys2Proof.Machine

/-! The check code (R291, R292). -/

/-- Bits set in a byte. -/
def weight8 (n : Nat) : Nat := (List.range 8).foldl (fun v k => v + n / 2 ^ k % 2) 0

/-- The column of each of the 72 bits (R291). -/
def eccColumns : List Nat :=
  (List.range 256).filter (fun v => weight8 v == 3) ++ ((List.range 256).filter (fun v => weight8 v == 5)).take 8 ++ (List.range 8).map (fun k => 2 ^ k)

/-- The check byte of a word (R291). -/
def eccCheck (w : Word) : Nat := ((List.range 64).zip eccColumns).foldl (fun v p => if w.getLsbD p.1 then v ^^^ p.2 else v) 0

/-- The syndrome of a word whose bits of `f` read inverted. -/
def eccSyndrome (f : BitVec 72) : Nat := ((List.range 72).zip eccColumns).foldl (fun v p => if f.getLsbD p.1 then v ^^^ p.2 else v) 0

/-- The bit that a syndrome names, or none where it names none (R292). -/
def eccBit (syn : Nat) : Option Nat := eccColumns.findIdx? (fun c => c == syn)

/-! The log and the counts (R299, R300). -/

/-- TWR_STATUS.STATE: 0 INIT, 1 READY, 2 MARGIN, 3 OFFLINE (R310). -/
def State.towerState (s : State) (t : Nat) : Nat := s.fld (R.TWR_STATUS t) F.TWR_STATUS_STATE

/-- The device address of a barge of a channel: R282 to R285 inverted. -/
def State.channelAddr (s : State) (t ch c : Nat) : Nat := s.towerAddr (t / 4) (32 * (t % 4) + ch) c

/-- Write a log record at NEXT (R299). -/
def State.logTower (s : State) (t ch c byte source syn bit : Nat) (ue : Bool) : State :=
  let n := s.fld (R.TWR_LOG_PTR t) F.TWR_LOG_PTR_NEXT
  let a := (s.channelAddr t ch c + byte) / 8
  let s := if s.fld (R.TWR_LOG t n) F.TWR_LOG_VALID = 1 then s.bump (R.TWR_LOG_LOST t) else s
  let s := (s.setReg (R.TWR_LOG t n) 0).setFlds (R.TWR_LOG t n)
    [(F.TWR_LOG_ADDR_LO, a), (F.TWR_LOG_UE, if ue then 1 else 0), (F.TWR_LOG_SOURCE, source), (F.TWR_LOG_CHANNEL, ch), (F.TWR_LOG_BANK, bankOf c), (F.TWR_LOG_ROW, dramRowOf c),
     (F.TWR_LOG_COL, columnOf c), (F.TWR_LOG_SYNDROME, syn), (F.TWR_LOG_BIT, bit), (F.TWR_LOG_VALID, 1)]
  let s := s.setFlds (R.TWR_LOG_HI t n) [(F.TWR_LOG_HI_TIME, s.stamp), (F.TWR_LOG_HI_ADDR_HI, a / 2 ^ 13)]
  s.setFld (R.TWR_LOG_PTR t) F.TWR_LOG_PTR_NEXT (n + 1)

/-- The window of the counts in which `now` lies: [start, start + WINDOW), the counts of an earlier one restart at zero (R13, R300). -/
def State.rollCe (s : State) (t : Nat) : State :=
  let w := s.tower t
  let W := max 1 (s.fld (R.TWR_CE_LIMIT t) F.TWR_CE_LIMIT_WINDOW) * 3600000000000
  if s.now < w.ceStart + W then s else s.setTower t { w with ce := [], advised := [], ceStart := w.ceStart + (s.now - w.ceStart) / W * W }

/-- A correctable error in a bank: counted, and advised once in a window as the count reaches LIMIT (R300). -/
def State.towerCe (s : State) (t ch bank : Nat) : State :=
  let s := (s.rollCe t).bump (R.TWR_CE_COUNT t)
  let w := s.tower t
  let k := 64 * ch + bank
  let n := tget (fun _ => 0) w.ce k + 1
  let lim := s.fld (R.TWR_CE_LIMIT t) F.TWR_CE_LIMIT_LIMIT
  let hit := lim != 0 && Nat.ble lim n && !w.advised.contains k
  let s := s.setTower t { w with ce := tset (fun _ => 0) w.ce k n, advised := if hit then w.advised ++ [k] else w.advised }
  if hit then (s.note 0x0303 0 3 t (t * 32 + ch) bank).event .retireAdvised 3 t [t, ch, bank] else s

/-- An uncorrectable error in a tower (R295): its record is in the log; the count, the error record and the warm reset. -/
def State.towerUe (s : State) (t : Nat) : State :=
  let n := (s.fld (R.TWR_LOG_PTR t) F.TWR_LOG_PTR_NEXT + 63) % 64
  (s.bump (R.TWR_UE_COUNT t)).raise3 0x0301 3 t (s.reg (R.TWR_LOG t n)).toNat (s.reg (R.TWR_LOG_HI t n)).toNat

/-- Check the words of a barge in which bits read inverted, in order (R292, R293): a correctable word is corrected and written back; the first uncorrectable one ends the module's run. -/
def State.checkWords (s : State) (t ch c source : Nat) : List (Nat × BitVec 72) → State
  | [] => s
  | (w, f) :: r =>
    let syn := eccSyndrome f
    let byte := byteOfWord (w / 32) (w % 32)
    let a := s.channelAddr t ch c + byte
    let seen : Word := BitVec.ofNat 64 (s.loadLE a 8) ^^^ f.setWidth 64
    if 64 ≤ w then s.checkWords t ch c source r
    else if syn = 0 then ({ s with mem := Memory.writeLE s.mem a 8 seen.toNat } : State).checkWords t ch c source r
    else match eccBit syn with
      | some b =>
        let fixed := if b < 64 then seen ^^^ BitVec.ofNat 64 (2 ^ b) else seen
        let s : State := { s with mem := Memory.writeLE s.mem a 8 fixed.toNat }
        ((s.logTower t ch c byte source syn b false).towerCe t ch (bankOf c)).checkWords t ch c source r
      | none => (s.logTower t ch c byte source syn 0x7F true).towerUe t

/-- A severity report of the stack's on-die ECC: counted since power-on, to 255 (R281). -/
def State.countOdecc (s : State) (t : Nat) : State := s.setFld (R.TWR_STATUS t) F.TWR_STATUS_ODECC (min 255 (s.fld (R.TWR_STATUS t) F.TWR_STATUS_ODECC + 1))

/-- What a read of a barge found. -/
def State.towerRead (s : State) (t ch c source : Nat) (r : TowerRead) : State :=
  match r with
  | .words fs => s.checkWords t ch c source fs
  | .severe fs => (s.countOdecc t).checkWords t ch c source fs
  | .parity false => (s.logTower t ch c 0 3 0 0x7F false).towerCe t ch (bankOf c)
  | .parity true => (((s.logTower t ch c 0 3 0 0x7F false).towerCe t ch (bankOf c)).logTower t ch c 0 3 0 0x7F true).towerUe t

/-- A tower's channel runs: the tower is trained, and the channel is not OFFLINE. -/
def State.channelUp (s : State) (t ch : Nat) : Bool :=
  Nat.blt t 8 && Nat.blt ch 32 && (s.towerState t == 1 || s.towerState t == 3) && !(s.tower t).down.contains ch

/-- TOWER_READ_COMPLETE (R293 to R295): a read of a channel-local barge returns: `source` 0 a demand read, 2 a read-correct-write. -/
def execTowerReadComplete (t ch c source : Nat) (r : TowerRead) (s : State) : Host.Outcome State Fault Refusal :=
  .next (if s.channelUp t ch && Nat.blt c 6291456 then s.towerRead t ch c (if source = 2 then 2 else 0) r else s)

/-- TWR_LOG record, low word read: the high word is latched for the next read of the same record (R299). -/
def State.latchLog (s : State) (t n : Nat) : State := s.setTower t { s.tower t with latch := some (n, s.reg (R.TWR_LOG_HI t n)) }

/-- TOWER_LOG_LOW_READ (R299). -/
def execTowerLogLowRead (t n : Nat) (s : State) : Host.Outcome State Fault Refusal :=
  if t < 8 ∧ n < 64 then .next { s.latchLog t n with answers := s.answers ++ [.reg (R.TWR_LOG t n) (s.reg (R.TWR_LOG t n))] } else .next s

/-! Refresh, temperature (R288 to R290). -/

/-- The refresh period in ns at the tower's level (R289). -/
def State.refreshPeriod (s : State) (t : Nat) : Nat := if s.fld (R.TWR_STATUS t) F.TWR_STATUS_LEVEL = 0 then 32000000 else 16000000

/-- TOWER_REFRESH (R288): a bank's refresh falls due one period after its last. A refresh-management command that the stack's activation counters call for acts in the stack alone: contents, the bank's next
refresh and the module's registers stay. -/
def execTowerRefresh (t ch bank : Nat) (managed : Bool) (s : State) : Host.Outcome State Fault Refusal :=
  if s.channelUp t ch && Nat.blt bank 64 && !managed then
    let w := s.tower t
    let k := 64 * ch + bank
    let s := { s with now := max s.now (match tfind w.refreshed k with | some x => x + s.refreshPeriod t | none => 0) }
    .next (s.setTower t { w with refreshed := tinsert w.refreshed k s.now })
  else .next s

/-- The level at a reading (R289): entered at its lower bound, left 3 °C below it. -/
def levelAt (cur temp : Nat) : Nat :=
  let up := if 100 ≤ temp then 3 else if 95 ≤ temp then 2 else if 85 ≤ temp then 1 else 0
  let stay := if 97 < temp then 3 else if 92 < temp then 2 else if 82 < temp then 1 else 0
  max up (min cur stay)

/-- TOWER_TEMPERATURE_READ (R289, R290): once in each 1 ms window; a level of 2 or 3 that is entered posts an event; Trip is the lockkeeper's (R593). -/
def execTowerTemperatureRead (t temp : Nat) (s : State) : Host.Outcome State Fault Refusal :=
  if 8 ≤ t ∨ s.towerState t = 0 ∨ s.pwr.at_ ≠ .up then .next s else
  let w := s.tower t
  let s := { s with now := max s.now (w.tempWin * 1000000) }
  let s := s.countThrottle t
  let s := s.setTower t { s.tower t with tempWin := s.now / 1000000 + 1 }
  let cur := s.fld (R.TWR_STATUS t) F.TWR_STATUS_LEVEL
  let l := levelAt cur temp
  let s := s.setFlds (R.TWR_STATUS t) [(F.TWR_STATUS_TEMP, min temp 255), (F.TWR_STATUS_LEVEL, l)]
  let s := if cur < l ∧ 2 ≤ l then s.event .towerThrottle 3 t [t, l] else s
  .next (if 105 ≤ temp then s.thermalTrip (128 + t) temp else s)

/-- CE_WINDOW_START (R300, R313): a window of WINDOW hours begins; the counts of the tower restart. -/
def execCeWindowStart (t : Nat) (s : State) : Host.Outcome State Fault Refusal :=
  if 8 ≤ t ∨ s.towerState t = 0 then .next s else
  .next ({ s with now := max s.now ((s.tower t).ceStart + max 1 (s.fld (R.TWR_CE_LIMIT t) F.TWR_CE_LIMIT_WINDOW) * 3600000000000) }.rollCe t)

/-! The scrubber (R297, R298). -/

/-- Positions of a pass. -/
def scrubPositions : Nat := 201326592

/-- The period in ns. -/
def State.scrubPeriod (s : State) (t : Nat) : Nat := max 3600 (min 604800 (s.fld (R.TWR_SCRUB_CTL t) F.TWR_SCRUB_CTL_PERIOD)) * 1000000000

/-- SCRUB_POSITION_DUE (R297): the next position, on its pace or, behind schedule, at up to four times it; a pass that ends after its window is late. -/
def execScrubPositionDue (t : Nat) (flips : List (Nat × BitVec 72)) (s : State) : Host.Outcome State Fault Refusal :=
  if (Nat.blt t 8 && s.fld (R.TWR_SCRUB_CTL t) F.TWR_SCRUB_CTL_EN == 1 && (s.towerState t == 1 || s.towerState t == 3)) = false then .next s else
  let w := s.tower t
  let p := s.fld (R.TWR_SCRUB_POS t) F.TWR_SCRUB_POS_POS
  let T := s.scrubPeriod t
  let due := w.passStart + p * T / scrubPositions
  let s := { s with now := max s.now (if p = 0 then due else max due (w.scrubbed + T / (4 * scrubPositions))) }
  let ch := p % 32
  let c := p / 32
  let last := p + 1 == scrubPositions
  let late := last && Nat.ble (w.passStart + T) s.now
  let start := if late then s.now else if last then w.passStart + T else w.passStart
  let s := (s.setTower t { w with scrubbed := s.now, passStart := start }).setFld (R.TWR_SCRUB_POS t) F.TWR_SCRUB_POS_POS (if last then 0 else p + 1)
  let s := if last then s.bump (R.TWR_SCRUB_PASSES t) else s
  let s := if late then s.bump (R.TWR_SCRUB_LATE t) else s
  if s.retired (s.channelAddr t ch c) then .next (s.bump R.TWR_RETIRED_HIT)
  else if w.down.contains ch then .next s
  else .next (s.checkWords t ch c 1 flips)

/-! A channel that hangs (R560). -/

/-- CHANNEL_HANG: a request held at its controller for 1 ms takes the channel OFFLINE; `addr` is the oldest request's address. -/
def execChannelHang (t ch addr : Nat) (s : State) : Host.Outcome State Fault Refusal :=
  if s.channelUp t ch then
    let w := s.tower t
    let s := (s.setTower t { w with down := w.down ++ [ch] }).setFld (R.TWR_STATUS t) F.TWR_STATUS_STATE 3
    .next ((s.raise 0x0302 3 t 2 (t * 32 + ch) addr).pushReinit 3 (t * 32 + ch) none)
  else .next s

/-! Margining (R309, R314). -/

def State.debugOpen (s : State) : Bool := s.fld R.SEC_STATE F.SEC_STATE_DEBUG_OPEN == 1

/-- A write of TWR_MARGIN_CTL (R309, R314): ignored outside MARGIN or while the debug lock is closed; START runs one test of COUNT · 2^20 bits, 163.84 µs a unit (R641). -/
def State.writeMargin (s : State) (t : Nat) (v : Word) : State :=
  if (s.towerState t == 2 && s.debugOpen) = false then s else
  let s := s.setReg (R.TWR_MARGIN_CTL t) (fset v F.TWR_MARGIN_CTL_START 0 &&& 0x7FFFFFFF)
  if fget v F.TWR_MARGIN_CTL_START = 1 then
    let n := max 1 (fget v F.TWR_MARGIN_CTL_COUNT)
    (s.setTower t { s.tower t with testing := some (s.now + n * 163840) }).setReg (R.TWR_MARGIN_RESULT t) 0
  else s

/-- MARGIN_TEST_START (R309). -/
def execMarginTestStart (t : Nat) (v : Word) (s : State) : Host.Outcome State Fault Refusal := .next (if t < 8 then s.writeMargin t v else s)

/-- MARGIN_TEST_DONE (R309, R314): a test ends with its bit errors, saturating. -/
def execMarginTestDone (t errors : Nat) (s : State) : Host.Outcome State Fault Refusal :=
  let w := s.tower t
  match w.testing with
  | some e =>
    let s := { s with now := max s.now e }
    .next ((s.setTower t { w with testing := none }).setFlds (R.TWR_MARGIN_RESULT t) [(F.TWR_MARGIN_RESULT_DONE, 1), (F.TWR_MARGIN_RESULT_ERRORS, min errors 0xFFFFFFFF)])
  | none => .next s

/-! The far tier (R307, R308). -/

/-- A far request fails with status 3 (R308). -/
def State.farFailOne (s : State) (r : FarReq) : State :=
  (s.bump R.TWR_FAR_FAIL).respond r.pkt (if r.pkt.typ = 1 then 2 else 4) (if r.pkt.typ = 1 then 8 else 0) 3 []

/-- H1 has failed (R308): every outstanding request fails and every later one will; the record, the job fault, and rung 2 of H1. -/
def State.farFails (s : State) : State :=
  let rs := s.far.reqs
  let a := match rs with | r :: _ => r.pkt.addr / 512 * 512 | [] => 0
  let s : State := { s with far := { s.far with reqs := [], failed := true } }
  let s := rs.foldl (fun s r => s.farFailOne r) s
  (s.raise 0x0306 3 0x100 2 a 0).pushReinit 6 0 none

/-- FAR_READ_COMPLETION (R307, R308): the expander completes the k-th outstanding request; one to a barge with an earlier request waits (R250); a poisoned read is an uncorrectable error, which
no tower found: the count of tower 0 takes it (R295; DESIGN CHOICE, notes/assumptions/122.md). -/
def execFarReadCompletion (k : Nat) (poison : Bool) (s : State) : Host.Outcome State Fault Refusal :=
  match s.far.reqs[k]? with
  | none => .next s
  | some r =>
    let a := r.pkt.addr / 512 * 512
    if (s.far.reqs.take k).any (fun x => x.pkt.addr / 512 * 512 == a) then .next s else
    let s : State := { s with far := { s.far with reqs := s.far.reqs.eraseIdx k } }
    if r.pkt.typ = 1 then
      (if poison then .next (((s.bump R.TWR_FAR_FAIL).bump (R.TWR_UE_COUNT 0)).raise3 0x0305 3 0x100 a 0)
       else .next ((s.bump R.TWR_FAR_RD).respond r.pkt 2 8 0 (s.load a 512)))
    else .next (((s.bump R.TWR_FAR_WR).commitQuarters (s.wrQuarters r.pkt 0)).ackWrite r.pkt 0)

/-- FAR_REQUEST_TIMEOUT (R308): a far request stays uncompleted for 10 ms. -/
def execFarRequestTimeout (s : State) : Host.Outcome State Fault Refusal :=
  match s.far.reqs with
  | r :: _ => .next ({ s with now := max s.now (r.since + 10000000) } : State).farFails
  | [] => .next s

/-- FAR_LINK_LOSS (R308). -/
def execFarLinkLoss (s : State) : Host.Outcome State Fault Refusal :=
  if s.fld R.TWR_FAR_CFG F.TWR_FAR_CFG_LINK_UP = 1 && !s.far.failed then .next s.farFails else .next s

end Sys2Proof.Machine
end

