-- ==== Sys2Proof/Machine/MemCommands.lean ====
section
/-!
DEFINITION. The memory group of commands (R262, R263, R286, R301, R302, R484).
-/
namespace Sys2Proof.Machine

/-! Copies and fills. -/

/-- What stops a copy or a fill at a barge (R484): 1 a retired location, 2 the shadow area while speculation is enabled, 3 a disabled or FENCED site, 4 a far tier that fails. -/
def State.copyBad (s : State) (a : Nat) : Nat :=
  match lsSite a with
  | some site => if s.siteUp site then 0 else 3
  | none =>
    if s.specOn && inShadow a then 2
    else if s.retired a then 1
    else if s.isFar a && s.far.failed then 4 else 0

/-- The fault of a copy at an address: a retirement entry is counted, with Lantern's record and the job fault (R303). -/
def State.copyFault (s : State) (a : Nat) : State := if s.copyBad a = 1 then s.retiredHit a 1 else s

/-- A range touches a local-store window. -/
def touchesSite (a : Nat) : Bool := (lsSite a).isSome

/-- Move barges in ascending order until one faults: the barges moved, whether all were, and the state. -/
def copyBarges : Nat → Nat → Nat → Nat → State → Nat × Bool × State
  | 0, _, _, n, s => (n, true, s)
  | k + 1, src, dst, n, s =>
    if s.copyBad src ≠ 0 then (n, false, s.copyFault src)
    else if s.copyBad dst ≠ 0 then (n, false, s.copyFault dst)
    else (let s := (s.reachAddr src).reachAddr dst; copyBarges k (src + 512) (dst + 512) (n + 1) (s.store dst (s.load src 512)))

/-- COPY (R484): whole barges, checked at admission to lie in one window each. -/
def cmdCopy (c : Cmd) (s : State) : Go × State :=
  let src := c.par 0 8
  let dst := c.par 8 8
  if s.quiescent && (touchesSite src || touchesSite dst) then (.wait .waitIdle unknown, s)
  else
    let (n, ok, s) := copyBarges (c.par 16 8 / 512) src dst 0 s
    (.done (if ok then .ok else .copyAddress) [n], s)

def execCopy (id : Nat) (s : State) : Host.Outcome State Fault Refusal := .next (s.attempt 0x0201 id cmdCopy)

/-- Fill barges with an 8-byte pattern. -/
def fillBarges : Nat → Nat → List Byte → Nat → State → Nat × Bool × State
  | 0, _, _, n, s => (n, true, s)
  | k + 1, dst, bs, n, s =>
    if s.copyBad dst ≠ 0 then (n, false, s.copyFault dst) else fillBarges k (dst + 512) bs (n + 1) ((s.reachAddr dst).store dst bs)

/-- FILL (R484). -/
def cmdFill (c : Cmd) (s : State) : Go × State :=
  let dst := c.par 0 8
  if s.quiescent && touchesSite dst then (.wait .waitIdle unknown, s)
  else
    let (n, ok, s) := fillBarges (c.par 8 8 / 512) dst ((List.range 64).flatMap (fun _ => bytesLE 8 (c.par 16 8))) 0 s
    (.done (if ok then .ok else .copyAddress) [n], s)

def execFill (id : Nat) (s : State) : Host.Outcome State Fault Refusal := .next (s.attempt 0x0202 id cmdFill)

/-! Translations (R262, R263). -/

/-- Every cached translation of a page that overlaps a range goes; a length of 0 means all (R263). -/
def State.invalidate (s : State) (a n : Nat) : State :=
  { s with spires := s.spires.map (fun (p : Nat × Spire) =>
      (p.1, { p.2 with mover := { p.2.mover with xlt := p.2.mover.xlt.filter (fun x => !(n == 0 || (Nat.blt x.va (a + n) && Nat.blt a (x.va + x.size)))) } })) }

/-- A spire has a request on its way that an old translation of the range placed (R263). -/
def Spire.usesOld (p : Spire) (a n : Nat) : Bool :=
  let hit := fun (b : Nat) => n == 0 || (Nat.blt b (a + n) && Nat.blt a (b + 512))
  p.mover.ops.any (fun o => o.reqs.any (fun r => r.st == .sent && (lsSite r.barge).isNone && hit r.barge)) || p.mover.pre.any (fun x => hit x.va)

def State.usesOld (s : State) (a n : Nat) : Bool := s.spires.any (fun (p : Nat × Spire) => p.2.usesOld a n)

/-- XLT_INVALIDATE (R263): what is on its way finishes at the old frame first. -/
def cmdXltInvalidate (c : Cmd) (s : State) : Go × State :=
  if s.usesOld (c.par 0 8) (c.par 8 8) then (.run 0, s.invalidate (c.par 0 8) (c.par 8 8)) else (.done .ok [], s.invalidate (c.par 0 8) (c.par 8 8))

/-- An XLT_INVALIDATE that has begun completes once no request uses an old translation. -/
def execXltInvalidate (id : Nat) (s : State) : Host.Outcome State Fault Refusal :=
  match s.cmd? id with
  | some c =>
    if c.opcode = 0x0203 ∧ c.started then .next (if s.usesOld (c.par 0 8) (c.par 8 8) then s else s.finishCmd id .ok [])
    else .next (s.attempt 0x0203 id cmdXltInvalidate)
  | none => .next s

/-- Sites whose mover holds a TRANSLATION fault that `f` takes, by its address and MIGR. -/
def State.translationSites (s : State) (f : Nat → Bool → Bool) : List Nat :=
  (s.spires.filter (fun (p : Nat × Spire) => p.2.mover.faultAt.isSome && f (s.reg (R.SPR_FAULT_ADDR p.1)).toNat p.2.mover.migr)).map Prod.fst

/-- The fault of a site becomes ADDRESS (R101). -/
def State.faultToAddress (s : State) (site : Nat) : State :=
  let row := s.fld (R.SPR_FAULT site) F.SPR_FAULT_ROW
  let q := s.fld (R.SPR_FAULT site) F.SPR_FAULT_QPOS
  let addr := (s.reg (R.SPR_FAULT_ADDR site)).toNat
  let iter := if s.fld (R.SPR_LOOP_FAULT site) F.SPR_LOOP_FAULT_VALID = 1 then some (s.fld (R.SPR_LOOP_FAULT site) F.SPR_LOOP_FAULT_ITER) else none
  let s := s.setReg (R.SPR_FAULT site) 0
  let s := s.modMover site (fun m => { m with faultAt := none, abandoned := [] })
  s.spireFault site clAddress 3 row q addr iter

/-- Nodes whose predicate waits for the page of an address, as (graph, node). -/
def State.waitingNodes (s : State) (a : Nat) : List (Nat × Nat) :=
  s.graphs.flatMap (fun (p : Nat × Graph) => (List.range p.2.nodes.length).filterMap (fun k =>
    match p.2.nodes[k]? with | some n => if n.asked ∧ n.st = .wait ∧ predAddr n.pred = a then some (p.1, k) else none | none => none))

/-- A node that waited for a page evaluates its predicate again. -/
def State.retryNode (s : State) (g k : Nat) : State :=
  match tfind s.graphs g with
  | some x => s.setGraph g { x with nodes := x.nodes.mapIdx (fun i m => if i = k then { m with asked := false } else m) }
  | none => s

/-- A node whose page cannot be resolved fails with ADDRESS (R172). -/
def State.failNode (s : State) (g k a : Nat) : State := (s.nodeDone g k .taskFault [3 * 2 ^ 28]).raise 0x0201 0 0 0 0 a

/-- Engine queues whose collective waits for the page of an address (R390). -/
def State.waitingColls (s : State) (a : Nat) : List Nat := (s.coll.running.filter (fun (p : Nat × Coll) => p.2.pageWait == some a)).map Prod.fst

/-- Nodes and collectives that wait for a migration (R262). -/
def State.migrNodes (s : State) : List (Nat × Nat) :=
  s.graphs.flatMap (fun (p : Nat × Graph) => (List.range p.2.nodes.length).filterMap (fun k => match p.2.nodes[k]? with | some n => if n.asked ∧ n.migr then some (p.1, k) else none | none => none))

def State.migrColls (s : State) : List Nat := (s.coll.running.filter (fun (p : Nat × Coll) => p.2.pageWait.isSome && p.2.pageMigr)).map Prod.fst

/-- Device time has reached the end of the limit of R262 for a wait that began at `t`. -/
def State.resolveLimit (s : State) (t : Nat) : State := { s with now := max s.now (t + 1000 * (s.reg R.GLB_XLT_RESOLVE_LIM).toNat) }

/-- XLT_RESOLVE_TIMEOUT (R172, R262, R390): no resolution within the limit; the fault becomes ADDRESS: of a mover, of a node, of a collective. -/
def execXltResolveTimeout (w : PageWaiter) (s : State) : Host.Outcome State Fault Refusal :=
  match w with
  | .site i =>
    (match (s.spire i).mover.faultAt with
     | some t => .next ((s.resolveLimit t).faultToAddress i)
     | none => .next s)
  | .node g k =>
    (match (tfind s.graphs g).bind (fun x => x.nodes[k]?) with
     | some n => .next (if n.asked ∧ n.st = .wait then (s.resolveLimit n.askedAt).failNode g k (predAddr n.pred) else s)
     | none => .next s)
  | .coll q =>
    match s.collAt q with
    | some c => .next (if c.pageWait.isSome then (s.resolveLimit c.pageAt).collAddressFault q else s)
    | none => .next s

/-- PAGE_RESOLVE (R262, R484): each TRANSLATION fault at an address is cleared, or converted to ADDRESS; a collective or a predicate that waits there goes on or fails with it. -/
def cmdPageResolve (c : Cmd) (s : State) : Go × State :=
  let a := c.par 0 8
  let fail := c.par 8 1 == 1
  let sites := s.translationSites (fun x _ => x == a)
  let nodes := s.waitingNodes a
  let qs := s.waitingColls a
  let s := sites.foldl (fun s i => if fail then s.faultToAddress i else s.clearFault i) s
  let s := nodes.foldl (fun s n => if fail then s.failNode n.1 n.2 a else s.retryNode n.1 n.2) s
  let s := qs.foldl (fun s q => if fail then s.collAddressFault q else s.collReady q) s
  (.done .ok [sites.length + nodes.length + qs.length], s)

def execPageResolve (id : Nat) (s : State) : Host.Outcome State Fault Refusal := .next (s.attempt 0x0204 id cmdPageResolve)

/-- PAGE_MIGRATE (R262, R484): the frame is copied, the entry rewritten with P = 1 and MIGR = 0, the translations of the page dropped, the faults held for it cleared. -/
def cmdPageMigrate (c : Cmd) (s : State) : Go × State :=
  let ea := c.par 0 8
  let frame := c.par 8 8
  let size := if c.par 16 1 = 0 then 0x10000 else 0x200000
  let e := s.loadLE ea 8
  if (e % 2 == 0 && e / 32 % 2 == 1) = false then (.done .badState [], s)
  else
    let old := e / 256 % 2 ^ 40 * 256
    let s := s.store frame (s.load old size)
    let e' := e + 1 - 32 - old + frame / 256 * 256 % 2 ^ 48
    let s := s.storeLE ea 8 e'
    let hit := fun (x : Xlt) => Nat.blt x.frame (old + size) && Nat.blt old (x.frame + x.size)
    let s : State := { s with spires := s.spires.map (fun (p : Nat × Spire) => (p.1, { p.2 with mover := { p.2.mover with xlt := p.2.mover.xlt.filter (fun x => !hit x) } })) }
    let sites := (s.translationSites (fun _ m => m)).filter (fun i =>
      match s.walk (s.xltRoot i) (s.reg (R.SPR_FAULT_ADDR i)).toNat with | .page _ => true | _ => false)
    let s := sites.foldl (fun s i => s.clearFault i) s
    let s := s.migrNodes.foldl (fun s n => s.retryNode n.1 n.2) s
    (.done .ok [], s.migrColls.foldl (fun s q => s.collReady q) s)

def execPageMigrate (id : Nat) (s : State) : Host.Outcome State Fault Refusal := .next (s.attempt 0x0205 id cmdPageMigrate)

/-! Interleave (R284, R286). -/

/-- An entry set that R284 allows: eight of mode DOME, or eight REACH entries whose targets are the reaches 0 to 7, each once. -/
def ilSetOk (es : List Nat) : Bool := es.all (fun e => e == 0) || (es.all (fun e => Nat.ble 64 e && Nat.blt e 72) && (List.range 8).all (fun q => es.contains (64 + q)))

/-- The eight entries of an INTERLEAVE. -/
def Cmd.ilEntries (c : Cmd) : List Nat := (List.range 8).map (fun k => c.par (8 + k) 1)

/-- The addresses of a group of a dome: 8 GiB (R282). -/
def inGroup (d g a : Nat) : Bool := Nat.ble (d * 0x006000000000 + g * 0x200000000) a && Nat.blt a (d * 0x006000000000 + (g + 1) * 0x200000000)

/-- A new set of entries moves no data: each address of the group reads what its new place holds (R287). -/
def State.setInterleave (s : State) (d g : Nat) (es : Word) : State :=
  let t := s.setReg (R.TWR_IL (48 * d + g)) es
  let moved := (s.mem.filter (fun c => inGroup d g c.1)).map (fun c => let p := s.towerPlace c.1; (t.towerAddr p.1 p.2.1 p.2.2 + c.1 % 512, c.2))
  { t with mem := moved.foldl (fun m c => Memory.writeByte m c.1 c.2) (s.mem.filter (fun c => !inGroup d g c.1)) }

/-- INTERLEAVE (R286, R287): refused for an invalid set, or for the shadow group while speculation is enabled; delayed while a task runs or an epoch slot is held. Every L1 is invalidated. -/
def cmdInterleave (c : Cmd) (s : State) : Go × State :=
  let d := c.par 0 1
  let g := c.par 1 1
  if ilSetOk c.ilEntries = false then (.refuse .badParam 8, s)
  else if s.specOn && g == 47 then (.refuse .badState 1, s)
  else if (s.tasks.isEmpty && s.epState 0 == 0 && s.epState 1 == 0) = false then
    (.wait .waitIdle (match s.tasks with | (_, t) :: _ => s.taskRest t | [] => unknown), s)
  else
    let s : State := { s with spires := s.spires.map (fun (p : Nat × Spire) => (p.1, { p.2 with mover := { p.2.mover with l1 := [] } })) }
    let s := s.setInterleave d g (BitVec.ofNat 64 (c.par 8 8))
    (.done .ok [], if d = 0 ∧ g = 46 then s.rewriteWork else s)

def execInterleave (id : Nat) (s : State) : Host.Outcome State Fault Refusal := .next (s.attempt 0x0206 id cmdInterleave)

/-! Retirement (R301, R302). -/

/-- A well-formed entry (R301): fields its kind does not use are zero, a frame is in the tower or the far window. -/
def State.retireOk (s : State) (w : Nat) : Bool :=
  let a := w % 2 ^ 48
  match w / 2 ^ 62 with
  | 1 => w / 2 ^ 48 % 2 ^ 14 == 0 && a % 0x10000 == 0 && (isTower a || s.isFar a)
  | 2 => w / 2 ^ 48 % 2 ^ 14 == 0 && a % 0x200000 == 0 && (isTower a || s.isFar a)
  | 3 => w / 2 ^ 16 % 2 ^ 46 == 0 && w / 2 ^ 11 % 4 == 0
  | _ => false

def State.showRetired (s : State) : State := s.setFld R.TWR_RETIRE_USED F.TWR_RETIRE_USED_USED s.retireEntries.length

/-- RETIRE (R302): a malformed entry, a duplicate or a full table is refused; else the lowest empty place takes it, here and in the health area. -/
def cmdRetire (c : Cmd) (s : State) : Go × State :=
  let w := c.par 0 8
  let es := s.retireEntries
  if s.retireOk w = false then (.refuse .badParam 0, s)
  else if es.any (fun e => e.2 == w) then (.refuse .retireDuplicate 0, s)
  else match (List.range 512).find? (fun k => !es.any (fun e => e.1 == k)) with
    | none => (.refuse .retireFull 0, s)
    | some k =>
      let s := (s.setReg (R.TWR_RETIRE k) (BitVec.ofNat 64 w)).showRetired
      (.done .ok [k], { s with bsn := { s.bsn with retireCopy := tinsert s.bsn.retireCopy k (BitVec.ofNat 64 w) } })

def execRetire (id : Nat) (s : State) : Host.Outcome State Fault Refusal := .next (s.attempt 0x0207 id cmdRetire)

/-- RETIRE_CLEAR (R302, R484): one entry, or all of them. -/
def cmdRetireClear (c : Cmd) (s : State) : Go × State :=
  let k := c.par 0 2
  let s : State := { s with
    regs := s.regs.filter (fun (p : Nat × Word) => !(if k = 0xFFFF then Nat.ble (R.TWR_RETIRE 0) p.1 && Nat.blt p.1 (R.TWR_RETIRE 512) else p.1 == R.TWR_RETIRE k)),
    bsn := { s.bsn with retireCopy := if k = 0xFFFF then [] else terase s.bsn.retireCopy k } }
  (.done .ok [], s.showRetired)

def execRetireClear (id : Nat) (s : State) : Host.Outcome State Fault Refusal := .next (s.attempt 0x0208 id cmdRetireClear)

end Sys2Proof.Machine
end

