-- ==== Sys2Proof/Machine/Recovery.lean ====
section
/-!
DEFINITION. The error ring's reader, fencing, rung 2 of the ladder (R332, R552, R559 to R561), the journal's and the device's own commands (R483, R516, R520).
-/
namespace Sys2Proof.Machine

/-! The device group (R483). -/

/-- NOP (R483). -/
def cmdNop (_ : Cmd) (s : State) : Go × State := (.done .ok [], s)

def execNop (id : Nat) (s : State) : Host.Outcome State Fault Refusal := .next (s.attempt 0x0101 id cmdNop)

/-- IDENTIFY (R483): silicon stepping, firmware version, serial number. -/
def cmdIdentify (_ : Cmd) (s : State) : Go × State :=
  (.done .ok [Config.stepping.toNat, s.fld R.SEC_FW_LT F.SEC_FW_LK_VERSION, Config.serial.toNat % 2 ^ 32, Config.serial.toNat / 2 ^ 32], s)

def execIdentify (id : Nat) (s : State) : Host.Outcome State Fault Refusal := .next (s.attempt 0x0102 id cmdIdentify)

/-- TIME_READ (R483). -/
def cmdTimeRead (_ : Cmd) (s : State) : Go × State :=
  (.done .ok [s.now % 2 ^ 32, s.now / 2 ^ 32, s.fld R.LNK_TB_STATUS F.LNK_TB_STATUS_LOCKED], s)

def execTimeRead (id : Nat) (s : State) : Host.Outcome State Fault Refusal := .next (s.attempt 0x0105 id cmdTimeRead)

/-! Error records (R549, R552). -/

/-- The 64 bytes of a record (R549). -/
def errBytes (r : ErrRec) : List Byte :=
  bytesLE 8 r.rseq ++ bytesLE 8 r.time ++ bytesLE 1 r.cls ++ bytesLE 1 r.skind ++ bytesLE 2 r.sindex ++ bytesLE 2 r.cause ++ bytesLE 1 r.rung ++ bytesLE 1 r.flags
    ++ bytesLE 8 r.jobId ++ bytesLE 8 r.detail0 ++ bytesLE 8 r.detail1 ++ bytesLE 8 r.dseq ++ bytesLE 2 r.stopId ++ List.replicate 6 0

/-- Records of the ring written after the newest one returned, in RSEQ order (R552). -/
def State.unread (s : State) : List ErrRec :=
  sortOn (fun r => r.rseq) ((s.errs.ring.map Prod.snd).filter (fun r => Nat.blt s.errs.lastRead r.rseq))

/-- ERR_READ (R552). -/
def cmdErrRead (c : Cmd) (s : State) : Go × State :=
  let rs := s.unread.take (c.par 8 2)
  let s := s.lanternStore (c.par 0 8) (rs.flatMap errBytes)
  let got := rs.map ErrRec.rseq
  let ring : Table ErrRec := s.errs.ring.map (fun (p : Nat × ErrRec) => (p.1, if got.contains p.2.rseq then { p.2 with read := true } else p.2))
  let lost := s.errs.lost
  let s : State := { s with errs := { s.errs with ring := ring, lastRead := got.foldl max s.errs.lastRead, lost := 0 } }
  (.done .ok [rs.length, lost], s.setFld R.ERR_STATUS F.ERR_STATUS_UNREAD (ring.filter (fun (p : Nat × ErrRec) => !p.2.read)).length)

def execErrRead (id : Nat) (s : State) : Host.Outcome State Fault Refusal := .next (s.attempt 0x0601 id cmdErrRead)

/-! Fencing (R332). -/

/-- A spire has power: Lantern takes it from a FENCED one only once both contexts of its array are QUIET, whose ramp the fence does not cut short (R142). -/
def State.spirePowered (s : State) (site : Nat) : Bool :=
  let t := s.spireNs site
  let quiet := fun (h : HoldCtx) => (h.at_ (s.gapThresh site) t).st == 0
  s.spState site != 6 || !(quiet (s.spire site).hold0 && quiet (s.spire site).hold1)

/-- A spire is fenced, once the packets in its queue are delivered (R332); a gang that runs on it is aborted first, since its engines can no longer finish. -/
def State.fenceSite (s : State) (site : Nat) : State :=
  let s := match s.taskAt site with
    | some t =>
      let s := t.gang.foldl (fun (s : State) i => s.abortSpire i 9) s
      s.raise 0x0201 2 site 0 (s.reg (R.SPR_FAULT site)).toNat 0
    | none => s
  let s : State := { s with canal := { s.canal with before := s.canal.before ++ s.canal.arrived.filter (fun p => p.dkind == 0 && p.dest == site) } }
  s.setSpState site 6

/-- SPIRE_FENCE (R332, R492). -/
def cmdSpireFence (c : Cmd) (s : State) : Go × State :=
  match s.siteOf (c.par 0 2) with
  | none => (.refuse .badParam 0, s)
  | some site =>
    if c.par 2 1 = 0 then (.done .ok [], if s.spState site = 6 then s else s.fenceSite site)
    else (.done .ok [], if s.spState site = 6 then s.setSpState site 0 else s)

def execSpireFence (id : Nat) (s : State) : Host.Outcome State Fault Refusal := .next (s.attempt 0x0602 id cmdSpireFence)

/-! Rung 2 (R560, R561). -/

/-- The limit of a rung 2 in ns, from the state its link was in (R560). -/
def State.rungLimit (s : State) (kind index : Nat) : Nat :=
  match kind with
  | 0 => 1000000 | 1 => 1000000 | 2 => if s.linkState index = 5 then 5000000 else 500000000 | 3 => 200000000 | 4 => 2000000000 | 5 => 200000 | _ => 1000000000

/-- Rung 2 of a queue pair: it is disabled, its hold discarded (R560). -/
def State.queueReinit (s : State) (q : Nat) (cmd : Option Nat) : State :=
  let was := (if s.sqOn q then 1 else 0) + (if s.cqOn q then 2 else 0)
  ((s.setFld (R.HCP_Q_CFG q) F.HCP_Q_CFG_SQ_EN 0).cqDisable q).pushReinit 1 q cmd was

/-- What a commanded rung 2 does as it starts (R560). -/
def State.beginReinit (s : State) (kind index id : Nat) : State :=
  match kind with
  | 0 => (s.dropStreams index).pushReinit 0 index (some id)
  | 1 => s.queueReinit index (some id)
  | 2 => (if s.linkState index = 4 then s.enterRetrain index else (s.enterLink index 1).setLink index { s.link index with since := s.now, tries := 0 }).pushReinit 2 index (some id)
  | 3 =>
    let t := index / 32
    let w := s.tower t
    ((s.setTower t { w with down := if w.down.contains (index % 32) then w.down else w.down ++ [index % 32] }).setFld (R.TWR_STATUS t) F.TWR_STATUS_STATE 3).pushReinit 3 index (some id)
  | 4 => s.basinReinit (some id)
  | 5 => (s.setAqState index 1).pushReinit 5 index (some id)
  | _ =>
    let rs := s.far.reqs
    let s : State := { s with far := { s.far with reqs := [], failed := true } }
    (rs.foldl (fun s r => s.farFailOne r) s).pushReinit 6 0 (some id)

/-- FUNC_REINIT (R492, R560, R561). -/
def cmdFuncReinit (c : Cmd) (s : State) : Go × State :=
  let kind := c.par 0 1
  let index := c.par 1 2
  if s.jobState == 1 && (kind == 0 || kind == 3 || kind == 6) then (.refuse .badState 0, s)
  else if s.reinit.any (fun r => r.kind == kind && r.index == index) || (kind == 2 && (let x := s.linkState index; x == 1 || x == 2 || x == 3 || x == 5)) then
    (.wait .waitIdle ((s.rungLimit kind index + 999) / 1000), s)
  else if kind == 2 && (let x := s.linkState index; x != 4 && x != 6 && x != 7) then (.done .rungFailed [], s)
  else (.run 0, s)

/-- A FUNC_REINIT that has started begins its rung, once. -/
def State.followReinit (s : State) (id : Nat) : State :=
  match s.cmd? id with
  | some c => if c.opcode == 0x0603 && c.started && !s.reinit.any (fun r => r.cmd == some id) then s.beginReinit (c.par 0 1) (c.par 1 2) id else s
  | none => s

def State.tryReinit (s : State) (id : Nat) : State := (s.attempt 0x0603 id cmdFuncReinit).followReinit id

def execFuncReinit (id : Nat) (s : State) : Host.Outcome State Fault Refusal := .next (s.tryReinit id)

/-- The function's RECOVERED record, class 1 (R550, R560). -/
def State.recovered (s : State) (kind index : Nat) : State :=
  match kind with
  | 1 => s.note 0x0101 1 1 index index 0
  | 3 => s.note 0x0307 1 3 (index / 32) index 0
  | 4 => s.note 0x0702 1 7 0 0 0
  | 5 => s.note 0x0901 1 9 index index (s.reg (aqCtr R.CNL_AQ_RETRY_WE index)).toNat
  | 6 => s.note 0x0307 1 3 0x100 0x100 0
  | _ => s

/-- A function is back in service (R560). -/
def State.backInService (s : State) (r : Reinit) : State :=
  match r.kind with
  | 1 =>
    let q := r.index
    let s := if r.was % 2 = 1 then
        ((s.setFld (R.HCP_Q_CFG q) F.HCP_Q_CFG_SQ_EN 1).setFld (R.HCP_Q_STATUS q) F.HCP_Q_STATUS_SQ_HEAD 0).setQueue q { s.queue q with sqTail := 0 } else s
    if r.was / 2 = 1 then
      let s := (s.setFld (R.HCP_Q_CFG q) F.HCP_Q_CFG_CQ_EN 1).setFld (R.HCP_Q_STATUS q) F.HCP_Q_STATUS_CQ_TAIL 0
      (s.setQueue q { s.queue q with cqHead := 0, phase := 1, unsignalled := 0 }).showQueue q
    else s
  | 3 =>
    let t := r.index / 32
    let w := s.tower t
    let down := w.down.erase (r.index % 32)
    let s := (s.setTower t { w with down := down }).setFld (R.TWR_STATUS t) F.TWR_STATUS_STATE (if down = [] then 1 else 3)
    { s with mem := s.mem.filter (fun c => !(isTower c.1 && (let (d, g, _) := s.towerPlace c.1; 128 * d + g == r.index))) }
  | 4 => (s.setFld R.BSN_STATUS F.BSN_STATUS_STATE (if s.fld R.BSN_STATUS F.BSN_STATUS_KEY_OK = 1 then 1 else 3)).showBasin.persistLate
  | 5 => s.setAqState r.index 2
  | 6 => { s with far := { s.far with failed := false } }
  | _ => s

/-- A function that rung 2 did not bring back stays out of service (R560); the aqueduct's failure is a job fault (R341); an H1 that leaves test mode
or STANDBY and fails its check has no far window (R634, R635). -/
def State.outOfService (s : State) (r : Reinit) : State :=
  match r.kind with
  | 4 => s.setFld R.BSN_STATUS F.BSN_STATUS_STATE 3
  | 6 =>
    if r.was = 1 then (s.setFld R.TWR_FAR_CFG F.TWR_FAR_CFG_SIZE_GIB 0).raise 0x0306 3 0x100 2 0 0
    else if (match r.cmd.bind s.cmd? with | some c => c.opcode == 0x0903 | none => false) then s.setFld R.TWR_FAR_CFG F.TWR_FAR_CFG_SIZE_GIB 0 else s
  | 5 =>
    let s := (s.aqErr r.index 0 2).setAqState r.index 3
    let s : State := { s with aq := { s.aq with lost := if s.aq.lost.contains r.index then s.aq.lost else s.aq.lost ++ [r.index] } }
    s.raise 0x0902 9 r.index 2 (s.reg R.CNL_AQ_ERR).toNat 0
  | _ => s

/-- A rung 2 ends; its command is answered. -/
def State.endRung (s : State) (r : Reinit) (ok : Bool) : State :=
  let s : State := { s with reinit := s.reinit.erase r }
  let s := if ok then (s.backInService r).recovered r.kind r.index else s.outOfService r
  match r.cmd with | some id => s.finishCmd id (if ok then .ok else .rungFailed) [] | none => s

/-- REINIT_COMPLETE (R560): a rung 2 finishes within its limit, its checks passed or not. A link's is ended by its own bring-up. -/
def execReinitComplete (kind index : Nat) (ok : Bool) (s : State) : Host.Outcome State Fault Refusal :=
  match s.reinit.find? (fun r => r.kind == kind && r.index == index) with
  | some r => if kind = 2 then .next s else .next (s.endRung r ok)
  | none => .next s

/-- REINIT_LIMIT_EXPIRY (R560): the limit has passed; the function stays out of service. -/
def execReinitLimitExpiry (kind index : Nat) (s : State) : Host.Outcome State Fault Refusal :=
  match s.reinit.find? (fun r => r.kind == kind && r.index == index) with
  | some r =>
    let s := { s with now := max s.now (r.since + s.rungLimit kind index) }
    if kind = 2 then .next (s.failLink index (if s.linkState index = 5 then 6 else 2)) else .next (s.endRung r false)
  | none => .next s

/-- QUEUE_DMA_ERROR (R560): H0 reports a DMA error on a queue's memory, and the pair enters rung 2. -/
def execQueueDmaError (q : Nat) (s : State) : Host.Outcome State Fault Refusal :=
  if q < 64 ∧ (s.sqOn q ∨ s.cqOn q) ∧ s.reinit.any (fun r => r.kind == 1 && r.index == q) = false then .next (s.queueReinit q none) else .next s

/-! The journal's commands (R516, R520). -/

/-- Entries from a DSEQ up to, and not with, another, as the ring holds them. -/
def State.entriesFrom (s : State) (first stop count : Nat) : List JEntry :=
  (List.range (min count (stop - first))).filterMap (fun i => tfind s.jnl.ring ((first + i) % 65536))

/-- JOURNAL_QUERY (R520). -/
def cmdJournalQuery (c : Cmd) (s : State) : Go × State :=
  let old := (s.reg R.JNL_OLDEST).toNat
  let first := if c.par 0 8 = 0 then old else c.par 0 8
  let r := [old % 2 ^ 32, old / 2 ^ 32]
  if first < old ∨ c.dseq < first then (.done .journalRange (0 :: r), s.bump R.JNL_QUERIES)
  else
    let es := s.entriesFrom first c.dseq (c.par 8 2)
    (.done .ok (es.length :: r), (s.lanternStore (c.par 16 8) (es.flatMap jBytes)).bump R.JNL_QUERIES)

def execJournalQuery (id : Nat) (s : State) : Host.Outcome State Fault Refusal := .next (s.attempt 0x0901 id cmdJournalQuery)

/-- JOURNAL_MARK (R516): its own entry is the mark, with the host value since its admission. -/
def cmdJournalMark (c : Cmd) (s : State) : Go × State := (.done .ok [c.dseq % 2 ^ 32, c.dseq / 2 ^ 32], s)

def execJournalMark (id : Nat) (s : State) : Host.Outcome State Fault Refusal := .next (s.attempt 0x0902 id cmdJournalMark)

end Sys2Proof.Machine
end

