-- ==== Sys2Proof/Machine/Security.lean ====
section
/-!
DEFINITION. Security state, tokens, SVN commits, SPDM and IDE, firmware updates and the lockkeeper's out-of-band commands (R494, R608 to R624).
-/
namespace Sys2Proof.Machine

/-! Security state and tokens (R494, R617 to R620). -/

/-- SEC_STATUS (R494). -/
def cmdSecStatus (_ : Cmd) (s : State) : Go × State := (.done .ok [(s.reg R.SEC_STATE).toNat], s)

def execSecStatus (id : Nat) (s : State) : Host.Outcome State Fault Refusal := .next (s.attempt 0x0801 id cmdSecStatus)

def State.lockedOut (s : State) : Bool := s.fld R.SEC_STATE F.SEC_STATE_AUTH_LOCKOUT == 1

/-- A result AUTH_FAILED is counted; the eighth locks out (R619). -/
def State.authFails (s : State) : State :=
  let n := min 8 (s.fld R.SEC_AUTH F.SEC_AUTH_FAILS + 1)
  let s := (s.bump R.SEC_AUTH_FAIL).setFld R.SEC_AUTH F.SEC_AUTH_FAILS n
  if n = 8 then s.setFld R.SEC_STATE F.SEC_STATE_AUTH_LOCKOUT 1 else s

/-- The nonce is gone. -/
def State.dropNonce (s : State) : State := ({ s with fw := { s.fw with nonce := none } } : State).setFld R.SEC_AUTH F.SEC_AUTH_NONCE_VALID 0

/-- DEBUG_CHALLENGE (R494): a fresh nonce, valid for one use within 60 s. -/
def cmdDebugChallenge (_ : Cmd) (s : State) : Go × State :=
  if s.lockedOut then (.done .authFailed [], s.authFails)
  else
    let (k, s) := s.fresh
    let n := Config.nonce k
    let s := ({ s with fw := { s.fw with nonce := some n, nonceAt := s.now } } : State).setFld R.SEC_AUTH F.SEC_AUTH_NONCE_VALID 1
    (.done .ok ((List.range 4).map (fun i => n.toNat / 2 ^ (32 * i) % 2 ^ 32)), s)

def execDebugChallenge (id : Nat) (s : State) : Host.Outcome State Fault Refusal := .next (s.attempt 0x0802 id cmdDebugChallenge)

/-- The 28 bytes that a token signs (R618). -/
def tokenBytes (n : BitVec 128) (purpose : Nat) : List Byte := bytesLE 16 n.toNat ++ bytesLE 8 Config.serial.toNat ++ bytesLE 4 purpose

/-- A token verifies under the first authority key that is not revoked and under which it does; the nonce must be held and younger than 60 s (R494, R618). -/
def State.tokenOk (s : State) (sig : List Byte) (purpose : Nat) : Bool :=
  match s.fw.nonce with
  | some n => Nat.blt s.now (s.fw.nonceAt + 60000000000) && [0, 1].any (fun d => !(s.reg R.SEC_KEYS).getLsbD (4 + d) && Config.signed (4 + d) (tokenBytes n purpose) sig)
  | none => false

/-- Bytes of the signature of a packet. -/
def Cmd.signature (c : Cmd) : List Byte := bytesLE 96 (c.par 0 96)

/-- Opening the debug lock ends every SPDM session and removes the keys of H0 (R617). -/
def State.openDebug (s : State) : State :=
  let s : State := { s with fw := { s.fw with sessions := 0, lkSessions := 0 } }
  ((s.setFlds R.SEC_STATE [(F.SEC_STATE_DEBUG_OPEN, 1), (F.SEC_STATE_IDE_ACTIVE, 0)]).setFld R.SEC_IDE F.SEC_IDE_STATE 0)

/-- DEBUG_UNLOCK (R494, R617 to R619): the nonce is consumed by the attempt. -/
def cmdDebugUnlock (c : Cmd) (s : State) : Go × State :=
  if s.lockedOut then (.done .authFailed [], s.authFails)
  else if s.tokenOk c.signature 1 && s.fld R.SEC_STATE F.SEC_STATE_DEBUG_DISABLED == 0 then (.done .ok [], s.dropNonce.openDebug)
  else (.done .authFailed [], s.dropNonce.authFails)

def execDebugUnlock (id : Nat) (s : State) : Host.Outcome State Fault Refusal := .next (s.attempt 0x0803 id cmdDebugUnlock)

/-- MANUF_SERVICE (R494, R618 to R620): entering needs that no job exists. -/
def cmdManufService (c : Cmd) (s : State) : Go × State :=
  let enter := c.par 96 1 == 1
  if s.lockedOut then (.done .authFailed [], s.authFails)
  else if enter && s.jobState != 0 then (.done .badState [], s)
  else if s.tokenOk c.signature (if enter then 2 else 3) then (.done .ok [], s.dropNonce.setFld R.SEC_STATE F.SEC_STATE_MANUF_SERVICE (if enter then 1 else 0))
  else (.done .authFailed [], s.dropNonce.authFails)

def execManufService (id : Nat) (s : State) : Host.Outcome State Fault Refusal := .next (s.attempt 0x0804 id cmdManufService)

/-- NONCE_EXPIRY (R494): 60 s after its challenge an unused nonce becomes invalid. -/
def execNonceExpiry (s : State) : Host.Outcome State Fault Refusal :=
  if s.fw.nonce.isSome then .next ({ s with now := max s.now (s.fw.nonceAt + 60000000000) } : State).dropNonce else .next s

/-! SVN commits (R610). -/

def commitFld (typ : Nat) : Fld := if typ = 1 then F.SEC_SVN_CTL_COMMIT_LK else if typ = 2 then F.SEC_SVN_CTL_COMMIT_LT else F.SEC_SVN_CTL_COMMIT_CFG
def svnFld (typ : Nat) : Fld := if typ = 1 then F.SEC_SVN_MIN_LK else if typ = 2 then F.SEC_SVN_MIN_LT else F.SEC_SVN_MIN_CFG

/-- A write of one to a COMMIT bit: programming starts where the running image's SVN is above the minimum. -/
def State.commitSvn (s : State) (typ : Nat) : State :=
  let v := s.fld (fwReg typ) F.SEC_FW_LK_SVN
  if s.svnMin typ < v ∧ tfind s.fw.svnDue typ = none then
    ({ s with fw := { s.fw with svnDue := tinsert s.fw.svnDue typ v } } : State).setFld R.SEC_SVN_CTL (commitFld typ) 1
  else s

/-- COMMIT_LK (R610). -/
def execCommitLk (s : State) : Host.Outcome State Fault Refusal := .next (s.commitSvn 1)

/-- COMMIT_LT (R610). -/
def execCommitLt (s : State) : Host.Outcome State Fault Refusal := .next (s.commitSvn 2)

/-- COMMIT_CFG (R610). -/
def execCommitCfg (s : State) : Host.Outcome State Fault Refusal := .next (s.commitSvn 3)

/-- SVN_PROGRAMMING_COMPLETE (R610): the minimum of a type is raised and its bit reads 0. -/
def execSvnProgrammingComplete (typ : Nat) (s : State) : Host.Outcome State Fault Refusal :=
  match tfind s.fw.svnDue typ with
  | some v =>
    let s : State := { s with fw := { s.fw with svnDue := terase s.fw.svnDue typ } }
    .next ((s.setFld R.SEC_SVN_MIN (svnFld typ) v).setFld R.SEC_SVN_CTL (commitFld typ) 0)
  | none => .next s

/-! SPDM and IDE (R611 to R616). -/

/-- The lockkeeper's firmware runs. -/
def State.lockkeeperRuns (s : State) : Bool := s.pwr.at_ != .dark && !s.pwr.recovery

/-- The certificate chain of a responder, in slot 0 (R612): both leaves carry the module serial number in their subject. -/
def certChain (responder : Nat) : List Cert :=
  let leaf := if responder = 0 then CertName.deviceIdentity else .lockkeeperIdentity
  [{ issuer := .zengalRoot, subject := .zengalRoot, serial := none, key := Config.identityKey 0 },
   { issuer := .zengalRoot, subject := .zengalDeviceCa, serial := none, key := Config.identityKey 1 },
   { issuer := .zengalDeviceCa, subject := leaf, serial := some Config.serial, key := Config.identityKey (2 + responder) }]

/-- Digests of indices 3 to 5 as a responder reports them (R613): the lockkeeper as they stood at the last Lantern boot, zero before the first. -/
def State.bootDigests (s : State) (responder : Nat) : List (List Byte) :=
  if responder = 0 then s.dieDigests else if s.fw.lkSeen = [] then List.replicate 3 (List.replicate 48 0) else s.fw.lkSeen

/-- The measurement blocks of a responder, by index from 1 (R613). -/
def State.measBlocks (s : State) (responder : Nat) : List MeasBlock :=
  let raw := fun (rs : List Word) => sha384 (rs.flatMap (fun w => bytesLE 8 w.toNat))
  let ds := [(0, sha384 (Config.romImage 0)), (1, sha384 ((s.runningImage 1).take 512))] ++ [0, 1, 2].zip (s.bootDigests responder)
    ++ [(2, raw [s.reg R.SEC_STATE, s.reg R.SEC_SVN_MIN, s.reg R.SEC_KEYS]), (2, raw [s.fw.podRecord])]
  ds.mapIdx (fun i d => { index := i + 1, kind := d.1, digest := d.2 })

/-- What a measurement request gets (R613): their number, one block or all, signed with the nonce where asked. No block has another index. -/
def State.measAnswer (s : State) (responder index : Nat) (nonce : BitVec 256) (sign : Bool) : SpdmAns :=
  let all := s.measBlocks responder
  let bs := if index = 255 then all else all.filter (fun b => b.index == index)
  if index = 0 then .count all.length
  else if bs = [] then .error
  else .blocks bs (if sign then some (Config.spdmSigned responder (bytesLE 32 nonce.toNat ++ bs.flatMap (fun b => b.digest))) else none)

/-- What a responder with `n` sessions of `most` answers, and the sessions it then has (R611 to R613). -/
def State.spdmAnswer (s : State) (responder n most : Nat) (r : SpdmReq) : SpdmAns × Nat :=
  match r with
  | .plain => (.plain, n)
  | .sessionOpen => if n < most then (.plain, n + 1) else (.error, n)
  | .sessionEnd => if n = 0 then (.error, n) else (.plain, n - 1)
  | .certificate slot => (if slot = 0 then .chain (certChain responder) else .error, n)
  | .challenge slot nonce => (if slot = 0 then .challenged (Config.spdmSigned responder (bytesLE 32 nonce.toNat)) else .error, n)
  | .measurements index nonce sign => (s.measAnswer responder index nonce sign, n)

/-- SPDM_REQUEST (R611 to R613): responder 0 is Lantern, from stage 3, whose work a warm reset does again (R607), until power-off, with 4 sessions; 1 the lockkeeper, with 2. -/
def execSpdmRequest (responder : Nat) (r : SpdmReq) (s : State) : Host.Outcome State Fault Refusal :=
  let lantern := responder == 0
  let up := if lantern then s.pwr.at_ != .dark && s.pwr.at_ != .aux && Nat.ble 3 s.stage && s.warm.isNone else responder == 1 && s.lockkeeperRuns
  if up = false then .next s else
  let a := s.spdmAnswer responder (if lantern then s.fw.sessions else s.fw.lkSessions) (if lantern then 4 else 2) r
  let s : State := { s with fw := if lantern then { s.fw with sessions := a.2 } else { s.fw with lkSessions := a.2 }, answers := s.answers ++ [.spdm responder a.1] }
  .next (s.bump R.SEC_SPDM_MSGS)

/-- SEC_IDE.STATE, and what SEC_STATE copies of it. -/
def State.setIde (s : State) (v : Nat) : State := (s.setFld R.SEC_IDE F.SEC_IDE_STATE v).setFld R.SEC_STATE F.SEC_STATE_IDE_ACTIVE (if v = 2 then 1 else 0)

/-- IDE_KM (R614): through an SPDM session of Lantern. -/
def execIdeKm (k : IdeKm) (s : State) : Host.Outcome State Fault Refusal :=
  if s.fw.sessions = 0 then .next s else
  let st := s.fld R.SEC_IDE F.SEC_IDE_STATE
  .next (match k with
    | .program stream _ => (if st = 2 then s else s.setIde 1).setFld R.SEC_IDE F.SEC_IDE_STREAM stream
    | .start kset => if st = 1 ∨ st = 2 then (s.setIde 2).setFld R.SEC_IDE F.SEC_IDE_KSET kset else s
    | .stop => s.setIde 0)

/-- IDE_INTEGRITY_FAILURE (R616): a received TLP fails; it is discarded and the stream is INSECURE. -/
def execIdeIntegrityFailure (s : State) : Host.Outcome State Fault Refusal :=
  if s.fld R.SEC_IDE F.SEC_IDE_STATE = 2 then .next ((s.setIde 3).bump R.SEC_IDE_FAIL) else .next s

/-! Firmware updates (R608, R609). -/

/-- A PLDM completion code is answered. -/
def State.pldm (s : State) (code : Nat) : State := { s with answers := s.answers ++ [.pldm code] }

/-- The bank of a type that does not run. -/
def State.spareBank (s : State) (typ : Nat) : Nat := 1 - tget (fun _ => 0) s.fw.active typ

/-- REQUEST_UPDATE (R609): a component by its identifier and image size. One update runs at a time; in recovery only the lockkeeper's is accepted. -/
def execRequestUpdate (comp size : Nat) (s : State) : Host.Outcome State Fault Refusal :=
  if s.pwr.at_ = .dark then .next s
  else if s.fw.update.isSome then .next (s.pldm 0x81)
  else if (Nat.ble 1 comp && Nat.ble comp 3 && (!s.pwr.recovery || comp == 1)) = false then .next (s.pldm 2)
  else .next (({ s with fw := { s.fw with update := some { typ := comp, size := size, data := [], verified := false } } } : State).pldm 0)

/-- REQUEST_FIRMWARE_DATA (R609): a part of 64 to 4,096 bytes is written into the inactive bank, which holds no valid image from then on. -/
def execRequestFirmwareData (off : Nat) (bs : List Byte) (s : State) : Host.Outcome State Fault Refusal :=
  match s.fw.update with
  | some u =>
    if (Nat.ble 64 bs.length && Nat.ble bs.length 4096 && Nat.blt off u.size && !u.verified) = false then .next (s.pldm 3)
    else
      let b := s.spareBank u.typ
      let s : State := { s with fw := { s.fw with
        update := some { u with data := Memory.writeBytes u.data off bs },
        banks := tinsert s.fw.banks (2 * u.typ + b) [],
        pend := if tfind s.fw.pend u.typ = some b then terase s.fw.pend u.typ else s.fw.pend } }
      .next ((s.setFld (fwReg u.typ) F.SEC_FW_LK_PENDING 0).pldm 0)
  | none => .next (s.pldm 0x80)

/-- TRANSFER_COMPLETE (R602, R609): the image is in its bank and is checked with the fuses as they stand; one that fails leaves the bank invalid and ends the update. -/
def execTransferComplete (s : State) : Host.Outcome State Fault Refusal :=
  match s.fw.update with
  | some u =>
    let img := Memory.readBytes u.data 0 u.size
    let ok := s.imageFail u.typ img == 0
    let bank := 2 * u.typ + s.spareBank u.typ
    let s : State := { s with fw := { s.fw with banks := tinsert s.fw.banks bank (if ok then img else []), update := if ok then some { u with verified := true } else none } }
    .next (s.pldm (if ok then 0 else 1))
  | none => .next (s.pldm 0x80)

/-- The staged bank of a type takes effect: the lockkeeper's at once, which ends a recovery; the others' at the next start (R606, R608). -/
def State.activate (s : State) (typ b : Nat) : State :=
  if typ = 1 then
    let s := ({ s with fw := { s.fw with active := tset (fun _ => 0) s.fw.active 1 b } } : State).showImage 1 b
    if s.pwr.recovery then ({ s with pwr := { s.pwr with recovery := false } } : State).beginBoot 1 else s
  else ({ s with fw := { s.fw with pend := tinsert s.fw.pend typ b } } : State).setFld (fwReg typ) F.SEC_FW_LK_PENDING 1

/-- ACTIVATE_FIRMWARE (R608, R609): the verified bank is pending until the next power-on; the lockkeeper's own runs at once, and ends a recovery. -/
def execActivateFirmware (s : State) : Host.Outcome State Fault Refusal :=
  match s.fw.update with
  | some u =>
    if u.verified = false then .next (s.pldm 0x80)
    else .next (((({ s with fw := { s.fw with update := none } } : State).bump R.SEC_FW_UPDATES).pldm 0).activate u.typ (s.spareBank u.typ))
  | none => .next (s.pldm 0x80)

/-! Sensors and effecters (R622 to R624). -/

/-- The power state as sensor 200 reports it (R582, R622): STATE of PWR_STATUS while the rails are up, 4 for AUX, 5 for OUT_OF_SERVICE (DESIGN CHOICE, notes/assumptions/137.md). -/
def State.powerState (s : State) : Nat := if s.pwr.oos then 5 else if s.pwr.at_ = .aux then 4 else s.fld R.PWR_STATUS F.PWR_STATUS_STATE

/-- Upper warning, critical and fatal thresholds of a sensor (R622), in its unit; a state sensor has none. -/
def State.sensorLimits (s : State) (id : Nat) : List (Option Nat) :=
  let dome := max 80 (min 105 (s.fld R.PWR_THERM_CTL F.PWR_THERM_CTL_T_LIMIT))
  if id = 1 then [some 8600, some 8800, some 9500]
  else if id = 3 then [some 1400000, some 1600000, none]
  else if Nat.ble 16 id && Nat.ble id 29 then [none, some ((railTable.getD (id - 16) (0, 0)).1 * 105 / 100), none]
  else if Nat.ble 32 id && Nat.ble id 45 then [none, some (railTable.getD (id - 32) (0, 0)).2, none]
  else if Nat.ble 64 id && Nat.ble id 127 then [some dome, some (dome + 5), some 110]
  else if Nat.ble 128 id && Nat.ble id 135 then [some 95, some 100, some 105]
  else if Nat.ble 136 id && Nat.ble id 139 then [some 110, some 120, some 125]
  else [none, none, none]

/-- The latest value of a sensor; none where there is no such sensor. -/
def State.sensor (s : State) (id : Nat) : Option Nat :=
  if id = 1 then some (s.fld R.PWR_INPUT F.PWR_INPUT_VIN)
  else if id = 2 then some (s.fld R.PWR_INPUT F.PWR_INPUT_IIN)
  else if id = 3 then some (s.fld R.PWR_INPUT F.PWR_INPUT_PIN)
  else if id = 4 then some (s.reg R.PWR_ENERGY_MJ).toNat
  else if Nat.ble 16 id && Nat.ble id 29 then some (s.fld (R.PWR_RAIL (id - 16)) F.PWR_RAIL_MV)
  else if Nat.ble 32 id && Nat.ble id 45 then some (s.fld (R.PWR_RAIL (id - 32)) F.PWR_RAIL_CURRENT)
  else if Nat.ble 64 id && Nat.ble id 139 then some (tget (fun _ => 0) s.pwr.sensors id)
  else if id = 200 then some s.powerState
  else if id = 201 then some s.jobState
  else if id = 202 then some s.stage else none

/-- SENSOR_READ (R622). -/
def execSensorRead (id : Nat) (s : State) : Host.Outcome State Fault Refusal :=
  match s.sensor id with
  | some v => .next (if s.lockkeeperRuns then { s with answers := s.answers ++ [.sensor id v (s.sensorLimits id)] } else s)
  | none => .next (if s.lockkeeperRuns then s.pldm 0x80 else s)

/-- POWER_EFFECTER_ON (R623): AUX to power-up. A module OUT_OF_SERVICE or one that still cools stays off (R566, R593). -/
def execPowerEffecterOn (s : State) : Host.Outcome State Fault Refusal :=
  if s.lockkeeperRuns = false then .next s
  else if s.pwr.at_ == .aux && !s.pwr.booting && !s.pwr.oos && s.pwr.cause != .thermal && s.pwr.cause != .loss then .next ((s.beginBoot 1).pldm 0)
  else .next (s.pldm (if s.pwr.at_ = .aux ∧ s.pwr.booting = false then 4 else 0))

/-- Effecter 300 off or power cycle: as POWER_CYCLE, refused while the job is RUNNING unless POLICY.OOB_FORCE is set (R623); one under way is completed without further action (R624). -/
def State.effectPower (s : State) (cause : OffCause) : State :=
  if s.lockkeeperRuns = false then s
  else if s.jobState == 1 && s.fw.policy / 2 % 2 == 0 then s.pldm 4
  else (s.orderlyOff cause 10000000).pldm 0

/-- POWER_EFFECTER_OFF (R623). -/
def execPowerEffecterOff (s : State) : Host.Outcome State Fault Refusal := .next (s.effectPower .off)

/-- POWER_EFFECTER_CYCLE (R623). -/
def execPowerEffecterCycle (s : State) : Host.Outcome State Fault Refusal := .next (s.effectPower .cycle)

/-- CAP_EFFECTER (R623, R624): as POWER_CAP. -/
def execCapEffecter (w : Nat) (s : State) : Host.Outcome State Fault Refusal :=
  if s.lockkeeperRuns = false then .next s
  else if 1400 < w then .next (s.pldm 2) else .next ((s.setCap w).pldm 0)

/-- RELEASE_OUT_OF_SERVICE (R566, R623): the hold is cleared and power-up begins. -/
def execReleaseOutOfService (s : State) : Host.Outcome State Fault Refusal :=
  if s.lockkeeperRuns && s.pwr.oos then .next (({ s with pwr := { s.pwr with oos := false, failedAt := none } } : State).beginBoot 1) else .next s

/-- POD_CONFIGURATION_RECORD (R383, R623): kept in the store until the next power-on. -/
def execPodConfigurationRecord (podId topo x y z : Nat) (s : State) : Host.Outcome State Fault Refusal :=
  if s.lockkeeperRuns then
    let w := [(F.LNK_POD_CFG_POD_ID, podId), (F.LNK_POD_CFG_TOPO, topo), (F.LNK_POD_CFG_DIMX, x), (F.LNK_POD_CFG_DIMY, y), (F.LNK_POD_CFG_DIMZ, z)].foldl (fun v p => fset v p.1 p.2) (0 : Word)
    .next { s with fw := { s.fw with podRecord := w } }
  else .next s

end Sys2Proof.Machine
end

