-- ==== Sys2Proof/Machine/TestModes.lean ====
section
/-!
DEFINITION. Test modes, boundary scan, self-test, repair, link patterns and port margining (R635 to R649).
-/
namespace Sys2Proof.Machine

/-! TEST_MODE (R635). -/

/-- A bit of TST_STATUS. -/
def State.showTest (s : State) (bit : Nat) (on : Bool) : State := s.setFld R.TST_STATUS ⟨bit, bit⟩ (if on then 1 else 0)

/-- The bit of TST_STATUS that shows a target in its test mode (R646). -/
def testBit (target index : Nat) : Nat := match target with | 0 => 48 + index | 1 => index | 2 => 61 | _ => 62

def State.inTest (s : State) (target index : Nat) : Bool := s.fld R.TST_STATUS ⟨testBit target index, testBit target index⟩ == 1

/-- Memory without a tower's contents (R309). -/
def State.clearTower (s : State) (t : Nat) : State :=
  { s with mem := s.mem.filter (fun c => !(isTower c.1 && (let (d, g, _) := s.towerPlace c.1; 4 * d + g / 32 == t))) }

/-- A target enters its test mode. -/
def State.enterTest (s : State) (target index : Nat) : State :=
  let s := s.showTest (testBit target index) true
  match target with
  | 0 => (s.setFld (R.TWR_STATUS index) F.TWR_STATUS_STATE 2).clearTower index
  | 1 => s.enterLink index 8
  | 2 => { s with tst := { s.tst with dwell := some (s.now + max 1 (s.fld R.TST_PORT_CTL F.TST_PORT_CTL_DWELL_MS) * 1000000) } }
  | _ =>
    let rs := s.far.reqs
    let s : State := { s with tst := { s.tst with h1 := true }, far := { s.far with reqs := [], failed := true } }
    rs.foldl (fun s r => s.farFailOne r) s

/-- A target leaves its test mode, but for H1, which rung 2 brings back. -/
def State.leaveTest (s : State) (target index : Nat) : State :=
  let s := s.showTest (testBit target index) false
  match target with
  | 0 =>
    let w := s.tower index
    ((s.setTower index { w with testing := none }).setFld (R.TWR_STATUS index) F.TWR_STATUS_STATE (if w.down = [] then 1 else 3)).clearTower index
  | 1 =>
    let s : State := { s with tst := { s.tst with prbs := terase s.tst.prbs index } }
    let s := s.enterLink index 0
    if s.fld (R.LNK_CTL index) F.LNK_CTL_EN = 1 then (s.enterLink index 1).setLink index { s.link index with since := s.now, tries := 0 } else s
  | _ => s

/-- TEST_MODE (R495, R635): a target already where it is sent completes at once; entry needs no job, no task and an open debug lock. An exit of H0 leaves it to its dwell. -/
def cmdTestMode (c : Cmd) (s : State) : Go × State :=
  let t := c.par 0 1
  let i := c.par 1 1
  let enter := c.par 2 1 == 1
  if s.inTest t i == enter then (.done .ok [], s)
  else if enter then
    (if s.tasks.isEmpty && s.debugOpen && s.jobState == 0 then (.done .ok [], s.enterTest t i) else (.done .testRefused [], s))
  else if t = 2 then (.done .ok [], s)
  else if t = 3 then (.run 0, (({ s with tst := { s.tst with h1 := false } } : State).showTest 62 false).pushReinit 6 0 (some c.dseq))
  else (.done .ok [], s.leaveTest t i)

def execTestMode (id : Nat) (s : State) : Host.Outcome State Fault Refusal := .next (s.attempt 0x0903 id cmdTestMode)

/-- H0_DWELL_END (R635): the dwell of H0 ends, and H0 retrains. -/
def execH0DwellEnd (s : State) : Host.Outcome State Fault Refusal :=
  match s.tst.dwell with
  | some t => .next (({ s with now := max s.now t, tst := { s.tst with dwell := none } } : State).showTest 61 false)
  | none => .next s

/-- H0_LINK_TRAINED (R499): HCP_H0_STAT shows the lanes, the rate and the BAR2 size. -/
def execH0LinkTrained (width rate log2 : Nat) (s : State) : Host.Outcome State Fault Refusal :=
  if (width == 4 || width == 8 || width == 16) && Nat.ble 1 rate && Nat.ble rate 6 && Nat.ble 30 log2 && Nat.ble log2 40 then
    .next (s.setFlds R.HCP_H0_STAT [(F.HCP_H0_STAT_WIDTH, width), (F.HCP_H0_STAT_RATE, rate), (F.HCP_H0_STAT_BAR2_LOG2, log2)])
  else .next s

/-! Boundary scan (R637 to R639). -/

/-- A write of SCAN_EN (R639). -/
def State.writeScanEn (s : State) (on : Bool) : State :=
  if on && s.jobState != 0 then s else s.setFld R.TST_CTL F.TST_CTL_SCAN_EN (if on then 1 else 0)

/-- SCAN_EN_WRITE (R639). -/
def execScanEnWrite (on : Bool) (s : State) : Host.Outcome State Fault Refusal := .next (s.writeScanEn on)

/-- The scan lets go of the pins: the module performs a warm reset (R639, R563). -/
def State.endScan (s : State) : State := if s.tst.scan then s.resetNotice.startWarm none else s

/-- IDCODE of a dome, 0 W and 1 E (R638). -/
def scanIdcode (d : Nat) : BitVec 32 := BitVec.ofNat 32 (Config.stepping.toNat % 16 * 2 ^ 28 + (0x9600 + d) * 2 ^ 12 + Config.jep106.toNat * 2 + 1)

/-- What a loaded instruction acts as: the EXTEST family is honoured only while SCAN_EN is set, a non-public one only while the debug lock is open; else it is BYPASS (R638). -/
def State.scanActs (s : State) (op : ScanOp) : ScanOp :=
  match op with
  | .extestFamily => if s.fld R.TST_CTL F.TST_CTL_SCAN_EN = 1 then op else .bypass
  | .nonPublic => if s.debugOpen then op else .bypass
  | _ => op

/-- The instruction that acts is in the register; TDO shifts what it selects (DESIGN CHOICE, notes/assumptions/141.md, for a non-public one). -/
def State.loadScan (s : State) (op : ScanOp) : State :=
  { s with tst := { s.tst with ir := op }, answers := s.answers ++ [.scan op (if op = .idcode then [scanIdcode 0, scanIdcode 1] else [])] }

/-- The domes' pins follow the boundary register, and every engine, link and port stops issuing (R639). -/
def State.beginScan (s : State) : State := (({ s with tst := { s.tst with scan := true } } : State).showTest 63 true).stopAll

/-- SCAN_INSTRUCTION_UPDATE (R637 to R639): an instruction is loaded into both domes' registers; one of the EXTEST family that acts takes the pins, any other lets go of them. -/
def execScanInstructionUpdate (op : ScanOp) (s : State) : Host.Outcome State Fault Refusal :=
  if s.pwr.at_ ≠ .up then .next s else
  let s := s.loadScan (s.scanActs op)
  .next (if s.tst.ir = .extestFamily then s.beginScan else s.endScan)

/-- TRST_N_ASSERTION (R638, R639): the standard's reset selects IDCODE, and a scan lets go of the pins. -/
def execTrstNAssertion (s : State) : Host.Outcome State Fault Refusal := .next ({ s with tst := { s.tst with ir := .idcode } } : State).endScan

/-! Self-test (R640, R641). -/

/-- What a self-test leaves zero (R641): the memories of the sites, or the accumulators of the arrays. Lantern's own records stay, as after a warm reset. -/
def State.zeroTested (s : State) (kind : Nat) : State :=
  if kind = 0 then
    { s with spires := [], mem := s.mem.filter (fun c => Nat.blt c.1 0xF00000000000), canal := emptyCanal,
             regs := s.regs.filter (fun (p : Nat × Word) => !(Nat.ble 0x400000 p.1 && Nat.blt p.1 0x800000 && Nat.ble 0x400 (p.1 % 0x1000) && Nat.blt (p.1 % 0x1000) 0x580)) }
  else { s with spires := s.spires.map (fun (p : Nat × Spire) => (p.1, { p.2 with regs := { p.2.regs with accs := [] } })) }

/-- SELF_TEST (R495, R641): needs no job and the power state ACTIVE. The sites that fail are what the test finds. -/
def cmdSelfTest (bad : List Nat) (c : Cmd) (s : State) : Go × State :=
  let kind := c.par 0 1
  if s.jobState ≠ 0 ∨ s.fld R.PWR_STATUS F.PWR_STATUS_STATE ≠ 0 then (.refuse .badState 0, s)
  else
    let s := (s.zeroTested kind).showSelfTest kind 0 bad
    (.done .ok [s.fld R.TST_BIST_STAT F.TST_BIST_STAT_FAILED], s)

def execSelfTest (id : Nat) (bad : List Nat) (s : State) : Host.Outcome State Fault Refusal := .next (s.attempt 0x0904 id (cmdSelfTest bad))

/-! Post-package repair (R642). -/

/-- A write of TST_PPR_CTL: START is honoured in manufacturing service with the tower in MARGIN; else RESULT reads 3. -/
def State.writePpr (s : State) (v : Word) : State :=
  if s.tst.ppr then s else
  let s := s.setFlds R.TST_PPR_CTL [(F.TST_PPR_CTL_TOWER, fget v F.TST_PPR_CTL_TOWER), (F.TST_PPR_CTL_CHANNEL, fget v F.TST_PPR_CTL_CHANNEL),
    (F.TST_PPR_CTL_BANK, fget v F.TST_PPR_CTL_BANK), (F.TST_PPR_CTL_ROW, fget v F.TST_PPR_CTL_ROW)]
  if fget v F.TST_PPR_CTL_START = 0 then s
  else if s.fld R.SEC_STATE F.SEC_STATE_MANUF_SERVICE = 1 ∧ s.towerState (fget v F.TST_PPR_CTL_TOWER) = 2 then
    ({ s with tst := { s.tst with ppr := true } } : State).setFld R.TST_PPR_CTL F.TST_PPR_CTL_START 1
  else s.setFlds R.TST_PPR_RESULT [(F.TST_PPR_RESULT_DONE, 1), (F.TST_PPR_RESULT_RESULT, 3)]

/-- PPR_START (R642). -/
def execPprStart (v : Word) (s : State) : Host.Outcome State Fault Refusal := .next (s.writePpr v)

/-- PPR_DONE (R642, R647): repaired, or no spare row; the spare rows that the stack reports. -/
def execPprDone (repaired : Bool) (spares : Nat) (s : State) : Host.Outcome State Fault Refusal :=
  if s.tst.ppr then
    let s := ({ s with tst := { s.tst with ppr := false } } : State).setFld R.TST_PPR_CTL F.TST_PPR_CTL_START 0
    .next (s.setFlds R.TST_PPR_RESULT [(F.TST_PPR_RESULT_DONE, 1), (F.TST_PPR_RESULT_RESULT, if repaired then 1 else 2), (F.TST_PPR_RESULT_SPARES, spares)])
  else .next s

/-! Links: patterns and eyes (R643, R644). -/

/-- ns of a pattern check of `n` units of 2^24 symbols at 106.25 GBd. -/
def prbsTime (n : Nat) : Nat := (n * 16777216 * 100 + 10624) / 10625

/-- A write of TST_LNK_CTL: ignored outside TEST; START runs one check. -/
def State.writePrbs (s : State) (n : Nat) (v : Word) : State :=
  if s.linkState n ≠ 8 then s else
  let r := R.TST_LNK_CTL n
  let s := s.setFlds r ([F.TST_LNK_CTL_LANE, F.TST_LNK_CTL_EYE, F.TST_LNK_CTL_PATTERN, F.TST_LNK_CTL_TOFF, F.TST_LNK_CTL_VOFF, F.TST_LNK_CTL_COUNT].map (fun f => (f, fget v f)))
  if fget v F.TST_LNK_CTL_START = 1 then
    ({ s with tst := { s.tst with prbs := tinsert s.tst.prbs n (s.now + prbsTime (max 1 (fget v F.TST_LNK_CTL_COUNT))) } } : State).setReg (R.TST_LNK_RESULT n) 0
  else s

/-- LINK_PRBS_CHECK (R643). -/
def execLinkPrbsCheck (n : Nat) (v : Word) (s : State) : Host.Outcome State Fault Refusal := .next (if n < 48 then s.writePrbs n v else s)

/-- LINK_PRBS_CHECK_DONE (R643): symbol errors, saturating. -/
def execLinkPrbsCheckDone (n errors : Nat) (s : State) : Host.Outcome State Fault Refusal :=
  match tfind s.tst.prbs n with
  | some t =>
    let s : State := { s with now := max s.now t, tst := { s.tst with prbs := terase s.tst.prbs n } }
    .next (s.setFlds (R.TST_LNK_RESULT n) [(F.TST_LNK_RESULT_DONE, 1), (F.TST_LNK_RESULT_ERRORS, min errors 0xFFFFFFFF)])
  | none => .next s

/-- EYE_MEASUREMENT (R644): at a 1 ms window boundary a lane of an ACTIVE, retraining or tested link writes its eyes. -/
def execEyeMeasurement (n lane : Nat) (v : Word) (s : State) : Host.Outcome State Fault Refusal :=
  let st := s.linkState n
  if Nat.blt n 48 && Nat.blt lane 2 && (st == 4 || st == 5 || st == 8) then
    .next (({ s with now := (s.now + 999999) / 1000000 * 1000000 } : State).setReg (R.TST_LNK_EYE n lane) (BitVec.ofNat 64 (v.toNat / 2 ^ 19 * 2 ^ 19)))
  else .next s

/-! Port margining at H1 (R645, R648). -/

/-- A write of TST_H1_MARGIN_CMD: START issues the command, and reads 1 until it is answered. -/
def State.writeH1Margin (s : State) (v : Word) : State :=
  let r := R.TST_H1_MARGIN_CMD
  if s.fld r F.TST_H1_MARGIN_CMD_START = 1 then s else
  let s := s.setFlds r ([F.TST_H1_MARGIN_CMD_TARGET, F.TST_H1_MARGIN_CMD_LANE, F.TST_H1_MARGIN_CMD_COMMAND].map (fun f => (f, fget v f)))
  if fget v F.TST_H1_MARGIN_CMD_START = 1 then
    { s.setFld r F.TST_H1_MARGIN_CMD_START 1 with answers := s.answers ++ [.margin (fget v F.TST_H1_MARGIN_CMD_COMMAND)] }
  else s

/-- H1_MARGIN_COMMAND (R645). -/
def execH1MarginCommand (v : Word) (s : State) : Host.Outcome State Fault Refusal := .next (s.writeH1Margin v)

/-- H1_MARGIN_RESPONSE (R645). -/
def execH1MarginResponse (r : Nat) (s : State) : Host.Outcome State Fault Refusal :=
  if s.fld R.TST_H1_MARGIN_CMD F.TST_H1_MARGIN_CMD_START = 1 then
    .next ((s.setFld R.TST_H1_MARGIN_CMD F.TST_H1_MARGIN_CMD_START 0).setFlds R.TST_H1_MARGIN_RSP [(F.TST_H1_MARGIN_RSP_DONE, 1), (F.TST_H1_MARGIN_RSP_RESPONSE, r)])
  else .next s

end Sys2Proof.Machine
end

