-- ==== Sys2Proof/Machine/HostAccess.lean ====
section
/-!
DEFINITION. Registers as software reads and writes them (R8 to R12, R106, R483), BAR2 and CXL.mem (R461, R463), and what H0 lets through
(R583, R605, R615, R634).
-/
namespace Sys2Proof.Machine

/-! What a register reads as. -/

/-- Words of the table behind CNL_RT_DATA: sixteen entries of four bits (R344). -/
def State.routeData (s : State) (d : Nat) : Word :=
  let sel := s.reg (R.CNL_RT_SEL d)
  let e := fget sel F.CNL_RT_SEL_ENTRY / 16 * 16
  let site := fget sel F.CNL_RT_SEL_SITE
  BitVec.ofNat 64 ((List.range 16).foldl (fun v k => v + (if e + k ≤ 535 then s.routeEntry site (e + k) else 0) * 2 ^ (4 * k)) 0)

/-- What CNL_GRP_DATA shows (R344): members by site, or the roots. -/
def State.groupData (s : State) (d : Nat) : Word :=
  let sel := s.reg (R.CNL_GRP_SEL d)
  let w := fget sel F.CNL_GRP_SEL_WORD
  match tfind s.groups (fget sel F.CNL_GRP_SEL_GROUP) with
  | none => 0
  | some g =>
    if w < 16 then BitVec.ofNat 64 ((g.members.filter (fun x => x / 64 == w)).eraseDups.foldl (fun v x => v + 2 ^ (x % 64)) 0)
    else if w = 16 then
      BitVec.ofNat 64 ((match g.rootE with | some r => 2 ^ 31 + r * 2 ^ 16 | none => 0) + (match g.rootW with | some r => 2 ^ 15 + r | none => 0))
    else 0

/-- The bank, of the two, that LNK_RT_SEL names: 0 the active one. -/
def State.selBank (s : State) : Nat := if s.fld R.LNK_RT_SEL F.LNK_RT_SEL_BANK = 0 then s.bank else 1 - s.bank

/-- What LNK_RT_DATA shows (R384): four entries of a table. -/
def State.linkRouteData (s : State) : Word :=
  let t := s.fld R.LNK_RT_SEL F.LNK_RT_SEL_TABLE
  let e := s.fld R.LNK_RT_SEL F.LNK_RT_SEL_ENTRY / 4 * 4
  if 5 ≤ t then 0 else BitVec.ofNat 64 ((List.range 4).foldl (fun v k => v + s.rtEntry s.selBank t (e + k) % 65536 * 2 ^ (16 * k)) 0)

/-- What LNK_RT_MASK shows (R384). -/
def State.linkRouteMask (s : State) : Word :=
  let t := s.fld R.LNK_RT_SEL F.LNK_RT_SEL_TABLE
  if 5 ≤ t then 0 else BitVec.ofNat 64 (tget (fun _ => 0) s.pod.rtMask (s.selBank * 5 + t) % 2 ^ 48)

/-- Word `k` of the record that ERR_REC_SEL shows (R549, R573); an empty entry reads 0. -/
def State.recordWord (s : State) (k : Nat) : Word :=
  match tfind s.errs.ring (s.fld R.ERR_REC_SEL F.ERR_REC_SEL_INDEX) with
  | some r => BitVec.ofNat 64 (natLE ((errBytes r).drop (8 * k) |>.take 8))
  | none => 0

/-- Channels, of the 32, that a test picks, as a bit map. -/
def channelMap (f : Nat → Bool) : Nat := (List.range 32).foldl (fun v c => if f c then v + 2 ^ c else v) 0

/-- What a register of host agent `n`'s page reads as (R523). -/
def State.pageView (s : State) (n o : Nat) (v : Word) : Word :=
  let me := 0x100 + n
  if o = 0x10 then v ||| BitVec.ofNat 64 (channelMap (fun c => s.bound c && s.sender c == me && (s.chan c).full))
  else if o = 0x18 then BitVec.ofNat 64 (channelMap (fun c => s.bound c && s.receiver c == me && (s.chan c).full))
  else if Nat.ble 0x100 o && Nat.blt o 0x300 then
    let c := (o - 0x100) / 16
    let x := s.chan c
    if s.bound c && s.receiver c == me && x.full then
      (if o % 16 = 0 then BitVec.ofNat 64 x.ptr else BitVec.ofNat 64 (2 ^ 63 + x.tag % 2 ^ 32))
    else 0
  else v

/-- A site's window is open: an enabled site's, or SPR_CAP and SPR_MAP of any site (R106); the routers are off in STANDBY (R582). -/
def State.windowOpen (s : State) (off : Nat) : Bool :=
  !s.standby && (s.enabled ((off - 0x400000) / 0x1000) || off % 0x1000 == 0 || off % 0x1000 == 4)

/-- An engine's field of SPR_STATUS (R110). -/
def EngSt.code (e : EngSt) : Nat := match e with | .idle | .ended => 0 | .run => 1 | .wait => 2 | .stop | .transl => 3

/-- SPR_STATUS with what the four engines are doing (R110). -/
def State.spireStatus (s : State) (site : Nat) : Word :=
  let p := s.spire site
  fset (fset (fset (fset (s.reg (R.SPR_STATUS site)) F.SPR_STATUS_MAT p.mat.st.code) F.SPR_STATUS_VEC p.vec.st.code) F.SPR_STATUS_MOVER p.mov.st.code) F.SPR_STATUS_SEQ p.sqr.st.code

/-- Cycles that count up to now in a counter of held engines: those since each engine of a running spire that such a wait holds was held (R187, R239). -/
def State.heldNow (s : State) (site : Nat) (mine : Wait → Bool) : Nat :=
  let p := s.spire site
  let c := max p.cycle (s.cycleAt site s.now)
  if s.spState site ≠ 1 then 0
  else (allEngines.map (fun e => match (p.eng e).st, (p.eng e).wait with | .wait, some w => if mine w then c - (p.eng e).since else 0 | _, _ => 0)).sum

/-- A wait that SPR_LOOP_GATE counts, and one that SPR_SYNC_WAIT counts. -/
def Wait.isGate : Wait → Bool
  | .gate _ _ => true
  | _ => false

def Wait.isSync : Wait → Bool
  | .gate _ _ => false
  | .fence _ _ _ _ => false
  | _ => true

/-- Cycles for which all slots have now been held (R277). -/
def State.fullNow (s : State) (site : Nat) : Nat :=
  match (s.spire site).mover.fullSince with
  | some f => max (s.spire site).cycle (s.cycleAt site s.now) - f
  | none => 0

/-- What a register of a site's window reads as: counters with what runs now, cells and their flags as they settle (R145, R187, R221, R239, R277). -/
def State.siteView (s : State) (site off : Nat) (v : Word) : Word :=
  let o := off % 0x1000
  if off = R.SPR_STATUS site then s.spireStatus site
  else if off = R.SPR_ARR_STAT site then BitVec.ofNat 64 (s.arrStat site)
  else if off = R.SPR_ARR_DUMMY site ∨ off = R.SPR_ARR_BUSY site then (s.settleHold site (s.spireNs site)).reg off
  else if off = R.SPR_SLOT_FULL site then v + BitVec.ofNat 64 (s.fullNow site)
  else if off = R.SPR_LOOP_GATE site then v + BitVec.ofNat 64 (s.heldNow site Wait.isGate)
  else if off = R.SPR_SYNC_WAIT site then v + BitVec.ofNat 64 (s.heldNow site Wait.isSync)
  else if Nat.ble 0x400 o && Nat.blt o 0x600 then (s.settleCells site).reg off
  else v

/-- What a counter of waiting time adds for the waits that stand now: writes on a closing mirror chunk or a capture, and a full or starved stage queue (R376, R455, R535). -/
def State.waitingNs (s : State) (off : Nat) : Nat :=
  if off = R.LNK_MIR_WAIT_NS then waitedNs s.mirror.waits s.now
  else if off = R.BSN_CAPTURE_WAIT_NS then (match s.bsn.capture with | some k => waitedNs k.held s.now | none => 0)
  else if Nat.ble (R.LNK_STQ_FULL_NS 0) off && Nat.ble off (R.LNK_STQ_EMPTY_NS 31) then
    (let q := (off - R.LNK_STQ_FULL_NS 0) / 8 % 32
     match tfind s.stq q with
     | some x =>
       let full := sqAt x.entry 0 1 == 1 && x.ahead - x.behind == sqAt x.entry 3 1
       let empty := sqAt x.entry 0 1 == 2 && x.ahead == x.behind && x.ahead != 0
       if (off = R.LNK_STQ_FULL_NS q && full) || (off = R.LNK_STQ_EMPTY_NS q && empty) then s.now - x.since else 0
     | none => 0)
  else 0

/-- What the register at an offset reads as: the stored value, but where it is a window onto other state. -/
def State.view (s : State) (off : Nat) : Word :=
  let v := s.reg off
  if Nat.ble 0x400000 off && Nat.blt off 0x800000 then
    (let site := (off - 0x400000) / 0x1000
     if s.windowOpen off = false then 0 else s.siteView site off v)
  else if Nat.ble 0x210000 off && Nat.blt off 0x220000 then s.pageView ((off - 0x210000) / 0x1000) (off % 0x1000) v
  else if Nat.ble 0x800000 off && Nat.blt off 0x900000 then
    (let d := (off - 0x800000) / 0x40000
     if off = R.CNL_RT_DATA d then s.routeData d else if off = R.CNL_GRP_DATA d then s.groupData d else v)
  else if Nat.ble 0x101000 off && Nat.blt off 0x102000 then (s.showQueue ((off - 0x101000) / 0x40)).reg off
  else if off = R.HCP_ADMIT_STAT then s.showSlots.reg off
  else if off = R.LNK_RT_DATA then s.linkRouteData
  else if off = R.LNK_RT_MASK then s.linkRouteMask
  else if off = R.CLK_TIME then BitVec.ofNat 64 s.now
  else if off = R.GLB_SPEC_STALL_NS then v + BitVec.ofNat 64 s.stallNow
  else if Nat.ble (R.ERR_REC 0) off && Nat.ble off (R.ERR_REC 7) then s.recordWord ((off - R.ERR_REC 0) / 8)
  else if Nat.ble 0x900000 off && Nat.blt off 0x980000 then
    (let t := (off - 0x900000) / 0x10000
     if off = R.TWR_THROTTLE_NS t && Nat.ble 2 (s.fld (R.TWR_STATUS t) F.TWR_STATUS_LEVEL) then v + BitVec.ofNat 64 (s.now - (s.tower t).throttleAt)
     else match (s.tower t).latch with
       | some (n, w) => if off = R.TWR_LOG_HI t n then w else v
       | none => v)
  else v + BitVec.ofNat 64 (s.waitingNs off)

/-- The bits of a register whose fields have an access code. -/
def RegRow.bits (r : RegRow) (a : Access) : Word := (r.fields.filter (fun f => f.acc == a)).foldl (fun v f => v ||| f.mask) 0

/-- A read of a register by its address: what it reads as, and what the read itself does (R9 RC, R299, R506). An unassigned offset reads zero (R11). -/
def State.readReg (s : State) (off : Nat) : Word × State :=
  match regAt off with
  | none => (0, s)
  | some r =>
    let v := s.view off
    let rc := r.bits .rc
    let s :=
      if Nat.ble 0x210108 off && Nat.blt off 0x220000 && off % 16 == 8 && Nat.ble 0x108 (off % 0x1000) then
        s.mailboxReceive (0x100 + (off - 0x210000) / 0x1000) ((off % 0x1000 - 0x108) / 16)
      else if Nat.ble 0x900000 off && Nat.blt off 0x980000 && Nat.ble 0x1000 (off % 0x10000) && Nat.blt (off % 0x10000) 0x1400 then
        (let t := (off - 0x900000) / 0x10000
         let n := (off % 0x10000 - 0x1000) / 16
         if off % 16 = 0 then s.latchLog t n
         else if ((s.tower t).latch.map Prod.fst) == some n then s.setTower t { s.tower t with latch := none } else s)
      else if rc = 0 then s else s.setReg off (s.reg off &&& ~~~rc)
    (v, s)

/-- A 64-bit register from its two 32-bit halves, the low one first. -/
def joinWords (a b : Word) : Word := BitVec.ofNat 64 (a.toNat % 2 ^ 32 + b.toNat % 2 ^ 32 * 2 ^ 32)

/-- The 32-bit registers at an offset and at offset + 4. -/
def State.readPair (s : State) (off : Nat) : Word × State :=
  (joinWords (s.readReg off).1 ((s.readReg off).2.readReg (off + 4)).1, ((s.readReg off).2.readReg (off + 4)).2)

/-- A 64-bit word of BAR0 (R483): a 64-bit register whole, or the 32-bit registers at the offset and at offset + 4. -/
def State.readWord (s : State) (off : Nat) : Word × State :=
  match regAt off with
  | some r => if r.width = 64 then s.readReg off else s.readPair off
  | none => s.readPair off

/-! What a write does. -/

/-- What a write asks of a register: its read-and-write fields under the mask, kept elsewhere, and the ones written to its action fields. -/
def RegRow.asked (r : RegRow) (old v m : Word) : Word :=
  let rw := r.bits .rw
  let act := r.bits .wo ||| r.bits .w1s
  (old &&& rw &&& ~~~m) ||| (v &&& m &&& (rw ||| act))

/-- A register after a write under its access codes (R9, R12: the order of the queue is the order of cycles; DESIGN CHOICE, notes/assumptions/121.md). A record whose VALID is cleared is zeroed. -/
def RegRow.written (r : RegRow) (old v m : Word) : Word :=
  let rw := r.bits .rw
  let w1c := r.bits .w1c
  let w1s := r.bits .w1s
  let new := ((old &&& ~~~(rw &&& m)) ||| (v &&& m &&& rw) ||| (v &&& m &&& w1s)) &&& ~~~(v &&& m &&& w1c)
  if r.record && (v &&& m &&& w1c) != 0 then 0 else new

/-- A write of HCP_Q_CFG (R466): the sizes hold while their queue is enabled; the enables act as their rows say. -/
def State.writeQCfg (s : State) (q : Nat) (e : Word) : State :=
  let r := R.HCP_Q_CFG q
  let s := s.setFlds r ((if s.sqOn q then [] else [(F.HCP_Q_CFG_SQ_LOG2, fget e F.HCP_Q_CFG_SQ_LOG2)]) ++ (if s.cqOn q then [] else [(F.HCP_Q_CFG_CQ_LOG2, fget e F.HCP_Q_CFG_CQ_LOG2)])
    ++ [(F.HCP_Q_CFG_VECTOR, fget e F.HCP_Q_CFG_VECTOR), (F.HCP_Q_CFG_CO_COUNT, fget e F.HCP_Q_CFG_CO_COUNT), (F.HCP_Q_CFG_CO_TIME, fget e F.HCP_Q_CFG_CO_TIME)])
  let s := if fget e F.HCP_Q_CFG_SQ_EN = 1 then s.sqEnable q else s.setFld r F.HCP_Q_CFG_SQ_EN 0
  if fget e F.HCP_Q_CFG_CQ_EN = 1 then s.cqEnable q else if s.cqOn q then s.cqDisable q else s

/-- A write in a site window (R106) with an effect of its own; none for the others. -/
def State.writeSite (s : State) (off : Nat) (e v m : Word) : Option State :=
  let site := (off - 0x400000) / 0x1000
  let o := off % 0x1000
  if off = R.SPR_RNG_SEED site then some (s.writeSeed site e)
  else if off = R.SPR_RSD_INJECT site then some (s.armInject site e.toNat)
  else if off = R.SPR_FAULT site then some (if fget (v &&& m) F.SPR_FAULT_VALID = 1 then s.clearFault site else s)
  else if off = R.SPR_ARR_CTL site then some (s.writeGapThresh site e.toNat)
  else if off = R.SPR_SYNC_HOLD_LIM site then some (s.writeHoldLim site e.toNat)
  else if Nat.ble 0x400 o && Nat.blt o 0x580 then some (s.writeCell site ((o - 0x400) / 8) e)
  else none

/-- A write of a register of H0's queues, with an effect of its own (R466, R467). -/
def State.writeHcp (s : State) (off : Nat) (e m : Word) : Option State :=
  if Nat.ble 0x101000 off && Nat.blt off 0x102000 then
    (let q := (off - 0x101000) / 0x40
     let o := off % 0x40
     if o = 0x10 then some (s.writeQCfg q e)
     else if o = 0x00 then (if s.sqOn q then some s else none)
     else if o = 0x18 then (if s.sqOn q then some s else none)
     else if o = 0x08 then (if s.cqOn q then some s else none)
     else none)
  else if Nat.ble 0x108000 off && Nat.blt off 0x108400 then
    (let q := (off - 0x108000) / 0x10
     if m = 0 then some s else if off % 0x10 = 0 then some (s.sqDoorbell q e.toNat) else some (s.cqDoorbell q e.toNat))
  else none

/-- A write of a register of links, towers, test, security, power or basin with an effect of its own. -/
def State.writeOther (s : State) (off : Nat) (e m : Word) : Option State :=
  if off = R.GLB_SPEC_CTL then some (s.writeSpecCtl e)
  else if off = R.CLK_SPIRE_W then some (s.writeUser 0 (fget e F.CLK_SPIRE_W_USER))
  else if off = R.CLK_SPIRE_E then some (s.writeUser 1 (fget e F.CLK_SPIRE_W_USER))
  else if off = R.BSN_SANITIZE then some (if fget e F.BSN_SANITIZE_START = 1 then s.sanitize else s)
  else if off = R.SEC_SVN_CTL then
    some ([(1, F.SEC_SVN_CTL_COMMIT_LK), (2, F.SEC_SVN_CTL_COMMIT_LT), (3, F.SEC_SVN_CTL_COMMIT_CFG)].foldl (fun (s : State) (p : Nat × Fld) => if fget e p.2 = 1 then s.commitSvn p.1 else s) s)
  else if off = R.TST_CTL then some (s.writeScanEn (fget e F.TST_CTL_SCAN_EN == 1))
  else if off = R.TST_PPR_CTL then some (s.writePpr e)
  else if off = R.TST_H1_MARGIN_CMD then some (s.writeH1Margin e)
  else if Nat.ble 0xF01000 off && Nat.blt off 0xF01C00 && off % 0x40 == 0 then some (s.writePrbs ((off - 0xF01000) / 0x40) e)
  else if Nat.ble 0x900000 off && Nat.blt off 0x980000 && off % 0x10000 == 0x300 then some (s.writeMargin ((off - 0x900000) / 0x10000) e)
  else if Nat.ble 0x210000 off && Nat.blt off 0x220000 && off % 0x1000 == 8 then
    some (if m = 0 then s else s.mailboxSend (0x100 + (off - 0x210000) / 0x1000) (fget e F.MBX_TX_SEND_CHANNEL) (fget e F.MBX_TX_SEND_TAG))
  else if Nat.ble (R.LNK_CTL 0) off && Nat.ble off (R.LNK_CTL 47) && (off - R.LNK_CTL 0) % (R.LNK_CTL 1 - R.LNK_CTL 0) == 0 then
    (let n := (off - R.LNK_CTL 0) / (R.LNK_CTL 1 - R.LNK_CTL 0)
     let s := s.setFld (R.LNK_CTL n) F.LNK_CTL_RETRY_LIM (fget e F.LNK_CTL_RETRY_LIM)
     let on := fget e F.LNK_CTL_EN == 1
     let s := if on == (s.fld (R.LNK_CTL n) F.LNK_CTL_EN == 1) then s else s.writeLinkEnable n on
     some (if fget e F.LNK_CTL_RETRAIN = 1 then s.writeRetrain n else s))
  else none

/-- A write of the register at an offset under a bit mask (R9, R11, R483). -/
def State.writeReg (s : State) (off : Nat) (v mask : Word) : State :=
  match regAt off with
  | none => s
  | some r =>
    let m := if r.width = 32 then mask &&& 0xFFFFFFFF else mask
    let old := s.reg off
    let e := r.asked old v m
    let site := Nat.ble 0x400000 off && Nat.blt off 0x800000
    if site && !s.windowOpen off then s
    else
      match (if site then s.writeSite off e v m else if Nat.ble 0x100000 off && Nat.blt off 0x200000 then s.writeHcp off e m else s.writeOther off e m) with
      | some t => t
      | none => s.setReg off (r.written old v m)

/-- A 64-bit word written to BAR0 (R483). -/
def State.writeWord (s : State) (off : Nat) (v mask : Word) : State :=
  match regAt off with
  | some r => if r.width = 64 then s.writeReg off v mask else (s.writeReg off v mask).writeReg (off + 4) (v >>> 32) (mask >>> 32)
  | none => s.writeReg (off + 4) (v >>> 32) (mask >>> 32)

/-! What H0 lets through. -/

/-- The module is READY (R605): the boot has ended, and no warm reset is under way. -/
def State.isReady (s : State) : Bool := (s.pwr.at_ == .up || s.pwr.at_ == .orderly) && s.stage == 9 && s.warm.isNone

/-- Plain traffic of H0 is shut out for want of IDE (R615). -/
def State.ideShut (s : State) : Bool := s.fw.policy % 2 == 1 && s.fld R.SEC_IDE F.SEC_IDE_STATE != 2

/-- H0's link carries nothing: the module has no power, a test dwell holds the port (R636), or the boundary scan holds its pins (R639). -/
def State.h0Down (s : State) : Bool := !(s.pwr.at_ == .up || s.pwr.at_ == .orderly) || s.tst.dwell.isSome || s.tst.scan

/-- A queue register of the HCP block: configuration or doorbell (R500, R501). -/
def queueReg (off : Nat) : Bool := (Nat.ble 0x101000 off && Nat.blt off 0x102000) || (Nat.ble 0x108000 off && Nat.blt off 0x108400)

/-- A host write of a BAR0 offset is let through (R605, R615). -/
def State.hostMayWrite (s : State) (off : Nat) : Bool :=
  !s.h0Down && (s.isReady || queueReg off) && (!s.ideShut || queueReg off || (Nat.ble 0xD00000 off && Nat.blt off 0xE00000))

/-- REGISTER_WRITE (R9 to R12, R583): a host write of a BAR0 register; one to a site window wakes a QUIESCENT module first. -/
def execRegisterWrite (off : Nat) (v : Word) (s : State) : Host.Outcome State Fault Refusal :=
  if s.hostMayWrite off = false then .next s
  else .next ((if Nat.ble 0x400000 off && Nat.blt off 0x800000 then s.wakeModule else s).writeReg off v (BitVec.allOnes 64))

/-! BAR2 and CXL.mem (R461, R463). -/

/-- How an access of the host to device memory fares at an address (R264, R303, R308, R463, R517, R634, R635). -/
inductive HostMem where
  | ok | shadow | retired | far | noTarget
  deriving DecidableEq, Repr

/-- Where a request of H0 goes, address by address. -/
def State.hostMem (s : State) (a : Nat) : HostMem :=
  if s.standby then .noTarget
  else if isTower a then
    if s.specOn && inShadow a then .shadow
    else if s.towerState (let (d, g, _) := s.towerPlace a; 4 * d + g / 32) == 2 then .noTarget
    else if s.retired a then .retired else .ok
  else if s.isFar a then (if s.far.failed then .far else if s.retired a then .retired else .ok)
  else match lsSite a with
    | some site => if s.siteUp site then .ok else .noTarget
    | none => .noTarget

/-- What an access without effect counts. -/
def State.hostCount (s : State) : HostMem → State
  | .shadow => s.bump R.GLB_SHADOW_BAR2
  | .retired => s.bump R.TWR_RETIRED_HIT
  | .noTarget => s.bump R.HCP_BAR2_DROP
  | _ => s

/-- Requests within one barge (R463): first address and bytes of each part. -/
def bargeParts : Nat → Nat → Nat → List (Nat × Nat)
  | 0, _, _ => []
  | fuel + 1, a, n => if n = 0 then [] else (let k := min n (512 - a % 512); (a, k) :: bargeParts fuel (a + k) (n - k))

/-- A host read of device memory (R463): committed state; zero where the access has no effect. -/
def State.hostRead (s : State) (a n : Nat) : List Byte × State :=
  (bargeParts (n / 512 + 2) a n).foldl (fun (r : List Byte × State) (p : Nat × Nat) =>
    let s := if (lsSite p.1).isSome then r.2.wakeModule else r.2
    match s.hostMem p.1 with
    | .ok => (let s := s.reachAddr p.1; (r.1 ++ s.load p.1 p.2, s))
    | x => (r.1 ++ List.replicate p.2 0, s.hostCount x)) ([], s)

/-- A host write of device memory (R463): never held (R266); one to the journal working region is discarded (R517). -/
def State.hostWrite (s : State) (a : Nat) (bs : List Byte) : State :=
  ((bargeParts (bs.length / 512 + 2) a bs.length).foldl (fun (r : List Byte × State) (p : Nat × Nat) =>
    let s := if (lsSite p.1).isSome then r.2.wakeModule else r.2
    (r.1.drop p.2, match s.hostMem p.1 with
      | .ok => if inJournal p.1 then s else (s.reachAddr p.1).store p.1 (r.1.take p.2)
      | x => s.hostCount x)) (bs, s)).2

/-- BAR2 serves nothing: before READY, or shut out for want of IDE (R605, R615). -/
def State.bar2Shut (s : State) : Bool := !s.isReady || s.ideShut

/-- The device address of a BAR2 offset (R463): bits of BASE below the BAR's size act as zero. -/
def State.bar2Addr (s : State) (o : Nat) : Nat :=
  let k := s.fld R.HCP_H0_STAT F.HCP_H0_STAT_BAR2_LOG2
  (s.reg R.HCP_BAR2_BASE).toNat / 2 ^ k * 2 ^ k + o

/-- The offset lies in the BAR. -/
def State.inBar2 (s : State) (o : Nat) : Bool := Nat.blt o (2 ^ s.fld R.HCP_H0_STAT F.HCP_H0_STAT_BAR2_LOG2)

/-- A read through H0's memory space, with its answer. -/
def State.portRead (s : State) (a n : Nat) : State :=
  if s.bar2Shut then { s with answers := s.answers ++ [.mem a (List.replicate n 0)] }
  else (let (bs, s) := s.hostRead a n; { s with answers := s.answers ++ [.mem a bs] })

/-- A write through H0's memory space. -/
def State.portWrite (s : State) (a : Nat) (bs : List Byte) : State := if s.bar2Shut then s else s.hostWrite a bs

/-- BAR2_READ (R463). -/
def execBar2Read (o n : Nat) (s : State) : Host.Outcome State Fault Refusal :=
  if s.h0Down || !s.inBar2 o then .next s else .next (s.portRead (s.bar2Addr o) n)

/-- BAR2_WRITE (R463). -/
def execBar2Write (o : Nat) (bs : List Byte) (s : State) : Host.Outcome State Fault Refusal :=
  if s.h0Down || !s.inBar2 o then .next s else .next (s.portWrite (s.bar2Addr o) bs)

/-- CXL_MEM_ACCESS (R461): a read or a write at a device address of the tower window, in CXL mode. -/
def execCxlMemAccess (a n : Nat) (wr : Option (List Byte)) (s : State) : Host.Outcome State Fault Refusal :=
  if s.h0Down || !isTower a || s.fld R.HCP_H0_STAT F.HCP_H0_STAT_CXL == 0 then .next s
  else match wr with
    | some bs => .next (s.portWrite a bs)
    | none => .next (s.portRead a n)

/-! Register commands of the device group (R483, R495). -/

/-- Any offset of the words lies in a site window of a sleeping module (R583). -/
def State.needsWake (s : State) (off n : Nat) : Bool := s.quiescent && Nat.blt off 0x800000 && Nat.blt 0x400000 (off + 8 * n)

/-- Words read one after the other. -/
def readWords : Nat → Nat → State → List Word × State
  | 0, _, s => ([], s)
  | n + 1, off, s =>
    let (v, s) := s.readWord off
    let (vs, s) := readWords n (off + 8) s
    (v :: vs, s)

/-- The two 32-bit halves of words. -/
def halves (vs : List Word) : List Nat := vs.flatMap (fun v => [v.toNat % 2 ^ 32, v.toNat / 2 ^ 32])

/-- REG_READ (R483). -/
def cmdRegRead (c : Cmd) (s : State) : Go × State :=
  if s.needsWake (c.par 0 4) (c.par 4 1) then (.wait .waitIdle unknown, s)
  else (let (vs, s) := readWords (min 2 (c.par 4 1)) (c.par 0 4) s; (.done .ok (halves vs), s))

def execRegRead (id : Nat) (s : State) : Host.Outcome State Fault Refusal := .next (s.attempt 0x0103 id cmdRegRead)

/-- REG_WRITE (R483): the bits of MASK, and the value read back. -/
def cmdRegWrite (c : Cmd) (s : State) : Go × State :=
  let off := c.par 0 4
  if s.needsWake off 1 then (.wait .waitIdle unknown, s)
  else
    let s := s.writeWord off (BitVec.ofNat 64 (c.par 8 8)) (BitVec.ofNat 64 (c.par 16 8))
    let (v, s) := s.readWord off
    (.done .ok (halves [v]), s)

def execRegWrite (id : Nat) (s : State) : Host.Outcome State Fault Refusal := .next (s.attempt 0x0104 id cmdRegWrite)

/-- COUNTER_SNAPSHOT (R495): COUNT words, each read whole. -/
def cmdCounterSnapshot (c : Cmd) (s : State) : Go × State :=
  let off := c.par 8 4
  let n := c.par 12 2
  if s.needsWake off n || (s.quiescent && (lsSite (c.par 0 8)).isSome) then (.wait .waitIdle unknown, s)
  else
    let (vs, s) := readWords n off s
    (.done .ok [n], s.lanternStore (c.par 0 8) (vs.flatMap (fun v => bytesLE 8 v.toNat)))

def execCounterSnapshot (id : Nat) (s : State) : Host.Outcome State Fault Refusal := .next (s.attempt 0x0905 id cmdCounterSnapshot)

end Sys2Proof.Machine
end

