-- ==== Sys2Proof/Machine/Admission.lean ====
section
/-!
DEFINITION. From a packet to an admitted command: fetch, sequence, header and destination, forwarding, the checks of the destination's Lantern, slots and the journal
(R368, R369, R470 to R482, R511, R665); and the starts of delayed commands (R479, R480).
-/
namespace Sys2Proof.Machine

/-! Parameters (R482 to R495). -/

/-- The parameter length of an opcode's row; none for an opcode not listed. -/
def plenOf (op : Nat) : Option Nat :=
  match op with
  | 0x0101 => some 0 | 0x0102 => some 0 | 0x0103 => some 8 | 0x0104 => some 24 | 0x0105 => some 0
  | 0x0201 => some 24 | 0x0202 => some 24 | 0x0203 => some 16 | 0x0204 => some 16 | 0x0205 => some 24 | 0x0206 => some 16 | 0x0207 => some 8 | 0x0208 => some 8
  | 0x0301 => some 16 | 0x0302 => some 8 | 0x0303 => some 448 | 0x0304 => some 16 | 0x0305 => some 8 | 0x0306 => some 8 | 0x0307 => some 8 | 0x0308 => some 24
  | 0x0309 => some 8 | 0x030A => some 8 | 0x030B => some 8
  | 0x0401 => some 72 | 0x0402 => some 104 | 0x0403 => some 8 | 0x0404 => some 8 | 0x0405 => some 16 | 0x0406 => some 16 | 0x0407 => some 16 | 0x0408 => some 16
  | 0x0409 => some 16 | 0x040A => some 8 | 0x040B => some 8 | 0x040C => some 8 | 0x040D => some 8
  | 0x0501 => some 0 | 0x0502 => some 8 | 0x0503 => some 16 | 0x0504 => some 16 | 0x0505 => some 8
  | 0x0601 => some 16 | 0x0602 => some 8 | 0x0603 => some 8 | 0x0604 => some 0 | 0x0605 => some 0 | 0x0606 => some 16
  | 0x0701 => some 8 | 0x0702 => some 8 | 0x0703 => some 8 | 0x0704 => some 0
  | 0x0801 => some 0 | 0x0802 => some 0 | 0x0803 => some 96 | 0x0804 => some 104
  | 0x0901 => some 24 | 0x0902 => some 8 | 0x0903 => some 8 | 0x0904 => some 8 | 0x0905 => some 16
  | _ => none

/-- Eight entries of an INTERLEAVE (R286). -/
def ilOf (p : Packet) : List Nat := (List.range 8).map (fun i => parAt p (8 + i) 1)

/-- Bytes of POD_CONFIG's map that break R490, by their number. -/
def mapBad (p : Packet) (l : Nat) : Bool :=
  let b := parAt p l 1
  b != 0xFF && (Nat.ble 64 b || (List.range l).any (fun i => parAt p i 1 == b))

/-- Indices that a kind of FUNC_REINIT has (R492). -/
def reinitCount (kind : Nat) : Nat := match kind with | 0 => 16 | 1 => 64 | 2 => 48 | 3 => 256 | 5 => 2 | _ => 1

/-- Indices that a target of TEST_MODE has (R495). -/
def testCount (target : Nat) : Nat := match target with | 0 => 8 | 1 => 48 | _ => 1

/-- Each parameter field that can be out of range, at its offset, in rising order, with whether it is (R482). -/
def State.paramFaults (s : State) (op : Nat) (p : Packet) : List (Nat × Bool) :=
  let v := parAt p
  let zero := fun (o n : Nat) => (o, v o n != 0)
  let addr := fun (o n : Nat) => (o, !s.rangeOk (v o 8) n)
  let above := fun (o n k : Nat) => (o, Nat.ble k (v o n))
  match op with
  | 0x0103 => [(0, v 0 4 % 8 != 0 || Nat.blt 0x4000000 (v 0 4 + 8 * v 4 1)), (4, v 4 1 != 1 && v 4 1 != 2), zero 5 3]
  | 0x0104 => [(0, v 0 4 % 8 != 0 || Nat.ble 0x4000000 (v 0 4)), zero 4 4]
  | 0x0201 => [addr 0 (v 16 8), addr 8 (v 16 8), (16, v 16 8 % 512 != 0)]
  | 0x0202 => [addr 0 (v 8 8), (8, v 8 8 % 512 != 0)]
  | 0x0203 => [addr 0 (v 8 8)]
  | 0x0204 => [addr 0 1, above 8 1 2, zero 9 7]
  | 0x0205 => [addr 0 8, addr 8 (if v 16 1 = 0 then 0x10000 else 0x200000), above 16 1 2, zero 17 7]
  | 0x0206 => [above 0 1 2, above 1 1 48, zero 2 6, (8, !ilSetOk (ilOf p))]
  | 0x0207 => [(0, !s.retireOk (v 0 8))]
  | 0x0208 => [(0, Nat.ble 512 (v 0 2) && v 0 2 != 0xFFFF), zero 2 6]
  | 0x0301 => [addr 0 (v 8 8)]
  | 0x0302 => [(0, !s.programs.any (fun x => x.handle == BitVec.ofNat 64 (v 0 8)))]
  | 0x0303 => (match s.launchBad (launchBlk p) with | some o => [(o, true)] | none => [])
  | 0x0304 => [(0, v 0 8 % 64 != 0 || !s.rangeOk (v 0 8) (128 * v 8 4)), (8, v 8 4 == 0 || Nat.blt 4096 (v 8 4)), zero 12 4]
  | 0x0305 => [zero 4 4]
  | 0x0306 => [zero 4 4]
  | 0x0307 => [zero 4 4]
  | 0x0308 => [(0, v 0 8 == 0), above 16 1 2, zero 17 7]
  | 0x030B => [zero 4 4]
  | 0x0401 => (List.range 64).map (fun l => (l, mapBad p l)) ++ [above 64 1 64, zero 65 7]
  | 0x0402 => [(72, v 72 8 % 4096 != 0 || !isTower (v 72 8)), (80, v 80 8 % 128 != 0 || !s.rangeOk (v 80 8) (128 * v 88 2)), above 88 2 4097, above 90 1 2, above 91 1 2]
  | 0x0405 => [above 0 1 64, (1, v 1 1 == 0 || Nat.ble 64 (v 1 1)), zero 2 6, (8, !s.rangeOk (v 8 8) (32 * v 1 1) || (s.regionList (v 8 8) (v 1 1)).any (fun r => !r.ok))]
  | 0x0406 => [addr 0 (16 * v 9 1), above 8 1 64, (9, Nat.blt 64 (v 8 1 + v 9 1)), zero 10 6]
  | 0x0407 => [addr 0 (128 * v 9 1), (9, Nat.blt 256 (v 8 1 + v 9 1)), zero 10 6]
  | 0x0408 => [addr 0 (64 * v 8 1), (8, v 8 1 == 0 || Nat.blt 32 (v 8 1)), zero 9 7]
  | 0x0409 => [addr 0 (544 * v 8 1), (8, v 8 1 == 0 || Nat.blt 8 (v 8 1)), zero 9 7]
  | 0x040A => [addr 0 128]
  | 0x040B => [(0, v 0 8 % 64 != 0 || !s.rangeOk (v 0 8) 128)]
  | 0x040D => [above 0 1 64, above 1 1 64, zero 2 6]
  | 0x0503 => [addr 0 (64 * v 8 2), zero 10 6]
  | 0x0504 => [above 8 1 2, zero 9 7]
  | 0x0601 => [addr 0 (64 * v 8 2), zero 10 6]
  | 0x0602 => [above 0 2 960, above 2 1 2, zero 3 5]
  | 0x0603 => [above 0 1 7, above 1 2 (reinitCount (v 0 1)), zero 3 5]
  | 0x0606 => [above 8 1 2, zero 9 7]
  | 0x0701 => [above 0 1 3, zero 1 7]
  | 0x0702 => [zero 4 4]
  | 0x0703 => [above 0 1 2, zero 1 1, zero 4 4]
  | 0x0804 => [above 96 1 2, zero 97 7]
  | 0x0901 => [(8, v 8 2 == 0), zero 10 6, addr 16 (64 * v 8 2)]
  | 0x0903 => [above 0 1 4, above 1 1 (testCount (v 0 1)), above 2 1 2, zero 3 5]
  | 0x0904 => [above 0 1 2, zero 1 7]
  | 0x0905 => [addr 0 (8 * v 12 2), (8, v 8 4 % 8 != 0 || Nat.blt 0x4000000 (v 8 4 + 8 * v 12 2)), (12, v 12 2 == 0 || Nat.blt 512 (v 12 2)), zero 14 2]
  | _ => []

/-- A command that is refused without a job (R482): those of the job group that need one. -/
def needsJob (op : Nat) : Bool := op == 0x0403 || op == 0x0404 || (Nat.ble 0x0406 op && Nat.ble op 0x040D)

/-- Commands refused while the job stops or is stopped (R558). -/
def stopRefuses (op : Nat) : Bool := [0x0303, 0x0304, 0x040A, 0x040B, 0x0308, 0x0309, 0x040C, 0x0502].contains op

/-- Commands served in STANDBY (R583). -/
def standbyServes (op : Nat) : Bool := op / 256 == 1 || op / 256 == 7 || op / 256 == 8 || op / 256 == 9 || op == 0x0501 || op == 0x0503 || op == 0x0505

/-- The state an object must be in for its command to be admitted (R264, R379, R490, R534, R558, R583, R629, R641). -/
def State.stateBad (s : State) (op : Nat) (p : Packet) : Bool :=
  let j := s.jobState
  ((j == 2 || j == 3) && stopRefuses op) || ((op == 0x0401 || op == 0x0405) && j == 1) || (op == 0x040D && j != 3) || (op == 0x0308 && !s.specOn)
    || (op == 0x0502 && s.ckptBad (parAt p 0 8)) || (op == 0x0904 && j != 0)
    || ((s.standby || s.fld R.PWR_STATUS F.PWR_STATUS_STATE == 3) && !standbyServes op)

/-- The checks of the destination's Lantern before the class (R478): the refusal and its RESULT0. -/
def State.refusalOf (s : State) (p : Packet) : Option (Status × Nat) :=
  let op := pktAt p 0 2
  match plenOf op with
  | none => some (.badOpcode, 0)
  | some n =>
    if pktAt p 12 2 ≠ n then some (.badLength, 0)
    else match (s.paramFaults op p).find? (fun x => x.2) with
      | some x => some (.badParam, x.1)
      | none =>
        let manuf := s.fld R.SEC_STATE F.SEC_STATE_MANUF_SERVICE == 1
        if (op == 0x0208 && !manuf) || (op == 0x0402 && manuf) then some (.notPermitted, 0)
        else if needsJob op && s.jobState == 0 then some (.noJob, 0)
        else if s.stateBad op p then some (.badState, 0)
        else if op = 0x0304 then (match s.graphFault (parAt p 0 8) (parAt p 8 4) with | some k => some (.graphInvalid, k) | none => none)
        else none

/-! Slots (R477, R498). -/

/-- Shared slots free. -/
def State.sharedFree (s : State) : Nat := 224 - s.slots 2

/-- The thresholds of class 3 and class 2 as they act. -/
def State.t3 (s : State) : Nat := min 223 (s.fld R.HCP_ADMIT_CTL F.HCP_ADMIT_CTL_T3)
def State.t2 (s : State) : Nat := min s.t3 (s.fld R.HCP_ADMIT_CTL F.HCP_ADMIT_CTL_T2)

/-- The shared pool takes a packet of a class with `free` left (R477). -/
def State.poolTakes (s : State) (cls free : Nat) : Bool :=
  match cls with | 0 => true | 1 => Nat.ble 1 free | 2 => Nat.blt s.t2 free | _ => Nat.blt s.t3 free

/-- The slot a packet of a class takes: 1 reserved, 2 shared, 0 none yet (R665); none where it is BUSY. -/
def State.slotFor (s : State) (cls : Nat) : Option Nat :=
  if cls = 0 then some (if s.slots 1 < 32 then 1 else if 0 < s.sharedFree then 2 else 0)
  else if s.poolTakes cls s.sharedFree then some 2 else none

/-- Lantern's estimate in µs of the time until the pool takes a packet of a class (R666): the bounds of the launches that hold shared slots, one for each slot that must be freed,
those of the waiting class-0 packets first; unknown where too few are bounded (R480). -/
def State.busyEstimate (s : State) (cls : Nat) : Nat :=
  let top := match cls with | 1 => 0 | 2 => s.t2 | _ => s.t3
  let need := top + 1 - s.sharedFree + (s.hcp.cmds.filter (fun c => c.slot == 0)).length
  let bounds := s.hcp.cmds.filterMap (fun c => if c.slot = 2 then (match s.tasks.find? (fun (x : Nat × Task) => x.2.cmd == some c.dseq) with | some (_, t) => if t.limit = 0 then none else some (s.taskRest t) | none => none) else none)
  ((sortOn id bounds)[need - 1]?).getD unknown

/-! Refusals and admission. -/

/-- A packet is refused: its one final entry (R474), on its submission queue's completion queue (R465), from this module's position, and its count (R502). -/
def State.refusePkt (s : State) (pos fwd q : Nat) (p : Packet) (st : Status) (r0 : Nat) (byGateway : Bool) : State :=
  let e : CqEntry := { status := statusCode st, disp := .refused, final := true, module := s.moduleId, seq := pktAt p 4 4, tAccept := s.stamp, tDone := s.stamp,
                       r0 := r0 % 2 ^ 32, r1 := s.position + (if byGateway then 2 ^ 31 else 0), r2 := 0, r3 := 0 }
  (s.bump (if st = .busy then R.HCP_REFUSED_BUSY else R.HCP_REFUSED_OTHER)).replyTo pos q fwd e

/-- The journal entry of an admitted packet (R511, R512, R516): a JOURNAL_MARK's own entry is the mark. -/
def State.journalOf (s : State) (pos : Nat) (p : Packet) (d : Nat) : JEntry :=
  let mark := pktAt p 0 2 == 0x0902
  { dseq := d, orig := d, seq := pktAt p 4 4, opcode := pktAt p 0 2, queue := pktAt p 9 1, kind := if mark then 2 else 0, cls := pktAt p 10 1 % 4,
    forwarded := pos != s.position, ordered := pktAt p 2 2 / 2 % 2 == 1, state := 1, pos := pos, status := 0, r0 := 0,
    digest := if mark then parAt p 0 8 else digest8 (bytesLE (64 + pktAt p 12 2) p.toNat), tAccept := s.now, tStart := 0, tDone := 0 }

/-- Lantern admits a packet to a slot: the journal first (R511), then the command is held; one without a slot is DELAYED at once (R665). -/
def State.admitTo (s : State) (pos fwd slot : Nat) (p : Packet) : State :=
  let op := pktAt p 0 2
  let j := s.journalOf pos p
  let s := s.jAppend j
  let id := (s.reg R.JNL_NEWEST).toNat
  let c : Cmd := { dseq := id, queue := pktAt p 9 1, seq := pktAt p 4 4, pos := pos, cls := pktAt p 10 1 % 4, opcode := op, quiet := pktAt p 2 2 % 2 == 1,
                   ordered := pktAt p 2 2 / 2 % 2 == 1, pkt := p, tAccept := s.now, waitLimit := pktAt p 16 4, slot := slot, attempted := false, delayed := none,
                   started := false, tStart := 0, fwd := fwd,
                   data := if op = 0x0303 then (s.cellEntries (parAt p 296 8) (parAt p 294 2)).getD [] else [] }
  let s := (({ s with hcp := { s.hcp with cmds := s.hcp.cmds ++ [c] } } : State).bump R.HCP_ADMITTED).showSlots
  let s := if op = 0x0304 then s.admitGraph id (parAt p 0 8) (parAt p 8 4) else s
  if slot = 0 then s.delayCmd c .waitSlot unknown else s

/-- The destination's Lantern (R478): its checks, then the class. -/
def State.takeIn (s : State) (pos fwd : Nat) (p : Packet) : State :=
  match s.refusalOf p with
  | some (st, r0) => s.refusePkt pos fwd (pktAt p 9 1) p st r0 false
  | none =>
    match s.slotFor (pktAt p 10 1 % 4) with
    | none => s.refusePkt pos fwd (pktAt p 9 1) p .busy (s.busyEstimate (pktAt p 10 1 % 4)) false
    | some k => s.admitTo pos fwd k p

/-! The fetching module (R467, R470 to R472, R478). -/

/-- A header field is invalid, or QUEUE is not the carrying queue (R470). -/
def headerBad (q : Nat) (p : Packet) : Bool :=
  pktAt p 2 2 / 4 != 0 || pktAt p 9 1 != q || pktAt p 10 1 / 4 != 0 || pktAt p 11 1 != 0 || Nat.blt 448 (pktAt p 12 2) || pktAt p 12 2 % 8 != 0 || pktAt p 14 2 != 0 || pktAt p 20 44 != 0

/-- Where a packet goes: a position, or the refusal with whether the gateway makes it for the destination (R369, R471). -/
inductive Target where
  | at_ (pos : Nat)
  | bad (st : Status) (byGateway : Bool)
  deriving DecidableEq, Repr

def State.destOf (s : State) (p : Packet) : Target :=
  let d := pktAt p 8 1
  let gw := s.fld R.LNK_POD_CFG F.LNK_POD_CFG_GATEWAY == 1
  let dst := fun (pos : Nat) =>
    if pos = s.position then Target.at_ pos
    else if gw = false then .bad .notGateway false
    else if s.unreachable 4 pos then .bad .unreachable true else .at_ pos
  match d / 64 with
  | 0 => (match s.posOf (d % 64) with | some pos => dst pos | none => .bad .badDest gw)
  | 1 => dst (d % 64)
  | 3 => .at_ s.position
  | _ => .bad .badDest false

/-- The gateway forwards a packet (R368): a tracker entry, and an HCP packet in L1. -/
def State.forward (s : State) (pos : Nat) (p : Packet) : State :=
  match (List.range 1024).find? (fun i => (tfind s.hcp.tracker i).isNone) with
  | none => s.refusePkt s.position 0 (pktAt p 9 1) p .busy unknown true
  | some i =>
    let s : State := { s with hcp := { s.hcp with tracker := tinsert s.hcp.tracker i ({ queue := pktAt p 9 1, seq := pktAt p 4 4, dest := pos } : TrackEntry) } }
    (s.bump R.LNK_FWD_HCP).showSlots.sendL (s.lpkt 1 pos i (.hcp p))

/-- What follows the sequence check (R478). -/
def State.route (s : State) (q : Nat) (p : Packet) : State :=
  if headerBad q p then s.refusePkt s.position 0 q p .badHeader 0 false
  else match s.destOf p with
    | .bad st g => s.refusePkt s.position 0 q p st 0 g
    | .at_ pos => if pos = s.position then s.takeIn pos 0 p else s.forward pos p

/-- The fetcher may read from a queue: enabled with a packet waiting, not paused, and nothing of R483's port, R605, R615, R636 or R639 in the way. -/
def State.mayFetch (s : State) (q : Nat) : Bool :=
  Nat.blt q 64 && s.isReady && s.pwr.at_ == .up && !s.ideShut && !s.h0Down && s.sqOn q && !s.fetchPaused q
    && (s.queue q).sqTail != s.fld (R.HCP_Q_STATUS q) F.HCP_Q_STATUS_SQ_HEAD

/-- The packet at a queue's head: of host memory, what the host wrote there; of device memory, its bytes (R465, R467). -/
def State.headPacket (s : State) (q : Nat) (p : Packet) : Packet :=
  if s.fld (R.HCP_SQ_BASE q) F.HCP_SQ_BASE_LOC = 1 then
    BitVec.ofNat 4096 (s.loadLE (s.fld (R.HCP_SQ_BASE q) F.HCP_SQ_BASE_BASE * 4096 + 512 * s.fld (R.HCP_Q_STATUS q) F.HCP_Q_STATUS_SQ_HEAD) 512)
  else p

/-- A class-0 packet for another module, with every tracker entry held, waits at the gateway (R478). -/
def State.trackerWaits (s : State) (q : Nat) (p : Packet) : Bool :=
  pktAt p 10 1 % 4 == 0 && !headerBad q p && (match s.destOf p with | .at_ pos => pos != s.position | .bad _ _ => false)
    && !(List.range 1024).any (fun i => (tfind s.hcp.tracker i).isNone)

/-- PACKET_FETCH (R467, R472, R478): the packet at the head is read and the head advances; SEQ is checked, and matched it advances the expected value. -/
def execPacketFetch (q : Nat) (pkt : Packet) (s : State) : Host.Outcome State Fault Refusal :=
  if s.mayFetch q = false then .next s
  else
    let p := s.headPacket q pkt
    let exp := s.fld (R.HCP_SQ_SEQ q) F.HCP_SQ_SEQ_SEQ
    if pktAt p 4 4 == exp && s.trackerWaits q p then .next s
    else
      let s := (s.setFld (R.HCP_Q_STATUS q) F.HCP_Q_STATUS_SQ_HEAD ((s.fld (R.HCP_Q_STATUS q) F.HCP_Q_STATUS_SQ_HEAD + 1) % s.sqSize q)).bump R.HCP_FETCHED
      if pktAt p 4 4 ≠ exp then .next (s.refusePkt s.position 0 q p .badSequence exp false)
      else .next ((s.setFld (R.HCP_SQ_SEQ q) F.HCP_SQ_SEQ_SEQ ((exp + 1) % 2 ^ 32)).route q p)

/-- HCP (R368): a forwarded packet reaches the Lantern of its destination; it waits on its link until the module is ready. -/
def execHcp (n : Nat) (p : LPkt) (s : State) : Host.Outcome State Fault Refusal :=
  match s.pod.io.inbox.contains (n, p) && s.isReady, p.body with
  | true, .hcp pkt => .next ((s.takeInbox n p).takeIn p.srcPos p.id pkt)
  | _, _ => .next s

/-- HCP_REPLY (R368, R468): an entry reaches the gateway's completion queue, and a final one frees its tracker entry; a reply to a full hold waits on its link. Queue 64 marks an
event of a module without a host (DESIGN CHOICE, notes/assumptions/3.md). -/
def execHcpReply (n : Nat) (p : LPkt) (s : State) : Host.Outcome State Fault Refusal :=
  match s.pod.io.inbox.contains (n, p), p.body with
  | true, .hcpReply e q =>
    if 64 ≤ q then .next ((s.takeInbox n p).postModule e)
    else if s.cqOn q && e.disp != .event && Nat.ble 1024 (s.queue q).hold.length then .next s
    else
      let s := (s.takeInbox n p).cqPost q e
      .next (if e.final && e.disp != .event then ({ s with hcp := { s.hcp with tracker := terase s.hcp.tracker p.id } } : State).showSlots else s)
  | _, _ => .next s

/-! Waiting commands (R479, R480). -/

/-- WAIT_LIMIT_EXPIRY (R480): a command that has not started WAIT_LIMIT µs after its admission ends, and changes nothing. -/
def execWaitLimitExpiry (id : Nat) (s : State) : Host.Outcome State Fault Refusal :=
  match s.cmd? id with
  | some c =>
    if c.started || c.waitLimit == 0 then .next s
    else .next (({ s with now := max s.now (c.tAccept + 1000 * c.waitLimit) } : State).expireCmd id .waitExpired)
  | none => .next s

/-- How a command of an opcode starts, without the answers that only its own row brings. -/
def startOf (op : Nat) : Cmd → State → Go × State :=
  match op with
  | 0x0101 => cmdNop | 0x0102 => cmdIdentify | 0x0103 => cmdRegRead | 0x0104 => cmdRegWrite | 0x0105 => cmdTimeRead
  | 0x0201 => cmdCopy | 0x0202 => cmdFill | 0x0203 => cmdXltInvalidate | 0x0204 => cmdPageResolve | 0x0205 => cmdPageMigrate | 0x0206 => cmdInterleave
  | 0x0207 => cmdRetire | 0x0208 => cmdRetireClear
  | 0x0301 => cmdProgramLoad | 0x0302 => cmdProgramUnload | 0x0303 => cmdLaunch | 0x0304 => cmdGraphSubmit | 0x0305 => cmdPause | 0x0306 => cmdResume
  | 0x0307 => cmdAbort | 0x0308 => cmdEpochOpen | 0x0309 => cmdEpochCommit | 0x030A => cmdEpochDiscard | 0x030B => cmdTaskQuery
  | 0x0401 => cmdPodConfig | 0x0402 => cmdJobStart .none | 0x0403 => cmdJobEnd | 0x0404 => cmdJobStop | 0x0405 => cmdPair .none | 0x0406 => cmdSyncGroupsLoad
  | 0x0407 => cmdCanalGroupsLoad | 0x0408 => cmdStageqLoad none | 0x0409 => cmdPhaseListLoad | 0x040A => cmdCollective | 0x040B => cmdStepEnd | 0x040C => cmdMirrorClose
  | 0x040D => cmdSubstitute
  | 0x0501 => cmdBasinInfo | 0x0502 => cmdCkptWrite | 0x0503 => cmdCkptList | 0x0504 => cmdCkptRestore none .none | 0x0505 => cmdCkptDelete
  | 0x0601 => cmdErrRead | 0x0602 => cmdSpireFence | 0x0603 => cmdFuncReinit | 0x0604 => cmdWarmReset | 0x0605 => cmdPowerCycle | 0x0606 => cmdRollback none .none 0
  | 0x0701 => cmdPowerState | 0x0702 => cmdPowerCap | 0x0703 => cmdClockLimit | 0x0704 => cmdTelemetry
  | 0x0801 => cmdSecStatus | 0x0802 => cmdDebugChallenge | 0x0803 => cmdDebugUnlock | 0x0804 => cmdManufService
  | 0x0901 => cmdJournalQuery | 0x0902 => cmdJournalMark | 0x0903 => cmdTestMode | 0x0904 => cmdSelfTest [] | 0x0905 => cmdCounterSnapshot
  | _ => cmdNop

/-- A delayed command can start now. -/
def State.canStart (s : State) (c : Cmd) : Bool :=
  c.delayed.isSome && !c.started && c.slot != 0 && !(c.ordered && s.behind c) && (match (startOf c.opcode c s).1 with | .wait _ _ => false | _ => true)

/-- The delayed command that starts next: classes in order, then the earliest admitted (R479). -/
def State.nextStart (s : State) : Option Cmd :=
  [0, 1, 2, 3].findSome? (fun k => s.hcp.cmds.find? (fun c => c.cls == k && s.canStart c))

/-- Start a command by its opcode, with what follows the start of some. -/
def State.startNow (s : State) (c : Cmd) : State :=
  if c.opcode = 0x0603 then s.tryReinit c.dseq
  else if c.opcode = 0x0604 then s.tryWarmReset c.dseq
  else if c.opcode = 0x0605 then s.tryPowerCycle c.dseq
  else s.attempt c.opcode c.dseq (startOf c.opcode)

/-- DELAYED_COMMAND_START (R479). -/
def execDelayedCommandStart (s : State) : Host.Outcome State Fault Refusal :=
  match s.nextStart with
  | some c => .next (s.startNow c)
  | none => .next s

/-- H0_PERST_N_ASSERTION (R652): a conventional reset of H0. -/
def execH0PerstNAssertion (s : State) : Host.Outcome State Fault Refusal := .next s.h0Reset

end Sys2Proof.Machine
end

