-- ==== Sys2Proof/Machine/StageQueues.lean ====
section
/-!
DEFINITION. Stage queues (R453 to R455, R459).
-/
namespace Sys2Proof.Machine

def State.stqAt (s : State) (q dir : Nat) : Option StageQ :=
  match tfind s.stq q with
  | some x => if sqAt x.entry 0 1 = dir then some x else none
  | none => none

def State.setStq (s : State) (q : Nat) (x : StageQ) : State := { s with stq := tinsert s.stq q x }.showStq q

def StageQ.depth (x : StageQ) : Nat := sqAt x.entry 3 1

/-- Address of the slot of a micro-batch, and of one of its words. -/
def StageQ.slot (x : StageQ) (k : Nat) : Nat := sqAt x.entry 16 8 + k % x.depth * sqAt x.entry 24 8
def StageQ.word (x : StageQ) (o k : Nat) : Nat := sqAt x.entry o 8 + 8 * (k % x.depth)

/-- The next poll of a queue is due (R454). -/
def State.stqPoll (s : State) (x : StageQ) : State := { s with now := max s.now (x.lastPoll + max 50 (s.fld R.LNK_CE_CTL F.LNK_CE_CTL_POLL_NS)) }

/-- STAGE_READY_POLL (R454 step 2): the OUT engine, with a credit left, polls the ready word of its next micro-batch, and sends the slot as one L2 stream. FULL_NS counts from the
send that uses the last credit. The peer's slot address comes from the peer's entry, which Lantern compared at the load. -/
def execStageReadyPoll (q : Nat) (s : State) : Host.Outcome State Fault Refusal :=
  match s.stqAt q 1 with
  | none => .next s
  | some x =>
    let s := s.stqPoll x
    let x := { x with lastPoll := s.now }
    let k := x.ahead
    if x.depth ≤ k - x.behind ∨ s.jobLE (x.word 32 k) 8 ≠ k % 2 ^ 32 + 1 then .next (s.setStq q x)
    else
      let n := sqAt x.entry 8 4
      let bs := s.jobLoad (x.slot k) n
      let peerQ := sqAt x.entry 2 1
      let s := (s.setStq q { x with ahead := k + 1, since := s.now }).bump (R.LNK_STQ_MB q)
      match s.posOf (sqAt x.entry 1 1) with
      | none => .next s
      | some pos =>
        if pos = s.position then
          match s.stqAt peerQ 2 with
          | some y => .next (let s := s.jobStore (y.slot k) bs; { s with pod := { s.pod with landed := s.pod.landed ++ [(⟨3, y.slot k, n / 512, pos⟩ : Landed)] } })
          | none => .next s
        else
          let s := s.setStq q { x with ahead := k + 1, since := s.now, flying := x.flying ++ [s.pod.nextStream] }
          .next (s.openStream pos (Config.peerSlot q (k % x.depth)).toNat 3 0 q 2 (sqAt x.entry 6 1) 0 bs)

/-- STAGE_SLOT_ARRIVAL (R454 step 3): the stream of the next micro-batch has landed; the arrival word, then ADD 1 to the arrival cell. EMPTY_NS ends. -/
def execStageSlotArrival (q : Nat) (s : State) : Host.Outcome State Fault Refusal :=
  match s.stqAt q 2 with
  | none => .next s
  | some x =>
    let k := x.ahead
    match s.pod.landed.find? (fun l => l.kind == 3 && l.addr == x.slot k) with
    | none => .next s
    | some l =>
      let s : State := { s with pod := { s.pod with landed := s.pod.landed.erase l } }
      let s := s.jobStore (x.word 40 k) (bytesLE 8 (k % 2 ^ 32 + 1))
      let s := if k = x.behind ∧ k ≠ 0 then s.bump (R.LNK_STQ_EMPTY_NS q) (s.now - x.since) else s
      let s := (s.setStq q { x with ahead := k + 1 }).bump (R.LNK_STQ_MB q)
      .next (s.addToCell (sqAt x.entry 12 4 + 1))

/-- STAGE_FREE_POLL (R454 step 6): the IN engine polls the free word of its oldest micro-batch and returns a credit: a one-barge L2 stream, whose form the manual leaves open. -/
def execStageFreePoll (q : Nat) (s : State) : Host.Outcome State Fault Refusal :=
  match s.stqAt q 2 with
  | none => .next s
  | some x =>
    let s := s.stqPoll x
    let x := { x with lastPoll := s.now }
    let k := x.behind
    if x.ahead ≤ k ∨ s.jobLE (x.word 32 k) 8 ≠ k % 2 ^ 32 + 1 then .next (s.setStq q x)
    else
      let s := s.setStq q { x with behind := k + 1, since := s.now }
      match s.posOf (sqAt x.entry 1 1) with
      | some pos => .next (if pos = s.position then s else s.openStream pos 0 1 0 (16 + q) 2 (sqAt x.entry 6 1) 0 (List.replicate 512 0))
      | none => .next s

/-- STAGE_CREDIT_ARRIVAL (R454 step 6, R455): the OUT engine adds one to the credit cell; FULL_NS ends. -/
def execStageCreditArrival (q : Nat) (s : State) : Host.Outcome State Fault Refusal :=
  match s.stqAt q 1 with
  | none => .next s
  | some x =>
    if x.ahead ≤ x.behind then .next s
    else
      let s := if x.ahead - x.behind = x.depth then s.bump (R.LNK_STQ_FULL_NS q) (s.now - x.since) else s
      .next ((s.setStq q { x with behind := x.behind + 1 }).addToCell (sqAt x.entry 12 4 + 1))

end Sys2Proof.Machine
end

