-- ==== Sys2Proof/Machine/Dispatch.lean ====
section
/-!
DEFINITION. The dispatch of a command to its meaning, one arm per constructor.
-/
namespace Sys2Proof.Machine

open Sys2Proof

def exec (i : Instr) (s : State) : Host.Outcome State Fault Refusal :=
  match i with
  | .mma site ins => Sys2Proof.Machine.execMma site ins s
  | .mmaSp site ins => Sys2Proof.Machine.execMmaSp site ins s
  | .mmaDiag site ins => Sys2Proof.Machine.execMmaDiag site ins s
  | .instructionLanding site u => Sys2Proof.Machine.execInstructionLanding site u s
  | .vadd site ins => Sys2Proof.Machine.execVadd site ins s
  | .vsub site ins => Sys2Proof.Machine.execVsub site ins s
  | .vmul site ins => Sys2Proof.Machine.execVmul site ins s
  | .vfma site ins => Sys2Proof.Machine.execVfma site ins s
  | .vfms site ins => Sys2Proof.Machine.execVfms site ins s
  | .vfnma site ins => Sys2Proof.Machine.execVfnma site ins s
  | .vmax site ins => Sys2Proof.Machine.execVmax site ins s
  | .vmin site ins => Sys2Proof.Machine.execVmin site ins s
  | .vabs site ins => Sys2Proof.Machine.execVabs site ins s
  | .vneg site ins => Sys2Proof.Machine.execVneg site ins s
  | .vcpsgn site ins => Sys2Proof.Machine.execVcpsgn site ins s
  | .vcmp site ins => Sys2Proof.Machine.execVcmp site ins s
  | .vsel site ins => Sys2Proof.Machine.execVsel site ins s
  | .viadd site ins => Sys2Proof.Machine.execViadd site ins s
  | .visub site ins => Sys2Proof.Machine.execVisub site ins s
  | .vimul site ins => Sys2Proof.Machine.execVimul site ins s
  | .vand site ins => Sys2Proof.Machine.execVand site ins s
  | .vor site ins => Sys2Proof.Machine.execVor site ins s
  | .vxor site ins => Sys2Proof.Machine.execVxor site ins s
  | .vnot site ins => Sys2Proof.Machine.execVnot site ins s
  | .vshl site ins => Sys2Proof.Machine.execVshl site ins s
  | .vshr site ins => Sys2Proof.Machine.execVshr site ins s
  | .vsra site ins => Sys2Proof.Machine.execVsra site ins s
  | .vimax site ins => Sys2Proof.Machine.execVimax site ins s
  | .vimin site ins => Sys2Proof.Machine.execVimin site ins s
  | .viota site ins => Sys2Proof.Machine.execViota site ins s
  | .vlane site ins => Sys2Proof.Machine.execVlane site ins s
  | .kand site ins => Sys2Proof.Machine.execKand site ins s
  | .kor site ins => Sys2Proof.Machine.execKor site ins s
  | .kxor site ins => Sys2Proof.Machine.execKxor site ins s
  | .knot site ins => Sys2Proof.Machine.execKnot site ins s
  | .vcvtw site ins => Sys2Proof.Machine.execVcvtw site ins s
  | .vcvtn site ins => Sys2Proof.Machine.execVcvtn site ins s
  | .vcvti site ins => Sys2Proof.Machine.execVcvti site ins s
  | .vcvtf site ins => Sys2Proof.Machine.execVcvtf site ins s
  | .vmxenc site ins => Sys2Proof.Machine.execVmxenc site ins s
  | .vrsum site ins => Sys2Proof.Machine.execVrsum site ins s
  | .vrmax site ins => Sys2Proof.Machine.execVrmax site ins s
  | .vrmin site ins => Sys2Proof.Machine.execVrmin site ins s
  | .vexp2 site ins => Sys2Proof.Machine.execVexp2 site ins s
  | .vlog2 site ins => Sys2Proof.Machine.execVlog2 site ins s
  | .vrcp site ins => Sys2Proof.Machine.execVrcp site ins s
  | .vrsqrt site ins => Sys2Proof.Machine.execVrsqrt site ins s
  | .vtanh site ins => Sys2Proof.Machine.execVtanh site ins s
  | .vsigm site ins => Sys2Proof.Machine.execVsigm site ins s
  | .vdiv site ins => Sys2Proof.Machine.execVdiv site ins s
  | .vsqrt site ins => Sys2Proof.Machine.execVsqrt site ins s
  | .vtr site ins => Sys2Proof.Machine.execVtr site ins s
  | .vrt site ins => Sys2Proof.Machine.execVrt site ins s
  | .vgather site ins => Sys2Proof.Machine.execVgather site ins s
  | .vscatter site ins => Sys2Proof.Machine.execVscatter site ins s
  | .vld site ins => Sys2Proof.Machine.execVld site ins s
  | .vst site ins => Sys2Proof.Machine.execVst site ins s
  | .tileLoad site ins => Sys2Proof.Machine.execTileLoad site ins s
  | .tileLoadScale site ins => Sys2Proof.Machine.execTileLoadScale site ins s
  | .transposedLoad site ins => Sys2Proof.Machine.execTransposedLoad site ins s
  | .accumulatorLoad site ins => Sys2Proof.Machine.execAccumulatorLoad site ins s
  | .tileStore site ins => Sys2Proof.Machine.execTileStore site ins s
  | .tileStoreScale site ins => Sys2Proof.Machine.execTileStoreScale site ins s
  | .accumulatorStore site ins => Sys2Proof.Machine.execAccumulatorStore site ins s
  | .moverCopy site ins => Sys2Proof.Machine.execMoverCopy site ins s
  | .prefetchHint site a n => Sys2Proof.Machine.execPrefetchHint site a n s
  | .dload site d off => Sys2Proof.Machine.execDload site d off s
  | .dstore site d off => Sys2Proof.Machine.execDstore site d off s
  | .dcount site d k off => Sys2Proof.Machine.execDcount site d k off s
  | .dset site d f x => Sys2Proof.Machine.execDset site d f x s
  | .scalarArithmetic site op d a b => Sys2Proof.Machine.execScalarArithmetic site op d a b s
  | .branch site c a b target => Sys2Proof.Machine.execBranch site c a b target s
  | .syncBranch site e c target => Sys2Proof.Machine.execSyncBranch site e c target s
  | .loopIterationIssue site e => Sys2Proof.Machine.execLoopIterationIssue site e s
  | .syncFill site e c => Sys2Proof.Machine.execSyncFill site e c s
  | .drain site e c => Sys2Proof.Machine.execDrain site e c s
  | .add site e c n => Sys2Proof.Machine.execAdd site e c n s
  | .dec site e c n => Sys2Proof.Machine.execDec site e c n s
  | .waitf site e c => Sys2Proof.Machine.execWaitf site e c s
  | .waite site e c => Sys2Proof.Machine.execWaite site e c s
  | .waitge site e c n => Sys2Proof.Machine.execWaitge site e c n s
  | .waitgeTake site e c n => Sys2Proof.Machine.execWaitgeTake site e c n s
  | .sread site x c => Sys2Proof.Machine.execSread site x c s
  | .barrive site e c => Sys2Proof.Machine.execBarrive site e c s
  | .bwait site e c k => Sys2Proof.Machine.execBwait site e c k s
  | .sig site e m l c op => Sys2Proof.Machine.execSig site e m l c op s
  | .sigMc site e g op => Sys2Proof.Machine.execSigMc site e g op s
  | .fence site e w sg a => Sys2Proof.Machine.execFence site e w sg a s
  | .endStream site e => Sys2Proof.Machine.execEndStream site e s
  | .engineIssueResume site e => Sys2Proof.Machine.execEngineIssueResume site e s
  | .instructionFetchReturn site e n => Sys2Proof.Machine.execInstructionFetchReturn site e n s
  | .globalRowArrival site seq row => Sys2Proof.Machine.execGlobalRowArrival site seq row s
  | .moverAsyncLanding site seq => Sys2Proof.Machine.execMoverAsyncLanding site seq s
  | .translationWalkComplete site seq barge => Sys2Proof.Machine.execTranslationWalkComplete site seq barge s
  | .xltResolveTimeout w => Sys2Proof.Machine.execXltResolveTimeout w s
  | .prefetchIssue site k => Sys2Proof.Machine.execPrefetchIssue site k s
  | .prefetchArrival p => Sys2Proof.Machine.execPrefetchArrival p s
  | .spireStart site => Sys2Proof.Machine.execSpireStart site s
  | .spireFinished site => Sys2Proof.Machine.execSpireFinished site s
  | .taskCompletion handle => Sys2Proof.Machine.execTaskCompletion handle s
  | .taskWatchdogExpiry handle => Sys2Proof.Machine.execTaskWatchdogExpiry handle s
  | .gapThresholdReached site c => Sys2Proof.Machine.execGapThresholdReached site c s
  | .dutyDecrement site c => Sys2Proof.Machine.execDutyDecrement site c s
  | .dutyIncrement site c => Sys2Proof.Machine.execDutyIncrement site c s
  | .sparseIntervalEnd site c => Sys2Proof.Machine.execSparseIntervalEnd site c s
  | .gapThreshWrite site v => Sys2Proof.Machine.execGapThreshWrite site v s
  | .rsdInjectArm site v => Sys2Proof.Machine.execRsdInjectArm site v s
  | .rngSeedWrite site v => Sys2Proof.Machine.execRngSeedWrite site v s
  | .syncCellWrite site c v => Sys2Proof.Machine.execSyncCellWrite site c v s
  | .holdLimWrite site v => Sys2Proof.Machine.execHoldLimWrite site v s
  | .syncHoldLimitReached site c eng => Sys2Proof.Machine.execSyncHoldLimitReached site c eng s
  | .remoteSignalArrival site p => Sys2Proof.Machine.execRemoteSignalArrival site p s
  | .barrierArrival site p => Sys2Proof.Machine.execBarrierArrival site p s
  | .barrierRelease site p => Sys2Proof.Machine.execBarrierRelease site p s
  | .rd p => Sys2Proof.Machine.execRd p s
  | .rdData p => Sys2Proof.Machine.execRdData p s
  | .wr p => Sys2Proof.Machine.execWr p s
  | .wrAck p => Sys2Proof.Machine.execWrAck p s
  | .canalSig p => Sys2Proof.Machine.execCanalSig p s
  | .canalSigAck p => Sys2Proof.Machine.execCanalSigAck p s
  | .mc site w => Sys2Proof.Machine.execMc site w s
  | .mcAck w => Sys2Proof.Machine.execMcAck w s
  | .mcBranchTimeout site port => Sys2Proof.Machine.execMcBranchTimeout site port s
  | .cfg p => Sys2Proof.Machine.execCfg p s
  | .cfgRsp p => Sys2Proof.Machine.execCfgRsp p s
  | .packetForward site out w => Sys2Proof.Machine.execPacketForward site out w s
  | .creditReturn site port tc => Sys2Proof.Machine.execCreditReturn site port tc s
  | .aqueductFlitReceive dir ch r => Sys2Proof.Machine.execAqueductFlitReceive dir ch r s
  | .frameReceive n f => Sys2Proof.Machine.execFrameReceive n f s
  | .linkRetryLimit n => Sys2Proof.Machine.execLinkRetryLimit n s
  | .linkEnableWrite n on => Sys2Proof.Machine.execLinkEnableWrite n on s
  | .linkRetrainRequest n => Sys2Proof.Machine.execLinkRetrainRequest n s
  | .linkTrainingComplete n => Sys2Proof.Machine.execLinkTrainingComplete n s
  | .linkAlignComplete n => Sys2Proof.Machine.execLinkAlignComplete n s
  | .linkTrainTimeout n => Sys2Proof.Machine.execLinkTrainTimeout n s
  | .linkAlignTimeout n => Sys2Proof.Machine.execLinkAlignTimeout n s
  | .linkIdentTimeout n => Sys2Proof.Machine.execLinkIdentTimeout n s
  | .linkRetrainTimeout n => Sys2Proof.Machine.execLinkRetrainTimeout n s
  | .ident n p => Sys2Proof.Machine.execIdent n p s
  | .linkSig n p => Sys2Proof.Machine.execLinkSig n p s
  | .linkSigAck n p => Sys2Proof.Machine.execLinkSigAck n p s
  | .hcp n p => Sys2Proof.Machine.execHcp n p s
  | .hcpReply n p => Sys2Proof.Machine.execHcpReply n p s
  | .streamOpen n p => Sys2Proof.Machine.execStreamOpen n p s
  | .streamLanded n ctx => Sys2Proof.Machine.execStreamLanded n ctx s
  | .streamAck n p => Sys2Proof.Machine.execStreamAck n p s
  | .timePacket n p => Sys2Proof.Machine.execTimePacket n p s
  | .timeExchangeTick => Sys2Proof.Machine.execTimeExchangeTick s
  | .timebaseExchangeTimeout => Sys2Proof.Machine.execTimebaseExchangeTimeout s
  | .phaseBoundary graph node => Sys2Proof.Machine.execPhaseBoundary graph node s
  | .phaseShadowLoaded => Sys2Proof.Machine.execPhaseShadowLoaded s
  | .phase n p => Sys2Proof.Machine.execPhase n p s
  | .phaseHoldLimit => Sys2Proof.Machine.execPhaseHoldLimit s
  | .bankSwap => Sys2Proof.Machine.execBankSwap s
  | .stop n p => Sys2Proof.Machine.execStop n p s
  | .stopTimeout => Sys2Proof.Machine.execStopTimeout s
  | .mirrorChunkCopy c => Sys2Proof.Machine.execMirrorChunkCopy c s
  | .mirrorEpochComplete => Sys2Proof.Machine.execMirrorEpochComplete s
  | .mirrorCommit n p => Sys2Proof.Machine.execMirrorCommit n p s
  | .mirrorAck n p => Sys2Proof.Machine.execMirrorAck n p s
  | .collectiveStart q => Sys2Proof.Machine.execCollectiveStart q s
  | .readyPoll q => Sys2Proof.Machine.execReadyPoll q s
  | .bucketStart q => Sys2Proof.Machine.execBucketStart q s
  | .coalesceTimeout q => Sys2Proof.Machine.execCoalesceTimeout q s
  | .congestionWindow q => Sys2Proof.Machine.execCongestionWindow q s
  | .collectivePieceArrival q m => Sys2Proof.Machine.execCollectivePieceArrival q m s
  | .tokenCountArrival q m => Sys2Proof.Machine.execTokenCountArrival q m s
  | .tokenPlacement q => Sys2Proof.Machine.execTokenPlacement q s
  | .tokenReplyArrival q m => Sys2Proof.Machine.execTokenReplyArrival q m s
  | .tokenPayloadStart q => Sys2Proof.Machine.execTokenPayloadStart q s
  | .tokenPadding q e => Sys2Proof.Machine.execTokenPadding q e s
  | .collectiveCompletion q => Sys2Proof.Machine.execCollectiveCompletion q s
  | .collectiveStall q => Sys2Proof.Machine.execCollectiveStall q s
  | .stageReadyPoll q => Sys2Proof.Machine.execStageReadyPoll q s
  | .stageSlotArrival q => Sys2Proof.Machine.execStageSlotArrival q s
  | .stageFreePoll q => Sys2Proof.Machine.execStageFreePoll q s
  | .stageCreditArrival q => Sys2Proof.Machine.execStageCreditArrival q s
  | .predicateEvaluation g k => Sys2Proof.Machine.execPredicateEvaluation g k s
  | .epochCommitInstant k => Sys2Proof.Machine.execEpochCommitInstant k s
  | .epochDrainComplete k => Sys2Proof.Machine.execEpochDrainComplete k s
  | .epochStallLimit k => Sys2Proof.Machine.execEpochStallLimit k s
  | .specCtlWrite v => Sys2Proof.Machine.execSpecCtlWrite v s
  | .towerReadComplete t ch c source r => Sys2Proof.Machine.execTowerReadComplete t ch c source r s
  | .towerRefresh t ch bank managed => Sys2Proof.Machine.execTowerRefresh t ch bank managed s
  | .scrubPositionDue t flips => Sys2Proof.Machine.execScrubPositionDue t flips s
  | .ceWindowStart t => Sys2Proof.Machine.execCeWindowStart t s
  | .towerTemperatureRead t temp => Sys2Proof.Machine.execTowerTemperatureRead t temp s
  | .channelHang t ch addr => Sys2Proof.Machine.execChannelHang t ch addr s
  | .towerLogLowRead t n => Sys2Proof.Machine.execTowerLogLowRead t n s
  | .marginTestStart t v => Sys2Proof.Machine.execMarginTestStart t v s
  | .marginTestDone t errors => Sys2Proof.Machine.execMarginTestDone t errors s
  | .farReadCompletion k poison => Sys2Proof.Machine.execFarReadCompletion k poison s
  | .farRequestTimeout => Sys2Proof.Machine.execFarRequestTimeout s
  | .farLinkLoss => Sys2Proof.Machine.execFarLinkLoss s
  | .bar2Read o n => Sys2Proof.Machine.execBar2Read o n s
  | .bar2Write o bs => Sys2Proof.Machine.execBar2Write o bs s
  | .cxlMemAccess a n wr => Sys2Proof.Machine.execCxlMemAccess a n wr s
  | .registerWrite off v => Sys2Proof.Machine.execRegisterWrite off v s
  | .sqTailDoorbell q v => Sys2Proof.Machine.execSqTailDoorbell q v s
  | .cqHeadDoorbell q v => Sys2Proof.Machine.execCqHeadDoorbell q v s
  | .sqEnable q => Sys2Proof.Machine.execSqEnable q s
  | .sqDisable q => Sys2Proof.Machine.execSqDisable q s
  | .cqEnable q => Sys2Proof.Machine.execCqEnable q s
  | .cqDisable q => Sys2Proof.Machine.execCqDisable q s
  | .packetFetch q pkt => Sys2Proof.Machine.execPacketFetch q pkt s
  | .delayedCommandStart => Sys2Proof.Machine.execDelayedCommandStart s
  | .waitLimitExpiry id => Sys2Proof.Machine.execWaitLimitExpiry id s
  | .msixCoalesceTimeout q => Sys2Proof.Machine.execMsixCoalesceTimeout q s
  | .functionLevelReset => Sys2Proof.Machine.execFunctionLevelReset s
  | .h0PerstNAssertion => Sys2Proof.Machine.execH0PerstNAssertion s
  | .nop id => Sys2Proof.Machine.execNop id s
  | .identify id => Sys2Proof.Machine.execIdentify id s
  | .regRead id => Sys2Proof.Machine.execRegRead id s
  | .regWrite id => Sys2Proof.Machine.execRegWrite id s
  | .timeRead id => Sys2Proof.Machine.execTimeRead id s
  | .copy id => Sys2Proof.Machine.execCopy id s
  | .fill id => Sys2Proof.Machine.execFill id s
  | .xltInvalidate id => Sys2Proof.Machine.execXltInvalidate id s
  | .pageResolve id => Sys2Proof.Machine.execPageResolve id s
  | .pageMigrate id => Sys2Proof.Machine.execPageMigrate id s
  | .interleave id => Sys2Proof.Machine.execInterleave id s
  | .retire id => Sys2Proof.Machine.execRetire id s
  | .retireClear id => Sys2Proof.Machine.execRetireClear id s
  | .programLoad id => Sys2Proof.Machine.execProgramLoad id s
  | .programUnload id => Sys2Proof.Machine.execProgramUnload id s
  | .launch id => Sys2Proof.Machine.execLaunch id s
  | .graphSubmit id => Sys2Proof.Machine.execGraphSubmit id s
  | .pause id => Sys2Proof.Machine.execPause id s
  | .resume id => Sys2Proof.Machine.execResume id s
  | .abort id => Sys2Proof.Machine.execAbort id s
  | .epochOpen id => Sys2Proof.Machine.execEpochOpen id s
  | .epochCommit id => Sys2Proof.Machine.execEpochCommit id s
  | .epochDiscard id => Sys2Proof.Machine.execEpochDiscard id s
  | .taskQuery id => Sys2Proof.Machine.execTaskQuery id s
  | .podConfig id => Sys2Proof.Machine.execPodConfig id s
  | .jobStart id r => Sys2Proof.Machine.execJobStart id r s
  | .jobEnd id => Sys2Proof.Machine.execJobEnd id s
  | .jobStop id => Sys2Proof.Machine.execJobStop id s
  | .pair id r => Sys2Proof.Machine.execPair id r s
  | .syncGroupsLoad id => Sys2Proof.Machine.execSyncGroupsLoad id s
  | .canalGroupsLoad id => Sys2Proof.Machine.execCanalGroupsLoad id s
  | .stageqLoad id bad => Sys2Proof.Machine.execStageqLoad id bad s
  | .phaseListLoad id => Sys2Proof.Machine.execPhaseListLoad id s
  | .collective id => Sys2Proof.Machine.execCollective id s
  | .stepEnd id => Sys2Proof.Machine.execStepEnd id s
  | .mirrorClose id => Sys2Proof.Machine.execMirrorClose id s
  | .substitute id => Sys2Proof.Machine.execSubstitute id s
  | .basinInfo id => Sys2Proof.Machine.execBasinInfo id s
  | .ckptWrite id => Sys2Proof.Machine.execCkptWrite id s
  | .ckptCaptureChunk => Sys2Proof.Machine.execCkptCaptureChunk s
  | .ckptCaptureComplete => Sys2Proof.Machine.execCkptCaptureComplete s
  | .ckptList id => Sys2Proof.Machine.execCkptList id s
  | .ckptRestore id bad r => Sys2Proof.Machine.execCkptRestore id bad r s
  | .ckptDelete id => Sys2Proof.Machine.execCkptDelete id s
  | .errRead id => Sys2Proof.Machine.execErrRead id s
  | .spireFence id => Sys2Proof.Machine.execSpireFence id s
  | .funcReinit id => Sys2Proof.Machine.execFuncReinit id s
  | .reinitLimitExpiry kind index => Sys2Proof.Machine.execReinitLimitExpiry kind index s
  | .warmReset id => Sys2Proof.Machine.execWarmReset id s
  | .warmResetComplete ins => Sys2Proof.Machine.execWarmResetComplete ins s
  | .warmResetTimeout => Sys2Proof.Machine.execWarmResetTimeout s
  | .powerCycle id => Sys2Proof.Machine.execPowerCycle id s
  | .powerRemoval => Sys2Proof.Machine.execPowerRemoval s
  | .powerRestore => Sys2Proof.Machine.execPowerRestore s
  | .rollback id bad r spec => Sys2Proof.Machine.execRollback id bad r spec s
  | .powerState id => Sys2Proof.Machine.execPowerState id s
  | .powerCap id => Sys2Proof.Machine.execPowerCap id s
  | .clockLimit id => Sys2Proof.Machine.execClockLimit id s
  | .telemetry id => Sys2Proof.Machine.execTelemetry id s
  | .secStatus id => Sys2Proof.Machine.execSecStatus id s
  | .debugChallenge id => Sys2Proof.Machine.execDebugChallenge id s
  | .debugUnlock id => Sys2Proof.Machine.execDebugUnlock id s
  | .manufService id => Sys2Proof.Machine.execManufService id s
  | .nonceExpiry => Sys2Proof.Machine.execNonceExpiry s
  | .journalQuery id => Sys2Proof.Machine.execJournalQuery id s
  | .journalMark id => Sys2Proof.Machine.execJournalMark id s
  | .testMode id => Sys2Proof.Machine.execTestMode id s
  | .selfTest id bad => Sys2Proof.Machine.execSelfTest id bad s
  | .counterSnapshot id => Sys2Proof.Machine.execCounterSnapshot id s
  | .mailboxSend agent c tag ptr => Sys2Proof.Machine.execMailboxSend agent c tag ptr s
  | .mailboxReceive agent c => Sys2Proof.Machine.execMailboxReceive agent c s
  | .partnerMessageLanded c => Sys2Proof.Machine.execPartnerMessageLanded c s
  | .partnerCountReturned c => Sys2Proof.Machine.execPartnerCountReturned c s
  | .journalPersist => Sys2Proof.Machine.execJournalPersist s
  | .journalPersistComplete ok => Sys2Proof.Machine.execJournalPersistComplete ok s
  | .patrolRead k weak => Sys2Proof.Machine.execPatrolRead k weak s
  | .retentionRefresh k dst => Sys2Proof.Machine.execRetentionRefresh k dst s
  | .readDisturbRelocate k dst => Sys2Proof.Machine.execReadDisturbRelocate k dst s
  | .staticLevelling n dst => Sys2Proof.Machine.execStaticLevelling n dst s
  | .basinCodewordRead k who r => Sys2Proof.Machine.execBasinCodewordRead k who r s
  | .nandProgramFailure k dst journal => Sys2Proof.Machine.execNandProgramFailure k dst journal s
  | .nandEraseFailure k => Sys2Proof.Machine.execNandEraseFailure k s
  | .basinControllerTimeout => Sys2Proof.Machine.execBasinControllerTimeout s
  | .sanitize => Sys2Proof.Machine.execSanitize s
  | .inputLoss => Sys2Proof.Machine.execInputLoss s
  | .lossPersistDone ok => Sys2Proof.Machine.execLossPersistDone ok s
  | .powerUp straps => Sys2Proof.Machine.execPowerUp straps s
  | .railFault n => Sys2Proof.Machine.execRailFault n s
  | .powerSample dv ma mw rails => Sys2Proof.Machine.execPowerSample dv ma mw rails s
  | .powerCapTick step hot => Sys2Proof.Machine.execPowerCapTick step hot s
  | .capWindowEnd => Sys2Proof.Machine.execCapWindowEnd s
  | .spireClockStep d pause => Sys2Proof.Machine.execSpireClockStep d pause s
  | .clockUserLimitWrite d v => Sys2Proof.Machine.execClockUserLimitWrite d v s
  | .thermalTick readings => Sys2Proof.Machine.execThermalTick readings s
  | .thermalRecovery => Sys2Proof.Machine.execThermalRecovery s
  | .quiescentWake => Sys2Proof.Machine.execQuiescentWake s
  | .sidebandHeartbeatLoss => Sys2Proof.Machine.execSidebandHeartbeatLoss s
  | .sidebandHeartbeat => Sys2Proof.Machine.execSidebandHeartbeat s
  | .fwWatchdog core => Sys2Proof.Machine.execFwWatchdog core s
  | .bootStageComplete ins => Sys2Proof.Machine.execBootStageComplete ins s
  | .bootTimeout => Sys2Proof.Machine.execBootTimeout s
  | .commitLk => Sys2Proof.Machine.execCommitLk s
  | .commitLt => Sys2Proof.Machine.execCommitLt s
  | .commitCfg => Sys2Proof.Machine.execCommitCfg s
  | .spdmRequest responder r => Sys2Proof.Machine.execSpdmRequest responder r s
  | .ideKm k => Sys2Proof.Machine.execIdeKm k s
  | .ideIntegrityFailure => Sys2Proof.Machine.execIdeIntegrityFailure s
  | .requestUpdate comp size => Sys2Proof.Machine.execRequestUpdate comp size s
  | .requestFirmwareData off bs => Sys2Proof.Machine.execRequestFirmwareData off bs s
  | .transferComplete => Sys2Proof.Machine.execTransferComplete s
  | .activateFirmware => Sys2Proof.Machine.execActivateFirmware s
  | .sensorRead id => Sys2Proof.Machine.execSensorRead id s
  | .powerEffecterOn => Sys2Proof.Machine.execPowerEffecterOn s
  | .powerEffecterOff => Sys2Proof.Machine.execPowerEffecterOff s
  | .powerEffecterCycle => Sys2Proof.Machine.execPowerEffecterCycle s
  | .capEffecter w => Sys2Proof.Machine.execCapEffecter w s
  | .releaseOutOfService => Sys2Proof.Machine.execReleaseOutOfService s
  | .podConfigurationRecord podId topo x y z => Sys2Proof.Machine.execPodConfigurationRecord podId topo x y z s
  | .scanEnWrite on => Sys2Proof.Machine.execScanEnWrite on s
  | .scanInstructionUpdate op => Sys2Proof.Machine.execScanInstructionUpdate op s
  | .trstNAssertion => Sys2Proof.Machine.execTrstNAssertion s
  | .pprStart v => Sys2Proof.Machine.execPprStart v s
  | .linkPrbsCheck n v => Sys2Proof.Machine.execLinkPrbsCheck n v s
  | .h1MarginCommand v => Sys2Proof.Machine.execH1MarginCommand v s
  | .h0DwellEnd => Sys2Proof.Machine.execH0DwellEnd s
  | .eyeMeasurement n lane v => Sys2Proof.Machine.execEyeMeasurement n lane v s
  | .reinitComplete kind index ok => Sys2Proof.Machine.execReinitComplete kind index ok s
  | .queueDmaError q => Sys2Proof.Machine.execQueueDmaError q s
  | .frameSend n => Sys2Proof.Machine.execFrameSend n s
  | .pairConfirmTimeout id => Sys2Proof.Machine.execPairConfirmTimeout id s
  | .standbyExitTimeout => Sys2Proof.Machine.execStandbyExitTimeout s
  | .clampSenseClosed => Sys2Proof.Machine.execClampSenseClosed s
  | .vectorHoldRamp w => Sys2Proof.Machine.execVectorHoldRamp w s
  | .lockkeeperSupplyLoss => Sys2Proof.Machine.execLockkeeperSupplyLoss s
  | .h0LinkTrained width rate log2 => Sys2Proof.Machine.execH0LinkTrained width rate log2 s
  | .pprDone repaired spares => Sys2Proof.Machine.execPprDone repaired spares s
  | .linkPrbsCheckDone n errors => Sys2Proof.Machine.execLinkPrbsCheckDone n errors s
  | .h1MarginResponse r => Sys2Proof.Machine.execH1MarginResponse r s
  | .sanitizeComplete => Sys2Proof.Machine.execSanitizeComplete s
  | .svnProgrammingComplete typ => Sys2Proof.Machine.execSvnProgrammingComplete typ s

end Sys2Proof.Machine
end

