-- ==== Sys2Proof/Safety.lean ====
section
/-!
DEFINITION. What a safe state is, and the terms of the statements: the canonical form of registers and memory, when an engine stands at its issue cycle, what an instruction that issues leaves.
-/
namespace Sys2Proof.Machine

/-- The canonical form: registers and bytes are listed at rising offsets and addresses, and nothing listed reads as an unlisted one does. -/
def Canonical (r : Table Word) (m : Memory) : Prop := twf regReset r ∧ Memory.wf m

/-- The registers and the memory of a state are in canonical form (R7 to R11, R193). -/
abbrev InForm (s : State) : Prop := Canonical s.regs s.mem

/-! Issue. -/

/-- The spire runs its task, the engine may take its next instruction (for the mover with its requests made and a barge slot free), and the spire stands at the engine's issue cycle with nothing due before it;
hazard-check mode is off (R75, R92). -/
abbrev AtIssue (s : State) (site : Nat) (e : Engine) : Prop :=
  s.takes site e = true ∧ s.runTo site ((s.spire site).issueAt e) = s ∧ s.hazEn site = false

/-- The attached signal has a form its engine takes, and its cell is PLAIN (R85, R216). -/
abbrev SignalOk (s : State) (site : Nat) (e : Engine) (g : Option AttSig) : Prop := sigForm e g = true ∧ s.sigOk site g = true

/-- The cell update of a signal that is due in cycle `t` (R85). -/
def sigUpds (t n q : Nat) (g : Option AttSig) : List CellUpd :=
  match g with
  | some a => [{ due := t, cell := a.cell, op := sigOp a, eng := n, qpos := q, remote := false, omod := 0, ospire := 0 }]
  | none => []

/-- The landing of an instruction of fixed latency that issues now (R77, R109), with the residue check that a corruption armed for its engine meets (R73). -/
def landingOf (s : State) (site : Nat) (e : Engine) (g : Option AttSig) (x : Effect) : Landing :=
  let p := s.spire site
  { due := p.issueAt e + x.lat, seq := p.seq, eng := engNo e, qpos := (p.eng e).qpos, writes := x.writes, sig := landSig g, flags := x.flags, ac := 0, ctxs := 0, mov := none, haz := false,
    trap := s.fld (R.SPR_CTL site) F.SPR_CTL_HAZ_TRAP == 1, rsd := x.check (residueChoice site p.seq) }

/-- A spire after an instruction of fixed latency has issued (R75, R77, R85): one landing at issue plus latency with its writes, flags and landing signal, and its release signal in the issue cycle, with the
landing signal too where nothing lands; the engine issues again after the occupancy. -/
def issuedSpire (s : State) (site : Nat) (e : Engine) (g : Option AttSig) (x : Effect) : Spire :=
  let p := s.spire site
  let t := p.issueAt e
  let y := p.eng e
  let p' : Spire := { p with
    seq := p.seq + 1,
    landings := p.landings ++ (if x.lat = 0 then [] else [landingOf s site e g x]),
    upds := p.upds ++ (if x.lat = 0 then sigUpds t (engNo e) y.qpos (landSig g) else []) ++ sigUpds t (engNo e) y.qpos (relSig g),
    matNext := if e = .matrix then t + x.occ else p.matNext }
  p'.setEng e { y with free := t + x.occ, qpos := y.qpos + 1, pc := y.pc + 1, queue := y.queue - 1 }

/-- A vector instruction has issued: its spire, and the count of vector instructions (R213); nothing else. -/
def vecIssued (s : State) (site : Nat) (g : Option AttSig) (x : Effect) : State :=
  (s.setSpire site (issuedSpire s site .vector g x)).bump (R.SPR_VEC_ISSUE site)

/-- A lane-wise vector instruction has issued: element `x` of the result is `g x`, under the instruction's mask (R200), with the residue check of its point and format (R68, R212). -/
def laneIssued (s : State) (site : Nat) (i : VIns) (occ lat n w : Nat) (srcs : List Nat) (g : Nat → Nat × Nat) (point : Nat := 2) (fmt : Fmt := fmtFp32) : State :=
  vecIssued s site i.sig (vecEffect occ lat i.d ((s.spire site).mask i.k) n w srcs true g point fmt)

/-! Array and mover. -/

/-- An instruction that runs once: no descriptor, or one whose LEVELS is 0 and whose fields are legal (R176, R179, R180). -/
abbrev runsOnce (s : State) (site : Nat) (body : LoopBody) : Option Nat → Prop
  | none => True
  | some k => k < 32 ∧ dLevels ((s.spire site).desc k) = 0 ∧ s.descFault site ((s.spire site).desc k) (s.bodySlots site ((s.spire site).desc k) body) = none

/-- The array may take the instruction, the spire stands at its issue cycle (R132) with nothing due before it; hazard-check mode is off. -/
abbrev AtArray (s : State) (site : Nat) (i : ArrIns) : Prop :=
  s.takes site .matrix = true ∧ s.runTo site ((s.spire site).arrAt i) = s ∧ s.hazEn site = false

/-- The zero blocks of an array instruction, as both detectors have them (R157 to R159). -/
def judgedBlocks (s : State) (site : Nat) (f : AForm) (i : ArrIns) (cls : TagClass) : List Judged := (List.range (blocksOf f (depthOf cls))).map (fun q => s.pairedJudge site f i (depthOf cls) q)

/-- Output element (r, j) of an array instruction with its flags (R49 to R53, R80, R159, R160): the products enter 0, or the accumulator element as what is in flight on it will have left it. -/
def arrOut (s : State) (site : Nat) (f : AForm) (i : ArrIns) (cls : TagClass) (r j : Nat) : Nat × Nat :=
  s.arrElem site f i cls (judgedBlocks s site f i cls) (s.fld (R.SPR_SKIP_CTL site) F.SPR_SKIP_CTL_BAND_GATE == 1) (s.fld (R.SPR_SKIP_CTL site) F.SPR_SKIP_CTL_SKIP_EN == 1)
    (if i.accumulate then elemAt ((s.spire site).chainedRow i.ac i.ctxs r).toNat 32 j else 0) r j

/-- The occupancy of an array instruction: the minimum, less half of each skipped block's cycles (R86, R159). -/
def arrOccupancy (s : State) (site : Nat) (f : AForm) (i : ArrIns) (cls : TagClass) : Nat :=
  let n := blocksOf f (depthOf cls)
  let z := if s.fld (R.SPR_SKIP_CTL site) F.SPR_SKIP_CTL_SKIP_EN == 1 then ((judgedBlocks s site f i cls).filter Judged.skippable).length else 0
  minOcc f cls - z * (if n = 0 then 0 else minOcc f cls / n) / 2

/-- A mover operation has issued in the cycle the spire stands at (R119, R122 to R124): it starts in its order of issue, a global one makes the requests that are due, and its occupancy passes before the next. -/
def moved (s : State) (site : Nat) (m : MovOp) : State :=
  let t := (s.spire site).issueAt .mover
  let u := (s.nextSeq site).2.startMov site (s.spire site).seq m t
  (if m.global then u.pump site else u).issued site .mover t m.occ

/-- A spire after a local mover form has issued (R119, R124): its row reads, its landing with the rows of a load, the mover's next issue. -/
def movedSpire (s : State) (site : Nat) (m : MovOp) : Spire :=
  let p := s.spire site
  let t := p.issueAt .mover
  let at_ := fun (x : Nat × Nat × Nat) => s.load (lsBase site + x.2.1) x.2.2
  { p with
    seq := p.seq + 1,
    reads := p.reads ++ m.rowReads p.seq t,
    landings := p.landings ++ [{ due := t + m.lat, seq := p.seq, eng := 3, qpos := m.qpos, sig := m.sig, flags := 0, ac := 0, ctxs := 0, mov := some m, iter := m.iter, haz := m.haz, trap := m.trap,
                                 writes := if m.isStore then [] else m.loadWrites ((m.spans.take m.rows).map at_) ((m.spans.drop m.rows).map at_) }],
    mov := { p.mov with free := t + m.occ, qpos := p.mov.qpos + 1, pc := p.mov.pc + 1, queue := p.mov.queue - 1 } }

/-! Sync operations. -/

/-- A sync operation, branch or wait issued at the engine's issue cycle with an occupancy (R86); on the vector engine it is counted (R213). -/
def syncDone (s : State) (site : Nat) (e : Engine) (t n : Nat) : State :=
  if e = .vector then (s.issued site e t n).bump (R.SPR_VEC_ISSUE site) else s.issued site e t n

/-! A spire with nothing under way. -/

/-- In a spire nothing but cell updates is under way, and none of its engines is held: no landing, row read or mover operation is to come, and barge slots are free. -/
abbrev Still (p : Spire) : Prop :=
  p.landings = [] ∧ p.reads = [] ∧ p.mover.ops = [] ∧ p.mover.redo = [] ∧ p.mover.hints = [] ∧ p.mover.fullSince = none ∧ p.mover.pre.length < 40 ∧ ∀ e, (p.eng e).st ≠ .wait

/-- Nothing is under way in a spire. -/
abbrev Quiet (p : Spire) : Prop := Still p ∧ p.upds = []

/-! The canals. -/

/-- A packet of type `t` (R321) has arrived where it was sent and waits there, the oldest of its flow (R329). -/
abbrev Arrived (s : State) (p : CPkt) (t : Nat) : Prop := s.inTurn p = true ∧ p.typ = t

/-- A request of type `t` is the next that is served where it waits: none of its flow is older there or waits as a held write, and at a slice its requester has the turn (R248, R250, R270). -/
abbrev Served (s : State) (p : CPkt) (t : Nat) : Prop := s.mayServe p = true ∧ p.typ = t ∧ (p.dkind = 1 → s.slicePick p.dest = some p)

/-! Lantern commands. -/

/-- Command `c` is admitted under `id` and may start now: of this opcode, with a slot, not started, no earlier one of its queue waits for its first entry, none comes before it in class order, and ORDERED is satisfied (R470, R477, R479). -/
abbrev Starts (s : State) (id op : Nat) (c : Cmd) : Prop :=
  s.cmd? id = some c ∧ c.opcode = op ∧ c.started = false ∧ c.slot ≠ 0 ∧ s.notYet c = false ∧ s.outranked c = false ∧ (c.ordered && s.behind c) = false

/-- Completion queue `q` is enabled with room, and nothing waits for it: an entry is written at once (R467, R468). -/
abbrev Takes (s : State) (q : Nat) : Prop := s.cqOn q = true ∧ (s.queue q).hold = [] ∧ (s.queue q).waiting = [] ∧ s.cqFull q = false

end Sys2Proof.Machine
end

