-- ==== Sys2Proof/Certificates/Slice0/Obligations.lean ====
section
/-!
DEFINITION. The statements for the provers. A statement names the rows it is about; `exec` answers the state after a row's own effect.
-/
open Sys2Proof Sys2Proof.Machine

/-- A step on a state whose queue begins with a command is exec of that command on the state with the rest of the queue. (spec/00_scope.md) -/
def Obligations.StepRunsFront : Prop :=
  ∀ (c : Instr) (r : List Instr) (s : State), step { s with pending := c :: r } = exec c { s with pending := r }

/-- The model's choice (log entry 1): a step on an empty queue moves the device time base on by 1 ns and changes nothing else, and no register and no byte reads differently. (spec/00_scope.md) -/
def Obligations.IdleStep : Prop :=
  ∀ s : State, s.pending = [] → ∃ t, step s = .next t ∧ t.now = s.now + 1 ∧ { t with now := s.now } = s

/-- From every state whose register table and memory are in canonical form, a step that answers a next state leaves them in canonical form, whatever command it carries out. (R7, R193, R241) -/
def Obligations.StepKeepsForm : Prop :=
  ∀ s t : State, InForm s → step s = .next t → InForm t

/-- For each of the commands: on a state in canonical form its next state has the same queue, and is in canonical form; a step that carries it out therefore leaves the rest of the queue, in order. (spec/00_scope.md) -/
def Obligations.CommandsLeaveQueue : Prop :=
  ∀ (c : Instr) (s t : State), InForm s → exec c s = .next t → t.pending = s.pending ∧ InForm t

/-- Reset is in canonical form, its queue is empty, every register but SEC_STATE reads its reset value, SEC_STATE reads SECURE_BOOT alone, and every byte of memory reads 0. (R10, R626) -/
def Obligations.ResetForm : Prop :=
  InForm State.reset ∧ State.reset.pending = [] ∧ (∀ off, off ≠ R.SEC_STATE → State.reset.reg off = regReset off) ∧ State.reset.reg R.SEC_STATE = 1#64 ∧
    ∀ a, Memory.readByte State.reset.mem a = 0#8

/-- In a state in canonical form: after storing a word in a register, that register holds it and every other register is as before; a written field of up to 64 bits reads back modulo its width, and a field above or below it is as before. (R7, R10) -/
def Obligations.RegisterReadAfterWrite : Prop :=
  (∀ (s : State) (o x : Nat) (v : Word), InForm s → (s.setReg o v).reg x = if x = o then v else s.reg x) ∧
  (∀ (v : Word) (f : Fld) (x : Nat), f.lo ≤ f.hi → f.hi < 64 → fget (fset v f x) f = x % 2 ^ (f.hi + 1 - f.lo)) ∧
  (∀ (v : Word) (f g : Fld) (x : Nat), f.lo ≤ f.hi → f.hi < 64 → f.hi < g.lo → fget (fset v f x) g = fget v g) ∧
  (∀ (v : Word) (f g : Fld) (x : Nat), f.lo ≤ f.hi → f.hi < 64 → g.lo ≤ g.hi → g.hi < f.lo → fget (fset v f x) g = fget v g)

/-- In canonical form: after storing bytes from an address, each of those addresses reads its byte, every other address reads as before, and the form is kept. (R193, R241) -/
def Obligations.MemoryReadAfterWrite : Prop :=
  ∀ (m : Memory) (a : Nat) (bs : List Byte), Memory.wf m → Memory.wf (Memory.writeBytes m a bs) ∧
    ∀ x, Memory.readByte (Memory.writeBytes m a bs) x = if a ≤ x ∧ x < a + bs.length then bs.getD (x - a) 0#8 else Memory.readByte m x

/-- At their issue cycle, with registers in range, a well-formed signal and a floating-point format, VADD, VSUB, VMUL, VFMA, VFMS and VFNMA issue in one cycle and land in 4, VMAX, VMIN, VABS, VNEG and VCPSGN in 2: each unmasked element is the result of its operation rounded once to the format, with the flags of operands and result; the spire's stream moves on, SPR_VEC_ISSUE counts, and nothing else changes. So VADD, VSUB, VMUL, VFMA, VFMS, VFNMA, VMAX, VMIN, VABS, VNEG and VCPSGN complete. (R75, R77, R200, R201, R202, R213) -/
def Obligations.VectorFloat : Prop :=
  ∀ (s : State) (site : Nat) (i : VIns) (f : Fmt) (n w : Nat), AtIssue s site .vector → SignalOk s site .vector i.sig → i.ok = true → vfmtInfo i.fmt = some (f, n, w) →
    let raw := fun v x => elemAt ((s.spire site).vreg v).toNat w x
    let el := fun v x => f.decode (raw v x)
    let ar := fun (lat point : Nat) (op : Machine.Num → Machine.Num → Machine.Num) => laneIssued s site i 1 lat n w [i.a, i.b] (fun x => arithTo f [el i.a x, el i.b x] (op (el i.a x) (el i.b x))) point f
    let fm := fun (op : Machine.Num → Machine.Num → Machine.Num → Machine.Num) => laneIssued s site i 1 4 n w [i.a, i.b, i.c] (fun x => arithTo f [el i.a x, el i.b x, el i.c x] (op (el i.a x) (el i.b x) (el i.c x))) 2 f
    let sg := fun (srcs : List Nat) (g : Nat → Nat) => vecIssued s site i.sig (vecEffect 1 2 i.d ((s.spire site).mask i.k) n w srcs false (fun x => (g x, 0)))
    let top := 2 ^ (f.width - 1)
    exec (.vadd site i) s = .next (ar 4 2 Machine.Num.add) ∧
    exec (.vsub site i) s = .next (ar 4 2 (fun a b => Machine.Num.add a b.negate)) ∧
    exec (.vmul site i) s = .next (ar 4 2 Machine.Num.mul) ∧
    exec (.vfma site i) s = .next (fm (fun a b c => Machine.Num.add (Machine.Num.mul a b) c)) ∧
    exec (.vfms site i) s = .next (fm (fun a b c => Machine.Num.add (Machine.Num.mul a b) c.negate)) ∧
    exec (.vfnma site i) s = .next (fm (fun a b c => Machine.Num.add (Machine.Num.mul a b).negate c)) ∧
    exec (.vmax site i) s = .next (ar 2 1 (Machine.Num.pick true)) ∧
    exec (.vmin site i) s = .next (ar 2 1 (Machine.Num.pick false)) ∧
    exec (.vabs site i) s = .next (sg [i.a] (fun x => raw i.a x % top)) ∧
    exec (.vneg site i) s = .next (sg [i.a] (fun x => if raw i.a x < top then raw i.a x + top else raw i.a x - top)) ∧
    exec (.vcpsgn site i) s = .next (sg [i.a, i.b] (fun x => raw i.a x % top + raw i.b x / top * top))

/-- At their issue cycle the INT32 instructions and VIOTA, VLANE, VSEL, VCMP and the mask instructions issue in one cycle and land in 2: each unmasked lane is the wrapped 32-bit result (shifts by 32 or more give 0, or the sign fill for VSRA), VSEL chooses by a mask register, VCMP sets each unmasked lane's mask bit where its condition holds of the lane (of both halves in the H forms, with the flags of its operands in the floating-point forms), and a mask instruction writes the bits of its mask register that its own mask selects. So VCMP, VSEL, VIADD, VISUB, VIMUL, VAND, VOR, VXOR, VNOT, VSHL, VSHR, VSRA, VIMAX, VIMIN, VIOTA, VLANE, KAND, KOR, KXOR and KNOT complete. (R75, R77, R198, R200, R201, R213) -/
def Obligations.VectorInteger : Prop :=
  ∀ (s : State) (site : Nat) (i : VIns), AtIssue s site .vector → SignalOk s site .vector i.sig →
    let p := s.spire site
    let a := fun x => BitVec.ofNat 32 (elemAt (p.vreg i.a).toNat 32 x)
    let b := fun x => BitVec.ofNat 32 (elemAt (p.vreg i.b).toNat 32 x)
    let two := fun (g : Nat → BitVec 32) => laneIssued s site i 1 2 64 32 [i.a, i.b] (fun x => ((g x).toNat, 0)) 1
    let km := fun (v : Word) => vecIssued s site i.sig { occ := 1, lat := 2, writes := [.kmask i.d v (p.mask i.k)], flags := 0, reads := [], result := true, point := 1 }
    (i.ok = true → i.fmt = .int →
      exec (.viadd site i) s = .next (two (fun x => a x + b x)) ∧
      exec (.visub site i) s = .next (two (fun x => a x - b x)) ∧
      exec (.vimul site i) s = .next (two (fun x => a x * b x)) ∧
      exec (.vand site i) s = .next (two (fun x => a x &&& b x)) ∧
      exec (.vor site i) s = .next (two (fun x => a x ||| b x)) ∧
      exec (.vxor site i) s = .next (two (fun x => a x ^^^ b x)) ∧
      exec (.vnot site i) s = .next (laneIssued s site i 1 2 64 32 [i.a] (fun x => ((~~~a x).toNat, 0)) 1) ∧
      exec (.vshl site i) s = .next (two (fun x => if (b x).toNat < 32 then a x <<< (b x).toNat else 0)) ∧
      exec (.vshr site i) s = .next (two (fun x => if (b x).toNat < 32 then a x >>> (b x).toNat else 0)) ∧
      exec (.vsra site i) s = .next (two (fun x => (a x).sshiftRight (min 31 (b x).toNat))) ∧
      exec (.vimax site i) s = .next (two (fun x => if (b x).slt (a x) then a x else b x)) ∧
      exec (.vimin site i) s = .next (two (fun x => if (b x).slt (a x) then b x else a x)) ∧
      (i.d < 8 → exec (.vcmp site i) s = .next (vecIssued s site i.sig { occ := 1, lat := 2, flags := 0, reads := [(2, i.a), (2, i.b)], result := true, point := 1, writes := [.kmask i.d (BitVec.ofNat 64 (((List.range 64).filter (fun l => (p.mask i.k).getLsbD l)).foldl (fun v l => if condInt i.cc (a l).toInt (b l).toInt then v + 2 ^ l else v) 0)) (p.mask i.k)] }))) ∧
    (i.ok = true →
      exec (.viota site i) s = .next (laneIssued s site i 1 2 64 32 [] (fun x => (x, 0)) 1) ∧
      (i.n < 64 → exec (.vlane site i) s = .next (laneIssued s site i 1 2 64 32 [i.a] (fun _ => (elemAt (p.vreg i.a).toNat 32 i.n, 0)) 1)) ∧
      (i.n < 8 → exec (.vsel site i) s = .next (laneIssued s site i 1 2 64 32 [i.a, i.b]
        (fun x => (elemAt (p.vreg (if (p.mask i.n).getLsbD x then i.a else i.b)).toNat 32 x, 0)) 1))) ∧
    (i.ok = true → i.d < 8 → ∀ f n w, vfmtInfo i.fmt = some (f, n, w) →
      let per := n / 64
      let pair := fun l j => (f.decode (elemAt (p.vreg i.a).toNat w (per * l + j)), f.decode (elemAt (p.vreg i.b).toNat w (per * l + j)))
      let lanes := (List.range 64).filter (fun l => (p.mask i.k).getLsbD l)
      exec (.vcmp site i) s = .next (vecIssued s site i.sig { occ := 1, lat := 2, reads := [(2, i.a), (2, i.b)], result := true, point := 1, flags := (lanes.foldl (fun g l => (List.range per).foldl (fun g j => g ||| operandsFlags [(pair l j).1, (pair l j).2]) g) 0), writes := [.kmask i.d (BitVec.ofNat 64 (lanes.foldl (fun v l => if (List.range per).all (fun j => condNum i.cc (pair l j).1 (pair l j).2) then v + 2 ^ l else v) 0)) (p.mask i.k)] })) ∧
    (i.d < 8 → i.a < 8 → i.b < 8 → i.k < 8 →
      exec (.kand site i) s = .next (km (p.mask i.a &&& p.mask i.b)) ∧
      exec (.kor site i) s = .next (km (p.mask i.a ||| p.mask i.b)) ∧
      exec (.kxor site i) s = .next (km (p.mask i.a ^^^ p.mask i.b)) ∧
      exec (.knot site i) s = .next (km (~~~p.mask i.a)))

/-- At their issue cycle, in every form whose registers, rows, offsets and formats are permitted, VCVTW widens each element exactly (with the block scale of a scaled row), VCVTN and VMXENC narrow each element by the selected rounding into a register or a segment of a tile row with its tag (and block scales), drawing from the lane generators when stochastic rounding is selected, and VCVTI and VCVTF convert between FP32 and INT32; latencies 2, 3, 6, 3 and 3. So VCVTW, VCVTN, VCVTI, VCVTF and VMXENC complete. (R55, R57, R200, R203, R204, R664) -/
def Obligations.VectorConvert : Prop :=
  ∀ (s : State) (site : Nat), InForm s → AtIssue s site .vector →
    let p := s.spire site
    (∀ (i : VIns), SignalOk s site .vector i.sig → i.ok = true →
      exec (.vcvti site i) s = .next (laneIssued s site i 1 3 64 32 [i.a] (fun l => toInt32 (fmtFp32.decode (elemAt (p.vreg i.a).toNat 32 l)))) ∧
      exec (.vcvtf site i) s = .next (laneIssued s site i 1 3 64 32 [i.a] (fun l =>
        roundTo fmtFp32 false none (.fin ((BitVec.ofNat 32 (elemAt (p.vreg i.a).toNat 32 l)).toInt < 0) (BitVec.ofNat 32 (elemAt (p.vreg i.a).toNat 32 l)).toInt.natAbs 0)))) ∧
    (∀ (i : VCvt), SignalOk s site .vector i.sig → i.k < 8 →
      let k := p.mask i.k
      let f := elemFmt i.elem
      let rounds := s.selects site i.rnd
      let per := if i.fmt = .f then 1 else 2
      (∀ d v, i.dst = .reg d → i.src = .reg v → d < 32 → v < 32 → i.half < 2 → i.elem ≠ .fp32 → i.elem.scaled = false →
        exec (.vcvtw site i) s = .next (vecIssued s site i.sig (vecEffect 1 2 d k 64 32 [v] true
          (fun l => widen f none (elemAt (p.vreg v).toNat f.width (l + (if f.width = 16 then 64 * i.half else 0))))))) ∧
      (∀ d t r off g n scaled cls, i.dst = .reg d → i.src = .row t r off → d < 32 → t < 16 → r < 32 → tagInfo (s.tagOp site t) = some (g, n, scaled, cls) → cls ≠ .wide → segOk 64 g.width off = true →
        let first := 8 * off / g.width
        let x := laneResults k 64 32 (fun l => widen g (if scaled then some ((p.scaleRow t r).toNat / 256 ^ ((first + l) / 32) % 256 ) else none) (elemAt (p.tileRow t r).toNat g.width (first + l)))
        exec (.vcvtw site i) s = .next (vecIssued s site i.sig { occ := 1, lat := 2, writes := [.vec d x.1 (laneMask k)], flags := x.2, reads := [(0, t)], result := true })) ∧
      (∀ sf n w v, vfmtInfo i.fmt = some (sf, n, w) → i.src = .reg v → v < 32 → f.width ≠ 32 → f ≠ sf → i.elem.isMx = false →
        let rs := (s.draws site rounds per).1
        let out := (List.range n).map (fun x => narrow f (s.e5m2Inf site) (rs.getD x none) (sf.decode (elemAt (p.vreg v).toNat w x)))
        let fl := (List.range n).foldl (fun g x => if k.getLsbD (x / per) then g ||| (out.getD x (0, 0)).2 else g) 0
        let pm := packMasked k n f.width (out.map Prod.fst)
        let drawn := fun (t : State) => (t.draws site rounds per).2
        (∀ d, i.dst = .reg d → d < 32 → exec (.vcvtn site i) s = .next (drawn (vecIssued s site i.sig { occ := 1, lat := 3, flags := fl, reads := [(2, v)], result := true, fmt := f, elems := n, writes :=
          [.vec d (BitVec.ofNat 2048 pm.1) (BitVec.ofNat 2048 (pm.2 + (2 ^ 2048 - 2 ^ (n * f.width))))] }))) ∧
        (∀ t r off, i.dst = .row t r off → t < 16 → r < 32 → segOk n f.width off = true → i.tag < 0xD →
          exec (.vcvtn site i) s = .next (drawn (vecIssued s site i.sig { occ := 1, lat := 3, flags := fl, reads := [(2, v)], result := true, fmt := f, elems := n, first := 8 * off, writes :=
            (tagged [.tile t r (BitVec.ofNat 1024 (pm.1 * 2 ^ (8 * off))) (BitVec.ofNat 1024 (pm.2 * 2 ^ (8 * off)))] pm.2 t i.tag) })))) ∧
      (∀ t r off v g n cls, i.dst = .row t r off → i.src = .reg v → v < 32 → t < 16 → r < 32 → tagInfo i.tag = some (g, n, true, cls) → segOk 64 g.width off = true →
        let rs := (s.draws site rounds 1).1
        let vals := (List.range 64).map (fun l => if k.getLsbD l then fmtFp32.decode (elemAt (p.vreg v).toNat 32 l) else .fin false 0 0)
        let enc := fun b => mxEncode g (s.e5m2Inf site) ((rs.drop (32 * b)).take 32) ((vals.drop (32 * b)).take 32)
        let on := [0, 1].filter (fun b => (List.range 32).any (fun l => k.getLsbD (32 * b + l)))
        let pm := packMasked k 64 g.width ((enc 0).2.1 ++ (enc 1).2.1)
        let first := 8 * off / g.width / 32
        let sc := on.foldl (fun (a : Nat × Nat) b => (a.1 + (enc b).1 * 256 ^ (first + b), a.2 + 255 * 256 ^ (first + b))) (0, 0)
        exec (.vmxenc site i) s = .next ((vecIssued s site i.sig { occ := 2, lat := 6, flags := on.foldl (fun g b => g ||| (enc b).2.2) 0, reads := [(2, v)], result := true, fmt := g, first := 8 * off, writes :=
          (tagged [.tile t r (BitVec.ofNat 1024 (pm.1 * 2 ^ (8 * off))) (BitVec.ofNat 1024 (pm.2 * 2 ^ (8 * off))), .scale t r (BitVec.ofNat 64 sc.1) (BitVec.ofNat 64 sc.2)] pm.2 t i.tag) }).draws site rounds 1).2))

/-- At their issue cycle VRSUM, VRMAX and VRMIN combine the lanes in a binary tree of adjacent pairs, each step rounded once to FP32, masked lanes giving the identity, and write the one result to every unmasked lane, landing in 12; the approximations land in 12 (VTANH and VSIGM 16, occupying 2), VDIV and VSQRT in 24, occupying 8, each lane correctly rounded or as R210 gives it. So VRSUM, VRMAX, VRMIN, VEXP2, VLOG2, VRCP, VRSQRT, VTANH, VSIGM, VDIV and VSQRT complete. (R200, R202, R208, R210, R211) -/
def Obligations.VectorReduce : Prop :=
  ∀ (s : State) (site : Nat) (i : VIns) (f : Fmt) (n w : Nat), AtIssue s site .vector → SignalOk s site .vector i.sig → i.ok = true → vfmtInfo i.fmt = some (f, n, w) →
    let p := s.spire site
    let k := p.mask i.k
    let el := fun v l => fmtFp32.decode (elemAt (p.vreg v).toNat 32 l)
    let comb := fun (op : Machine.Num → Machine.Num → Machine.Num) (a b : Nat × Nat) =>
      let r := op (fmtFp32.decode a.1) (fmtFp32.decode b.1)
      let c := roundTo fmtFp32 false none r
      (c.1, a.2 ||| b.2 ||| c.2 ||| flagIf (r.isNan && !(fmtFp32.decode a.1).isNan && !(fmtFp32.decode b.1).isNan) flInvalid)
    let lane := fun (ident : Nat) (op : Machine.Num → Machine.Num → Machine.Num) l =>
      if k.getLsbD l = false then (ident, 0)
      else match ((List.range (n / 64)).map (fun j => f.decode (elemAt (p.vreg i.a).toNat w (n / 64 * l + j)))).map (fun x => ((roundTo fmtFp32 false none x).1, operandFlags x)) with
        | [a] => a
        | [a, b] => comb op a b
        | _ => (ident, 0)
    let tree := fun ident op => ((List.range 6).foldl (fun xs _ => pairUp (comb op) xs) ((List.range 64).map (lane ident op))).headD (ident, 0)
    let red := fun ident op point => vecIssued s site i.sig { occ := 1, lat := 12, writes := [.vec i.d (BitVec.ofNat 2048 (packElems 32 (List.replicate 64 (tree ident op).1))) (laneMask k)], flags := (tree ident op).2, reads := [(2, i.a)], result := true, point := point }
    let ap := fun occ lat op => laneIssued s site i occ lat 64 32 [i.a] (fun l => approx op (BitVec.ofNat 32 (elemAt (p.vreg i.a).toNat 32 l)))
    exec (.vrsum site i) s = .next (red 0x80000000 Machine.Num.add 2) ∧
    exec (.vrmax site i) s = .next (red 0xFF800000 (Machine.Num.pick true) 1) ∧
    exec (.vrmin site i) s = .next (red 0x7F800000 (Machine.Num.pick false) 1) ∧
    (i.fmt = .f →
      exec (.vexp2 site i) s = .next (ap 1 12 0) ∧
      exec (.vlog2 site i) s = .next (ap 1 12 1) ∧
      exec (.vrcp site i) s = .next (ap 1 12 2) ∧
      exec (.vrsqrt site i) s = .next (ap 1 12 3) ∧
      exec (.vtanh site i) s = .next (ap 2 16 4) ∧
      exec (.vsigm site i) s = .next (ap 2 16 5) ∧
      exec (.vdiv site i) s = .next (laneIssued s site i 8 24 64 32 [i.a, i.b] (fun l => quotient (el i.a l) (el i.b l))) ∧
      exec (.vsqrt site i) s = .next (laneIssued s site i 8 24 64 32 [i.a] (fun l => arithTo fmtFp32 [el i.a l] (Machine.Num.sqrt (el i.a l)))))

/-- At their issue cycle VTR and VRT move raw bits of a tile or accumulator row under the mask, landing in 3 (VRT with the tag it carries, tag 0 for an accumulator); VGATHER, VSCATTER, VLD and VST access the local store at base plus index times size for every unmasked lane, occupying 4 cycles plus one for each bank pass beyond the first, landing 12 cycles after the occupancy, and SPR_VEC_BANKPASS counts the passes beyond the first. So VTR, VRT, VGATHER, VSCATTER, VLD and VST complete. (R193, R200, R205, R206) -/
def Obligations.VectorMoves : Prop :=
  ∀ (s : State) (site : Nat), InForm s → AtIssue s site .vector →
    let p := s.spire site
    (∀ (i : VMove), SignalOk s site .vector i.sig → i.v < 32 → i.k < 8 → i.r < 32 → i.half < 2 →
      let m := laneMask (p.mask i.k)
      let half := fun (x : BitVec 2048) => BitVec.ofNat 1024 (x.toNat / 2 ^ (1024 * i.half))
      let out := fun ws rs => vecIssued s site i.sig { occ := 1, lat := 3, writes := ws, flags := 0, reads := rs, result := false }
      (i.acc = true → i.t < 4 →
        (s.tagAcc site i.t = 0 → exec (.vtr site i) s = .next (out [.vec i.v (p.accRow i.t i.r) m] [(1, i.t)])) ∧
        exec (.vrt site i) s = .next (out (if m = 0 then [] else [.acc i.t i.r (p.vreg i.v) m, .tagAcc i.t 0]) [(2, i.v)])) ∧
      (i.acc = false → i.t < 16 →
        exec (.vtr site i) s = .next (out [.vec i.v (BitVec.ofNat 2048 ((p.tileRow i.t i.r).toNat * 2 ^ (1024 * i.half))) (m &&& BitVec.ofNat 2048 ((2 ^ 1024 - 1) * 2 ^ (1024 * i.half)))] [(0, i.t)]) ∧
        (i.tag < 0xD → exec (.vrt site i) s = .next (out (tagged [.tile i.t i.r (half (p.vreg i.v)) (half m)] (half m).toNat i.t i.tag) [(2, i.v)])))) ∧
    (∀ (i : VMem), SignalOk s site .vector i.sig → i.v < 32 → i.idx < 32 → i.k < 8 →
      let acc := fun (size : Nat) (idx : Nat → Nat) (rs : List Res) (scatter : Bool) =>
        let offs := laneOffsets (p.mask i.k) i.base size idx
        let occ := 4 + (bankPasses offs - 1)
        let x : Effect := { occ := occ, lat := occ + 12, flags := 0, reads := rs, result := true, point := 1, lanes := if scatter then offs.map Prod.fst else [], writes :=
          if scatter then offs.map (fun x => SWr.ls x.2 (bytesLE size (elemAt (p.vreg i.v).toNat 32 x.1)))
          else [.vec i.v (BitVec.ofNat 2048 (offs.foldl (fun v x => v + s.loadLE (lsBase site + x.2) size * 2 ^ (32 * x.1)) 0)) (laneMask (p.mask i.k))] }
        let t := vecIssued s site i.sig x
        if bankPasses offs - 1 = 0 then t else t.bump (R.SPR_VEC_BANKPASS site) (bankPasses offs - 1)
      let fits := fun (size : Nat) (idx : Nat → Nat) => (laneOffsets (p.mask i.k) i.base size idx).find? (fun x => Nat.blt lsSize (x.2 + size)) = none
      let ix := fun l => elemAt (p.vreg i.idx).toNat 32 l
      (i.size = 1 ∨ i.size = 2 ∨ i.size = 4 → i.base % i.size = 0 → fits i.size ix →
        exec (.vgather site i) s = .next (acc i.size ix [(2, i.idx)] false) ∧
        exec (.vscatter site i) s = .next (acc i.size ix [(2, i.v), (2, i.idx)] true)) ∧
      (i.base % 4 = 0 → fits 4 (fun l => l) →
        exec (.vld site i) s = .next (acc 4 (fun l => l) [] false) ∧
        exec (.vst site i) s = .next (acc 4 (fun l => l) [(2, i.v)] true)))

/-- With the array able to take it, the operand tags legal and no loop, MMA, MMA.SP and MMA.DIAG issue: one landing is added that writes, in all 32 rows and the columns of the instruction's contexts, each output element accumulated block by block, and accumulator tag 0x0, with the flags of all outputs and the landing signal, no earlier than the occupancy and the latency tail after the issue cycle; the stream moves on by one; memory, the other spires and the queue are unchanged. So MMA, MMA_SP and MMA_DIAG complete. (R49, R51, R77, R80, R86, R88, R118, R130, R132, R149, R159, R160) -/
def Obligations.MatrixIssue : Prop :=
  ∀ (s : State) (site : Nat) (f : AForm) (c : Instr) (i : ArrIns) (cls : TagClass), (c = .mma site i ∧ f = .mma) ∨ (c = .mmaSp site i ∧ f = .sp) ∨ (c = .mmaDiag site i ∧ f = .diag) →
    AtArray s site i → SignalOk s site .matrix i.sig → runsOnce s site (.arr f i) i.desc → s.arrCheck site f i = .ok cls →
    ∃ (u : State) (l : Landing), exec c s = .next u ∧ (u.spire site).landings = (s.spire site).landings ++ [l] ∧
      (s.spire site).arrAt i + arrOccupancy s site f i cls + u.arrTail site i ≤ l.due ∧
      l.writes = (List.range 32).map (fun r => SWr.acc i.ac r (BitVec.ofNat 2048 (i.cols.foldl (fun v j => v + (arrOut s site f i cls r j).1 * 2 ^ (32 * j)) 0)) (ctxMask i.ctxs)) ++ [SWr.tagAcc i.ac 0] ∧
      l.flags = (List.range 32).foldl (fun g r => i.cols.foldl (fun g j => g ||| (arrOut s site f i cls r j).2) g) 0 ∧
      l.sig = landSig i.sig ∧ l.ac = i.ac ∧ l.ctxs = i.ctxs ∧ l.qpos = (s.spire site).mat.qpos ∧ l.seq = (s.spire site).seq ∧ l.acc = i.accumulate ∧ l.haz = false ∧
      (u.spire site).mat.qpos = (s.spire site).mat.qpos + 1 ∧ (u.spire site).regs = (s.spire site).regs ∧
      u.mem = s.mem ∧ u.pending = s.pending ∧ ∀ j, j ≠ site → u.spire j = s.spire j

/-- At the mover's issue cycle, with a legal signal, no loop and its checks passed, each of the tile forms and the copy issues: the operation starts at that cycle (a global form makes its requests) and the mover issues again after its occupancy. A local form adds exactly its row reads and one landing, at issue plus latency, with the rows of a load read now. A prefetch hint of 1 to 16 barges issues in one cycle and its barges are taken in order: one that R254 drops is counted, one that finds a slot and a way is requested, and while all 40 slots are held the mover pauses on it. So TILE_LOAD, TILE_LOAD_SCALE, TRANSPOSED_LOAD, ACCUMULATOR_LOAD, TILE_STORE, TILE_STORE_SCALE, ACCUMULATOR_STORE, MOVER_COPY and PREFETCH_HINT complete. (R78, R86, R118, R119, R120, R121, R123, R124, R126, R128, R193, R255) -/
def Obligations.MoverForms : Prop :=
  ∀ (s : State) (site : Nat), AtIssue s site .mover →
    let t := (s.spire site).issueAt .mover
    let good := fun (m : MovOp) (d : Option Nat) => SignalOk s site .mover m.sig ∧ runsOnce s site (.mov m) d ∧ s.movCheck site (s.movAtIssue site m) = none
    let out := fun (m : MovOp) => moved s site (s.movAtIssue site m)
    (∀ i : TileIns,
      (good (tileOp .load i) i.desc → exec (.tileLoad site i) s = .next (out (tileOp .load i))) ∧
      (good (tileOp .loadScale i) i.desc → exec (.tileLoadScale site i) s = .next (out (tileOp .loadScale i))) ∧
      (good (tileOp .transposed i) i.desc → exec (.transposedLoad site i) s = .next (out (tileOp .transposed i))) ∧
      (good (tileOp .accLoad i) i.desc → exec (.accumulatorLoad site i) s = .next (out (tileOp .accLoad i))) ∧
      (good (tileOp .store i) i.desc → exec (.tileStore site i) s = .next (out (tileOp .store i))) ∧
      (good (tileOp .storeScale i) i.desc → exec (.tileStoreScale site i) s = .next (out (tileOp .storeScale i))) ∧
      (good (tileOp .accStore i) i.desc → exec (.accumulatorStore site i) s = .next (out (tileOp .accStore i)))) ∧
    (∀ i : CopyIns,
      let m : MovOp := { form := if i.toGlobal then .copyOut else .copyIn, global := true, t := 0, base := i.gaddr, stride := 512, sbase := 0, sstride := 0, tag := 0, stag := 0, n := i.n, ls := i.ls,
                         win := none, swin := none, qpos := 0, iter := none, sig := i.sig }
      good m i.desc → exec (.moverCopy site i) s = .next (out m)) ∧
    (∀ m : MovOp, m.global = false → out m = s.setSpire site (movedSpire s site (s.movAtIssue site m))) ∧
    (∀ a n, 1 ≤ n → n ≤ 16 → exec (.prefetchHint site a n) s =
      .next (((s.modMover site (fun m => { m with hints := (List.range n).map (fun k => a / 512 * 512 + 512 * k) })).issued site .mover t 1).pump site)) ∧
    (∀ (u : State) (n b : Nat) (r : List Nat), (u.spire site).mover.hints = b :: r → let on := fun (v : State) => pumpHints n site (v.modMover site (fun m => { m with hints := r }))
      (u.prefetchTo site b = none → pumpHints (n + 1) site u = on (u.bump (R.SPR_PF_DROP site))) ∧
      (∀ x, u.prefetchTo site b = some x → ((u.spire site).slots < 40 → (u.spire site).wayFree x = true → pumpHints (n + 1) site u = on (u.prefetchAt site b x)) ∧ (40 ≤ (u.spire site).slots → pumpHints (n + 1) site u = u)))

/-- A looped array instruction, tile form or copy whose descriptor is legal and whose gate cell is PLAIN: the descriptor advances by its ADV fields, but for what a landing of this cycle has written, and the engine starts the loop, stream position moved on; where the nest has no iterations nothing issues, SPR_LOOP_ZERO counts, and the instruction has issued in one cycle with its signals. LOOP_ITERATION_ISSUE on an engine without a loop changes nothing. So MMA, MMA_SP, MMA_DIAG, TILE_LOAD, TILE_LOAD_SCALE, TRANSPOSED_LOAD, ACCUMULATOR_LOAD, TILE_STORE, TILE_STORE_SCALE, ACCUMULATOR_STORE and MOVER_COPY complete. (R132, R176, R179, R180, R182, R187, R190, R191) -/
def Obligations.LoopStart : Prop :=
  ∀ (s : State) (site k : Nat), k < 32 → let d := (s.spire site).desc k
    dLevels d ≠ 0 → dReservedOk d = true → dLevelsOk d = true → (dGateN d = 0 ∨ s.cellIs site (dGateCell d) 0 = true) →
    let loaded := fun (body : LoopBody) => s.modRegs site (fun r => { r with descs := tset (fun _ => 0) r.descs k (advance d (s.bodySlots site d body) ((s.spire site).descLanded k)) })
    let zero := fun (body : LoopBody) (e : Engine) (g : Option AttSig) (t : Nat) => let n := body.engNo e
      let q := ((s.spire site).eng e).qpos
      ((((loaded body).bump (R.SPR_LOOP_ZERO site)).pushSig site (t + 1) n q (landSig g)).pushSig site t n q (relSig g)).issued site e t 1
    let begun := fun (body b : LoopBody) (e : Engine) =>
      ((loaded body).modEng site e (fun x => { x with qpos := x.qpos + 1, pc := x.pc + 1, queue := x.queue - 1, loop := some { desc := d, body := b, next := 0, total := tripCount d, gateTaken := false } })).loopStep site e
    (∀ (f : AForm) (c : Instr) (i : ArrIns), (c = .mma site i ∧ f = .mma) ∨ (c = .mmaSp site i ∧ f = .sp) ∨ (c = .mmaDiag site i ∧ f = .diag) →
      AtArray s site i → SignalOk s site .matrix i.sig → i.desc = some k → granulesOk d (s.bodySlots site d (.arr f i)) = true →
      exec c s = .next (if tripCount d = 0 then zero (.arr f i) .matrix i.sig ((s.spire site).arrAt i) else begun (.arr f i) (.arr f i) .matrix)) ∧
    let copy := fun (i : CopyIns) => ({ form := if i.toGlobal then .copyOut else .copyIn, global := true, t := 0, base := i.gaddr, stride := 512, sbase := 0, sstride := 0, tag := 0, stag := 0, n := i.n, ls := i.ls,
                                        win := none, swin := none, qpos := 0, iter := none, sig := i.sig } : MovOp)
    (∀ (m : MovOp) (c : Instr), (∃ i : TileIns, i.desc = some k ∧ ((c = .tileLoad site i ∧ m = tileOp .load i) ∨ (c = .tileLoadScale site i ∧ m = tileOp .loadScale i) ∨ (c = .transposedLoad site i ∧ m = tileOp .transposed i) ∨
        (c = .accumulatorLoad site i ∧ m = tileOp .accLoad i) ∨ (c = .tileStore site i ∧ m = tileOp .store i) ∨ (c = .tileStoreScale site i ∧ m = tileOp .storeScale i) ∨ (c = .accumulatorStore site i ∧ m = tileOp .accStore i))) ∨
        (∃ i : CopyIns, i.desc = some k ∧ c = .moverCopy site i ∧ m = copy i) →
      AtIssue s site .mover → SignalOk s site .mover m.sig →
      let m : MovOp := { m with qpos := (s.spire site).mov.qpos }
      let ss := s.bodySlots site d (.mov m)
      granulesOk d ss = true →
      exec c s = .next (if tripCount d = 0 then zero (.mov m) .mover m.sig ((s.spire site).issueAt .mover)
        else begun (.mov m) (.mov { m with win := if m.global then (loaded (.mov m)).windowOf (slotValue d ss 0 0) else none, swin := if m.global ∧ m.scaleRowBytes ≠ 0 then (loaded (.mov m)).windowOf (slotValue d ss 0 2) else none }) .mover)) ∧
    (∀ e, ((s.spire site).eng e).loop = none → exec (.loopIterationIssue site e) s = .next s)

/-- At the issue cycle of an iteration that is not gated, whose gate is taken, or whose gate holds its count and gives it, with its operands legal: LOOP_ITERATION_ISSUE completes. It adds one landing with the results of the array instruction at that iteration, or starts the mover operation at its slot values, counts it in SPR_LOOP_ITER, and the loop stands at the next iteration, or has ended after the last; the stream position stays. An iteration whose gate cannot give its count holds the engine on the gate. So LOOP_ITERATION_ISSUE completes. (R132, R181, R182, R183, R184, R185, R186, R187, R216) -/
def Obligations.LoopIteration : Prop :=
  ∀ (s : State) (site : Nat) (e : Engine) (l : Loop), ((s.spire site).eng e).loop = some l → s.issuing site e = true → s.slotsFree site e = true →
    let c := dGateCell l.desc
    let n := dGateN l.desc
    let on : Option Loop := if l.next + 1 = l.total then none else some { l with next := l.next + 1, gateTaken := false }
    let open_ := fun (t : Nat) (v : State) => ((gated l.desc l.next = false ∨ l.gateTaken = true) ∧ v = s) ∨
      (gated l.desc l.next = true ∧ l.gateTaken = false ∧ s.cellIs site c 0 = true ∧ s.waitHolds site e (.gate c n) = true ∧ s.tryTake site c n t = (true, v))
    (∀ (f : AForm) (i : ArrIns) (cls : TagClass) (v : State), e = .matrix → l.body = .arr f i →
      let t := (s.spire site).arrAt i
      let j := v.arrAtIter site l.desc f i l.next
      s.runTo site t = s → open_ t v → v.hazEn site = false → v.arrCheck site f j = .ok cls →
      ∃ (u : State) (x : Landing), exec (.loopIterationIssue site e) s = .next u ∧ (u.spire site).landings = (v.spire site).landings ++ [x] ∧ t + arrOccupancy v site f j cls ≤ x.due ∧
        x.writes = (List.range 32).map (fun r => SWr.acc j.ac r (BitVec.ofNat 2048 (j.cols.foldl (fun a c => a + (arrOut v site f j cls r c).1 * 2 ^ (32 * c)) 0)) (ctxMask j.ctxs)) ++ [SWr.tagAcc j.ac 0] ∧
        x.sig = landSig (if fires l.desc l.next l.total then i.sig else none) ∧ x.iter = some l.next ∧ x.seq = (v.spire site).seq ∧
        (u.spire site).mat.loop = on ∧ (u.spire site).mat.qpos = (v.spire site).mat.qpos ∧ u.mem = v.mem ∧ u.pending = v.pending) ∧
    (∀ (o : MovOp) (v : State), e = .mover → l.body = .mov o →
      let t := (s.spire site).issueAt .mover
      let m := v.latchTag site (movAtIter l.desc o l.next l.total)
      s.runTo site t = s → open_ t v → v.hazEn site = false → v.movCheck site m = none →
      let w := (v.nextSeq site).2.startMov site (v.spire site).seq m t
      let u := if m.global then w.pump site else w
      exec (.loopIterationIssue site e) s = .next (((u.modEng site .mover (fun x => { x with free := t + m.occ + (if u.hazEn site then 1 else 0) })).bump (R.SPR_LOOP_ITER site)).modEng site .mover (fun x => { x with loop := on }))) ∧
    (let t := match l.body with | .arr _ i => (s.spire site).arrAt i | .mov _ => (s.spire site).issueAt e
      let held := fun (v : State) => v.modEng site e (fun x => { x with st := .wait, wait := some (.gate c n), since := t, resume := none })
      s.runTo site t = s → gated l.desc l.next = true → l.gateTaken = false → s.cellIs site c 0 = true →
      s.waitHolds site e (.gate c n) = false → exec (.loopIterationIssue site e) s = .next (held s))

/-- At its engine's issue cycle, with its operands in range, DLOAD and DSTORE move 256 bytes between a descriptor and the local store (occupancy 2, latency 6), DCOUNT writes one count field, DSET one field of a descriptor from a scalar register (latency 2), a scalar operation its result (latency 1, a multiply 3), and SREAD the word of a cell of any kind (latency 3); the branch of the sequencer goes on at its target after 4 cycles if its condition holds, else after 1. So DLOAD, DSTORE, DCOUNT, DSET, SCALAR_ARITHMETIC, BRANCH and SREAD complete. (R74, R86, R189, R217) -/
def Obligations.DescriptorsAndScalars : Prop :=
  ∀ (s : State) (site : Nat), let p := s.spire site
    let mov := fun (x : Effect) => s.setSpire site (issuedSpire s site .mover none x)
    let sqr := fun (x : Effect) => s.setSpire site (issuedSpire s site .seq none x)
    (AtIssue s site .mover → ∀ d off, d < 32 →
      (off % 128 = 0 → off + 256 ≤ lsSize →
        exec (.dload site d off) s = .next (mov { occ := 2, lat := 6, writes := [.desc d (BitVec.ofNat 2048 (s.loadLE (lsBase site + off) 256)) (BitVec.allOnes 2048)], flags := 0, reads := [], result := false }) ∧
        exec (.dstore site d off) s = .next (mov { occ := 2, lat := 6, writes := [.ls off (bytesLE 256 (p.desc d).toNat)], flags := 0, reads := [], result := false })) ∧
      (∀ k, k < 6 → off % 4 = 0 → off + 4 ≤ lsSize → exec (.dcount site d k off) s = .next (mov { occ := 1, lat := 6, flags := 0, reads := [], result := false, writes := [.desc d (BitVec.ofNat 2048 (s.loadLE (lsBase site + off) 4 * 2 ^ (8 * (8 + 4 * k)))) (BitVec.ofNat 2048 ((2 ^ 32 - 1) * 2 ^ (8 * (8 + 4 * k))))] }))) ∧
    (AtIssue s site .seq →
      (∀ d f x o n, d < 32 → dPlace f = some (o, n) → exec (.dset site d f x) s = .next (sqr { occ := 1, lat := 2, flags := 0, reads := [(3, x)], result := false, writes := [.desc d (BitVec.ofNat 2048 ((p.scalar x).toNat % 2 ^ (8 * n) * 2 ^ (8 * o))) (BitVec.ofNat 2048 ((2 ^ (8 * n) - 1) * 2 ^ (8 * o)))] })) ∧
      (∀ op d a b, exec (.scalarArithmetic site op d a b) s = .next (sqr { occ := 1, lat := if op = .mul then 3 else 1, writes := [.scal d (scalarOp op (s.srcVal site a) (s.srcVal site b))], flags := 0, reads := a.res ++ b.res, result := false })) ∧
      (∀ x c, c < 48 → exec (.sread site x c) s = .next (sqr { occ := 1, lat := 3, writes := [.scal x (s.cell site c)], flags := 0, reads := [], result := false })) ∧
      (∀ c a b target, exec (.branch site c a b target) s = .next (if branchHolds c (s.srcVal site a) (s.srcVal site b) then (s.issued site .seq (p.issueAt .seq) 4).jump site .seq target else s.issued site .seq (p.issueAt .seq) 1)))

/-- At their engine's issue cycle, on a cell of their kind: FILL, DRAIN, ADD and DEC push one update that takes effect in the next cycle and issue in one cycle; WAITF, WAITE, WAITGE and BWAIT issue in one cycle if their condition holds, else the engine is held on it; WAITGE.TAKE takes its count in the issue cycle or is held; BARRIVE sends its arrival at once while fewer than two are pending, else it is held; a branch on a cell, a jump, or the end of a repeat block goes on at its target after 4 cycles if its test holds (the block: while runs of it are left), else after 1. So SYNC_BRANCH, SYNC_FILL, DRAIN, ADD, DEC, WAITF, WAITE, WAITGE, WAITGE_TAKE, BARRIVE and BWAIT complete. (R75, R86, R214, R216, R217, R219, R231, R232) -/
def Obligations.CellOperations : Prop :=
  ∀ (s : State) (site : Nat) (e : Engine) (c : Nat), AtIssue s site e →
    let p := s.spire site
    let t := p.issueAt e
    let q := (p.eng e).qpos
    let upd := fun (op : CellOp) => syncDone (s.pushUpd site (t + 1) c op (engNo e) q) site e t 1
    let wait := fun (w : Wait) (holds : Prop) [Decidable holds] => if holds then syncDone s site e t 1 else s.holdEngine site e w t
    let w := s.cell site c
    (s.cellIs site c 0 = true →
      exec (.syncFill site e c) s = .next (upd .fill) ∧
      exec (.drain site e c) s = .next (upd .drain) ∧
      (∀ n, 1 ≤ n → n ≤ 65535 → exec (.add site e c n) s = .next (upd (.add n)) ∧ exec (.dec site e c n) s = .next (upd (.dec n))) ∧
      exec (.waitf site e c) s = .next (wait (.full c) (fget w cFull = 1)) ∧
      exec (.waite site e c) s = .next (wait (.empty c) (fget w cFull = 0)) ∧
      (∀ n, n ≤ 65535 → exec (.waitge site e c n) s = .next (wait (.ge c n) (n ≤ fget w cCount))) ∧
      (∀ n, 1 ≤ n → n ≤ 65535 → exec (.waitgeTake site e c n) s = .next (
        if n ≤ fget w cCount then (if (s.tryTake site c n t).1 then syncDone (s.tryTake site c n t).2 site e t 1 else (s.tryTake site c n t).2.holdEngine site e (.take c n) t)
        else s.holdEngine site e (.take c n) t)) ∧
      (∀ target, e ≠ .seq → ∀ test, test = .isFull c ∨ test = .isEmpty c ∨ (∃ n, test = .atLeast c n) ∨ test = .always ∨ (∃ n, n ≠ 0 ∧ test = .counted n) → let v := s.noteReps site e test
        exec (.syncBranch site e test target) s = .next (
        if s.cellTest site e test then (let u := (v.issued site e t 4).jump site e target; if e = .vector then u.bump (R.SPR_VEC_ISSUE site) else u) else syncDone v site e t 1))) ∧
    (∀ n, n ≠ 0 → e ≠ .seq → let x := p.eng e
      let left := if tget (fun _ => 0) x.reps x.pc = 0 then n - 1 else tget (fun _ => 0) x.reps x.pc - 1
      (s.cellTest site e (.counted n) = true ↔ left ≠ 0) ∧ (((s.noteReps site e (.counted n)).spire site).eng e).reps = tset (fun _ => 0) x.reps x.pc left) ∧
    (s.cellIs site c 2 = true →
      (∀ k, k ≤ 1 → exec (.bwait site e c k) s = .next (wait (.pend c k) (fget w cPend ≤ k))) ∧
      ((s.posOf (fget w cHmod)).isSome = true → fget w cHspire ≤ 959 → exec (.barrive site e c) s = .next (
        if fget w cPend < 2 then syncDone (s.sendArrival site e c t q) site e t 1 else (s.holdEngine site e (.arrive c) t).startHold site c (engNo e) (s.nsOf site t))))

/-- At their engine's issue cycle: SIG to a valid module, spire and cell sends one message that the engine counts until it is delivered; SIG.MC sends one to each member module of a sync group; SPR_SYNC_SIGOUT counts each instruction; FENCE holds the engine until its conditions hold, an acquire dropping every L1 line first; END leaves the engine ended. ENGINE_ISSUE_RESUME of an engine held on a cell until cycle r, with nothing else to come in the spire, brings the spire past that cycle: the engine runs again and may issue from r on, and SPR_SYNC_WAIT counts the cycles held; where the spire's next event releases the engine, the row is that event; of an engine that is not held it is what the mover can request now. So SIG, SIG_MC, FENCE, END and ENGINE_ISSUE_RESUME complete. (R75, R97, R222, R225, R228, R252) -/
def Obligations.SignalsAndFences : Prop :=
  ∀ (s : State) (site : Nat) (e : Engine),
    (AtIssue s site e →
      let t := (s.spire site).issueAt e
      (∀ m l c op, op.ok = true → (s.posOf m).isSome = true → l ≤ 959 → c < 48 →
        exec (.sig site e m l c op) s = .next (syncDone (((s.sendSignal site (engNo e) m l (s.sigPay site c op)).addOut site e 1).bump (R.SPR_SYNC_SIGOUT site)) site e t 1)) ∧
      (∀ g op, op.ok = true → g < 64 → let x := s.sendMulticast site (engNo e) g (s.sigPay site (groupCell (s.syncGroup g)) op)
        exec (.sigMc site e g op) s = .next (syncDone ((x.2.addOut site e x.1).bump (R.SPR_SYNC_SIGOUT site)) site e t 1)) ∧
      (∀ w sg a, (w || sg || a) = true →
        let u := if a then s.acquire site else s
        let f := Wait.fence w sg (u.spire site).seq (if a then t + 2 else t)
        let v := u.holdEngine site e f t
        exec (.fence site e w sg a) s = .next (if v.waitHolds site e f then v.modEng site e (fun x => { x with resume := some ((if a then t + 2 else t) + 2) }) else v)) ∧
      exec (.endStream site e) s = .next ((syncDone s site e t 1).modEng site e (fun x => if x.st = .run then { x with st := .ended } else x))) ∧
    (((s.spire site).eng e).st ≠ .wait → s.spState site = 1 → exec (.engineIssueResume site e) s = .next (s.pump site)) ∧
    (∀ r, ((s.spire site).eng e).st = .wait → s.spState site = 1 → s.nextDue site = some r → let u := s.runCycle site r true
      ((u.spire site).eng e).st = .run → ((u.spire site).eng e).wait = none → exec (.engineIssueResume site e) s = .next u) ∧
    (∀ w r, ((s.spire site).eng e).st = .wait → s.spState site = 1 → ((s.spire site).eng e).wait = some w → ((s.spire site).eng e).resume = some r → s.hazEn site = false → InForm s → let p := s.spire site
      p.landings = [] → p.reads = [] → p.upds = [] → p.mover.ops = [] → p.mover.redo = [] → p.mover.hints = [] → p.cycle ≤ r → (∀ x, x ≠ e → (p.eng x).st ≠ .wait) →
      (∃ c n, w = .full c ∨ w = .empty c ∨ w = .ge c n ∨ w = .pend c n) →
      ∃ u : State, exec (.engineIssueResume site e) s = .next u ∧ ((u.spire site).eng e).st = .run ∧ ((u.spire site).eng e).wait = none ∧ ((u.spire site).eng e).free = max (p.eng e).free r ∧ (u.spire site).cycle = r + 1 ∧
        u.reg (R.SPR_SYNC_WAIT site) = s.reg (R.SPR_SYNC_WAIT site) + BitVec.ofNat 64 (r - (p.eng e).since) ∧ u.mem = s.mem)

/-- Brought to the time of the spire, a context in HOLD goes, at GAP_THRESHOLD_REACHED, to the time its gap is as long as GAP_THRESH; one ramping down goes, at DUTY_DECREMENT, to the end of the next 312.5 ns, one ramping up, at DUTY_INCREMENT, to the end of the next 64 ns, and its state is what R140 gives for that time: ramp-down from the threshold on, one 64th of duty less for each 312.5 ns, QUIET at 0; one more for each 64 ns of ramp-up, ACTIVE at 64. A sparse interval of a context that works notes where its run of sparse intervals began, and a run as long as GAP_THRESH starts a ramp-down; one that is not sparse ends the run, and starts the ramp up of a ramp-down so begun. GAP_THRESH_WRITE stores the threshold and starts the ramp of a gap that is already longer. So GAP_THRESHOLD_REACHED, DUTY_DECREMENT, DUTY_INCREMENT, SPARSE_INTERVAL_END and GAP_THRESH_WRITE complete. (R138, R139, R140, R141, R142, R143, R163) -/
def Obligations.HoldEvents : Prop :=
  (∀ (s : State) (site c : Nat), c < 2 →
    let u := s.settleHold site (s.spireNs site)
    let h := (u.spire site).holdCtx c
    let reach := fun (t : Nat) => ∃ v, v = u.holdTo site t ∧ v.now = max u.now t ∧ { (v.spire site).holdCtx c with segs := h.segs } = h.at_ (u.gapThresh site) (({ u with now := max u.now t } : State).spireNs site) ∧ v.mem = u.mem
    (h.st = 2 → exec (.gapThresholdReached site c) s = .next (u.holdTo site (h.gapFrom + u.gapThresh site)) ∧ reach (h.gapFrom + u.gapThresh site)) ∧
    (h.st = 3 → let t := h.since + (625 * (downSteps (u.spireNs site - h.since) + 1) + 1) / 2
      exec (.dutyDecrement site c) s = .next (u.holdTo site t) ∧ reach t) ∧
    (h.st = 4 → let t := h.since + 64 * ((u.spireNs site - h.since) / 64 + 1)
      exec (.dutyIncrement site c) s = .next (u.holdTo site t) ∧ reach t)) ∧
  (∀ (h : HoldCtx) (th t : Nat), 0 < h.duty → h.st = 2 → t = h.gapFrom + th → (h.at_ th t).st = 3 ∧ (h.at_ th t).dutyAt t = h.duty) ∧
  (∀ (h : HoldCtx) (t : Nat), h.st = 3 → h.dutyAt t = 0 → (h.settleRamp t).st = 0) ∧
  (∀ (h : HoldCtx) (t : Nat), h.st = 4 → h.dutyAt t = 64 → (h.settleRamp t).st = 1) ∧
  (∀ (s : State) (site c : Nat), c < 2 →
    let a := s.spireNs site / 64 * 64
    let u := ({ s with now := max s.now (a + 64) } : State)
    let v := u.settleHold site (u.spireNs site)
    let h := (v.spire site).holdCtx c
    let from_ := h.sparseFrom.getD a
    ∃ w, exec (.sparseIntervalEnd site c) s = .next w ∧ w.now = u.now ∧ w.mem = s.mem ∧ let h' := (w.spire site).holdCtx c
      ((h.st = 1 ∨ h.st = 2) → (65536 < 2 * h.fillOf a → h'.sparseFrom = none ∧ h'.st = h.st) ∧
        (2 * h.fillOf a ≤ 65536 → h'.sparseFrom = some from_ ∧ h'.st = if v.gapThresh site ≤ a + 64 - from_ then 3 else h.st)) ∧
      (h.st = 3 → h.bySparse = true → (65536 < 2 * h.fillOf a → h'.sparseFrom = none ∧ h'.st = 4 ∧ h'.since = a + 64 ∧ h'.duty = max (h.dutyAt (a + 64)) 1) ∧
        (2 * h.fillOf a ≤ 65536 → h'.sparseFrom = some from_ ∧ h'.st = 3))) ∧
  (∀ (s : State) (site v : Nat), InForm s → ∃ t, exec (.gapThreshWrite site v) s = .next t ∧ t.fld (R.SPR_ARR_CTL site) F.SPR_ARR_CTL_GAP_THRESH = v % 2 ^ (F.SPR_ARR_CTL_GAP_THRESH.hi + 1 - F.SPR_ARR_CTL_GAP_THRESH.lo) ∧ t.mem = s.mem ∧
    ∀ c, c < 2 → let h := ((s.settleHold site (s.spireNs site)).spire site).holdCtx c
      h.st = 2 → ((t.spire site).holdCtx c).st = if h.gapFrom + t.gapThresh site ≤ s.spireNs site then 3 else 2)

/-- RNG_SEED_WRITE stores the seed and seeds all 64 lane generators from it, the logical number and the lane; RSD_INJECT_ARM arms the next result of an engine while the debug lock is open and nothing while it is closed; SYNC_CELL_WRITE reaches a spire with nothing under way as one cycle that stores the word in its kind's form and leaves every other register and memory, and a spire that runs a task as one update of its arrival cycle, which runs with it; HOLD_LIM_WRITE stores the limit and, where no hold has lasted it, nothing else; SYNC_HOLD_LIMIT_REACHED sets the cell's flag, counts it and marks the hold reached. So RNG_SEED_WRITE, RSD_INJECT_ARM, SYNC_CELL_WRITE, HOLD_LIM_WRITE and SYNC_HOLD_LIMIT_REACHED complete. (R57, R73, R215, R221, R234) -/
def Obligations.SpireRegisterRows : Prop :=
  ∀ (s : State) (site : Nat), InForm s →
    (∀ v : Word, ∃ t, exec (.rngSeedWrite site v) s = .next t ∧ t.reg (R.SPR_RNG_SEED site) = v ∧ (∀ l, l < 64 → (t.spire site).rngOf l = seedOf v (s.logical site) l) ∧
      (∀ x, x ≠ R.SPR_RNG_SEED site → t.reg x = s.reg x) ∧ t.mem = s.mem) ∧
    (∀ v e, s.fld R.SEC_STATE F.SEC_STATE_DEBUG_OPEN = 1 → fget (BitVec.ofNat 64 v) F.SPR_RSD_INJECT_ARM = 1 → fget (BitVec.ofNat 64 v) F.SPR_RSD_INJECT_ENGINE = e → e < 3 →
      ∃ t, exec (.rsdInjectArm site v) s = .next t ∧ (t.spire site).inject = some e ∧ t.regs = s.regs ∧ t.mem = s.mem) ∧
    (∀ v, s.fld R.SEC_STATE F.SEC_STATE_DEBUG_OPEN = 0 → exec (.rsdInjectArm site v) s = .next s) ∧
    (∀ c (v : Word), c < 48 → Quiet (s.spire site) → ∃ t, exec (.syncCellWrite site c v) s = .next t ∧ t.cell site c = cellForm v ∧ (t.spire site).cycle = s.arriveAt site + 1 ∧
      (∀ x, x ≠ R.SPR_SYNC_CELL site c → t.reg x = s.reg x) ∧ t.mem = s.mem) ∧
    (∀ c (v : Word), c < 48 → let t := s.arriveAt site
      let u : CellUpd := { due := t, cell := c, op := .host v, eng := 5, qpos := 0, remote := false, omod := 0, ospire := 0 }
      let w := ((s.runTo site t).modSpire site (fun p => { p with upds := p.upds ++ [u] })).runCycle site t true
      w.spState site = 1 ∨ w.spState site = 2 → exec (.syncCellWrite site c v) s = .next w) ∧
    (∀ v, (v % 2 ^ 32 = 0 ∨ (s.spire site).holds.all (fun h => h.reached || Nat.blt (s.spireNs site) (h.since + v % 2 ^ 32)) = true) →
      exec (.holdLimWrite site v) s = .next (s.setReg (R.SPR_SYNC_HOLD_LIM site) (BitVec.ofNat 64 (v % 2 ^ 32)))) ∧
    (∀ c eng h, (s.spire site).holds.find? (fun h => h.cell == c && h.eng == eng && !h.reached) = some h → (s.reg (R.SPR_SYNC_HOLD_LIM site)).toNat ≠ 0 →
      exec (.syncHoldLimitReached site c eng) s = .next (({ s with now := max s.now (h.since + (s.reg (R.SPR_SYNC_HOLD_LIM site)).toNat) } : State).holdReached site h))

/-- On a cell of its kind: additions raise COUNT, saturating at 65,535 with the cell's bit in SPR_SYNC_SATHI and SPR_SYNC_SATCNT counting; DEC lowers it, saturating at 0 with SATLO; FILL and DRAIN set FULL to 1 and 0; a release of the awaited generation lowers PEND by one; BARRIVE raises GEN and PEND; a host write stores the word in its kind's form. No other register changes but the counters named. (R215, R218, R219, R231, R232, R233) -/
def Obligations.CellUpdates : Prop :=
  ∀ (s : State) (site c : Nat), InForm s → c < 48 →
    let w := s.cell site c
    let n0 := fget w cCount
    let u : CellOp → CellUpd := fun op => { due := 0, cell := c, op := op, eng := 0, qpos := 0, remote := false, omod := 0, ospire := 0 }
    (fget w cKind = 0 → ∀ n,
      (n0 + n ≤ 0xFFFF → fget ((s.cellAdd site c n).cell site c) cCount = n0 + n ∧ (s.cellAdd site c n).reg (R.SPR_SYNC_SATHI site) = s.reg (R.SPR_SYNC_SATHI site)) ∧
      (0xFFFF < n0 + n → fget ((s.cellAdd site c n).cell site c) cCount = 0xFFFF ∧ (s.cellAdd site c n).reg (R.SPR_SYNC_SATHI site) = s.reg (R.SPR_SYNC_SATHI site) ||| BitVec.ofNat 64 (2 ^ c) ∧
        (s.cellAdd site c n).reg (R.SPR_SYNC_SATCNT site) = s.reg (R.SPR_SYNC_SATCNT site) + 1#64) ∧
      (fget ((s.applyUpd site 0 (u (.dec n))).cell site c) cCount = n0 - n ∧
        (n0 < n → (s.applyUpd site 0 (u (.dec n))).reg (R.SPR_SYNC_SATLO site) = s.reg (R.SPR_SYNC_SATLO site) ||| BitVec.ofNat 64 (2 ^ c))) ∧
      fget ((s.applyUpd site 0 (u .fill)).cell site c) cFull = 1 ∧ fget ((s.applyUpd site 0 (u .fill)).cell site c) cCount = n0 ∧
      fget ((s.applyUpd site 0 (u .drain)).cell site c) cFull = 0 ∧ fget ((s.applyUpd site 0 (u .drain)).cell site c) cCount = n0) ∧
    (fget w cKind = 2 →
      (∀ g, fget w cPend ≠ 0 → g = (fget w cGen + 4 - fget w cPend) % 4 → fget ((s.applyUpd site 0 (u (.release g))).cell site c) cPend = fget w cPend - 1) ∧
      fget ((s.applyUpd site 0 (u .barrive)).cell site c) cGen = (fget w cGen + 1) % 4 ∧ fget ((s.applyUpd site 0 (u .barrive)).cell site c) cPend = (fget w cPend + 1) % 4) ∧
    (∀ v : Word, (s.applyUpd site 0 (u (.host v))).cell site c = cellForm v ∧ ∀ x, x ≠ R.SPR_SYNC_CELL site c → (s.applyUpd site 0 (u (.host v))).reg x = s.reg x)

/-- A remote ADD or FILL, a barrier arrival or a barrier release that reaches a FENCED spire is dropped and counted in SPR_SYNC_DROP and changes nothing else; at any other spire it is one update in its arrival cycle, and that cycle runs with it; where nothing else is under way in the spire, an ADD raises COUNT, a FILL sets FULL, an arrival of the current generation that does not close the round counts in COUNT, a release of the awaited generation lowers PEND by one, SPR_SYNC_SIGIN counts it, and no other register and no memory changes. Each row carries only the operations it names. So REMOTE_SIGNAL_ARRIVAL, BARRIER_ARRIVAL and BARRIER_RELEASE complete. (R225, R226, R227, R229, R230, R232, R233) -/
def Obligations.SignalArrivals : Prop :=
  ∀ (s : State) (site : Nat) (p : SigPay) (c : Instr), InForm s → (c = .remoteSignalArrival site p ∧ p.op < 2) ∨ (c = .barrierArrival site p ∧ p.op = 2) ∨ (c = .barrierRelease site p ∧ p.op = 3) →
    (s.spState site = 6 → exec c s = .next (s.bump (R.SPR_SYNC_DROP site))) ∧
    (s.spState site ≠ 6 → let t := s.arriveAt site
      let u : CellUpd := { due := t, cell := p.cell, op := sigUpd p, eng := 4, qpos := 0, remote := true, omod := p.origModule, ospire := p.origSpire }
      let v := ((s.runTo site t).modSpire site (fun x => { x with upds := x.upds ++ [u] })).runCycle site t true
      exec c s = .next (if v.spState site = 1 ∨ v.spState site = 2 then v else v.settleCells site)) ∧
    (s.spState site ≠ 6 → Quiet (s.spire site) → p.cell < 48 →
      let w := s.cell site p.cell
      let into := fun (x : Word) => ∃ t : State, exec c s = .next t ∧ t.cell site p.cell = cellForm x ∧ (t.spire site).upds = [] ∧ t.mem = s.mem ∧
        ∀ o, o ≠ R.SPR_SYNC_CELL site p.cell → t.reg o = if o = R.SPR_SYNC_SIGIN site then (s.bump (R.SPR_SYNC_SIGIN site)).reg o else s.reg o
      (p.op = 0 → fget w cKind = 0 → fget w cCount + p.n ≤ 0xFFFF → into (fset w cCount (fget w cCount + p.n))) ∧
      (p.op = 1 → fget w cKind = 0 → into (fset w cFull 1)) ∧
      (p.op = 2 → fget w cKind = 1 → p.gen = fget w cGen → fget w cTarget ≠ 0 → fget w cCount + 1 ≠ fget w cTarget → into (fset w cCount (fget w cCount + 1))) ∧
      (p.op = 3 → fget w cKind = 2 → fget w cPend ≠ 0 → p.gen = (fget w cGen + 4 - fget w cPend) % 4 → into (fset w cPend (fget w cPend - 1))))

/-- A fetch brings instructions to a running engine's queue up to its depth and the stream's end, and past the end raises ADDRESS; a row of a load that has arrived is held; an operation whose rows are all held, or whose writes are all acknowledged, lands whole in a cycle of its own with what else lands then, leaves the list and fires its signal, and where nothing else is under way it is its writes; a walk that finds a page caches its translation (64 at most, the oldest out) and the requests that waited for it go on, one that finds none or a bad one raises TRANSLATION or ADDRESS at the lowest row that waits; a page fault not resolved within the limit becomes ADDRESS, of a mover, of a graph's node or of a collective; a trained stream with room and slots prefetches its next barge, or drops it and counts that where its translation does not allow it; a prefetched barge goes to L1 as a response. So INSTRUCTION_FETCH_RETURN, GLOBAL_ROW_ARRIVAL, MOVER_ASYNC_LANDING, TRANSLATION_WALK_COMPLETE, XLT_RESOLVE_TIMEOUT, PREFETCH_ISSUE and PREFETCH_ARRIVAL complete. (R74, R76, R87, R123, R183, R253, R254, R260, R262) -/
def Obligations.MoverProgress : Prop :=
  ∀ (s : State) (site : Nat), let p := s.spire site
    (∀ e n, let x := p.eng e
      (∀ t, s.taskAt site = some t → let extent := (Config.streamExtent t.program (engNo e)).toNat
        (x.st = .run ∨ x.st = .wait ∨ x.st = .transl → ¬ (x.queue = 0 ∧ extent ≤ x.pc) →
          let depth := match e with | .matrix => 16 | .vector => 64 | .mover => 32 | .seq => 32
          ∃ u, exec (.instructionFetchReturn site e n) s = .next u ∧ (u.spire site).eng e = { x with queue := min depth (x.queue + min n (extent - x.pc - x.queue)) } ∧ u.regs = s.regs ∧ u.mem = s.mem) ∧
        (x.st = .run → x.queue = 0 → extent ≤ x.pc → exec (.instructionFetchReturn site e n) s = .next (s.spireFault site clAddress (engNo e) 0 x.qpos 0))) ∧
      (x.st = .idle ∨ x.st = .ended ∨ x.st = .stop → exec (.instructionFetchReturn site e n) s = .next s)) ∧
    (∀ a seq row, p.mover.ops = [a] → a.seq = seq → a.op.isStore = false → a.rowHere row = true → a.rows.contains row = false →
      ∃ u, exec (.globalRowArrival site seq row) s = .next u ∧ (u.spire site).mover.ops = [{ a with rows := a.rows ++ [row], buf := a.buf ++ [(row, a.rowBytes row)] }] ∧ u.regs = s.regs ∧ u.mem = s.mem) ∧
    (∀ a, p.mover.ops.find? (fun x => x.seq == a.seq) = some a → a.complete = true → p.earlierIter a = false →
      let c := max (p.cycle + 1) (s.cycleAt site s.now)
      let rows := fun (i : Nat) => ((a.buf.find? (fun (b : Nat × List Byte) => b.1 == i)).map Prod.snd).getD []
      let ws := if a.op.isStore then [] else a.op.loadWrites ((List.range a.op.rows).map rows) (if a.op.scaleRowBytes = 0 then [] else (List.range 32).map (fun i => rows (32 + i)))
      let l : Landing := { due := c, seq := a.seq, eng := 3, qpos := a.op.qpos, sig := a.op.sig, flags := 0, ac := 0, ctxs := 0, mov := none, writes := ws, iter := a.op.iter, haz := a.op.haz, trap := a.op.trap }
      exec (.moverAsyncLanding site a.seq) s = .next (((s.modSpire site (fun p => { p with landings := p.landings ++ [l], mover := { p.mover with ops := p.mover.ops.filter (fun x => x.seq != a.seq) } })).runTo site c).wake site c) ∧
      (Quiet { p with mover := { p.mover with ops := [] } } → p.mover.ops = [a] → a.op.sig = none →
        exec (.moverAsyncLanding site a.seq) s = .next ((s.setSpire site { p.stand c with mover := { p.mover with ops := [] } }).applyWrs site ws))) ∧
    (s.reach site = s → ∀ a r seq barge, p.mover.ops.findSome? (fun a => if a.seq = seq then (a.reqs.find? (fun r => r.barge == barge && r.st == .walking)).map (fun r => (a, r)) else none) = some (a, r) →
      let low := a.lowRow (a.reqs.filter (fun r => r.st == .walking && r.barge / 65536 == barge / 65536)) (fun _ => true)
      (∀ x, s.walk (s.xltRoot site) barge = .page x → exec (.translationWalkComplete site seq barge) s = .next ((s.modMover site (fun m => { m with
          xlt := (m.xlt ++ [x]).drop (m.xlt.length + 1 - 64),
          ops := m.ops.map (fun o => { o with reqs := o.reqs.map (fun q => if q.st = .walking ∧ x.va ≤ q.barge ∧ q.barge < x.va + x.size then { q with st := .way } else q) }) })).pump site)) ∧
      (∀ migr, s.walk (s.xltRoot site) barge = .missing migr → exec (.translationWalkComplete site seq barge) s = .next (s.moverTranslation site a.seq low.1 low.2 migr)) ∧
      (s.walk (s.xltRoot site) barge = .bad → exec (.translationWalkComplete site seq barge) s = .next (s.moverAddress site a.seq low.1 low.2))) ∧
    (∀ t, p.mover.faultAt = some t → s.fld (R.SPR_LOOP_FAULT site) F.SPR_LOOP_FAULT_VALID = 0 → ∃ u : State, exec (.xltResolveTimeout (.site site)) s = .next (u.spireFault site clAddress 3 (s.fld (R.SPR_FAULT site) F.SPR_FAULT_ROW) (s.fld (R.SPR_FAULT site) F.SPR_FAULT_QPOS) (s.reg (R.SPR_FAULT_ADDR site)).toNat) ∧
      u.now = max s.now (t + 1000 * (s.reg R.GLB_XLT_RESOLVE_LIM).toNat) ∧ (u.spire site).mover.abandoned = [] ∧ (u.spire site).mover.faultAt = none) ∧
    (∀ g k x n, tfind s.graphs g = some x → x.nodes[k]? = some n → n.asked = true → n.st = .wait → exec (.xltResolveTimeout (.node g k)) s = .next ((s.resolveLimit n.askedAt).failNode g k (predAddr n.pred))) ∧
    (∀ q c, s.collAt q = some c → c.pageWait.isSome = true → exec (.xltResolveTimeout (.coll q)) s = .next ((s.resolveLimit c.pageAt).collAddressFault q)) ∧
    (s.reach site = s → ∀ k x, p.mover.streams[k]? = some x → x.trained = true → x.up = true → s.fld (R.SPR_MEM_CTL site) F.SPR_MEM_CTL_PF_EN = 1 → 1 ≤ (x.next - x.last) / 512 →
      (x.next - x.last) / 512 ≤ max 1 (min 16 (s.fld (R.SPR_MEM_CTL site) F.SPR_MEM_CTL_PF_DEPTH)) → max 1 (min 40 (s.fld (R.SPR_MEM_CTL site) F.SPR_MEM_CTL_PF_RESERVE)) ≤ 40 - p.slots →
      let on := fun (u : State) => (u.modMover site (fun m => { m with streams := m.streams.mapIdx (fun i y => if i = k then { y with next := if y.up then y.next + 512 else y.next - 512 } else y) })).noteSlots site
      (∀ phys, s.prefetchTo site x.next = some phys → p.wayFree phys = true → exec (.prefetchIssue site k) s = .next (on (s.prefetchAt site x.next phys))) ∧
      (s.prefetchTo site x.next = none → exec (.prefetchIssue site k) s = .next (on (s.bump (R.SPR_PF_DROP site))))) ∧
    (∀ q : CPkt, s.canal.arrived.contains q = true → q.typ = 2 → (s.spire q.dest).mover.pre.any (fun x => x.tag == q.tag) = true → exec (.prefetchArrival q) s = .next ((s.takeArrived q).readData q))

/-- INSTRUCTION_LANDING applies the landing that is next, with its flags, writes and signal, in its cycle, and a stopping spire with none left is PAUSED; a result whose residue does not match lands nothing and is a residue fault; an uncorrectable error of an on-die memory is counted and raises cause 0x0206. Once its gang is held and its engines are idle, SPIRE_START starts all four engines of a spire in one cycle; SPIRE_FINISHED on a spire whose engines have ended with nothing outstanding makes it ENDING and notes it in its task; TASK_COMPLETION ends a task whose whole gang has finished, or whose fault has quiesced, and does nothing before; TASK_WATCHDOG_EXPIRY records TIMEOUT on every spire that has not finished and raises the job fault. So INSTRUCTION_LANDING, SPIRE_START, SPIRE_FINISHED, TASK_COMPLETION and TASK_WATCHDOG_EXPIRY complete. (R77, R95, R96, R97, R98, R100, R102, R487, R585) -/
def Obligations.TaskEvents : Prop :=
  ∀ (s : State), 
    (∀ site, s.spState site = 1 → s.gangHeld site = true → allEngines.all (fun e => ((s.spire site).eng e).st == .idle) = true →
      let c := max (s.spire site).cycle (s.cycleAt site s.now)
      ∃ t, exec (.spireStart site) s = .next t ∧ (∀ e, ((t.spire site).eng e).st = .run ∧ ((t.spire site).eng e).free = c) ∧ (t.spire site).cycle = c ∧ t.regs = s.regs ∧ t.mem = s.mem) ∧
    (∀ site t, s.taskAt site = some t → s.spState site = 1 ∨ s.spState site = 2 ∨ s.spState site = 3 → s.spireDone site = true → t.finished.contains site = false →
      let u := s.settleCells site
      exec (.spireFinished site) s = .next ((({ u with now := u.spireNs site } : State).setSpState site 5).setTask { t with finished := t.finished ++ [site] }) ∧ ((s.spire site).upds = [] → u = s)) ∧
    (∀ handle t, tfind s.tasks handle = some t →
      ((t.gang.all t.finished.contains = true ∨ (t.fault ≠ none ∧ s.quiesced t = true)) → exec (.taskCompletion handle) s = .next (s.endTask t)) ∧
      (t.gang.all t.finished.contains = false → t.fault = none → exec (.taskCompletion handle) s = .next s)) ∧
    (∀ handle t i r, tfind s.tasks handle = some t → t.limit ≠ 0 → t.gang.filter (fun i => !t.finished.contains i) = i :: r →
      let u := (i :: r).foldl (fun s i => s.abortSpire i 8) ({ s with now := max s.now (t.start + 1000 * t.limit) } : State)
      exec (.taskWatchdogExpiry handle) s = .next (u.raise 0x0201 2 i 0 (u.reg (R.SPR_FAULT i)).toNat (u.reg (R.SPR_FAULT_ADDR i)).toNat)) ∧
    (∀ site l, let p := s.spire site
      p.landings = [l] → Quiet { p with landings := [] } → p.cycle ≤ l.due →
      let at_ := fun (l : Landing) => .next (((s.setSpire site { p.stand l.due with landings := [] }).land site l.due l).settlePause site)
      exec (.instructionLanding site .quiet) s = at_ l ∧
      (l.eng < 3 → ∀ row col point x o, exec (.instructionLanding site (.residue row col point x o)) s = at_ { l with rsd := some { row := row, col := col, point := point, expected := x, observed := o }, bad := true })) ∧
    (∀ site c l, (l.rsd = none ∨ (l.bad = false ∧ (s.spire site).inject ≠ some l.eng)) → l.writes.all (fun w => match w with | .desc _ _ _ => false | _ => true) = true →
      let u := (s.orFlags site l.flags).applyWrs site l.writes
      (l.sig = none → s.land site c l = u) ∧
      (∀ g, l.sig = some g → s.land site c l = u.modSpire site (fun p => { p with upds := p.upds ++ [{ due := c, cell := g.cell, op := sigOp g, eng := l.eng, qpos := l.qpos, remote := false, omod := 0, ospire := 0, iter := l.iter }] }))) ∧
    (∀ site c l r, l.rsd = some r → l.bad = true → l.ctxs = 0 → s.land site c l = (s.orFlags site l.flags).residueFault site l r) ∧
    (∀ site k, k ≠ 6 → exec (.instructionLanding site (.sram k)) s = .next ((s.bump (R.TWR_UE_COUNT (4 * domeOf site + reachOf site / 2))).raise3 0x0206 2 site site k)) ∧
    (∀ site, s.spState site = 2 → Quiet (s.spire site) → s.taskAt site = none → exec (.instructionLanding site .quiet) s = .next (s.setSpState site 3))

/-- A read that a slice serves in its turn is answered with the whole barge as the requester's epoch sees it, one at a retired location with STATUS 2; one at a site, which runs to the cycle of its arrival, with the site's bytes or, where the site does not take it in, STATUS 1; one at port H1 is tracked there with its place among the expanders. A site takes a packet in while it is up, and one that was in its queue as it was fenced. A response goes to the source with the request's tag in class TC1, into the lock at the slice's crossbar port or behind what waits for that lock; taking a packet up frees its buffer and changes no register and no byte. RD_DATA goes to the request that waits for it, CFG is answered, CFG_RSP is taken up. So RD, RD_DATA, CFG and CFG_RSP complete. (R243, R250, R267, R303, R308, R321, R325, R583) -/
def Obligations.CanalReads : Prop :=
  ∀ (s : State) (p : CPkt), let u := s.takeArrived p
    let a := p.addr / 512 * 512
    (Served s p 1 →
      (p.dkind = 1 → s.channelHeld p = false → let v := (s.sliceTakes p).takeArrived p
        exec (.rd p) s = .next (if s.retired a then (v.retiredHit a p.reqKind).respond p 2 8 2 [] else v.respond p 2 8 0 (s.readBarge p.spec a))) ∧
      (p.dkind = 0 → s.quiescent = false → let v := s.reachSite p.dest
        exec (.rd p) s = .next (if s.takesIn p.dest p then (v.takeArrived p).respond p 2 8 0 (v.load a 512) else u.respond p 2 8 1 [])) ∧
      (p.dkind = 3 → p.dest = 3 → s.far.failed = false → s.retired a = false → s.far.reqs.length < 384 →
        ∃ t, exec (.rd p) s = .next t ∧ t.far.reqs = s.far.reqs ++ [{ pkt := p, since := s.now, at_ := s.farPlace a }] ∧ t.canal.arrived = s.canal.arrived.erase p ∧ t.mem = s.mem ∧ t.regs = s.regs)) ∧
    (s.canal.arrived.contains p = true →
      (p.typ = 2 → exec (.rdData p) s = .next (if p.dkind = 0 then u.readData p else u)) ∧
      (p.typ = 9 → p.dkind = 0 → exec (.cfg p) s = .next (u.respond p 10 (if p.len = 0 then 1 else 0) (if s.takesIn p.dest p then 0 else 1) [])) ∧
      (p.typ = 10 → exec (.cfgRsp p) s = .next u) ∧
      u.canal.arrived = s.canal.arrived.erase p ∧ u.canal.before = s.canal.before.erase p ∧ u.canal.inq = s.canal.inq ∧ u.mem = s.mem ∧ u.regs = s.regs ∧ u.spires = s.spires) ∧
    (∀ site, s.takesIn site p = true ↔ s.siteUp site = true ∨ p ∈ s.canal.before) ∧
    (p.dkind = 1 → ∀ (v : State) typ len status data, ∃ r : CPkt, let site := (v.target (p.dest / 16 / 8) p).1
      let t := v.respond p typ len status data
      r.tc = 1 ∧ r.typ = typ ∧ r.dest = p.src ∧ r.tag = p.tag ∧ r.status = status ∧ r.data = data ∧ r.len = len ∧
      (v.outbox (qKey site 5 1) = [] → v.lockRoom site 5 r = true → t.inq site 5 1 = v.inq site 5 1 ++ [r]) ∧
      (v.outbox (qKey site 5 1) ≠ [] ∨ v.lockRoom site 5 r = false → t.outbox (qKey site 5 1) = v.outbox (qKey site 5 1) ++ [r] ∧ t.canal.inq = v.canal.inq) ∧
      t.mem = v.mem ∧ t.canal.arrived = v.canal.arrived ∧ t.spires = v.spires)

/-- A committed write that a slice serves in its turn is applied to its quarters and acknowledged; with no mirror close and no capture under way, a whole-barge write leaves the barge's 512 bytes as the packet's data and every other byte as it was. A write whose chunk a close or capture has yet to read waits; a speculative one is held by its epoch. A write at a site lands where the site takes it in, after what the site does up to its arrival, and is acknowledged with STATUS 1 where it is not. WR_ACK and CANAL_SIG_ACK reach the engine that waits; CANAL_SIG is applied at its site and acknowledged. So WR, WR_ACK, CANAL_SIG and CANAL_SIG_ACK complete. (R222, R226, R230, R243, R247, R250, R266, R268, R321, R376) -/
def Obligations.CanalWrites : Prop :=
  ∀ (s : State) (p : CPkt), let u := s.takeArrived p
    let v := (s.sliceTakes p).takeArrived p
    let a := p.addr / 512 * 512
    (Served s p 3 →
      (p.dkind = 1 → s.channelHeld p = false → s.retired a = false → p.spec = 0 →
        exec (.wr p) s = .next ((v.commitQuarters (s.wrQuarters p 0)).ackWrite p 0) ∧
        (InForm s → s.mirror.c = [] → s.bsn.capture = none → p.len = 8 → p.qmask = 15 → p.data.length = 512 → ∃ t, exec (.wr p) s = .next t ∧ ∀ x,
          Memory.readByte t.mem x = if a ≤ x ∧ x < a + 512 then p.data.getD (x - a) 0#8 else Memory.readByte s.mem x)) ∧
      (p.dkind = 1 → s.channelHeld p = false → s.retired a = false → p.spec ≠ 0 → s.epState (p.spec - 1) = 1 ∨ s.epState (p.spec - 1) = 2 → ∀ sp, s.heldRoom (p.spec - 1) a = some sp →
        exec (.wr p) s = .next ((v.holdWrite (p.spec - 1) a sp (s.wrQuarters p p.spec)).ackWrite p 0) ∧ (v.holdWrite (p.spec - 1) a sp (s.wrQuarters p p.spec)).mem = s.mem) ∧
      (p.dkind = 0 → s.quiescent = false → let w := s.reachSite p.dest
        exec (.wr p) s = .next (if s.takesIn p.dest p then ((w.takeArrived p).commitQuarters (w.wrQuarters p 0)).ackWrite p 0 else u.ackWrite p 1))) ∧
    (s.mayServe p = true → p.typ = 3 → p.dkind = 1 → s.channelHeld p = false → s.retired a = false → p.spec = 0 → ∀ c, s.heldChunk a 512 = some c → exec (.wr p) s = .next (s.noteHeld c)) ∧
    (s.canal.arrived.contains p = true → p.typ = 4 → exec (.wrAck p) s = .next (if p.dkind = 0 then u.writeAck p else u)) ∧
    (Arrived s p 5 → p.dkind = 0 → exec (.canalSig p) s = .next ((u.signalNow p.dest p.sig (s.canal.before.contains p)).2.respond p 6 0 0 [])) ∧
    (s.canal.arrived.contains p = true → p.typ = 6 → exec (.canalSigAck p) s = .next (if p.dkind = 0 then u.sigAcked p.dest p.tag else u)) ∧
    (∀ site tag, let x := ((s.spire site).eng (engOf tag)).out
      tag < 5 → ((s.sigDone site tag).spire site).eng (engOf tag) = { (s.spire site).eng (engOf tag) with out := x - 1 })

/-- At an output whose turn is a class that offers a packet, with credit for the whole of it and a deficit (with the quantum, read when the round began, at the beginning of the turn) of at least its length: PACKET_FORWARD hands exactly that packet over, whole, lowers the deficit by its length, moves the input turn on, and frees the entry it left; corrected words are counted where it is received, an uncorrectable one raises its error; an output that no class can use changes no packet. CREDIT_RETURN gives the sender the flits freed, and none twice, and a packet that the full lock held enters it; what an aqueduct receiver holds then goes on where its next router has credit. So PACKET_FORWARD and CREDIT_RETURN complete. (R325, R326, R327, R342) -/
def Obligations.CanalForwarding : Prop :=
  (∀ (s : State) (site out tc i : Nat) (p : CPkt), let key := qKey site out tc
    let v := tget (fun _ => 0) s.canal.serving (site * 8 + out)
    let b := s.beginRound site out
    let d := tget (fun _ => 0) s.canal.deficit key + (if v % 2 = 0 then b.quantum site out tc else 0)
    let h := s.hopOf site out p
    v / 2 % 4 = tc → pickTurn (tget (fun _ => 0) s.canal.turn key) (s.offers site out tc) = some (i, p) → s.hasCredit h p = true → p.flits ≤ d →
    let u := ({ b with canal := { b.canal with serving := tset (fun _ => 0) s.canal.serving (site * 8 + out) (tc * 2 + 1), turn := tset (fun _ => 0) s.canal.turn key (i + 1) } } : State)
    (v = 0 → b.canal.quanta = tset (fun _ => 0) s.canal.quanta (site * 8 + out) (s.reg (R.CNL_ARB_QUANTUM (domeOf site))).toNat) ∧ (v ≠ 0 → b = s) ∧
    let t := ((u.setDeficit site out tc (d - p.flits)).handOver h p).afterSend site out i p
    exec (.packetForward site out .clean) s = .next t ∧
    (∀ n, exec (.packetForward site out (.corrected n)) s = .next (t.bump (R.CNL_CORR (domeOf (s.hopEnd site out p).1)) n)) ∧
    exec (.packetForward site out .uncorrectable) s = .next (s.canalUe (s.hopEnd site out p).1 (s.hopEnd site out p).2) ∧
    (∀ n q, h = .router n q → ((u.setDeficit site out tc (d - p.flits)).handOver h p).inq n q p.tc = s.inq n q p.tc ++ [p]) ∧
    (∀ n q, h = .deliver n q → p.dkind ≠ 2 → ((u.setDeficit site out tc (d - p.flits)).handOver h p).canal.arrived = s.canal.arrived ++ [p])) ∧
  (∀ (s : State) (site out : Nat) (w : HopWords), (∀ tc, tc < 4 → s.offers site out tc = []) → ∃ t, exec (.packetForward site out w) s = .next t ∧ t.canal.inq = s.canal.inq ∧ t.canal.arrived = s.canal.arrived ∧ t.canal.forks = s.canal.forks ∧ t.mem = s.mem ∧ t.regs = s.regs) ∧
  (∀ (s : State) (site port tc : Nat), let k := qKey site port tc
    twf (fun _ => 0) s.canal.used → twf (fun _ => 0) s.canal.freed → twf (fun _ => ([] : List CPkt)) s.canal.outbox → ∃ t : State, exec (.creditReturn site port tc) s = .next (t.aq.recv.foldl (fun (s : State) x => s.drainChannel x.1) t) ∧ t.aq = s.aq ∧
      (∀ x, tget (fun _ => 0) t.canal.freed x = if x = k then 0 else tget (fun _ => 0) s.canal.freed x) ∧ t.mem = s.mem ∧
      (s.outbox k = [] → t.regs = s.regs ∧ ∀ x, tget (fun _ => 0) t.canal.used x = if x = k then tget (fun _ => 0) s.canal.used k - tget (fun _ => 0) s.canal.freed k else tget (fun _ => 0) s.canal.used x) ∧
      (∀ p, s.outbox k = [p] → p.tc = tc → tget (fun _ => 0) s.canal.used k - tget (fun _ => 0) s.canal.freed k + p.flits ≤ qDepth tc → t.outbox k = [] ∧ t.inq site port tc = s.inq site port tc ++ [p] ∧
        tget (fun _ => 0) t.canal.used k = tget (fun _ => 0) s.canal.used k - tget (fun _ => 0) s.canal.freed k + p.flits)) ∧
  (∀ (s : State) (k : Nat) (p : CPkt), let h := s.aqExit (1 - k / 64) p
    s.recv k = [p] → (s.hasCredit h p = true → s.drainChannel k = (s.setRecv k []).handOver h p) ∧ (s.hasCredit h p = false → s.drainChannel k = s))

/-- A multicast packet at a tree router with a free entry of the 32 forks into the branches of its group's mask, and waits, counted, when all 32 are in use; a copy that arrives is delivered and acknowledged. With its last branch acknowledged a fork's entry is freed and one acknowledgement goes up. A branch that waits for credit for TIMEOUT is recorded in CNL_MC_STUCK with REASON 1, counted and reported; one that needs a lost aqueduct direction, or whose next hop reads 0xF, with REASON 2, as a job fault. A packet crosses a working direction whole where the receiver of its channel has room for it, is counted, its corrected words with it, and leaves the far crossbar where it has credit; while there is no room it waits, counted; a bad frame is a replay, and what is to be replayed crosses first. So MC, MC_ACK, MC_BRANCH_TIMEOUT and AQUEDUCT_FLIT_RECEIVE complete. (R333, R334, R335, R336, R337, R339, R340, R341, R346) -/
def Obligations.MulticastAndAqueduct : Prop :=
  ∀ (s : State) (site : Nat),
    (∀ port tc p r g, s.inq site port tc = p :: r → p.dkind = 2 → (p.tree = true ∨ (s.target (domeOf site) p).1 = site) →
      (s.forksAt site).any (fun f => f.inPort == port && f.pkt.tc == tc && f.toSend != []) = false →
      (32 ≤ (s.forksAt site).length → exec (.mc site (.input port tc)) s = .next (s.bump (R.CNL_FORK_WAIT (domeOf site)))) ∧
      (let ports := s.forkPorts g site (p.tree && port == 5);
        (s.forksAt site).length < 32 → tfind s.groups p.dest = some g → ports ≠ [] → g.root (domeOf site) ≠ some site →
        ∃ t, exec (.mc site (.input port tc)) s = .next t ∧ t.forksAt site = s.forksAt site ++ [{ pkt := p, inPort := port, toSend := ports, toAck := ports, since := s.now, reported := [], first := !p.tree }] ∧
          t.canal.inq = s.canal.inq ∧ t.regs = s.regs ∧ t.mem = s.mem)) ∧
    (∀ p, s.canal.arrived.find? (fun p => p.typ == 7 && p.dkind == 0 && p.dest == site) = some p → exec (.mc site .deliver) s = .next (s.deliverCopy site p)) ∧
    (∀ port src tag f, s.canal.acks.contains (site, port, src, tag) = true → (s.forksAt site) = [f] → f.pkt.srcKey = src → f.pkt.tag = tag → f.toAck = [port] → f.toSend = [] → f.first = false →
      ∀ n q, s.upstream site f = some (n, q) → ∃ t, exec (.mcAck (.router site port src tag)) s = .next t ∧ t.canal.forks = terase s.canal.forks site ∧ t.canal.acks = s.canal.acks.erase (site, port, src, tag) ++ [(n, q, src, tag)] ∧ t.regs = s.regs ∧ t.mem = s.mem) ∧
    (∀ p, s.canal.arrived.contains p = true → p.typ = 8 → p.dkind = 0 → exec (.mcAck (.source p)) s = .next ((s.takeArrived p).sigAcked p.dest p.tag)) ∧
    (∀ port f, let d := domeOf site;
      (s.forksAt site).find? (fun f => f.toSend.contains port && !f.reported.contains port) = some f →
      let dead := (port == 6 && s.aq.lost.contains d) || port == 0xF
      let lim := s.fld (R.CNL_MC_CTL d) F.CNL_MC_CTL_TIMEOUT
      let rec_ := fun (v : State) (reason : Nat) => (v.setForks site ((s.forksAt site).map (fun x => if x = f then { x with reported := x.reported ++ [port] } else x))).record (R.CNL_MC_STUCK d) F.CNL_MC_STUCK_VALID F.CNL_MC_STUCK_MORE
        [(F.CNL_MC_STUCK_REASON, reason), (F.CNL_MC_STUCK_CLASS, f.pkt.tc), (F.CNL_MC_STUCK_GROUP, f.pkt.dest), (F.CNL_MC_STUCK_PORT, port), (F.CNL_MC_STUCK_SITE, site), (F.CNL_MC_STUCK_TIME, v.stamp)]
      (dead = true → let v := rec_ s 2
        exec (.mcBranchTimeout site port) s = .next (v.raise 0x0502 5 d 0 (v.reg (R.CNL_MC_STUCK d)).toNat 0)) ∧
      (dead = false → lim ≠ 0 → let v := (rec_ { s with now := max s.now (f.since + lim) } 1).bump (R.CNL_MC_STUCKCNT d)
        exec (.mcBranchTimeout site port) s = .next ((v.note 0x0501 0 5 d (v.reg (R.CNL_MC_STUCK d)).toNat 0).event .mcStuck 5 d [f.pkt.dest, site, 1]))) ∧
    (∀ dir ch, dir ≤ 1 → s.aqState dir = 2 → let k := dir * 64 + ch
      let goes := fun (v : State) (f : State → State) => (exec (.aqueductFlitReceive dir ch .good) s = .next (f v) ∧ ∀ w, exec (.aqueductFlitReceive dir ch (.corrected w)) s = .next (f (v.bump (aqCtr R.CNL_AQ_CORR_WE dir) w)) : Prop)
      (∀ p r, s.aqReplays k = p :: r → goes s (fun v => (v.setReplays k r).aqArrive dir ch p) ∧ exec (.aqueductFlitReceive dir ch .bad) s = .next (s.aqReplay dir ch)) ∧
      (∀ n p, s.aqReplays k = [] → s.aqNext dir ch = some (n, p) → let gone := fun (v : State) => ({ v with aq := { v.aq with held := v.aq.held.erase (n, p) } } : State).freeFlits n 6 p.tc p.flits
        goes s (fun v => (gone v).aqArrive dir ch p) ∧ exec (.aqueductFlitReceive dir ch .bad) s = .next (((gone s).setReplays k [p]).aqReplay dir ch)) ∧
      (∀ r, s.aqReplays k = [] → s.aqNext dir ch = none → exec (.aqueductFlitReceive dir ch r) s = .next (if s.aqWaits dir ch then s.bump (aqCtr R.CNL_AQ_CREDIT_WAIT_WE dir) else s)) ∧
      (∀ p, let t := s.aqArrive dir ch p
        let h := s.aqExit (1 - k / 64) p
        t.regs = (s.bump (aqCtr R.CNL_AQ_FLITS_WE dir) p.flits).regs ∧ t.mem = s.mem ∧ t.aq.held = s.aq.held ∧ t.aq.replay = s.aq.replay ∧
        (twf (fun _ => 0) s.aq.rxSeq → tget (fun _ => 0) t.aq.rxSeq k = (tget (fun _ => 0) s.aq.rxSeq k + p.flits) % 128) ∧
        (s.recv k = [] → (s.hasCredit h p = false → t.recv k = [p] ∧ t.canal = s.canal) ∧ (∀ n q, h = .router n q → s.hasCredit h p = true → t.inq n q p.tc = s.inq n q p.tc ++ [p]))) ∧
      (let t := s.aqReplay dir ch;
        t.mem = s.mem ∧ t.aq.held = s.aq.held ∧ (s.fld R.CNL_AQ_CTL F.CNL_AQ_CTL_RETRY_LIM = 0 → t.regs = (s.bump (aqCtr R.CNL_AQ_RETRY_WE dir)).regs)))

/-- Each row moves LNK_STATUS.STATE as R358 says from the state it applies in, at the limit's time where it is a limit: enable to TRAIN, disable to DISABLED, RETRAIN from ACTIVE (counted, and with REASON 1 recorded at the retry limit: log entry 132) and TRAIN from FAILED or MISWIRED, TRAIN to ALIGN, ALIGN to IDENT with the IDENT packet sent, as in RETRAIN, the limits of TRAIN, ALIGN (after three tries) and RETRAIN to FAILED with their REASON, that of IDENT back to TRAIN; a matching IDENT brings the link to ACTIVE, after which what waited for a link goes on, and after a RETRAIN is recorded; another leaves it MISWIRED with REASON 5. A first failure is recorded in LNK_ERR. So LINK_RETRAIN_REQUEST, LINK_ALIGN_COMPLETE, LINK_TRAIN_TIMEOUT, LINK_ALIGN_TIMEOUT, LINK_RETRAIN_TIMEOUT and IDENT complete. (R357, R358, R359, R381) -/
def Obligations.LinkBringUp : Prop :=
  ∀ (s : State) (n : Nat), InForm s →
    let goes := fun (c : Instr) (st : Nat) => ∃ t, exec c s = .next t ∧ t.linkState n = st ∧ t.mem = s.mem ∧ t.spires = s.spires ∧ ∀ x, x ≠ R.LNK_STATUS n → x ≠ R.LNK_CTL n → x ≠ R.LNK_RETRAINS n → t.reg x = s.reg x
    (s.linkState n = 0 → goes (.linkEnableWrite n true) 1) ∧
    goes (.linkEnableWrite n false) 0 ∧
    (s.linkState n = 4 → goes (.linkRetrainRequest n) 5 ∧ ∃ t, exec (.linkRetrainRequest n) s = .next t ∧ t.reg (R.LNK_RETRAINS n) = s.reg (R.LNK_RETRAINS n) + 1#64) ∧
    (s.linkState n = 6 ∨ s.linkState n = 7 → goes (.linkRetrainRequest n) 1) ∧
    (s.linkState n = 4 → s.fld (R.LNK_CTL n) F.LNK_CTL_RETRY_LIM ≠ 0 → s.fld (R.LNK_CTL n) F.LNK_CTL_RETRY_LIM ≤ (s.link n).winCount → exec (.linkRetryLimit n) s = .next ((s.linkErr n 1).enterRetrain n) ∧ ((s.linkErr n 1).enterRetrain n).linkState n = 5) ∧
    (s.linkState n = 1 → goes (.linkTrainingComplete n) 2) ∧
    (s.linkState n = 2 ∨ s.linkState n = 5 → ∃ t f, exec (.linkAlignComplete n) s = .next t ∧ t.linkState n = (if s.linkState n = 2 then 3 else 5) ∧ t.pod.io.sent = s.pod.io.sent ++ [(n, f)] ∧
      f.body = .packet 0 0 [s.lpkt 0 0 0 (s.identBody n)] ∧ t.mem = s.mem ∧ t.spires = s.spires ∧ ∀ x, x ≠ R.LNK_STATUS n → x ≠ R.LNK_TX_FRAMES n → t.reg x = s.reg x) ∧
    (s.linkState n = 1 → exec (.linkTrainTimeout n) s = .next (({ s with now := max s.now ((s.link n).since + 500000000) } : State).failLink n 2)) ∧
    (s.linkState n = 2 → (s.link n).tries < 3 → goes (.linkAlignTimeout n) 1 ∧ ∃ t, exec (.linkAlignTimeout n) s = .next t ∧ (t.link n).tries = (s.link n).tries + 1) ∧
    (s.linkState n = 2 → 3 ≤ (s.link n).tries → exec (.linkAlignTimeout n) s = .next (({ s with now := max s.now ((s.link n).since + 1000000) } : State).failLink n 3)) ∧
    (s.linkState n = 3 → goes (.linkIdentTimeout n) 1) ∧
    (s.linkState n = 5 → exec (.linkRetrainTimeout n) s = .next (({ s with now := max s.now ((s.link n).since + 5000000) } : State).failLink n 6)) ∧
    (∀ p podId pos link serial, p.body = .ident podId pos link serial → let u := s.showNeighbour n pos link
      let m := podId == s.fld R.LNK_POD_CFG F.LNK_POD_CFG_POD_ID && (pos, link) == s.predicted n
      (s.linkState n = 3 → m = true → exec (.ident n p) s = .next ((u.identified n).showParent.linkUp n).releaseHeld ∧ (u.identified n).linkState n = 4) ∧
      (s.linkState n = 5 → m = true → let v := u.identified n
        exec (.ident n p) s = .next ((v.note 0x0401 1 4 n (v.reg (R.LNK_RETRAINS n)).toNat 0).showParent.linkUp n).releaseHeld ∧ v.linkState n = 4) ∧
      (s.linkState n = 3 ∨ s.linkState n = 5 → m = false → ∃ t, exec (.ident n p) s = .next t ∧ t.linkState n = 7 ∧ t.fld (R.LNK_ERR n) F.LNK_ERR_VALID = 1)) ∧
    (∀ reason, reason < 16 → s.fld (R.LNK_ERR n) F.LNK_ERR_VALID = 0 → let u := (s.enterLink n 6).linkErr n reason
      u.linkState n = 6 ∧ u.fld (R.LNK_ERR n) F.LNK_ERR_VALID = 1 ∧ u.fld (R.LNK_ERR n) F.LNK_ERR_REASON = reason ∧ s.failLink n reason = (u.raise 0x0402 4 n 0 (u.reg (R.LNK_ERR n)).toNat 0).linkRungFails n)

/-- A frame that fails FEC or CRC, or that is not the next in sequence, is discarded, and a NAK is owed; nothing else of it is acted on. The next good PACKET frame is acknowledged and counted, each packet in it taken up in order, and its buffer owed back when the last of it has gone on; a good DATA frame's bytes go to its context. A packet for this position is kept as received, a signal for another is sent on by its table. FRAME_SEND resends first what a NAK asked for; with 64 frames unacknowledged it sends IDLE; with nothing to send it sends IDLE; a frame sent carries the next FSEQ and is kept for replay. So FRAME_RECEIVE and FRAME_SEND complete. (R348, R349, R350, R353, R354, R355, R356) -/
def Obligations.LinkFrames : Prop :=
  ∀ (s : State) (n : Nat), s.linkState n = 4 →
    (∀ f : Frame, f.fecCorrected = 0 →
      ((f.fecOk && f.crcOk && (f.body == .idle || f.fseq == ((s.link n).rxSeq + 1) % 4096)) = false → ∃ t, exec (.frameReceive n f) s = .next t ∧ t.link n = { s.link n with bad := true } ∧ t.pod.io = s.pod.io ∧ t.mem = s.mem) ∧
      (f.fecOk = true → f.crcOk = true → f.tgen = s.fld R.LNK_PHASE_CTL F.LNK_PHASE_CTL_TGEN → f.fseq = ((s.link n).rxSeq + 1) % 4096 → (s.frameWord n f).fld R.LNK_PHASE_CTL F.LNK_PHASE_CTL_TGEN = f.tgen →
        (∀ c v ps, f.body = .packet c v ps → ∃ u : State, exec (.frameReceive n f) s = .next ((ps.foldl (fun s p => s.receivePkt n (some (n, f.fseq)) p) u).pieceGone (some (n, f.fseq))) ∧ (u.link n).rxSeq = f.fseq ∧ tfind (u.link n).pieces f.fseq = some (c * 2 + v, 1) ∧ (u.link n).bad = false ∧ u.pod.io = s.pod.io ∧ u.mem = s.mem) ∧
        (∀ ctx k bs, f.body = .data ctx k bs → ∃ u : State, exec (.frameReceive n f) s = .next ((u.receiveData n ctx k (some (n, f.fseq)) bs).pieceGone (some (n, f.fseq))) ∧ (u.link n).rxSeq = f.fseq ∧ u.mem = s.mem))) ∧
    (∀ q k c, tfind (s.link n).pieces q = some (k, c) → twf (fun _ => 0) (s.link n).owed → let t := s.pieceGone (some (n, q))
      t.regs = s.regs ∧ (c ≤ 1 → tget (fun _ => 0) (t.link n).owed k = tget (fun _ => 0) (s.link n).owed k + 1) ∧ (1 < c → (t.link n).owed = (s.link n).owed ∧ tfind (t.link n).pieces q = some (k, c - 1))) ∧
    (∀ pc (p : LPkt), p.destPos = s.position → let t := s.receivePkt n pc p
      t.pod.io.inbox = s.pod.io.inbox ++ [(n, p)] ∧ t.regs = s.regs ∧ t.mem = s.mem) ∧
    (∀ pc (p : LPkt) pay mc d, p.destPos ≠ s.position → p.body = .sig pay mc d → s.receivePkt n pc p = (s.addPiece pc).sendW { pkt := p, data := [], half := n / 24, inLink := some n, piece := pc }) ∧
    (s.tst.scan = false → let l0 := (s.link n).countL2 (s.now / 100000)
      (∀ q b r, (s.link n).resend = (q, b) :: r → exec (.frameSend n) s = .next ((s.setLink n { l0 with resend := r }).emit n q b)) ∧
      ((s.link n).resend = [] → 64 ≤ (s.link n).replay.length → exec (.frameSend n) s = .next (((s.setLink n l0).bump (R.LNK_REPLAY_FULL n)).emit n (s.link n).txSeq .idle)) ∧
      ((s.link n).resend = [] → (s.link n).replay.length < 64 →
        (∀ k l, chooseClass s 5 l0 = some (k, l) → let x := (l.endTurn k).popFrame k
          let q := (x.2.1.txSeq + 1) % 4096
          ∃ u : State, exec (.frameSend n) s = .next ((x.2.2.foldl (fun s y => s.pieceGone y) (u.emit n q x.1)).retryOpen n) ∧ (u.link n).txSeq = q ∧ (u.link n).replay = x.2.1.replay ++ [(q, x.1)] ∧ u.regs = s.regs) ∧
        (chooseClass s 5 l0 = none → ∃ u : State, exec (.frameSend n) s = .next (u.emit n (s.link n).txSeq .idle) ∧ u.pod.io = s.pod.io ∧ u.mem = s.mem)) ∧
      (∀ q b, ∃ f : Frame, (s.emit n q b).pod.io.sent = s.pod.io.sent ++ [(n, f)] ∧ f.fseq = q ∧ f.body = b ∧ f.ack = (s.link n).rxSeq ∧ f.nak = (s.link n).bad))

/-- LINK_SIG, on the oldest signal of its source, applies the signal at the site of its logical spire and acknowledges it with the status of R352, or sends a multicast into its canal group; LINK_SIG_ACK tells the engine that sent. STREAM_OPEN binds a receive context; STREAM_LANDED, when the last barge has landed, frees it, notes the landing and sends STREAM_ACK to the origin; STREAM_ACK ends the stream at its origin. HCP takes the command in; HCP_REPLY brings its entry to the gateway's queue and frees the tracker entry with the final one. So LINK_SIG, LINK_SIG_ACK, HCP, HCP_REPLY, STREAM_OPEN, STREAM_LANDED and STREAM_ACK complete. (R225, R229, R230, R352, R353, R368, R453, R468) -/
def Obligations.LinkPackets : Prop :=
  ∀ (s : State) (n : Nat),
    (∀ p : LPkt, s.pod.io.inbox.contains (n, p) = true → let u := s.takeInbox n p
      (u.pod.io.inbox = s.pod.io.inbox.erase (n, p) ∧ u.regs = s.regs ∧ u.mem = s.mem ∧ u.spires = s.spires) ∧
      (∀ pay dest site, s.sigInTurn n p = true → p.body = .sig pay false dest → u.siteOf dest = some site → let x := u.signalNow site pay
        exec (.linkSig n p) s = .next (x.2.sendL (x.2.lpkt 0 p.srcPos p.id (.sigAck x.1)) (n / 24))) ∧
      (∀ pay g, s.sigInTurn n p = true → p.body = .sig pay true g → ∃ t, exec (.linkSig n p) s = .next t ∧ tfind t.pod.mcIn s.pod.nextTag = some (p.srcPos, p.id) ∧ t.pod.io.inbox = u.pod.io.inbox ∧ t.mem = s.mem) ∧
      (∀ tag who, s.pod.sigTags.find? (fun t => t.1 == p.id) = some (tag, who) → let v := ({ u with pod := { u.pod with sigTags := s.pod.sigTags.filter (fun x => x.1 != p.id) } } : State).sigDone (who / 8) (who % 8)
        exec (.linkSigAck n p) s = .next (v.wake (who / 8) (max (v.spire (who / 8)).cycle (v.cycleAt (who / 8) v.now)))) ∧
      (∀ addr len cid kind orig, p.body = .streamOpen addr len cid kind orig → ∃ t, exec (.streamOpen n p) s = .next t ∧
        tfind (t.link n).rx p.id = some { src := p.srcPos, dest := p.destPos, addr := addr, barges := len, got := 0, acked := 0, collId := cid, kind := kind, orig := orig, lclass := p.lclass, onward := none } ∧
        t.pod.io.inbox = u.pod.io.inbox ∧ t.regs = s.regs ∧ t.mem = s.mem) ∧
      (∀ status x, p.body = .streamAck status → tfind s.pod.streams p.id = some x → ¬(x.kind ≤ 2 ∧ status = 1 ∧ x.owner < 16) →
        exec (.streamAck n p) s = .next (({ u with pod := { u.pod with streams := terase s.pod.streams p.id } } : State).streamEnded p.id x status)) ∧
      (∀ pkt, p.body = .hcp pkt → s.isReady = true → exec (.hcp n p) s = .next (u.takeIn p.srcPos p.id pkt)) ∧
      (∀ e q, p.body = .hcpReply e q → q < 64 → (s.cqOn q = false ∨ (s.queue q).hold.length < 1024) → e.disp ≠ .event →
        let v := u.cqPost q e
        exec (.hcpReply n p) s = .next (if e.final then ({ v with hcp := { v.hcp with tracker := terase v.hcp.tracker p.id } } : State).showSlots else v))) ∧
    (∀ ctx x, tfind (s.link n).rx ctx = some x → x.onward = none → x.barges ≤ x.acked → ∃ u : State, exec (.streamLanded n ctx) s = .next (u.sendL { u.lpkt x.lclass x.src x.orig (.streamAck (if u.streamFails x then 1 else 0)) with table := 4 } (n / 24)) ∧
      (u.link n).rx = terase (s.link n).rx ctx ∧ u.pod.landed = s.pod.landed ++ [⟨x.kind, x.addr, x.barges, x.src⟩] ∧ u.regs = s.regs ∧ u.mem = s.mem)

/-- Once a millisecond a module that is not the master asks its parent; a request is answered with the time of its receipt; a response within 20 ns locks the time base, moving it by the offset, before the pod has been ready whole and later by at most 100 ns, and one beyond it raises the alarm. PHASE_BOUNDARY on a quiet module with its shadow bank loaded sends its arrival to the phase home, or counts it there; PHASE brings arrivals and the release; 2,000 ns after the close BANK_SWAP swaps the banks; PHASE_SHADOW_LOADED fills the shadow bank; the hold limit raises the alarm and holds on. So TIME, TIME_EXCHANGE_TICK, TIMEBASE_EXCHANGE_TIMEOUT, PHASE_BOUNDARY, PHASE_SHADOW_LOADED, PHASE, PHASE_HOLD_LIMIT and BANK_SWAP complete. (R370, R371, R372, R385) -/
def Obligations.TimeBase : Prop :=
  ∀ (s : State),
    (∀ n (p : LPkt), s.pod.io.inbox.contains (n, p) = true → let u := s.takeInbox n p
      (∀ t1 a b, p.body = .time false t1 a b → exec (.timePacket n p) s = .next (u.enqueueL n (u.lpkt 0 (u.fld (R.LNK_STATUS n) F.LNK_STATUS_NB_POS) (p.id % 0x8000 + 0x8000) (.time true t1 s.now s.now)))) ∧
      (∀ t1 t2 t3, p.body = .time true t1 t2 t3 → let off : Int := (((t2 : Int) - t1) - ((s.now : Int) - t3)) / 2
        let move : Int := if s.pod.ready then max (-100) (min 100 off) else off
        let v := ({ u with now := ((s.now : Int) + move).toNat, pod := { u.pod with tbLast := s.now } } : State).setFld R.LNK_TB_STATUS F.LNK_TB_STATUS_OFFSET (off % 65536).toNat
        exec (.timePacket n p) s = .next (if off.natAbs ≤ 20 then (v.setFld R.LNK_TB_STATUS F.LNK_TB_STATUS_LOCKED 1).standbyLeft else v.tbAlarm (off % 2 ^ 32).toNat))) ∧
    (s.master ≠ s.position → let n := s.fld R.LNK_TB_STATUS F.LNK_TB_STATUS_PARENT_LINK
      let w := max (s.now / 1000000) s.pod.tbWindow
      (s.linkState n = 4 → ∃ u : State, exec .timeExchangeTick s = .next (u.enqueueL n (u.lpkt 0 (u.fld (R.LNK_STATUS n) F.LNK_STATUS_NB_POS) ((s.pod.tbCount + 1) % 0x8000) (.time false u.now 0 0))) ∧ u.now = max s.now (w * 1000000) ∧ u.pod.tbWindow = w + 1 ∧ u.regs = s.regs ∧ u.mem = s.mem) ∧
      (∃ v o, exec .timebaseExchangeTimeout s = .next (State.tbAlarm v o) ∧ v.now = max s.now (s.pod.tbLast + 10000000) ∧ v.regs = s.regs ∧ v.mem = s.mem)) ∧
    (∀ g k, s.pod.phase.stage = 0 → s.pod.shadowLoaded = true → s.quiet = true → s.master = s.position →
      exec (.phaseBoundary g k) s = .next ((s.setPhase { s.pod.phase with stage := 2, node := some (g, k) }).phaseArrived s.position)) ∧
    (∀ n (p : LPkt), s.pod.io.inbox.contains (n, p) = true → let u := s.takeInbox n p
      (∀ i tc, p.body = .phase false i tc → exec (.phase n p) s = .next (u.phaseArrived p.srcPos)) ∧
      (∀ i tc, p.body = .phase true i tc → s.pod.phase.stage = 2 → exec (.phase n p) s = .next (u.setPhase { s.pod.phase with stage := 3, swapAt := tc + 2000 }))) ∧
    (s.pod.phase.stage = 3 → exec .bankSwap s = .next (({ s with now := max s.now s.pod.phase.swapAt } : State).bankSwap)) ∧
    (s.fld R.LNK_PHASE_CTL F.LNK_PHASE_CTL_MODE ≠ 0 → s.pod.shadowLoaded = false → ∀ ph, s.pod.phases[(s.fld R.LNK_PHASE_CTL F.LNK_PHASE_CTL_PHASE + 1) % s.pod.phases.length]? = some ph →
      ∃ t, exec .phaseShadowLoaded s = .next t ∧ t.pod.shadowLoaded = true ∧ t.pod.rt = (s.loadBank (1 - s.bank) ph).pod.rt ∧ t.regs = s.regs ∧ t.mem = s.mem) ∧
    (s.fld R.LNK_PHASE_CTL F.LNK_PHASE_CTL_HOLD_LIM ≠ 0 → s.pod.phase.arrivals ≠ [] → let u := ({ s with now := max s.now (s.pod.phase.first + s.fld R.LNK_PHASE_CTL F.LNK_PHASE_CTL_HOLD_LIM) } : State)
      let ms := s.livePositions.filter (fun p => !s.pod.phase.arrivals.contains p)
      exec .phaseHoldLimit s = .next (((u.setFld R.LNK_PHASE_CTL F.LNK_PHASE_CTL_ALARM 1).note 0x0403 0 4 0 (packMissing ms 8) 0).event .phaseHold 4 0 [packMissing ms 4]))

/-- The first copy of a stop is forwarded on one link of every group and counted, and stops a RUNNING job of its identifier; a further copy does nothing. At STOP_LIM a job still STOPPING is recorded. The copier sends a chunk of the closing set, or a dirty chunk of the open epoch, whose bit it clears; with every chunk sent and acknowledged MIRROR_COMMIT goes to the partner; a partner's commit is recorded and acknowledged; the acknowledgement closes the epoch and shows it in LNK_MIR_EPOCH. So STOP, STOP_TIMEOUT, MIRROR_CHUNK_COPY, MIRROR_EPOCH_COMPLETE, MIRROR_COMMIT and MIRROR_ACK complete. (R373, R374, R375, R376, R377, R517, R555, R556, R557) -/
def Obligations.StopsAndMirror : Prop :=
  ∀ (s : State),
    (∀ n (p : LPkt) kind src job, s.pod.io.inbox.contains (n, p) = true → p.body = .stop kind src job → let u := s.takeInbox n p
      (s.errs.stopsSeen.contains p.id = true → exec (.stop n p) s = .next u) ∧
      (s.errs.stopsSeen.contains p.id = false → let v := (({ u with errs := { u.errs with stopsSeen := s.errs.stopsSeen ++ [p.id] } } : State).flood p.id (.stop kind src job)).bump R.ERR_STOPS_RECV
        (v.jobState = 0 → exec (.stop n p) s = .next v) ∧
        (v.jobState = 1 → (kind = 1 ∨ job = (v.reg R.ERR_JOB_ID).toNat) → exec (.stop n p) s = .next ((((v.beginStop p.id src).putRecord 0x0006 2 0 0 0 p.id src 0 0 p.id).noticeStop p.id src true).settleStop)))) ∧
    (s.jobState = 2 → exec .stopTimeout s = .next (({ s with now := max s.now (s.errs.stopTime + 1000000 * max 1 (s.fld R.ERR_CTL F.ERR_CTL_STOP_LIM)) } : State).raise3 0x0002 0 0 (s.fld R.ERR_JOB F.ERR_JOB_STOP_ID) 0)) ∧
    (∀ pos, s.partnerPos = some pos →
      (∀ c e, s.mirror.closing = some e → s.mirror.c.contains c = true → exec (.mirrorChunkCopy c) s = .next (s.copyClosing c)) ∧
      (∀ c, s.mirror.closing = none → s.mirror.openEpoch ≠ 0 → (s.mirror.dirty (s.mirror.openEpoch % 2)).contains c = true →
        ∃ u : State, exec (.mirrorChunkCopy c) s = .next (u.sendChunk s.mirror.openEpoch c) ∧ u.mirror.dirty (s.mirror.openEpoch % 2) = (s.mirror.dirty (s.mirror.openEpoch % 2)).filter (fun x => x != c) ∧ u.regs = s.regs ∧ u.mem = s.mem) ∧
      (∀ e, s.mirror.closing = some e → s.mirror.c = [] → s.mirror.inFlight = [] → s.mirror.commitSent = false → let u := ({ s with mirror := { s.mirror with commitSent := true } } : State)
        exec .mirrorEpochComplete s = .next (u.sendL (u.lpkt 3 pos (e % 2) (.mirrorCommit (e % 2) e s.mirror.closeTime s.mirror.closeSpec))))) ∧
    (∀ n (p : LPkt), s.pod.io.inbox.contains (n, p) = true → let u := s.takeInbox n p
      (∀ slot e tc sp, p.body = .mirrorCommit slot e tc sp → let v := ({ u with jnl := { u.jnl with mirEpoch := e, mirSlot := slot, mirClose := tc, mirSpec := sp } } : State)
        exec (.mirrorCommit n p) s = .next (v.writeMirrorRecord.sendL (v.lpkt 3 p.srcPos slot (.mirrorAck slot e)) (n / 24))) ∧
      (∀ slot e, InForm s → p.body = .mirrorAck slot e → s.mirror.closing = some e → s.mirror.commitSent = true → ∃ v : State, exec (.mirrorAck n p) s = .next (v.event .mirrorCommitted 0 0 [e % 2 ^ 32, e / 2 ^ 32, slot]) ∧
        v.mirror.closing = none ∧ v.reg R.LNK_MIR_EPOCH = BitVec.ofNat 64 e ∧ v.mem = s.mem))

/-- With a collective going on an engine queue: READY_POLL, at least POLL_NS after the last, finds the next bucket ready or not and is counted; BUCKET_START starts one bucket on the streamed path, with fewer than 8 in flight, and a whole group on the bucketed one; COALESCE_TIMEOUT starts what is ready, at most COALESCE buckets; CONGESTION_WINDOW takes the bucketed path where at least CONG_PCT % of the frame times of the window waited for L2 credit, and returns below half of that unless a swap fixed it; an arriving piece of its identifier and digest is taken by what it says, and one of another digest ends the collective; with all work done and every stream acknowledged it completes, and its queue is idle; STALL_MS without traffic is recorded and reported once. COLLECTIVE_START gives an idle queue its next collective. So COLLECTIVE_START, READY_POLL, BUCKET_START, COALESCE_TIMEOUT, CONGESTION_WINDOW, COLLECTIVE_PIECE_ARRIVAL, COLLECTIVE_COMPLETION and COLLECTIVE_STALL complete. (R388, R390, R394, R397, R398, R400, R401, R408, R409, R411) -/
def Obligations.CollectiveProgress : Prop :=
  ∀ (s : State) (q : Nat) (c : Coll), s.going q = some c →
    ((dToken c.d || dOp c.d == 5 || descAt c.d 48 8 == 0 || Nat.ble (dBuckets c.d) c.ready) = false → ∃ t, exec (.readyPoll q) s = .next t ∧
      t.now = max s.now (c.lastPoll + max 50 (s.fld R.LNK_CE_CTL F.LNK_CE_CTL_POLL_NS)) ∧ t.regs = (s.bump R.LNK_CE_POLLS).regs ∧ t.mem = s.mem ∧
      ∀ u, s.collAt q = some c → u = ({ s with now := t.now } : State) → ∃ c', t.collAt q = some c' ∧ c'.lastPoll = t.now ∧ c'.ready = (if u.jobLE (descAt c.d 48 8 + 8 * c.ready) 4 = descAt c.d 80 4 then c.ready + 1 else c.ready)) ∧
    (dToken c.d = false → dOp c.d ≠ 5 → c.started < c.ready →
      (c.bucketed = false → c.rings.length < 8 → exec (.bucketStart q) s = .next (s.startGroup q c.started 1 false)) ∧
      (c.bucketed = false → 8 ≤ c.rings.length → exec (.bucketStart q) s = .next s) ∧
      (c.bucketed = true → let k := max 1 (s.fld R.LNK_CE_CTL F.LNK_CE_CTL_COALESCE)
        (k ≤ c.ready - c.started → exec (.bucketStart q) s = .next (s.startGroup q c.started k true)) ∧
        (c.ready - c.started < k → c.ready = dBuckets c.d → exec (.bucketStart q) s = .next (s.startGroup q c.started (c.ready - c.started) true))) ∧
      (c.bucketed = true → exec (.coalesceTimeout q) s = .next (({ s with now := max s.now (c.readySince + 1000 * s.fld R.LNK_CE_CTL2 F.LNK_CE_CTL2_COALESCE_US) } : State).startGroup q c.started (min (max 1 (s.fld R.LNK_CE_CTL F.LNK_CE_CTL_COALESCE)) (c.ready - c.started)) true))) ∧
    (∀ m : CollMsg, m.collId = dId c.d →
      (m.digest ≠ collDigest c.d → let v := s.ceErr 2 q (dId c.d)
        let w := v.endColl q .jobMismatch
        exec (.collectivePieceArrival q m) s = .next (w.raise 0x0602 6 q 0 (w.reg R.LNK_CE_ERR).toNat 0)) ∧
      (m.digest = collDigest c.d →
        (∀ a b ps, m.body = .reduce a b ps → exec (.collectivePieceArrival q m) s = .next (s.takeReduce q c a b ps)) ∧
        (∀ a b ps, m.body = .gather a b ps → exec (.collectivePieceArrival q m) s = .next (s.takeGather q c a b ps)) ∧
        (∀ n, m.body = .count n → exec (.collectivePieceArrival q m) s = .next (s.takeUnits q c m.src n)) ∧
        (∀ bs, m.body = .block bs → exec (.collectivePieceArrival q m) s = .next (s.takeBlock q c m.src bs)))) ∧
    (c.workDone = true → s.streamsDone q = true → dNext c.d = 0 → c.step = false → let st : Status := if dOp c.d = 6 ∧ c.b ≠ 0 then .copiesDropped else .ok
      exec (.collectiveCompletion q) s = .next (s.endColl q st)) ∧
    (s.collAt q = some c → c.stalled = false → s.fld R.LNK_CE_CTL2 F.LNK_CE_CTL2_STALL_MS ≠ 0 →
      let v := ({ s with now := max s.now (c.last + 1000000 * s.fld R.LNK_CE_CTL2 F.LNK_CE_CTL2_STALL_MS) } : State)
      let w := (v.setColl q { c with stalled := true }).ceErr 1 q (dId c.d)
      exec (.collectiveStall q) s = .next (((w.note 0x0601 0 6 q (w.reg R.LNK_CE_ERR).toNat 0).bump R.LNK_CE_STALLS).event .collStall 6 q [0, dId c.d, q] c.dst)) ∧
    (s.collAt q = some c → let w := max c.window (s.now / 100000 - 1)
      let c' := { c with window := w + 1 }
      let v := (({ s with now := max s.now ((w + 1) * 100000) } : State).setColl q c')
      let lim := min 100 (v.fld R.LNK_CE_CTL F.LNK_CE_CTL_CONG_PCT)
      let x := v.l2Share (dTable c.d) w
      (c.auto = false → exec (.congestionWindow q) s = .next v) ∧
      (c.auto = true → lim * x.2 ≤ 100 * x.1 → exec (.congestionWindow q) s = .next (v.setPath q c' true c.fixed)) ∧
      (c.auto = true → 100 * x.1 < lim * x.2 → 200 * x.1 < lim * x.2 → c.fixed = false → exec (.congestionWindow q) s = .next (v.setPath q c' false false)) ∧
      (c.auto = true → 100 * x.1 < lim * x.2 → (lim * x.2 ≤ 200 * x.1 ∨ c.fixed = true) → exec (.congestionWindow q) s = .next v)) ∧
    (∀ p, s.collAt p = none → exec (.collectiveStart p) s = .next ((s.startNext p).startPhase p)) ∧
    (∀ r ca, s.collAt r = some ca → ca.pageWait.isSome = true → exec (.collectiveStart r) s = .next ((s.collReady r).startPhase r))

/-- In a token exchange a source's counts are written once to its place in WORK, an owner's places once to the second half, and with the last of them an over-capacity flag ends the exchange; with every count held the owner places by rank and then by source, never above its capacity, and replies; with every reply held the source writes FATE and sends its runs; an expert whose rows have all landed is padded with rows of zeros to the multiple of 32 or to its capacity. So TOKEN_COUNT_ARRIVAL, TOKEN_PLACEMENT, TOKEN_REPLY_ARRIVAL, TOKEN_PAYLOAD_START and TOKEN_PADDING complete. (R403, R404, R405, R406) -/
def Obligations.TokenExchange : Prop :=
  (∀ (s : State) (q : Nat) (c : Coll), s.going q = some c →
    (∀ m : CollMsg, m.collId = dId c.d → m.digest = collDigest c.d →
      (∀ ns bad, m.body = .offers ns bad → dOp c.d = 6 → c.counts.contains m.src = false → let bs := ns.flatMap (bytesLE 4)
        exec (.tokenCountArrival q m) s = .next (let v := s.jobStore (tkWork c.d + tkV c.d * 512 * m.src) (bs ++ List.replicate (tkV c.d * 512 - bs.length) 0);
          v.setColl q { c with counts := c.counts ++ [m.src], bad := c.bad || bad, last := v.now, stalled := false })) ∧
      (∀ ns bad, m.body = .offers ns bad → c.counts.contains m.src = true → exec (.tokenCountArrival q m) s = .next s) ∧
      (∀ ps ex z, m.body = .places ps ex z → dOp c.d = 6 → c.replies.contains m.src = false →
        let bs := ps.flatMap (fun p => bytesLE 4 p.1 ++ bytesLE 4 p.2)
        let v := s.jobStore (tkWork c.d + tkV c.d * 512 * (dM c.d + m.src)) (bs ++ List.replicate (tkV c.d * 512 - bs.length) 0)
        let c' := { c with replies := c.replies ++ [m.src], excess := c.excess || ex, last := v.now, stalled := false }
        let w := v.setColl q c'
        (c.replies.length + 1 ≠ dM c.d → exec (.tokenReplyArrival q m) s = .next w) ∧
        (c.replies.length + 1 = dM c.d → (c.excess || ex) = true → exec (.tokenReplyArrival q m) s = .next (w.endColl q .collCapacityExceeded)) ∧
        (c.replies.length + 1 = dM c.d → (c.excess || ex) = false → exec (.tokenReplyArrival q m) s = .next (if tkFail c.d then w.writeCounts c' else w))) ∧
      (∀ ps ex z, m.body = .places ps ex z → c.replies.contains m.src = true → exec (.tokenReplyArrival q m) s = .next s)) ∧
    (dOp c.d = 6 → c.placed = false → c.counts.length = dM c.d → c.bad = true → exec (.tokenPlacement q) s = .next ((s.setColl q { c with a := c.badToken, b := c.badRank }).endColl q .collBadRoute)) ∧
    (dOp c.d = 6 → c.payload = false → c.replies.length = dM c.d → c.placed = true → let cs := s.copies c.d
      let slots := s.slotsOf c.d [] cs
      let v := slots.zipIdx.foldl (fun s p => s.jobStore (tkFate c.d + 4 * p.2) (bytesLE 4 p.1)) s
      exec (.tokenPayloadStart q) s = .next ((v.setColl q { c with payload := true, a := (slots.filter (fun x => Nat.blt x fateNone)).length, b := (slots.filter (fun x => x == fateDropped)).length, last := v.now }).sendCopies q c.d cs slots true)) ∧
    (∀ e n, dOp c.d = 6 → tkPad c.d ≠ 0 → c.placed = true → c.padded.contains e = false → c.expertLanded e = true → tfind c.accepted e = some n →
      let top := if tkPad c.d = 1 then (n + 31) / 32 * 32 else tkC c.d
      let v := (List.range (top - n)).foldl (fun s i => s.jobStore (tkEbuf c.d + (e * tkC c.d + n + i) * tkW c.d) (List.replicate (tkW c.d) 0)) s
      exec (.tokenPadding q e) s = .next (v.setColl q { c with padded := c.padded ++ [e], last := v.now })) ∧
    (dOp c.d = 6 → c.placed = false → c.counts.length = dM c.d → c.bad = false →
      let d := c.d
      let me := (s.memberIndex d).getD 0
      let n := (tkOwn d me).2
      let pl := (List.range n).map (fun e => s.placeExpert d e)
      let offers := (List.range n).map (fun e => (List.range (tkK d)).foldl (fun t r => (List.range (dM d)).foldl (fun t m => t + s.offered d m e r) t) 0)
      let acc := pl.map (fun ps => ps.foldl (fun t p => t + p.2.2.1) 0)
      let excess := tkFail d && offers.any (fun t => Nat.blt (tkC d) t)
      let c' := { c with placed := true, accepted := (List.range n).zip acc, recv := if excess then 0 else acc.foldl (· + ·) 0, maxOff := offers.foldl max 0, last := s.now }
      let u := if excess then s.setColl q c' else (List.range n).foldl (fun s e => (List.range (tkC d - acc.getD e 0)).foldl (fun s i => s.jobStore (tkOrigin d + 4 * (e * tkC d + acc.getD e 0 + i)) (bytesLE 4 0xFFFFFFFF)) s) ((s.setColl q c').bump R.LNK_CE_DROPPED (offers.foldl (· + ·) 0 - acc.foldl (· + ·) 0))
      let f := fun (j : Nat) => pl.flatMap (fun ps => (List.range (tkK d)).map (fun r => match ps.find? (fun p => p.1 == r && p.2.1 == j) with | some p => (p.2.2.1, p.2.2.2) | none => (0, 0)))
      let v := (List.range (dM d)).foldl (fun s j => let bs := (f j).flatMap (fun p => bytesLE 4 p.1 ++ bytesLE 4 p.2); s.collSend q j 1 (tkWork d + tkV d * 512 * (dM d + me)) false (.places (f j) excess false) (bs ++ List.replicate (tkV d * 512 - bs.length) 0)) u
      exec (.tokenPlacement q) s = .next (if tkFail d then v else v.writeCounts c'))) ∧
  (∀ (cap b : Nat) (l : List (Nat × Nat × Nat)), b ≤ cap → let p := placeByRank cap l b
    p.map (fun x => (x.1, x.2.1)) = l.map (fun x => (x.1, x.2.1)) ∧ b + (p.map (fun x => x.2.2.1)).sum = min cap (b + (l.map (fun x => x.2.2)).sum) ∧
      ∀ x, x ∈ p → b ≤ x.2.2.2 ∧ x.2.2.2 + x.2.2.1 ≤ cap)

/-- STAGE_READY_POLL of an OUT queue with a credit left, whose ready word holds the next micro-batch's number, sends that slot and counts it, and otherwise only notes the poll; STAGE_SLOT_ARRIVAL writes the arrival word of the micro-batch that has landed, counts it, and adds 1 to the arrival cell; STAGE_FREE_POLL of an IN queue returns a credit for a freed micro-batch; STAGE_CREDIT_ARRIVAL gives the OUT queue the credit and adds 1 to the credit cell. So STAGE_READY_POLL, STAGE_SLOT_ARRIVAL, STAGE_FREE_POLL and STAGE_CREDIT_ARRIVAL complete. (R453, R454, R455) -/
def Obligations.StageQueueEngine : Prop :=
  ∀ (s : State) (q : Nat) (x : StageQ),
    let v := ({ s with now := max s.now (x.lastPoll + max 50 (s.fld R.LNK_CE_CTL F.LNK_CE_CTL_POLL_NS)) } : State)
    let p := { x with lastPoll := v.now }
    (s.stqAt q 1 = some x →
      ((x.depth ≤ x.ahead - x.behind ∨ v.jobLE (x.word 32 x.ahead) 8 ≠ x.ahead % 2 ^ 32 + 1) → exec (.stageReadyPoll q) s = .next (v.setStq q p)) ∧
      (x.ahead - x.behind < x.depth → v.jobLE (x.word 32 x.ahead) 8 = x.ahead % 2 ^ 32 + 1 → let w := (v.setStq q { p with ahead := x.ahead + 1, since := v.now }).bump (R.LNK_STQ_MB q)
        ∀ pos, w.posOf (sqAt x.entry 1 1) = some pos → pos ≠ w.position →
        ∃ u : State, exec (.stageReadyPoll q) s = .next (u.openStream pos (Config.peerSlot q (x.ahead % x.depth)).toNat 3 0 q 2 (sqAt x.entry 6 1) 0 (v.jobLoad (x.slot x.ahead) (sqAt x.entry 8 4))) ∧
          tfind u.stq q = some { p with ahead := x.ahead + 1, since := v.now, flying := x.flying ++ [s.pod.nextStream] } ∧ u.mem = s.mem) ∧
      (x.behind < x.ahead → ∃ u : State, exec (.stageCreditArrival q) s = .next (u.addToCell (sqAt x.entry 12 4 + 1)) ∧ tfind u.stq q = some { x with behind := x.behind + 1 } ∧ u.mem = s.mem) ∧
      (x.ahead ≤ x.behind → exec (.stageCreditArrival q) s = .next s)) ∧
    (s.stqAt q 2 = some x →
      (∀ l, s.pod.landed.find? (fun l => l.kind == 3 && l.addr == x.slot x.ahead) = some l → ∃ u : State, exec (.stageSlotArrival q) s = .next (u.addToCell (sqAt x.entry 12 4 + 1)) ∧ tfind u.stq q = some { x with ahead := x.ahead + 1 } ∧
        u.mem = (({ s with pod := { s.pod with landed := s.pod.landed.erase l } } : State).jobStore (x.word 40 x.ahead) (bytesLE 8 (x.ahead % 2 ^ 32 + 1))).mem) ∧
      ((x.ahead ≤ x.behind ∨ v.jobLE (x.word 32 x.behind) 8 ≠ x.behind % 2 ^ 32 + 1) → exec (.stageFreePoll q) s = .next (v.setStq q p)) ∧
      (x.behind < x.ahead → v.jobLE (x.word 32 x.behind) 8 = x.behind % 2 ^ 32 + 1 → let w := v.setStq q { p with behind := x.behind + 1, since := v.now }
        ∀ pos, w.posOf (sqAt x.entry 1 1) = some pos → pos ≠ w.position → exec (.stageFreePoll q) s = .next (w.openStream pos 0 1 0 (16 + q) 2 (sqAt x.entry 6 1) 0 (List.replicate 512 0))))

/-- A command that is finished, turned away at its start, or expired is no longer held, and every other command still is; its one final entry, of its own SEQ and with its status and disposition, is the next on its queue when that has room. A command whose WAIT_LIMIT passes before it starts expires; one that is ORDERED behind another is marked WAIT_ORDERED, and gets one DELAYED entry unless it had an entry. So WAIT_LIMIT_EXPIRY completes. (R470, R474, R477, R479, R480) -/
def Obligations.CommandEnds : Prop :=
  (∀ (s : State) (id : Nat) (c : Cmd) (st : Status) (r : List Nat) (r0 : Nat), s.cmd? id = some c →
    let out := fun (t : State) (d : Disp) (l : List Nat) =>
      t.cmd? id = none ∧ (∀ j, j ≠ id → (t.cmd? j).isSome = (s.cmd? j).isSome) ∧
      (c.pos = s.position → s.cqOn c.queue = false → t.hcp.cqOut = s.hcp.cqOut) ∧
      (c.pos = s.position → Takes s c.queue → t.hcp.cqOut = s.hcp.cqOut ++ [(c.queue, ({ status := statusCode st, disp := d, final := true, module := s.moduleId, seq := c.seq, tAccept := c.tAccept % 2 ^ 32, tDone := s.now % 2 ^ 32, r0 := l.getD 0 0 % 2 ^ 32, r1 := l.getD 1 0 % 2 ^ 32, r2 := l.getD 2 0 % 2 ^ 32, r3 := l.getD 3 0 % 2 ^ 32 } : CqEntry))])
    out (s.finishCmd id st r) .served r ∧ out (s.refuseCmd id st r0) .refused [r0, s.position] ∧ out (s.expireCmd id st) .refused []) ∧
  (∀ (s : State) (id : Nat) (c : Cmd), s.cmd? id = some c → c.started = false → c.waitLimit ≠ 0 → let v := ({ s with now := max s.now (c.tAccept + 1000 * c.waitLimit) } : State)
    exec (.waitLimitExpiry id) s = .next (v.expireCmd id .waitExpired)) ∧
  (∀ (s : State) (id : Nat) (c : Cmd), InForm s → s.cmd? id = some c → c.opcode = 0x0101 → c.started = false → c.slot ≠ 0 → s.notYet c = false → c.ordered = true → s.behind c = true →
    ∃ t : State, exec (.nop id) s = .next t ∧ t.cmd? id = some { c with attempted := true, delayed := some .waitOrdered } ∧
      (c.attempted = true → t.hcp.cqOut = s.hcp.cqOut) ∧
      (c.attempted = false → c.pos = s.position → Takes s c.queue → t.hcp.cqOut = s.hcp.cqOut ++ [(c.queue, s.cmdEntry c .waitOrdered .delayed false [0xFFFFFFFF])]))

/-- PACKET_FETCH moves the queue's head past one packet. A SEQ that does not match is refused with BAD_SEQUENCE and the expected value; a packet of this module with a header, an opcode, a length and parameters in order and a slot is held as a command of its own fields under the next DSEQ, and the expected SEQ goes on by 1; a packet refused for its opcode, length, parameters or state, or for want of a slot, gets one final REFUSED entry and is not held. DELAYED_COMMAND_START starts the command that can start now of the lowest class, the earliest first. So PACKET_FETCH and DELAYED_COMMAND_START complete. (R369, R465, R467, R470, R471, R472, R474, R477, R478, R482) -/
def Obligations.PacketAdmission : Prop :=
  (∀ (s : State) (q : Nat) (pkt : Packet), InForm s → q < 64 → s.mayFetch q = true →
    let p := s.headPacket q pkt
    let seq := s.fld (R.HCP_SQ_SEQ q) F.HCP_SQ_SEQ_SEQ
    let h := (s.fld (R.HCP_Q_STATUS q) F.HCP_Q_STATUS_SQ_HEAD + 1) % s.sqSize q
    let refused := fun (st : Status) (r0 : Nat) => ∃ t : State, exec (.packetFetch q pkt) s = .next t ∧ t.hcp.cmds = s.hcp.cmds ∧ t.fld (R.HCP_Q_STATUS q) F.HCP_Q_STATUS_SQ_HEAD = h ∧
      (Takes s q → t.hcp.cqOut = s.hcp.cqOut ++ [(q, ({ status := statusCode st, disp := .refused, final := true, module := s.moduleId, seq := pktAt p 4 4, tAccept := s.now % 2 ^ 32, tDone := s.now % 2 ^ 32, r0 := r0 % 2 ^ 32, r1 := s.position, r2 := 0, r3 := 0 } : CqEntry))])
    (pktAt p 4 4 ≠ seq → refused .badSequence seq) ∧
    (pktAt p 4 4 = seq → headerBad q p = true → refused .badHeader 0) ∧
    (pktAt p 4 4 = seq → headerBad q p = false → pktAt p 8 1 / 64 = 3 →
      let op := pktAt p 0 2
      let v := (((s.setFld (R.HCP_Q_STATUS q) F.HCP_Q_STATUS_SQ_HEAD h).bump R.HCP_FETCHED).setFld (R.HCP_SQ_SEQ q) F.HCP_SQ_SEQ_SEQ ((seq + 1) % 2 ^ 32))
      (plenOf op = none → refused .badOpcode 0) ∧
      (∀ n, plenOf op = some n → pktAt p 12 2 ≠ n → refused .badLength 0) ∧
      (∀ o, plenOf op = some (pktAt p 12 2) → (v.paramFaults op p).find? (fun x => x.2) = some (o, true) → refused .badParam o) ∧
      (v.refusalOf p = none → v.slotFor (pktAt p 10 1) = none → refused .busy (v.busyEstimate (pktAt p 10 1))) ∧
      (∀ k, k ≠ 0 → v.refusalOf p = none → v.slotFor (pktAt p 10 1) = some k → ∃ (t : State) (c : Cmd), exec (.packetFetch q pkt) s = .next t ∧ t.hcp.cmds = s.hcp.cmds ++ [c] ∧ t.mem = s.mem ∧
        c.pkt = p ∧ c.opcode = op ∧ c.queue = q ∧ c.seq = seq ∧ c.cls = pktAt p 10 1 ∧ c.slot = k ∧ c.pos = s.position ∧ c.started = false ∧ c.delayed = none ∧ c.tAccept = s.now ∧
        c.waitLimit = pktAt p 16 4 ∧ (c.quiet = true ↔ pktAt p 2 2 % 2 = 1) ∧ (c.ordered = true ↔ pktAt p 2 2 / 2 % 2 = 1) ∧ (t.reg R.JNL_NEWEST).toNat = c.dseq ∧
        t.fld (R.HCP_SQ_SEQ q) F.HCP_SQ_SEQ_SEQ = (seq + 1) % 2 ^ 32 ∧ t.fld (R.HCP_Q_STATUS q) F.HCP_Q_STATUS_SQ_HEAD = h))) ∧
  (∀ (s : State) (c : Cmd) (k : Nat), k < 4 → (∀ j, j < k → ∀ x ∈ s.hcp.cmds, ¬(x.cls = j ∧ s.canStart x = true)) → s.hcp.cmds.find? (fun x => x.cls == k && s.canStart x) = some c →
    ([0x0603, 0x0604, 0x0605].contains c.opcode = false → exec .delayedCommandStart s = .next (s.attempt c.opcode c.dseq (startOf c.opcode))) ∧
    (c.opcode = 0x0603 → exec .delayedCommandStart s = exec (.funcReinit c.dseq) s) ∧
    (c.opcode = 0x0604 → exec .delayedCommandStart s = exec (.warmReset c.dseq) s) ∧
    (c.opcode = 0x0605 → exec .delayedCommandStart s = exec (.powerCycle c.dseq) s))

/-- A submission doorbell below the queue's size sets the tail and one at or above it sets DB_ERR; a completion doorbell moves the host's head, and an entry that waited is written; SQ_ENABLE and CQ_ENABLE start an empty queue, SQ_DISABLE stops fetch, CQ_DISABLE discards and counts what waits; the coalescing time sends the queue's vector; a function level reset and PERST_N disable every queue, clear the MSI-X table and HCP_BAR2_BASE, and keep every admitted command; a DMA error puts the pair into rung 2. So SQ_TAIL_DOORBELL, CQ_HEAD_DOORBELL, SQ_ENABLE, SQ_DISABLE, CQ_ENABLE, CQ_DISABLE, MSIX_COALESCE_TIMEOUT, FUNCTION_LEVEL_RESET, H0_PERST_N_ASSERTION and QUEUE_DMA_ERROR complete. (R464, R466, R467, R468, R469, R560, R636) -/
def Obligations.QueueRows : Prop :=
  ∀ (s : State) (q v : Nat), InForm s → q < 64 →
    let cfg := R.HCP_Q_CFG q
    let st := R.HCP_Q_STATUS q
    (s.tst.dwell = none → s.sqOn q = true →
      (v % 4096 < s.sqSize q → ∃ t : State, exec (.sqTailDoorbell q v) s = .next t ∧ (t.queue q) = { s.queue q with sqTail := v % 4096 } ∧ t.regs = s.regs ∧ t.mem = s.mem) ∧
      (s.sqSize q ≤ v % 4096 → exec (.sqTailDoorbell q v) s = .next (s.setFld st F.HCP_Q_STATUS_DB_ERR 1))) ∧
    (s.tst.dwell = none → s.sqOn q = false → exec (.sqTailDoorbell q v) s = .next s) ∧
    (s.tst.dwell = none → s.cqSize q ≤ v % 65536 → exec (.cqHeadDoorbell q v) s = .next (s.setFld st F.HCP_Q_STATUS_DB_ERR 1)) ∧
    (s.tst.dwell = none → v % 65536 < s.cqSize q → s.cqOn q = true → ∀ x : Queue, s.queue q = x → x.evLost = 0 → x.waiting = [] →
      let room := (s.cqTail q + 1) % s.cqSize q ≠ v % 65536
      (x.hold = [] → ∃ t : State, exec (.cqHeadDoorbell q v) s = .next t ∧ t.queue q = { x with cqHead := v % 65536 } ∧ t.hcp.cqOut = s.hcp.cqOut) ∧
      (∀ e, x.hold = [e] → room → ∃ t : State, exec (.cqHeadDoorbell q v) s = .next t ∧ t.hcp.cqOut = s.hcp.cqOut ++ [(q, e)] ∧ (t.queue q).hold = [] ∧ t.cqTail q = (s.cqTail q + 1) % s.cqSize q) ∧
      (¬room → ∃ t : State, exec (.cqHeadDoorbell q v) s = .next t ∧ t.hcp.cqOut = s.hcp.cqOut ∧ (t.queue q).hold = x.hold)) ∧
    (s.sqOn q = false → ∃ t : State, exec (.sqEnable q) s = .next t ∧ t.sqOn q = true ∧ t.fld st F.HCP_Q_STATUS_SQ_HEAD = 0 ∧ (t.queue q).sqTail = 0 ∧ (∀ o, o ≠ cfg → o ≠ st → t.reg o = s.reg o) ∧ t.mem = s.mem) ∧
    (∃ t : State, exec (.sqDisable q) s = .next t ∧ t.sqOn q = false ∧ t.cqOn q = s.cqOn q ∧ t.hcp = s.hcp ∧ (∀ o, o ≠ cfg → t.reg o = s.reg o)) ∧
    (s.cqOn q = false → ∃ t : State, exec (.cqEnable q) s = .next t ∧ t.cqOn q = true ∧ t.cqTail q = 0 ∧ (t.queue q).cqHead = 0 ∧ (t.queue q).phase = 1 ∧ (∀ o, o ≠ cfg → o ≠ st → t.reg o = s.reg o) ∧ t.mem = s.mem) ∧
    (∃ t : State, exec (.cqDisable q) s = .next t ∧ t.cqOn q = false ∧ t.sqOn q = s.sqOn q ∧ (t.queue q).hold = [] ∧ (t.queue q).waiting = [] ∧ t.hcp.cqOut = s.hcp.cqOut ∧
      t.reg R.HCP_CQ_DROP = s.reg R.HCP_CQ_DROP + BitVec.ofNat 64 ((s.queue q).hold.length + (s.queue q).waiting.length)) ∧
    ((s.queue q).unsignalled ≠ 0 → ∃ t : State, exec (.msixCoalesceTimeout q) s = .next t ∧ (t.queue q).unsignalled = 0 ∧ t.regs = s.regs ∧
      t.hcp.msix = s.hcp.msix ++ (if s.fld cfg F.HCP_Q_CFG_VECTOR < 64 then [s.fld cfg F.HCP_Q_CFG_VECTOR] else [])) ∧
    ((s.sqOn q = true ∨ s.cqOn q = true) → s.reinit.any (fun r => r.kind == 1 && r.index == q) = false → ∃ t : State, exec (.queueDmaError q) s = .next t ∧ t.sqOn q = false ∧ t.cqOn q = false ∧ (t.queue q).hold = [] ∧ t.reinit.length = s.reinit.length + 1) ∧
    (∃ t : State, exec .functionLevelReset s = .next t ∧ exec .h0PerstNAssertion s = .next t ∧ t.sqOn q = false ∧ t.cqOn q = false ∧ (∀ k, k < 144 → t.reg (R.HCP_MSIX_TABLE k) = 0) ∧ t.reg R.HCP_BAR2_BASE = 0 ∧ t.hcp.cmds = s.hcp.cmds ∧ t.mem = s.mem)

/-- On a READY module: BAR2_READ answers the bytes of the device address, or zeros and a count where no target or a retired location lies there, and at a local store finds the spire, woken, in the cycle in which it arrives; BAR2_WRITE within one barge of tower memory stores its bytes and no others, and discards those of the journal's region; CXL_MEM_ACCESS does the same at a tower address in CXL mode. REGISTER_WRITE of a plain register changes its writable fields alone: read-only bits stay, bits written 1 clear where the access says so, and an unassigned offset is ignored. So BAR2_READ, BAR2_WRITE, CXL_MEM_ACCESS and REGISTER_WRITE complete. (R9, R10, R11, R303, R308, R461, R463, R517, R605) -/
def Obligations.HostAccess : Prop :=
  (∀ (s : State) (o n : Nat) (bs : List Byte), s.h0Down = false → s.inBar2 o = true → s.bar2Shut = false →
    let a := s.bar2Addr o
    let one := fun (k : Nat) => 0 < k ∧ a % 512 + k ≤ 512
    (one n → s.hostMem a = .ok → lsSite a = none → exec (.bar2Read o n) s = .next { s with answers := s.answers ++ [.mem a (s.load a n)] }) ∧
    (one n → s.hostMem a = .noTarget → lsSite a = none → let v := s.bump R.HCP_BAR2_DROP
      exec (.bar2Read o n) s = .next { v with answers := v.answers ++ [.mem a (List.replicate n 0)] }) ∧
    (one n → s.hostMem a = .retired → lsSite a = none → let v := s.bump R.TWR_RETIRED_HIT
      exec (.bar2Read o n) s = .next { v with answers := v.answers ++ [.mem a (List.replicate n 0)] }) ∧
    (one n → s.hostMem a = .shadow → lsSite a = none → let v := s.bump R.GLB_SHADOW_BAR2
      exec (.bar2Read o n) s = .next { v with answers := v.answers ++ [.mem a (List.replicate n 0)] }) ∧
    (one bs.length → s.hostMem a = .ok → isTower a = true → InForm s → s.mirror.c = [] → s.bsn.capture = none →
      (inJournal a = false → ∃ t : State, exec (.bar2Write o bs) s = .next t ∧ t.regs = s.regs ∧ (∀ x, Memory.readByte t.mem x = if a ≤ x ∧ x < a + bs.length then bs.getD (x - a) 0#8 else Memory.readByte s.mem x)) ∧
      (inJournal a = true → exec (.bar2Write o bs) s = .next s)) ∧
    (one bs.length → s.hostMem a = .noTarget → lsSite a = none → exec (.bar2Write o bs) s = .next (s.bump R.HCP_BAR2_DROP)) ∧
    (∀ site, lsSite a = some site → let w := s.wakeModule
      let v := w.reachSite site
      (one n → w.hostMem a = .ok → exec (.bar2Read o n) s = .next { v with answers := v.answers ++ [.mem a (v.load a n)] }) ∧
      (one n → w.hostMem a ≠ .ok → let c := w.hostCount (w.hostMem a)
        exec (.bar2Read o n) s = .next { c with answers := c.answers ++ [.mem a (List.replicate n 0)] }) ∧
      (one bs.length → w.hostMem a = .ok → inJournal a = false → exec (.bar2Write o bs) s = .next (v.store a bs)) ∧
      (one bs.length → w.hostMem a ≠ .ok → exec (.bar2Write o bs) s = .next (w.hostCount (w.hostMem a))))) ∧
  (∀ (s : State) (a n : Nat) (bs : List Byte), s.h0Down = false → s.bar2Shut = false → isTower a = true →
    (s.fld R.HCP_H0_STAT F.HCP_H0_STAT_CXL = 0 → ∀ w, exec (.cxlMemAccess a n w) s = .next s) ∧
    (s.fld R.HCP_H0_STAT F.HCP_H0_STAT_CXL ≠ 0 → s.hostMem a = .ok →
      (0 < n → a % 512 + n ≤ 512 → exec (.cxlMemAccess a n none) s = .next { s with answers := s.answers ++ [.mem a (s.load a n)] }) ∧
      (0 < bs.length → a % 512 + bs.length ≤ 512 → inJournal a = false → exec (.cxlMemAccess a n (some bs)) s = .next (s.store a bs)))) ∧
  (∀ (s : State) (off : Nat) (v : Word), InForm s → s.hostMayWrite off = true →
    (regAt off = none → (off < 0x400000 ∨ 0x800000 ≤ off) → exec (.registerWrite off v) s = .next s) ∧
    (∀ r, regAt off = some r → (off < 0x100000 ∨ 0x800000 ≤ off) → (let m := if r.width = 32 then 0xFFFFFFFF#64 else BitVec.allOnes 64; s.writeOther off (r.asked (s.reg off) v m) m = none) →
      ∃ t : State, exec (.registerWrite off v) s = .next t ∧ t.mem = s.mem ∧ t.hcp = s.hcp ∧ (∀ o, o ≠ off → t.reg o = s.reg o) ∧
        (r.width = 64 → r.record = false → t.reg off = ((s.reg off &&& ~~~r.bits .rw) ||| (v &&& (r.bits .rw ||| r.bits .w1s))) &&& ~~~(v &&& r.bits .w1c))))

/-- A command that starts is SERVED with its results: NOP none; IDENTIFY the stepping, firmware version and serial number; REG_READ and REG_WRITE the words, each read whole, after the write of the masked bits; TIME_READ the time; COUNTER_SNAPSHOT stores its words; ERR_READ the unread records, once; JOURNAL_QUERY the entries from FIRST on, or JOURNAL_RANGE; JOURNAL_MARK its own DSEQ; TELEMETRY, SEC_STATUS, BASIN_INFO and CKPT_LIST what they report. So NOP, IDENTIFY, REG_READ, REG_WRITE, TIME_READ, BASIN_INFO, CKPT_LIST, ERR_READ, TELEMETRY, SEC_STATUS, JOURNAL_QUERY, JOURNAL_MARK and COUNTER_SNAPSHOT complete. (R478, R483, R495, R503, R516, R520, R537, R552) -/
def Obligations.DeviceCommands : Prop :=
  ∀ (s : State) (id : Nat) (c : Cmd),
    (Starts s id 0x0101 c → exec (.nop id) s = .next (s.finishCmd id .ok [])) ∧
    (Starts s id 0x0102 c → exec (.identify id) s = .next (s.finishCmd id .ok [Config.stepping.toNat, s.fld R.SEC_FW_LT F.SEC_FW_LK_VERSION, Config.serial.toNat % 2 ^ 32, Config.serial.toNat / 2 ^ 32])) ∧
    (Starts s id 0x0103 c → s.needsWake (c.par 0 4) (c.par 4 1) = false →
      (c.par 4 1 = 1 → let x := s.readWord (c.par 0 4)
        exec (.regRead id) s = .next (x.2.finishCmd id .ok [x.1.toNat % 2 ^ 32, x.1.toNat / 2 ^ 32])) ∧
      (c.par 4 1 = 2 → let x := s.readWord (c.par 0 4)
        let y := x.2.readWord (c.par 0 4 + 8)
        exec (.regRead id) s = .next (y.2.finishCmd id .ok [x.1.toNat % 2 ^ 32, x.1.toNat / 2 ^ 32, y.1.toNat % 2 ^ 32, y.1.toNat / 2 ^ 32]))) ∧
    (Starts s id 0x0103 c → s.needsWake (c.par 0 4) (c.par 4 1) = true → exec (.regRead id) s = .next (s.delayCmd c .waitIdle 0xFFFFFFFF)) ∧
    (Starts s id 0x0104 c → s.needsWake (c.par 0 4) 1 = false → let x := (s.writeWord (c.par 0 4) (BitVec.ofNat 64 (c.par 8 8)) (BitVec.ofNat 64 (c.par 16 8))).readWord (c.par 0 4)
      exec (.regWrite id) s = .next (x.2.finishCmd id .ok [x.1.toNat % 2 ^ 32, x.1.toNat / 2 ^ 32])) ∧
    (Starts s id 0x0105 c → exec (.timeRead id) s = .next (s.finishCmd id .ok [s.now % 2 ^ 32, s.now / 2 ^ 32, s.fld R.LNK_TB_STATUS F.LNK_TB_STATUS_LOCKED])) ∧
    (Starts s id 0x0905 c → s.quiescent = false → let x := readWords (c.par 12 2) (c.par 8 4) s
      x.1.length = c.par 12 2 ∧ exec (.counterSnapshot id) s = .next ((x.2.lanternStore (c.par 0 8) (x.1.flatMap (fun v => bytesLE 8 v.toNat))).finishCmd id .ok [c.par 12 2])) ∧
    (Starts s id 0x0601 c → ∃ u : State, let rs := s.unread.take (c.par 8 2)
      exec (.errRead id) s = .next (u.finishCmd id .ok [rs.length, (s.lanternStore (c.par 0 8) (rs.flatMap errBytes)).errs.lost]) ∧ u.errs.lost = 0 ∧ u.mem = (s.lanternStore (c.par 0 8) (rs.flatMap errBytes)).mem ∧
        (s.mirror.c = [] → s.bsn.capture = none → ∀ r ∈ u.unread, ¬∃ x ∈ rs, x.rseq = r.rseq)) ∧
    (Starts s id 0x0901 c → let old := (s.reg R.JNL_OLDEST).toNat
      let first := if c.par 0 8 = 0 then old else c.par 0 8
      ((first < old ∨ id < first) → exec (.journalQuery id) s = .next ((s.bump R.JNL_QUERIES).finishCmd id .journalRange [0, old % 2 ^ 32, old / 2 ^ 32])) ∧
      (old ≤ first → first ≤ id → let es := s.entriesFrom first id (c.par 8 2)
        es.length ≤ c.par 8 2 ∧ exec (.journalQuery id) s = .next (((s.lanternStore (c.par 16 8) (es.flatMap jBytes)).bump R.JNL_QUERIES).finishCmd id .ok [es.length, old % 2 ^ 32, old / 2 ^ 32]))) ∧
    (Starts s id 0x0902 c → exec (.journalMark id) s = .next (s.finishCmd id .ok [id % 2 ^ 32, id / 2 ^ 32])) ∧
    (Starts s id 0x0704 c → exec (.telemetry id) s = .next (s.finishCmd id .ok [s.fld R.PWR_INPUT F.PWR_INPUT_PIN, s.fld R.PWR_TEMP F.PWR_TEMP_TOWER, max (s.fld R.PWR_TEMP F.PWR_TEMP_DOME_W) (s.fld R.PWR_TEMP F.PWR_TEMP_DOME_E),
      s.fld R.CLK_SPIRE_W F.CLK_SPIRE_W_CUR * 25 / 4 + s.fld R.CLK_SPIRE_E F.CLK_SPIRE_W_CUR * 25 / 4 * 0x10000])) ∧
    (Starts s id 0x0801 c → exec (.secStatus id) s = .next (s.finishCmd id .ok [(s.reg R.SEC_STATE).toNat])) ∧
    (Starts s id 0x0501 c → s.bsnState ≠ 3 → exec (.basinInfo id) s = .next (s.finishCmd id .ok [s.fld R.BSN_CAP F.BSN_CAP_FREE * 4096 / 2 ^ 30, s.fld R.BSN_WEAR F.BSN_WEAR_MAX_PE * 100 / 3000, s.bsn.ckpts.length + (if s.bsn.capture.isSome then 1 else 0)])) ∧
    (Starts s id 0x0501 c → s.bsnState = 3 → exec (.basinInfo id) s = .next (s.finishCmd id .basinReadFailed [])) ∧
    (Starts s id 0x0503 c → (s.bsnState = 3 → exec (.ckptList id) s = .next (s.finishCmd id .basinReadFailed [])) ∧
      (s.bsnState ≠ 3 → let l := s.ckptsHeld.take (c.par 8 2)
        exec (.ckptList id) s = .next ((s.lanternStore (c.par 0 8) (l.flatMap ckptEntry)).finishCmd id .ok [l.length])))

/-- COPY and FILL move or fill ascending barges until one faults, and report how many, a spire whose local store is touched being run to the cycle of the access; XLT_INVALIDATE drops the cached translations of a range and ends once no request on its way used one; PAGE_RESOLVE clears the TRANSLATION faults at an address or turns them into ADDRESS; PAGE_MIGRATE copies the frame and rewrites an entry with P = 0 and MIGR = 1; INTERLEAVE writes a group's entries once no task runs and no epoch is held, and each address of the group then reads what its new place held; RETIRE takes the lowest empty entry and RETIRE_CLEAR frees one or all. So COPY, FILL, XLT_INVALIDATE, PAGE_RESOLVE, PAGE_MIGRATE, INTERLEAVE, RETIRE and RETIRE_CLEAR complete. (R262, R263, R284, R286, R287, R301, R302, R478, R484) -/
def Obligations.MemoryCommands : Prop :=
  ∀ (s : State) (id : Nat) (c : Cmd), InForm s →
    let calm := s.mirror.c = [] ∧ s.bsn.capture = none ∧ s.quiescent = false
    let n := c.par 16 8 / 512
    (Starts s id 0x0201 c → (s.quiescent && (touchesSite (c.par 0 8) || touchesSite (c.par 8 8))) = true → exec (.copy id) s = .next (s.delayCmd c .waitIdle 0xFFFFFFFF)) ∧
    (Starts s id 0x0201 c → (s.quiescent && (touchesSite (c.par 0 8) || touchesSite (c.par 8 8))) = false → let x := copyBarges n (c.par 0 8) (c.par 8 8) 0 s
      exec (.copy id) s = .next (x.2.2.finishCmd id (if x.2.1 then .ok else .copyAddress) [x.1])) ∧
    (∀ k src dst m, s.copyBad src = 0 → s.copyBad dst = 0 → let t := (s.reachAddr src).reachAddr dst
      copyBarges (k + 1) src dst m s = copyBarges k (src + 512) (dst + 512) (m + 1) (t.store dst (t.load src 512))) ∧
    (Starts s id 0x0201 c → calm →
      ((∀ i, i < n → s.copyBad (c.par 0 8 + 512 * i) = 0 ∧ s.copyBad (c.par 8 8 + 512 * i) = 0) → (∀ i, i < n → lsSite (c.par 0 8 + 512 * i) = none ∧ lsSite (c.par 8 8 + 512 * i) = none) → (c.par 0 8 + 512 * n ≤ c.par 8 8 ∨ c.par 8 8 ≤ c.par 0 8) → ∃ u : State, exec (.copy id) s = .next (u.finishCmd id .ok [n]) ∧ u.regs = s.regs ∧ u.hcp = s.hcp ∧
        ∀ x, Memory.readByte u.mem x = if c.par 8 8 ≤ x ∧ x < c.par 8 8 + 512 * n then Memory.readByte s.mem (c.par 0 8 + (x - c.par 8 8)) else Memory.readByte s.mem x) ∧
      (∀ b, b < n → (∀ i, i < b → s.copyBad (c.par 0 8 + 512 * i) = 0 ∧ s.copyBad (c.par 8 8 + 512 * i) = 0) → (∀ i, i < b → lsSite (c.par 0 8 + 512 * i) = none ∧ lsSite (c.par 8 8 + 512 * i) = none) → (s.copyBad (c.par 0 8 + 512 * b) ≠ 0 ∨ s.copyBad (c.par 8 8 + 512 * b) ≠ 0) → ∃ u : State, exec (.copy id) s = .next (u.finishCmd id .copyAddress [b]))) ∧
    (Starts s id 0x0202 c → (s.quiescent && touchesSite (c.par 0 8)) = true → exec (.fill id) s = .next (s.delayCmd c .waitIdle 0xFFFFFFFF)) ∧
    (Starts s id 0x0202 c → (s.quiescent && touchesSite (c.par 0 8)) = false → let x := fillBarges (c.par 8 8 / 512) (c.par 0 8) ((List.range 64).flatMap (fun _ => bytesLE 8 (c.par 16 8))) 0 s
      exec (.fill id) s = .next (x.2.2.finishCmd id (if x.2.1 then .ok else .copyAddress) [x.1])) ∧
    (∀ k dst bs m, s.copyBad dst = 0 → fillBarges (k + 1) dst bs m s = fillBarges k (dst + 512) bs (m + 1) ((s.reachAddr dst).store dst bs)) ∧
    (Starts s id 0x0202 c → calm → let m := c.par 8 8 / 512
      ((∀ i, i < m → s.copyBad (c.par 0 8 + 512 * i) = 0) → (∀ i, i < m → lsSite (c.par 0 8 + 512 * i) = none) → ∃ u : State, exec (.fill id) s = .next (u.finishCmd id .ok [m]) ∧ u.regs = s.regs ∧ u.hcp = s.hcp ∧
        ∀ x, Memory.readByte u.mem x = if c.par 0 8 ≤ x ∧ x < c.par 0 8 + 512 * m then (bytesLE 8 (c.par 16 8)).getD ((x - c.par 0 8) % 8) 0#8 else Memory.readByte s.mem x) ∧
      (∀ b, b < m → (∀ i, i < b → s.copyBad (c.par 0 8 + 512 * i) = 0) → (∀ i, i < b → lsSite (c.par 0 8 + 512 * i) = none) → s.copyBad (c.par 0 8 + 512 * b) ≠ 0 → ∃ u : State, exec (.fill id) s = .next (u.finishCmd id .copyAddress [b]))) ∧
    (Starts s id 0x0203 c → ∃ u : State, exec (.xltInvalidate id) s = .next (if s.usesOld (c.par 0 8) (c.par 8 8) then u.startCmd c 0 else u.finishCmd id .ok []) ∧ u.regs = s.regs ∧ u.mem = s.mem ∧ u.hcp = s.hcp ∧
      ∀ site, (u.spire site).mover.xlt = (s.spire site).mover.xlt.filter (fun x => !(c.par 8 8 == 0 || (Nat.blt x.va (c.par 0 8 + c.par 8 8) && Nat.blt (c.par 0 8) (x.va + x.size)))) ∧ (u.spire site).vreg = (s.spire site).vreg) ∧
    (s.cmd? id = some c → c.opcode = 0x0203 → c.started = true → exec (.xltInvalidate id) s = .next (if s.usesOld (c.par 0 8) (c.par 8 8) then s else s.finishCmd id .ok [])) ∧
    (Starts s id 0x0204 c → let a := c.par 0 8
      s.waitingNodes a = [] → s.waitingColls a = [] → let sites := s.translationSites (fun x _ => x == a)
        (c.par 8 1 = 0 → exec (.pageResolve id) s = .next ((sites.foldl (fun s i => s.clearFault i) s).finishCmd id .ok [sites.length])) ∧
        (c.par 8 1 = 1 → exec (.pageResolve id) s = .next ((sites.foldl (fun s i => s.faultToAddress i) s).finishCmd id .ok [sites.length]))) ∧
    (Starts s id 0x0205 c → let ea := c.par 0 8
      let frame := c.par 8 8
      let size := if c.par 16 1 = 0 then 0x10000 else 0x200000
      let e := s.loadLE ea 8
      let old := e / 256 % 2 ^ 40 * 256
      ((e % 2 = 1 ∨ e / 32 % 2 = 0) → exec (.pageMigrate id) s = .next (s.finishCmd id .badState [])) ∧
      (e % 2 = 0 → e / 32 % 2 = 1 → ∃ u : State, exec (.pageMigrate id) s = .next (u.finishCmd id .ok [])) ∧
      (e % 2 = 0 → e / 32 % 2 = 1 → calm → s.translationSites (fun _ m => m) = [] → s.migrColls = [] → (ea + 8 ≤ frame ∨ frame + size ≤ ea) → ∃ u : State, exec (.pageMigrate id) s = .next (u.finishCmd id .ok []) ∧ u.regs = s.regs ∧ u.hcp = s.hcp ∧
        (∀ x, frame ≤ x → x < frame + size → Memory.readByte u.mem x = Memory.readByte s.mem (old + (x - frame))) ∧ u.loadLE ea 8 = e + 1 - 32 - old + frame / 256 * 256 % 2 ^ 48 ∧
        (∀ x, (x < frame ∨ frame + size ≤ x) → (x < ea ∨ ea + 8 ≤ x) → Memory.readByte u.mem x = Memory.readByte s.mem x))) ∧
    (Starts s id 0x0206 c → let d := c.par 0 1
      let g := c.par 1 1
      (ilSetOk c.ilEntries = false → exec (.interleave id) s = .next (s.refuseCmd id .badParam 8)) ∧
      (ilSetOk c.ilEntries = true → s.specOn = true → g = 47 → exec (.interleave id) s = .next (s.refuseCmd id .badState 1)) ∧
      (ilSetOk c.ilEntries = true → ¬(s.specOn = true ∧ g = 47) → (s.tasks ≠ [] ∨ s.epState 0 ≠ 0 ∨ s.epState 1 ≠ 0) → ∃ e, exec (.interleave id) s = .next (s.delayCmd c .waitIdle e)) ∧
      (ilSetOk c.ilEntries = true → ¬(s.specOn = true ∧ g = 47) → s.tasks = [] → s.epState 0 = 0 → s.epState 1 = 0 → ¬(d = 0 ∧ g = 46) → ∃ u : State, exec (.interleave id) s = .next (u.finishCmd id .ok []) ∧
        u.reg (R.TWR_IL (48 * d + g)) = BitVec.ofNat 64 (c.par 8 8) ∧ (∀ o, o ≠ R.TWR_IL (48 * d + g) → u.reg o = s.reg o) ∧ (∀ site, (u.spire site).mover.l1 = []) ∧
        (∀ x, inGroup d g x = false → Memory.readByte u.mem x = Memory.readByte s.mem x) ∧
        (d < 2 → g < 48 → ilSetOk ((List.range 8).map (fun k => s.ilEntry d (8 * g + k))) = true → ∀ x, inGroup d g x = true → let p := u.towerPlace x
          Memory.readByte u.mem x = Memory.readByte s.mem (s.towerAddr p.1 p.2.1 p.2.2 + x % 512)))) ∧
    (Starts s id 0x0207 c → let w := c.par 0 8
      (s.retireOk w = false → exec (.retire id) s = .next (s.refuseCmd id .badParam 0)) ∧
      (s.retireOk w = true → (∃ k, (k, w) ∈ s.retireEntries) → exec (.retire id) s = .next (s.refuseCmd id .retireDuplicate 0)) ∧
      (s.retireOk w = true → (¬∃ k, (k, w) ∈ s.retireEntries) → (∀ k, k < 512 → ∃ x, (k, x) ∈ s.retireEntries) → exec (.retire id) s = .next (s.refuseCmd id .retireFull 0)) ∧
      (∀ k, s.retireOk w = true → (¬∃ j, (j, w) ∈ s.retireEntries) → k < 512 → (¬∃ x, (k, x) ∈ s.retireEntries) → (∀ j, j < k → ∃ x, (j, x) ∈ s.retireEntries) → ∃ u : State, exec (.retire id) s = .next (u.finishCmd id .ok [k]) ∧
        u.reg (R.TWR_RETIRE k) = BitVec.ofNat 64 w ∧ (∀ o, o ≠ R.TWR_RETIRE k → o ≠ R.TWR_RETIRE_USED → u.reg o = s.reg o) ∧ u.mem = s.mem)) ∧
    (Starts s id 0x0208 c → let k := c.par 0 2
      ∃ u : State, exec (.retireClear id) s = .next (u.finishCmd id .ok []) ∧ u.mem = s.mem ∧ u.hcp = s.hcp ∧
        (k < 512 → u.reg (R.TWR_RETIRE k) = 0 ∧ ∀ o, o ≠ R.TWR_RETIRE k → o ≠ R.TWR_RETIRE_USED → u.reg o = s.reg o) ∧
        (k = 0xFFFF → u.retireEntries = [] ∧ ∀ o, (o < R.TWR_RETIRE 0 ∨ R.TWR_RETIRE 512 ≤ o) → o ≠ R.TWR_RETIRE_USED → u.reg o = s.reg o))

/-- PROGRAM_LOAD and PROGRAM_UNLOAD list and unlist a program, which waits while a task of it runs; LAUNCH is refused or waits as the rules say, and otherwise starts a task on its gang, whose spires stand RUNNING with its handle and an empty L1; GRAPH_SUBMIT starts; PAUSE of a running task stops its spires; ABORT marks every live spire FAULTED; TASK_QUERY reports state and run time; each of them fails with BAD_STATE for a handle that names no task; SPIRE_FENCE takes a spire out and puts it back. So PROGRAM_LOAD, PROGRAM_UNLOAD, LAUNCH, GRAPH_SUBMIT, PAUSE, RESUME, ABORT, TASK_QUERY and SPIRE_FENCE complete. (R76, R95, R98, R102, R107, R110, R332, R485, R487, R489) -/
def Obligations.TaskCommands : Prop :=
  ∀ (s : State) (id : Nat) (c : Cmd), InForm s →
    (Starts s id 0x0301 c → let h := Config.programHandle s.progCount
      (Config.imageValid (s.load (c.par 0 8) (c.par 8 8)) = true → exec (.programLoad id) s = .next (({ s with programs := s.programs ++ [{ handle := h, addr := c.par 0 8, size := c.par 8 8 }], progCount := s.progCount + 1 } : State).finishCmd id .ok [h.toNat, h.toNat / 2 ^ 32])) ∧
      (Config.imageValid (s.load (c.par 0 8) (c.par 8 8)) = false → exec (.programLoad id) s = .next (s.finishCmd id .programInvalid []))) ∧
    (Starts s id 0x0302 c → let used := (∃ p ∈ s.tasks, p.2.program = c.par 0 8) ∨ ∃ x ∈ s.hcp.cmds, x.opcode = 0x0303 ∧ x.par 0 8 = c.par 0 8
      (¬used → ∃ u : State, exec (.programUnload id) s = .next (u.finishCmd id .ok []) ∧ (∀ p ∈ u.programs, p.handle.toNat ≠ c.par 0 8) ∧ (∀ p ∈ s.programs, p.handle.toNat ≠ c.par 0 8 → p ∈ u.programs) ∧ u.regs = s.regs ∧ u.mem = s.mem) ∧
      (used → ∃ e, exec (.programUnload id) s = .next (s.delayCmd c .waitTasks e))) ∧
    (Starts s id 0x0303 c → let b := launchBlk c.pkt
      let h := handleOf c.queue c.seq none
      let sites := (gangOf b).filterMap s.siteOf
      (∀ st r, s.launchRefused b = some (st, r) → exec (.launch id) s = .next (s.refuseCmd id st r)) ∧
      (s.launchRefused b = none → s.quiescent = false → (∃ p ∈ s.tasks, ∃ i ∈ p.2.gang, i ∈ sites) → ∃ e, exec (.launch id) s = .next (s.delayCmd c .waitSpires e)) ∧
      (s.launchRefused b = none → s.quiescent = false → (∀ p ∈ s.tasks, ∀ i ∈ p.2.gang, i ∉ sites) → 32 ≤ s.tasks.length → ∃ e, exec (.launch id) s = .next (s.delayCmd c .waitGangSlot e)) ∧
      (s.launchRefused b = none → s.quiescent = false → (∀ p ∈ s.tasks, ∀ i ∈ p.2.gang, i ∉ sites) → s.tasks.length < 32 → blkAt b 320 8 = 0 → (∃ u : State, exec (.launch id) s = .next (u.startCmd c h))) ∧
      (s.launchRefused b = none → s.quiescent = false → (∀ p ∈ s.tasks, ∀ i ∈ p.2.gang, i ∉ sites) → s.tasks.length < 32 → blkAt b 320 8 = 0 → (∀ i ∈ sites, (s.spire i).upds = []) → ∃ (u : State) (t : Task), exec (.launch id) s = .next (u.startCmd c h) ∧
        tfind u.tasks h = some t ∧ t.gang = sites ∧ t.cmd = some id ∧ t.start = s.now ∧ t.limit = blkAt b 264 4 ∧ t.program = blkAt b 0 8 ∧ t.finished = [] ∧ t.fault = none ∧ u.mem = s.mem ∧ (∀ i, i ∈ sites → (u.spire i).mover.l1 = []) ∧
        (∀ i, i ∈ sites → i < 1024 → u.spState i = 1 ∧ u.fld (R.SPR_STATUS i) F.SPR_STATUS_TASK = h % 2 ^ 16 ∧ u.reg (R.SPR_NUMSTAT i) = 0 ∧ ((u.spire i).eng .vector).st = .idle ∧ (u.spire i).landings = []) ∧
        (∀ i, i ∉ sites → u.spire i = s.spire i))) ∧
    (Starts s id 0x0304 c → exec (.graphSubmit id) s = .next (s.startCmd c 0)) ∧
    (tfind s.tasks (c.par 0 4) = none →
      (Starts s id 0x0305 c → exec (.pause id) s = .next (s.finishCmd id .badState [])) ∧ (Starts s id 0x0306 c → exec (.resume id) s = .next (s.finishCmd id .badState [])) ∧
      (Starts s id 0x0307 c → exec (.abort id) s = .next (s.finishCmd id .badState [])) ∧ (Starts s id 0x030B c → exec (.taskQuery id) s = .next (s.finishCmd id .badState []))) ∧
    (∀ t, tfind s.tasks (c.par 0 4) = some t →
      (Starts s id 0x0306 c → (s.isPaused t = true → (∃ i ∈ t.gang, s.spState i = 3) → exec (.resume id) s = .next ((t.gang.foldl (fun s i => s.resumeSpire i) s).finishCmd id .ok [])) ∧
        ((s.isPaused t = false ∨ ∀ i ∈ t.gang, s.spState i ≠ 3) → exec (.resume id) s = .next (s.finishCmd id .badState []))) ∧
      (Starts s id 0x0305 c → let u := t.gang.foldl (fun s i => s.pauseSpire i) s
        ((∃ i ∈ t.gang, s.spState i = 1) → exec (.pause id) s = .next (if u.isPaused t then u.finishCmd id .ok [] else (u.setTask { t with pauseCmds := t.pauseCmds ++ [id] }).startCmd c 0)) ∧
        ((∀ i ∈ t.gang, s.spState i ≠ 1) → s.isPaused t = false → exec (.pause id) s = .next (s.finishCmd id .badState []))) ∧
      (Starts s id 0x0307 c → let u := t.gang.foldl (fun s i => s.abortSpire i 9) (s.setTask { t with abortCmds := t.abortCmds ++ [id] })
        let i := t.gang.headD 0
        exec (.abort id) s = .next ((u.raise 0x0201 2 i 0 (u.reg (R.SPR_FAULT i)).toNat 0).startCmd c 0) ∧ ∀ j, j ∈ t.gang → j < 1024 → s.spLive j = true → u.spState j = 4) ∧
      (Starts s id 0x030B c → (∀ i, t.gang.head? = some i → s.spState i ≠ 5 → exec (.taskQuery id) s = .next (s.finishCmd id .ok [s.spState i, (s.now - t.start) / 1000])) ∧
        ((∀ i ∈ t.gang, s.spState i = 5) → exec (.taskQuery id) s = .next (s.finishCmd id .ok [5, (s.now - t.start) / 1000])))) ∧
    (Starts s id 0x0602 c → (s.siteOf (c.par 0 2) = none → exec (.spireFence id) s = .next (s.refuseCmd id .badParam 0)) ∧
      ∀ site, s.siteOf (c.par 0 2) = some site →
        (c.par 2 1 = 0 → s.spState site ≠ 6 → s.taskAt site = none → exec (.spireFence id) s = .next ((s.setSpState site 6).finishCmd id .ok [])) ∧
        (c.par 2 1 = 0 → s.spState site = 6 → exec (.spireFence id) s = .next (s.finishCmd id .ok [])) ∧
        (c.par 2 1 = 1 → s.spState site = 6 → exec (.spireFence id) s = .next ((s.setSpState site 0).finishCmd id .ok [])) ∧
        (c.par 2 1 = 1 → s.spState site ≠ 6 → exec (.spireFence id) s = .next (s.finishCmd id .ok [])))

/-- EPOCH_OPEN takes the first free slot, refuses a number that is held or a parent that is not open, and waits for a slot; EPOCH_COMMIT of an open epoch with no task, parent or capture in the way commits it at once and drains it, and otherwise waits; EPOCH_DISCARD drops what it holds; a drained slot is FREE; each wait that reaches the limit is reported once; GLB_SPEC_CTL.EN changes only while nothing runs; PREDICATE_EVALUATION starts or skips the node that has been eligible longest. So PREDICATE_EVALUATION, EPOCH_COMMIT_INSTANT, EPOCH_DRAIN_COMPLETE, EPOCH_STALL_LIMIT, SPEC_CTL_WRITE, EPOCH_OPEN, EPOCH_COMMIT and EPOCH_DISCARD complete. (R167, R169, R170, R264, R265, R270, R271, R272, R273, R279) -/
def Obligations.EpochsAndPredicates : Prop :=
  (∀ (s : State) (id : Nat) (c : Cmd), InForm s →
    let n := c.par 0 8
    (Starts s id 0x0308 c →
      (∀ j, s.epSlot n = some j → exec (.epochOpen id) s = .next (s.refuseCmd id .epochDuplicate 0)) ∧
      (s.epSlot n = none → c.par 8 8 ≠ 0 → s.epSlot (c.par 8 8) = none → exec (.epochOpen id) s = .next (s.refuseCmd id .epochUnknown 8)) ∧
      (s.epSlot n = none → c.par 8 8 = 0 → s.epState 0 ≠ 0 → s.epState 1 ≠ 0 → exec (.epochOpen id) s = .next (s.delayCmd c .waitEpochSlot 0xFFFFFFFF)) ∧
      (∀ k, s.epSlot n = none → c.par 8 8 = 0 → k < 2 → s.epState k = 0 → (∀ j, j < k → s.epState j ≠ 0) → ∃ u : State, exec (.epochOpen id) s = .next (u.finishCmd id .ok [k]) ∧
        u.epState k = 1 ∧ u.epParent k = none ∧ u.epNum k = n % 2 ^ 64 ∧ (u.epoch k).quarters = [] ∧ u.epState (1 - k) = s.epState (1 - k) ∧ u.epoch (1 - k) = s.epoch (1 - k) ∧ u.mem = s.mem) ∧
      (∀ k j, s.epSlot n = none → c.par 8 8 ≠ 0 → s.epSlot (c.par 8 8) = some j → (s.epState j = 1 ∨ s.epState j = 2) → k < 2 → s.epState k = 0 → (∀ j, j < k → s.epState j ≠ 0) → ∃ u : State, exec (.epochOpen id) s = .next (u.finishCmd id .ok [k]) ∧
        u.epState k = 1 ∧ u.epParent k = some j ∧ u.epNum k = n % 2 ^ 64)) ∧
    (Starts s id 0x0309 c → ∀ k, s.epSlot n = some k →
      (s.epState k = 3 → exec (.epochCommit id) s = .next (s.finishCmd id .epochDiscarded [])) ∧
      (s.epState k = 1 → s.epochTasks k ≠ 0 → ∃ e, exec (.epochCommit id) s = .next (s.delayCmd c .waitTasks e)) ∧
      (s.epState k = 1 → s.epochTasks k = 0 → (s.epParent k).isSome = true → exec (.epochCommit id) s = .next (s.delayCmd c .waitParent 0xFFFFFFFF)) ∧
      (s.epState k = 1 → s.epochTasks k = 0 → s.epParent k = none → s.bsn.capture = none → s.mirror.c = [] → (s.epoch (1 - k)).waiting = [] → s.epState (1 - k) ≠ 2 → ∃ u : State, exec (.epochCommit id) s = .next (u.finishCmd id .ok [s.now % 2 ^ 32, s.now / 2 ^ 32]) ∧
        u.epState k = 4 ∧ u.reg R.GLB_SPEC_COMMITS = s.reg R.GLB_SPEC_COMMITS + 1 ∧ (u.epoch k).quarters = [] ∧ u.jnl.lastSpec = s.epNum k ∧
        (s.epParent (1 - k) = some k → u.epParent (1 - k) = none) ∧ (∀ q bs, (s.epoch k).quarters = [(q, bs)] → ∀ x, Memory.readByte u.mem x = if q ≤ x ∧ x < q + bs.length then bs.getD (x - q) 0#8 else Memory.readByte s.mem x))) ∧
    (Starts s id 0x0309 c → s.epSlot n = none → exec (.epochCommit id) s = .next (if c.delayed.isSome then s.finishCmd id .epochDiscarded [] else s.refuseCmd id .epochUnknown 0)) ∧
    (Starts s id 0x030A c → s.epSlot n = none → exec (.epochDiscard id) s = .next (s.refuseCmd id .epochUnknown 0)) ∧
    (Starts s id 0x030A c → ∀ k, s.epSlot n = some k → s.epState k = 1 → (s.epoch k).waiting = [] → (s.epoch (1 - k)).waiting = [] → s.epState (1 - k) = 0 → ∃ u : State, exec (.epochDiscard id) s = .next (u.finishCmd id .ok []) ∧
      u.epState k = (if s.epochTasks k = 0 then 5 else 3) ∧ (u.epoch k).quarters = [] ∧ u.mem = s.mem ∧ u.reg R.GLB_SPEC_DISCARDS = s.reg R.GLB_SPEC_DISCARDS + 1)) ∧
  (∀ (s : State) (k : Nat), InForm s → k < 2 →
    ((s.epoch k).commit = true → s.epState k = 1 → s.commitWait k = none → exec (.epochCommitInstant k) s = .next (s.commitSlot k)) ∧
    ((s.epoch k).commit = false → ∀ c, s.epState k = 1 → s.hcp.cmds.find? (fun c => c.opcode == 0x0309 && c.par 0 8 == s.epNum k && c.delayed.isSome) = some c → exec (.epochCommitInstant k) s = exec (.epochCommit c.dseq) s) ∧
    ((s.epState k = 4 ∨ s.epState k = 5) → (s.epoch (1 - k)).waiting = [] → s.epState (1 - k) ≠ 2 → s.jobState ≠ 2 → ∃ u : State, exec (.epochDrainComplete k) s = .next u ∧ u.epState k = 0 ∧ u.epNum k = 0 ∧ (u.epoch k).spilled = [] ∧ u.mem = s.mem) ∧
    (∀ w, (s.epoch k).waiting.find? (fun x => !x.reported) = some w → s.fld R.GLB_SPEC_CTL F.GLB_SPEC_CTL_STALL_LIM ≠ 0 → ∃ u : State, exec (.epochStallLimit k) s = .next u ∧ (u.epoch k).waiting = (s.epoch k).waiting.replace w { w with reported := true } ∧ u.now = max s.now (w.since + 1000 * s.fld R.GLB_SPEC_CTL F.GLB_SPEC_CTL_STALL_LIM) ∧ u.reg R.GLB_SPEC_STALLS = s.reg R.GLB_SPEC_STALLS + 1 ∧ u.epState k = s.epState k) ∧
    ((∀ w ∈ (s.epoch k).waiting, w.reported = true) → exec (.epochStallLimit k) s = .next s)) ∧
  (∀ (s : State) (v : Word), InForm s → ∃ u : State, exec (.specCtlWrite v) s = .next u ∧ u.mem = s.mem ∧ (∀ o, o ≠ R.GLB_SPEC_CTL → u.reg o = s.reg o) ∧
    u.fld R.GLB_SPEC_CTL F.GLB_SPEC_CTL_STALL_LIM = fget v F.GLB_SPEC_CTL_STALL_LIM ∧ u.fld R.GLB_SPEC_CTL F.GLB_SPEC_CTL_DRAIN_SHARE = fget v F.GLB_SPEC_CTL_DRAIN_SHARE ∧
    u.fld R.GLB_SPEC_CTL F.GLB_SPEC_CTL_EN = if s.tasks = [] ∧ s.epState 0 = 0 ∧ s.epState 1 = 0 then fget v F.GLB_SPEC_CTL_EN else s.fld R.GLB_SPEC_CTL F.GLB_SPEC_CTL_EN) ∧
  (∀ (s : State) (g k : Nat) (x : Graph) (n : GNode) (c : Cmd), tfind s.graphs g = some x → x.nodes[k]? = some n → s.cmd? g = some c → c.started = true → x.failed = none → n.st = .wait → s.entryWaits g = false →
    x.elig.find? (fun j => match x.nodes[j]? with | some m => m.st == .wait | none => false) = some k →
    (predOp n.pred = 0 → exec (.predicateEvaluation g k) s = .next (s.startNode g k n x)) ∧
    (∀ m, x.nodes[predRef n.pred]? = some m → (predOp n.pred = 6 → exec (.predicateEvaluation g k) s = .next (if m.st = .done then s.startNode g k n x else s.nodeDone g k .skippedPredicate [0, 0, 0])) ∧
      (predOp n.pred = 7 → exec (.predicateEvaluation g k) s = .next (if m.st = .skipped then s.startNode g k n x else s.nodeDone g k .skippedPredicate [0, 0, 0]))) ∧
    (∀ pa n1, 1 ≤ predOp n.pred → predOp n.pred ≤ 4 → s.place (s.nodeView n).1 (predAddr n.pred) 8 false = .at_ [(pa, n1)] → let w := natLE (((s.quarterFor (s.nodeView n).2 (pa / 128 * 128)).drop (pa % 128)).take 8)
      exec (.predicateEvaluation g k) s = .next (if wordHolds n.pred w then s.startNode g k n x else s.nodeDone g k .skippedPredicate [0, 0, 0])))

/-- POD_CONFIG takes the logical map and the gateway mark, builds the default tables and is OK when every live pair has a route; JOB_START with a well-formed mapping that the others agree with starts the job RUNNING with its identifier and loss scale, and a rejoining module is STOPPED; JOB_END ends a job once nothing of it runs, and waits until then; JOB_STOP stops a RUNNING job, and is OK at once in STOPPED; PAIR configures the pair when the partner confirms, and fails after 10 ms without. So POD_CONFIG, JOB_START, JOB_END, JOB_STOP, PAIR and PAIR_CONFIRM_TIMEOUT complete. (R374, R378, R427, R448, R449, R450, R490, R553, R554, R557, R568, R569) -/
def Obligations.JobCommands : Prop :=
  (∀ (s : State) (id : Nat) (c : Cmd), InForm s →
    (Starts s id 0x0401 c → let u := s.takeMap c
      (u.unroutable = true → exec (.podConfig id) s = .next (u.finishCmd id .tablesUnbuildable [])) ∧
      (u.unroutable = false → exec (.podConfig id) s = .next (u.mapReady.showParent.releaseHeld.finishCmd id .ok [])) ∧
      u.mem = s.mem ∧ u.fld R.LNK_POD_CFG F.LNK_POD_CFG_GATEWAY = (if c.par 64 1 = s.position then 1 else 0) ∧
      ((∃ l, l < 64 ∧ c.par l 1 < 64) → ∀ l, l < 64 → u.posOf l = if c.par l 1 < 64 then some (c.par l 1) else none)) ∧
    (∀ r, Starts s id 0x0402 c →
      (s.jobState ≠ 0 → exec (.jobStart id r) s = .next (s.finishCmd id .badState [])) ∧
      (∀ k, s.jobState = 0 → s.mappingFault (c.par 8 64) (c.par 90 1 == 1) = some k → exec (.jobStart id r) s = .next (s.refuseCmd id .mappingInvalid k)) ∧
      (s.jobState = 0 → s.mappingFault (c.par 8 64) (c.par 90 1 == 1) = none → s.mirror.c = [] → s.bsn.capture = none →
        let begun := fun (rejoin : Bool) => ∃ u : State, exec (.jobStart id r) s = .next (u.finishCmd id .ok []) ∧ u.jobState = (if rejoin then 3 else 1) ∧ u.reg R.ERR_JOB_ID = BitVec.ofNat 64 (c.par 0 8) ∧
          u.job.root = c.par 72 8 ∧ u.job.mapping = BitVec.ofNat 512 (c.par 8 64) ∧ u.fld R.GLB_PGT_BASE F.GLB_PGT_BASE_NGROUPS = c.par 88 2 % 2 ^ 13 ∧
          (rejoin = true → u.reg R.GLB_STEPS = s.reg R.GLB_STEPS ∧ u.reg R.GLB_LS_STATE = s.reg R.GLB_LS_STATE) ∧
          (rejoin = false → c.par 91 1 % 2 = 0 → u.reg R.GLB_STEPS = 0 ∧ u.lsClean = 0 ∧ u.lsExp = lsLimit (s.fld R.GLB_LS_CTL F.GLB_LS_CTL_INIT_EXP)) ∧
          (rejoin = false → c.par 91 1 % 2 = 1 → u.reg R.GLB_STEPS = BitVec.ofNat 64 (c.par 96 8) ∧ u.lsExp = sbyte (c.par 92 1))
        ((r = .agree ∨ (r = .none ∧ s.alone = true)) → begun false) ∧ (∀ p, r = .stopped p → begun true) ∧
        (r = .none → s.alone = false → exec (.jobStart id r) s = .next (s.startCmd c 0)) ∧
        (r = .differ → exec (.jobStart id r) s = .next (s.finishCmd id .jobMismatch [])))) ∧
    (Starts s id 0x0403 c → let idle := s.tasks = [] ∧ s.coll.running = [] ∧ s.epState 0 = 0 ∧ s.epState 1 = 0
      ((s.jobState = 0 ∨ (s.reg R.ERR_JOB_ID).toNat ≠ c.par 0 8) → exec (.jobEnd id) s = .next (s.finishCmd id .badState [])) ∧
      (s.jobState ≠ 0 → (s.reg R.ERR_JOB_ID).toNat = c.par 0 8 → idle → exec (.jobEnd id) s = .next ((s.setReg R.ERR_JOB 0).finishCmd id .ok []) ∧ (s.setReg R.ERR_JOB 0).jobState = 0) ∧
      (s.jobState ≠ 0 → (s.reg R.ERR_JOB_ID).toNat = c.par 0 8 → ¬idle → exec (.jobEnd id) s = .next (s.delayCmd c .waitTasks 0xFFFFFFFF))) ∧
    (Starts s id 0x0404 c →
      ((s.jobState = 0 ∨ (s.reg R.ERR_JOB_ID).toNat ≠ c.par 0 8) → exec (.jobStop id) s = .next (s.finishCmd id .badState [])) ∧
      (s.jobState = 3 → (s.reg R.ERR_JOB_ID).toNat = c.par 0 8 → exec (.jobStop id) s = .next (s.finishCmd id .ok [])) ∧
      (s.jobState = 2 → (s.reg R.ERR_JOB_ID).toNat = c.par 0 8 → exec (.jobStop id) s = .next (s.startCmd c 0)) ∧
      (s.jobState = 1 → (s.reg R.ERR_JOB_ID).toNat = c.par 0 8 → exec (.jobStop id) s = .next ((s.newStopId.2.sendStop s.newStopId.1).startCmd c 0) ∧ s.newStopId.1 ≠ 0)) ∧
    (Starts s id 0x0405 c → exec (.pair id .none) s = .next (s.startCmd c 0)) ∧
    (∀ e rs cs, Starts s id 0x0405 c → s.mirror.c = [] → ∃ u : State, exec (.pair id (.confirm e rs cs)) s = .next (u.finishCmd id .ok []) ∧ u.mem = s.mem ∧ u.fld R.LNK_MIR_CFG F.LNK_MIR_CFG_EN = 1 ∧ u.fld R.LNK_MIR_CFG F.LNK_MIR_CFG_PARTNER = c.par 0 1 % 64 ∧
      u.mirror.regions = s.regionList (c.par 8 8) (c.par 1 1) ∧ u.mirror.openEpoch = (if s.jobState = 3 then 0 else (s.reg R.LNK_MIR_EPOCH).toNat + 1) ∧ (e = true → u.mirror.full = true ∧ u.mirror.fullLeft = u.mirror.allChunks))) ∧
  (∀ (s : State) (id : Nat) (c : Cmd), s.waiting 0x0405 id = some c →
    (∀ e rs cs, exec (.pair id (.confirm e rs cs)) s = .next ((s.pairReply c (.confirm e rs cs)).2.finishCmd id .ok [])) ∧
    exec (.pairConfirmTimeout id) s = .next (({ s with now := max s.now (c.tStart + 10000000) } : State).finishCmd id .pairOneSided [])) ∧
  (∀ (s : State) (id : Nat) (c : Cmd) (r : JobReply), s.waiting 0x0402 id = some c → exec (.jobStart id r) s = .next (match r with | .none => s | .differ => s.finishCmd id .jobMismatch [] | .agree => (s.jobStarted c false).finishCmd id .ok [] | .stopped p => ((s.jobStarted c true).rejoinPair p).finishCmd id .ok []))

/-- SYNC_GROUPS_LOAD and CANAL_GROUPS_LOAD write their entries and no others, the second refused by the first entry that is not valid; STAGEQ_LOAD replaces the stage queues; PHASE_LIST_LOAD takes the phases, the first into the active bank, unless a table leaves a live position unrouted; MIRROR_CLOSE moves the dirty chunks of the open epoch into the close and opens the next; SUBSTITUTE gives the number to the spare and starts a phase boundary; COLLECTIVE and STEP_END start and are queued, a second STEP_END waits, and the step latch is captured; a pod configuration record is kept in the store. So SYNC_GROUPS_LOAD, CANAL_GROUPS_LOAD, STAGEQ_LOAD, PHASE_LIST_LOAD, COLLECTIVE, STEP_END, MIRROR_CLOSE, SUBSTITUTE and POD_CONFIGURATION_RECORD complete. (R228, R333, R338, R364, R365, R376, R379, R383, R388, R418, R423, R453) -/
def Obligations.FabricTables : Prop :=
  ∀ (s : State) (id : Nat) (c : Cmd), InForm s →
    (Starts s id 0x0406 c → twf (fun _ => 0#128) s.syncGroups → ∃ u : State, exec (.syncGroupsLoad id) s = .next (u.finishCmd id .ok []) ∧ u.regs = s.regs ∧ u.mem = s.mem ∧ u.hcp = s.hcp ∧
      ∀ g, tget (fun _ => 0) u.syncGroups g = if c.par 8 1 ≤ g ∧ g < c.par 8 1 + c.par 9 1 then BitVec.ofNat 128 (s.loadLE (c.par 0 8 + 16 * (g - c.par 8 1)) 16) else tget (fun _ => 0) s.syncGroups g) ∧
    (Starts s id 0x0407 c → let f := c.par 8 1
      let n := c.par 9 1
      (∀ i, i < n → (∀ j, j < i → (s.canalGroup (c.par 0 8 + 128 * j)).isSome = true) → s.canalGroup (c.par 0 8 + 128 * i) = none → exec (.canalGroupsLoad id) s = .next (s.refuseCmd id .groupInvalid i)) ∧
      ((∀ j, j < n → (s.canalGroup (c.par 0 8 + 128 * j)).isSome = true) → (∀ p ∈ s.canal.forks, ∀ x ∈ p.2, x.pkt.dest < f ∨ f + n ≤ x.pkt.dest) → ∃ u : State, exec (.canalGroupsLoad id) s = .next (u.finishCmd id .ok []) ∧ u.regs = s.regs ∧ u.mem = s.mem ∧ u.hcp = s.hcp ∧
        ∀ g, tfind u.groups g = if f ≤ g ∧ g < f + n then s.canalGroup (c.par 0 8 + 128 * (g - f)) else tfind s.groups g)) ∧
    (∀ bad, Starts s id 0x0408 c → let e := fun (i : Nat) => BitVec.ofNat 512 (s.loadLE (c.par 0 8 + 64 * i) 64)
      let n := c.par 8 1
      let es := (List.range n).map e
      (∀ i, i < n → (∀ j, j < i → (s.sqOk (e j) && s.sqPair es j) = true) → (s.sqOk (e i) && s.sqPair es i) = false → exec (.stageqLoad id bad) s = .next (s.refuseCmd id .badParam i)) ∧
      (∀ i, (∀ j, j < n → (s.sqOk (e j) && s.sqPair es j) = true) → bad = some i → exec (.stageqLoad id bad) s = .next (s.refuseCmd id .badParam i)) ∧
      ((∀ j, j < n → (s.sqOk (e j) && s.sqPair es j) = true) → bad = none → ∃ u : State, exec (.stageqLoad id bad) s = .next (u.finishCmd id .ok []) ∧ u.mem = s.mem ∧ u.hcp = s.hcp ∧
        ∀ i, (tfind u.stq i).map (fun x => (x.entry, x.ahead, x.behind)) = if i < n ∧ sqAt (e i) 0 1 ≠ 0 then some (e i, 0, 0) else none)) ∧
    (Starts s id 0x0409 c → let ps := (List.range (c.par 8 1)).map (fun i => s.phaseAt (c.par 0 8 + 544 * i))
      (ps.any (fun p => p.entries.any s.tableBad) = true → exec (.phaseListLoad id) s = .next (s.finishCmd id .tablesUnbuildable [])) ∧
      (ps.any (fun p => p.entries.any s.tableBad) = false → c.par 8 1 ≠ 0 → ∃ u : State, exec (.phaseListLoad id) s = .next (u.finishCmd id .ok []) ∧ u.pod.phases = ps ∧ u.pod.shadowLoaded = false ∧ u.fld R.LNK_PHASE_CTL F.LNK_PHASE_CTL_PHASE = 0 ∧ u.bank = s.bank ∧ u.mem = s.mem ∧ u.hcp = s.hcp)) ∧
    (Starts s id 0x040C c → let m := s.mirror
      let n := c.par 0 8
      ((s.fld R.LNK_MIR_CFG F.LNK_MIR_CFG_EN = 0 ∨ m.openEpoch ≠ n) → exec (.mirrorClose id) s = .next (s.finishCmd id .badState [])) ∧
      (s.fld R.LNK_MIR_CFG F.LNK_MIR_CFG_EN = 1 → m.openEpoch = n → n ≠ 0 → s.epochPersists = true → exec (.mirrorClose id) s = .next (s.delayCmd c .waitSpeculation 0xFFFFFFFF)) ∧
      (s.fld R.LNK_MIR_CFG F.LNK_MIR_CFG_EN = 1 → m.openEpoch = n → n ≠ 0 → s.epochPersists = false → m.closing.isSome = true → exec (.mirrorClose id) s = .next (s.delayCmd c .waitMirror 0xFFFFFFFF)) ∧
      (s.fld R.LNK_MIR_CFG F.LNK_MIR_CFG_EN = 1 → m.openEpoch = n → n ≠ 0 → s.epochPersists = false → m.closing = none → ∃ u : State, exec (.mirrorClose id) s = .next (u.finishCmd id .ok [u.mirror.c.length]) ∧
        u.mirror.closing = some n ∧ u.mirror.openEpoch = n + 1 ∧ u.mirror.dirty (n % 2) = [] ∧ u.mirror.dirty (1 - n % 2) = m.dirty (1 - n % 2) ∧ (∀ x, x ∈ u.mirror.c ↔ x ∈ m.dirty (n % 2) ∨ x ∈ m.fullLeft) ∧ u.mirror.closeTime = s.now ∧ u.mem = s.mem ∧
        (∀ o, o ≠ R.LNK_MIR_STAT → u.reg o = s.reg o))) ∧
    (Starts s id 0x040D c → (s.posOf (c.par 0 1) = none → exec (.substitute id) s = .next (s.finishCmd id .badState [])) ∧
      ∀ old, s.posOf (c.par 0 1) = some old → s.alone = false → c.par 0 1 < 64 → c.par 1 1 < 64 → ∃ u : State, exec (.substitute id) s = .next (u.startCmd c 0) ∧ u.posOf (c.par 0 1) = some (c.par 1 1) ∧ (∀ l, l < 64 → l ≠ c.par 0 1 → u.posOf l = s.posOf l) ∧
        old ∈ u.pod.dead ∧ u.pod.phases = [] ∧ u.pod.phase.stage = 1 ∧ u.pod.phase.newMap = true ∧ u.mem = s.mem) ∧
    (Starts s id 0x040A c → let d := BitVec.ofNat 1024 (s.jobLE (c.par 0 8) 128)
      (s.descBad d = true → exec (.collective id) s = .next (s.refuseCmd id .badParam 0)) ∧
      (s.descBad d = false → exec (.collective id) s = .next ((s.queueColl (dQueue d) { addr := c.par 0 8, desc := none, cmd := some id, node := none, dst := some (c.pos, c.queue, c.fwd), step := false }).startCmd c 0))) ∧
    (Starts s id 0x040B c → let d := BitVec.ofNat 1024 (s.jobLE (c.par 0 8) 128)
      ((s.stepBad d = true ∨ s.descBad (stepColl d) = true ∨ c.par 0 8 % 64 ≠ 0) → exec (.stepEnd id) s = .next (s.refuseCmd id .badParam 0)) ∧
      (s.stepBad d = false → s.descBad (stepColl d) = false → c.par 0 8 % 64 = 0 → s.stepEnd.isSome = true → exec (.stepEnd id) s = .next (s.delayCmd c .waitStepEnd 0xFFFFFFFF)) ∧
      (s.stepBad d = false → s.descBad (stepColl d) = false → c.par 0 8 % 64 = 0 → s.stepEnd = none → ∃ u v : State, exec (.stepEnd id) s = .next (u.startCmd c 0) ∧
        u = (v.jobStore (descAt d 48 8) (bytesLE 4 0 ++ bytesLE 4 32 ++ List.replicate 504 0 ++ (s.stepVector d).flatMap (bytesLE 4))).queueColl (hdrBits d 55 52) { addr := 0, desc := some (stepColl d), cmd := none, node := none, dst := some (c.pos, c.queue, c.fwd), step := true } ∧
        v.stepEnd = some { cmd := some id, node := none, d := d, exp := s.lsExp, clean := s.lsClean, steps := s.steps, tCapture := s.now } ∧ v.reg R.GLB_STEP_LATCH = 0 ∧ v.mem = s.mem)) ∧
    (∀ p t x y z, s.lockkeeperRuns = true → ∃ u : State, exec (.podConfigurationRecord p t x y z) s = .next u ∧ { u with fw := s.fw } = s ∧ { u.fw with podRecord := s.fw.podRecord } = s.fw ∧
      fget u.fw.podRecord F.LNK_POD_CFG_POD_ID = p % 2 ^ (F.LNK_POD_CFG_POD_ID.hi + 1 - F.LNK_POD_CFG_POD_ID.lo) ∧ fget u.fw.podRecord F.LNK_POD_CFG_DIMX = x % 2 ^ (F.LNK_POD_CFG_DIMX.hi + 1 - F.LNK_POD_CFG_DIMX.lo))

/-- A read in which one of a word's 72 bits is inverted leaves memory as it was, with a record that names the bit and one correctable error counted; a read with two inverted bits of a word is uncorrectable: its record, its count and a warm reset. A severity report of the stack's on-die ECC is counted. A bank is refreshed one period after its last refresh, and a refresh-management command changes nothing of the module; the scrubber moves one position and counts a pass; the level follows the temperature with 3 °C of hysteresis; a CE window starts its counts anew; a low word read latches the high word; a channel that hangs goes OFFLINE and enters rung 2. So TOWER_READ_COMPLETE, TOWER_REFRESH, SCRUB_POSITION_DUE, CE_WINDOW_START, TOWER_TEMPERATURE_READ, CHANNEL_HANG and TOWER_LOG_LOW_READ complete. (R281, R288, R289, R290, R291, R292, R293, R295, R297, R298, R299, R300) -/
def Obligations.TowerMemory : Prop :=
  (∀ (s : State) (t ch c w b : Nat), InForm s → s.channelUp t ch = true → c < 6291456 → w < 64 → b < 72 →
    let n := s.fld (R.TWR_LOG_PTR t) F.TWR_LOG_PTR_NEXT
    ∃ u : State, exec (.towerReadComplete t ch c 0 (.words [(w, 1#72 <<< b)])) s = .next u ∧ (∀ x, Memory.readByte u.mem x = Memory.readByte s.mem x) ∧ u.reg (R.TWR_CE_COUNT t) = s.reg (R.TWR_CE_COUNT t) + 1 ∧
      u.fld (R.TWR_LOG t n) F.TWR_LOG_BIT = b ∧ u.fld (R.TWR_LOG t n) F.TWR_LOG_VALID = 1 ∧ u.fld (R.TWR_LOG t n) F.TWR_LOG_UE = 0 ∧ u.fld (R.TWR_LOG t n) F.TWR_LOG_CHANNEL = ch ∧ u.fld (R.TWR_LOG_PTR t) F.TWR_LOG_PTR_NEXT = (n + 1) % 64) ∧
  (∀ (s : State) (t ch c w b1 b2 : Nat), InForm s → s.channelUp t ch = true → c < 6291456 → w < 64 → b1 < b2 → b2 < 72 → s.warm = none →
    ∃ u : State, exec (.towerReadComplete t ch c 0 (.words [(w, (1#72 <<< b1) ||| (1#72 <<< b2))])) s = .next u ∧ u = (s.logTower t ch c (8 * w) 0 (eccSyndrome ((1#72 <<< b1) ||| (1#72 <<< b2))) 0x7F true).towerUe t ∧ u.warm.isSome = true) ∧
  (∀ (s : State) (t ch c : Nat) (r : TowerRead), s.channelUp t ch = false → exec (.towerReadComplete t ch c 0 r) s = .next s) ∧
  (∀ (s : State) (t ch c : Nat), InForm s → s.channelUp t ch = true → c < 6291456 → ∃ u : State, exec (.towerReadComplete t ch c 0 (.severe [])) s = .next u ∧ u.fld (R.TWR_STATUS t) F.TWR_STATUS_ODECC = min 255 (s.fld (R.TWR_STATUS t) F.TWR_STATUS_ODECC + 1) ∧
    (∀ o, o ≠ R.TWR_STATUS t → u.reg o = s.reg o) ∧ u.mem = s.mem) ∧
  (∀ (s : State) (t ch bank : Nat), exec (.towerRefresh t ch bank true) s = .next s) ∧
  (∀ (s : State) (t ch bank : Nat), s.channelUp t ch = true → bank < 64 → ∃ u : State, exec (.towerRefresh t ch bank false) s = .next u ∧ u.regs = s.regs ∧ u.mem = s.mem ∧ tfind (u.tower t).refreshed (64 * ch + bank) = some u.now ∧ s.now ≤ u.now ∧
    (∀ x, tfind (s.tower t).refreshed (64 * ch + bank) = some x → x + (if s.fld (R.TWR_STATUS t) F.TWR_STATUS_LEVEL = 0 then 32000000 else 16000000) ≤ u.now)) ∧
  (∀ (s : State) (t : Nat), InForm s → t < 8 → s.fld (R.TWR_SCRUB_CTL t) F.TWR_SCRUB_CTL_EN = 1 → (s.towerState t = 1 ∨ s.towerState t = 3) → let p := s.fld (R.TWR_SCRUB_POS t) F.TWR_SCRUB_POS_POS
    ∃ u : State, exec (.scrubPositionDue t []) s = .next u ∧ u.mem = s.mem ∧ (u.tower t).scrubbed = u.now ∧ s.now ≤ u.now ∧
      (p + 1 < 201326592 → u.fld (R.TWR_SCRUB_POS t) F.TWR_SCRUB_POS_POS = p + 1 ∧ u.reg (R.TWR_SCRUB_PASSES t) = s.reg (R.TWR_SCRUB_PASSES t)) ∧
      (p + 1 = 201326592 → u.fld (R.TWR_SCRUB_POS t) F.TWR_SCRUB_POS_POS = 0 ∧ u.reg (R.TWR_SCRUB_PASSES t) = s.reg (R.TWR_SCRUB_PASSES t) + 1 ∧
        u.reg (R.TWR_SCRUB_LATE t) = s.reg (R.TWR_SCRUB_LATE t) + if (s.tower t).passStart + s.scrubPeriod t ≤ u.now then 1 else 0)) ∧
  (∀ (s : State) (t temp : Nat), InForm s → t < 8 → s.towerState t ≠ 0 → s.pwr.at_ = .up → temp < 105 → ∃ u : State, exec (.towerTemperatureRead t temp) s = .next u ∧ u.fld (R.TWR_STATUS t) F.TWR_STATUS_TEMP = temp ∧
    u.fld (R.TWR_STATUS t) F.TWR_STATUS_LEVEL = levelAt (s.fld (R.TWR_STATUS t) F.TWR_STATUS_LEVEL) temp ∧ u.towerState t = s.towerState t ∧ (u.tower t).tempWin = u.now / 1000000 + 1 ∧ (s.tower t).tempWin * 1000000 ≤ u.now) ∧
  (∀ cur temp : Nat, cur ≤ 3 → (temp ≤ 82 → levelAt cur temp = 0) ∧ (85 ≤ temp → temp ≤ 92 → levelAt cur temp = 1) ∧ (95 ≤ temp → temp ≤ 97 → levelAt cur temp = 2) ∧ (100 ≤ temp → levelAt cur temp = 3) ∧
    (82 < temp → temp < 85 → levelAt cur temp = min cur 1) ∧ (92 < temp → temp < 95 → levelAt cur temp = max 1 (min cur 2)) ∧ (97 < temp → temp < 100 → levelAt cur temp = max 2 cur)) ∧
  (∀ (s : State) (t : Nat), t < 8 → s.towerState t ≠ 0 → ∃ u : State, exec (.ceWindowStart t) s = .next u ∧ u.regs = s.regs ∧ u.mem = s.mem ∧ (u.tower t).ce = [] ∧ (u.tower t).advised = [] ∧ 
    let W := max 1 (s.fld (R.TWR_CE_LIMIT t) F.TWR_CE_LIMIT_WINDOW) * 3600000000000
    u.now = max s.now ((s.tower t).ceStart + W) ∧ (u.tower t).ceStart = (s.tower t).ceStart + (u.now - (s.tower t).ceStart) / W * W) ∧
  (∀ (s : State) (t n : Nat), t < 8 → n < 64 → ∃ u : State, exec (.towerLogLowRead t n) s = .next u ∧ u.answers = s.answers ++ [.reg (R.TWR_LOG t n) (s.reg (R.TWR_LOG t n))] ∧ u.regs = s.regs ∧ (u.tower t).latch = some (n, s.reg (R.TWR_LOG_HI t n)) ∧ u.view (R.TWR_LOG_HI t n) = s.reg (R.TWR_LOG_HI t n)) ∧
  (∀ (s : State) (t ch a : Nat), s.channelUp t ch = true → ∃ v : State, exec (.channelHang t ch a) s = .next ((v.raise 0x0302 3 t 2 (t * 32 + ch) a).pushReinit 3 (t * 32 + ch) none) ∧
    (v.tower t).down = (s.tower t).down ++ [ch] ∧ v = (s.setTower t (v.tower t)).setFld (R.TWR_STATUS t) F.TWR_STATUS_STATE 3)

/-- A completed far read answers its requester with the barge and counts; a completed far write stores its quarters and is acknowledged; one behind an earlier request to its barge waits; a poisoned read is an uncorrectable error with a warm reset; 10 ms without completion, or the loss of the link, fails every outstanding request and every later one, and starts rung 2 of H1. So FAR_READ_COMPLETION, FAR_REQUEST_TIMEOUT and FAR_LINK_LOSS complete. (R250, R307, R308, R560) -/
def Obligations.FarTier : Prop :=
  ∀ (s : State) (k : Nat) (r : FarReq), s.far.reqs[k]? = some r →
    let a := r.pkt.addr / 512 * 512
    let first := (s.far.reqs.take k).any (fun x => x.pkt.addr / 512 * 512 == a) = false
    let v := ({ s with far := { s.far with reqs := s.far.reqs.eraseIdx k } } : State)
    (¬first → ∀ p, exec (.farReadCompletion k p) s = .next s) ∧
    (first → r.pkt.typ = 1 → exec (.farReadCompletion k false) s = .next ((v.bump R.TWR_FAR_RD).respond r.pkt 2 8 0 (s.load a 512))) ∧
    (first → r.pkt.typ ≠ 1 → ∀ p, exec (.farReadCompletion k p) s = .next (((v.bump R.TWR_FAR_WR).commitQuarters (v.wrQuarters r.pkt 0)).ackWrite r.pkt 0)) ∧
    (first → r.pkt.typ = 1 → s.warm = none → ∃ u : State, exec (.farReadCompletion k true) s = .next u ∧ u = ((v.bump R.TWR_FAR_FAIL).bump (R.TWR_UE_COUNT 0)).raise3 0x0305 3 0x100 a 0 ∧ u.warm.isSome = true ∧ u.far.reqs = []) ∧
    (∃ r0 rs, s.far.reqs = r0 :: rs ∧ let w := ({ s with now := max s.now (r0.since + 10000000) } : State)
      exec .farRequestTimeout s = .next w.farFails) ∧
    (s.fld R.TWR_FAR_CFG F.TWR_FAR_CFG_LINK_UP = 1 → s.far.failed = false → exec .farLinkLoss s = .next s.farFails) ∧
    (s.jobState ≠ 1 → InForm s → s.far.reqs = [r] → s.farFails.far.failed = true ∧ s.farFails.far.reqs = [] ∧ s.farFails.reg R.TWR_FAR_FAIL = s.reg R.TWR_FAR_FAIL + 1 ∧ s.farFails.reinit.length = s.reinit.length + 1)

/-- TEST_MODE enters a target only without task or job and with the debug lock open, and completes at once where it already is; a margin test, a pattern check, a port command and a repair start by a write of START in their mode, and end with their results, saturating; SELF_TEST writes the sites that failed; a boundary scan acts only while SCAN_EN is set, which no job allows, and its end resets the module; the dwell of H0 ends at its time, and H0's trained link is shown. So MARGIN_TEST_START, MARGIN_TEST_DONE, TEST_MODE, SELF_TEST, SCAN_EN_WRITE, SCAN_INSTRUCTION_UPDATE, TRST_N_ASSERTION, PPR_START, LINK_PRBS_CHECK, H1_MARGIN_COMMAND, H0_DWELL_END, EYE_MEASUREMENT, H0_LINK_TRAINED, PPR_DONE, LINK_PRBS_CHECK_DONE and H1_MARGIN_RESPONSE complete. (R309, R314, R499, R635, R637, R638, R639, R641, R642, R643, R644, R645) -/
def Obligations.MarginAndTest : Prop :=
  ∀ (s : State), InForm s →
    (∀ id c, Starts s id 0x0903 c → let t := c.par 0 1
      let i := c.par 1 1
      (s.inTest t i = (c.par 2 1 == 1) → exec (.testMode id) s = .next (s.finishCmd id .ok [])) ∧
      (s.inTest t i = false → c.par 2 1 = 1 → (s.tasks ≠ [] ∨ s.debugOpen = false ∨ s.jobState ≠ 0) → exec (.testMode id) s = .next (s.finishCmd id .testRefused [])) ∧
      (s.inTest t i = false → c.par 2 1 = 1 → s.tasks = [] → s.debugOpen = true → s.jobState = 0 → ∃ u : State, exec (.testMode id) s = .next (u.finishCmd id .ok []) ∧
        (t = 0 → i < 8 → u.towerState i = 2 ∧ u.inTest t i = true) ∧ (t = 1 → i < 48 → u.linkState i = 8 ∧ u.inTest t i = true ∧ u.mem = s.mem) ∧
        (t = 2 → u.tst.dwell = some (s.now + max 1 (s.fld R.TST_PORT_CTL F.TST_PORT_CTL_DWELL_MS) * 1000000)) ∧ (t = 3 → u.far.failed = true ∧ u.far.reqs = [] ∧ u.tst.h1 = true)) ∧
      (s.inTest t i = true → c.par 2 1 = 0 → (t = 0 → i < 8 → (s.tower i).down = [] → ∃ u : State, exec (.testMode id) s = .next (u.finishCmd id .ok []) ∧ u.towerState i = 1 ∧ u.inTest t i = false) ∧
        (t = 2 → exec (.testMode id) s = .next (s.finishCmd id .ok [])))) ∧
    (∀ id bad c, Starts s id 0x0904 c →
      ((s.jobState ≠ 0 ∨ s.fld R.PWR_STATUS F.PWR_STATUS_STATE ≠ 0) → exec (.selfTest id bad) s = .next (s.refuseCmd id .badState 0)) ∧
      (s.jobState = 0 → s.fld R.PWR_STATUS F.PWR_STATUS_STATE = 0 → ∃ u : State, exec (.selfTest id bad) s = .next (u.finishCmd id .ok [u.fld R.TST_BIST_STAT F.TST_BIST_STAT_FAILED]) ∧
        ∀ x, x < 1024 → ((u.reg (R.TST_BIST_SITE (x / 64))).getLsbD (x % 64) = true ↔ x ∈ bad))) ∧
    (∀ t v, t < 8 → (¬(s.towerState t = 2 ∧ s.debugOpen = true) → exec (.marginTestStart t v) s = .next s) ∧
      (s.towerState t = 2 → s.debugOpen = true → ∃ u : State, exec (.marginTestStart t v) s = .next u ∧ u.mem = s.mem ∧ u.reg (R.TWR_MARGIN_CTL t) = fset v F.TWR_MARGIN_CTL_START 0 &&& 0x7FFFFFFF ∧ (∀ o, o ≠ R.TWR_MARGIN_CTL t → o ≠ R.TWR_MARGIN_RESULT t → u.reg o = s.reg o) ∧
        (fget v F.TWR_MARGIN_CTL_START = 1 → (u.tower t).testing = some (s.now + max 1 (fget v F.TWR_MARGIN_CTL_COUNT) * 163840) ∧ u.reg (R.TWR_MARGIN_RESULT t) = 0))) ∧
    (∀ t e x, (s.tower t).testing = some e → ∃ u : State, exec (.marginTestDone t x) s = .next u ∧ u.now = max s.now e ∧ (u.tower t).testing = none ∧ u.fld (R.TWR_MARGIN_RESULT t) F.TWR_MARGIN_RESULT_DONE = 1 ∧
      u.fld (R.TWR_MARGIN_RESULT t) F.TWR_MARGIN_RESULT_ERRORS = min x 0xFFFFFFFF ∧ (∀ o, o ≠ R.TWR_MARGIN_RESULT t → u.reg o = s.reg o) ∧ u.mem = s.mem) ∧
    (∀ d, s.tst.dwell = some d → ∃ u : State, exec .h0DwellEnd s = .next u ∧ u.now = max s.now d ∧ u.tst.dwell = none ∧ u.fld R.TST_STATUS ⟨61, 61⟩ = 0 ∧ ∀ o, o ≠ R.TST_STATUS → u.reg o = s.reg o) ∧
    (∀ w r l, (w = 4 ∨ w = 8 ∨ w = 16) → 1 ≤ r → r ≤ 6 → 30 ≤ l → l ≤ 40 → exec (.h0LinkTrained w r l) s = .next (s.setFlds R.HCP_H0_STAT [(F.HCP_H0_STAT_WIDTH, w), (F.HCP_H0_STAT_RATE, r), (F.HCP_H0_STAT_BAR2_LOG2, l)])) ∧
    (∀ b, exec (.scanEnWrite b) s = .next (if b = true ∧ s.jobState ≠ 0 then s else s.setFld R.TST_CTL F.TST_CTL_SCAN_EN (if b then 1 else 0))) ∧
    (s.pwr.at_ = .up → ∀ op, (s.scanActs op = .extestFamily → exec (.scanInstructionUpdate op) s = .next (s.loadScan .extestFamily).beginScan) ∧ (s.scanActs op ≠ .extestFamily → exec (.scanInstructionUpdate op) s = .next (s.loadScan (s.scanActs op)).endScan)) ∧
    s.scanActs .extestFamily = (if s.fld R.TST_CTL F.TST_CTL_SCAN_EN = 1 then .extestFamily else .bypass) ∧ s.scanActs .nonPublic = (if s.debugOpen then .nonPublic else .bypass) ∧ (∀ op, op ≠ .extestFamily → op ≠ .nonPublic → s.scanActs op = op) ∧
    (∀ op, let u := s.loadScan op
      u.tst.ir = op ∧ u.regs = s.regs ∧ u.mem = s.mem ∧ u.answers = s.answers ++ [.scan op (if op = .idcode then [scanIdcode 0, scanIdcode 1] else [])]) ∧
    (let u := s.beginScan;
      u.tst.scan = true ∧ u.fld R.TST_STATUS ⟨63, 63⟩ = 1 ∧ u.mem = s.mem) ∧
    (s.tst.scan = false → ∃ u : State, exec .trstNAssertion s = .next u ∧ u.tst.ir = .idcode ∧ u.regs = s.regs ∧ u.mem = s.mem ∧ u.answers = s.answers) ∧ (s.tst.scan = true → s.warm = none → ∃ u : State, exec .trstNAssertion s = .next u ∧ u.warm.isSome = true ∧ u.tst.scan = false) ∧
    (∀ v, s.tst.ppr = false → fget v F.TST_PPR_CTL_START = 1 → s.fld R.SEC_STATE F.SEC_STATE_MANUF_SERVICE = 1 → s.towerState (fget v F.TST_PPR_CTL_TOWER) = 2 → ∃ u : State, exec (.pprStart v) s = .next u ∧ u.tst.ppr = true ∧ u.fld R.TST_PPR_CTL F.TST_PPR_CTL_ROW = fget v F.TST_PPR_CTL_ROW ∧ (∀ o, o ≠ R.TST_PPR_CTL → u.reg o = s.reg o)) ∧
    (∀ v, s.tst.ppr = false → fget v F.TST_PPR_CTL_START = 1 → (s.fld R.SEC_STATE F.SEC_STATE_MANUF_SERVICE ≠ 1 ∨ s.towerState (fget v F.TST_PPR_CTL_TOWER) ≠ 2) → ∃ u : State, exec (.pprStart v) s = .next u ∧ u.tst.ppr = false ∧ u.fld R.TST_PPR_RESULT F.TST_PPR_RESULT_DONE = 1 ∧ u.fld R.TST_PPR_RESULT F.TST_PPR_RESULT_RESULT = 3) ∧
    (∀ b n, s.tst.ppr = true → n < 64 → ∃ u : State, exec (.pprDone b n) s = .next u ∧ u.tst.ppr = false ∧ u.fld R.TST_PPR_CTL F.TST_PPR_CTL_START = 0 ∧ u.fld R.TST_PPR_RESULT F.TST_PPR_RESULT_DONE = 1 ∧ u.fld R.TST_PPR_RESULT F.TST_PPR_RESULT_RESULT = if b then 1 else 2) ∧
    (∀ n v, n < 48 → (s.linkState n ≠ 8 → exec (.linkPrbsCheck n v) s = .next s) ∧ (s.linkState n = 8 → fget v F.TST_LNK_CTL_START = 1 → ∃ u : State, exec (.linkPrbsCheck n v) s = .next u ∧
      tfind u.tst.prbs n = some (s.now + prbsTime (max 1 (fget v F.TST_LNK_CTL_COUNT))) ∧ u.reg (R.TST_LNK_RESULT n) = 0 ∧ u.fld (R.TST_LNK_CTL n) F.TST_LNK_CTL_LANE = fget v F.TST_LNK_CTL_LANE ∧ u.mem = s.mem)) ∧
    (∀ n e x, tfind s.tst.prbs n = some e → ∃ u : State, exec (.linkPrbsCheckDone n x) s = .next u ∧ u.now = max s.now e ∧ u.fld (R.TST_LNK_RESULT n) F.TST_LNK_RESULT_DONE = 1 ∧ u.fld (R.TST_LNK_RESULT n) F.TST_LNK_RESULT_ERRORS = min x 0xFFFFFFFF) ∧
    (∀ n l v, n < 48 → l < 2 → (s.linkState n = 4 ∨ s.linkState n = 5 ∨ s.linkState n = 8) → ∃ u : State, exec (.eyeMeasurement n l v) s = .next u ∧ u.now % 1000000 = 0 ∧ s.now ≤ u.now ∧ u.now < s.now + 1000000 ∧ u.reg (R.TST_LNK_EYE n l) = v >>> 19 <<< 19 ∧ (∀ o, o ≠ R.TST_LNK_EYE n l → u.reg o = s.reg o) ∧ u.mem = s.mem) ∧
    (∀ v, s.fld R.TST_H1_MARGIN_CMD F.TST_H1_MARGIN_CMD_START = 0 → fget v F.TST_H1_MARGIN_CMD_START = 1 → ∃ u : State, exec (.h1MarginCommand v) s = .next u ∧ u.fld R.TST_H1_MARGIN_CMD F.TST_H1_MARGIN_CMD_START = 1 ∧ u.answers = s.answers ++ [.margin (fget v F.TST_H1_MARGIN_CMD_COMMAND)] ∧ (∀ o, o ≠ R.TST_H1_MARGIN_CMD → u.reg o = s.reg o)) ∧
    (∀ x, s.fld R.TST_H1_MARGIN_CMD F.TST_H1_MARGIN_CMD_START = 1 → ∃ u : State, exec (.h1MarginResponse x) s = .next u ∧ u.fld R.TST_H1_MARGIN_CMD F.TST_H1_MARGIN_CMD_START = 0 ∧ u.fld R.TST_H1_MARGIN_RSP F.TST_H1_MARGIN_RSP_DONE = 1 ∧ u.fld R.TST_H1_MARGIN_RSP F.TST_H1_MARGIN_RSP_RESPONSE = x % 2 ^ (F.TST_H1_MARGIN_RSP_RESPONSE.hi + 1 - F.TST_H1_MARGIN_RSP_RESPONSE.lo))

/-- CKPT_WRITE is refused for an epoch of 0 or one that is held, for a full or an unready basin; it waits for another capture or restore; its start records every chunk of the regions, each chunk read lands in the section, and its completion holds the checkpoint COMPLETE and drops what the reclaim names. CKPT_DELETE drops a held one; CKPT_RESTORE of an own checkpoint rewrites its regions and no other byte outside the journal's region; ROLLBACK is accepted only in STOPPED. So CKPT_WRITE, CKPT_CAPTURE_CHUNK, CKPT_CAPTURE_COMPLETE, CKPT_RESTORE, CKPT_DELETE and ROLLBACK complete. (R491, R533, R534, R535, R537, R538, R567, R570) -/
def Obligations.Checkpoints : Prop :=
  ∀ (s : State) (id : Nat) (c : Cmd), InForm s →
    let e := c.par 0 8
    (Starts s id 0x0502 c →
      (s.ckptBad e = true → exec (.ckptWrite id) s = .next (s.refuseCmd id .badState 0)) ∧
      (s.ckptBad e = false → s.bsnState = 2 → exec (.ckptWrite id) s = .next (s.refuseCmd id .basinFull 0)) ∧
      (s.ckptBad e = false → s.bsnState ≠ 1 → s.bsnState ≠ 2 → exec (.ckptWrite id) s = .next (s.refuseCmd id .basinReadFailed 0)) ∧
      (s.ckptBad e = false → s.bsnState = 1 → (s.bsn.capture.isSome = true ∨ s.bsn.restore.isSome = true) → exec (.ckptWrite id) s = .next (s.delayCmd c .waitIdle 0xFFFFFFFF)) ∧
      (s.ckptBad e = false → s.bsnState = 1 → s.bsn.capture = none → s.bsn.restore = none → s.epochPersists = true → exec (.ckptWrite id) s = .next (s.delayCmd c .waitSpeculation 0xFFFFFFFF)) ∧
      (s.ckptBad e = false → s.bsnState = 1 → s.bsn.capture = none → s.bsn.restore = none → s.epochPersists = false → s.fld R.BSN_CKPT_CTL F.BSN_CKPT_CTL_PARTNER = 0 →
        s.ckptRegions.all (fun r => r.base % 0x200000 == 0 && r.len % 0x200000 == 0 && isTower r.base && Nat.ble (r.base + r.len) towerEnd) = true →
        let bytes := regionBytes s.ckptRegions
        s.bsn.ckpts.length < 16 → s.usedUnits + bytes / 4096 + 8 ≤ 959768388 → ∃ (u : State) (k : Capture), exec (.ckptWrite id) s = .next (u.startCmd c 0) ∧ u.bsn.capture = some k ∧ (2 ≤ s.bsn.wearNote → u.mem = s.mem) ∧ u.bsn.ckpts = s.bsn.ckpts ∧
          k.cmd = id ∧ k.ck.epoch = e ∧ k.ck.bytes = bytes ∧ k.ck.tCapture = s.now ∧ k.ck.state = 2 ∧ k.reclaim = [] ∧ u.fld R.BSN_STATUS F.BSN_STATUS_CAPTURE = 1 ∧
          ∀ x, x ∈ k.left ↔ ∃ r ∈ s.ckptRegions, ∃ i, i < r.len / 0x200000 ∧ x = r.base + i * 0x200000)) ∧
    (∀ k x, s.bsn.capture = some k → k.held = [] → k.left.head? = some x → ∃ (u : State) (k' : Capture), exec .ckptCaptureChunk s = .next u ∧ u.mem = s.mem ∧ u.bsn.capture = some k' ∧ k'.left = k.left.filter (fun y => y != x) ∧
      (Memory.wf k.ck.own → ∀ a, Memory.readByte k'.ck.own a = if x ≤ a ∧ a < x + 0x200000 then Memory.readByte s.mem a else Memory.readByte k.ck.own a)) ∧
    (∀ k, s.bsn.capture = some k → k.left ≠ [] → exec .ckptCaptureComplete s = .next s) ∧
    (∀ k, s.bsn.capture = some k → k.left = [] → ∃ v : State, exec .ckptCaptureComplete s = .next (v.finishCmd k.cmd .ok [k.ck.bytes % 2 ^ 32, k.ck.bytes / 2 ^ 32]).showBasin ∧ v.bsn.capture = none ∧ v.mem = s.mem ∧
      v.bsn.ckpts = s.bsn.ckpts.filter (fun c => !k.reclaim.contains c.epoch) ++ [{ k.ck with state := 0, tCommit := s.now }] ∧ v.fld R.BSN_STATUS F.BSN_STATUS_CAPTURE = 0) ∧
    (Starts s id 0x0505 c → s.bsnState ≠ 3 → s.bsn.capture = none → s.bsn.restore = none →
      (s.ckpt e = none → exec (.ckptDelete id) s = .next (s.finishCmd id .ckptNotFound [])) ∧
      (∀ k, s.ckpt e = some k → ∃ u : State, exec (.ckptDelete id) s = .next (u.showBasin.finishCmd id .ok []) ∧ { u with bsn := s.bsn } = s ∧ (∀ x, x ∈ u.bsn.ckpts ↔ x ∈ s.bsn.ckpts ∧ x.epoch ≠ e))) ∧
    (∀ r, Starts s id 0x0504 c → ((s.tasks ≠ [] ∨ s.bsn.capture.isSome = true) → exec (.ckptRestore id none r) s = .next (s.refuseCmd id .badState 0)) ∧
      (s.tasks = [] → s.bsn.capture = none → c.par 8 1 = 0 → s.bsnState = 3 → exec (.ckptRestore id none r) s = .next (s.finishCmd id .basinReadFailed [])) ∧
      (∀ k, s.tasks = [] → s.bsn.capture = none → c.par 8 1 = 0 → s.bsnState ≠ 3 → s.ownCkpt e = some k → s.mirror.c = [] → Memory.wf k.own → k.regions.all (fun g => !g.partner) = true → ∃ u : State, exec (.ckptRestore id none r) s = .next (u.finishCmd id .ok []) ∧
        (∀ x, (x < workBase + 0x40 ∨ workBase + 0x80 ≤ x) → Memory.readByte u.mem x = if ∃ g ∈ k.regions, g.base ≤ x ∧ x < g.base + g.len then Memory.readByte k.own x else Memory.readByte s.mem x)) ∧
      (s.tasks = [] → s.bsn.capture = none → c.par 8 1 = 1 → s.partnerPos = none → exec (.ckptRestore id none r) s = .next (s.finishCmd id .ckptNotFound []))) ∧
    (∀ r m, Starts s id 0x0606 c → (s.jobState ≠ 3 → exec (.rollback id none r m) s = .next (s.refuseCmd id .badState 0)) ∧
      (s.jobState = 3 → c.par 8 1 = 1 → s.inPlace e m = true → exec (.rollback id none r m) s = .next (((s.restoreStep (s.load (workBase + 0x40) 64)).rolledBack 1 true e).finishCmd id .ok [])) ∧
      (s.jobState = 3 → c.par 8 1 = 1 → s.inPlace e m = false → s.partnerPos = none → exec (.rollback id none r m) s = .next (s.finishCmd id .ckptNotFound [])) ∧
      (∀ k, s.jobState = 3 → c.par 8 1 = 0 → s.bsnState ≠ 3 → s.bsn.capture = none → s.ownCkpt e = some k → exec (.rollback id none r m) s = .next (((s.restoreOwn k none).2.rolledBack 0 false e).finishCmd id .ok []))) ∧
    (∀ src b n, let u := s.rolledBack src b n
      u.jobState = 1 ∧ u.reg R.ERR_ROLLBACKS = s.reg R.ERR_ROLLBACKS + 1 ∧ u.fld R.GLB_STEP_LATCH F.GLB_STEP_LATCH_OVF = 0 ∧ u.mirror.openEpoch = (if src = 1 then n else (s.reg R.LNK_MIR_EPOCH).toNat) + 1 ∧ u.mem = s.mem ∧ (src = 0 → u.mirror.full = true))

/-- A codeword read counts one read of its block and what it took to decode; a lost one leaves its record and, by its reader, marks the journal, the health area, the key or the checkpoint, or ends the restore. A patrol read counts one read of its block, and with every programmed block read the pass ends. A relocation moves a block's data to a free good block of its die, erases the first and counts a cycle; it happens for a weak block on patrol, for old data, for much-read data, and for a flight whose cycles lag by more than 200. A program or erase failure retires the block. A silent controller is reinitialised; a sanitize drops what is stored and ends by itself. So PATROL_READ, RETENTION_REFRESH, READ_DISTURB_RELOCATE, STATIC_LEVELLING, BASIN_CODEWORD_READ, NAND_PROGRAM_FAILURE, NAND_ERASE_FAILURE, BASIN_CONTROLLER_TIMEOUT, SANITIZE and SANITIZE_COMPLETE complete. (R527, R531, R532, R541, R542, R560) -/
def Obligations.BasinMedia : Prop :=
  ∀ (s : State), InForm s →
    let moved := fun (v u : State) (k d : Nat) => (u.block d).data = true ∧ (u.block d).progAt = v.now ∧ (u.block d).reads = 0 ∧ (u.block k).data = false ∧ (u.block k).reads = 0 ∧ (u.block k).cycles = (v.block k).cycles + 1
    (∀ k w, k < 250000 → let b := s.block k
      let v := s.setBlock k { b with reads := b.reads + 1 }
      exec (.basinCodewordRead k w .clean) s = .next v ∧ exec (.basinCodewordRead k w .decoded) s = .next (v.bump R.BSN_LDPC_CORR) ∧ (∀ n, exec (.basinCodewordRead k w (.retried n)) s = .next (v.bump R.BSN_READ_RETRY (min 7 n))) ∧
      exec (.basinCodewordRead k w .rebuilt) s = .next ((v.bump R.BSN_READ_RETRY 7).bump R.BSN_REBUILD)) ∧
    (∀ k, k < 250000 → ∃ u : State, exec (.basinCodewordRead k (.journal false) .lost) s = .next u ∧ u.fld R.JNL_STATUS F.JNL_STATUS_LOST = 1 ∧ u.reg R.BSN_UNCORR = s.reg R.BSN_UNCORR + 1 ∧ (u.block k).reads = (s.block k).reads + 1) ∧
    (∀ k, k < 250000 → ∃ u : State, exec (.basinCodewordRead k .superblock .lost) s = .next u ∧ u.bsnState = 3 ∧ u.fld R.BSN_STATUS F.BSN_STATUS_KEY_OK = 0 ∧ u.reg R.BSN_UNCORR = s.reg R.BSN_UNCORR + 1) ∧
    (∀ k, k < 250000 → ∃ u : State, exec (.basinCodewordRead k (.health true) .lost) s = .next u ∧ u.fld R.BSN_STATUS F.BSN_STATUS_HEALTH_LOST = 1) ∧
    (∀ k e, k < 250000 → ∃ u : State, exec (.basinCodewordRead k (.relocation e) .lost) s = .next u ∧ u.bsn.ckpts = s.bsn.ckpts.map (fun c => if c.epoch = e then { c with state := 1 } else c)) ∧
    (∀ k id e n, k < 250000 → s.bsn.restore = some (id, e, n) → ∃ v : State, exec (.basinCodewordRead k .restore .lost) s = .next (v.finishCmd id .basinReadFailed []) ∧ v.bsn.restore = none) ∧
    (∀ k d, k ≠ d → (s.block k).data = true → s.freeBlock d = true → k / 6250 = d / 6250 →
      (∃ u : State, exec (.patrolRead k (some d)) s = .next u ∧ moved s u k d ∧ u.reg R.BSN_REFRESH = s.reg R.BSN_REFRESH + 1) ∧
      (∃ u : State, exec (.patrolRead k none) s = .next u ∧ (u.block k).reads = (s.block k).reads + 1 ∧ (u.block k).data = true ∧ u.regs = s.regs ∧
        ((∀ p ∈ s.bsn.blocks, p.2.data = true → p.1 = k ∨ p.1 ∈ s.bsn.patrolled) → u.bsn.patrolEnd = s.now ∧ u.bsn.patrolled = []) ∧
        ((∃ p ∈ s.bsn.blocks, p.2.data = true ∧ p.1 ≠ k ∧ p.1 ∉ s.bsn.patrolled) → u.bsn.patrolEnd = s.bsn.patrolEnd ∧ k ∈ u.bsn.patrolled)) ∧
      (∃ u : State, exec (.retentionRefresh k d) s = .next u ∧ (u.block d).data = true ∧ (u.block d).progAt = u.now ∧ (u.block k).data = false ∧ (u.block k).cycles = (s.block k).cycles + 1 ∧
        (s.block k).progAt + max 1 (s.fld R.BSN_PATROL_CTL F.BSN_PATROL_CTL_REFRESH_DAYS) * 86400000000000 ≤ u.now ∧ u.reg R.BSN_REFRESH = s.reg R.BSN_REFRESH + 1) ∧
      (max 1 (s.fld R.BSN_PATROL_CTL F.BSN_PATROL_CTL_DISTURB_K) * 1000 ≤ (s.block k).reads → ∃ u : State, exec (.readDisturbRelocate k d) s = .next u ∧ moved s u k d ∧ u.reg R.BSN_DISTURB = s.reg R.BSN_DISTURB + 1) ∧
      ((s.block k).reads < max 1 (s.fld R.BSN_PATROL_CTL F.BSN_PATROL_CTL_DISTURB_K) * 1000 → exec (.readDisturbRelocate k d) s = .next s)) ∧
    (∀ n d b, n < 6250 → d < 6250 → n ≠ d → s.bsn.blocks = [(n, b)] → b.data = true → s.freeBlock d = true →
      exec (.staticLevelling n d) s = .next s) ∧
    (∀ n d b x z, n < 6250 → d < 6250 → n ≠ d → n < x → x < 6250 → d ≠ x → s.bsn.blocks = [(n, b), (x, z)] → b.data = true → b.cycles + 200 < z.cycles → (z.data = true → b.cycles ≤ z.cycles) → s.freeBlock d = true →
      ∃ u : State, exec (.staticLevelling n d) s = .next u ∧ moved s u n d ∧ u.reg R.BSN_WL_MOVES = s.reg R.BSN_WL_MOVES + 1) ∧
    (∀ k d j, k < 250000 → k ≠ d → (s.block k).bad = false → s.bsn.factory.contains k = false → (s.block k).data = true → s.freeBlock d = true →
      (∃ u : State, exec (.nandProgramFailure k d j) s = .next u ∧ (u.block k).bad = true ∧ (u.block k).data = false ∧ (u.block d).data = true ∧ (u.block d).progAt = s.now) ∧
      (∃ u : State, exec (.nandEraseFailure k) s = .next u ∧ (u.block k).bad = true ∧ (u.block k).data = false)) ∧
    ((s.bsnState = 1 ∨ s.bsnState = 2) → s.bsn.capture = none → ∃ u : State, exec .basinControllerTimeout s = .next u ∧ u.bsnState = 4 ∧ u.now = s.now + 100000000 ∧ u.reinit.length = s.reinit.length + 1 ∧ u.mem = s.mem) ∧
    (s.fld R.SEC_STATE F.SEC_STATE_MANUF_SERVICE = 1 → s.jobState = 0 → ∃ u : State, exec .sanitize s = .next u ∧ u.bsn.ckpts = [] ∧ u.bsn.keyGen = s.bsn.keyGen + 1 ∧ u.jnl.log = [] ∧ u.fld R.BSN_SANITIZE F.BSN_SANITIZE_START = 1 ∧ u.mem = s.mem ∧ (∀ o, o ≠ R.BSN_SANITIZE → u.reg o = s.reg o)) ∧
    ((s.fld R.SEC_STATE F.SEC_STATE_MANUF_SERVICE = 0 ∨ s.jobState ≠ 0) → exec .sanitize s = .next s) ∧
    (s.fld R.BSN_SANITIZE F.BSN_SANITIZE_START = 1 → ∃ u : State, exec .sanitizeComplete s = .next u ∧ u.fld R.BSN_SANITIZE F.BSN_SANITIZE_START = 0)

/-- A send by a channel's bound sender fills an empty channel with the staged pointer and the tag and tells the receiver; one to a full channel or by another agent is rejected and counted, and changes no channel. The receiver's read empties it and tells the sender. A landed partner message fills its channel once; a returned count empties the sending one. A persistence covers the changed entries, with a full record at the first since READY, at every 1,024th record and at an orderly power-off, else a delta, and none where nothing has changed; one still running, or a restarting basin controller, delays it and counts; its success appends the record to the log, its failure leaves the entries for the next, and a delayed one follows. So MAILBOX_SEND, MAILBOX_RECEIVE, PARTNER_MESSAGE_LANDED, PARTNER_COUNT_RETURNED, JOURNAL_PERSIST and JOURNAL_PERSIST_COMPLETE complete. (R503, R505, R506, R508, R509, R512, R517, R518, R539, R540) -/
def Obligations.MailboxesAndJournal : Prop :=
  (∀ (s : State) (a c tag : Nat) (p : Option Word), InForm s → c < 32 → 0x100 ≤ a → a < 0x110 → s.bound c = true → s.partnerChan c = false →
    let x := s.chan c
    (s.sender c = a → x.full = false → ∃ u : State, exec (.mailboxSend a c tag p) s = .next u ∧ (u.chan c).full = true ∧ (u.chan c).tag = tag % 2 ^ 32 ∧ (u.chan c).ptr = (p.getD (s.reg (R.MBX_TX_PTR (a - 0x100)))).toNat ∧ u.mem = s.mem ∧
      (∀ d, d ≠ c → u.chan d = s.chan d) ∧ u.reg R.MBX_SENT = s.reg R.MBX_SENT + 1 ∧ u.hcp.msix = s.hcp.msix ++ (if 0x100 ≤ s.receiver c ∧ s.receiver c ≤ 0x10F then [64] else [])) ∧
    (s.sender c = a → x.full = true → ∃ u : State, exec (.mailboxSend a c tag p) s = .next u ∧ u.mbx = s.mbx ∧ u.fld (R.MBX_TX_STAT (a - 0x100)) F.MBX_TX_STAT_REJ_FULL = 1 ∧ u.reg R.MBX_REJECTED = s.reg R.MBX_REJECTED + 1) ∧
    (s.sender c ≠ a → ∃ u : State, exec (.mailboxSend a c tag p) s = .next u ∧ u.mbx = s.mbx ∧ u.fld (R.MBX_TX_STAT (a - 0x100)) F.MBX_TX_STAT_REJ_BIND = 1 ∧ u.reg R.MBX_REJECTED = s.reg R.MBX_REJECTED + 1) ∧
    (s.receiver c = a → x.full = true → ∃ u : State, exec (.mailboxReceive a c) s = .next u ∧ (u.chan c).full = false ∧ (∀ d, d ≠ c → u.chan d = s.chan d) ∧ u.mem = s.mem ∧ u.hcp.msix = s.hcp.msix ++ (if 0x100 ≤ s.sender c ∧ s.sender c ≤ 0x10F then [64] else [])) ∧
    ((s.receiver c ≠ a ∨ x.full = false) → exec (.mailboxReceive a c) s = .next s)) ∧
  (∀ (s : State) (c : Nat), InForm s → c < 32 → s.bound c = true → let x := s.chan c
    let w := 0x005DFF801000 + 512 * c
    (s.sender c = 3 → x.up = true → x.full = false → s.loadLE (w + 12) 4 ≠ x.landed → ∃ u : State, exec (.partnerMessageLanded c) s = .next u ∧ u.mem = s.mem ∧
      u.chan c = { x with full := true, ptr := s.loadLE w 8, tag := s.loadLE (w + 8) 4, landed := s.loadLE (w + 12) 4 } ∧ (∀ d, d ≠ c → u.chan d = s.chan d)) ∧
    (s.loadLE (w + 12) 4 = x.landed → exec (.partnerMessageLanded c) s = .next s) ∧
    (s.receiver c = 3 → x.full = true → s.loadLE (w + 12) 4 = x.count → ∃ u : State, exec (.partnerCountReturned c) s = .next u ∧ u.mem = s.mem ∧ u.chan c = { x with full := false, ptr := 0, tag := 0 } ∧ (∀ d, d ≠ c → u.chan d = s.chan d)) ∧
    (s.loadLE (w + 12) 4 ≠ x.count → exec (.partnerCountReturned c) s = .next s)) ∧
  (∀ (s : State), InForm s → s.fld R.JNL_STATUS F.JNL_STATUS_READY = 1 →
    let at_ := (s.now / 1000000 + 1) * 1000000
    ((s.jnl.persist.isSome = true ∨ s.bsnState = 4) → exec .journalPersist s = .next (({ s with now := at_, jnl := { s.jnl with late := true } } : State).bump R.JNL_PERSIST_LATE)) ∧
    (s.jnl.persist = none → s.bsnState ≠ 4 → s.mirror.c = [] → s.bsn.capture = none → ∃ u : State, exec .journalPersist s = .next u ∧ u.now = at_ ∧ u.jnl.persist = some at_ ∧ u.jnl.covered = s.jnl.changed ∧ u.jnl.changed = [] ∧ u.jnl.late = false ∧
      u.jnl.making = ({ s with now := at_ } : State).recordFor false ∧ u.jnl.log = s.jnl.log ∧ u.regs = (match u.jnl.making with | some r => s.bump R.BSN_WR_BYTES (4096 * r.units) | none => s).regs ∧
      (∀ i e, s.jnl.changed = [i] → tfind s.jnl.ring i = some e → i < 65536 → u.load (workBase + 0x400000 + 64 * i) 64 = jBytes e))) ∧
  (∀ (s : State), let n := s.bsn.records + 1
    (∀ b, (b = true ∨ s.jnl.fullDone = false) → ∃ r, s.recordFor b = some r ∧ r.rseq = n ∧ r.full = true ∧ r.orderly = b ∧ r.ents = s.jnl.ring ∧ r.start = s.now ∧ r.step = s.stepEntry ∧ r.mir = s.mirrorRecord ∧ r.units = 1025) ∧
    (∀ i e, s.jnl.fullDone = true → n % 1024 ≠ 0 → s.jnl.changed = [i] → tfind s.jnl.ring i = some e → ∃ r, s.recordFor false = some r ∧ r.rseq = n ∧ r.full = false ∧ r.ents = [(i, e)] ∧ r.units = 1) ∧
    (∀ o, s.jnl.fullDone = true → n % 1024 ≠ 0 → s.jnl.changed = [] → s.jnl.log.getLast? = some o → o.step = s.stepEntry → o.mir = s.mirrorRecord → s.recordFor false = none) ∧
    (s.jnl.late = false → s.persistLate = s) ∧ (s.jnl.late = true → s.jnl.persist = none → s.bsnState ≠ 4 → s.persistLate = s.persistStart false)) ∧
  (∀ (s : State) (t : Nat), InForm s → s.jnl.persist = some t →
    (∃ u : State, exec (.journalPersistComplete true) s = .next u.persistLate ∧ u.jnl.persist = none ∧ u.jnl.covered = [] ∧ u.jnl.changed = s.jnl.changed ∧ u.jnl.late = s.jnl.late ∧ u.reg R.JNL_PERSISTED = BitVec.ofNat 64 s.jnl.persistDsq ∧ u.reg R.JNL_PERSIST_TIME = BitVec.ofNat 64 t ∧
      u.bsn.records = s.bsn.records + s.jnl.making.toList.length ∧ u.jnl.fullDone = (s.jnl.fullDone || s.jnl.making.isSome) ∧ u.mem = s.mem ∧
      (∀ r, s.jnl.log = [] → s.jnl.making = some r → r.full = true → u.jnl.log = [r] ∧ u.reg R.BSN_NAND_WR_BYTES = s.reg R.BSN_NAND_WR_BYTES + BitVec.ofNat 64 (nandBytes 4198400))) ∧
    (∃ u : State, exec (.journalPersistComplete false) s = .next u.persistLate ∧ u.jnl.persist = none ∧ u.jnl.log = s.jnl.log ∧ u.jnl.late = s.jnl.late ∧ (∀ i, i ∈ u.jnl.changed ↔ i ∈ s.jnl.covered ∨ i ∈ s.jnl.changed) ∧ u.fld R.JNL_STATUS F.JNL_STATUS_PERSIST_FAIL = 1))

/-- FUNC_REINIT is refused for a towers', a gateway's or a far rung while the job runs, waits while its function is in a rung, and otherwise starts it; a rung that passes brings its function back with its record and OK, one that fails or outlasts its limit ends RUNG_FAILED. WARM_RESET clears the module and is answered RESET_DONE when it has completed, with its links settled; where its images, harvest, tables or towers fail it is not ready; one that takes too long cycles the power. POWER_CYCLE is final at once, and the rails go 10 ms later, after the reset notice, to return 2 s after that. So FUNC_REINIT, REINIT_LIMIT_EXPIRY, WARM_RESET, WARM_RESET_COMPLETE, WARM_RESET_TIMEOUT, POWER_CYCLE, POWER_REMOVAL, POWER_RESTORE, FW_WATCHDOG and REINIT_COMPLETE complete. (R363, R492, R519, R560, R561, R562, R563, R564, R565) -/
def Obligations.RecoveryRungs : Prop :=
  ∀ (s : State), InForm s →
    (∀ id c, Starts s id 0x0603 c → let k := c.par 0 1
      let i := c.par 1 2
      (s.jobState = 1 → (k = 0 ∨ k = 3 ∨ k = 6) → exec (.funcReinit id) s = .next (s.refuseCmd id .badState 0)) ∧
      (k = 5 → s.reinit = [] → ∃ u : State, exec (.funcReinit id) s = .next u ∧ u.reinit = [{ kind := 5, index := i, since := s.now, cmd := some id, was := 0 }] ∧ (u.cmd? id).map (fun c => c.started) = some true) ∧
      (k = 1 → s.reinit = [] → i < 64 → ∃ u : State, exec (.funcReinit id) s = .next u ∧ u.reinit.map (fun r => (r.kind, r.index, r.cmd)) = [(1, i, some id)] ∧ u.sqOn i = false ∧ u.cqOn i = false ∧ (u.cmd? id).map (fun c => c.started) = some true)) ∧
    (∀ r, s.reinit = [r] → r.kind ≠ 2 → let v := ({ s with reinit := [] } : State)
      (r.cmd = none → exec (.reinitComplete r.kind r.index true) s = .next ((v.backInService r).recovered r.kind r.index) ∧ exec (.reinitComplete r.kind r.index false) s = .next (v.outOfService r)) ∧
      (∀ id, r.cmd = some id → exec (.reinitComplete r.kind r.index true) s = .next (((v.backInService r).recovered r.kind r.index).finishCmd id .ok []) ∧ exec (.reinitComplete r.kind r.index false) s = .next ((v.outOfService r).finishCmd id .rungFailed []) ∧
        (let w := ({ v with now := max s.now (r.since + s.rungLimit r.kind r.index) } : State); exec (.reinitLimitExpiry r.kind r.index) s = .next ((w.outOfService r).finishCmd id .rungFailed []))) ∧
      (r.kind = 5 → v.backInService r = v.setAqState r.index 2) ∧
      (r.kind = 6 → (v.backInService r).far.failed = false)) ∧
    (∀ id c, Starts s id 0x0604 c → s.warm = none → ∃ (u : State) (c' : Cmd), exec (.warmReset id) s = .next u ∧ u.warm = some { since := s.now, cmd := some c' } ∧ c'.dseq = id ∧ c'.started = true ∧ u.hcp.cmds = [] ∧ u.tasks = [] ∧ u.spires = [] ∧ u.epochs = [] ∧ u.groups = [] ∧
      (∀ a, isTower a = true → Memory.readByte u.mem a = 0#8) ∧ (∀ a, 0xF00000000000 ≤ a → Memory.readByte u.mem a = 0#8) ∧ u.jobState = 0) ∧
    (∀ w i, s.warm = some w → let lt := s.verifyAgain 2
      let cfg := lt.2.verifyAgain 3
      let h := cfg.2.lanternBoots.harvest i
      let ok := lt.1.isSome = true ∧ cfg.1.isSome = true ∧ h.1 = true ∧ h.2.tablesOk = true ∧ i.offline = []
      ((i.done = false ∨ s.linksDone = false) → exec (.warmResetComplete i) s = .next s) ∧
      (i.done = true → s.linksDone = true → ok → ∃ u : State, exec (.warmResetComplete i) s = .next u ∧ u = (h.2.warmParts i).warmDone w.cmd ∧ u.warm = none) ∧
      (i.done = true → s.linksDone = true → ¬ok → ∃ u : State, exec (.warmResetComplete i) s = .next u ∧ u.pwr.at_ = .aux ∧ u.pwr.cause = .boot ∧ u.warm = none)) ∧
    (∀ w, s.warm = some w → ∃ u : State, exec .warmResetTimeout s = .next u ∧ u.pwr.at_ = .aux ∧ u.pwr.cause = .cycle ∧ u.warm = none ∧ u.now = max s.now (w.since + max 1500 (s.fld R.ERR_CTL F.ERR_CTL_WARM_LIM) * 1000000) ∧ u.pwr.due = u.lk + 2000000000) ∧
    (∀ id c, Starts s id 0x0605 c → s.pwr.at_ = .up → ∃ u : State, exec (.powerCycle id) s = .next u ∧ u.cmd? id = none ∧ u.pwr.at_ = .orderly ∧ u.pwr.cause = .cycle ∧ u.pwr.due = s.lk + 10000000 ∧ (s.fld R.JNL_STATUS F.JNL_STATUS_READY = 1 → u.jnl.persist = none)) ∧
    (s.pwr.at_ = .orderly → ∃ u : State, exec .powerRemoval s = .next u ∧ u.pwr.at_ = .aux ∧ u.pwr.cause = s.pwr.cause ∧ u.now = max s.now (s.pwr.due - s.pwr.lkBase) ∧ u.pwr.due = u.lk + 2000000000 ∧ u.tasks = [] ∧ u.hcp.cmds = [] ∧ u.jnl.ring = [] ∧
      (∀ a, isTower a = true → Memory.readByte u.mem a = 0#8) ∧ u.jobState = 0) ∧
    (s.pwr.at_ = .aux → s.pwr.oos = false → s.pwr.cause = .cycle → ∃ u : State, exec .powerRestore s = .next u ∧ u.pwr.booting = true ∧ u.pwr.at_ = .aux ∧ u.stage = 0 ∧ u.now = max s.now (s.pwr.due - s.pwr.lkBase) ∧ u.mem = s.mem) ∧
    (∀ k, k < 4 → s.pwr.at_ = .up → s.warm = none → ∃ u : State, exec (.fwWatchdog k) s = .next u ∧ u = s.raise3 0x0001 0 0 k 0 ∧ u.warm.isSome = true)

/-- Power-up in the dark takes the straps and begins a boot at stage 0; a stage that passes moves to the next; after stage 1 the rails are up and the time base starts at 0; stage 4 numbers the enabled sites and gives a disabled one its reach and number 0x3FF; stage 8 with the links done and the time base locked makes the module READY, stage 9; a boot of 60 s fails, and a second failure within an hour holds the module out of service. A loss of input counts, notes the loss and gives the module 4.5 ms, after which the rails go; the lockkeeper then goes dark. A rail fault in operation is a loss, at power-up a failed boot. So INPUT_LOSS, LOSS_PERSIST_DONE, POWER_UP, RAIL_FAULT, BOOT_STAGE_COMPLETE, BOOT_TIMEOUT, CLAMP_SENSE_CLOSED and LOCKKEEPER_SUPPLY_LOSS complete. (R108, R136, R565, R566, R574, R578, R579, R581, R593, R604, R605, R606) -/
def Obligations.BootAndInput : Prop :=
  ∀ (s : State), InForm s →
    (∀ st, s.pwr.at_ = .dark → ∃ u : State, exec (.powerUp st) s = .next u ∧ u.pwr.at_ = .aux ∧ u.pwr.straps = st % 64 ∧ u.pwr.booting = true ∧ u.stage = 0 ∧ u.now = s.now ∧ u.mem = s.mem) ∧
    (∀ st, s.pwr.at_ = .aux → s.pwr.cause = .loss → ∃ u : State, exec (.powerUp st) s = .next u ∧ u.pwr.booting = true ∧ u.stage = 0 ∧ s.lk + 100000000 ≤ u.lk) ∧
    (∃ u : State, exec .clampSenseClosed s = .next u ∧ u.pwr.clamp = true ∧ { u with pwr := s.pwr } = s) ∧
    (∀ i, s.pwr.booting = true → (s.pwr.at_ = .aux ∨ s.pwr.at_ = .up) → i.done = true →
      (s.stage = 0 → ∀ b, (s.verifyType 1).1 = some b → ∃ u : State, exec (.bootStageComplete i) s = .next u ∧ u.stage = 1 ∧ u.pwr.recovery = s.pwr.recovery) ∧
      (s.stage = 0 → (s.verifyType 1).1 = none → ∃ u : State, exec (.bootStageComplete i) s = .next u ∧ u.stage = 0 ∧ u.pwr.recovery = true ∧ u.pwr.booting = false) ∧
      (s.stage = 1 → s.pwr.clamp = true → s.pwr.oos = false → ∃ u : State, exec (.bootStageComplete i) s = .next u ∧ u.stage = 2 ∧ u.pwr.at_ = .up ∧ u.now = 0 ∧ u.lk = s.lk ∧ u.reg R.SEC_BOOTS = s.reg R.SEC_BOOTS + 1 ∧ (∀ n, n < 14 → u.fld (R.PWR_RAIL n) F.PWR_RAIL_PGOOD = 1)) ∧
      (s.stage = 1 → s.pwr.clamp = false → exec (.bootStageComplete i) s = .next s) ∧
      (s.stage = 3 → ∃ u : State, exec (.bootStageComplete i) s = .next u ∧ u.stage = 4 ∧ u.fld R.MBX_STATUS F.MBX_STATUS_LOCKED = 1 ∧ u.position = s.pwr.straps % 64) ∧
      (s.stage = 2 → (s.verifyType 2).1.isSome = true → ((s.verifyType 2).2.verifyType 3).1.isSome = true → ∃ u : State, exec (.bootStageComplete i) s = .next u ∧ u.stage = 3 ∧ u.fw.lkSeen = u.dieDigests) ∧
      (s.stage = 4 → (s.harvest i).1 = true → ∃ u : State, exec (.bootStageComplete i) s = .next u ∧ u.stage = 5 ∧ ∀ x, x < 1024 → u.fld (R.SPR_MAP x) F.SPR_MAP_REACH = 8 * domeOf x + reachOf x ∧
        (x ∈ i.badSites → u.fld (R.SPR_CAP x) F.SPR_CAP_ENABLED = 0) ∧ (u.fld (R.SPR_CAP x) F.SPR_CAP_ENABLED = 0 → u.fld (R.SPR_MAP x) F.SPR_MAP_LOGICAL = 0x3FF)) ∧
      (s.stage = 4 → i.badSites = [] → ∃ u : State, exec (.bootStageComplete i) s = .next u ∧ u.stage = 5 ∧ ∀ l, l < 960 → u.siteOf l = some (if l < 480 then l else l + 32)) ∧
      (s.stage = 5 → s.tablesOk = true → ∃ u : State, exec (.bootStageComplete i) s = .next u ∧ u.stage = 6 ∧ ∀ d, d < 2 → u.fld (R.CNL_STATUS d) F.CNL_STATUS_TABLES_VALID = 1) ∧
      (s.stage = 5 → s.tablesOk = false → ∃ u : State, exec (.bootStageComplete i) s = .next u ∧ u.stage = 5 ∧ ∀ d, d < 2 → u.fld (R.CNL_STATUS d) F.CNL_STATUS_HARVEST_FAIL = 1) ∧
      ((∀ d, d < 2 → s.fld (R.CNL_STATUS d) F.CNL_STATUS_FAILED = 0) → s.tablesOk = true) ∧
      (s.stage = 6 → i.offline = [] → ∃ u : State, exec (.bootStageComplete i) s = .next u ∧ u.stage = 7 ∧ (∀ t, t < 8 → u.towerState t = 1) ∧ ∀ a, isTower a = true → Memory.readByte u.mem a = 0#8) ∧
      (s.stage = 7 → i.key = true → i.health = true → ∃ u : State, exec (.bootStageComplete i) s = .next u ∧ u.stage = 8 ∧ u.fld R.JNL_STATUS F.JNL_STATUS_READY = 1) ∧
      (s.stage = 8 → s.linksDone = false → exec (.bootStageComplete i) s = .next s) ∧
      (s.stage = 8 → s.linksDone = true → s.fld R.LNK_TB_STATUS F.LNK_TB_STATUS_LOCKED = 1 → s.pwr.at_ = .up → s.warm = none → ∃ u : State, exec (.bootStageComplete i) s = .next u ∧ u.stage = 9 ∧ u.isReady = true ∧ u.pwr.booting = false ∧ (∀ typ b, tfind u.fw.pend typ = some b → b ≠ s.runs typ) ∧ u.mem = s.mem)) ∧
    (s.pwr.booting = true → (s.pwr.at_ = .aux ∨ s.pwr.at_ = .up) → let t := max s.lk (s.pwr.returned + 60000000000)
      ∃ u : State, exec .bootTimeout s = .next u ∧ u.pwr.at_ = .aux ∧ u.pwr.cause = .boot ∧ u.pwr.booting = false ∧ (s.pwr.lkBase ≤ s.pwr.returned + 60000000000 → u.lk = t) ∧ (s.pwr.failedAt = none → u.pwr.oos = false ∧ u.pwr.failedAt = some u.lk) ∧
        (∀ x, s.pwr.failedAt = some x → u.lk ≤ x + 3600000000000 → u.pwr.oos = true)) ∧
    (s.pwr.at_ = .up → s.bsn.capture = none → ∃ u : State, exec .inputLoss s = .next u ∧ u.pwr.at_ = .loss ∧ u.pwr.due = s.lk + 4500000 ∧ u.fld R.PWR_STATUS F.PWR_STATUS_LOSS = 1 ∧ u.fld R.PWR_STATUS F.PWR_STATUS_INPUT_OK = 0 ∧ u.reg R.PWR_LOSSES = s.reg R.PWR_LOSSES + 1) ∧
    (s.pwr.at_ = .loss → ∀ b, ∃ u : State, exec (.lossPersistDone b) s = .next u ∧ u.pwr.at_ = .aux ∧ u.pwr.cause = .loss ∧ u.tasks = [] ∧ u.spires = [] ∧ u.hcp.cmds = [] ∧ (b = false → u.now = max s.now (s.pwr.due - s.pwr.lkBase)) ∧ ∀ a, isTower a = true → Memory.readByte u.mem a = 0#8) ∧
    (s.pwr.at_ = .aux → s.pwr.cause = .loss → ∃ u : State, exec .lockkeeperSupplyLoss s = .next u ∧ u.pwr.at_ = .dark ∧ u.fw.lkSessions = 0 ∧ u.regs = s.regs ∧ u.mem = s.mem) ∧
    (∀ n, n < 14 → (s.pwr.at_ = .up → ∃ v : State, exec (.railFault n) s = .next v.lossNotice ∧ v.fld (R.PWR_RAIL n) F.PWR_RAIL_FAULT = 1 ∧ v.fld (R.PWR_RAIL n) F.PWR_RAIL_PGOOD = 0 ∧ v.lossNotice.pwr.at_ = .loss) ∧
      (s.pwr.at_ = .aux → s.pwr.booting = true → ∃ u : State, exec (.railFault n) s = .next u ∧ u.pwr.cause = .boot ∧ u.pwr.booting = false ∧ u.fld (R.PWR_RAIL n) F.PWR_RAIL_FAULT = 1) ∧ (s.pwr.at_ = .dark → exec (.railFault n) s = .next s))

/-- A dome's clock moves one step toward the lowest of its limits, or toward 1,800 MHz at most while the sideband is silent; samples are shown and, above 1,600 W, lower both CAP limits; a cap tick lowers or raises them; a window's mean is shown and a cap unmet at FLOOR is noted; a reading at a trip point shuts the module down, and it boots again after 60 s of cool; POWER_STATE enters and leaves QUIESCENT and STANDBY, POWER_CAP and CLOCK_LIMIT set their limits within their ranges. So POWER_STATE, POWER_CAP, CLOCK_LIMIT, POWER_SAMPLE, POWER_CAP_TICK, CAP_WINDOW_END, SPIRE_CLOCK_STEP, CLOCK_USER_LIMIT_WRITE, THERMAL_TICK, THERMAL_RECOVERY, QUIESCENT_WAKE, SIDEBAND_HEARTBEAT_LOSS, SIDEBAND_HEARTBEAT, STANDBY_EXIT_TIMEOUT and VECTOR_HOLD_RAMP complete. (R27, R30, R31, R493, R582, R583, R584, R585, R586, R588, R589, R590) -/
def Obligations.PowerControl : Prop :=
  ∀ (s : State), InForm s →
    (∀ d p, d < 2 → p ≤ 5000 → s.pwr.at_ = .up → s.fld R.PWR_STATUS F.PWR_STATUS_STATE = 0 → let cur := s.fld (clkReg d) F.CLK_SPIRE_W_CUR
      cur ≠ s.target16 d → cur ≤ 320 → ∃ u : State, exec (.spireClockStep d p) s = .next u ∧ u.fld (clkReg d) F.CLK_SPIRE_W_CUR = (if cur < s.target16 d then cur + 1 else cur - 1) ∧ (u.now ≠ p → tget (fun _ => 0) u.pwr.stepAt d = u.now - p) ∧
        ((∀ x, domeOf x = d → Quiet (s.spire x)) → u.fld (clkReg (1 - d)) F.CLK_SPIRE_W_CUR = s.fld (clkReg (1 - d)) F.CLK_SPIRE_W_CUR ∧ s.now + p ≤ u.now ∧ u.target16 d = s.target16 d ∧ u.mem = s.mem)) ∧
    (∀ d p, s.fld (clkReg d) F.CLK_SPIRE_W_CUR = s.target16 d → exec (.spireClockStep d p) s = .next s) ∧
    (∀ d v, d < 2 → v < 512 → ∃ u : State, exec (.clockUserLimitWrite d v) s = .next u ∧ u.fld (clkReg d) F.CLK_SPIRE_W_USER = v ∧ (s.pwr.silent = false → u.target16 d = min (max 64 (min 320 v)) (min 320 (min (s.fld (clkReg d) F.CLK_SPIRE_W_CAP) (s.fld (clkReg d) F.CLK_SPIRE_W_THERM)))) ∧ u.mem = s.mem) ∧
    (∀ id c, Starts s id 0x0703 c → let u := s.writeUser (c.par 0 1) (max 64 (min 320 (c.par 2 2 * 4 / 25)))
      exec (.clockLimit id) s = .next (u.finishCmd id .ok [u.target16 (c.par 0 1) * 25 / 4])) ∧
    (∀ id c, Starts s id 0x0702 c → (1400 < c.par 0 4 → exec (.powerCap id) s = .next (s.finishCmd id .capOutOfRange [])) ∧ (c.par 0 4 ≤ 1400 → exec (.powerCap id) s = .next ((s.setCap (c.par 0 4)).finishCmd id .ok []) ∧ (s.setCap (c.par 0 4)).capW = max 600 (c.par 0 4))) ∧
    (∀ id c, Starts s id 0x0701 c → let p := s.fld R.PWR_STATUS F.PWR_STATUS_STATE
      (c.par 0 1 = p → c.par 0 1 ≤ 2 → exec (.powerState id) s = .next (s.finishCmd id .ok [])) ∧
      (c.par 0 1 = 0 → p = 1 → exec (.powerState id) s = .next (s.wakeModule.finishCmd id .ok [])) ∧
      (c.par 0 1 = 0 → p = 2 → ∃ u : State, exec (.powerState id) s = .next (u.startCmd c 0) ∧ u.fld R.PWR_STATUS F.PWR_STATUS_STATE = 3 ∧ u.pwr.leaving = some (id, s.now) ∧ u.mem = s.mem) ∧
      (c.par 0 1 = 1 → p = 0 → s.tasks = [] → ∃ u : State, exec (.powerState id) s = .next (u.finishCmd id .ok []) ∧ u.quiescent = true ∧ (∀ d, d < 2 → u.fld (clkReg d) F.CLK_SPIRE_W_VMV = 600) ∧ u.mem = s.mem) ∧
      (c.par 0 1 = 1 → p = 0 → s.tasks ≠ [] → ∃ e, exec (.powerState id) s = .next (s.delayCmd c .waitIdle e)) ∧
      (c.par 0 1 = 2 → p ≠ 2 → (p = 3 ∨ s.standbyOk = false) → exec (.powerState id) s = .next (s.finishCmd id .stateInvalid [])) ∧
      (c.par 0 1 = 2 → (p = 0 ∨ p = 1) → s.standbyOk = true → ∃ u : State, exec (.powerState id) s = .next (u.finishCmd id .ok []) ∧ u.standby = true ∧ u.spires = [] ∧ (∀ n, n < 48 → u.linkState n = 0) ∧ ∀ a, isTower a = true → Memory.readByte u.mem a = Memory.readByte s.mem a)) ∧
    (s.quiescent = true → ∃ u : State, exec .quiescentWake s = .next u ∧ u.fld R.PWR_STATUS F.PWR_STATUS_STATE = 0 ∧ u.mem = s.mem) ∧
    (∀ id t, s.pwr.leaving = some (id, t) → ∃ v : State, exec .standbyExitTimeout s = .next (v.finishCmd id .ok []) ∧ v.fld R.PWR_STATUS F.PWR_STATUS_STATE = 0 ∧ v.now = max s.now (t + 1000000000) ∧ v.pwr.leaving = none) ∧
    (∀ h t, tfind s.tasks h = some t → (∃ i ∈ t.gang, i ∉ s.pwr.hold) → ∃ u : State, exec (.vectorHoldRamp (.up h)) s = .next u ∧ u.now = s.now + 4000 ∧ (∀ i, i ∈ u.pwr.hold ↔ i ∈ s.pwr.hold ∨ i ∈ t.gang) ∧ u.regs = s.regs) ∧
    (∀ x, s.pwr.hold.contains x = true → (∀ p ∈ s.tasks, x ∉ p.2.gang) → ∃ u : State, exec (.vectorHoldRamp (.down x)) s = .next u ∧ u.pwr.hold = s.pwr.hold.erase x ∧ s.now ≤ u.now ∧ u.regs = s.regs) ∧
    (∀ dv ma mw rails, s.pwr.at_ ≠ .dark → dv < 2 ^ 16 → mw < 2 ^ 21 → ∃ u : State, exec (.powerSample dv ma mw rails) s = .next u ∧ (∀ mv da l, rails = (mv, da) :: l → u.fld (R.PWR_RAIL 0) F.PWR_RAIL_MV = mv % 2 ^ (F.PWR_RAIL_MV.hi + 1 - F.PWR_RAIL_MV.lo)) ∧ u.now = max s.now (s.pwr.sampleAt + 10000) ∧ u.fld R.PWR_INPUT F.PWR_INPUT_PIN = mw % 2 ^ (F.PWR_INPUT_PIN.hi + 1 - F.PWR_INPUT_PIN.lo) ∧
      u.pwr.energy = s.pwr.energy + 10 * mw ∧ (1600000 < mw → u.pwr.fast = true ∧ ∀ d, d < 2 → s.floorStep + 10 ≤ s.fld (clkReg d) F.CLK_SPIRE_W_CAP → u.fld (clkReg d) F.CLK_SPIRE_W_CAP = s.fld (clkReg d) F.CLK_SPIRE_W_CAP - 10) ∧
      (mw < 1550000 → u.pwr.fast = false ∧ ∀ d, d < 2 → u.fld (clkReg d) F.CLK_SPIRE_W_CAP = s.fld (clkReg d) F.CLK_SPIRE_W_CAP)) ∧
    (∀ st hot, s.pwr.at_ = .up → st ≠ 0 → s.pwr.tickE = 0 → s.pwr.winE = 0 → let t := (s.pwr.tickAt / 100000 + 1) * 100000
      s.now ≤ t → ∃ u : State, exec (.powerCapTick st hot) s = .next u ∧ u.now = t ∧ u.pwr.tickAt = t ∧ u.mem = s.mem ∧ ∀ d, d < 2 → let c := s.fld (clkReg d) F.CLK_SPIRE_W_CAP
        c < 511 → u.fld (clkReg d) F.CLK_SPIRE_W_CAP = if c < min (userStep (s.fld (clkReg d) F.CLK_SPIRE_W_USER)) (s.fld (clkReg d) F.CLK_SPIRE_W_THERM) then c + 1 else c) ∧
    (s.pwr.at_ = .up → ∃ u : State, exec .capWindowEnd s = .next u ∧ u.now = max s.now (s.pwr.winAt + 1000000) ∧ u.pwr.winAt = u.now / 1000000 * 1000000 ∧ u.fld R.PWR_WINDOW F.PWR_WINDOW_LAST = s.pwr.winE / 1000 % 2 ^ (F.PWR_WINDOW_LAST.hi + 1 - F.PWR_WINDOW_LAST.lo) ∧ u.pwr.winE = 0 ∧
      u.pwr.unmet = (Nat.blt (s.capW * 1000) (s.pwr.winE / 1000) && [0, 1].all (fun d => Nat.ble (s.fld (clkReg d) F.CLK_SPIRE_W_CAP) s.floorStep))) ∧
    (s.pwr.at_ = .up → s.pwr.silent = false → ∃ u : State, exec .sidebandHeartbeatLoss s = .next u ∧ u.pwr.silent = true ∧ u.now = max s.now (s.pwr.beatAt + 2000000) ∧ ∀ d, d < 2 → u.target16 d ≤ 288) ∧
    (s.pwr.at_ = .up → ∃ u : State, exec .sidebandHeartbeat s = .next u ∧ u.pwr.silent = false ∧ u.pwr.beatAt = s.now ∧ u.fld R.PWR_STATUS F.PWR_STATUS_SB_OK = 1 ∧ u.mem = s.mem) ∧
    (s.pwr.at_ = .up → s.pwr.sensors = [] → (∀ x, 64 ≤ x → x ≤ 139 → ∃ u : State, exec (.thermalTick [(x, 30)]) s = .next u ∧ u.pwr.at_ = .up ∧ u.pwr.coolSince.isSome = true ∧ u.sensor x = some 30) ∧
      (∀ x v, 64 ≤ x → x ≤ 139 → tripPoint x ≤ v → ∃ u : State, exec (.thermalTick [(x, v)]) s = .next u ∧ u.pwr.at_ = .orderly ∧ u.pwr.cause = .thermal)) ∧
    (∀ t, s.pwr.coolSince = some t → s.pwr.at_ = .aux → s.pwr.cause = .thermal → ∃ u : State, exec .thermalRecovery s = .next u ∧ u.pwr.booting = true ∧ u.stage = 0 ∧ t + 60000000000 ≤ u.lk)

/-- A challenge gives a fresh nonce; an attempt consumes it, opens the debug lock or manufacturing service when the token verifies, and is otherwise counted, the eighth failure locking out; a nonce expires after 60 s. A commit raises a fused minimum once programmed. Sessions are counted to their limit; a certificate request gets the chain of slot 0, whose leaf names the module serial number, and a measurement request the block of its index, or all seven, signed over the nonce where asked; key management moves the IDE state, and an integrity failure makes it INSECURE. An update is requested, transferred, checked and activated in order. Sensors answer, effecters act within their conditions. So DEBUG_CHALLENGE, DEBUG_UNLOCK, MANUF_SERVICE, NONCE_EXPIRY, SPDM_REQUEST, IDE_KM, IDE_INTEGRITY_FAILURE, REQUEST_UPDATE, REQUEST_FIRMWARE_DATA, TRANSFER_COMPLETE, ACTIVATE_FIRMWARE, SENSOR_READ, POWER_EFFECTER_ON, POWER_EFFECTER_OFF, POWER_EFFECTER_CYCLE, CAP_EFFECTER, RELEASE_OUT_OF_SERVICE, SVN_PROGRAMMING_COMPLETE, COMMIT_LK, COMMIT_LT and COMMIT_CFG complete. (R608, R609, R610, R611, R612, R613, R614, R616, R619, R620, R622, R623) -/
def Obligations.SecurityAndManagement : Prop :=
  ∀ (s : State), InForm s →
    (∀ id c, Starts s id 0x0802 c → (s.lockedOut = true → exec (.debugChallenge id) s = .next (s.authFails.finishCmd id .authFailed [])) ∧
      (s.lockedOut = false → ∃ u : State, let n := Config.nonce s.freeCtr
        exec (.debugChallenge id) s = .next (u.finishCmd id .ok ((List.range 4).map (fun i => n.toNat / 2 ^ (32 * i) % 2 ^ 32))) ∧ u.fw.nonce = some n ∧ u.fw.nonceAt = s.now ∧ u.freeCtr = s.freeCtr + 1 ∧ u.fld R.SEC_AUTH F.SEC_AUTH_NONCE_VALID = 1 ∧ u.mem = s.mem)) ∧
    (∀ id c, Starts s id 0x0803 c → s.lockedOut = false →
      (s.tokenOk c.signature 1 = true → s.fld R.SEC_STATE F.SEC_STATE_DEBUG_DISABLED = 0 → ∃ u : State, exec (.debugUnlock id) s = .next (u.finishCmd id .ok []) ∧ u.debugOpen = true ∧ u.fw.nonce = none ∧ u.fw.sessions = 0 ∧ u.fld R.SEC_IDE F.SEC_IDE_STATE = 0 ∧ u.mem = s.mem) ∧
      ((s.tokenOk c.signature 1 = false ∨ s.fld R.SEC_STATE F.SEC_STATE_DEBUG_DISABLED ≠ 0) → ∃ u : State, exec (.debugUnlock id) s = .next (u.finishCmd id .authFailed []) ∧ u.fw.nonce = none ∧ u.debugOpen = s.debugOpen ∧ u.reg R.SEC_AUTH_FAIL = s.reg R.SEC_AUTH_FAIL + 1 ∧
        (u.lockedOut = true ↔ 7 ≤ s.fld R.SEC_AUTH F.SEC_AUTH_FAILS))) ∧
    (∀ id c, Starts s id 0x0804 c → s.lockedOut = false → let e := c.par 96 1
      (e = 1 → s.jobState ≠ 0 → exec (.manufService id) s = .next (s.finishCmd id .badState [])) ∧
      ((e = 0 ∨ (e = 1 ∧ s.jobState = 0)) → s.tokenOk c.signature (if e = 1 then 2 else 3) = true → ∃ u : State, exec (.manufService id) s = .next (u.finishCmd id .ok []) ∧ u.fld R.SEC_STATE F.SEC_STATE_MANUF_SERVICE = e ∧ u.fw.nonce = none) ∧
      ((e = 0 ∨ (e = 1 ∧ s.jobState = 0)) → s.tokenOk c.signature (if e = 1 then 2 else 3) = false → exec (.manufService id) s = .next (s.dropNonce.authFails.finishCmd id .authFailed []))) ∧
    (s.fw.nonce.isSome = true → ∃ u : State, exec .nonceExpiry s = .next u ∧ u.fw.nonce = none ∧ u.now = max s.now (s.fw.nonceAt + 60000000000) ∧ u.fld R.SEC_AUTH F.SEC_AUTH_NONCE_VALID = 0) ∧
    (∀ k, k = 1 ∨ k = 2 ∨ k = 3 → let v := s.fld (fwReg k) F.SEC_FW_LK_SVN
      let row : Instr := if k = 1 then .commitLk else if k = 2 then .commitLt else .commitCfg
      (v ≤ s.svnMin k → exec row s = .next s) ∧
      (s.svnMin k < v → tfind s.fw.svnDue k = none → ∃ u : State, exec row s = .next u ∧ tfind u.fw.svnDue k = some v ∧ u.fld R.SEC_SVN_CTL (commitFld k) = 1 ∧ (∀ o, o ≠ R.SEC_SVN_CTL → u.reg o = s.reg o)) ∧
      (∀ x, tfind s.fw.svnDue k = some x → x < 256 → ∃ u : State, exec (.svnProgrammingComplete k) s = .next u ∧ u.svnMin k = x ∧ u.fld R.SEC_SVN_CTL (commitFld k) = 0)) ∧
    (s.pwr.at_ = .up → 3 ≤ s.stage → ∃ u : State, exec (.spdmRequest 0 .sessionOpen) s = .next u ∧ u.fw.sessions = (if s.fw.sessions < 4 then s.fw.sessions + 1 else s.fw.sessions) ∧
      u.answers = s.answers ++ [.spdm 0 (if s.fw.sessions < 4 then .plain else .error)] ∧ u.reg R.SEC_SPDM_MSGS = s.reg R.SEC_SPDM_MSGS + 1) ∧
    (∀ r q, ((r = 0 ∧ s.pwr.at_ = .up ∧ 3 ≤ s.stage) ∨ (r = 1 ∧ s.lockkeeperRuns = true)) → ∃ u : State, exec (.spdmRequest r q) s = .next u ∧ u.reg R.SEC_SPDM_MSGS = s.reg R.SEC_SPDM_MSGS + 1 ∧ u.mem = s.mem ∧ ∃ a : SpdmAns, u.answers = s.answers ++ [.spdm r a] ∧
      (q = .certificate 0 → ∃ leaf : Cert, a = .chain (certChain r) ∧ (certChain r).getLast? = some leaf ∧ leaf.serial = some Config.serial ∧ leaf.subject = if r = 0 then .deviceIdentity else .lockkeeperIdentity) ∧
      (∀ k n, q = .challenge 0 n → k = bytesLE 32 n.toNat → a = .challenged (Config.spdmSigned r k)) ∧
      (∀ n g, q = .measurements 0 n g → a = .count 7) ∧
      (∀ i n, q = .measurements i n false → 1 ≤ i → i ≤ 7 → ∃ b : MeasBlock, a = .blocks [b] none ∧ b.index = i ∧ (i = 2 → b.digest = sha384 ((s.runningImage 1).take 512)) ∧ (i = 7 → b.digest = sha384 (bytesLE 8 s.fw.podRecord.toNat)) ∧
        (r = 0 → i = 5 → b.digest = sha384 (s.runningImage 3))) ∧
      (∀ n, q = .measurements 255 n true → ∃ bs, a = .blocks bs (some (Config.spdmSigned r (bytesLE 32 n.toNat ++ bs.flatMap (fun b => b.digest)))) ∧ bs.map (fun b => b.index) = [1, 2, 3, 4, 5, 6, 7]) ∧
      (∀ i n g, q = .measurements i n g → 7 < i → i ≠ 255 → a = .error) ∧ (∀ i, q = .certificate i → i ≠ 0 → a = .error)) ∧
    (s.fw.sessions ≠ 0 → let st := s.fld R.SEC_IDE F.SEC_IDE_STATE
      (∀ n, (st = 1 ∨ st = 2) → ∃ u : State, exec (.ideKm (.start n)) s = .next u ∧ u.fld R.SEC_IDE F.SEC_IDE_STATE = 2 ∧ u.fld R.SEC_STATE F.SEC_STATE_IDE_ACTIVE = 1) ∧ (∀ n, (st = 0 ∨ st = 3) → exec (.ideKm (.start n)) s = .next s) ∧
      (∃ u : State, exec (.ideKm .stop) s = .next u ∧ u.fld R.SEC_IDE F.SEC_IDE_STATE = 0 ∧ u.fld R.SEC_STATE F.SEC_STATE_IDE_ACTIVE = 0)) ∧
    (s.fld R.SEC_IDE F.SEC_IDE_STATE = 2 → ∃ u : State, exec .ideIntegrityFailure s = .next u ∧ u.fld R.SEC_IDE F.SEC_IDE_STATE = 3 ∧ u.fld R.SEC_STATE F.SEC_STATE_IDE_ACTIVE = 0 ∧ u.reg R.SEC_IDE_FAIL = s.reg R.SEC_IDE_FAIL + 1) ∧
    (∀ k n, s.pwr.at_ ≠ .dark → s.pwr.recovery = false → 1 ≤ k → k ≤ 3 → s.fw.update = none → ∃ u : State, exec (.requestUpdate k n) s = .next u ∧ u.fw.update = some { typ := k, size := n, data := [], verified := false } ∧ u.answers = s.answers ++ [.pldm 0] ∧ u.regs = s.regs) ∧
    (∀ x o bs, s.fw.update = some x → x.verified = false → o < x.size → 64 ≤ bs.length → bs.length ≤ 4096 → ∃ u : State, exec (.requestFirmwareData o bs) s = .next u ∧ u.fw.update = some { x with data := Memory.writeBytes x.data o bs } ∧ u.image x.typ (s.spareBank x.typ) = [] ∧ u.fw.active = s.fw.active) ∧
    (∀ x, s.fw.update = some x → let img := Memory.readBytes x.data 0 x.size
      (s.imageFail x.typ img = 0 → ∃ u : State, exec .transferComplete s = .next u ∧ u.fw.update = some { x with verified := true } ∧ u.image x.typ (s.spareBank x.typ) = img ∧ u.answers = s.answers ++ [.pldm 0]) ∧
      (s.imageFail x.typ img ≠ 0 → ∃ u : State, exec .transferComplete s = .next u ∧ u.fw.update = none ∧ u.image x.typ (s.spareBank x.typ) = [] ∧ u.answers = s.answers ++ [.pldm 1])) ∧
    (∀ x, s.fw.update = some x → (x.verified = false → exec .activateFirmware s = .next (s.pldm 0x80)) ∧
      (x.verified = true → (x.typ = 2 ∨ x.typ = 3) → ∃ u : State, exec .activateFirmware s = .next u ∧ u.fw.update = none ∧ tfind u.fw.pend x.typ = some (s.spareBank x.typ) ∧ u.fw.active = s.fw.active ∧ u.reg R.SEC_FW_UPDATES = s.reg R.SEC_FW_UPDATES + 1)) ∧
    (∀ id v, s.lockkeeperRuns = true → s.sensor id = some v → exec (.sensorRead id) s = .next { s with answers := s.answers ++ [.sensor id v (s.sensorLimits id)] }) ∧
    (s.lockkeeperRuns = true → s.pwr.at_ = .aux → s.pwr.booting = false → s.pwr.oos = false → s.pwr.cause = .off → ∃ u : State, exec .powerEffecterOn s = .next u ∧ u.pwr.booting = true ∧ u.stage = 0 ∧ u.answers = s.answers ++ [.pldm 0]) ∧
    (s.pwr.at_ = .up → s.pwr.recovery = false →
      (s.jobState = 1 → s.fw.policy / 2 % 2 = 0 → exec .powerEffecterOff s = .next (s.pldm 4) ∧ exec .powerEffecterCycle s = .next (s.pldm 4)) ∧
      (s.jobState ≠ 1 → (∃ u : State, exec .powerEffecterOff s = .next u ∧ u.pwr.at_ = .orderly ∧ u.pwr.cause = .off ∧ u.pwr.due = s.lk + 10000000) ∧ ∃ u : State, exec .powerEffecterCycle s = .next u ∧ u.pwr.at_ = .orderly ∧ u.pwr.cause = .cycle ∧ u.pwr.due = s.lk + 10000000)) ∧
    (∀ w, s.lockkeeperRuns = true → (w ≤ 1400 → exec (.capEffecter w) s = .next ((s.setCap w).pldm 0)) ∧ (1400 < w → exec (.capEffecter w) s = .next (s.pldm 2))) ∧
    (s.lockkeeperRuns = true → s.pwr.oos = true → ∃ u : State, exec .releaseOutOfService s = .next u ∧ u.pwr.oos = false ∧ u.pwr.failedAt = none ∧ u.pwr.booting = true ∧ u.stage = 0)

/-- R218: on a COUNT cell, an addition that would pass 0xFFFF leaves 0xFFFF and sets the cell's bit in SPR_SYNC_SATHI, a decrement that would pass 0 leaves 0 and sets the cell's bit in SPR_SYNC_SATLO, each such event increments SPR_SYNC_SATCNT and nothing else does; no fault is recorded and no engine is touched. (R218) -/
def Obligations.CountsSaturate : Prop :=
  ∀ (s : State) (site c n : Nat), InForm s → site < 1024 → c < 48 → fget (s.cell site c) cKind = 0 →
    let old := fget (s.cell site c) cCount
    let u : CellOp → State := fun op => s.applyUpd site 0 { due := 0, cell := c, op := op, eng := 0, qpos := 0, remote := false, omod := 0, ospire := 0 }
    let bit := BitVec.ofNat 64 (2 ^ c);
    (let t := s.cellAdd site c n;
      fget (t.cell site c) cCount = min 0xFFFF (old + n) ∧
      (0xFFFF < old + n → t.reg (R.SPR_SYNC_SATHI site) = s.reg (R.SPR_SYNC_SATHI site) ||| bit ∧ t.reg (R.SPR_SYNC_SATCNT site) = s.reg (R.SPR_SYNC_SATCNT site) + 1) ∧
      (old + n ≤ 0xFFFF → t.reg (R.SPR_SYNC_SATHI site) = s.reg (R.SPR_SYNC_SATHI site) ∧ t.reg (R.SPR_SYNC_SATCNT site) = s.reg (R.SPR_SYNC_SATCNT site)) ∧
      t.reg (R.SPR_FAULT site) = s.reg (R.SPR_FAULT site) ∧ t.spState site = s.spState site ∧ t.spires = s.spires) ∧
    (let t := u (.dec n);
      fget (t.cell site c) cCount = old - n ∧
      (old < n → t.reg (R.SPR_SYNC_SATLO site) = s.reg (R.SPR_SYNC_SATLO site) ||| bit ∧ t.reg (R.SPR_SYNC_SATCNT site) = s.reg (R.SPR_SYNC_SATCNT site) + 1) ∧
      (n ≤ old → t.reg (R.SPR_SYNC_SATLO site) = s.reg (R.SPR_SYNC_SATLO site) ∧ t.reg (R.SPR_SYNC_SATCNT site) = s.reg (R.SPR_SYNC_SATCNT site)) ∧
      t.reg (R.SPR_FAULT site) = s.reg (R.SPR_FAULT site) ∧ t.spState site = s.spState site ∧ t.spires = s.spires)

/-- R284: an INTERLEAVE is accepted only with eight entries of DOME mode, or with eight of REACH mode whose targets are the reaches 0 to 7, each exactly once; any other set is refused with BAD_PARAM and changes no entry. (R284) -/
def Obligations.ReachSets : Prop :=
  (∀ es : List Nat, es.length = 8 → (ilSetOk es = true ↔ (∀ e ∈ es, e = 0) ∨ ((∀ e ∈ es, 64 ≤ e ∧ e < 72) ∧ ∀ q, q < 8 → es.count (64 + q) = 1))) ∧
  (∀ (s : State) (id : Nat) (c : Cmd), Starts s id 0x0206 c → ¬((∀ e ∈ c.ilEntries, e = 0) ∨ ((∀ e ∈ c.ilEntries, 64 ≤ e ∧ e < 72) ∧ ∀ q, q < 8 → c.ilEntries.count (64 + q) = 1)) →
    exec (.interleave id) s = .next (s.refuseCmd id .badParam 8))

/-- R11: reading an offset of BAR0 that has no register gives zero and changes nothing, and a write to it changes nothing, whatever its value and mask. (R11) -/
def Obligations.UnassignedOffsets : Prop :=
  ∀ (s : State) (off : Nat) (v m : Word), regAt off = none → s.readReg off = (0, s) ∧ s.writeReg off v m = s
end

