-- ==== Sys2Proof/Laws/Table.lean ====
section
/-!
SUPPORT. Laws of the sparse tables and of device memory: what is read after a write, and that every operation keeps the canonical form.
-/
namespace Sys2Proof.Machine

variable {α : Type}

/-- Every key of a table lies above a bound. -/
def above (t : Table α) (k : Nat) : Prop := ∀ e ∈ t, k < e.1

theorem tget_above (d : Nat → α) (t : Table α) (k : Nat) (h : above t k) : tget d t k = d k := by
  cases t with
  | nil => rfl
  | cons e r =>
    have := h e (by simp)
    simp only [tget]
    rw [if_neg (by omega), if_pos this]

theorem tget_tinsert_same (d : Nat → α) (t : Table α) (k : Nat) (v : α) : tget d (tinsert t k v) k = v := by
  induction t with
  | nil => simp [tinsert, tget]
  | cons e r ih =>
    obtain ⟨i, w⟩ := e
    simp only [tinsert]
    split
    · simp [tget]
    · split
      · simp [tget]
      · simp only [tget]; rw [if_neg ‹_›, if_neg ‹_›]; exact ih

theorem tget_tinsert_ne (d : Nat → α) (t : Table α) {k j : Nat} (v : α) (h : j ≠ k) : tget d (tinsert t k v) j = tget d t j := by
  induction t with
  | nil => simp [tinsert, tget]; omega
  | cons e r ih =>
    obtain ⟨i, w⟩ := e
    simp only [tinsert]
    split
    · subst i; simp only [tget]; rw [if_neg (Ne.symm h), if_neg (Ne.symm h)]
    · split
      · simp only [tget]
        rw [if_neg (Ne.symm h)]
        split
        · rw [if_neg (by omega), if_pos (by omega)]
        · rfl
      · simp only [tget]; rw [ih]

theorem tfind_tinsert_same (t : Table α) (k : Nat) (v : α) : tfind (tinsert t k v) k = some v := by
  induction t with
  | nil => simp [tinsert, tfind]
  | cons e r ih =>
    obtain ⟨i, w⟩ := e
    simp only [tinsert]
    split
    · simp [tfind]
    · split
      · simp [tfind]
      · simp only [tfind]; rw [if_neg ‹_›, if_neg ‹_›]; exact ih

theorem tfind_tinsert_ne (t : Table α) {k j : Nat} (v : α) (h : j ≠ k) : tfind (tinsert t k v) j = tfind t j := by
  induction t with
  | nil => simp [tinsert, tfind]; omega
  | cons e r ih =>
    obtain ⟨i, w⟩ := e
    simp only [tinsert]
    split
    · subst i; simp only [tfind]; rw [if_neg (Ne.symm h), if_neg (Ne.symm h)]
    · split
      · simp only [tfind]
        rw [if_neg (Ne.symm h)]
        split
        · rw [if_neg (by omega), if_pos (by omega)]
        · rfl
      · simp only [tfind]; rw [ih]

/-- A second insertion under one key replaces the first. -/
@[simp] theorem tinsert_tinsert (t : Table α) (k : Nat) (v w : α) : tinsert (tinsert t k v) k w = tinsert t k w := by
  induction t with
  | nil => simp [tinsert]
  | cons e r ih =>
    obtain ⟨i, x⟩ := e
    simp only [tinsert]
    split
    · simp [tinsert]
    · split
      · simp [tinsert]
      · simp only [tinsert]; rw [if_neg ‹_›, if_neg ‹_›, ih]

/-! Canonical form. -/

theorem twf_nil (d : Nat → α) : twf d ([] : Table α) := by simp [twf]

theorem twf_cons {d : Nat → α} {i : Nat} {v : α} {r : Table α} : twf d ((i, v) :: r) ↔ above r i ∧ v ≠ d i ∧ twf d r := by
  simp only [twf, List.pairwise_cons, List.forall_mem_cons, above]
  constructor
  · rintro ⟨⟨a, b⟩, c, e⟩; exact ⟨a, c, b, e⟩
  · rintro ⟨a, c, b, e⟩; exact ⟨⟨a, b⟩, c, e⟩

theorem above_tinsert {t : Table α} {i k : Nat} (v : α) (h : above t i) (hk : i < k) : above (tinsert t k v) i := by
  induction t with
  | nil => intro e he; simp only [tinsert, List.mem_singleton] at he; subst he; exact hk
  | cons e r ih =>
    obtain ⟨j, w⟩ := e
    have hr : above r i := fun e he => h e (by simp [he])
    have hj : i < j := h (j, w) (by simp)
    simp only [tinsert]
    split
    · intro e he; exact (List.mem_cons.1 he).elim (fun q => q ▸ hk) (fun he => hr e he)
    · split
      · intro e he; exact (List.mem_cons.1 he).elim (fun q => q ▸ hk) (fun he => h e he)
      · intro e he; exact (List.mem_cons.1 he).elim (fun q => q ▸ hj) (fun he => ih hr e he)

theorem above_terase {t : Table α} {i : Nat} (k : Nat) (h : above t i) : above (terase t k) i := by
  induction t with
  | nil => exact h
  | cons e r ih =>
    obtain ⟨j, w⟩ := e
    have hr : above r i := fun e he => h e (by simp [he])
    simp only [terase]
    split
    · exact hr
    · split
      · exact h
      · intro e he; exact (List.mem_cons.1 he).elim (fun q => q ▸ h _ (by simp)) (fun he => ih hr e he)

theorem twf_tinsert {d : Nat → α} {t : Table α} {k : Nat} {v : α} (h : twf d t) (hv : v ≠ d k) : twf d (tinsert t k v) := by
  induction t with
  | nil => simp only [tinsert]; exact twf_cons.2 ⟨by simp [above], hv, twf_nil d⟩
  | cons e r ih =>
    obtain ⟨i, w⟩ := e
    obtain ⟨ha, hw, hr⟩ := twf_cons.1 h
    simp only [tinsert]
    split
    · subst i; exact twf_cons.2 ⟨ha, hv, hr⟩
    · split
      · refine twf_cons.2 ⟨?_, hv, h⟩
        intro e he; rcases List.mem_cons.1 he with rfl | he
        · assumption
        · have := ha e he; omega
      · exact twf_cons.2 ⟨above_tinsert v ha (by omega), hw, ih hr⟩

theorem twf_terase {d : Nat → α} {t : Table α} (k : Nat) (h : twf d t) : twf d (terase t k) := by
  induction t with
  | nil => exact h
  | cons e r ih =>
    obtain ⟨i, w⟩ := e
    obtain ⟨ha, hw, hr⟩ := twf_cons.1 h
    simp only [terase]
    split
    · exact hr
    · split
      · exact h
      · exact twf_cons.2 ⟨above_terase k ha, hw, ih hr⟩

theorem twf_tset [DecidableEq α] {d : Nat → α} {t : Table α} (k : Nat) (v : α) (h : twf d t) : twf d (tset d t k v) := by
  unfold tset; split
  · exact twf_terase k h
  · exact twf_tinsert h ‹_›

theorem twf_filter {d : Nat → α} {t : Table α} (f : Nat × α → Bool) (h : twf d t) : twf d (t.filter f) :=
  ⟨h.1.filter _, fun e he => h.2 e (List.mem_filter.1 he).1⟩

theorem tget_terase {d : Nat → α} {t : Table α} (h : twf d t) (k j : Nat) : tget d (terase t k) j = if j = k then d k else tget d t j := by
  induction t with
  | nil => simp [terase, tget]; intro e; rw [e]
  | cons e r ih =>
    obtain ⟨i, w⟩ := e
    obtain ⟨ha, hw, hr⟩ := twf_cons.1 h
    simp only [terase]
    split
    · subst i
      split
      · subst j; exact tget_above d r k ha
      · simp only [tget]; rw [if_neg (Ne.symm ‹_›)]
        split
        · exact tget_above d r j (fun e he => by have := ha e he; omega)
        · rfl
    · split
      · split
        · subst j; simp only [tget]; rw [if_neg ‹_›, if_pos ‹_›]
        · rfl
      · simp only [tget, ih hr]
        split
        · rw [if_neg (by omega)]
        · split
          · rw [if_neg (by omega)]
          · rfl

/-- Reading after a write of a canonical table. -/
theorem tget_tset [DecidableEq α] {d : Nat → α} {t : Table α} (h : twf d t) (k j : Nat) (v : α) :
    tget d (tset d t k v) j = if j = k then v else tget d t j := by
  unfold tset; split
  · rw [tget_terase h]; split
    · exact (‹v = _›).symm
    · rfl
  · split
    · subst j; exact tget_tinsert_same d t k v
    · exact tget_tinsert_ne d t v ‹_›

/-! Sorting by a key. -/

theorem putOn_perm {α : Type} (key : α → Nat) (x : α) (l : List α) : (putOn key x l).Perm (x :: l) := by
  induction l with
  | nil => exact .refl _
  | cons y r ih =>
    simp only [putOn]
    split
    · exact .refl _
    · exact (ih.cons y).trans (.swap x y r)

/-- Sorting keeps the elements. -/
theorem sortOn_perm {α : Type} (key : α → Nat) (l : List α) : (sortOn key l).Perm l := by
  induction l with
  | nil => exact .refl _
  | cons x r ih => exact (putOn_perm key x _).trans (ih.cons x)

@[simp] theorem mem_sortOn {α : Type} (key : α → Nat) (l : List α) (x : α) : x ∈ sortOn key l ↔ x ∈ l := (sortOn_perm key l).mem_iff

theorem putOn_rising {α : Type} (key : α → Nat) (x : α) {l : List α} (h : l.Pairwise (fun a b => key a ≤ key b)) :
    (putOn key x l).Pairwise (fun a b => key a ≤ key b) := by
  induction l with
  | nil => simp [putOn]
  | cons y r ih =>
    have hy := List.pairwise_cons.mp h
    simp only [putOn]
    split
    · rename_i e
      have e : key x ≤ key y := Nat.le_of_ble_eq_true e
      exact List.pairwise_cons.mpr ⟨fun b hb => (List.mem_cons.mp hb).elim (fun q => q ▸ e) (fun q => Nat.le_trans e (hy.1 b q)), h⟩
    · rename_i e
      have e : key y ≤ key x := by rw [Nat.ble_eq] at e; omega
      exact List.pairwise_cons.mpr ⟨fun b hb => (List.mem_cons.mp ((putOn_perm key x r).mem_iff.mp hb)).elim (fun q => q ▸ e) (hy.1 b), ih hy.2⟩

/-- Sorting puts them in rising order of the key. -/
theorem sortOn_rising {α : Type} (key : α → Nat) (l : List α) : (sortOn key l).Pairwise (fun a b => key a ≤ key b) := by
  induction l with
  | nil => exact .nil
  | cons x r ih => exact putOn_rising key x ih

/-! Memory. -/

theorem Memory.wf_writeByte {m : Memory} (a : Nat) (b : Byte) (h : Memory.wf m) : Memory.wf (Memory.writeByte m a b) := twf_tset a b h

theorem Memory.readByte_writeByte {m : Memory} (h : Memory.wf m) (a j : Nat) (b : Byte) :
    Memory.readByte (Memory.writeByte m a b) j = if j = a then b else Memory.readByte m j := tget_tset h a j b

theorem Memory.wf_writeBytes {m : Memory} (a : Nat) (bs : List Byte) (h : Memory.wf m) : Memory.wf (Memory.writeBytes m a bs) := by
  induction bs generalizing m a with
  | nil => exact h
  | cons b r ih => exact ih _ (Memory.wf_writeByte a b h)

/-- A byte after a store: the stored one within, the old one outside. -/
theorem Memory.readByte_writeBytes {m : Memory} (h : Memory.wf m) (a j : Nat) (bs : List Byte) :
    Memory.readByte (Memory.writeBytes m a bs) j = if a ≤ j ∧ j < a + bs.length then bs.getD (j - a) 0 else Memory.readByte m j := by
  induction bs generalizing m a with
  | nil => simp only [Memory.writeBytes, List.length_nil]; rw [if_neg (by omega)]
  | cons b r ih =>
    simp only [Memory.writeBytes, List.length_cons]
    rw [ih (Memory.wf_writeByte a b h), Memory.readByte_writeByte h]
    by_cases e : j = a
    · subst e; rw [if_neg (by omega), if_pos rfl, if_pos (by omega)]; simp
    · by_cases l : a + 1 ≤ j ∧ j < a + 1 + r.length
      · rw [if_pos l, if_pos (by omega)]
        have : j - a = (j - (a + 1)) + 1 := by omega
        rw [this]; rfl
      · rw [if_neg l, if_neg e, if_neg (by omega)]

theorem Memory.wf_writeLE {m : Memory} (a n v : Nat) (h : Memory.wf m) : Memory.wf (Memory.writeLE m a n v) := Memory.wf_writeBytes a _ h

theorem Memory.wf_filter {m : Memory} (f : Host.Cell → Bool) (h : Memory.wf m) : Memory.wf (m.filter f) := twf_filter f h

end Sys2Proof.Machine
end

