-- ==== Sys2Proof/Laws/Inv.lean ====
section
/-!
SUPPORT. How the canonical form of registers and memory, and the queue of commands, pass through the shapes of the model's operations.
-/
namespace Sys2Proof.Machine

/-- Registers and memory in canonical form, and the queue `q`. -/
def Kept (r : Table Word) (m : Memory) (p q : List Instr) : Prop := twf regReset r ∧ Memory.wf m ∧ p = q

/-- A state in canonical form whose queue is `w0`. -/
abbrev Keeps (w0 : List Instr) (s : State) : Prop := Kept s.regs s.mem s.pending w0

variable {w0 : List Instr}

/-- An outcome's next state, if it has one, is in canonical form. -/
def OutKeeps (w0 : List Instr) (o : Host.Outcome State Fault Refusal) : Prop := ∀ t, o = .next t → Keeps w0 t

/-- A state that may be there is in canonical form. -/
def OptKeeps (w0 : List Instr) (o : Option State) : Prop := ∀ t, o = some t → Keeps w0 t

theorem inv_next {s : State} (h : Keeps w0 s) : OutKeeps w0 (.next s) := fun t e => by cases e; exact h

theorem inv_some {s : State} (h : Keeps w0 s) : OptKeeps w0 (some s) := fun t e => by cases e; exact h

theorem inv_none : OptKeeps w0 none := fun t e => by cases e

theorem inv_ite {c : Prop} [Decidable c] {a b : State} (ha : Keeps w0 a) (hb : Keeps w0 b) : Keeps w0 (if c then a else b) := by
  split <;> assumption

theorem inv_ite1 {α : Type} {c : Prop} [Decidable c] {a b : State × α} (ha : Keeps w0 a.1) (hb : Keeps w0 b.1) : Keeps w0 (if c then a else b).1 := by
  split <;> assumption

theorem inv_ite2 {α : Type} {c : Prop} [Decidable c] {a b : α × State} (ha : Keeps w0 a.2) (hb : Keeps w0 b.2) : Keeps w0 (if c then a else b).2 := by
  split <;> assumption

theorem inv_ite3 {α β : Type} {c : Prop} [Decidable c] {a b : α × β × State} (ha : Keeps w0 a.2.2) (hb : Keeps w0 b.2.2) : Keeps w0 (if c then a else b).2.2 := by
  split <;> assumption

theorem opt_ite {c : Prop} [Decidable c] {a b : Option State} (ha : OptKeeps w0 a) (hb : OptKeeps w0 b) : OptKeeps w0 (if c then a else b) := by
  split <;> assumption

theorem out_ite {c : Prop} [Decidable c] {a b : Host.Outcome State Fault Refusal} (ha : OutKeeps w0 a) (hb : OutKeeps w0 b) : OutKeeps w0 (if c then a else b) := by
  split <;> assumption

/-- A state bound on the way is shown first. -/
theorem inv_cut {Q : Prop} (x : State) (k : Keeps w0 x → Q) (hx : Keeps w0 x) : Q := k hx

theorem inv_snd {α : Type} {x : α} {s : State} (h : Keeps w0 s) : Keeps w0 (x, s).2 := h

theorem inv_pair {α : Type} {x : α × State} {f : α → State → State} (hx : Keeps w0 x.2) (k : ∀ a y, Keeps w0 y → Keeps w0 (f a y)) :
    Keeps w0 (match x with | (a, y) => f a y) := k x.1 x.2 hx

theorem inv_foldl {α : Type} {f : State → α → State} {l : List α} {s : State} (h : Keeps w0 s) (hf : ∀ s a, Keeps w0 s → Keeps w0 (f s a)) : Keeps w0 (l.foldl f s) := by
  induction l generalizing s with
  | nil => exact h
  | cons a r ih => exact ih (hf s a h)

end Sys2Proof.Machine
end

