-- ==== Sys2Proof/Laws/InvOps.lean ====
section
/-!
SUPPORT. Every operation of Machine/Ops.lean keeps the canonical form of registers and memory, and the queue of commands.
-/
namespace Sys2Proof.Machine

variable {w0 : List Instr}

theorem inv_setLink {s : State} (h : Keeps w0 s) (n l) : Keeps w0 (State.setLink s n l) := by
  unfold State.setLink
  with_reducible repeat' first | intro _ | assumption | extract_lets | apply inv_ite | apply inv_foldl | split | dsimp +zetaDelta only

theorem inv_addPiece {s : State} (h : Keeps w0 s) (piece) : Keeps w0 (State.addPiece s piece) := by
  unfold State.addPiece
  with_reducible repeat' first | intro _ | assumption | extract_lets | apply inv_setLink | apply inv_ite | apply inv_foldl | split | dsimp +zetaDelta only

theorem inv_setReg {s : State} (h : Keeps w0 s) (off v) : Keeps w0 (s.setReg off v) := ⟨twf_tset _ _ h.1, h.2⟩

theorem inv_bump {s : State} (h : Keeps w0 s) (off n) : Keeps w0 (State.bump s off n) := by
  unfold State.bump
  with_reducible repeat' first | intro _ | assumption | extract_lets | apply inv_setReg | apply inv_ite | apply inv_foldl | split | dsimp +zetaDelta only

theorem inv_setFlds {s : State} (h : Keeps w0 s) (off fs) : Keeps w0 (State.setFlds s off fs) := by
  unfold State.setFlds
  with_reducible repeat' first | intro _ | assumption | extract_lets | apply inv_setReg | apply inv_ite | apply inv_foldl | split | dsimp +zetaDelta only

theorem inv_showCapture {s : State} (h : Keeps w0 s) : Keeps w0 (State.showCapture s) := by
  unfold State.showCapture
  with_reducible repeat' first | intro _ | assumption | extract_lets | apply inv_setFlds | apply inv_setReg | apply inv_ite | apply inv_foldl | split | dsimp +zetaDelta only

theorem inv_releaseCapture {s : State} (h : Keeps w0 s) (c) : Keeps w0 (State.releaseCapture s c) := by
  unfold State.releaseCapture
  with_reducible repeat' first | intro _ | assumption | extract_lets | apply inv_bump | apply inv_showCapture | apply inv_ite | apply inv_foldl | split | dsimp +zetaDelta only

theorem inv_captureChunk {s : State} (h : Keeps w0 s) (c) : Keeps w0 (State.captureChunk s c) := by
  unfold State.captureChunk
  with_reducible repeat' first | intro _ | assumption | extract_lets | apply inv_bump | apply inv_releaseCapture | apply inv_ite | apply inv_foldl | split | dsimp +zetaDelta only

theorem inv_showMirror {s : State} (h : Keeps w0 s) : Keeps w0 (State.showMirror s) := by
  unfold State.showMirror
  with_reducible repeat' first | intro _ | assumption | extract_lets | apply inv_setFlds | apply inv_ite | apply inv_foldl | split | dsimp +zetaDelta only

theorem inv_releaseMirror {s : State} (h : Keeps w0 s) (c) : Keeps w0 (State.releaseMirror s c) := by
  unfold State.releaseMirror
  with_reducible repeat' first | intro _ | assumption | extract_lets | apply inv_bump | apply inv_ite | apply inv_foldl | split | dsimp +zetaDelta only

theorem inv_holdL {s : State} (h : Keeps w0 s) (w) : Keeps w0 (State.holdL s w) := by
  unfold State.holdL
  with_reducible repeat' first | intro _ | assumption | extract_lets | apply inv_ite | apply inv_foldl | split | dsimp +zetaDelta only

theorem inv_enqueueL {s : State} (h : Keeps w0 s) (n p piece) : Keeps w0 (State.enqueueL s n p piece) := by
  unfold State.enqueueL
  with_reducible repeat' first | intro _ | assumption | extract_lets | apply inv_setLink | apply inv_ite | apply inv_foldl | split | dsimp +zetaDelta only

theorem inv_enqueueD {s : State} (h : Keeps w0 s) (n k ds) : Keeps w0 (State.enqueueD s n k ds) := by
  unfold State.enqueueD
  with_reducible repeat' first | intro _ | assumption | extract_lets | apply inv_setLink | apply inv_ite | apply inv_foldl | split | dsimp +zetaDelta only

theorem inv_unpark {s : State} (h : Keeps w0 s) (w n c) : Keeps w0 (State.unpark s w n c) := by
  unfold State.unpark
  with_reducible repeat' first | intro _ | assumption | extract_lets | apply inv_setLink | apply inv_enqueueD | apply inv_ite | apply inv_foldl | split | dsimp +zetaDelta only

theorem inv_openWith {s : State} (h : Keeps w0 s) (n c w) : Keeps w0 (State.openWith s n c w) := by
  unfold State.openWith
  with_reducible repeat' first | intro _ | assumption | extract_lets | apply inv_enqueueL | apply inv_setLink | apply inv_unpark | apply inv_enqueueD | apply inv_ite | apply inv_foldl | split | dsimp +zetaDelta only

theorem inv_openOnLink {s : State} (h : Keeps w0 s) (n w) : Keeps w0 (State.openOnLink s n w) := by
  unfold State.openOnLink
  with_reducible repeat' first | intro _ | assumption | extract_lets | apply inv_openWith | apply inv_setLink | apply inv_ite | apply inv_foldl | split | dsimp +zetaDelta only

theorem inv_sendW {s : State} (h : Keeps w0 s) (w) : Keeps w0 (State.sendW s w) := by
  unfold State.sendW
  with_reducible repeat' first | intro _ | assumption | extract_lets | apply inv_holdL | apply inv_openOnLink | apply inv_enqueueL | apply inv_ite | apply inv_foldl | split | dsimp +zetaDelta only

theorem inv_sendLD {s : State} (h : Keeps w0 s) (p bs half) : Keeps w0 (State.sendLD s p bs half) := by
  unfold State.sendLD
  with_reducible repeat' first | intro _ | assumption | extract_lets | apply inv_sendW | apply inv_ite | apply inv_foldl | split | dsimp +zetaDelta only

theorem inv_openStream {s : State} (h : Keeps w0 s) (dest addr kind collId owner lclass table half bs) : Keeps w0 (State.openStream s dest addr kind collId owner lclass table half bs) := by
  unfold State.openStream
  with_reducible repeat' first | intro _ | assumption | extract_lets | apply inv_sendLD | apply inv_ite | apply inv_foldl | split | dsimp +zetaDelta only

theorem inv_sendChunk {s : State} (h : Keeps w0 s) (n c) : Keeps w0 (State.sendChunk s n c) := by
  unfold State.sendChunk
  with_reducible repeat' first | intro _ | assumption | extract_lets | apply inv_bump | apply inv_openStream | apply inv_ite | apply inv_foldl | split | dsimp +zetaDelta only

theorem inv_copyClosing {s : State} (h : Keeps w0 s) (c) : Keeps w0 (State.copyClosing s c) := by
  unfold State.copyClosing
  with_reducible repeat' first | intro _ | assumption | extract_lets | apply inv_showMirror | apply inv_releaseMirror | apply inv_sendChunk | apply inv_ite | apply inv_foldl | split | dsimp +zetaDelta only

theorem inv_readFirst {s : State} (h : Keeps w0 s) (a n) : Keeps w0 (State.readFirst s a n) := by
  unfold State.readFirst
  with_reducible repeat' first | intro _ | assumption | extract_lets | apply inv_copyClosing | apply inv_captureChunk | apply inv_ite | apply inv_foldl | split | dsimp +zetaDelta only

theorem inv_store {s : State} (h : Keeps w0 s) (a bs) : Keeps w0 (s.store a bs) :=
  have k := inv_readFirst h a bs.length
  ⟨k.1, Memory.wf_writeBytes _ _ k.2.1, k.2.2⟩

theorem inv_storeLE {s : State} (h : Keeps w0 s) (a n v) : Keeps w0 (State.storeLE s a n v) := by
  unfold State.storeLE
  with_reducible repeat' first | intro _ | assumption | extract_lets | apply inv_store | apply inv_ite | apply inv_foldl | split | dsimp +zetaDelta only

theorem inv_setFld {s : State} (h : Keeps w0 s) (off f x) : Keeps w0 (State.setFld s off f x) := by
  unfold State.setFld
  with_reducible repeat' first | intro _ | assumption | extract_lets | apply inv_setReg | apply inv_ite | apply inv_foldl | split | dsimp +zetaDelta only

theorem inv_setQueue {s : State} (h : Keeps w0 s) (q x) : Keeps w0 (State.setQueue s q x) := by
  unfold State.setQueue
  with_reducible repeat' first | intro _ | assumption | extract_lets | apply inv_ite | apply inv_foldl | split | dsimp +zetaDelta only

theorem inv_vector {s : State} (h : Keeps w0 s) (v) : Keeps w0 (State.vector s v) := by
  unfold State.vector
  with_reducible repeat' first | intro _ | assumption | extract_lets | apply inv_ite | apply inv_foldl | split | dsimp +zetaDelta only

theorem inv_signalQueue {s : State} (h : Keeps w0 s) (q) : Keeps w0 (State.signalQueue s q) := by
  unfold State.signalQueue
  with_reducible repeat' first | intro _ | assumption | extract_lets | apply inv_setQueue | apply inv_vector | apply inv_ite | apply inv_foldl | split | dsimp +zetaDelta only

theorem inv_cqWrite {s : State} (h : Keeps w0 s) (q e) : Keeps w0 (State.cqWrite s q e) := by
  unfold State.cqWrite
  with_reducible repeat' first | intro _ | assumption | extract_lets | apply inv_storeLE | apply inv_setFld | apply inv_setQueue | apply inv_signalQueue | apply inv_ite | apply inv_foldl | split | dsimp +zetaDelta only

theorem inv_cqPost {s : State} (h : Keeps w0 s) (q e) : Keeps w0 (State.cqPost s q e) := by
  unfold State.cqPost
  with_reducible repeat' first | intro _ | assumption | extract_lets | apply inv_bump | apply inv_cqWrite | apply inv_setQueue | apply inv_ite | apply inv_foldl | split | dsimp +zetaDelta only

theorem inv_setCmd {s : State} (h : Keeps w0 s) (c) : Keeps w0 (State.setCmd s c) := by
  unfold State.setCmd
  with_reducible repeat' first | intro _ | assumption | extract_lets | apply inv_ite | apply inv_foldl | split | dsimp +zetaDelta only

theorem inv_jUpdate {s : State} (h : Keeps w0 s) (dseq f) : Keeps w0 (State.jUpdate s dseq f) := by
  unfold State.jUpdate
  with_reducible repeat' first | intro _ | assumption | extract_lets | apply inv_ite | apply inv_foldl | split | dsimp +zetaDelta only

theorem inv_sendL {s : State} (h : Keeps w0 s) (p half) : Keeps w0 (State.sendL s p half) := by
  unfold State.sendL
  with_reducible repeat' first | intro _ | assumption | extract_lets | apply inv_sendLD | apply inv_ite | apply inv_foldl | split | dsimp +zetaDelta only

theorem inv_replyTo {s : State} (h : Keeps w0 s) (pos q fwd e) : Keeps w0 (State.replyTo s pos q fwd e) := by
  unfold State.replyTo
  with_reducible repeat' first | intro _ | assumption | extract_lets | apply inv_cqPost | apply inv_sendL | apply inv_ite | apply inv_foldl | split | dsimp +zetaDelta only

theorem inv_postCmd {s : State} (h : Keeps w0 s) (c e) : Keeps w0 (State.postCmd s c e) := by
  unfold State.postCmd
  with_reducible repeat' first | intro _ | assumption | extract_lets | apply inv_replyTo | apply inv_ite | apply inv_foldl | split | dsimp +zetaDelta only

theorem inv_delayCmd {s : State} (h : Keeps w0 s) (c why est) : Keeps w0 (State.delayCmd s c why est) := by
  unfold State.delayCmd
  with_reducible repeat' first | intro _ | assumption | extract_lets | apply inv_setCmd | apply inv_jUpdate | apply inv_bump | apply inv_postCmd | apply inv_ite | apply inv_foldl | split | dsimp +zetaDelta only

theorem inv_postModule {s : State} (h : Keeps w0 s) (e) : Keeps w0 (State.postModule s e) := by
  unfold State.postModule
  with_reducible repeat' first | intro _ | assumption | extract_lets | apply inv_bump | apply inv_cqPost | apply inv_sendL | apply inv_ite | apply inv_foldl | split | dsimp +zetaDelta only

theorem inv_event {s : State} (h : Keeps w0 s) (ev kind idx d dst) : Keeps w0 (State.event s ev kind idx d dst) := by
  unfold State.event
  with_reducible repeat' first | intro _ | assumption | extract_lets | apply inv_replyTo | apply inv_postModule | apply inv_ite | apply inv_foldl | split | dsimp +zetaDelta only

theorem inv_showSlots {s : State} (h : Keeps w0 s) : Keeps w0 (State.showSlots s) := by
  unfold State.showSlots
  with_reducible repeat' first | intro _ | assumption | extract_lets | apply inv_setFlds | apply inv_ite | apply inv_foldl | split | dsimp +zetaDelta only

theorem inv_regrant {s : State} (h : Keeps w0 s) : Keeps w0 (State.regrant s) := by
  unfold State.regrant
  with_reducible repeat' first | intro _ | assumption | extract_lets | apply inv_showSlots | apply inv_setCmd | apply inv_ite | apply inv_foldl | split | dsimp +zetaDelta only

theorem inv_expireCmd {s : State} (h : Keeps w0 s) (id st) : Keeps w0 (State.expireCmd s id st) := by
  unfold State.expireCmd
  with_reducible repeat' first | intro _ | assumption | extract_lets | apply inv_jUpdate | apply inv_postCmd | apply inv_regrant | apply inv_ite | apply inv_foldl | split | dsimp +zetaDelta only

theorem inv_finishCmd {s : State} (h : Keeps w0 s) (id st r) : Keeps w0 (State.finishCmd s id st r) := by
  unfold State.finishCmd
  with_reducible repeat' first | intro _ | assumption | extract_lets | apply inv_jUpdate | apply inv_postCmd | apply inv_regrant | apply inv_ite | apply inv_foldl | split | dsimp +zetaDelta only

theorem inv_flood {s : State} (h : Keeps w0 s) (id b) : Keeps w0 (State.flood s id b) := by
  unfold State.flood
  with_reducible repeat' first | intro _ | assumption | extract_lets | apply inv_enqueueL | apply inv_ite | apply inv_foldl | split | dsimp +zetaDelta only

theorem inv_fresh {s : State} (h : Keeps w0 s) : Keeps w0 (State.fresh s).2 := by
  unfold State.fresh
  with_reducible repeat' first | intro _ | assumption | extract_lets  | apply inv_ite2 | apply inv_ite | apply inv_foldl | split | dsimp +zetaDelta only

theorem inv_jPut {s : State} (h : Keeps w0 s) (f) : Keeps w0 (State.jPut s f) := by
  unfold State.jPut
  with_reducible repeat' first | intro _ | assumption | extract_lets | apply inv_bump | apply inv_setReg | apply inv_ite | apply inv_foldl | split | dsimp +zetaDelta only

theorem inv_carryOpen {s : State} (h : Keeps w0 s) (n) : Keeps w0 (carryOpen n s) := by
  induction n generalizing s with
  | zero => exact h
  | succ n ih =>
    unfold carryOpen
    with_reducible repeat' first | assumption | apply ih | apply inv_bump | apply inv_jPut | apply inv_ite | split

theorem inv_jAppend {s : State} (h : Keeps w0 s) (f) : Keeps w0 (State.jAppend s f) := by
  unfold State.jAppend
  with_reducible repeat' first | intro _ | assumption | extract_lets | apply inv_jPut | apply inv_carryOpen | apply inv_ite | apply inv_foldl | split | dsimp +zetaDelta only

theorem inv_newStopId {s : State} (h : Keeps w0 s) : Keeps w0 (State.newStopId s).2 := by
  unfold State.newStopId
  with_reducible repeat' first | intro _ | assumption | extract_lets  | apply inv_ite2 | apply inv_ite | apply inv_foldl | split | dsimp +zetaDelta only

theorem inv_putRecord {s : State} (h : Keeps w0 s) (cause cls skind sindex rung d0 d1 dseq flags stopId) : Keeps w0 (State.putRecord s cause cls skind sindex rung d0 d1 dseq flags stopId) := by
  unfold State.putRecord
  with_reducible repeat' first | intro _ | assumption | extract_lets | apply inv_bump | apply inv_setReg | apply inv_setFld | apply inv_event | apply inv_vector | apply inv_ite | apply inv_foldl | split | dsimp +zetaDelta only

theorem inv_note {s : State} (h : Keeps w0 s) (cause cls skind sindex d0 d1 dseq) : Keeps w0 (State.note s cause cls skind sindex d0 d1 dseq) := by
  unfold State.note
  with_reducible repeat' first | intro _ | assumption | extract_lets | apply inv_putRecord | apply inv_ite | apply inv_foldl | split | dsimp +zetaDelta only

theorem inv_pieceGone {s : State} (h : Keeps w0 s) (piece) : Keeps w0 (State.pieceGone s piece) := by
  unfold State.pieceGone
  with_reducible repeat' first | intro _ | assumption | extract_lets | apply inv_setLink | apply inv_ite | apply inv_foldl | split | dsimp +zetaDelta only

theorem inv_postLost {s : State} (h : Keeps w0 s) (q) : Keeps w0 (State.postLost s q) := by
  unfold State.postLost
  with_reducible repeat' first | intro _ | assumption | extract_lets | apply inv_event | apply inv_setQueue | apply inv_ite | apply inv_foldl | split | dsimp +zetaDelta only

theorem inv_pushReinit {s : State} (h : Keeps w0 s) (kind index cmd was) : Keeps w0 (State.pushReinit s kind index cmd was) := by
  unfold State.pushReinit
  with_reducible repeat' first | intro _ | assumption | extract_lets | apply inv_ite | apply inv_foldl | split | dsimp +zetaDelta only

theorem inv_record {s : State} (h : Keeps w0 s) (off valid more fs) : Keeps w0 (State.record s off valid more fs) := by
  unfold State.record
  with_reducible repeat' first | intro _ | assumption | extract_lets | apply inv_setFld | apply inv_setReg | apply inv_ite | apply inv_foldl | split | dsimp +zetaDelta only

theorem inv_releaseHeld {s : State} (h : Keeps w0 s) : Keeps w0 (State.releaseHeld s) := by
  unfold State.releaseHeld
  with_reducible repeat' first | intro _ | assumption | extract_lets | apply inv_sendW | apply inv_ite | apply inv_foldl | split | dsimp +zetaDelta only

theorem inv_startCmd {s : State} (h : Keeps w0 s) (c r0) : Keeps w0 (State.startCmd s c r0) := by
  unfold State.startCmd
  with_reducible repeat' first | intro _ | assumption | extract_lets | apply inv_jUpdate | apply inv_setCmd | apply inv_postCmd | apply inv_ite | apply inv_foldl | split | dsimp +zetaDelta only

theorem inv_drainQueue {s : State} (h : Keeps w0 s) (n q) : Keeps w0 (drainQueue n q s) := by
  induction n generalizing s with
  | zero => exact h
  | succ n ih =>
    unfold drainQueue
    with_reducible repeat' first | assumption | apply ih | apply inv_cqWrite | apply inv_setQueue | apply inv_ite | split

end Sys2Proof.Machine
end

