-- ==== Sys2Proof/Laws/InvCanal.lean ====
section
/-!
SUPPORT. Every operation of Machine/Canal.lean keeps the canonical form of registers and memory, and the queue of commands.
-/
namespace Sys2Proof.Machine

variable {w0 : List Instr}

theorem inv_freeFlits {s : State} (h : Keeps w0 s) (site port tc n) : Keeps w0 (State.freeFlits s site port tc n) := by
  unfold State.freeFlits
  with_reducible repeat' first | intro _ | assumption | extract_lets | apply inv_ite | apply inv_foldl | split | dsimp +zetaDelta only

theorem inv_setInq {s : State} (h : Keeps w0 s) (site port tc l) : Keeps w0 (State.setInq s site port tc l) := by
  unfold State.setInq
  with_reducible repeat' first | intro _ | assumption | extract_lets | apply inv_ite | apply inv_foldl | split | dsimp +zetaDelta only

theorem inv_setDeficit {s : State} (h : Keeps w0 s) (site out tc v) : Keeps w0 (State.setDeficit s site out tc v) := by
  unfold State.setDeficit
  with_reducible repeat' first | intro _ | assumption | extract_lets | apply inv_ite | apply inv_foldl | split | dsimp +zetaDelta only

theorem inv_afterSend {s : State} (h : Keeps w0 s) (site out i p) : Keeps w0 (State.afterSend s site out i p) := by
  unfold State.afterSend
  with_reducible repeat' first | intro _ | assumption | extract_lets | apply inv_freeFlits | apply inv_setInq | apply inv_setDeficit | apply inv_ite | apply inv_foldl | split | dsimp +zetaDelta only

theorem inv_beginRound {s : State} (h : Keeps w0 s) (site out) : Keeps w0 (State.beginRound s site out) := by
  unfold State.beginRound
  with_reducible repeat' first | intro _ | assumption | extract_lets | apply inv_ite | apply inv_foldl | split | dsimp +zetaDelta only

theorem inv_handOver {s : State} (h : Keeps w0 s) (h' p) : Keeps w0 (State.handOver s h' p) := by
  unfold State.handOver
  with_reducible repeat' first | intro _ | assumption | extract_lets | apply inv_setInq | apply inv_ite | apply inv_foldl | split | dsimp +zetaDelta only

theorem inv_setRecv {s : State} (h : Keeps w0 s) (k l) : Keeps w0 (State.setRecv s k l) := by
  unfold State.setRecv
  with_reducible repeat' first | intro _ | assumption | extract_lets | apply inv_ite | apply inv_foldl | split | dsimp +zetaDelta only

theorem inv_drainRecv {s : State} (h : Keeps w0 s) (k n) : Keeps w0 (drainRecv k n s) := by
  induction n generalizing s with
  | zero => exact h
  | succ n ih =>
    unfold drainRecv
    dsimp only
    split
    · exact ih (inv_handOver (inv_setRecv h ..) ..)
    · exact h

theorem inv_drainChannel {s : State} (h : Keeps w0 s) (k) : Keeps w0 (State.drainChannel s k) := by
  unfold State.drainChannel
  with_reducible repeat' first | intro _ | assumption | extract_lets | apply inv_drainRecv | apply inv_ite | apply inv_foldl | split | dsimp +zetaDelta only

theorem inv_enterLock {s : State} (h : Keeps w0 s) (site port p) : Keeps w0 (State.enterLock s site port p) := by
  unfold State.enterLock
  with_reducible repeat' first | intro _ | assumption | extract_lets | apply inv_setInq | apply inv_bump | apply inv_ite | apply inv_foldl | split | dsimp +zetaDelta only

theorem inv_setOutbox {s : State} (h : Keeps w0 s) (k l) : Keeps w0 (State.setOutbox s k l) := by
  unfold State.setOutbox
  with_reducible repeat' first | intro _ | assumption | extract_lets | apply inv_ite | apply inv_foldl | split | dsimp +zetaDelta only

theorem inv_injectAt {s : State} (h : Keeps w0 s) (site port p) : Keeps w0 (State.injectAt s site port p) := by
  unfold State.injectAt
  with_reducible repeat' first | intro _ | assumption | extract_lets | apply inv_enterLock | apply inv_setOutbox | apply inv_ite | apply inv_foldl | split | dsimp +zetaDelta only

theorem inv_inject {s : State} (h : Keeps w0 s) (p) : Keeps w0 (State.inject s p) := by
  unfold State.inject
  with_reducible repeat' first | intro _ | assumption | extract_lets | apply inv_injectAt | apply inv_ite | apply inv_foldl | split | dsimp +zetaDelta only

theorem inv_setReplays {s : State} (h : Keeps w0 s) (k l) : Keeps w0 (State.setReplays s k l) := by
  unfold State.setReplays
  with_reducible repeat' first | intro _ | assumption | extract_lets | apply inv_ite | apply inv_foldl | split | dsimp +zetaDelta only

theorem inv_takeArrived {s : State} (h : Keeps w0 s) (p) : Keeps w0 (State.takeArrived s p) := by
  unfold State.takeArrived
  with_reducible repeat' first | intro _ | assumption | extract_lets | apply inv_freeFlits | apply inv_ite | apply inv_foldl | split | dsimp +zetaDelta only

theorem inv_enterHeld {s : State} (h : Keeps w0 s) (site port tc n) : Keeps w0 (enterHeld site port tc n s) := by
  induction n generalizing s with
  | zero => exact h
  | succ n ih =>
    unfold enterHeld
    with_reducible repeat' first | assumption | apply ih | apply inv_enterLock | apply inv_setOutbox | apply inv_ite | split

theorem inv_execCreditReturn {s : State} (h : Keeps w0 s) (site port tc) : OutKeeps w0 (execCreditReturn site port tc s) := by
  unfold execCreditReturn
  with_reducible repeat' first | intro _ | assumption | extract_lets | apply inv_enterHeld | apply inv_drainChannel | apply out_ite | apply inv_next | apply inv_ite | apply inv_foldl | split | dsimp +zetaDelta only

theorem inv_serveOutput {s : State} (h : Keeps w0 s) (n site out) : Keeps w0 (serveOutput n site out s).1 := by
  induction n generalizing s with
  | zero => exact h
  | succ n ih =>
    unfold serveOutput
    extract_lets +onlyGivenNames key s0 v tc pass
    have h0 : Keeps w0 s0 := inv_beginRound h ..
    have hp : ∀ s : State, Keeps w0 s → Keeps w0 (pass s).1 := fun s h => ih (s := { s with canal := _ }) h
    clear_value pass s0
    split
    · exact hp _ (inv_setDeficit h0 ..)
    · extract_lets +onlyGivenNames d cc s1 hop
      have h1 : Keeps w0 s1 := h0
      clear_value s1
      refine inv_ite1 (hp _ (inv_bump (inv_setDeficit h1 ..) ..)) (inv_ite1 (hp _ (inv_setDeficit h1 ..)) ?_)
      extract_lets +onlyGivenNames cc s2
      have h2 : Keeps w0 s2 := h1
      clear_value s2
      exact inv_handOver (inv_setDeficit h2 ..) ..

end Sys2Proof.Machine
end

