-- ==== Sys2Proof/Laws/InvSpireCore.lean ====
section
/-!
SUPPORT. Every operation of Machine/SpireCore.lean keeps the canonical form of registers and memory, and the queue of commands.
-/
namespace Sys2Proof.Machine

variable {w0 : List Instr}

theorem inv_setSpire {s : State} (h : Keeps w0 s) (site p) : Keeps w0 (State.setSpire s site p) := by
  unfold State.setSpire
  with_reducible repeat' first | intro _ | assumption | extract_lets | apply inv_ite | apply inv_foldl | split | dsimp +zetaDelta only

theorem inv_modSpire {s : State} (h : Keeps w0 s) (site f) : Keeps w0 (State.modSpire s site f) := by
  unfold State.modSpire
  with_reducible repeat' first | intro _ | assumption | extract_lets | apply inv_setSpire | apply inv_ite | apply inv_foldl | split | dsimp +zetaDelta only

theorem inv_abandonMover {s : State} (h : Keeps w0 s) (site fromSeq) : Keeps w0 (State.abandonMover s site fromSeq).2 := by
  unfold State.abandonMover
  with_reducible repeat' first | intro _ | assumption | extract_lets | apply inv_modSpire | apply inv_ite2 | apply inv_ite | apply inv_foldl | split | dsimp +zetaDelta only

theorem inv_faultRecord {s : State} (h : Keeps w0 s) (site cls eng row qpos addr restartable iter) : Keeps w0 (State.faultRecord s site cls eng row qpos addr restartable iter) := by
  unfold State.faultRecord
  with_reducible repeat' first | intro _ | assumption | extract_lets | apply inv_setFld | apply inv_modSpire | apply inv_setReg | apply inv_setFlds | apply inv_ite | apply inv_foldl | split | dsimp +zetaDelta only

theorem inv_setTask {s : State} (h : Keeps w0 s) (t) : Keeps w0 (State.setTask s t) := by
  unfold State.setTask
  with_reducible repeat' first | intro _ | assumption | extract_lets | apply inv_ite | apply inv_foldl | split | dsimp +zetaDelta only

theorem inv_taskFault {s : State} (h : Keeps w0 s) (site cls eng) : Keeps w0 (State.taskFault s site cls eng) := by
  unfold State.taskFault
  with_reducible repeat' first | intro _ | assumption | extract_lets | apply inv_setTask | apply inv_ite | apply inv_foldl | split | dsimp +zetaDelta only

theorem inv_setSpState {s : State} (h : Keeps w0 s) (site v) : Keeps w0 (State.setSpState s site v) := by
  unfold State.setSpState
  with_reducible repeat' first | intro _ | assumption | extract_lets | apply inv_setFld | apply inv_ite | apply inv_foldl | split | dsimp +zetaDelta only

theorem inv_countHeld {s : State} (h : Keeps w0 s) (site w n) : Keeps w0 (State.countHeld s site w n) := by
  unfold State.countHeld
  with_reducible repeat' first | intro _ | assumption | extract_lets | apply inv_bump | apply inv_ite | apply inv_foldl | split | dsimp +zetaDelta only

theorem inv_stopEng {s : State} (h : Keeps w0 s) (site e) : Keeps w0 (State.stopEng s site e) := by
  unfold State.stopEng
  with_reducible repeat' first | intro _ | assumption | extract_lets | apply inv_countHeld | apply inv_modSpire | apply inv_ite | apply inv_foldl | split | dsimp +zetaDelta only

theorem inv_stopEngines {s : State} (h : Keeps w0 s) (site) : Keeps w0 (State.stopEngines s site) := by
  unfold State.stopEngines
  with_reducible repeat' first | intro _ | assumption | extract_lets | apply inv_modSpire | apply inv_stopEng | apply inv_ite | apply inv_foldl | split | dsimp +zetaDelta only

theorem inv_abortSpire {s : State} (h : Keeps w0 s) (site cls) : Keeps w0 (State.abortSpire s site cls) := by
  unfold State.abortSpire
  with_reducible repeat' first | intro _ | assumption | extract_lets | apply inv_abandonMover | apply inv_bump | apply inv_faultRecord | apply inv_taskFault | apply inv_setSpState | apply inv_stopEngines | apply inv_ite | apply inv_foldl | split | dsimp +zetaDelta only

theorem inv_modRegs {s : State} (h : Keeps w0 s) (site f) : Keeps w0 (State.modRegs s site f) := by
  unfold State.modRegs
  with_reducible repeat' first | intro _ | assumption | extract_lets | apply inv_modSpire | apply inv_ite | apply inv_foldl | split | dsimp +zetaDelta only

theorem inv_applyWr {s : State} (h : Keeps w0 s) (site w) : Keeps w0 (State.applyWr s site w) := by
  unfold State.applyWr
  with_reducible repeat' first | intro _ | assumption | extract_lets | apply inv_modRegs | apply inv_setReg | apply inv_store | apply inv_ite | apply inv_foldl | split | dsimp +zetaDelta only

theorem inv_applyWrs {s : State} (h : Keeps w0 s) (site ws) : Keeps w0 (State.applyWrs s site ws) := by
  unfold State.applyWrs
  with_reducible repeat' first | intro _ | assumption | extract_lets | apply inv_applyWr | apply inv_ite | apply inv_foldl | split | dsimp +zetaDelta only

theorem inv_orFlags {s : State} (h : Keeps w0 s) (site f) : Keeps w0 (State.orFlags s site f) := by
  unfold State.orFlags
  with_reducible repeat' first | intro _ | assumption | extract_lets | apply inv_setReg | apply inv_ite | apply inv_foldl | split | dsimp +zetaDelta only

theorem inv_setCell {s : State} (h : Keeps w0 s) (site c w) : Keeps w0 (State.setCell s site c w) := by
  unfold State.setCell
  with_reducible repeat' first | intro _ | assumption | extract_lets | apply inv_setReg | apply inv_ite | apply inv_foldl | split | dsimp +zetaDelta only

end Sys2Proof.Machine
end

