-- ==== Sys2Proof/Laws/InvMemPath.lean ====
section
/-!
SUPPORT. Every operation of Machine/MemPath.lean keeps the canonical form of registers and memory, and the queue of commands.
-/
namespace Sys2Proof.Machine

variable {w0 : List Instr}

theorem inv_commitQuarters {s : State} (h : Keeps w0 s) (qs) : Keeps w0 (State.commitQuarters s qs) := by
  unfold State.commitQuarters
  with_reducible repeat' first | intro _ | assumption | extract_lets | apply inv_store | apply inv_ite | apply inv_foldl | split | dsimp +zetaDelta only

theorem inv_setEpoch {s : State} (h : Keeps w0 s) (k e) : Keeps w0 (State.setEpoch s k e) := by
  unfold State.setEpoch
  with_reducible repeat' first | intro _ | assumption | extract_lets | apply inv_ite | apply inv_foldl | split | dsimp +zetaDelta only

theorem inv_holdWrite {s : State} (h : Keeps w0 s) (k a spill qs) : Keeps w0 (State.holdWrite s k a spill qs) := by
  unfold State.holdWrite
  with_reducible repeat' first | intro _ | assumption | extract_lets | apply inv_bump | apply inv_setEpoch | apply inv_ite | apply inv_foldl | split | dsimp +zetaDelta only

theorem inv_setEpState {s : State} (h : Keeps w0 s) (k v) : Keeps w0 (State.setEpState s k v) := by
  unfold State.setEpState
  with_reducible repeat' first | intro _ | assumption | extract_lets | apply inv_setFld | apply inv_ite | apply inv_foldl | split | dsimp +zetaDelta only

end Sys2Proof.Machine
end

