-- ==== Sys2Proof/Laws/InvHcpQueues.lean ====
section
/-!
SUPPORT. Every operation of Machine/HcpQueues.lean keeps the canonical form of registers and memory, and the queue of commands.
-/
namespace Sys2Proof.Machine

variable {w0 : List Instr}

theorem inv_showQueue {s : State} (h : Keeps w0 s) (q) : Keeps w0 (State.showQueue s q) := by
  unfold State.showQueue
  with_reducible repeat' first | intro _ | assumption | extract_lets | apply inv_setFlds | apply inv_ite | apply inv_foldl | split | dsimp +zetaDelta only

theorem inv_cqDisable {s : State} (h : Keeps w0 s) (q) : Keeps w0 (State.cqDisable s q) := by
  unfold State.cqDisable
  with_reducible repeat' first | intro _ | assumption | extract_lets | apply inv_setFld | apply inv_showQueue | apply inv_setQueue | apply inv_bump | apply inv_ite | apply inv_foldl | split | dsimp +zetaDelta only

theorem inv_cqDoorbell {s : State} (h : Keeps w0 s) (q v) : Keeps w0 (State.cqDoorbell s q v) := by
  unfold State.cqDoorbell
  with_reducible repeat' first | intro _ | assumption | extract_lets | apply inv_setQueue | apply inv_postLost | apply inv_drainQueue | apply inv_showQueue | apply inv_setFld | apply inv_ite | apply inv_foldl | split | dsimp +zetaDelta only

theorem inv_cqEnable {s : State} (h : Keeps w0 s) (q) : Keeps w0 (State.cqEnable s q) := by
  unfold State.cqEnable
  with_reducible repeat' first | intro _ | assumption | extract_lets | apply inv_setFld | apply inv_showQueue | apply inv_setQueue | apply inv_ite | apply inv_foldl | split | dsimp +zetaDelta only

theorem inv_h0Reset {s : State} (h : Keeps w0 s) : Keeps w0 (State.h0Reset s) := by
  unfold State.h0Reset
  with_reducible repeat' first | intro _ | assumption | extract_lets | apply inv_cqDisable | apply inv_setFld | apply inv_setReg | apply inv_ite | apply inv_foldl | split | dsimp +zetaDelta only

theorem inv_sqDoorbell {s : State} (h : Keeps w0 s) (q v) : Keeps w0 (State.sqDoorbell s q v) := by
  unfold State.sqDoorbell
  with_reducible repeat' first | intro _ | assumption | extract_lets | apply inv_setQueue | apply inv_setFld | apply inv_ite | apply inv_foldl | split | dsimp +zetaDelta only

theorem inv_sqEnable {s : State} (h : Keeps w0 s) (q) : Keeps w0 (State.sqEnable s q) := by
  unfold State.sqEnable
  with_reducible repeat' first | intro _ | assumption | extract_lets | apply inv_setFld | apply inv_setQueue | apply inv_ite | apply inv_foldl | split | dsimp +zetaDelta only

theorem inv_execCqDisable {s : State} (h : Keeps w0 s) (q) : OutKeeps w0 (execCqDisable q s) := by
  unfold execCqDisable
  with_reducible repeat' first | intro _ | assumption | extract_lets | apply inv_cqDisable | apply out_ite | apply inv_next | apply inv_ite | apply inv_foldl | split | dsimp +zetaDelta only

theorem inv_execCqEnable {s : State} (h : Keeps w0 s) (q) : OutKeeps w0 (execCqEnable q s) := by
  unfold execCqEnable
  with_reducible repeat' first | intro _ | assumption | extract_lets | apply inv_cqEnable | apply out_ite | apply inv_next | apply inv_ite | apply inv_foldl | split | dsimp +zetaDelta only

theorem inv_execCqHeadDoorbell {s : State} (h : Keeps w0 s) (q v) : OutKeeps w0 (execCqHeadDoorbell q v s) := by
  unfold execCqHeadDoorbell
  with_reducible repeat' first | intro _ | assumption | extract_lets | apply inv_cqDoorbell | apply out_ite | apply inv_next | apply inv_ite | apply inv_foldl | split | dsimp +zetaDelta only

theorem inv_execFunctionLevelReset {s : State} (h : Keeps w0 s) : OutKeeps w0 (execFunctionLevelReset s) := by
  unfold execFunctionLevelReset
  with_reducible repeat' first | intro _ | assumption | extract_lets | apply inv_h0Reset | apply out_ite | apply inv_next | apply inv_ite | apply inv_foldl | split | dsimp +zetaDelta only

theorem inv_execMsixCoalesceTimeout {s : State} (h : Keeps w0 s) (q) : OutKeeps w0 (execMsixCoalesceTimeout q s) := by
  unfold execMsixCoalesceTimeout
  with_reducible repeat' first | intro _ | assumption | extract_lets | apply inv_signalQueue | apply out_ite | apply inv_next | apply inv_ite | apply inv_foldl | split | dsimp +zetaDelta only

theorem inv_execSqDisable {s : State} (h : Keeps w0 s) (q) : OutKeeps w0 (execSqDisable q s) := by
  unfold execSqDisable
  with_reducible repeat' first | intro _ | assumption | extract_lets | apply inv_setFld | apply out_ite | apply inv_next | apply inv_ite | apply inv_foldl | split | dsimp +zetaDelta only

theorem inv_execSqEnable {s : State} (h : Keeps w0 s) (q) : OutKeeps w0 (execSqEnable q s) := by
  unfold execSqEnable
  with_reducible repeat' first | intro _ | assumption | extract_lets | apply inv_sqEnable | apply out_ite | apply inv_next | apply inv_ite | apply inv_foldl | split | dsimp +zetaDelta only

theorem inv_execSqTailDoorbell {s : State} (h : Keeps w0 s) (q v) : OutKeeps w0 (execSqTailDoorbell q v s) := by
  unfold execSqTailDoorbell
  with_reducible repeat' first | intro _ | assumption | extract_lets | apply inv_sqDoorbell | apply out_ite | apply inv_next | apply inv_ite | apply inv_foldl | split | dsimp +zetaDelta only

end Sys2Proof.Machine
end

