-- ==== Sys2Proof/Laws/InvMailboxes.lean ====
section
/-!
SUPPORT. Every operation of Machine/Mailboxes.lean keeps the canonical form of registers and memory, and the queue of commands.
-/
namespace Sys2Proof.Machine

variable {w0 : List Instr}

theorem inv_copyRing {s : State} (h : Keeps w0 s) (idx) : Keeps w0 (State.copyRing s idx) := by
  unfold State.copyRing
  with_reducible repeat' first | intro _ | assumption | extract_lets | apply inv_store | apply inv_ite | apply inv_foldl | split | dsimp +zetaDelta only

theorem inv_journalRestart {s : State} (h : Keeps w0 s) (cause resetCmd) : Keeps w0 (State.journalRestart s cause resetCmd) := by
  unfold State.journalRestart
  with_reducible repeat' first | intro _ | assumption | extract_lets | apply inv_jAppend | apply inv_setFld | apply inv_vector | apply inv_ite | apply inv_foldl | split | dsimp +zetaDelta only

theorem inv_setChan {s : State} (h : Keeps w0 s) (c x) : Keeps w0 (State.setChan s c x) := by
  unfold State.setChan
  with_reducible repeat' first | intro _ | assumption | extract_lets | apply inv_setFlds | apply inv_ite | apply inv_foldl | split | dsimp +zetaDelta only

theorem inv_partnerSend {s : State} (h : Keeps w0 s) (c x) : Keeps w0 (State.partnerSend s c x) := by
  unfold State.partnerSend
  with_reducible repeat' first | intro _ | assumption | extract_lets | apply inv_openStream | apply inv_ite | apply inv_foldl | split | dsimp +zetaDelta only

theorem inv_notifyAgent {s : State} (h : Keeps w0 s) (a) : Keeps w0 (State.notifyAgent s a) := by
  unfold State.notifyAgent
  with_reducible repeat' first | intro _ | assumption | extract_lets | apply inv_vector | apply inv_ite | apply inv_foldl | split | dsimp +zetaDelta only

theorem inv_mailboxReceive {s : State} (h : Keeps w0 s) (agent c) : Keeps w0 (State.mailboxReceive s agent c) := by
  unfold State.mailboxReceive
  with_reducible repeat' first | intro _ | assumption | extract_lets | apply inv_setChan | apply inv_partnerSend | apply inv_notifyAgent | apply inv_ite | apply inv_foldl | split | dsimp +zetaDelta only

theorem inv_partnerDown {s : State} (h : Keeps w0 s) : Keeps w0 (State.partnerDown s) := by
  unfold State.partnerDown
  with_reducible repeat' first | intro _ | assumption | extract_lets | apply inv_bump | apply inv_setChan | apply inv_ite | apply inv_foldl | split | dsimp +zetaDelta only

theorem inv_mailboxReset {s : State} (h : Keeps w0 s) : Keeps w0 (State.mailboxReset s) := by
  unfold State.mailboxReset
  with_reducible repeat' first | intro _ | assumption | extract_lets | apply inv_setChan | apply inv_bump | apply inv_partnerDown | apply inv_ite | apply inv_foldl | split | dsimp +zetaDelta only

theorem inv_mailboxSend {s : State} (h : Keeps w0 s) (agent c tag) : Keeps w0 (State.mailboxSend s agent c tag) := by
  unfold State.mailboxSend
  with_reducible repeat' first | intro _ | assumption | extract_lets | apply inv_bump | apply inv_setFld | apply inv_setChan | apply inv_partnerSend | apply inv_notifyAgent | apply inv_ite | apply inv_foldl | split | dsimp +zetaDelta only

theorem inv_partnerUp {s : State} (h : Keeps w0 s) (cs) : Keeps w0 (State.partnerUp s cs) := by
  unfold State.partnerUp
  with_reducible repeat' first | intro _ | assumption | extract_lets | apply inv_setChan | apply inv_ite | apply inv_foldl | split | dsimp +zetaDelta only

theorem inv_persistEnd {s : State} (h : Keeps w0 s) (ok) : Keeps w0 (State.persistEnd s ok) := by
  unfold State.persistEnd
  with_reducible repeat' first | intro _ | assumption | extract_lets | apply inv_bump | apply inv_setReg | apply inv_setFld | apply inv_note | apply inv_vector | apply inv_ite | apply inv_foldl | split | dsimp +zetaDelta only

theorem inv_writeMirrorRecord {s : State} (h : Keeps w0 s) : Keeps w0 (State.writeMirrorRecord s) := by
  unfold State.writeMirrorRecord
  with_reducible repeat' first | intro _ | assumption | extract_lets | apply inv_store | apply inv_ite | apply inv_foldl | split | dsimp +zetaDelta only

theorem inv_writeStepEntry {s : State} (h : Keeps w0 s) : Keeps w0 (State.writeStepEntry s) := by
  unfold State.writeStepEntry
  with_reducible repeat' first | intro _ | assumption | extract_lets | apply inv_store | apply inv_ite | apply inv_foldl | split | dsimp +zetaDelta only

theorem inv_persistStart {s : State} (h : Keeps w0 s) (orderly) : Keeps w0 (State.persistStart s orderly) := by
  unfold State.persistStart
  with_reducible repeat' first | intro _ | assumption | extract_lets | apply inv_bump | apply inv_store | apply inv_copyRing | apply inv_writeMirrorRecord | apply inv_writeStepEntry | apply inv_ite | apply inv_foldl | split | dsimp +zetaDelta only

theorem inv_persistLate {s : State} (h : Keeps w0 s) : Keeps w0 (State.persistLate s) := by
  unfold State.persistLate
  with_reducible repeat' first | intro _ | assumption | extract_lets | apply inv_persistStart | apply inv_ite | apply inv_foldl | split | dsimp +zetaDelta only

theorem inv_rewriteWork {s : State} (h : Keeps w0 s) : Keeps w0 (State.rewriteWork s) := by
  unfold State.rewriteWork
  with_reducible repeat' first | intro _ | assumption | extract_lets | apply inv_store | apply inv_copyRing | apply inv_writeMirrorRecord | apply inv_writeStepEntry | apply inv_ite | apply inv_foldl | split | dsimp +zetaDelta only

theorem inv_execJournalPersist {s : State} (h : Keeps w0 s) : OutKeeps w0 (execJournalPersist s) := by
  unfold execJournalPersist
  with_reducible repeat' first | intro _ | assumption | extract_lets | apply inv_bump | apply inv_persistStart | apply out_ite | apply inv_next | apply inv_ite | apply inv_foldl | split | dsimp +zetaDelta only

theorem inv_execJournalPersistComplete {s : State} (h : Keeps w0 s) (ok) : OutKeeps w0 (execJournalPersistComplete ok s) := by
  unfold execJournalPersistComplete
  with_reducible repeat' first | intro _ | assumption | extract_lets | apply inv_persistLate | apply inv_persistEnd | apply out_ite | apply inv_next | apply inv_ite | apply inv_foldl | split | dsimp +zetaDelta only

theorem inv_execMailboxReceive {s : State} (h : Keeps w0 s) (agent c) : OutKeeps w0 (execMailboxReceive agent c s) := by
  unfold execMailboxReceive
  with_reducible repeat' first | intro _ | assumption | extract_lets | apply inv_mailboxReceive | apply out_ite | apply inv_next | apply inv_ite | apply inv_foldl | split | dsimp +zetaDelta only

theorem inv_execMailboxSend {s : State} (h : Keeps w0 s) (agent c tag ptr) : OutKeeps w0 (execMailboxSend agent c tag ptr s) := by
  unfold execMailboxSend
  with_reducible repeat' first | intro _ | assumption | extract_lets | apply inv_setReg | apply inv_mailboxSend | apply out_ite | apply inv_next | apply inv_ite | apply inv_foldl | split | dsimp +zetaDelta only

theorem inv_execPartnerCountReturned {s : State} (h : Keeps w0 s) (c) : OutKeeps w0 (execPartnerCountReturned c s) := by
  unfold execPartnerCountReturned
  with_reducible repeat' first | intro _ | assumption | extract_lets | apply inv_notifyAgent | apply inv_setChan | apply out_ite | apply inv_next | apply inv_ite | apply inv_foldl | split | dsimp +zetaDelta only

theorem inv_execPartnerMessageLanded {s : State} (h : Keeps w0 s) (c) : OutKeeps w0 (execPartnerMessageLanded c s) := by
  unfold execPartnerMessageLanded
  with_reducible repeat' first | intro _ | assumption | extract_lets | apply inv_setChan | apply inv_notifyAgent | apply out_ite | apply inv_next | apply inv_ite | apply inv_foldl | split | dsimp +zetaDelta only

end Sys2Proof.Machine
end

