-- ==== Sys2Proof/Laws/InvWork.lean ====
section
/-!
SUPPORT. Every operation of Machine/Work.lean keeps the canonical form of registers and memory, and the queue of commands.
-/
namespace Sys2Proof.Machine

variable {w0 : List Instr}

theorem inv_respond {s : State} (h : Keeps w0 s) (p typ len status data) : Keeps w0 (State.respond s p typ len status data) := by
  unfold State.respond
  with_reducible repeat' first | intro _ | assumption | extract_lets | apply inv_injectAt | apply inv_ite | apply inv_foldl | split | dsimp +zetaDelta only

theorem inv_ackWrite {s : State} (h : Keeps w0 s) (p status) : Keeps w0 (State.ackWrite s p status) := by
  unfold State.ackWrite
  with_reducible repeat' first | intro _ | assumption | extract_lets | apply inv_respond | apply inv_ite | apply inv_foldl | split | dsimp +zetaDelta only

theorem inv_addToCell {s : State} (h : Keeps w0 s) (word) : Keeps w0 (State.addToCell s word) := by
  unfold State.addToCell
  with_reducible repeat' first | intro _ | assumption | extract_lets | apply inv_inject | apply inv_ite | apply inv_foldl | split | dsimp +zetaDelta only

theorem inv_ceErr {s : State} (h : Keeps w0 s) (reason queue collId) : Keeps w0 (State.ceErr s reason queue collId) := by
  unfold State.ceErr
  with_reducible repeat' first | intro _ | assumption | extract_lets | apply inv_record | apply inv_ite | apply inv_foldl | split | dsimp +zetaDelta only

theorem inv_closeGraph {s : State} (h : Keeps w0 s) (g) : Keeps w0 (State.closeGraph s g) := by
  unfold State.closeGraph
  with_reducible repeat' first | intro _ | assumption | extract_lets | apply inv_finishCmd | apply inv_ite | apply inv_foldl | split | dsimp +zetaDelta only

theorem inv_countStall {s : State} (h : Keeps w0 s) : Keeps w0 (State.countStall s) := by
  unfold State.countStall
  with_reducible repeat' first | intro _ | assumption | extract_lets | apply inv_setEpoch | apply inv_bump | apply inv_ite | apply inv_foldl | split | dsimp +zetaDelta only

theorem inv_freeSpill {s : State} (h : Keeps w0 s) (k) : Keeps w0 (State.freeSpill s k) := by
  unfold State.freeSpill
  with_reducible repeat' first | intro _ | assumption | extract_lets | apply inv_setReg | apply inv_ite | apply inv_foldl | split | dsimp +zetaDelta only

theorem inv_retryOne {r : State × List HeldWr} (h : Keeps w0 r.1) (k w) : Keeps w0 (retryOne k r w).1 := by
  unfold retryOne
  split
  · exact inv_ackWrite (inv_holdWrite h ..) ..
  · exact h

theorem inv_State_retryHeld {s : State} (h : Keeps w0 s) (k) : Keeps w0 (State.retryHeld s k) := by
  have hf : ∀ (l : List HeldWr) (r : State × List HeldWr), Keeps w0 r.1 → Keeps w0 (l.foldl (retryOne k) r).1 := by
    intro l
    induction l with
    | nil => exact fun _ h => h
    | cons w l ih => exact fun r h => ih _ (inv_retryOne h k w)
  unfold State.retryHeld
  refine inv_ite (inv_ite (inv_setEpState h ..) h) ?_
  extract_lets +onlyGivenNames s1
  have h1 : Keeps w0 s1 := inv_countStall h
  clear_value s1
  have k2 := hf (s1.epoch k).waiting (s1, []) h1
  generalize (s1.epoch k).waiting.foldl (retryOne k) (s1, []) = y at k2
  obtain ⟨a, b⟩ := y
  dsimp only at k2 ⊢
  exact inv_ite (inv_setEpState (inv_setEpoch k2 ..) ..) (inv_setEpoch k2 ..)

theorem inv_dropSlot {s : State} (h : Keeps w0 s) (k) : Keeps w0 (State.dropSlot s k) := by
  unfold State.dropSlot
  with_reducible repeat' first | intro _ | assumption | extract_lets | apply inv_freeSpill | apply inv_countStall | apply inv_setEpoch | apply inv_ackWrite | apply inv_setEpState | apply inv_State_retryHeld | apply inv_bump | apply inv_ite | apply inv_foldl | split | dsimp +zetaDelta only

theorem inv_discardSlot {s : State} (h : Keeps w0 s) (k) : Keeps w0 (State.discardSlot s k) := by
  unfold State.discardSlot
  with_reducible repeat' first | intro _ | assumption | extract_lets | apply inv_dropSlot | apply inv_ite | apply inv_foldl | split | dsimp +zetaDelta only

theorem inv_dropStreams {s : State} (h : Keeps w0 s) (q) : Keeps w0 (State.dropStreams s q) := by
  unfold State.dropStreams
  with_reducible repeat' first | intro _ | assumption | extract_lets | apply inv_ite | apply inv_foldl | split | dsimp +zetaDelta only

theorem inv_storeRuns {s : State} (h : Keeps w0 s) (rs bs) : Keeps w0 (storeRuns rs bs s) := by
  induction rs generalizing s bs with
  | nil => exact h
  | cons r rs ih => exact ih (inv_store h _ _) _

theorem inv_jobStore {s : State} (h : Keeps w0 s) (va bs) : Keeps w0 (State.jobStore s va bs) := by
  unfold State.jobStore
  with_reducible repeat' first | intro _ | assumption | extract_lets | apply inv_storeRuns | apply inv_ite | apply inv_foldl | split | dsimp +zetaDelta only

theorem inv_showEngine {s : State} (h : Keeps w0 s) : Keeps w0 (State.showEngine s) := by
  unfold State.showEngine
  with_reducible repeat' first | intro _ | assumption | extract_lets | apply inv_setFlds | apply inv_ite | apply inv_foldl | split | dsimp +zetaDelta only

theorem inv_setGraph {s : State} (h : Keeps w0 s) (g x) : Keeps w0 (State.setGraph s g x) := by
  unfold State.setGraph
  with_reducible repeat' first | intro _ | assumption | extract_lets | apply inv_ite | apply inv_foldl | split | dsimp +zetaDelta only

theorem inv_nodeDone {s : State} (h : Keeps w0 s) (g k st r) : Keeps w0 (State.nodeDone s g k st r) := by
  unfold State.nodeDone
  with_reducible repeat' first | intro _ | assumption | extract_lets | apply inv_setGraph | apply inv_postCmd | apply inv_closeGraph | apply inv_ite | apply inv_foldl | split | dsimp +zetaDelta only

theorem inv_ended {s : State} (h : Keeps w0 s) (cmd node st r) : Keeps w0 (State.ended s cmd node st r) := by
  unfold State.ended
  with_reducible repeat' first | intro _ | assumption | extract_lets | apply inv_finishCmd | apply inv_nodeDone | apply inv_ite | apply inv_foldl | split | dsimp +zetaDelta only

theorem inv_stepFails {s : State} (h : Keeps w0 s) (st) : Keeps w0 (State.stepFails s st) := by
  unfold State.stepFails
  with_reducible repeat' first | intro _ | assumption | extract_lets | apply inv_jobStore | apply inv_ended | apply inv_ite | apply inv_foldl | split | dsimp +zetaDelta only

theorem inv_endColl {s : State} (h : Keeps w0 s) (q st) : Keeps w0 (State.endColl s q st) := by
  unfold State.endColl
  with_reducible repeat' first | intro _ | assumption | extract_lets | apply inv_jobStore | apply inv_dropStreams | apply inv_showEngine | apply inv_bump | apply inv_addToCell | apply inv_event | apply inv_stepFails | apply inv_ended | apply inv_ite | apply inv_foldl | split | dsimp +zetaDelta only

theorem inv_freeSlot {s : State} (h : Keeps w0 s) (k) : Keeps w0 (State.freeSlot s k) := by
  unfold State.freeSlot
  with_reducible repeat' first | intro _ | assumption | extract_lets | apply inv_setEpoch | apply inv_freeSpill | apply inv_State_retryHeld | apply inv_setReg | apply inv_ite | apply inv_foldl | split | dsimp +zetaDelta only

theorem inv_noteHeld {s : State} (h : Keeps w0 s) (c) : Keeps w0 (State.noteHeld s c) := by
  unfold State.noteHeld
  with_reducible repeat' first | intro _ | assumption | extract_lets | apply inv_showCapture | apply inv_ite | apply inv_foldl | split | dsimp +zetaDelta only

theorem inv_pageFault {s : State} (h : Keeps w0 s) (dst va task spire) : Keeps w0 (State.pageFault s dst va task spire) := by
  unfold State.pageFault
  with_reducible repeat' first | intro _ | assumption | extract_lets | apply inv_event | apply inv_ite | apply inv_foldl | split | dsimp +zetaDelta only

theorem inv_setPath {s : State} (h : Keeps w0 s) (q c bucketed fixed) : Keeps w0 (State.setPath s q c bucketed fixed) := by
  unfold State.setPath
  with_reducible repeat' first | intro _ | assumption | extract_lets | apply inv_bump | apply inv_ite | apply inv_foldl | split | dsimp +zetaDelta only

theorem inv_showEpochTasks {s : State} (h : Keeps w0 s) : Keeps w0 (State.showEpochTasks s) := by
  unfold State.showEpochTasks
  with_reducible repeat' first | intro _ | assumption | extract_lets | apply inv_setFld | apply inv_ite | apply inv_foldl | split | dsimp +zetaDelta only

theorem inv_settleDoomed {s : State} (h : Keeps w0 s) : Keeps w0 (State.settleDoomed s) := by
  unfold State.settleDoomed
  with_reducible repeat' first | intro _ | assumption | extract_lets | apply inv_setEpState | apply inv_showEpochTasks | apply inv_ite | apply inv_foldl | split | dsimp +zetaDelta only

theorem inv_stopEngine {s : State} (h : Keeps w0 s) : Keeps w0 (State.stopEngine s) := by
  unfold State.stopEngine
  with_reducible repeat' first | intro _ | assumption | extract_lets | apply inv_endColl | apply inv_stepFails | apply inv_ended | apply inv_setReg | apply inv_ite | apply inv_foldl | split | dsimp +zetaDelta only

theorem inv_stopGraphs {s : State} (h : Keeps w0 s) : Keeps w0 (State.stopGraphs s) := by
  unfold State.stopGraphs
  with_reducible repeat' first | intro _ | assumption | extract_lets | apply inv_closeGraph | apply inv_setGraph | apply inv_ite | apply inv_foldl | split | dsimp +zetaDelta only

end Sys2Proof.Machine
end

