-- ==== Sys2Proof/Laws/InvJobStop.lean ====
section
/-!
SUPPORT. Every operation of Machine/JobStop.lean keeps the canonical form of registers and memory, and the queue of commands.
-/
namespace Sys2Proof.Machine

variable {w0 : List Instr}

theorem inv_abandonCapture {s : State} (h : Keeps w0 s) (st) : Keeps w0 (State.abandonCapture s st) := by
  unfold State.abandonCapture
  with_reducible repeat' first | intro _ | assumption | extract_lets | apply inv_releaseCapture | apply inv_setFld | apply inv_setReg | apply inv_finishCmd | apply inv_ite | apply inv_foldl | split | dsimp +zetaDelta only

theorem inv_abandonMirror {s : State} (h : Keeps w0 s) : Keeps w0 (State.abandonMirror s) := by
  unfold State.abandonMirror
  with_reducible repeat' first | intro _ | assumption | extract_lets | apply inv_releaseMirror | apply inv_showMirror | apply inv_ite | apply inv_foldl | split | dsimp +zetaDelta only

theorem inv_abandonPhase {s : State} (h : Keeps w0 s) : Keeps w0 (State.abandonPhase s) := by
  unfold State.abandonPhase
  with_reducible repeat' first | intro _ | assumption | extract_lets | apply inv_releaseHeld | apply inv_nodeDone | apply inv_ite | apply inv_foldl | split | dsimp +zetaDelta only

theorem inv_abortTasks {s : State} (h : Keeps w0 s) : Keeps w0 (State.abortTasks s) := by
  unfold State.abortTasks
  with_reducible repeat' first | intro _ | assumption | extract_lets | apply inv_abortSpire | apply inv_ite | apply inv_foldl | split | dsimp +zetaDelta only

theorem inv_endDelayed {s : State} (h : Keeps w0 s) : Keeps w0 (State.endDelayed s) := by
  unfold State.endDelayed
  with_reducible repeat' first | intro _ | assumption | extract_lets | apply inv_expireCmd | apply inv_ite | apply inv_foldl | split | dsimp +zetaDelta only

theorem inv_beginStop {s : State} (h : Keeps w0 s) (id src) : Keeps w0 (State.beginStop s id src) := by
  unfold State.beginStop
  with_reducible repeat' first | assumption | apply inv_setFlds | apply inv_stopEngine | apply inv_abortTasks | apply inv_endDelayed | apply inv_discardSlot | apply inv_partnerDown | apply inv_stopGraphs | apply inv_abandonPhase | apply inv_abandonCapture | apply inv_abandonMirror | apply inv_ite | apply inv_foldl | intro _ | split | extract_lets | dsimp +zetaDelta only

theorem inv_beginWarm {s : State} (h : Keeps w0 s) (cmd) : Keeps w0 (State.beginWarm s cmd) := by
  unfold State.beginWarm
  with_reducible repeat' first | intro _ | assumption | extract_lets | apply inv_ite | apply inv_foldl | split | dsimp +zetaDelta only

theorem inv_setTower {s : State} (h : Keeps w0 s) (t w) : Keeps w0 (State.setTower s t w) := by
  unfold State.setTower
  with_reducible repeat' first | intro _ | assumption | extract_lets | apply inv_ite | apply inv_foldl | split | dsimp +zetaDelta only

theorem inv_countThrottle {s : State} (h : Keeps w0 s) (t) : Keeps w0 (State.countThrottle s t) := by
  unfold State.countThrottle
  with_reducible repeat' first | intro _ | assumption | extract_lets | apply inv_bump | apply inv_setTower | apply inv_ite | apply inv_foldl | split | dsimp +zetaDelta only

theorem inv_resetLinks {s : State} (h : Keeps w0 s) : Keeps w0 (State.resetLinks s) := by
  unfold State.resetLinks
  with_reducible repeat' first | intro _ | assumption | extract_lets | apply inv_setFld | apply inv_setLink | apply inv_ite | apply inv_foldl | split | dsimp +zetaDelta only

theorem inv_warmRegs {s : State} (h : Keeps w0 s) : twf regReset s.warmRegs := twf_filter _ h.1

theorem inv_clearModule {s : State} (h : Keeps w0 s) : Keeps w0 s.clearModule := by
  unfold State.clearModule
  have k := inv_foldl (l := List.range 8) (f := fun s t => s.countThrottle t) (inv_countStall h) (fun _ _ h => inv_countThrottle h _)
  generalize (List.range 8).foldl (fun (s : State) t => s.countThrottle t) s.countStall = v at k
  dsimp only
  have k := inv_foldl (l := v.spires) (f := fun s (p : Nat × Spire) => s.stopEngines p.1) k (fun _ _ h => inv_stopEngines h _)
  generalize List.foldl _ v _ = z at k
  have k := inv_mailboxReset k
  generalize z.mailboxReset = t at k
  have k := inv_foldl (l := t.hcp.queues.filter (fun (p : Nat × Queue) => t.cqOn p.1)) (f := fun s (p : Nat × Queue) => s.cqDisable p.1) k (fun _ _ h => inv_cqDisable h _)
  generalize List.foldl _ t _ = u at k
  exact inv_resetLinks (inv_foldl ⟨twf_filter _ k.1, Memory.wf_filter _ k.2.1, k.2.2⟩ (fun _ _ h => inv_setFld h ..))

theorem inv_floodNow {s : State} (h : Keeps w0 s) (id b) : Keeps w0 (State.floodNow s id b) := by
  unfold State.floodNow
  with_reducible repeat' first | intro _ | assumption | extract_lets | apply inv_ite | apply inv_foldl | split | dsimp +zetaDelta only

theorem inv_noticeStop {s : State} (h : Keeps w0 s) (id src first) : Keeps w0 (State.noticeStop s id src first) := by
  unfold State.noticeStop
  with_reducible repeat' first | intro _ | assumption | extract_lets | apply inv_event | apply inv_vector | apply inv_ite | apply inv_foldl | split | dsimp +zetaDelta only

theorem inv_settleStop {s : State} (h : Keeps w0 s) : Keeps w0 (State.settleStop s) := by
  unfold State.settleStop
  with_reducible repeat' first | intro _ | assumption | extract_lets | apply inv_setFld | apply inv_finishCmd | apply inv_ite | apply inv_foldl | split | dsimp +zetaDelta only

theorem inv_sendStop {s : State} (h : Keeps w0 s) (id) : Keeps w0 (State.sendStop s id) := by
  unfold State.sendStop
  with_reducible repeat' first | intro _ | assumption | extract_lets | apply inv_flood | apply inv_bump | apply inv_settleStop | apply inv_noticeStop | apply inv_beginStop | apply inv_ite | apply inv_foldl | split | dsimp +zetaDelta only

theorem inv_raise {s : State} (h : Keeps w0 s) (cause skind sindex rung d0 d1) : Keeps w0 (State.raise s cause skind sindex rung d0 d1) := by
  unfold State.raise
  with_reducible repeat' first | intro _ | assumption | extract_lets | apply inv_newStopId | apply inv_sendStop | apply inv_putRecord | apply inv_ite | apply inv_foldl | split | dsimp +zetaDelta only

theorem inv_startWarm {s : State} (h : Keeps w0 s) (cmd) : Keeps w0 (State.startWarm s cmd) := by
  unfold State.startWarm
  with_reducible repeat' first | intro _ | assumption | extract_lets | apply inv_beginWarm | apply inv_clearModule | apply inv_ite | apply inv_foldl | split | dsimp +zetaDelta only

theorem inv_raise3 {s : State} (h : Keeps w0 s) (cause skind sindex d0 d1) : Keeps w0 (State.raise3 s cause skind sindex d0 d1) := by
  unfold State.raise3
  with_reducible repeat' first | intro _ | assumption | extract_lets | apply inv_newStopId | apply inv_floodNow | apply inv_bump | apply inv_startWarm | apply inv_putRecord | apply inv_ite | apply inv_foldl | split | dsimp +zetaDelta only

end Sys2Proof.Machine
end

