-- ==== Sys2Proof/Laws/InvSpireFault.lean ====
section
/-!
SUPPORT. Every operation of Machine/SpireFault.lean keeps the canonical form of registers and memory, and the queue of commands.
-/
namespace Sys2Proof.Machine

variable {w0 : List Instr}

theorem inv_spireFault {s : State} (h : Keeps w0 s) (site cls eng row qpos addr iter cause) : Keeps w0 (State.spireFault s site cls eng row qpos addr iter cause) := by
  unfold State.spireFault
  with_reducible repeat' first | intro _ | assumption | extract_lets | apply inv_faultRecord | apply inv_taskFault | apply inv_setSpState | apply inv_stopEngines | apply inv_modSpire | apply inv_raise | apply inv_ite | apply inv_foldl | split | dsimp +zetaDelta only

theorem inv_remoteError {s : State} (h : Keeps w0 s) (site reason cell omod ospire) : Keeps w0 (State.remoteError s site reason cell omod ospire) := by
  unfold State.remoteError
  with_reducible repeat' first | intro _ | assumption | extract_lets | apply inv_record | apply inv_spireFault | apply inv_ite | apply inv_foldl | split | dsimp +zetaDelta only

end Sys2Proof.Machine
end

