-- ==== Sys2Proof/Laws/InvMovPath.lean ====
section
/-!
SUPPORT. Every operation of Machine/MovPath.lean keeps the canonical form of registers and memory, and the queue of commands.
-/
namespace Sys2Proof.Machine

variable {w0 : List Instr}

theorem inv_modMover {s : State} (h : Keeps w0 s) (site f) : Keeps w0 (State.modMover s site f) := by
  unfold State.modMover
  with_reducible repeat' first | intro _ | assumption | extract_lets | apply inv_modSpire | apply inv_ite | apply inv_foldl | split | dsimp +zetaDelta only

theorem inv_moverAddress {s : State} (h : Keeps w0 s) (site seq row addr) : Keeps w0 (State.moverAddress s site seq row addr) := by
  unfold State.moverAddress
  with_reducible repeat' first | intro _ | assumption | extract_lets | apply inv_modSpire | apply inv_spireFault | apply inv_ite | apply inv_foldl | split | dsimp +zetaDelta only

theorem inv_moverTranslation {s : State} (h : Keeps w0 s) (site seq row addr migr) : Keeps w0 (State.moverTranslation s site seq row addr migr) := by
  unfold State.moverTranslation
  extract_lets +onlyGivenNames p
  split
  · extract_lets +onlyGivenNames s1 s2
    have h2 : Keeps w0 s2 := inv_bump (inv_faultRecord h ..) ..
    clear_value s2
    have h3 := inv_abandonMover h2 site seq
    generalize s2.abandonMover site seq = x at h3
    obtain ⟨a, y⟩ := x
    dsimp only at h3 ⊢
    have h4 : ∀ (z : State) f, Keeps w0 z → Keeps w0 (z.modSpire site f) := fun z f hz => inv_modSpire hz site f
    with_reducible repeat' first | assumption | apply inv_ite | apply inv_event | apply h4 | apply inv_countHeld | split
  · exact h

theorem inv_noteSlots {s : State} (h : Keeps w0 s) (site) : Keeps w0 (State.noteSlots s site) := by
  unfold State.noteSlots
  with_reducible repeat' first | intro _ | assumption | extract_lets | apply inv_modMover | apply inv_bump | apply inv_ite | apply inv_foldl | split | dsimp +zetaDelta only

theorem inv_prefetchAt {s : State} (h : Keeps w0 s) (site va phys) : Keeps w0 (State.prefetchAt s site va phys) := by
  unfold State.prefetchAt
  with_reducible repeat' first | intro _ | assumption | extract_lets | apply inv_modMover | apply inv_inject | apply inv_bump | apply inv_ite | apply inv_foldl | split | dsimp +zetaDelta only

theorem inv_setReq {s : State} (h : Keeps w0 s) (site seq barge f) : Keeps w0 (State.setReq s site seq barge f) := by
  unfold State.setReq
  with_reducible repeat' first | intro _ | assumption | extract_lets | apply inv_modMover | apply inv_ite | apply inv_foldl | split | dsimp +zetaDelta only

theorem inv_sendWrites {s : State} (h : Keeps w0 s) (site seq barge phys ps) : Keeps w0 (State.sendWrites s site seq barge phys ps) := by
  unfold State.sendWrites
  with_reducible repeat' first | intro _ | assumption | extract_lets | apply inv_setReq | apply inv_modMover | apply inv_inject | apply inv_ite | apply inv_foldl | split | dsimp +zetaDelta only

theorem inv_requestAt {s : State} (h : Keeps w0 s) (site a r x parts) : Keeps w0 (State.requestAt s site a r x parts) := by
  unfold State.requestAt
  with_reducible repeat' first | intro _ | assumption | extract_lets | apply inv_sendWrites | apply inv_modMover | apply inv_moverAddress | apply inv_bump | apply inv_setReq | apply inv_inject | apply inv_ite | apply inv_foldl | split | dsimp +zetaDelta only

theorem inv_request {s : State} (h : Keeps w0 s) (site a r) : Keeps w0 (State.request s site a r) := by
  unfold State.request
  with_reducible repeat' first | intro _ | assumption | extract_lets | apply inv_moverAddress | apply inv_setReq | apply inv_store | apply inv_sendWrites | apply inv_bump | apply inv_requestAt | apply inv_ite | apply inv_foldl | split | dsimp +zetaDelta only

theorem inv_pumpReqs {s : State} (h : Keeps w0 s) (n site) : Keeps w0 (pumpReqs n site s) := by
  induction n generalizing s with
  | zero => exact h
  | succ n ih =>
    unfold pumpReqs
    dsimp only
    with_reducible repeat' first | assumption | apply ih | apply inv_request | apply inv_modSpire | apply inv_ite | split

theorem inv_pumpHints {s : State} (h : Keeps w0 s) (n site) : Keeps w0 (pumpHints n site s) := by
  induction n generalizing s with
  | zero => exact h
  | succ n ih =>
    unfold pumpHints
    dsimp only
    with_reducible repeat' first | assumption | apply ih | apply inv_modMover | apply inv_prefetchAt | apply inv_bump | apply inv_ite | split

theorem inv_pump {s : State} (h : Keeps w0 s) (site) : Keeps w0 (State.pump s site) := by
  unfold State.pump
  with_reducible repeat' first | intro _ | assumption | extract_lets | apply inv_request | apply inv_pumpReqs | apply inv_noteSlots | apply inv_pumpHints | apply inv_ite | apply inv_foldl | split | dsimp +zetaDelta only

theorem inv_readRow {s : State} (h : Keeps w0 s) (site r) : Keeps w0 (State.readRow s site r) := by
  unfold State.readRow
  with_reducible repeat' first | intro _ | assumption | extract_lets | apply inv_orFlags | apply inv_store | apply inv_modSpire | apply inv_ite | apply inv_foldl | split | dsimp +zetaDelta only

theorem inv_startMov {s : State} (h : Keeps w0 s) (site seq m t) : Keeps w0 (State.startMov s site seq m t) := by
  unfold State.startMov
  with_reducible repeat' first | intro _ | assumption | extract_lets | apply inv_modSpire | apply inv_ite | apply inv_foldl | split | dsimp +zetaDelta only

theorem inv_reissue {s : State} (h : Keeps w0 s) (site) : Keeps w0 (State.reissue s site) := by
  unfold State.reissue
  with_reducible repeat' first | intro _ | assumption | extract_lets | apply inv_modSpire | apply inv_bump | apply inv_startMov | apply inv_ite | apply inv_foldl | split | dsimp +zetaDelta only

end Sys2Proof.Machine
end

