-- ==== Sys2Proof/Laws/InvSpireRun.lean ====
section
/-!
SUPPORT. Every operation of Machine/SpireRun.lean keeps the canonical form of registers and memory, and the queue of commands.
-/
namespace Sys2Proof.Machine

variable {w0 : List Instr}

theorem inv_addOut {s : State} (h : Keeps w0 s) (site e n) : Keeps w0 (State.addOut s site e n) := by
  unfold State.addOut
  with_reducible repeat' first | intro _ | assumption | extract_lets | apply inv_modSpire | apply inv_ite | apply inv_foldl | split | dsimp +zetaDelta only

theorem inv_cellAdd {s : State} (h : Keeps w0 s) (site c n) : Keeps w0 (State.cellAdd s site c n) := by
  unfold State.cellAdd
  with_reducible repeat' first | intro _ | assumption | extract_lets | apply inv_setCell | apply inv_bump | apply inv_setReg | apply inv_ite | apply inv_foldl | split | dsimp +zetaDelta only

theorem inv_countIn {s : State} (h : Keeps w0 s) (site u) : Keeps w0 (State.countIn s site u) := by
  unfold State.countIn
  with_reducible repeat' first | intro _ | assumption | extract_lets | apply inv_bump | apply inv_ite | apply inv_foldl | split | dsimp +zetaDelta only

theorem inv_wrongKind {s : State} (h : Keeps w0 s) (site u) : Keeps w0 (State.wrongKind s site u) := by
  unfold State.wrongKind
  with_reducible repeat' first | intro _ | assumption | extract_lets | apply inv_remoteError | apply inv_spireFault | apply inv_ite | apply inv_foldl | split | dsimp +zetaDelta only

theorem inv_applyAdds {s : State} (h : Keeps w0 s) (site c us) : Keeps w0 (State.applyAdds s site c us) := by
  unfold State.applyAdds
  with_reducible repeat' first | intro _ | assumption | extract_lets | apply inv_cellAdd | apply inv_countIn | apply inv_wrongKind | apply inv_ite | apply inv_foldl | split | dsimp +zetaDelta only

theorem inv_cellDec {s : State} (h : Keeps w0 s) (site c n) : Keeps w0 (State.cellDec s site c n) := by
  unfold State.cellDec
  with_reducible repeat' first | intro _ | assumption | extract_lets | apply inv_setCell | apply inv_bump | apply inv_setReg | apply inv_ite | apply inv_foldl | split | dsimp +zetaDelta only

theorem inv_endHold {s : State} (h : Keeps w0 s) (site c eng) : Keeps w0 (State.endHold s site c eng) := by
  unfold State.endHold
  with_reducible repeat' first | intro _ | assumption | extract_lets | apply inv_modSpire | apply inv_ite | apply inv_foldl | split | dsimp +zetaDelta only

theorem inv_takeSigTag {s : State} (h : Keeps w0 s) (site eng) : Keeps w0 (State.takeSigTag s site eng).2 := by
  unfold State.takeSigTag
  with_reducible repeat' first | intro _ | assumption | extract_lets  | apply inv_ite2 | apply inv_ite | apply inv_foldl | split | dsimp +zetaDelta only

theorem inv_undelivered {s : State} (h : Keeps w0 s) (site g) : Keeps w0 (State.undelivered s site g) := by
  unfold State.undelivered
  with_reducible repeat' first | intro _ | assumption | extract_lets | apply inv_record | apply inv_raise | apply inv_ite | apply inv_foldl | split | dsimp +zetaDelta only

theorem inv_sendMulticast {s : State} (h : Keeps w0 s) (site eng g p) : Keeps w0 (State.sendMulticast s site eng g p).2 := by
  unfold State.sendMulticast
  with_reducible repeat' first | intro _ | assumption | extract_lets | apply inv_inject | apply inv_takeSigTag | apply inv_sendL | apply inv_undelivered | apply inv_ite2 | apply inv_ite | apply inv_foldl | split | dsimp +zetaDelta only

theorem inv_closeRound {s : State} (h : Keeps w0 s) (site c cyc) : Keeps w0 (State.closeRound s site c cyc) := by
  unfold State.closeRound
  with_reducible repeat' first | intro _ | assumption | extract_lets | apply inv_endHold | apply inv_setCell | apply inv_sendMulticast | apply inv_bump | apply inv_modSpire | apply inv_ite | apply inv_foldl | split | dsimp +zetaDelta only

theorem inv_startHold {s : State} (h : Keeps w0 s) (site c eng ns) : Keeps w0 (State.startHold s site c eng ns) := by
  unfold State.startHold
  with_reducible repeat' first | intro _ | assumption | extract_lets | apply inv_modSpire | apply inv_ite | apply inv_foldl | split | dsimp +zetaDelta only

theorem inv_applyUpd {s : State} (h : Keeps w0 s) (site cyc u) : Keeps w0 (State.applyUpd s site cyc u) := by
  unfold State.applyUpd
  with_reducible repeat' first | intro _ | assumption | extract_lets | apply inv_cellDec | apply inv_wrongKind | apply inv_setCell | apply inv_countIn | apply inv_remoteError | apply inv_closeRound | apply inv_startHold | apply inv_ite | apply inv_foldl | split | dsimp +zetaDelta only

theorem inv_applyCycle {s : State} (h : Keeps w0 s) (site cyc us) : Keeps w0 (State.applyCycle s site cyc us) := by
  unfold State.applyCycle
  with_reducible repeat' first | intro _ | assumption | extract_lets | apply inv_applyAdds | apply inv_applyUpd | apply inv_ite | apply inv_foldl | split | dsimp +zetaDelta only

theorem inv_hazard {s : State} (h : Keeps w0 s) (site kind reader writer r qpos) : Keeps w0 (State.hazard s site kind reader writer r qpos) := by
  unfold State.hazard
  with_reducible repeat' first | intro _ | assumption | extract_lets | apply inv_bump | apply inv_record | apply inv_ite | apply inv_foldl | split | dsimp +zetaDelta only

theorem inv_earlyReads {s : State} (h : Keeps w0 s) (site eng qpos reads skip iter) : Keeps w0 (State.earlyReads s site eng qpos reads skip iter).2 := by
  unfold State.earlyReads
  with_reducible repeat' first | intro _ | assumption | extract_lets | apply inv_hazard | apply inv_spireFault | apply inv_ite2 | apply inv_ite | apply inv_foldl | split | dsimp +zetaDelta only

theorem inv_flushAdds {s : State} (h : Keeps w0 s) (site c t) : Keeps w0 (State.flushAdds s site c t) := by
  unfold State.flushAdds
  with_reducible repeat' first | intro _ | assumption | extract_lets | apply inv_applyAdds | apply inv_modSpire | apply inv_ite | apply inv_foldl | split | dsimp +zetaDelta only

theorem inv_gateTaken {s : State} (h : Keeps w0 s) (site e) : Keeps w0 (State.gateTaken s site e) := by
  unfold State.gateTaken
  with_reducible repeat' first | intro _ | assumption | extract_lets | apply inv_modSpire | apply inv_ite | apply inv_foldl | split | dsimp +zetaDelta only

theorem inv_goOn {s : State} (h : Keeps w0 s) (site e r) : Keeps w0 (State.goOn s site e r) := by
  unfold State.goOn
  with_reducible repeat' first | intro _ | assumption | extract_lets | apply inv_modSpire | apply inv_bump | apply inv_ite | apply inv_foldl | split | dsimp +zetaDelta only

theorem inv_mismatch {s : State} (h : Keeps w0 s) (site l) : Keeps w0 (State.mismatch s site l).2 := by
  unfold State.mismatch
  with_reducible repeat' first | intro _ | assumption | extract_lets | apply inv_modSpire | apply inv_ite2 | apply inv_ite | apply inv_foldl | split | dsimp +zetaDelta only

theorem inv_residueFault {s : State} (h : Keeps w0 s) (site l r) : Keeps w0 (State.residueFault s site l r) := by
  unfold State.residueFault
  with_reducible repeat' first | intro _ | assumption | extract_lets | apply inv_bump | apply inv_record | apply inv_spireFault | apply inv_ite | apply inv_foldl | split | dsimp +zetaDelta only

theorem inv_land {s : State} (h : Keeps w0 s) (site cyc l) : Keeps w0 (State.land s site cyc l) := by
  unfold State.land
  extract_lets +onlyGivenNames s1
  have h1 : Keeps w0 s1 := inv_orFlags h ..
  clear_value s1
  have k := inv_mismatch h1 site l
  generalize s1.mismatch site l = x at k
  obtain ⟨a, t⟩ := x
  cases a with
  | some r => exact inv_residueFault (inv_ite k (inv_modSpire k ..)) ..
  | none =>
    dsimp only at k ⊢
    have k2 := inv_applyWrs k site l.writes
    generalize t.applyWrs site l.writes = u at k2
    split <;> with_reducible repeat' first | assumption | apply inv_modSpire | apply inv_ite

theorem inv_landAll {s : State} (h : Keeps w0 s) (site cyc ls done) : Keeps w0 (s.landAll site cyc ls done) := by
  induction ls generalizing s done with
  | nil => exact h
  | cons l r ih =>
    unfold State.landAll
    split
    · exact ih (inv_land h ..) _
    · dsimp only
      have k : ∀ x, Keeps w0 (if s.hazEn site then s.hazard site 1 l.eng x ((l.targets.filter (fun r => Landing.targets ‹_› |>.contains r)).head?.getD (0, 0)) l.qpos else s) := fun _ => inv_ite (inv_hazard h ..) h
      with_reducible repeat' first | assumption | apply ih | apply inv_land | apply inv_spireFault | apply inv_modSpire | apply inv_hazard | apply inv_ite

theorem inv_tryTake {s : State} (h : Keeps w0 s) (site c n t) : Keeps w0 (State.tryTake s site c n t).2 := by
  unfold State.tryTake
  with_reducible repeat' first | intro _ | assumption | extract_lets | apply inv_flushAdds | apply inv_setCell | apply inv_ite2 | apply inv_ite | apply inv_foldl | split | dsimp +zetaDelta only

theorem inv_stay {s : State} (h : Keeps w0 s) (site e) : Keeps w0 (State.stay s site e) := by
  unfold State.stay
  with_reducible repeat' first | intro _ | assumption | extract_lets | apply inv_modSpire | apply inv_ite | apply inv_foldl | split | dsimp +zetaDelta only

theorem inv_pushUpd {s : State} (h : Keeps w0 s) (site due cell op eng qpos iter) : Keeps w0 (State.pushUpd s site due cell op eng qpos iter) := by
  unfold State.pushUpd
  with_reducible repeat' first | intro _ | assumption | extract_lets | apply inv_modSpire | apply inv_ite | apply inv_foldl | split | dsimp +zetaDelta only

theorem inv_sendSignal {s : State} (h : Keeps w0 s) (site eng m l p) : Keeps w0 (State.sendSignal s site eng m l p) := by
  unfold State.sendSignal
  with_reducible repeat' first | intro _ | assumption | extract_lets | apply inv_inject | apply inv_takeSigTag | apply inv_sendL | apply inv_ite | apply inv_foldl | split | dsimp +zetaDelta only

theorem inv_sendArrival {s : State} (h : Keeps w0 s) (site e c t qpos) : Keeps w0 (State.sendArrival s site e c t qpos) := by
  unfold State.sendArrival
  with_reducible repeat' first | intro _ | assumption | extract_lets | apply inv_pushUpd | apply inv_bump | apply inv_addOut | apply inv_sendSignal | apply inv_ite | apply inv_foldl | split | dsimp +zetaDelta only

theorem inv_resumeWith {s : State} (h : Keeps w0 s) (site e w r held) : Keeps w0 (State.resumeWith s site e w r held) := by
  unfold State.resumeWith
  with_reducible repeat' first | intro _ | assumption | extract_lets | apply inv_spireFault | apply inv_tryTake | apply inv_goOn | apply inv_countHeld | apply inv_stay | apply inv_gateTaken | apply inv_endHold | apply inv_sendArrival | apply inv_ite | apply inv_foldl | split | dsimp +zetaDelta only

theorem inv_resumeDue {s : State} (h : Keeps w0 s) (site c) : Keeps w0 (State.resumeDue s site c) := by
  unfold State.resumeDue
  with_reducible repeat' first | intro _ | assumption | extract_lets | apply inv_resumeWith | apply inv_ite | apply inv_foldl | split | dsimp +zetaDelta only

theorem inv_wake {s : State} (h : Keeps w0 s) (site cyc) : Keeps w0 (State.wake s site cyc) := by
  unfold State.wake
  with_reducible repeat' first | intro _ | assumption | extract_lets | apply inv_modSpire | apply inv_ite | apply inv_foldl | split | dsimp +zetaDelta only

theorem inv_runCycle {s : State} (h : Keeps w0 s) (site c full) : Keeps w0 (State.runCycle s site c full) := by
  unfold State.runCycle
  with_reducible repeat' first | intro _ | assumption | extract_lets | apply inv_modSpire | apply inv_reissue | apply inv_landAll | apply inv_pump | apply inv_readRow | apply inv_resumeDue | apply inv_applyCycle | apply inv_wake | apply inv_ite | apply inv_foldl | split | dsimp +zetaDelta only

theorem inv_runBefore {s : State} (h : Keeps w0 s) (n site t) : Keeps w0 (runBefore n site t s) := by
  induction n generalizing s with
  | zero => exact h
  | succ n ih =>
    unfold runBefore
    with_reducible repeat' first | assumption | apply ih | apply inv_runCycle | apply inv_ite | split

theorem inv_runTo {s : State} (h : Keeps w0 s) (site t) : Keeps w0 (State.runTo s site t) := by
  unfold State.runTo
  with_reducible repeat' first | intro _ | assumption | extract_lets | apply inv_runBefore | apply inv_runCycle | apply inv_ite | apply inv_foldl | split | dsimp +zetaDelta only

theorem inv_nextSeq {s : State} (h : Keeps w0 s) (site) : Keeps w0 (State.nextSeq s site).2 := by
  unfold State.nextSeq
  with_reducible repeat' first | intro _ | assumption | extract_lets | apply inv_modSpire | apply inv_ite2 | apply inv_ite | apply inv_foldl | split | dsimp +zetaDelta only

theorem inv_pushSig {s : State} (h : Keeps w0 s) (site due eng qpos g iter) : Keeps w0 (State.pushSig s site due eng qpos g iter) := by
  unfold State.pushSig
  with_reducible repeat' first | intro _ | assumption | extract_lets | apply inv_pushUpd | apply inv_ite | apply inv_foldl | split | dsimp +zetaDelta only

theorem inv_issued {s : State} (h : Keeps w0 s) (site e t occ) : Keeps w0 (State.issued s site e t occ) := by
  unfold State.issued
  with_reducible repeat' first | intro _ | assumption | extract_lets | apply inv_modSpire | apply inv_ite | apply inv_foldl | split | dsimp +zetaDelta only

theorem inv_issueFixed {s : State} (h : Keeps w0 s) (site e sig f) : Keeps w0 (State.issueFixed s site e sig f) := by
  unfold State.issueFixed
  with_reducible repeat' first | intro _ | assumption | extract_lets | apply inv_runTo | apply inv_spireFault | apply inv_earlyReads | apply inv_nextSeq | apply inv_modSpire | apply inv_pushSig | apply inv_issued | apply inv_ite | apply inv_foldl | split | dsimp +zetaDelta only

theorem inv_resumeEngine {s : State} (h : Keeps w0 s) (site e) : Keeps w0 (State.resumeEngine s site e) := by
  unfold State.resumeEngine
  with_reducible repeat' first | intro _ | assumption | extract_lets | apply inv_runTo | apply inv_ite | apply inv_foldl | split | dsimp +zetaDelta only

theorem inv_ready {s : State} (h : Keeps w0 s) (site e) : Keeps w0 (State.ready s site e) := by
  unfold State.ready
  with_reducible repeat' first | intro _ | assumption | extract_lets | apply inv_resumeEngine | apply inv_ite | apply inv_foldl | split | dsimp +zetaDelta only

theorem inv_settleUpds {s : State} (h : Keeps w0 s) (n site) : Keeps w0 (settleUpds n site s) := by
  induction n generalizing s with
  | zero => exact h
  | succ n ih =>
    unfold settleUpds
    with_reducible repeat' first | assumption | apply ih | apply inv_runCycle | apply inv_ite | split

theorem inv_settleCells {s : State} (h : Keeps w0 s) (site) : Keeps w0 (State.settleCells s site) := by
  unfold State.settleCells
  with_reducible repeat' first | intro _ | assumption | extract_lets | apply inv_settleUpds | apply inv_ite | apply inv_foldl | split | dsimp +zetaDelta only

theorem inv_sigDelivered {s : State} (h : Keeps w0 s) (site e) : Keeps w0 (State.sigDelivered s site e) := by
  unfold State.sigDelivered
  with_reducible repeat' first | intro _ | assumption | extract_lets | apply inv_modSpire | apply inv_ite | apply inv_foldl | split | dsimp +zetaDelta only

theorem inv_sigDone {s : State} (h : Keeps w0 s) (site tag) : Keeps w0 (State.sigDone s site tag) := by
  unfold State.sigDone
  with_reducible repeat' first | intro _ | assumption | extract_lets | apply inv_sigDelivered | apply inv_ite | apply inv_foldl | split | dsimp +zetaDelta only

theorem inv_runForResume {s : State} (h : Keeps w0 s) (n site e) : Keeps w0 (runForResume n site e s) := by
  induction n generalizing s with
  | zero => exact h
  | succ n ih =>
    unfold runForResume
    with_reducible repeat' first | assumption | apply ih | apply inv_runCycle | apply inv_wake | apply inv_ite | split

end Sys2Proof.Machine
end

