-- ==== Sys2Proof/Laws/InvMover.lean ====
section
/-!
SUPPORT. Every operation of Machine/Mover.lean keeps the canonical form of registers and memory, and the queue of commands.
-/
namespace Sys2Proof.Machine

variable {w0 : List Instr}

theorem inv_restartMover {s : State} (h : Keeps w0 s) (site first) : Keeps w0 (State.restartMover s site first) := by
  unfold State.restartMover
  with_reducible repeat' first | intro _ | assumption | extract_lets | apply inv_modMover | apply inv_modSpire | apply inv_runTo | apply inv_ite | apply inv_foldl | split | dsimp +zetaDelta only

theorem inv_clearFault {s : State} (h : Keeps w0 s) (site) : Keeps w0 (State.clearFault s site) := by
  unfold State.clearFault
  with_reducible repeat' first | intro _ | assumption | extract_lets | apply inv_setReg | apply inv_restartMover | apply inv_modSpire | apply inv_ite | apply inv_foldl | split | dsimp +zetaDelta only

theorem inv_movIssue {s : State} (h : Keeps w0 s) (site m t) : Keeps w0 (s.movIssue site m t).2 := by
  unfold State.movIssue
  split
  · exact inv_spireFault h ..
  · have k := inv_earlyReads h site 3 m.qpos m.reads (fun _ => false) m.iter
    dsimp only
    split
    · exact k
    · have k3 := inv_startMov (inv_nextSeq k site) site ((s.earlyReads site 3 m.qpos m.reads (fun _ => false) m.iter).2.nextSeq site).1 m t
      exact inv_ite (inv_pump k3 ..) k3

theorem inv_reach {s : State} (h : Keeps w0 s) (site) : Keeps w0 (State.reach s site) := by
  unfold State.reach
  with_reducible repeat' first | intro _ | assumption | extract_lets | apply inv_runTo | apply inv_ite | apply inv_foldl | split | dsimp +zetaDelta only

theorem inv_readData {s : State} (h : Keeps w0 s) (p) : Keeps w0 (State.readData s p) := by
  unfold State.readData
  with_reducible repeat' first | intro _ | assumption | extract_lets | apply inv_reach | apply inv_modMover | apply inv_bump | apply inv_pump | apply inv_moverAddress | apply inv_setReq | apply inv_ite | apply inv_foldl | split | dsimp +zetaDelta only

theorem inv_writeAck {s : State} (h : Keeps w0 s) (p) : Keeps w0 (State.writeAck s p) := by
  unfold State.writeAck
  with_reducible repeat' first | intro _ | assumption | extract_lets | apply inv_reach | apply inv_moverAddress | apply inv_pump | apply inv_setReq | apply inv_wake | apply inv_ite | apply inv_foldl | split | dsimp +zetaDelta only

theorem inv_execGlobalRowArrival {s : State} (h : Keeps w0 s) (site seq row) : OutKeeps w0 (execGlobalRowArrival site seq row s) := by
  unfold execGlobalRowArrival
  with_reducible repeat' first | intro _ | assumption | extract_lets | apply inv_modMover | apply out_ite | apply inv_next | apply inv_ite | apply inv_foldl | split | dsimp +zetaDelta only

theorem inv_execMoverAsyncLanding {s : State} (h : Keeps w0 s) (site seq) : OutKeeps w0 (execMoverAsyncLanding site seq s) := by
  unfold execMoverAsyncLanding
  with_reducible repeat' first | intro _ | assumption | extract_lets | apply inv_modSpire | apply inv_wake | apply inv_runTo | apply out_ite | apply inv_next | apply inv_ite | apply inv_foldl | split | dsimp +zetaDelta only

theorem inv_execPrefetchArrival {s : State} (h : Keeps w0 s) (p) : OutKeeps w0 (execPrefetchArrival p s) := by
  unfold execPrefetchArrival
  with_reducible repeat' first | intro _ | assumption | extract_lets | apply inv_readData | apply inv_takeArrived | apply out_ite | apply inv_next | apply inv_ite | apply inv_foldl | split | dsimp +zetaDelta only

theorem inv_execPrefetchIssue {s : State} (h : Keeps w0 s) (site k) : OutKeeps w0 (execPrefetchIssue site k s) := by
  unfold execPrefetchIssue
  with_reducible repeat' first | intro _ | assumption | extract_lets | apply inv_reach | apply inv_prefetchAt | apply inv_noteSlots | apply inv_modMover | apply inv_bump | apply out_ite | apply inv_next | apply inv_ite | apply inv_foldl | split | dsimp +zetaDelta only

theorem inv_execTranslationWalkComplete {s : State} (h : Keeps w0 s) (site seq barge) : OutKeeps w0 (execTranslationWalkComplete site seq barge s) := by
  unfold execTranslationWalkComplete
  with_reducible repeat' first | intro _ | assumption | extract_lets | apply inv_reach | apply inv_modMover | apply inv_pump | apply inv_moverTranslation | apply inv_moverAddress | apply out_ite | apply inv_next | apply inv_ite | apply inv_foldl | split | dsimp +zetaDelta only

end Sys2Proof.Machine
end

