-- ==== Sys2Proof/Laws/InvLinks.lean ====
section
/-!
SUPPORT. Every operation of Machine/Links.lean keeps the canonical form of registers and memory, and the queue of commands.
-/
namespace Sys2Proof.Machine

variable {w0 : List Instr}

theorem inv_atLimit {s : State} (h : Keeps w0 s) (n ns) : Keeps w0 (State.atLimit s n ns) := by
  unfold State.atLimit
  with_reducible repeat' first | intro _ | assumption | extract_lets | apply inv_ite | apply inv_foldl | split | dsimp +zetaDelta only

theorem inv_setPhase {s : State} (h : Keeps w0 s) (b) : Keeps w0 (State.setPhase s b) := by
  unfold State.setPhase
  with_reducible repeat' first | intro _ | assumption | extract_lets | apply inv_ite | apply inv_foldl | split | dsimp +zetaDelta only

theorem inv_showParent {s : State} (h : Keeps w0 s) : Keeps w0 (State.showParent s) := by
  unfold State.showParent
  with_reducible repeat' first | intro _ | assumption | extract_lets | apply inv_setFlds | apply inv_ite | apply inv_foldl | split | dsimp +zetaDelta only

theorem inv_bankSwap {s : State} (h : Keeps w0 s) : Keeps w0 (State.bankSwap s) := by
  unfold State.bankSwap
  with_reducible repeat' first | intro _ | assumption | extract_lets | apply inv_setFlds | apply inv_setPhase | apply inv_releaseHeld | apply inv_showParent | apply inv_bump | apply inv_finishCmd | apply inv_setPath | apply inv_nodeDone | apply inv_ite | apply inv_foldl | split | dsimp +zetaDelta only

theorem inv_takeInbox {s : State} (h : Keeps w0 s) (n p) : Keeps w0 (State.takeInbox s n p) := by
  unfold State.takeInbox
  with_reducible repeat' first | intro _ | assumption | extract_lets | apply inv_ite | apply inv_foldl | split | dsimp +zetaDelta only

theorem inv_bindOpen {s : State} (h : Keeps w0 s) (n p) : Keeps w0 (State.bindOpen s n p) := by
  unfold State.bindOpen
  with_reducible repeat' first | intro _ | assumption | extract_lets | apply inv_takeInbox | apply inv_setLink | apply inv_ite | apply inv_foldl | split | dsimp +zetaDelta only

theorem inv_bindFirst {s : State} (h : Keeps w0 s) (n ctx) : Keeps w0 (State.bindFirst s n ctx) := by
  unfold State.bindFirst
  with_reducible repeat' first | intro _ | assumption | extract_lets | apply inv_bindOpen | apply inv_ite | apply inv_foldl | split | dsimp +zetaDelta only

theorem inv_emit {s : State} (h : Keeps w0 s) (n fseq b) : Keeps w0 (State.emit s n fseq b) := by
  unfold State.emit
  with_reducible repeat' first | intro _ | assumption | extract_lets | apply inv_setLink | apply inv_bump | apply inv_ite | apply inv_foldl | split | dsimp +zetaDelta only

theorem inv_engineStore {s : State} (h : Keeps w0 s) (kind a bs) : Keeps w0 (State.engineStore s kind a bs) := by
  unfold State.engineStore
  with_reducible repeat' first | intro _ | assumption | extract_lets | apply inv_storeRuns | apply inv_ite | apply inv_foldl | split | dsimp +zetaDelta only

theorem inv_enterLink {s : State} (h : Keeps w0 s) (n st) : Keeps w0 (State.enterLink s n st) := by
  unfold State.enterLink
  with_reducible repeat' first | intro _ | assumption | extract_lets | apply inv_setLink | apply inv_setFld | apply inv_ite | apply inv_foldl | split | dsimp +zetaDelta only

theorem inv_enterRetrain {s : State} (h : Keeps w0 s) (n) : Keeps w0 (State.enterRetrain s n) := by
  unfold State.enterRetrain
  with_reducible repeat' first | intro _ | assumption | extract_lets | apply inv_bump | apply inv_enterLink | apply inv_ite | apply inv_foldl | split | dsimp +zetaDelta only

theorem inv_linkErr {s : State} (h : Keeps w0 s) (n reason) : Keeps w0 (State.linkErr s n reason) := by
  unfold State.linkErr
  with_reducible repeat' first | intro _ | assumption | extract_lets | apply inv_record | apply inv_ite | apply inv_foldl | split | dsimp +zetaDelta only

theorem inv_linkRungFails {s : State} (h : Keeps w0 s) (n) : Keeps w0 (State.linkRungFails s n) := by
  unfold State.linkRungFails
  with_reducible repeat' first | intro _ | assumption | extract_lets | apply inv_finishCmd | apply inv_ite | apply inv_foldl | split | dsimp +zetaDelta only

theorem inv_failLink {s : State} (h : Keeps w0 s) (n reason) : Keeps w0 (State.failLink s n reason) := by
  unfold State.failLink
  with_reducible repeat' first | assumption | apply inv_linkErr | apply inv_enterLink | apply inv_linkRungFails | apply inv_raise | apply inv_ite | apply inv_foldl | intro _ | split | extract_lets | dsimp +zetaDelta only

theorem inv_frameWord {s : State} (h : Keeps w0 s) (n f) : Keeps w0 (State.frameWord s n f) := by
  unfold State.frameWord
  with_reducible repeat' first | intro _ | assumption | extract_lets | apply inv_bump | apply inv_setLink | apply inv_ite | apply inv_foldl | split | dsimp +zetaDelta only

theorem inv_identified {s : State} (h : Keeps w0 s) (n) : Keeps w0 (State.identified s n) := by
  unfold State.identified
  with_reducible repeat' first | intro _ | assumption | extract_lets | apply inv_enterLink | apply inv_setLink | apply inv_ite | apply inv_foldl | split | dsimp +zetaDelta only

theorem inv_standbyLeft {s : State} (h : Keeps w0 s) : Keeps w0 (State.standbyLeft s) := by
  unfold State.standbyLeft
  with_reducible repeat' first | intro _ | assumption | extract_lets | apply inv_finishCmd | apply inv_setFld | apply inv_ite | apply inv_foldl | split | dsimp +zetaDelta only

theorem inv_linkUp {s : State} (h : Keeps w0 s) (n) : Keeps w0 (State.linkUp s n) := by
  unfold State.linkUp
  with_reducible repeat' first | intro _ | assumption | extract_lets | apply inv_standbyLeft | apply inv_finishCmd | apply inv_ite | apply inv_foldl | split | dsimp +zetaDelta only

theorem inv_loadBank {s : State} (h : Keeps w0 s) (bank ph) : Keeps w0 (State.loadBank s bank ph) := by
  unfold State.loadBank
  with_reducible repeat' first | intro _ | assumption | extract_lets | apply inv_ite | apply inv_foldl | split | dsimp +zetaDelta only

theorem inv_phaseArrived {s : State} (h : Keeps w0 s) (pos) : Keeps w0 (State.phaseArrived s pos) := by
  unfold State.phaseArrived
  with_reducible repeat' first | intro _ | assumption | extract_lets | apply inv_setPhase | apply inv_sendL | apply inv_ite | apply inv_foldl | split | dsimp +zetaDelta only

theorem inv_receiveData {s : State} (h : Keeps w0 s) (n ctx flits piece bs) : Keeps w0 (State.receiveData s n ctx flits piece bs) := by
  unfold State.receiveData
  with_reducible repeat' first | intro _ | assumption | extract_lets | apply inv_addPiece | apply inv_setLink | apply inv_enqueueD | apply inv_engineStore | apply inv_ite | apply inv_foldl | split | dsimp +zetaDelta only

theorem inv_receivePkt {s : State} (h : Keeps w0 s) (n piece p) : Keeps w0 (State.receivePkt s n piece p) := by
  unfold State.receivePkt
  with_reducible repeat' first | intro _ | assumption | extract_lets | apply inv_addPiece | apply inv_setLink | apply inv_sendW | apply inv_ite | apply inv_foldl | split | dsimp +zetaDelta only

theorem inv_retryOpen {s : State} (h : Keeps w0 s) (n) : Keeps w0 (State.retryOpen s n) := by
  unfold State.retryOpen
  with_reducible repeat' first | intro _ | assumption | extract_lets | apply inv_openWith | apply inv_setLink | apply inv_ite | apply inv_foldl | split | dsimp +zetaDelta only

theorem inv_showNeighbour {s : State} (h : Keeps w0 s) (n pos link) : Keeps w0 (State.showNeighbour s n pos link) := by
  unfold State.showNeighbour
  with_reducible repeat' first | intro _ | assumption | extract_lets | apply inv_setFlds | apply inv_ite | apply inv_foldl | split | dsimp +zetaDelta only

theorem inv_tbAlarm {s : State} (h : Keeps w0 s) (offset) : Keeps w0 (State.tbAlarm s offset) := by
  unfold State.tbAlarm
  with_reducible repeat' first | intro _ | assumption | extract_lets | apply inv_setFlds | apply inv_note | apply inv_event | apply inv_bump | apply inv_setFld | apply inv_ite | apply inv_foldl | split | dsimp +zetaDelta only

theorem inv_writeLinkEnable {s : State} (h : Keeps w0 s) (n on) : Keeps w0 (State.writeLinkEnable s n on) := by
  unfold State.writeLinkEnable
  with_reducible repeat' first | intro _ | assumption | extract_lets | apply inv_setFld | apply inv_setLink | apply inv_enterLink | apply inv_ite | apply inv_foldl | split | dsimp +zetaDelta only

theorem inv_writeRetrain {s : State} (h : Keeps w0 s) (n) : Keeps w0 (State.writeRetrain s n) := by
  unfold State.writeRetrain
  with_reducible repeat' first | intro _ | assumption | extract_lets | apply inv_enterRetrain | apply inv_setLink | apply inv_enterLink | apply inv_ite | apply inv_foldl | split | dsimp +zetaDelta only

theorem inv_execBankSwap {s : State} (h : Keeps w0 s) : OutKeeps w0 (execBankSwap s) := by
  unfold execBankSwap
  with_reducible repeat' first | intro _ | assumption | extract_lets | apply inv_bankSwap | apply out_ite | apply inv_next | apply inv_ite | apply inv_foldl | split | dsimp +zetaDelta only

theorem inv_execFrameReceive {s : State} (h : Keeps w0 s) (n f) : OutKeeps w0 (execFrameReceive n f s) := by
  unfold execFrameReceive
  with_reducible repeat' first | intro _ | assumption | extract_lets | apply inv_bump | apply inv_setLink | apply inv_frameWord | apply inv_bankSwap | apply inv_bindFirst | apply inv_pieceGone | apply inv_receivePkt | apply inv_receiveData | apply out_ite | apply inv_next | apply inv_ite | apply inv_foldl | split | dsimp +zetaDelta only

theorem inv_execFrameSend {s : State} (h : Keeps w0 s) (n) : OutKeeps w0 (execFrameSend n s) := by
  unfold execFrameSend
  with_reducible repeat' first | intro _ | assumption | extract_lets | apply inv_emit | apply inv_setLink | apply inv_bump | apply inv_retryOpen | apply inv_pieceGone | apply out_ite | apply inv_next | apply inv_ite | apply inv_foldl | split | dsimp +zetaDelta only

theorem inv_execIdent {s : State} (h : Keeps w0 s) (n p) : OutKeeps w0 (execIdent n p s) := by
  unfold execIdent
  with_reducible repeat' first | intro _ | assumption | extract_lets | apply inv_showNeighbour | apply inv_identified | apply inv_releaseHeld | apply inv_linkUp | apply inv_showParent | apply inv_note | apply inv_linkErr | apply inv_enterLink | apply out_ite | apply inv_next | apply inv_ite | apply inv_foldl | split | dsimp +zetaDelta only

theorem inv_execLinkAlignComplete {s : State} (h : Keeps w0 s) (n) : OutKeeps w0 (execLinkAlignComplete n s) := by
  unfold execLinkAlignComplete
  with_reducible repeat' first | intro _ | assumption | extract_lets | apply inv_emit | apply inv_enterLink | apply out_ite | apply inv_next | apply inv_ite | apply inv_foldl | split | dsimp +zetaDelta only

theorem inv_execLinkAlignTimeout {s : State} (h : Keeps w0 s) (n) : OutKeeps w0 (execLinkAlignTimeout n s) := by
  unfold execLinkAlignTimeout
  with_reducible repeat' first | intro _ | assumption | extract_lets | apply inv_atLimit | apply inv_failLink | apply inv_setLink | apply inv_enterLink | apply out_ite | apply inv_next | apply inv_ite | apply inv_foldl | split | dsimp +zetaDelta only

theorem inv_execLinkEnableWrite {s : State} (h : Keeps w0 s) (n on) : OutKeeps w0 (execLinkEnableWrite n on s) := by
  unfold execLinkEnableWrite
  with_reducible repeat' first | intro _ | assumption | extract_lets | apply inv_writeLinkEnable | apply out_ite | apply inv_next | apply inv_ite | apply inv_foldl | split | dsimp +zetaDelta only

theorem inv_execLinkIdentTimeout {s : State} (h : Keeps w0 s) (n) : OutKeeps w0 (execLinkIdentTimeout n s) := by
  unfold execLinkIdentTimeout
  with_reducible repeat' first | intro _ | assumption | extract_lets | apply inv_enterLink | apply inv_atLimit | apply out_ite | apply inv_next | apply inv_ite | apply inv_foldl | split | dsimp +zetaDelta only

theorem inv_execLinkRetrainRequest {s : State} (h : Keeps w0 s) (n) : OutKeeps w0 (execLinkRetrainRequest n s) := by
  unfold execLinkRetrainRequest
  with_reducible repeat' first | intro _ | assumption | extract_lets | apply inv_writeRetrain | apply out_ite | apply inv_next | apply inv_ite | apply inv_foldl | split | dsimp +zetaDelta only

theorem inv_execLinkRetrainTimeout {s : State} (h : Keeps w0 s) (n) : OutKeeps w0 (execLinkRetrainTimeout n s) := by
  unfold execLinkRetrainTimeout
  with_reducible repeat' first | intro _ | assumption | extract_lets | apply inv_failLink | apply inv_atLimit | apply out_ite | apply inv_next | apply inv_ite | apply inv_foldl | split | dsimp +zetaDelta only

theorem inv_execLinkRetryLimit {s : State} (h : Keeps w0 s) (n) : OutKeeps w0 (execLinkRetryLimit n s) := by
  unfold execLinkRetryLimit
  with_reducible repeat' first | intro _ | assumption | extract_lets | apply inv_enterRetrain | apply inv_linkErr | apply out_ite | apply inv_next | apply inv_ite | apply inv_foldl | split | dsimp +zetaDelta only

theorem inv_execLinkTrainTimeout {s : State} (h : Keeps w0 s) (n) : OutKeeps w0 (execLinkTrainTimeout n s) := by
  unfold execLinkTrainTimeout
  with_reducible repeat' first | intro _ | assumption | extract_lets | apply inv_failLink | apply inv_atLimit | apply out_ite | apply inv_next | apply inv_ite | apply inv_foldl | split | dsimp +zetaDelta only

theorem inv_execLinkTrainingComplete {s : State} (h : Keeps w0 s) (n) : OutKeeps w0 (execLinkTrainingComplete n s) := by
  unfold execLinkTrainingComplete
  with_reducible repeat' first | intro _ | assumption | extract_lets | apply inv_enterLink | apply out_ite | apply inv_next | apply inv_ite | apply inv_foldl | split | dsimp +zetaDelta only

theorem inv_execPhase {s : State} (h : Keeps w0 s) (n p) : OutKeeps w0 (execPhase n p s) := by
  unfold execPhase
  with_reducible repeat' first | intro _ | assumption | extract_lets | apply inv_takeInbox | apply inv_phaseArrived | apply inv_setPhase | apply out_ite | apply inv_next | apply inv_ite | apply inv_foldl | split | dsimp +zetaDelta only

theorem inv_execPhaseBoundary {s : State} (h : Keeps w0 s) (graph node) : OutKeeps w0 (execPhaseBoundary graph node s) := by
  unfold execPhaseBoundary
  with_reducible repeat' first | intro _ | assumption | extract_lets | apply inv_setPhase | apply inv_phaseArrived | apply inv_sendL | apply out_ite | apply inv_next | apply inv_ite | apply inv_foldl | split | dsimp +zetaDelta only

theorem inv_execPhaseHoldLimit {s : State} (h : Keeps w0 s) : OutKeeps w0 (execPhaseHoldLimit s) := by
  unfold execPhaseHoldLimit
  with_reducible repeat' first | intro _ | assumption | extract_lets | apply inv_setFld | apply inv_note | apply inv_event | apply out_ite | apply inv_next | apply inv_ite | apply inv_foldl | split | dsimp +zetaDelta only

theorem inv_execPhaseShadowLoaded {s : State} (h : Keeps w0 s) : OutKeeps w0 (execPhaseShadowLoaded s) := by
  unfold execPhaseShadowLoaded
  with_reducible repeat' first | intro _ | assumption | extract_lets | apply inv_loadBank | apply out_ite | apply inv_next | apply inv_ite | apply inv_foldl | split | dsimp +zetaDelta only

theorem inv_execStreamLanded {s : State} (h : Keeps w0 s) (n ctx) : OutKeeps w0 (execStreamLanded n ctx s) := by
  unfold execStreamLanded
  with_reducible repeat' first | intro _ | assumption | extract_lets | apply inv_setLink | apply inv_sendL | apply out_ite | apply inv_next | apply inv_ite | apply inv_foldl | split | dsimp +zetaDelta only

theorem inv_execStreamOpen {s : State} (h : Keeps w0 s) (n p) : OutKeeps w0 (execStreamOpen n p s) := by
  unfold execStreamOpen
  with_reducible repeat' first | intro _ | assumption | extract_lets | apply inv_bindOpen | apply out_ite | apply inv_next | apply inv_ite | apply inv_foldl | split | dsimp +zetaDelta only

theorem inv_execTimeExchangeTick {s : State} (h : Keeps w0 s) : OutKeeps w0 (execTimeExchangeTick s) := by
  unfold execTimeExchangeTick
  with_reducible repeat' first | intro _ | assumption | extract_lets | apply inv_enqueueL | apply out_ite | apply inv_next | apply inv_ite | apply inv_foldl | split | dsimp +zetaDelta only

theorem inv_execTimePacket {s : State} (h : Keeps w0 s) (n p) : OutKeeps w0 (execTimePacket n p s) := by
  unfold execTimePacket
  with_reducible repeat' first | intro _ | assumption | extract_lets | apply inv_takeInbox | apply inv_enqueueL | apply inv_setFld | apply inv_standbyLeft | apply inv_tbAlarm | apply out_ite | apply inv_next | apply inv_ite | apply inv_foldl | split | dsimp +zetaDelta only

theorem inv_execTimebaseExchangeTimeout {s : State} (h : Keeps w0 s) : OutKeeps w0 (execTimebaseExchangeTimeout s) := by
  unfold execTimebaseExchangeTimeout
  with_reducible repeat' first | intro _ | assumption | extract_lets | apply inv_tbAlarm | apply out_ite | apply inv_next | apply inv_ite | apply inv_foldl | split | dsimp +zetaDelta only

end Sys2Proof.Machine
end

