-- ==== Sys2Proof/Laws/InvHold.lean ====
section
/-!
SUPPORT. Every operation of Machine/Hold.lean keeps the canonical form of registers and memory, and the queue of commands.
-/
namespace Sys2Proof.Machine

variable {w0 : List Instr}

theorem inv_settleHoldAt {s : State} (h : Keeps w0 s) (site c t) : Keeps w0 (State.settleHoldAt s site c t) := by
  unfold State.settleHoldAt
  with_reducible repeat' first | intro _ | assumption | extract_lets | apply inv_bump | apply inv_modSpire | apply inv_ite | apply inv_foldl | split | dsimp +zetaDelta only

theorem inv_holdIssue {s : State} (h : Keeps w0 s) (site ctxs t ps real total) : Keeps w0 (State.holdIssue s site ctxs t ps real total).2 := by
  unfold State.holdIssue
  with_reducible repeat' first | intro _ | assumption | extract_lets | apply inv_settleHoldAt | apply inv_bump | apply inv_modSpire | apply inv_ite2 | apply inv_ite | apply inv_foldl | split | dsimp +zetaDelta only

theorem inv_settleHold {s : State} (h : Keeps w0 s) (site t) : Keeps w0 (State.settleHold s site t) := by
  unfold State.settleHold
  with_reducible repeat' first | intro _ | assumption | extract_lets | apply inv_settleHoldAt | apply inv_ite | apply inv_foldl | split | dsimp +zetaDelta only

theorem inv_holdTo {s : State} (h : Keeps w0 s) (site t) : Keeps w0 (State.holdTo s site t) := by
  unfold State.holdTo
  with_reducible repeat' first | intro _ | assumption | extract_lets | apply inv_settleHold | apply inv_ite | apply inv_foldl | split | dsimp +zetaDelta only

theorem inv_writeGapThresh {s : State} (h : Keeps w0 s) (site v) : Keeps w0 (State.writeGapThresh s site v) := by
  unfold State.writeGapThresh
  with_reducible repeat' first | intro _ | assumption | extract_lets | apply inv_settleHold | apply inv_setFld | apply inv_modSpire | apply inv_ite | apply inv_foldl | split | dsimp +zetaDelta only

theorem inv_execDutyDecrement {s : State} (h : Keeps w0 s) (site c) : OutKeeps w0 (execDutyDecrement site c s) := by
  unfold execDutyDecrement
  with_reducible repeat' first | intro _ | assumption | extract_lets | apply inv_settleHold | apply inv_holdTo | apply out_ite | apply inv_next | apply inv_ite | apply inv_foldl | split | dsimp +zetaDelta only

theorem inv_execDutyIncrement {s : State} (h : Keeps w0 s) (site c) : OutKeeps w0 (execDutyIncrement site c s) := by
  unfold execDutyIncrement
  with_reducible repeat' first | intro _ | assumption | extract_lets | apply inv_settleHold | apply inv_holdTo | apply out_ite | apply inv_next | apply inv_ite | apply inv_foldl | split | dsimp +zetaDelta only

theorem inv_execGapThreshWrite {s : State} (h : Keeps w0 s) (site v) : OutKeeps w0 (execGapThreshWrite site v s) := by
  unfold execGapThreshWrite
  with_reducible repeat' first | intro _ | assumption | extract_lets | apply inv_writeGapThresh | apply out_ite | apply inv_next | apply inv_ite | apply inv_foldl | split | dsimp +zetaDelta only

theorem inv_execGapThresholdReached {s : State} (h : Keeps w0 s) (site c) : OutKeeps w0 (execGapThresholdReached site c s) := by
  unfold execGapThresholdReached
  with_reducible repeat' first | intro _ | assumption | extract_lets | apply inv_settleHold | apply inv_holdTo | apply out_ite | apply inv_next | apply inv_ite | apply inv_foldl | split | dsimp +zetaDelta only

theorem inv_execSparseIntervalEnd {s : State} (h : Keeps w0 s) (site c) : OutKeeps w0 (execSparseIntervalEnd site c s) := by
  unfold execSparseIntervalEnd
  with_reducible repeat' first | intro _ | assumption | extract_lets | apply inv_settleHold | apply inv_modSpire | apply out_ite | apply inv_next | apply inv_ite | apply inv_foldl | split | dsimp +zetaDelta only

end Sys2Proof.Machine
end

