-- ==== Sys2Proof/Laws/InvArray.lean ====
section
/-!
SUPPORT. Every operation of Machine/Array.lean keeps the canonical form of registers and memory, and the queue of commands.
-/
namespace Sys2Proof.Machine

variable {w0 : List Instr}

theorem inv_noteDisagree {s : State} (h : Keeps w0 s) (site n) : Keeps w0 (State.noteDisagree s site n) := by
  unfold State.noteDisagree
  with_reducible repeat' first | intro _ | assumption | extract_lets | apply inv_bump | apply inv_note | apply inv_setTask | apply inv_ite | apply inv_foldl | split | dsimp +zetaDelta only

theorem inv_skipCounts {s : State} (h : Keeps w0 s) (site js c skipOn gateOn) : Keeps w0 (State.skipCounts s site js c skipOn gateOn) := by
  unfold State.skipCounts
  with_reducible repeat' first | intro _ | assumption | extract_lets | apply inv_bump | apply inv_ite | apply inv_foldl | split | dsimp +zetaDelta only

theorem inv_arrIssue {s : State} (h : Keeps w0 s) (site f i t q land rel iter) : Keeps w0 (State.arrIssue s site f i t q land rel iter).2.2 := by
  unfold State.arrIssue
  with_reducible repeat' first | intro _ | assumption | extract_lets | apply inv_spireFault | apply inv_earlyReads | apply inv_noteDisagree | apply inv_skipCounts | apply inv_bump | apply inv_holdIssue | apply inv_nextSeq | apply inv_modSpire | apply inv_pushSig | apply inv_ite3 | apply inv_ite | apply inv_foldl | split | dsimp +zetaDelta only

theorem inv_arrIssued {s : State} (h : Keeps w0 s) (site i t occ advance whole) : Keeps w0 (State.arrIssued s site i t occ advance whole) := by
  unfold State.arrIssued
  with_reducible repeat' first | intro _ | assumption | extract_lets | apply inv_modSpire | apply inv_ite | apply inv_foldl | split | dsimp +zetaDelta only

end Sys2Proof.Machine
end

