-- ==== Sys2Proof/Laws/InvLoops.lean ====
section
/-!
SUPPORT. Every operation of Machine/Loops.lean keeps the canonical form of registers and memory, and the queue of commands.
-/
namespace Sys2Proof.Machine

variable {w0 : List Instr}

theorem inv_modEng {s : State} (h : Keeps w0 s) (site e f) : Keeps w0 (State.modEng s site e f) := by
  unfold State.modEng
  with_reducible repeat' first | intro _ | assumption | extract_lets | apply inv_modSpire | apply inv_ite | apply inv_foldl | split | dsimp +zetaDelta only

theorem inv_loopStep {s : State} (h : Keeps w0 s) (site e) : Keeps w0 (State.loopStep s site e) := by
  unfold State.loopStep
  with_reducible repeat' first | intro _ | assumption | extract_lets | apply inv_runTo | apply inv_spireFault | apply inv_tryTake | apply inv_modEng | apply inv_bump | apply inv_arrIssue | apply inv_arrIssued | apply inv_movIssue | apply inv_ite | apply inv_foldl | split | dsimp +zetaDelta only

theorem inv_startLoop {s : State} (h : Keeps w0 s) (site e t k d body sig) : Keeps w0 (State.startLoop s site e t k d body sig) := by
  unfold State.startLoop
  with_reducible repeat' first | intro _ | assumption | extract_lets | apply inv_spireFault | apply inv_modRegs | apply inv_bump | apply inv_pushSig | apply inv_issued | apply inv_modEng | apply inv_loopStep | apply inv_ite | apply inv_foldl | split | dsimp +zetaDelta only

theorem inv_arrCommand {s : State} (h : Keeps w0 s) (site f i) : Keeps w0 (State.arrCommand s site f i) := by
  unfold State.arrCommand
  with_reducible repeat' first | intro _ | assumption | extract_lets | apply inv_ready | apply inv_runTo | apply inv_spireFault | apply inv_arrIssue | apply inv_arrIssued | apply inv_startLoop | apply inv_ite | apply inv_foldl | split | dsimp +zetaDelta only

theorem inv_descCommand {s : State} (h : Keeps w0 s) (site occ lat ok off bytes writes) : Keeps w0 (State.descCommand s site occ lat ok off bytes writes) := by
  unfold State.descCommand
  with_reducible repeat' first | intro _ | assumption | extract_lets | apply inv_issueFixed | apply inv_ready | apply inv_ite | apply inv_foldl | split | dsimp +zetaDelta only

theorem inv_movCommand {s : State} (h : Keeps w0 s) (site m desc) : Keeps w0 (State.movCommand s site m desc) := by
  unfold State.movCommand
  with_reducible repeat' first | intro _ | assumption | extract_lets | apply inv_ready | apply inv_runTo | apply inv_spireFault | apply inv_movIssue | apply inv_issued | apply inv_startLoop | apply inv_ite | apply inv_foldl | split | dsimp +zetaDelta only

theorem inv_execAccumulatorLoad {s : State} (h : Keeps w0 s) (site i) : OutKeeps w0 (execAccumulatorLoad site i s) := by
  unfold execAccumulatorLoad
  with_reducible repeat' first | intro _ | assumption | extract_lets | apply inv_movCommand | apply out_ite | apply inv_next | apply inv_ite | apply inv_foldl | split | dsimp +zetaDelta only

theorem inv_execAccumulatorStore {s : State} (h : Keeps w0 s) (site i) : OutKeeps w0 (execAccumulatorStore site i s) := by
  unfold execAccumulatorStore
  with_reducible repeat' first | intro _ | assumption | extract_lets | apply inv_movCommand | apply out_ite | apply inv_next | apply inv_ite | apply inv_foldl | split | dsimp +zetaDelta only

theorem inv_execDcount {s : State} (h : Keeps w0 s) (site d k off) : OutKeeps w0 (execDcount site d k off s) := by
  unfold execDcount
  with_reducible repeat' first | intro _ | assumption | extract_lets | apply inv_descCommand | apply out_ite | apply inv_next | apply inv_ite | apply inv_foldl | split | dsimp +zetaDelta only

theorem inv_execDload {s : State} (h : Keeps w0 s) (site d off) : OutKeeps w0 (execDload site d off s) := by
  unfold execDload
  with_reducible repeat' first | intro _ | assumption | extract_lets | apply inv_descCommand | apply out_ite | apply inv_next | apply inv_ite | apply inv_foldl | split | dsimp +zetaDelta only

theorem inv_execDset {s : State} (h : Keeps w0 s) (site d f x) : OutKeeps w0 (execDset site d f x s) := by
  unfold execDset
  with_reducible repeat' first | intro _ | assumption | extract_lets | apply inv_issueFixed | apply inv_ready | apply out_ite | apply inv_next | apply inv_ite | apply inv_foldl | split | dsimp +zetaDelta only

theorem inv_execDstore {s : State} (h : Keeps w0 s) (site d off) : OutKeeps w0 (execDstore site d off s) := by
  unfold execDstore
  with_reducible repeat' first | intro _ | assumption | extract_lets | apply inv_descCommand | apply out_ite | apply inv_next | apply inv_ite | apply inv_foldl | split | dsimp +zetaDelta only

theorem inv_execLoopIterationIssue {s : State} (h : Keeps w0 s) (site e) : OutKeeps w0 (execLoopIterationIssue site e s) := by
  unfold execLoopIterationIssue
  with_reducible repeat' first | intro _ | assumption | extract_lets | apply inv_loopStep | apply out_ite | apply inv_next | apply inv_ite | apply inv_foldl | split | dsimp +zetaDelta only

theorem inv_execMma {s : State} (h : Keeps w0 s) (site i) : OutKeeps w0 (execMma site i s) := by
  unfold execMma
  with_reducible repeat' first | intro _ | assumption | extract_lets | apply inv_arrCommand | apply out_ite | apply inv_next | apply inv_ite | apply inv_foldl | split | dsimp +zetaDelta only

theorem inv_execMmaDiag {s : State} (h : Keeps w0 s) (site i) : OutKeeps w0 (execMmaDiag site i s) := by
  unfold execMmaDiag
  with_reducible repeat' first | intro _ | assumption | extract_lets | apply inv_arrCommand | apply out_ite | apply inv_next | apply inv_ite | apply inv_foldl | split | dsimp +zetaDelta only

theorem inv_execMmaSp {s : State} (h : Keeps w0 s) (site i) : OutKeeps w0 (execMmaSp site i s) := by
  unfold execMmaSp
  with_reducible repeat' first | intro _ | assumption | extract_lets | apply inv_arrCommand | apply out_ite | apply inv_next | apply inv_ite | apply inv_foldl | split | dsimp +zetaDelta only

theorem inv_execMoverCopy {s : State} (h : Keeps w0 s) (site i) : OutKeeps w0 (execMoverCopy site i s) := by
  unfold execMoverCopy
  with_reducible repeat' first | intro _ | assumption | extract_lets | apply inv_movCommand | apply out_ite | apply inv_next | apply inv_ite | apply inv_foldl | split | dsimp +zetaDelta only

theorem inv_execPrefetchHint {s : State} (h : Keeps w0 s) (site a n) : OutKeeps w0 (execPrefetchHint site a n s) := by
  unfold execPrefetchHint
  with_reducible repeat' first | intro _ | assumption | extract_lets | apply inv_ready | apply inv_runTo | apply inv_spireFault | apply inv_modMover | apply inv_pump | apply inv_issued | apply out_ite | apply inv_next | apply inv_ite | apply inv_foldl | split | dsimp +zetaDelta only

theorem inv_execTileLoad {s : State} (h : Keeps w0 s) (site i) : OutKeeps w0 (execTileLoad site i s) := by
  unfold execTileLoad
  with_reducible repeat' first | intro _ | assumption | extract_lets | apply inv_movCommand | apply out_ite | apply inv_next | apply inv_ite | apply inv_foldl | split | dsimp +zetaDelta only

theorem inv_execTileLoadScale {s : State} (h : Keeps w0 s) (site i) : OutKeeps w0 (execTileLoadScale site i s) := by
  unfold execTileLoadScale
  with_reducible repeat' first | intro _ | assumption | extract_lets | apply inv_movCommand | apply out_ite | apply inv_next | apply inv_ite | apply inv_foldl | split | dsimp +zetaDelta only

theorem inv_execTileStore {s : State} (h : Keeps w0 s) (site i) : OutKeeps w0 (execTileStore site i s) := by
  unfold execTileStore
  with_reducible repeat' first | intro _ | assumption | extract_lets | apply inv_movCommand | apply out_ite | apply inv_next | apply inv_ite | apply inv_foldl | split | dsimp +zetaDelta only

theorem inv_execTileStoreScale {s : State} (h : Keeps w0 s) (site i) : OutKeeps w0 (execTileStoreScale site i s) := by
  unfold execTileStoreScale
  with_reducible repeat' first | intro _ | assumption | extract_lets | apply inv_movCommand | apply out_ite | apply inv_next | apply inv_ite | apply inv_foldl | split | dsimp +zetaDelta only

theorem inv_execTransposedLoad {s : State} (h : Keeps w0 s) (site i) : OutKeeps w0 (execTransposedLoad site i s) := by
  unfold execTransposedLoad
  with_reducible repeat' first | intro _ | assumption | extract_lets | apply inv_movCommand | apply out_ite | apply inv_next | apply inv_ite | apply inv_foldl | split | dsimp +zetaDelta only

end Sys2Proof.Machine
end

