-- ==== Sys2Proof/Laws/InvVector.lean ====
section
/-!
SUPPORT. Every operation of Machine/Vector.lean keeps the canonical form of registers and memory, and the queue of commands.
-/
namespace Sys2Proof.Machine

variable {w0 : List Instr}

theorem inv_vecIssue {s : State} (h : Keeps w0 s) (site sig f) : Keeps w0 (State.vecIssue s site sig f) := by
  unfold State.vecIssue
  with_reducible repeat' first | intro _ | assumption | extract_lets | apply inv_ready | apply inv_issueFixed | apply inv_bump | apply inv_ite | apply inv_foldl | split | dsimp +zetaDelta only

theorem inv_draws {s : State} (h : Keeps w0 s) (site sel per) : Keeps w0 (State.draws s site sel per).2 := by
  unfold State.draws
  with_reducible repeat' first | intro _ | assumption | extract_lets | apply inv_bump | apply inv_modRegs | apply inv_ite2 | apply inv_ite | apply inv_foldl | split | dsimp +zetaDelta only

theorem inv_drawIssue {s : State} (h : Keeps w0 s) (site sig sel per f) : Keeps w0 (State.drawIssue s site sig sel per f) := by
  unfold State.drawIssue
  with_reducible repeat' first | intro _ | assumption | extract_lets | apply inv_ready | apply inv_vecIssue | apply inv_draws | apply inv_ite | apply inv_foldl | split | dsimp +zetaDelta only

theorem inv_maskOp {s : State} (h : Keeps w0 s) (site i op) : Keeps w0 (State.maskOp s site i op) := by
  unfold State.maskOp
  with_reducible repeat' first | intro _ | assumption | extract_lets | apply inv_vecIssue | apply inv_ite | apply inv_foldl | split | dsimp +zetaDelta only

theorem inv_seedLanes {s : State} (h : Keeps w0 s) (site) : Keeps w0 (State.seedLanes s site) := by
  unfold State.seedLanes
  with_reducible repeat' first | intro _ | assumption | extract_lets | apply inv_modRegs | apply inv_ite | apply inv_foldl | split | dsimp +zetaDelta only

theorem inv_vecApprox {s : State} (h : Keeps w0 s) (site i occ lat op) : Keeps w0 (State.vecApprox s site i occ lat op) := by
  unfold State.vecApprox
  with_reducible repeat' first | intro _ | assumption | extract_lets | apply inv_vecIssue | apply inv_ite | apply inv_foldl | split | dsimp +zetaDelta only

theorem inv_vecBits {s : State} (h : Keeps w0 s) (site i lat nsrc allowInt result op) : Keeps w0 (State.vecBits s site i lat nsrc allowInt result op) := by
  unfold State.vecBits
  with_reducible repeat' first | intro _ | assumption | extract_lets | apply inv_vecIssue | apply inv_ite | apply inv_foldl | split | dsimp +zetaDelta only

theorem inv_vecFloat {s : State} (h : Keeps w0 s) (site i occ lat nsrc op point) : Keeps w0 (State.vecFloat s site i occ lat nsrc op point) := by
  unfold State.vecFloat
  with_reducible repeat' first | intro _ | assumption | extract_lets | apply inv_vecIssue | apply inv_ite | apply inv_foldl | split | dsimp +zetaDelta only

theorem inv_vecInt {s : State} (h : Keeps w0 s) (site i nsrc op) : Keeps w0 (State.vecInt s site i nsrc op) := by
  unfold State.vecInt
  with_reducible repeat' first | intro _ | assumption | extract_lets | apply inv_vecIssue | apply inv_ite | apply inv_foldl | split | dsimp +zetaDelta only

theorem inv_vecMem {s : State} (h : Keeps w0 s) (site i scatter linear) : Keeps w0 (State.vecMem s site i scatter linear) := by
  unfold State.vecMem
  with_reducible repeat' first | intro _ | assumption | extract_lets | apply inv_ready | apply inv_vecIssue | apply inv_bump | apply inv_ite | apply inv_foldl | split | dsimp +zetaDelta only

theorem inv_vecReduce {s : State} (h : Keeps w0 s) (site i ident op point) : Keeps w0 (State.vecReduce s site i ident op point) := by
  unfold State.vecReduce
  with_reducible repeat' first | intro _ | assumption | extract_lets | apply inv_vecIssue | apply inv_ite | apply inv_foldl | split | dsimp +zetaDelta only

theorem inv_vecSign {s : State} (h : Keeps w0 s) (site i nsrc op) : Keeps w0 (State.vecSign s site i nsrc op) := by
  unfold State.vecSign
  with_reducible repeat' first | intro _ | assumption | extract_lets | apply inv_vecBits | apply inv_ite | apply inv_foldl | split | dsimp +zetaDelta only

theorem inv_execKand {s : State} (h : Keeps w0 s) (site i) : OutKeeps w0 (execKand site i s) := by
  unfold execKand
  with_reducible repeat' first | intro _ | assumption | extract_lets | apply inv_maskOp | apply out_ite | apply inv_next | apply inv_ite | apply inv_foldl | split | dsimp +zetaDelta only

theorem inv_execKnot {s : State} (h : Keeps w0 s) (site i) : OutKeeps w0 (execKnot site i s) := by
  unfold execKnot
  with_reducible repeat' first | intro _ | assumption | extract_lets | apply inv_maskOp | apply out_ite | apply inv_next | apply inv_ite | apply inv_foldl | split | dsimp +zetaDelta only

theorem inv_execKor {s : State} (h : Keeps w0 s) (site i) : OutKeeps w0 (execKor site i s) := by
  unfold execKor
  with_reducible repeat' first | intro _ | assumption | extract_lets | apply inv_maskOp | apply out_ite | apply inv_next | apply inv_ite | apply inv_foldl | split | dsimp +zetaDelta only

theorem inv_execKxor {s : State} (h : Keeps w0 s) (site i) : OutKeeps w0 (execKxor site i s) := by
  unfold execKxor
  with_reducible repeat' first | intro _ | assumption | extract_lets | apply inv_maskOp | apply out_ite | apply inv_next | apply inv_ite | apply inv_foldl | split | dsimp +zetaDelta only

theorem inv_execVabs {s : State} (h : Keeps w0 s) (site i) : OutKeeps w0 (execVabs site i s) := by
  unfold execVabs
  with_reducible repeat' first | intro _ | assumption | extract_lets | apply inv_vecSign | apply out_ite | apply inv_next | apply inv_ite | apply inv_foldl | split | dsimp +zetaDelta only

theorem inv_execVadd {s : State} (h : Keeps w0 s) (site i) : OutKeeps w0 (execVadd site i s) := by
  unfold execVadd
  with_reducible repeat' first | intro _ | assumption | extract_lets | apply inv_vecFloat | apply out_ite | apply inv_next | apply inv_ite | apply inv_foldl | split | dsimp +zetaDelta only

theorem inv_execVand {s : State} (h : Keeps w0 s) (site i) : OutKeeps w0 (execVand site i s) := by
  unfold execVand
  with_reducible repeat' first | intro _ | assumption | extract_lets | apply inv_vecInt | apply out_ite | apply inv_next | apply inv_ite | apply inv_foldl | split | dsimp +zetaDelta only

theorem inv_execVcmp {s : State} (h : Keeps w0 s) (site i) : OutKeeps w0 (execVcmp site i s) := by
  unfold execVcmp
  with_reducible repeat' first | intro _ | assumption | extract_lets | apply inv_vecIssue | apply out_ite | apply inv_next | apply inv_ite | apply inv_foldl | split | dsimp +zetaDelta only

theorem inv_execVcpsgn {s : State} (h : Keeps w0 s) (site i) : OutKeeps w0 (execVcpsgn site i s) := by
  unfold execVcpsgn
  with_reducible repeat' first | intro _ | assumption | extract_lets | apply inv_vecSign | apply out_ite | apply inv_next | apply inv_ite | apply inv_foldl | split | dsimp +zetaDelta only

theorem inv_execVcvtf {s : State} (h : Keeps w0 s) (site i) : OutKeeps w0 (execVcvtf site i s) := by
  unfold execVcvtf
  with_reducible repeat' first | intro _ | assumption | extract_lets | apply inv_vecIssue | apply out_ite | apply inv_next | apply inv_ite | apply inv_foldl | split | dsimp +zetaDelta only

theorem inv_execVcvti {s : State} (h : Keeps w0 s) (site i) : OutKeeps w0 (execVcvti site i s) := by
  unfold execVcvti
  with_reducible repeat' first | intro _ | assumption | extract_lets | apply inv_vecIssue | apply out_ite | apply inv_next | apply inv_ite | apply inv_foldl | split | dsimp +zetaDelta only

theorem inv_execVcvtn {s : State} (h : Keeps w0 s) (site i) : OutKeeps w0 (execVcvtn site i s) := by
  unfold execVcvtn
  with_reducible repeat' first | intro _ | assumption | extract_lets | apply inv_drawIssue | apply out_ite | apply inv_next | apply inv_ite | apply inv_foldl | split | dsimp +zetaDelta only

theorem inv_execVcvtw {s : State} (h : Keeps w0 s) (site i) : OutKeeps w0 (execVcvtw site i s) := by
  unfold execVcvtw
  with_reducible repeat' first | intro _ | assumption | extract_lets | apply inv_vecIssue | apply out_ite | apply inv_next | apply inv_ite | apply inv_foldl | split | dsimp +zetaDelta only

theorem inv_execVdiv {s : State} (h : Keeps w0 s) (site i) : OutKeeps w0 (execVdiv site i s) := by
  unfold execVdiv
  with_reducible repeat' first | intro _ | assumption | extract_lets | apply inv_vecIssue | apply out_ite | apply inv_next | apply inv_ite | apply inv_foldl | split | dsimp +zetaDelta only

theorem inv_execVexp2 {s : State} (h : Keeps w0 s) (site i) : OutKeeps w0 (execVexp2 site i s) := by
  unfold execVexp2
  with_reducible repeat' first | intro _ | assumption | extract_lets | apply inv_vecApprox | apply out_ite | apply inv_next | apply inv_ite | apply inv_foldl | split | dsimp +zetaDelta only

theorem inv_execVfma {s : State} (h : Keeps w0 s) (site i) : OutKeeps w0 (execVfma site i s) := by
  unfold execVfma
  with_reducible repeat' first | intro _ | assumption | extract_lets | apply inv_vecFloat | apply out_ite | apply inv_next | apply inv_ite | apply inv_foldl | split | dsimp +zetaDelta only

theorem inv_execVfms {s : State} (h : Keeps w0 s) (site i) : OutKeeps w0 (execVfms site i s) := by
  unfold execVfms
  with_reducible repeat' first | intro _ | assumption | extract_lets | apply inv_vecFloat | apply out_ite | apply inv_next | apply inv_ite | apply inv_foldl | split | dsimp +zetaDelta only

theorem inv_execVfnma {s : State} (h : Keeps w0 s) (site i) : OutKeeps w0 (execVfnma site i s) := by
  unfold execVfnma
  with_reducible repeat' first | intro _ | assumption | extract_lets | apply inv_vecFloat | apply out_ite | apply inv_next | apply inv_ite | apply inv_foldl | split | dsimp +zetaDelta only

theorem inv_execVgather {s : State} (h : Keeps w0 s) (site i) : OutKeeps w0 (execVgather site i s) := by
  unfold execVgather
  with_reducible repeat' first | intro _ | assumption | extract_lets | apply inv_vecMem | apply out_ite | apply inv_next | apply inv_ite | apply inv_foldl | split | dsimp +zetaDelta only

theorem inv_execViadd {s : State} (h : Keeps w0 s) (site i) : OutKeeps w0 (execViadd site i s) := by
  unfold execViadd
  with_reducible repeat' first | intro _ | assumption | extract_lets | apply inv_vecInt | apply out_ite | apply inv_next | apply inv_ite | apply inv_foldl | split | dsimp +zetaDelta only

theorem inv_execVimax {s : State} (h : Keeps w0 s) (site i) : OutKeeps w0 (execVimax site i s) := by
  unfold execVimax
  with_reducible repeat' first | intro _ | assumption | extract_lets | apply inv_vecInt | apply out_ite | apply inv_next | apply inv_ite | apply inv_foldl | split | dsimp +zetaDelta only

theorem inv_execVimin {s : State} (h : Keeps w0 s) (site i) : OutKeeps w0 (execVimin site i s) := by
  unfold execVimin
  with_reducible repeat' first | intro _ | assumption | extract_lets | apply inv_vecInt | apply out_ite | apply inv_next | apply inv_ite | apply inv_foldl | split | dsimp +zetaDelta only

theorem inv_execVimul {s : State} (h : Keeps w0 s) (site i) : OutKeeps w0 (execVimul site i s) := by
  unfold execVimul
  with_reducible repeat' first | intro _ | assumption | extract_lets | apply inv_vecInt | apply out_ite | apply inv_next | apply inv_ite | apply inv_foldl | split | dsimp +zetaDelta only

theorem inv_execViota {s : State} (h : Keeps w0 s) (site i) : OutKeeps w0 (execViota site i s) := by
  unfold execViota
  with_reducible repeat' first | intro _ | assumption | extract_lets | apply inv_vecIssue | apply out_ite | apply inv_next | apply inv_ite | apply inv_foldl | split | dsimp +zetaDelta only

theorem inv_execVisub {s : State} (h : Keeps w0 s) (site i) : OutKeeps w0 (execVisub site i s) := by
  unfold execVisub
  with_reducible repeat' first | intro _ | assumption | extract_lets | apply inv_vecInt | apply out_ite | apply inv_next | apply inv_ite | apply inv_foldl | split | dsimp +zetaDelta only

theorem inv_execVlane {s : State} (h : Keeps w0 s) (site i) : OutKeeps w0 (execVlane site i s) := by
  unfold execVlane
  with_reducible repeat' first | intro _ | assumption | extract_lets | apply inv_vecIssue | apply out_ite | apply inv_next | apply inv_ite | apply inv_foldl | split | dsimp +zetaDelta only

theorem inv_execVld {s : State} (h : Keeps w0 s) (site i) : OutKeeps w0 (execVld site i s) := by
  unfold execVld
  with_reducible repeat' first | intro _ | assumption | extract_lets | apply inv_vecMem | apply out_ite | apply inv_next | apply inv_ite | apply inv_foldl | split | dsimp +zetaDelta only

theorem inv_execVlog2 {s : State} (h : Keeps w0 s) (site i) : OutKeeps w0 (execVlog2 site i s) := by
  unfold execVlog2
  with_reducible repeat' first | intro _ | assumption | extract_lets | apply inv_vecApprox | apply out_ite | apply inv_next | apply inv_ite | apply inv_foldl | split | dsimp +zetaDelta only

theorem inv_execVmax {s : State} (h : Keeps w0 s) (site i) : OutKeeps w0 (execVmax site i s) := by
  unfold execVmax
  with_reducible repeat' first | intro _ | assumption | extract_lets | apply inv_vecFloat | apply out_ite | apply inv_next | apply inv_ite | apply inv_foldl | split | dsimp +zetaDelta only

theorem inv_execVmin {s : State} (h : Keeps w0 s) (site i) : OutKeeps w0 (execVmin site i s) := by
  unfold execVmin
  with_reducible repeat' first | intro _ | assumption | extract_lets | apply inv_vecFloat | apply out_ite | apply inv_next | apply inv_ite | apply inv_foldl | split | dsimp +zetaDelta only

theorem inv_execVmul {s : State} (h : Keeps w0 s) (site i) : OutKeeps w0 (execVmul site i s) := by
  unfold execVmul
  with_reducible repeat' first | intro _ | assumption | extract_lets | apply inv_vecFloat | apply out_ite | apply inv_next | apply inv_ite | apply inv_foldl | split | dsimp +zetaDelta only

theorem inv_execVmxenc {s : State} (h : Keeps w0 s) (site i) : OutKeeps w0 (execVmxenc site i s) := by
  unfold execVmxenc
  with_reducible repeat' first | intro _ | assumption | extract_lets | apply inv_drawIssue | apply out_ite | apply inv_next | apply inv_ite | apply inv_foldl | split | dsimp +zetaDelta only

theorem inv_execVneg {s : State} (h : Keeps w0 s) (site i) : OutKeeps w0 (execVneg site i s) := by
  unfold execVneg
  with_reducible repeat' first | intro _ | assumption | extract_lets | apply inv_vecSign | apply out_ite | apply inv_next | apply inv_ite | apply inv_foldl | split | dsimp +zetaDelta only

theorem inv_execVnot {s : State} (h : Keeps w0 s) (site i) : OutKeeps w0 (execVnot site i s) := by
  unfold execVnot
  with_reducible repeat' first | intro _ | assumption | extract_lets | apply inv_vecInt | apply out_ite | apply inv_next | apply inv_ite | apply inv_foldl | split | dsimp +zetaDelta only

theorem inv_execVor {s : State} (h : Keeps w0 s) (site i) : OutKeeps w0 (execVor site i s) := by
  unfold execVor
  with_reducible repeat' first | intro _ | assumption | extract_lets | apply inv_vecInt | apply out_ite | apply inv_next | apply inv_ite | apply inv_foldl | split | dsimp +zetaDelta only

theorem inv_execVrcp {s : State} (h : Keeps w0 s) (site i) : OutKeeps w0 (execVrcp site i s) := by
  unfold execVrcp
  with_reducible repeat' first | intro _ | assumption | extract_lets | apply inv_vecApprox | apply out_ite | apply inv_next | apply inv_ite | apply inv_foldl | split | dsimp +zetaDelta only

theorem inv_execVrmax {s : State} (h : Keeps w0 s) (site i) : OutKeeps w0 (execVrmax site i s) := by
  unfold execVrmax
  with_reducible repeat' first | intro _ | assumption | extract_lets | apply inv_vecReduce | apply out_ite | apply inv_next | apply inv_ite | apply inv_foldl | split | dsimp +zetaDelta only

theorem inv_execVrmin {s : State} (h : Keeps w0 s) (site i) : OutKeeps w0 (execVrmin site i s) := by
  unfold execVrmin
  with_reducible repeat' first | intro _ | assumption | extract_lets | apply inv_vecReduce | apply out_ite | apply inv_next | apply inv_ite | apply inv_foldl | split | dsimp +zetaDelta only

theorem inv_execVrsqrt {s : State} (h : Keeps w0 s) (site i) : OutKeeps w0 (execVrsqrt site i s) := by
  unfold execVrsqrt
  with_reducible repeat' first | intro _ | assumption | extract_lets | apply inv_vecApprox | apply out_ite | apply inv_next | apply inv_ite | apply inv_foldl | split | dsimp +zetaDelta only

theorem inv_execVrsum {s : State} (h : Keeps w0 s) (site i) : OutKeeps w0 (execVrsum site i s) := by
  unfold execVrsum
  with_reducible repeat' first | intro _ | assumption | extract_lets | apply inv_vecReduce | apply out_ite | apply inv_next | apply inv_ite | apply inv_foldl | split | dsimp +zetaDelta only

theorem inv_execVrt {s : State} (h : Keeps w0 s) (site i) : OutKeeps w0 (execVrt site i s) := by
  unfold execVrt
  with_reducible repeat' first | intro _ | assumption | extract_lets | apply inv_vecIssue | apply out_ite | apply inv_next | apply inv_ite | apply inv_foldl | split | dsimp +zetaDelta only

theorem inv_execVscatter {s : State} (h : Keeps w0 s) (site i) : OutKeeps w0 (execVscatter site i s) := by
  unfold execVscatter
  with_reducible repeat' first | intro _ | assumption | extract_lets | apply inv_vecMem | apply out_ite | apply inv_next | apply inv_ite | apply inv_foldl | split | dsimp +zetaDelta only

theorem inv_execVsel {s : State} (h : Keeps w0 s) (site i) : OutKeeps w0 (execVsel site i s) := by
  unfold execVsel
  with_reducible repeat' first | intro _ | assumption | extract_lets | apply inv_vecIssue | apply out_ite | apply inv_next | apply inv_ite | apply inv_foldl | split | dsimp +zetaDelta only

theorem inv_execVshl {s : State} (h : Keeps w0 s) (site i) : OutKeeps w0 (execVshl site i s) := by
  unfold execVshl
  with_reducible repeat' first | intro _ | assumption | extract_lets | apply inv_vecInt | apply out_ite | apply inv_next | apply inv_ite | apply inv_foldl | split | dsimp +zetaDelta only

theorem inv_execVshr {s : State} (h : Keeps w0 s) (site i) : OutKeeps w0 (execVshr site i s) := by
  unfold execVshr
  with_reducible repeat' first | intro _ | assumption | extract_lets | apply inv_vecInt | apply out_ite | apply inv_next | apply inv_ite | apply inv_foldl | split | dsimp +zetaDelta only

theorem inv_execVsigm {s : State} (h : Keeps w0 s) (site i) : OutKeeps w0 (execVsigm site i s) := by
  unfold execVsigm
  with_reducible repeat' first | intro _ | assumption | extract_lets | apply inv_vecApprox | apply out_ite | apply inv_next | apply inv_ite | apply inv_foldl | split | dsimp +zetaDelta only

theorem inv_execVsqrt {s : State} (h : Keeps w0 s) (site i) : OutKeeps w0 (execVsqrt site i s) := by
  unfold execVsqrt
  with_reducible repeat' first | intro _ | assumption | extract_lets | apply inv_vecIssue | apply out_ite | apply inv_next | apply inv_ite | apply inv_foldl | split | dsimp +zetaDelta only

theorem inv_execVsra {s : State} (h : Keeps w0 s) (site i) : OutKeeps w0 (execVsra site i s) := by
  unfold execVsra
  with_reducible repeat' first | intro _ | assumption | extract_lets | apply inv_vecInt | apply out_ite | apply inv_next | apply inv_ite | apply inv_foldl | split | dsimp +zetaDelta only

theorem inv_execVst {s : State} (h : Keeps w0 s) (site i) : OutKeeps w0 (execVst site i s) := by
  unfold execVst
  with_reducible repeat' first | intro _ | assumption | extract_lets | apply inv_vecMem | apply out_ite | apply inv_next | apply inv_ite | apply inv_foldl | split | dsimp +zetaDelta only

theorem inv_execVsub {s : State} (h : Keeps w0 s) (site i) : OutKeeps w0 (execVsub site i s) := by
  unfold execVsub
  with_reducible repeat' first | intro _ | assumption | extract_lets | apply inv_vecFloat | apply out_ite | apply inv_next | apply inv_ite | apply inv_foldl | split | dsimp +zetaDelta only

theorem inv_execVtanh {s : State} (h : Keeps w0 s) (site i) : OutKeeps w0 (execVtanh site i s) := by
  unfold execVtanh
  with_reducible repeat' first | intro _ | assumption | extract_lets | apply inv_vecApprox | apply out_ite | apply inv_next | apply inv_ite | apply inv_foldl | split | dsimp +zetaDelta only

theorem inv_execVtr {s : State} (h : Keeps w0 s) (site i) : OutKeeps w0 (execVtr site i s) := by
  unfold execVtr
  with_reducible repeat' first | intro _ | assumption | extract_lets | apply inv_vecIssue | apply out_ite | apply inv_next | apply inv_ite | apply inv_foldl | split | dsimp +zetaDelta only

theorem inv_execVxor {s : State} (h : Keeps w0 s) (site i) : OutKeeps w0 (execVxor site i s) := by
  unfold execVxor
  with_reducible repeat' first | intro _ | assumption | extract_lets | apply inv_vecInt | apply out_ite | apply inv_next | apply inv_ite | apply inv_foldl | split | dsimp +zetaDelta only

end Sys2Proof.Machine
end

