-- ==== Sys2Proof/Laws/InvSync.lean ====
section
/-!
SUPPORT. Every operation of Machine/Sync.lean keeps the canonical form of registers and memory, and the queue of commands.
-/
namespace Sys2Proof.Machine

variable {w0 : List Instr}

theorem inv_acquire {s : State} (h : Keeps w0 s) (site) : Keeps w0 (State.acquire s site) := by
  unfold State.acquire
  with_reducible repeat' first | intro _ | assumption | extract_lets | apply inv_bump | apply inv_modMover | apply inv_ite | apply inv_foldl | split | dsimp +zetaDelta only

theorem inv_armInject {s : State} (h : Keeps w0 s) (site v) : Keeps w0 (State.armInject s site v) := by
  unfold State.armInject
  with_reducible repeat' first | intro _ | assumption | extract_lets | apply inv_modSpire | apply inv_ite | apply inv_foldl | split | dsimp +zetaDelta only

theorem inv_cellReached {s : State} (h : Keeps w0 s) (site u) : Keeps w0 (State.cellReached s site u) := by
  unfold State.cellReached
  with_reducible repeat' first | intro _ | assumption | extract_lets | apply inv_runCycle | apply inv_modSpire | apply inv_runTo | apply inv_settleCells | apply inv_ite | apply inv_foldl | split | dsimp +zetaDelta only

theorem inv_holdEngine {s : State} (h : Keeps w0 s) (site e w t) : Keeps w0 (State.holdEngine s site e w t) := by
  unfold State.holdEngine
  with_reducible repeat' first | intro _ | assumption | extract_lets | apply inv_modEng | apply inv_issued | apply inv_ite | apply inv_foldl | split | dsimp +zetaDelta only

theorem inv_holdReached {s : State} (h : Keeps w0 s) (site h') : Keeps w0 (State.holdReached s site h') := by
  unfold State.holdReached
  with_reducible repeat' first | intro _ | assumption | extract_lets | apply inv_modSpire | apply inv_bump | apply inv_setReg | apply inv_note | apply inv_ite | apply inv_foldl | split | dsimp +zetaDelta only

theorem inv_illegalFault {s : State} (h : Keeps w0 s) (site e q) : Keeps w0 (State.illegalFault s site e q).2 := by
  unfold State.illegalFault
  with_reducible repeat' first | intro _ | assumption | extract_lets | apply inv_spireFault | apply inv_ite2 | apply inv_ite | apply inv_foldl | split | dsimp +zetaDelta only

theorem inv_jump {s : State} (h : Keeps w0 s) (site e target) : Keeps w0 (State.jump s site e target) := by
  unfold State.jump
  with_reducible repeat' first | intro _ | assumption | extract_lets | apply inv_modEng | apply inv_ite | apply inv_foldl | split | dsimp +zetaDelta only

theorem inv_syncIssue {s : State} (h : Keeps w0 s) (site e) {f : State → Nat → Nat → Option Nat × State} (hf : ∀ {s} t q, Keeps w0 s → Keeps w0 (f s t q).2) : Keeps w0 (s.syncIssue site e f) := by
  have k := inv_runTo (inv_ready h site e) site
  unfold State.syncIssue
  dsimp only
  refine inv_ite (inv_ready h ..) (inv_ite (k _) ?_)
  split
  · exact inv_ite (inv_bump (inv_issued (hf _ _ (k _)) ..) ..) (inv_issued (hf _ _ (k _)) ..)
  · exact hf _ _ (k _)

theorem inv_syncFault {s : State} (h : Keeps w0 s) (site e q) : Keeps w0 (State.syncFault s site e q).2 := by
  unfold State.syncFault
  with_reducible repeat' first | intro _ | assumption | extract_lets | apply inv_spireFault | apply inv_ite2 | apply inv_ite | apply inv_foldl | split | dsimp +zetaDelta only

theorem inv_localUpd {s : State} (h : Keeps w0 s) (site e c op ok) : Keeps w0 (State.localUpd s site e c op ok) := by
  unfold State.localUpd
  with_reducible repeat' first | intro _ | assumption | extract_lets | apply inv_syncIssue | apply inv_illegalFault | apply inv_syncFault | apply inv_pushUpd | apply inv_ite | apply inv_foldl | split | dsimp +zetaDelta only

theorem inv_nextEvent {s : State} (h : Keeps w0 s) (site) : Keeps w0 (State.nextEvent s site) := by
  unfold State.nextEvent
  with_reducible repeat' first | intro _ | assumption | extract_lets | apply inv_pump | apply inv_runTo | apply inv_runCycle | apply inv_ite | apply inv_foldl | split | dsimp +zetaDelta only

theorem inv_noteReps {s : State} (h : Keeps w0 s) (site e c) : Keeps w0 (State.noteReps s site e c) := by
  unfold State.noteReps
  with_reducible repeat' first | intro _ | assumption | extract_lets | apply inv_modEng | apply inv_ite | apply inv_foldl | split | dsimp +zetaDelta only

theorem inv_settlePauses {s : State} (h : Keeps w0 s) (site) : Keeps w0 (State.settlePauses s site) := by
  unfold State.settlePauses
  with_reducible repeat' first | intro _ | assumption | extract_lets | apply inv_finishCmd | apply inv_setTask | apply inv_ite | apply inv_foldl | split | dsimp +zetaDelta only

theorem inv_settlePause {s : State} (h : Keeps w0 s) (site) : Keeps w0 (State.settlePause s site) := by
  unfold State.settlePause
  with_reducible repeat' first | intro _ | assumption | extract_lets | apply inv_settlePauses | apply inv_setSpState | apply inv_ite | apply inv_foldl | split | dsimp +zetaDelta only

theorem inv_signalNow {s : State} (h : Keeps w0 s) (site p old) : Keeps w0 (State.signalNow s site p old).2 := by
  unfold State.signalNow
  with_reducible repeat' first | assumption | ((try lift_lets -underBinder); intro x; (try refine inv_cut x (fun _ => ?_) ?_); clear_value x) | apply inv_bump | apply inv_runTo | apply inv_cellReached | apply inv_ite2 | apply inv_ite | refine inv_pair ?_ (fun _ _ _ => ?_) | refine inv_foldl ?_ (fun _ _ _ => ?_) | split | dsimp +zetaDelta only

theorem inv_sramUe {s : State} (h : Keeps w0 s) (site memory) : Keeps w0 (State.sramUe s site memory) := by
  unfold State.sramUe
  with_reducible repeat' first | intro _ | assumption | extract_lets | apply inv_raise3 | apply inv_bump | apply inv_ite | apply inv_foldl | split | dsimp +zetaDelta only

theorem inv_upsetNext {s : State} (h : Keeps w0 s) (site r) : Keeps w0 (State.upsetNext s site r) := by
  unfold State.upsetNext
  with_reducible repeat' first | intro _ | assumption | extract_lets | apply inv_modSpire | apply inv_ite | apply inv_foldl | split | dsimp +zetaDelta only

theorem inv_waitOp {s : State} (h : Keeps w0 s) (site e c kind ok w) : Keeps w0 (State.waitOp s site e c kind ok w) := by
  unfold State.waitOp
  with_reducible repeat' first | intro _ | assumption | extract_lets | apply inv_syncIssue | apply inv_illegalFault | apply inv_syncFault | apply inv_holdEngine | apply inv_ite | apply inv_foldl | split | dsimp +zetaDelta only

theorem inv_writeCell {s : State} (h : Keeps w0 s) (site c v) : Keeps w0 (State.writeCell s site c v) := by
  unfold State.writeCell
  with_reducible repeat' first | intro _ | assumption | extract_lets | apply inv_cellReached | apply inv_ite | apply inv_foldl | split | dsimp +zetaDelta only

theorem inv_writeHoldLim {s : State} (h : Keeps w0 s) (site v) : Keeps w0 (State.writeHoldLim s site v) := by
  unfold State.writeHoldLim
  with_reducible repeat' first | intro _ | assumption | extract_lets | apply inv_setReg | apply inv_holdReached | apply inv_ite | apply inv_foldl | split | dsimp +zetaDelta only

theorem inv_writeSeed {s : State} (h : Keeps w0 s) (site v) : Keeps w0 (State.writeSeed s site v) := by
  unfold State.writeSeed
  with_reducible repeat' first | intro _ | assumption | extract_lets | apply inv_seedLanes | apply inv_setReg | apply inv_ite | apply inv_foldl | split | dsimp +zetaDelta only

theorem inv_execAdd {s : State} (h : Keeps w0 s) (site e c n) : OutKeeps w0 (execAdd site e c n s) := by
  unfold execAdd
  with_reducible repeat' first | intro _ | assumption | extract_lets | apply inv_localUpd | apply out_ite | apply inv_next | apply inv_ite | apply inv_foldl | split | dsimp +zetaDelta only

theorem inv_execBarrierArrival {s : State} (h : Keeps w0 s) (site p) : OutKeeps w0 (execBarrierArrival site p s) := by
  unfold execBarrierArrival
  with_reducible repeat' first | intro _ | assumption | extract_lets | apply inv_signalNow | apply out_ite | apply inv_next | apply inv_ite | apply inv_foldl | split | dsimp +zetaDelta only

theorem inv_execBarrierRelease {s : State} (h : Keeps w0 s) (site p) : OutKeeps w0 (execBarrierRelease site p s) := by
  unfold execBarrierRelease
  with_reducible repeat' first | intro _ | assumption | extract_lets | apply inv_signalNow | apply out_ite | apply inv_next | apply inv_ite | apply inv_foldl | split | dsimp +zetaDelta only

theorem inv_execBarrive {s : State} (h : Keeps w0 s) (site e c) : OutKeeps w0 (execBarrive site e c s) := by
  unfold execBarrive
  with_reducible repeat' first | intro _ | assumption | extract_lets | apply inv_syncIssue | apply inv_syncFault | apply inv_sendArrival | apply inv_startHold | apply inv_holdEngine | apply out_ite | apply inv_next | apply inv_ite | apply inv_foldl | split | dsimp +zetaDelta only

theorem inv_execBranch {s : State} (h : Keeps w0 s) (site c a b target) : OutKeeps w0 (execBranch site c a b target s) := by
  unfold execBranch
  refine inv_next (inv_syncIssue h site _ (fun {s} t q h => ?_))
  have k := inv_earlyReads h site 4 q (a.res ++ b.res) (fun _ => false) none
  generalize s.earlyReads site 4 q (a.res ++ b.res) (fun _ => false) none = x at k
  obtain ⟨go, u⟩ := x
  exact inv_ite2 k (inv_ite2 (inv_jump (inv_issued k ..) ..) k)

theorem inv_execBwait {s : State} (h : Keeps w0 s) (site e c k) : OutKeeps w0 (execBwait site e c k s) := by
  unfold execBwait
  with_reducible repeat' first | intro _ | assumption | extract_lets | apply inv_waitOp | apply out_ite | apply inv_next | apply inv_ite | apply inv_foldl | split | dsimp +zetaDelta only

theorem inv_execDec {s : State} (h : Keeps w0 s) (site e c n) : OutKeeps w0 (execDec site e c n s) := by
  unfold execDec
  with_reducible repeat' first | intro _ | assumption | extract_lets | apply inv_localUpd | apply out_ite | apply inv_next | apply inv_ite | apply inv_foldl | split | dsimp +zetaDelta only

theorem inv_execDrain {s : State} (h : Keeps w0 s) (site e c) : OutKeeps w0 (execDrain site e c s) := by
  unfold execDrain
  with_reducible repeat' first | intro _ | assumption | extract_lets | apply inv_localUpd | apply out_ite | apply inv_next | apply inv_ite | apply inv_foldl | split | dsimp +zetaDelta only

theorem inv_execEndStream {s : State} (h : Keeps w0 s) (site e) : OutKeeps w0 (execEndStream site e s) := by
  unfold execEndStream
  with_reducible repeat' first | intro _ | assumption | extract_lets | apply inv_syncIssue | apply inv_issued | apply inv_bump | apply inv_modEng | apply out_ite | apply inv_next | apply inv_ite | apply inv_foldl | split | dsimp +zetaDelta only

theorem inv_execEngineIssueResume {s : State} (h : Keeps w0 s) (site e) : OutKeeps w0 (execEngineIssueResume site e s) := by
  unfold execEngineIssueResume
  with_reducible repeat' first | intro _ | assumption | extract_lets | apply inv_pump | apply inv_resumeEngine | apply inv_runForResume | apply out_ite | apply inv_next | apply inv_ite | apply inv_foldl | split | dsimp +zetaDelta only

theorem inv_execFence {s : State} (h : Keeps w0 s) (site e w sg a) : OutKeeps w0 (execFence site e w sg a s) := by
  unfold execFence
  refine inv_next (inv_syncIssue h site _ (fun {s} t q h => ?_))
  refine inv_ite2 (inv_illegalFault h ..) ?_
  extract_lets +onlyGivenNames u
  have hu : Keeps w0 u := inv_ite (inv_acquire h ..) h
  clear_value u
  extract_lets +onlyGivenNames fw v
  have hv : Keeps w0 v := inv_holdEngine hu ..
  clear_value v
  exact inv_ite (inv_modEng hv ..) hv

theorem inv_execHoldLimWrite {s : State} (h : Keeps w0 s) (site v) : OutKeeps w0 (execHoldLimWrite site v s) := by
  unfold execHoldLimWrite
  with_reducible repeat' first | intro _ | assumption | extract_lets | apply inv_writeHoldLim | apply out_ite | apply inv_next | apply inv_ite | apply inv_foldl | split | dsimp +zetaDelta only

theorem inv_execInstructionFetchReturn {s : State} (h : Keeps w0 s) (site e n) : OutKeeps w0 (execInstructionFetchReturn site e n s) := by
  unfold execInstructionFetchReturn
  with_reducible repeat' first | intro _ | assumption | extract_lets | apply inv_spireFault | apply inv_modEng | apply out_ite | apply inv_next | apply inv_ite | apply inv_foldl | split | dsimp +zetaDelta only

theorem inv_execInstructionLanding {s : State} (h : Keeps w0 s) (site u) : OutKeeps w0 (execInstructionLanding site u s) := by
  unfold execInstructionLanding
  with_reducible repeat' first | intro _ | assumption | extract_lets | apply inv_settlePause | apply inv_nextEvent | apply inv_sramUe | apply inv_upsetNext | apply out_ite | apply inv_next | apply inv_ite | apply inv_foldl | split | dsimp +zetaDelta only

theorem inv_execRemoteSignalArrival {s : State} (h : Keeps w0 s) (site p) : OutKeeps w0 (execRemoteSignalArrival site p s) := by
  unfold execRemoteSignalArrival
  with_reducible repeat' first | intro _ | assumption | extract_lets | apply inv_signalNow | apply out_ite | apply inv_next | apply inv_ite | apply inv_foldl | split | dsimp +zetaDelta only

theorem inv_execRngSeedWrite {s : State} (h : Keeps w0 s) (site v) : OutKeeps w0 (execRngSeedWrite site v s) := by
  unfold execRngSeedWrite
  with_reducible repeat' first | intro _ | assumption | extract_lets | apply inv_writeSeed | apply out_ite | apply inv_next | apply inv_ite | apply inv_foldl | split | dsimp +zetaDelta only

theorem inv_execRsdInjectArm {s : State} (h : Keeps w0 s) (site v) : OutKeeps w0 (execRsdInjectArm site v s) := by
  unfold execRsdInjectArm
  with_reducible repeat' first | intro _ | assumption | extract_lets | apply inv_armInject | apply out_ite | apply inv_next | apply inv_ite | apply inv_foldl | split | dsimp +zetaDelta only

theorem inv_execScalarArithmetic {s : State} (h : Keeps w0 s) (site op d a b) : OutKeeps w0 (execScalarArithmetic site op d a b s) := by
  unfold execScalarArithmetic
  with_reducible repeat' first | intro _ | assumption | extract_lets | apply inv_issueFixed | apply inv_ready | apply out_ite | apply inv_next | apply inv_ite | apply inv_foldl | split | dsimp +zetaDelta only

theorem inv_execSig {s : State} (h : Keeps w0 s) (site e m l c op) : OutKeeps w0 (execSig site e m l c op s) := by
  unfold execSig
  refine inv_next (inv_syncIssue h site _ (fun {s} t q h => ?_))
  exact inv_ite2 (inv_illegalFault h ..) (inv_ite2 (inv_syncFault h ..) (inv_snd (inv_bump (inv_addOut (inv_sendSignal h ..) ..) ..)))

theorem inv_execSigMc {s : State} (h : Keeps w0 s) (site e g op) : OutKeeps w0 (execSigMc site e g op s) := by
  unfold execSigMc
  refine inv_next (inv_syncIssue h site _ (fun {s} t q h => ?_))
  refine inv_ite2 (inv_illegalFault h ..) ?_
  have k := inv_sendMulticast h site (engNo e) g (s.sigPay site (groupCell (s.syncGroup g)) op)
  generalize s.sendMulticast site (engNo e) g (s.sigPay site (groupCell (s.syncGroup g)) op) = x at k
  obtain ⟨n, u⟩ := x
  exact inv_snd (inv_bump (inv_addOut k ..) ..)

theorem inv_execSread {s : State} (h : Keeps w0 s) (site x c) : OutKeeps w0 (execSread site x c s) := by
  unfold execSread
  with_reducible repeat' first | intro _ | assumption | extract_lets | apply inv_issueFixed | apply inv_ready | apply out_ite | apply inv_next | apply inv_ite | apply inv_foldl | split | dsimp +zetaDelta only

theorem inv_execSyncBranch {s : State} (h : Keeps w0 s) (site e c target) : OutKeeps w0 (execSyncBranch site e c target s) := by
  unfold execSyncBranch
  refine inv_next (inv_syncIssue h site _ (fun {s} t q h => ?_))
  extract_lets +onlyGivenNames ok
  clear_value ok
  refine inv_ite2 (inv_illegalFault h ..) (inv_ite2 (inv_syncFault h ..) (inv_ite2 ?_ (inv_noteReps h ..)))
  extract_lets +onlyGivenNames u
  have hu : Keeps w0 u := inv_jump (inv_issued (inv_noteReps h ..) ..) ..
  clear_value u
  exact inv_ite (inv_bump hu ..) hu

theorem inv_execSyncCellWrite {s : State} (h : Keeps w0 s) (site c v) : OutKeeps w0 (execSyncCellWrite site c v s) := by
  unfold execSyncCellWrite
  with_reducible repeat' first | intro _ | assumption | extract_lets | apply inv_writeCell | apply out_ite | apply inv_next | apply inv_ite | apply inv_foldl | split | dsimp +zetaDelta only

theorem inv_execSyncFill {s : State} (h : Keeps w0 s) (site e c) : OutKeeps w0 (execSyncFill site e c s) := by
  unfold execSyncFill
  with_reducible repeat' first | intro _ | assumption | extract_lets | apply inv_localUpd | apply out_ite | apply inv_next | apply inv_ite | apply inv_foldl | split | dsimp +zetaDelta only

theorem inv_execSyncHoldLimitReached {s : State} (h : Keeps w0 s) (site c eng) : OutKeeps w0 (execSyncHoldLimitReached site c eng s) := by
  unfold execSyncHoldLimitReached
  with_reducible repeat' first | intro _ | assumption | extract_lets | apply inv_holdReached | apply out_ite | apply inv_next | apply inv_ite | apply inv_foldl | split | dsimp +zetaDelta only

theorem inv_execWaite {s : State} (h : Keeps w0 s) (site e c) : OutKeeps w0 (execWaite site e c s) := by
  unfold execWaite
  with_reducible repeat' first | intro _ | assumption | extract_lets | apply inv_waitOp | apply out_ite | apply inv_next | apply inv_ite | apply inv_foldl | split | dsimp +zetaDelta only

theorem inv_execWaitf {s : State} (h : Keeps w0 s) (site e c) : OutKeeps w0 (execWaitf site e c s) := by
  unfold execWaitf
  with_reducible repeat' first | intro _ | assumption | extract_lets | apply inv_waitOp | apply out_ite | apply inv_next | apply inv_ite | apply inv_foldl | split | dsimp +zetaDelta only

theorem inv_execWaitge {s : State} (h : Keeps w0 s) (site e c n) : OutKeeps w0 (execWaitge site e c n s) := by
  unfold execWaitge
  with_reducible repeat' first | intro _ | assumption | extract_lets | apply inv_waitOp | apply out_ite | apply inv_next | apply inv_ite | apply inv_foldl | split | dsimp +zetaDelta only

theorem inv_execWaitgeTake {s : State} (h : Keeps w0 s) (site e c n) : OutKeeps w0 (execWaitgeTake site e c n s) := by
  unfold execWaitgeTake
  refine inv_next (inv_syncIssue h site _ (fun {s} t q h => ?_))
  refine inv_ite2 (inv_illegalFault h ..) (inv_ite2 (inv_syncFault h ..) (inv_ite2 ?_ (inv_holdEngine h ..)))
  have k := inv_tryTake h site c n t
  generalize s.tryTake site c n t = x at k
  obtain ⟨b, u⟩ := x
  cases b with
  | true => exact k
  | false => exact inv_holdEngine k ..

end Sys2Proof.Machine
end

