-- ==== Sys2Proof/Laws/InvPods.lean ====
section
/-!
SUPPORT. Every operation of Machine/Pods.lean keeps the canonical form of registers and memory, and the queue of commands.
-/
namespace Sys2Proof.Machine

variable {w0 : List Instr}

theorem inv_putTable {s : State} (h : Keeps w0 s) (bank t es mask) : Keeps w0 (State.putTable s bank t es mask) := by
  unfold State.putTable
  with_reducible repeat' first | intro _ | assumption | extract_lets | apply inv_ite | apply inv_foldl | split | dsimp +zetaDelta only

theorem inv_buildDefault {s : State} (h : Keeps w0 s) (bank) : Keeps w0 (State.buildDefault s bank) := by
  unfold State.buildDefault
  with_reducible repeat' first | intro _ | assumption | extract_lets | apply inv_putTable | apply inv_ite | apply inv_foldl | split | dsimp +zetaDelta only

theorem inv_markFull {s : State} (h : Keeps w0 s) : Keeps w0 (State.markFull s) := by
  unfold State.markFull
  with_reducible repeat' first | intro _ | assumption | extract_lets | apply inv_showMirror | apply inv_ite | apply inv_foldl | split | dsimp +zetaDelta only

theorem inv_stopRollback {s : State} (h : Keeps w0 s) : Keeps w0 (State.stopRollback s) := by
  unfold State.stopRollback
  with_reducible repeat' first | intro _ | assumption | extract_lets | apply inv_finishCmd | apply inv_ite | apply inv_foldl | split | dsimp +zetaDelta only

theorem inv_streamEnded {s : State} (h : Keeps w0 s) (k x status) : Keeps w0 (State.streamEnded s k x status) := by
  unfold State.streamEnded
  with_reducible repeat' first | intro _ | assumption | extract_lets | apply inv_showMirror | apply inv_ite | apply inv_foldl | split | dsimp +zetaDelta only

theorem inv_execLinkSig {s : State} (h : Keeps w0 s) (n p) : OutKeeps w0 (execLinkSig n p s) := by
  unfold execLinkSig
  with_reducible repeat' first | intro _ | assumption | extract_lets | apply inv_takeInbox | apply inv_signalNow | apply inv_sendL | apply inv_inject | apply out_ite | apply inv_next | apply inv_ite | apply inv_foldl | split | dsimp +zetaDelta only

theorem inv_execLinkSigAck {s : State} (h : Keeps w0 s) (n p) : OutKeeps w0 (execLinkSigAck n p s) := by
  unfold execLinkSigAck
  with_reducible repeat' first | intro _ | assumption | extract_lets | apply inv_takeInbox | apply inv_sigDone | apply inv_wake | apply out_ite | apply inv_next | apply inv_ite | apply inv_foldl | split | dsimp +zetaDelta only

theorem inv_execMirrorAck {s : State} (h : Keeps w0 s) (n p) : OutKeeps w0 (execMirrorAck n p s) := by
  unfold execMirrorAck
  with_reducible repeat' first | intro _ | assumption | extract_lets | apply inv_takeInbox | apply inv_showMirror | apply inv_setReg | apply inv_event | apply out_ite | apply inv_next | apply inv_ite | apply inv_foldl | split | dsimp +zetaDelta only

theorem inv_execMirrorChunkCopy {s : State} (h : Keeps w0 s) (c) : OutKeeps w0 (execMirrorChunkCopy c s) := by
  unfold execMirrorChunkCopy
  with_reducible repeat' first | intro _ | assumption | extract_lets | apply inv_copyClosing | apply inv_sendChunk | apply out_ite | apply inv_next | apply inv_ite | apply inv_foldl | split | dsimp +zetaDelta only

theorem inv_execMirrorCommit {s : State} (h : Keeps w0 s) (n p) : OutKeeps w0 (execMirrorCommit n p s) := by
  unfold execMirrorCommit
  with_reducible repeat' first | intro _ | assumption | extract_lets | apply inv_takeInbox | apply inv_sendL | apply inv_writeMirrorRecord | apply out_ite | apply inv_next | apply inv_ite | apply inv_foldl | split | dsimp +zetaDelta only

theorem inv_execMirrorEpochComplete {s : State} (h : Keeps w0 s) : OutKeeps w0 (execMirrorEpochComplete s) := by
  unfold execMirrorEpochComplete
  with_reducible repeat' first | intro _ | assumption | extract_lets | apply inv_sendL | apply out_ite | apply inv_next | apply inv_ite | apply inv_foldl | split | dsimp +zetaDelta only

theorem inv_execStop {s : State} (h : Keeps w0 s) (n p) : OutKeeps w0 (execStop n p s) := by
  unfold execStop
  with_reducible repeat' first | intro _ | assumption | extract_lets | apply inv_takeInbox | apply inv_bump | apply inv_flood | apply inv_beginStop | apply inv_stopRollback | apply inv_putRecord | apply inv_settleStop | apply inv_noticeStop | apply out_ite | apply inv_next | apply inv_ite | apply inv_foldl | split | dsimp +zetaDelta only

theorem inv_execStopTimeout {s : State} (h : Keeps w0 s) : OutKeeps w0 (execStopTimeout s) := by
  unfold execStopTimeout
  with_reducible repeat' first | intro _ | assumption | extract_lets | apply inv_raise3 | apply out_ite | apply inv_next | apply inv_ite | apply inv_foldl | split | dsimp +zetaDelta only

theorem inv_execStreamAck {s : State} (h : Keeps w0 s) (n p) : OutKeeps w0 (execStreamAck n p s) := by
  unfold execStreamAck
  with_reducible repeat' first | intro _ | assumption | extract_lets | apply inv_takeInbox | apply inv_streamEnded | apply inv_ceErr | apply inv_raise | apply inv_endColl | apply out_ite | apply inv_next | apply inv_ite | apply inv_foldl | split | dsimp +zetaDelta only

end Sys2Proof.Machine
end

