-- ==== Sys2Proof/Laws/InvCanalRows.lean ====
section
/-!
SUPPORT. Every operation of Machine/CanalRows.lean keeps the canonical form of registers and memory, and the queue of commands.
-/
namespace Sys2Proof.Machine

variable {w0 : List Instr}

theorem inv_aqArrive {s : State} (h : Keeps w0 s) (dir ch p) : Keeps w0 (State.aqArrive s dir ch p) := by
  unfold State.aqArrive
  with_reducible repeat' first | intro _ | assumption | extract_lets | apply inv_bump | apply inv_drainChannel | apply inv_setRecv | apply inv_ite | apply inv_foldl | split | dsimp +zetaDelta only

theorem inv_aqErr {s : State} (h : Keeps w0 s) (dir ch reason) : Keeps w0 (State.aqErr s dir ch reason) := by
  unfold State.aqErr
  with_reducible repeat' first | intro _ | assumption | extract_lets | apply inv_record | apply inv_ite | apply inv_foldl | split | dsimp +zetaDelta only

theorem inv_setAqState {s : State} (h : Keeps w0 s) (dir v) : Keeps w0 (State.setAqState s dir v) := by
  unfold State.setAqState
  with_reducible repeat' first | intro _ | assumption | extract_lets | apply inv_setFld | apply inv_ite | apply inv_foldl | split | dsimp +zetaDelta only

theorem inv_aqReplay {s : State} (h : Keeps w0 s) (dir ch) : Keeps w0 (State.aqReplay s dir ch) := by
  unfold State.aqReplay
  with_reducible repeat' first | intro _ | assumption | extract_lets | apply inv_bump | apply inv_pushReinit | apply inv_setAqState | apply inv_aqErr | apply inv_ite | apply inv_foldl | split | dsimp +zetaDelta only

theorem inv_setForks {s : State} (h : Keeps w0 s) (site fs) : Keeps w0 (State.setForks s site fs) := by
  unfold State.setForks
  with_reducible repeat' first | intro _ | assumption | extract_lets | apply inv_ite | apply inv_foldl | split | dsimp +zetaDelta only

theorem inv_branchAcked {s : State} (h : Keeps w0 s) (site port src tag) : Keeps w0 (State.branchAcked s site port src tag) := by
  unfold State.branchAcked
  with_reducible repeat' first | intro _ | assumption | extract_lets | apply inv_setForks | apply inv_injectAt | apply inv_ite | apply inv_foldl | split | dsimp +zetaDelta only

theorem inv_canalUe {s : State} (h : Keeps w0 s) (site port) : Keeps w0 (State.canalUe s site port) := by
  unfold State.canalUe
  with_reducible repeat' first | intro _ | assumption | extract_lets | apply inv_raise3 | apply inv_bump | apply inv_ite | apply inv_foldl | split | dsimp +zetaDelta only

theorem inv_reachSite {s : State} (h : Keeps w0 s) (site) : Keeps w0 (State.reachSite s site) := by
  unfold State.reachSite
  with_reducible repeat' first | intro _ | assumption | extract_lets | apply inv_modSpire | apply inv_runTo | apply inv_ite | apply inv_foldl | split | dsimp +zetaDelta only

theorem inv_deliverCopy {s : State} (h : Keeps w0 s) (site p) : Keeps w0 (State.deliverCopy s site p) := by
  unfold State.deliverCopy
  with_reducible repeat' first | intro _ | assumption | extract_lets | apply inv_takeArrived | apply inv_signalNow | apply inv_store | apply inv_reachSite | apply inv_branchAcked | apply inv_ite | apply inv_foldl | split | dsimp +zetaDelta only

theorem inv_retiredHit {s : State} (h : Keeps w0 s) (a kind) : Keeps w0 (State.retiredHit s a kind) := by
  unfold State.retiredHit
  with_reducible repeat' first | intro _ | assumption | extract_lets | apply inv_bump | apply inv_raise | apply inv_ite | apply inv_foldl | split | dsimp +zetaDelta only

theorem inv_farTake {s : State} (h : Keeps w0 s) (p) : Keeps w0 (State.farTake s p) := by
  unfold State.farTake
  with_reducible repeat' first | intro _ | assumption | extract_lets | apply inv_respond | apply inv_bump | apply inv_takeArrived | apply inv_retiredHit | apply inv_ite | apply inv_foldl | split | dsimp +zetaDelta only

theorem inv_forkHead {s : State} (h : Keeps w0 s) (site port tc) : Keeps w0 (State.forkHead s site port tc) := by
  unfold State.forkHead
  with_reducible repeat' first | intro _ | assumption | extract_lets | apply inv_bump | apply inv_setForks | apply inv_ite | apply inv_foldl | split | dsimp +zetaDelta only

theorem inv_lanternStore {s : State} (h : Keeps w0 s) (a bs) : Keeps w0 (s.lanternStore a bs) := by
  unfold State.lanternStore
  generalize List.range (bs.length / 512 + 2) = l
  suffices k : ∀ (r : Nat × List Byte × State), Keeps w0 r.2.2 → Keeps w0 (l.foldl _ r).2.2 from k (a, bs, s) h
  induction l with
  | nil => intro r h; exact h
  | cons p l ih =>
    intro r h
    refine ih _ ?_
    obtain ⟨a, bs, s⟩ := r
    dsimp only at h ⊢
    refine inv_ite3 h (inv_ite (inv_retiredHit h ..) ?_)
    split
    · exact inv_ite (inv_store (inv_reachSite h ..) ..) h
    · exact inv_store h ..

theorem inv_sigAcked {s : State} (h : Keeps w0 s) (site tag) : Keeps w0 (State.sigAcked s site tag) := by
  unfold State.sigAcked
  with_reducible repeat' first | intro _ | assumption | extract_lets | apply inv_sigDone | apply inv_wake | apply inv_ite | apply inv_foldl | split | dsimp +zetaDelta only

theorem inv_mcDone {s : State} (h : Keeps w0 s) (p) : Keeps w0 (State.mcDone s p) := by
  unfold State.mcDone
  with_reducible repeat' first | intro _ | assumption | extract_lets | apply inv_takeArrived | apply inv_sigAcked | apply inv_sendL | apply inv_ite | apply inv_foldl | split | dsimp +zetaDelta only

theorem inv_reachAddr {s : State} (h : Keeps w0 s) (a) : Keeps w0 (State.reachAddr s a) := by
  unfold State.reachAddr
  with_reducible repeat' first | intro _ | assumption | extract_lets | apply inv_reachSite | apply inv_ite | apply inv_foldl | split | dsimp +zetaDelta only

theorem inv_sliceTakes {s : State} (h : Keeps w0 s) (p) : Keeps w0 (State.sliceTakes s p) := by
  unfold State.sliceTakes
  with_reducible repeat' first | intro _ | assumption | extract_lets | apply inv_ite | apply inv_foldl | split | dsimp +zetaDelta only

theorem inv_specWrite {s : State} (h : Keeps w0 s) (p) : Keeps w0 (State.specWrite s p) := by
  unfold State.specWrite
  with_reducible repeat' first | intro _ | assumption | extract_lets | apply inv_ackWrite | apply inv_holdWrite | apply inv_takeArrived | apply inv_countStall | apply inv_setEpState | apply inv_setEpoch | apply inv_ite | apply inv_foldl | split | dsimp +zetaDelta only

theorem inv_execAqueductFlitReceive {s : State} (h : Keeps w0 s) (dir ch r) : OutKeeps w0 (execAqueductFlitReceive dir ch r s) := by
  unfold execAqueductFlitReceive
  with_reducible repeat' first | intro _ | assumption | extract_lets | apply inv_bump | apply inv_aqReplay | apply inv_aqArrive | apply inv_setReplays | apply inv_freeFlits | apply out_ite | apply inv_next | apply inv_ite | apply inv_foldl | split | dsimp +zetaDelta only

theorem inv_execCanalSig {s : State} (h : Keeps w0 s) (p) : OutKeeps w0 (execCanalSig p s) := by
  unfold execCanalSig
  with_reducible repeat' first | intro _ | assumption | extract_lets | apply inv_respond | apply inv_signalNow | apply inv_takeArrived | apply out_ite | apply inv_next | apply inv_ite | apply inv_foldl | split | dsimp +zetaDelta only

theorem inv_execCanalSigAck {s : State} (h : Keeps w0 s) (p) : OutKeeps w0 (execCanalSigAck p s) := by
  unfold execCanalSigAck
  with_reducible repeat' first | intro _ | assumption | extract_lets | apply inv_sigAcked | apply inv_takeArrived | apply out_ite | apply inv_next | apply inv_ite | apply inv_foldl | split | dsimp +zetaDelta only

theorem inv_execCfg {s : State} (h : Keeps w0 s) (p) : OutKeeps w0 (execCfg p s) := by
  unfold execCfg
  with_reducible repeat' first | intro _ | assumption | extract_lets | apply inv_respond | apply inv_takeArrived | apply out_ite | apply inv_next | apply inv_ite | apply inv_foldl | split | dsimp +zetaDelta only

theorem inv_execCfgRsp {s : State} (h : Keeps w0 s) (p) : OutKeeps w0 (execCfgRsp p s) := by
  unfold execCfgRsp
  with_reducible repeat' first | intro _ | assumption | extract_lets | apply inv_takeArrived | apply out_ite | apply inv_next | apply inv_ite | apply inv_foldl | split | dsimp +zetaDelta only

theorem inv_execMc {s : State} (h : Keeps w0 s) (site w) : OutKeeps w0 (execMc site w s) := by
  unfold execMc
  with_reducible repeat' first | intro _ | assumption | extract_lets | apply inv_forkHead | apply inv_deliverCopy | apply out_ite | apply inv_next | apply inv_ite | apply inv_foldl | split | dsimp +zetaDelta only

theorem inv_execMcAck {s : State} (h : Keeps w0 s) (w) : OutKeeps w0 (execMcAck w s) := by
  unfold execMcAck
  with_reducible repeat' first | intro _ | assumption | extract_lets | apply inv_branchAcked | apply inv_mcDone | apply out_ite | apply inv_next | apply inv_ite | apply inv_foldl | split | dsimp +zetaDelta only

theorem inv_execMcBranchTimeout {s : State} (h : Keeps w0 s) (site port) : OutKeeps w0 (execMcBranchTimeout site port s) := by
  unfold execMcBranchTimeout
  with_reducible repeat' first | intro _ | assumption | extract_lets | apply inv_setForks | apply inv_record | apply inv_bump | apply inv_raise | apply inv_event | apply inv_note | apply out_ite | apply inv_next | apply inv_ite | apply inv_foldl | split | dsimp +zetaDelta only

theorem inv_execPacketForward {s : State} (h : Keeps w0 s) (site out w) : OutKeeps w0 (execPacketForward site out w s) := by
  unfold execPacketForward
  have k := inv_serveOutput h 9 site out
  generalize serveOutput 9 site out s = x at k
  obtain ⟨t, r⟩ := x
  cases r with
  | none => cases w <;> exact inv_next k
  | some p => cases w <;> first | exact inv_next (inv_afterSend k ..) | exact inv_next (inv_bump (inv_afterSend k ..) ..) | exact inv_next (inv_canalUe h ..)

theorem inv_execRd {s : State} (h : Keeps w0 s) (p) : OutKeeps w0 (execRd p s) := by
  unfold execRd
  with_reducible repeat' first | intro _ | assumption | extract_lets | apply inv_reachSite | apply inv_respond | apply inv_takeArrived | apply inv_sliceTakes | apply inv_retiredHit | apply inv_farTake | apply out_ite | apply inv_next | apply inv_ite | apply inv_foldl | split | dsimp +zetaDelta only

theorem inv_execRdData {s : State} (h : Keeps w0 s) (p) : OutKeeps w0 (execRdData p s) := by
  unfold execRdData
  with_reducible repeat' first | intro _ | assumption | extract_lets | apply inv_readData | apply inv_takeArrived | apply out_ite | apply inv_next | apply inv_ite | apply inv_foldl | split | dsimp +zetaDelta only

theorem inv_execWr {s : State} (h : Keeps w0 s) (p) : OutKeeps w0 (execWr p s) := by
  unfold execWr
  with_reducible repeat' first | intro _ | assumption | extract_lets | apply inv_reachSite | apply inv_ackWrite | apply inv_commitQuarters | apply inv_takeArrived | apply inv_noteHeld | apply inv_sliceTakes | apply inv_retiredHit | apply inv_specWrite | apply inv_farTake | apply out_ite | apply inv_next | apply inv_ite | apply inv_foldl | split | dsimp +zetaDelta only

theorem inv_execWrAck {s : State} (h : Keeps w0 s) (p) : OutKeeps w0 (execWrAck p s) := by
  unfold execWrAck
  with_reducible repeat' first | intro _ | assumption | extract_lets | apply inv_writeAck | apply inv_takeArrived | apply out_ite | apply inv_next | apply inv_ite | apply inv_foldl | split | dsimp +zetaDelta only

end Sys2Proof.Machine
end

