-- ==== Sys2Proof/Laws/InvGo.lean ====
section
/-!
SUPPORT. Every operation of Machine/Go.lean keeps the canonical form of registers and memory, and the queue of commands.
-/
namespace Sys2Proof.Machine

variable {w0 : List Instr}

theorem inv_refuseCmd {s : State} (h : Keeps w0 s) (id st r0) : Keeps w0 (State.refuseCmd s id st r0) := by
  unfold State.refuseCmd
  with_reducible repeat' first | intro _ | assumption | extract_lets | apply inv_jUpdate | apply inv_postCmd | apply inv_regrant | apply inv_ite | apply inv_foldl | split | dsimp +zetaDelta only

theorem inv_answer {s : State} (h : Keeps w0 s) (c x1) : Keeps w0 (State.answer s c x1) := by
  unfold State.answer
  with_reducible repeat' first | intro _ | assumption | extract_lets | apply inv_finishCmd | apply inv_startCmd | apply inv_delayCmd | apply inv_refuseCmd | apply inv_ite | apply inv_foldl | split | dsimp +zetaDelta only

theorem inv_attempt {s : State} (h : Keeps w0 s) (op id) {f : Cmd → State → Go × State} (hf : ∀ c {s}, Keeps w0 s → Keeps w0 (f c s).2) : Keeps w0 (s.attempt op id f) := by
  unfold State.attempt
  with_reducible repeat' first | assumption | apply inv_answer | apply hf | apply inv_delayCmd | apply inv_ite | split

end Sys2Proof.Machine
end

