-- ==== Sys2Proof/Laws/InvTasks.lean ====
section
/-!
SUPPORT. Every operation of Machine/Tasks.lean keeps the canonical form of registers and memory, and the queue of commands.
-/
namespace Sys2Proof.Machine

variable {w0 : List Instr}

theorem inv_endTask {s : State} (h : Keeps w0 s) (t) : Keeps w0 (State.endTask s t) := by
  unfold State.endTask
  with_reducible repeat' first | intro _ | assumption | extract_lets | apply inv_settleCells | apply inv_setFld | apply inv_setEpoch | apply inv_stopEngines | apply inv_setSpState | apply inv_setReg | apply inv_settleDoomed | apply inv_ended | apply inv_finishCmd | apply inv_settleStop | apply inv_ite | apply inv_foldl | split | dsimp +zetaDelta only

theorem inv_freezeRequests {s : State} (h : Keeps w0 s) (a n) : Keeps w0 (State.freezeRequests s a n).2 := by
  unfold State.freezeRequests
  with_reducible repeat' first | intro _ | assumption | extract_lets | apply inv_bump | apply inv_storeLE | apply inv_ite2 | apply inv_ite | apply inv_foldl | split | dsimp +zetaDelta only

theorem inv_prepareSpire {s : State} (h : Keeps w0 s) (site b handle cells) : Keeps w0 (State.prepareSpire s site b handle cells) := by
  unfold State.prepareSpire
  with_reducible repeat' first | intro _ | assumption | extract_lets | apply inv_settleCells | apply inv_setFlds | apply inv_setReg | apply inv_writeSeed | apply inv_setCell | apply inv_setFld | apply inv_modSpire | apply inv_ite | apply inv_foldl | split | dsimp +zetaDelta only

theorem inv_launch {s : State} (h : Keeps w0 s) (b handle cmd node cells) : Keeps w0 (State.launch s b handle cmd node cells).2 := by
  unfold State.launch
  with_reducible repeat' first | intro _ | assumption | extract_lets | apply inv_freezeRequests | apply inv_prepareSpire | apply inv_setTask | apply inv_showEpochTasks | apply inv_ite2 | apply inv_ite | apply inv_foldl | split | dsimp +zetaDelta only

theorem inv_pauseSpire {s : State} (h : Keeps w0 s) (site) : Keeps w0 (State.pauseSpire s site) := by
  unfold State.pauseSpire
  with_reducible repeat' first | intro _ | assumption | extract_lets | apply inv_abandonMover | apply inv_bump | apply inv_modSpire | apply inv_countHeld | apply inv_settlePause | apply inv_setSpState | apply inv_ite | apply inv_foldl | split | dsimp +zetaDelta only

theorem inv_resumeSpire {s : State} (h : Keeps w0 s) (site) : Keeps w0 (State.resumeSpire s site) := by
  unfold State.resumeSpire
  with_reducible repeat' first | intro _ | assumption | extract_lets | apply inv_setSpState | apply inv_runTo | apply inv_modSpire | apply inv_wake | apply inv_restartMover | apply inv_ite | apply inv_foldl | split | dsimp +zetaDelta only

theorem inv_cmdAbort {s : State} (h : Keeps w0 s) (c) : Keeps w0 (cmdAbort c s).2 := by
  unfold cmdAbort
  with_reducible repeat' first | intro _ | assumption | extract_lets | apply inv_abortSpire | apply inv_setTask | apply inv_raise | apply inv_ite2 | apply inv_ite | apply inv_foldl | split | dsimp +zetaDelta only

theorem inv_cmdLaunch {s : State} (h : Keeps w0 s) (c) : Keeps w0 (cmdLaunch c s).2 := by
  unfold cmdLaunch
  with_reducible repeat' first | intro _ | assumption | extract_lets | apply inv_launch | apply inv_ite2 | apply inv_ite | apply inv_foldl | split | dsimp +zetaDelta only

theorem inv_cmdPause {s : State} (h : Keeps w0 s) (c) : Keeps w0 (cmdPause c s).2 := by
  unfold cmdPause
  with_reducible repeat' first | intro _ | assumption | extract_lets | apply inv_pauseSpire | apply inv_setTask | apply inv_ite2 | apply inv_ite | apply inv_foldl | split | dsimp +zetaDelta only

theorem inv_cmdProgramLoad {s : State} (h : Keeps w0 s) (c) : Keeps w0 (cmdProgramLoad c s).2 := by
  unfold cmdProgramLoad
  with_reducible repeat' first | intro _ | assumption | extract_lets  | apply inv_ite2 | apply inv_ite | apply inv_foldl | split | dsimp +zetaDelta only

theorem inv_cmdProgramUnload {s : State} (h : Keeps w0 s) (c) : Keeps w0 (cmdProgramUnload c s).2 := by
  unfold cmdProgramUnload
  with_reducible repeat' first | intro _ | assumption | extract_lets  | apply inv_ite2 | apply inv_ite | apply inv_foldl | split | dsimp +zetaDelta only

theorem inv_cmdResume {s : State} (h : Keeps w0 s) (c) : Keeps w0 (cmdResume c s).2 := by
  unfold cmdResume
  with_reducible repeat' first | intro _ | assumption | extract_lets | apply inv_resumeSpire | apply inv_ite2 | apply inv_ite | apply inv_foldl | split | dsimp +zetaDelta only

theorem inv_cmdTaskQuery {s : State} (h : Keeps w0 s) (c) : Keeps w0 (cmdTaskQuery c s).2 := by
  unfold cmdTaskQuery
  with_reducible repeat' first | intro _ | assumption | extract_lets  | apply inv_ite2 | apply inv_ite | apply inv_foldl | split | dsimp +zetaDelta only

theorem inv_execAbort {s : State} (h : Keeps w0 s) (id) : OutKeeps w0 (execAbort id s) := by
  unfold execAbort
  with_reducible repeat' first | intro _ | assumption | extract_lets | apply inv_attempt | apply inv_cmdAbort | apply out_ite | apply inv_next | apply inv_ite | apply inv_foldl | split | dsimp +zetaDelta only

theorem inv_execLaunch {s : State} (h : Keeps w0 s) (id) : OutKeeps w0 (execLaunch id s) := by
  unfold execLaunch
  with_reducible repeat' first | intro _ | assumption | extract_lets | apply inv_attempt | apply inv_cmdLaunch | apply out_ite | apply inv_next | apply inv_ite | apply inv_foldl | split | dsimp +zetaDelta only

theorem inv_execPause {s : State} (h : Keeps w0 s) (id) : OutKeeps w0 (execPause id s) := by
  unfold execPause
  with_reducible repeat' first | intro _ | assumption | extract_lets | apply inv_attempt | apply inv_cmdPause | apply out_ite | apply inv_next | apply inv_ite | apply inv_foldl | split | dsimp +zetaDelta only

theorem inv_execProgramLoad {s : State} (h : Keeps w0 s) (id) : OutKeeps w0 (execProgramLoad id s) := by
  unfold execProgramLoad
  with_reducible repeat' first | intro _ | assumption | extract_lets | apply inv_attempt | apply inv_cmdProgramLoad | apply out_ite | apply inv_next | apply inv_ite | apply inv_foldl | split | dsimp +zetaDelta only

theorem inv_execProgramUnload {s : State} (h : Keeps w0 s) (id) : OutKeeps w0 (execProgramUnload id s) := by
  unfold execProgramUnload
  with_reducible repeat' first | intro _ | assumption | extract_lets | apply inv_attempt | apply inv_cmdProgramUnload | apply out_ite | apply inv_next | apply inv_ite | apply inv_foldl | split | dsimp +zetaDelta only

theorem inv_execResume {s : State} (h : Keeps w0 s) (id) : OutKeeps w0 (execResume id s) := by
  unfold execResume
  with_reducible repeat' first | intro _ | assumption | extract_lets | apply inv_attempt | apply inv_cmdResume | apply out_ite | apply inv_next | apply inv_ite | apply inv_foldl | split | dsimp +zetaDelta only

theorem inv_execSpireFinished {s : State} (h : Keeps w0 s) (site) : OutKeeps w0 (execSpireFinished site s) := by
  unfold execSpireFinished
  with_reducible repeat' first | intro _ | assumption | extract_lets | apply inv_settleCells | apply inv_setTask | apply inv_setSpState | apply out_ite | apply inv_next | apply inv_ite | apply inv_foldl | split | dsimp +zetaDelta only

theorem inv_execSpireStart {s : State} (h : Keeps w0 s) (site) : OutKeeps w0 (execSpireStart site s) := by
  unfold execSpireStart
  with_reducible repeat' first | intro _ | assumption | extract_lets | apply inv_setSpire | apply out_ite | apply inv_next | apply inv_ite | apply inv_foldl | split | dsimp +zetaDelta only

theorem inv_execTaskCompletion {s : State} (h : Keeps w0 s) (handle) : OutKeeps w0 (execTaskCompletion handle s) := by
  unfold execTaskCompletion
  with_reducible repeat' first | intro _ | assumption | extract_lets | apply inv_endTask | apply out_ite | apply inv_next | apply inv_ite | apply inv_foldl | split | dsimp +zetaDelta only

theorem inv_execTaskQuery {s : State} (h : Keeps w0 s) (id) : OutKeeps w0 (execTaskQuery id s) := by
  unfold execTaskQuery
  with_reducible repeat' first | intro _ | assumption | extract_lets | apply inv_attempt | apply inv_cmdTaskQuery | apply out_ite | apply inv_next | apply inv_ite | apply inv_foldl | split | dsimp +zetaDelta only

theorem inv_execTaskWatchdogExpiry {s : State} (h : Keeps w0 s) (handle) : OutKeeps w0 (execTaskWatchdogExpiry handle s) := by
  unfold execTaskWatchdogExpiry
  with_reducible repeat' first | intro _ | assumption | extract_lets | apply inv_abortSpire | apply inv_raise | apply out_ite | apply inv_next | apply inv_ite | apply inv_foldl | split | dsimp +zetaDelta only

end Sys2Proof.Machine
end

