-- ==== Sys2Proof/Laws/InvJobCommands.lean ====
section
/-!
SUPPORT. Every operation of Machine/JobCommands.lean keeps the canonical form of registers and memory, and the queue of commands.
-/
namespace Sys2Proof.Machine

variable {w0 : List Instr}

theorem inv_axisTables {s : State} (h : Keeps w0 s) (r) : Keeps w0 (State.axisTables s r) := by
  unfold State.axisTables
  with_reducible repeat' first | intro _ | assumption | extract_lets | apply inv_putTable | apply inv_ite | apply inv_foldl | split | dsimp +zetaDelta only

theorem inv_setScale {s : State} (h : Keeps w0 s) (exp clean consec steps) : Keeps w0 (State.setScale s exp clean consec steps) := by
  unfold State.setScale
  with_reducible repeat' first | intro _ | assumption | extract_lets | apply inv_setReg | apply inv_setFlds | apply inv_ite | apply inv_foldl | split | dsimp +zetaDelta only

theorem inv_jobStarted {s : State} (h : Keeps w0 s) (c rejoin) : Keeps w0 (State.jobStarted s c rejoin) := by
  unfold State.jobStarted
  with_reducible repeat' first | assumption | apply inv_setFld | apply inv_setReg | apply inv_setFlds | apply inv_axisTables | apply inv_writeStepEntry | apply inv_setScale | apply inv_ite | apply inv_foldl | intro _ | split | extract_lets | dsimp +zetaDelta only

theorem inv_rejoinPair {s : State} (h : Keeps w0 s) (x0) : Keeps w0 (State.rejoinPair s x0) := by
  unfold State.rejoinPair
  with_reducible repeat' first | assumption | apply inv_setFlds | apply inv_partnerUp | apply inv_markFull | apply inv_showMirror | apply inv_ite | apply inv_foldl | intro _ | split | extract_lets | dsimp +zetaDelta only

theorem inv_jobReply {s : State} (h : Keeps w0 s) (c x1) : Keeps w0 (State.jobReply s c x1).2 := by
  unfold State.jobReply
  with_reducible repeat' first | intro _ | assumption | extract_lets | apply inv_jobStarted | apply inv_rejoinPair | apply inv_ite2 | apply inv_ite | apply inv_foldl | split | dsimp +zetaDelta only

theorem inv_mapReady {s : State} (h : Keeps w0 s) : Keeps w0 (State.mapReady s) := by
  unfold State.mapReady
  with_reducible repeat' first | intro _ | assumption | extract_lets | apply inv_ite | apply inv_foldl | split | dsimp +zetaDelta only

theorem inv_pairConfirmed {s : State} (h : Keeps w0 s) (c full cs) : Keeps w0 (State.pairConfirmed s c full cs) := by
  unfold State.pairConfirmed
  with_reducible repeat' first | assumption | apply inv_setFlds | apply inv_partnerUp | apply inv_markFull | apply inv_showMirror | apply inv_ite | apply inv_foldl | intro _ | split | extract_lets | dsimp +zetaDelta only

theorem inv_pairReply {s : State} (h : Keeps w0 s) (c x1) : Keeps w0 (State.pairReply s c x1).2 := by
  unfold State.pairReply
  with_reducible repeat' first | intro _ | assumption | extract_lets | apply inv_pairConfirmed | apply inv_ite2 | apply inv_ite | apply inv_foldl | split | dsimp +zetaDelta only

theorem inv_setMap {s : State} (h : Keeps w0 s) (l pos) : Keeps w0 (State.setMap s l pos) := by
  unfold State.setMap
  with_reducible repeat' first | intro _ | assumption | extract_lets | apply inv_setReg | apply inv_ite | apply inv_foldl | split | dsimp +zetaDelta only

theorem inv_showLogical {s : State} (h : Keeps w0 s) : Keeps w0 (State.showLogical s) := by
  unfold State.showLogical
  with_reducible repeat' first | intro _ | assumption | extract_lets | apply inv_setFlds | apply inv_ite | apply inv_foldl | split | dsimp +zetaDelta only

theorem inv_showStq {s : State} (h : Keeps w0 s) (q) : Keeps w0 (State.showStq s q) := by
  unfold State.showStq
  with_reducible repeat' first | intro _ | assumption | extract_lets | apply inv_setFlds | apply inv_setReg | apply inv_ite | apply inv_foldl | split | dsimp +zetaDelta only

theorem inv_takeMap {s : State} (h : Keeps w0 s) (c) : Keeps w0 (State.takeMap s c) := by
  unfold State.takeMap
  with_reducible repeat' first | assumption | apply inv_setMap | apply inv_showLogical | apply inv_setFld | apply inv_buildDefault | apply inv_ite | apply inv_foldl | intro _ | split | extract_lets | dsimp +zetaDelta only

theorem inv_cmdCanalGroupsLoad {s : State} (h : Keeps w0 s) (c) : Keeps w0 (cmdCanalGroupsLoad c s).2 := by
  unfold cmdCanalGroupsLoad
  with_reducible repeat' first | intro _ | assumption | extract_lets  | apply inv_ite2 | apply inv_ite | apply inv_foldl | split | dsimp +zetaDelta only

theorem inv_cmdJobEnd {s : State} (h : Keeps w0 s) (c) : Keeps w0 (cmdJobEnd c s).2 := by
  unfold cmdJobEnd
  with_reducible repeat' first | intro _ | assumption | extract_lets | apply inv_setReg | apply inv_ite2 | apply inv_ite | apply inv_foldl | split | dsimp +zetaDelta only

theorem inv_cmdJobStart {s : State} (h : Keeps w0 s) (r c) : Keeps w0 (cmdJobStart r c s).2 := by
  unfold cmdJobStart
  with_reducible repeat' first | intro _ | assumption | extract_lets | apply inv_jobReply | apply inv_ite2 | apply inv_ite | apply inv_foldl | split | dsimp +zetaDelta only

theorem inv_cmdJobStop {s : State} (h : Keeps w0 s) (c) : Keeps w0 (cmdJobStop c s).2 := by
  unfold cmdJobStop
  with_reducible repeat' first | intro _ | assumption | extract_lets | apply inv_newStopId | apply inv_sendStop | apply inv_ite2 | apply inv_ite | apply inv_foldl | split | dsimp +zetaDelta only

theorem inv_cmdMirrorClose {s : State} (h : Keeps w0 s) (c) : Keeps w0 (cmdMirrorClose c s).2 := by
  unfold cmdMirrorClose
  with_reducible repeat' first | intro _ | assumption | extract_lets | apply inv_showMirror | apply inv_ite2 | apply inv_ite | apply inv_foldl | split | dsimp +zetaDelta only

theorem inv_cmdPair {s : State} (h : Keeps w0 s) (r c) : Keeps w0 (cmdPair r c s).2 := by
  unfold cmdPair
  with_reducible repeat' first | intro _ | assumption | extract_lets | apply inv_pairReply | apply inv_ite2 | apply inv_ite | apply inv_foldl | split | dsimp +zetaDelta only

theorem inv_cmdPhaseListLoad {s : State} (h : Keeps w0 s) (c) : Keeps w0 (cmdPhaseListLoad c s).2 := by
  unfold cmdPhaseListLoad
  with_reducible repeat' first | intro _ | assumption | extract_lets | apply inv_setFld | apply inv_putTable | apply inv_ite2 | apply inv_ite | apply inv_foldl | split | dsimp +zetaDelta only

theorem inv_cmdPodConfig {s : State} (h : Keeps w0 s) (c) : Keeps w0 (cmdPodConfig c s).2 := by
  unfold cmdPodConfig
  with_reducible repeat' first | intro _ | assumption | extract_lets | apply inv_takeMap | apply inv_releaseHeld | apply inv_showParent | apply inv_mapReady | apply inv_ite2 | apply inv_ite | apply inv_foldl | split | dsimp +zetaDelta only

theorem inv_cmdStageqLoad {s : State} (h : Keeps w0 s) (bad c) : Keeps w0 (cmdStageqLoad bad c s).2 := by
  unfold cmdStageqLoad
  with_reducible repeat' first | intro _ | assumption | extract_lets | apply inv_showStq | apply inv_setReg | apply inv_ite2 | apply inv_ite | apply inv_foldl | split | dsimp +zetaDelta only

theorem inv_cmdSubstitute {s : State} (h : Keeps w0 s) (c) : Keeps w0 (cmdSubstitute c s).2 := by
  unfold cmdSubstitute
  with_reducible repeat' first | intro _ | assumption | extract_lets | apply inv_partnerDown | apply inv_showLogical | apply inv_setMap | apply inv_buildDefault | apply inv_putTable | apply inv_markFull | apply inv_setPhase | apply inv_ite2 | apply inv_ite | apply inv_foldl | split | dsimp +zetaDelta only

theorem inv_cmdSyncGroupsLoad {s : State} (h : Keeps w0 s) (c) : Keeps w0 (cmdSyncGroupsLoad c s).2 := by
  unfold cmdSyncGroupsLoad
  with_reducible repeat' first | intro _ | assumption | extract_lets  | apply inv_ite2 | apply inv_ite | apply inv_foldl | split | dsimp +zetaDelta only

theorem inv_execCanalGroupsLoad {s : State} (h : Keeps w0 s) (id) : OutKeeps w0 (execCanalGroupsLoad id s) := by
  unfold execCanalGroupsLoad
  with_reducible repeat' first | intro _ | assumption | extract_lets | apply inv_attempt | apply inv_cmdCanalGroupsLoad | apply out_ite | apply inv_next | apply inv_ite | apply inv_foldl | split | dsimp +zetaDelta only

theorem inv_execJobEnd {s : State} (h : Keeps w0 s) (id) : OutKeeps w0 (execJobEnd id s) := by
  unfold execJobEnd
  with_reducible repeat' first | intro _ | assumption | extract_lets | apply inv_attempt | apply inv_cmdJobEnd | apply out_ite | apply inv_next | apply inv_ite | apply inv_foldl | split | dsimp +zetaDelta only

theorem inv_execJobStart {s : State} (h : Keeps w0 s) (id r) : OutKeeps w0 (execJobStart id r s) := by
  unfold execJobStart
  with_reducible repeat' first | intro _ | assumption | extract_lets | apply inv_jobReply | apply inv_answer | apply inv_attempt | apply inv_cmdJobStart | apply out_ite | apply inv_next | apply inv_ite | apply inv_foldl | split | dsimp +zetaDelta only

theorem inv_execJobStop {s : State} (h : Keeps w0 s) (id) : OutKeeps w0 (execJobStop id s) := by
  unfold execJobStop
  with_reducible repeat' first | intro _ | assumption | extract_lets | apply inv_attempt | apply inv_cmdJobStop | apply out_ite | apply inv_next | apply inv_ite | apply inv_foldl | split | dsimp +zetaDelta only

theorem inv_execMirrorClose {s : State} (h : Keeps w0 s) (id) : OutKeeps w0 (execMirrorClose id s) := by
  unfold execMirrorClose
  with_reducible repeat' first | intro _ | assumption | extract_lets | apply inv_attempt | apply inv_cmdMirrorClose | apply out_ite | apply inv_next | apply inv_ite | apply inv_foldl | split | dsimp +zetaDelta only

theorem inv_execPair {s : State} (h : Keeps w0 s) (id r) : OutKeeps w0 (execPair id r s) := by
  unfold execPair
  with_reducible repeat' first | intro _ | assumption | extract_lets | apply inv_pairReply | apply inv_answer | apply inv_attempt | apply inv_cmdPair | apply out_ite | apply inv_next | apply inv_ite | apply inv_foldl | split | dsimp +zetaDelta only

theorem inv_execPairConfirmTimeout {s : State} (h : Keeps w0 s) (id) : OutKeeps w0 (execPairConfirmTimeout id s) := by
  unfold execPairConfirmTimeout
  with_reducible repeat' first | intro _ | assumption | extract_lets | apply inv_finishCmd | apply out_ite | apply inv_next | apply inv_ite | apply inv_foldl | split | dsimp +zetaDelta only

theorem inv_execPhaseListLoad {s : State} (h : Keeps w0 s) (id) : OutKeeps w0 (execPhaseListLoad id s) := by
  unfold execPhaseListLoad
  with_reducible repeat' first | intro _ | assumption | extract_lets | apply inv_attempt | apply inv_cmdPhaseListLoad | apply out_ite | apply inv_next | apply inv_ite | apply inv_foldl | split | dsimp +zetaDelta only

theorem inv_execPodConfig {s : State} (h : Keeps w0 s) (id) : OutKeeps w0 (execPodConfig id s) := by
  unfold execPodConfig
  with_reducible repeat' first | intro _ | assumption | extract_lets | apply inv_attempt | apply inv_cmdPodConfig | apply out_ite | apply inv_next | apply inv_ite | apply inv_foldl | split | dsimp +zetaDelta only

theorem inv_execStageqLoad {s : State} (h : Keeps w0 s) (id bad) : OutKeeps w0 (execStageqLoad id bad s) := by
  unfold execStageqLoad
  with_reducible repeat' first | intro _ | assumption | extract_lets | apply inv_attempt | apply inv_cmdStageqLoad | apply out_ite | apply inv_next | apply inv_ite | apply inv_foldl | split | dsimp +zetaDelta only

theorem inv_execSubstitute {s : State} (h : Keeps w0 s) (id) : OutKeeps w0 (execSubstitute id s) := by
  unfold execSubstitute
  with_reducible repeat' first | intro _ | assumption | extract_lets | apply inv_attempt | apply inv_cmdSubstitute | apply out_ite | apply inv_next | apply inv_ite | apply inv_foldl | split | dsimp +zetaDelta only

theorem inv_execSyncGroupsLoad {s : State} (h : Keeps w0 s) (id) : OutKeeps w0 (execSyncGroupsLoad id s) := by
  unfold execSyncGroupsLoad
  with_reducible repeat' first | intro _ | assumption | extract_lets | apply inv_attempt | apply inv_cmdSyncGroupsLoad | apply out_ite | apply inv_next | apply inv_ite | apply inv_foldl | split | dsimp +zetaDelta only

end Sys2Proof.Machine
end

