-- ==== Sys2Proof/Laws/InvBasin.lean ====
section
/-!
SUPPORT. Every operation of Machine/Basin.lean keeps the canonical form of registers and memory, and the queue of commands.
-/
namespace Sys2Proof.Machine

variable {w0 : List Instr}

theorem inv_basinReinit {s : State} (h : Keeps w0 s) (cmd) : Keeps w0 (State.basinReinit s cmd) := by
  unfold State.basinReinit
  with_reducible repeat' first | intro _ | assumption | extract_lets | apply inv_pushReinit | apply inv_setFld | apply inv_abandonCapture | apply inv_ite | apply inv_foldl | split | dsimp +zetaDelta only

theorem inv_bsnErr {s : State} (h : Keeps w0 s) (reason source die blk) : Keeps w0 (State.bsnErr s reason source die blk) := by
  unfold State.bsnErr
  with_reducible repeat' first | intro _ | assumption | extract_lets | apply inv_record | apply inv_note | apply inv_ite | apply inv_foldl | split | dsimp +zetaDelta only

theorem inv_restoreStep {s : State} (h : Keeps w0 s) (e) : Keeps w0 (State.restoreStep s e) := by
  unfold State.restoreStep
  with_reducible repeat' first | assumption | apply inv_setScale | apply inv_writeStepEntry | apply inv_ite | apply inv_foldl | intro _ | split | extract_lets | dsimp +zetaDelta only

theorem inv_markRegions {s : State} (h : Keeps w0 s) (rs) : Keeps w0 (State.markRegions s rs) := by
  unfold State.markRegions
  with_reducible repeat' first | intro _ | assumption | extract_lets | apply inv_ite | apply inv_foldl | split | dsimp +zetaDelta only

theorem inv_landedFromPartner {s : State} (h : Keeps w0 s) (step) : Keeps w0 (State.landedFromPartner s step) := by
  unfold State.landedFromPartner
  with_reducible repeat' first | intro _ | assumption | extract_lets | apply inv_restoreStep | apply inv_markRegions | apply inv_ite | apply inv_foldl | split | dsimp +zetaDelta only

theorem inv_setBlock {s : State} (h : Keeps w0 s) (k b) : Keeps w0 (State.setBlock s k b) := by
  unfold State.setBlock
  with_reducible repeat' first | intro _ | assumption | extract_lets | apply inv_ite | apply inv_foldl | split | dsimp +zetaDelta only

theorem inv_showBasin {s : State} (h : Keeps w0 s) : Keeps w0 (State.showBasin s) := by
  unfold State.showBasin
  with_reducible repeat' first | intro _ | assumption | extract_lets | apply inv_setFld | apply inv_setFlds | apply inv_note | apply inv_ite | apply inv_foldl | split | dsimp +zetaDelta only

theorem inv_moveBlock {s : State} (h : Keeps w0 s) (k dst) : Keeps w0 (State.moveBlock s k dst) := by
  unfold State.moveBlock
  with_reducible repeat' first | intro _ | assumption | extract_lets | apply inv_setBlock | apply inv_showBasin | apply inv_bump | apply inv_ite | apply inv_foldl | split | dsimp +zetaDelta only

theorem inv_patrolRead {s : State} (h : Keeps w0 s) (k) : Keeps w0 (State.patrolRead s k) := by
  unfold State.patrolRead
  with_reducible repeat' first | intro _ | assumption | extract_lets | apply inv_ite | apply inv_foldl | split | dsimp +zetaDelta only

theorem inv_regionFails {s : State} (h : Keeps w0 s) (x0) : Keeps w0 (State.regionFails s x0) := by
  unfold State.regionFails
  with_reducible repeat' first | intro _ | assumption | extract_lets | apply inv_bsnErr | apply inv_bump | apply inv_ite | apply inv_foldl | split | dsimp +zetaDelta only

theorem inv_relocate {s : State} (h : Keeps w0 s) (k dst ctr) : Keeps w0 (State.relocate s k dst ctr) := by
  unfold State.relocate
  with_reducible repeat' first | intro _ | assumption | extract_lets | apply inv_bump | apply inv_moveBlock | apply inv_ite | apply inv_foldl | split | dsimp +zetaDelta only

theorem inv_restoreOwn {s : State} (h : Keeps w0 s) (k bad) : Keeps w0 (s.restoreOwn k bad).2 := by
  have ov : ∀ (m sec : Memory) (b l : Nat), Memory.wf m → Memory.wf (overlay m sec b l) := by
    intro m sec b l hm
    unfold overlay
    extract_lets inside
    have hf : Memory.wf (m.filter (fun c => !inside c.1)) := Memory.wf_filter _ hm
    generalize m.filter (fun c => !inside c.1) = m' at hf
    generalize sec.filter (fun c => inside c.1) = l
    induction l generalizing m' with
    | nil => exact hf
    | cons c l ih => exact ih _ (Memory.wf_writeByte _ _ hf)
  have ovs : ∀ (l : List CkRegion) (m : Memory), Memory.wf m → Memory.wf (l.foldl (fun m r => overlay m k.own r.base r.len) m) := by
    intro l
    induction l with
    | nil => exact fun _ hm => hm
    | cons r l ih => exact fun m hm => ih _ (ov _ _ _ _ hm)
  unfold State.restoreOwn
  extract_lets +onlyGivenNames rs good
  clear_value rs good
  extract_lets +onlyGivenNames a
  have ha : Keeps w0 a := ⟨h.1, ovs good _ h.2.1, h.2.2⟩
  clear_value a
  extract_lets +onlyGivenNames b c
  with_reducible have hb : Keeps w0 b := inv_bump ha _ _
  clear_value b
  with_reducible have hc : Keeps w0 c := inv_markRegions hb _
  clear_value c
  split
  · exact inv_ite2 (inv_regionFails hc ..) (inv_restoreStep hc _)
  · exact inv_restoreStep hc _

theorem inv_restoreFrom {s : State} (h : Keeps w0 s) (c e source bad r) : Keeps w0 (State.restoreFrom s c e source bad r).2 := by
  unfold State.restoreFrom
  with_reducible repeat' first | intro _ | assumption | extract_lets | apply inv_restoreOwn | apply inv_landedFromPartner | apply inv_ite2 | apply inv_ite | apply inv_foldl | split | dsimp +zetaDelta only

theorem inv_restoreHeard {s : State} (h : Keeps w0 s) (r) : Keeps w0 (State.restoreHeard s r).2 := by
  unfold State.restoreHeard
  with_reducible repeat' first | intro _ | assumption | extract_lets | apply inv_landedFromPartner | apply inv_ite2 | apply inv_ite | apply inv_foldl | split | dsimp +zetaDelta only

theorem inv_retireBlock {s : State} (h : Keeps w0 s) (k dst reason source) : Keeps w0 (State.retireBlock s k dst reason source) := by
  unfold State.retireBlock
  with_reducible repeat' first | intro _ | assumption | extract_lets | apply inv_setBlock | apply inv_bsnErr | apply inv_showBasin | apply inv_ite | apply inv_foldl | split | dsimp +zetaDelta only

theorem inv_rolledBack {s : State} (h : Keeps w0 s) (source inplace n) : Keeps w0 (State.rolledBack s source inplace n) := by
  unfold State.rolledBack
  with_reducible repeat' first | intro _ | assumption | extract_lets | apply inv_setFld | apply inv_bump | apply inv_markFull | apply inv_showMirror | apply inv_ite | apply inv_foldl | split | dsimp +zetaDelta only

theorem inv_sanitize {s : State} (h : Keeps w0 s) : Keeps w0 (State.sanitize s) := by
  unfold State.sanitize
  with_reducible repeat' first | intro _ | assumption | extract_lets | apply inv_setFld | apply inv_ite | apply inv_foldl | split | dsimp +zetaDelta only

theorem inv_cmdBasinInfo {s : State} (h : Keeps w0 s) (x) : Keeps w0 (cmdBasinInfo x s).2 := by
  unfold cmdBasinInfo
  with_reducible repeat' first | intro _ | assumption | extract_lets  | apply inv_ite2 | apply inv_ite | apply inv_foldl | split | dsimp +zetaDelta only

theorem inv_cmdCkptDelete {s : State} (h : Keeps w0 s) (c) : Keeps w0 (cmdCkptDelete c s).2 := by
  unfold cmdCkptDelete
  with_reducible repeat' first | intro _ | assumption | extract_lets | apply inv_showBasin | apply inv_ite2 | apply inv_ite | apply inv_foldl | split | dsimp +zetaDelta only

theorem inv_cmdCkptList {s : State} (h : Keeps w0 s) (c) : Keeps w0 (cmdCkptList c s).2 := by
  unfold cmdCkptList
  with_reducible repeat' first | intro _ | assumption | extract_lets | apply inv_lanternStore | apply inv_ite2 | apply inv_ite | apply inv_foldl | split | dsimp +zetaDelta only

theorem inv_cmdCkptRestore {s : State} (h : Keeps w0 s) (bad r c) : Keeps w0 (cmdCkptRestore bad r c s).2 := by
  unfold cmdCkptRestore
  with_reducible repeat' first | intro _ | assumption | extract_lets | apply inv_restoreFrom | apply inv_ite2 | apply inv_ite | apply inv_foldl | split | dsimp +zetaDelta only

theorem inv_cmdCkptWrite {s : State} (h : Keeps w0 s) (c) : Keeps w0 (cmdCkptWrite c s).2 := by
  unfold cmdCkptWrite
  with_reducible repeat' first | intro _ | assumption | extract_lets | apply inv_bump | apply inv_setFld | apply inv_setReg | apply inv_showBasin | apply inv_showCapture | apply inv_ite2 | apply inv_ite | apply inv_foldl | split | dsimp +zetaDelta only

theorem inv_cmdRollback {s : State} (h : Keeps w0 s) (bad r spec c) : Keeps w0 (cmdRollback bad r spec c s).2 := by
  unfold cmdRollback
  extract_lets +onlyGivenNames n src
  refine inv_ite2 h (inv_ite2 (inv_rolledBack (inv_restoreStep h _) ..) ?_)
  have k := inv_restoreFrom h c n (if src = 1 then 1 else 0) bad r
  generalize s.restoreFrom c n (if src = 1 then 1 else 0) bad r = x at k
  obtain ⟨g, u⟩ := x
  split
  · rename_i e; cases e; exact inv_rolledBack k ..
  · exact k

theorem inv_execBasinCodewordRead {s : State} (h : Keeps w0 s) (k who r) : OutKeeps w0 (execBasinCodewordRead k who r s) := by
  unfold execBasinCodewordRead
  with_reducible repeat' first | intro _ | assumption | extract_lets | apply inv_setBlock | apply inv_bump | apply inv_bsnErr | apply inv_finishCmd | apply inv_setFld | apply out_ite | apply inv_next | apply inv_ite | apply inv_foldl | split | dsimp +zetaDelta only

theorem inv_execBasinControllerTimeout {s : State} (h : Keeps w0 s) : OutKeeps w0 (execBasinControllerTimeout s) := by
  unfold execBasinControllerTimeout
  with_reducible repeat' first | intro _ | assumption | extract_lets | apply inv_basinReinit | apply out_ite | apply inv_next | apply inv_ite | apply inv_foldl | split | dsimp +zetaDelta only

theorem inv_execBasinInfo {s : State} (h : Keeps w0 s) (id) : OutKeeps w0 (execBasinInfo id s) := by
  unfold execBasinInfo
  with_reducible repeat' first | intro _ | assumption | extract_lets | apply inv_attempt | apply inv_cmdBasinInfo | apply out_ite | apply inv_next | apply inv_ite | apply inv_foldl | split | dsimp +zetaDelta only

theorem inv_execCkptCaptureChunk {s : State} (h : Keeps w0 s) : OutKeeps w0 (execCkptCaptureChunk s) := by
  unfold execCkptCaptureChunk
  with_reducible repeat' first | intro _ | assumption | extract_lets | apply inv_showCapture | apply inv_captureChunk | apply out_ite | apply inv_next | apply inv_ite | apply inv_foldl | split | dsimp +zetaDelta only

theorem inv_execCkptCaptureComplete {s : State} (h : Keeps w0 s) : OutKeeps w0 (execCkptCaptureComplete s) := by
  unfold execCkptCaptureComplete
  with_reducible repeat' first | intro _ | assumption | extract_lets | apply inv_setFld | apply inv_setReg | apply inv_bump | apply inv_showBasin | apply inv_finishCmd | apply out_ite | apply inv_next | apply inv_ite | apply inv_foldl | split | dsimp +zetaDelta only

theorem inv_execCkptDelete {s : State} (h : Keeps w0 s) (id) : OutKeeps w0 (execCkptDelete id s) := by
  unfold execCkptDelete
  with_reducible repeat' first | intro _ | assumption | extract_lets | apply inv_attempt | apply inv_cmdCkptDelete | apply out_ite | apply inv_next | apply inv_ite | apply inv_foldl | split | dsimp +zetaDelta only

theorem inv_execCkptList {s : State} (h : Keeps w0 s) (id) : OutKeeps w0 (execCkptList id s) := by
  unfold execCkptList
  with_reducible repeat' first | intro _ | assumption | extract_lets | apply inv_attempt | apply inv_cmdCkptList | apply out_ite | apply inv_next | apply inv_ite | apply inv_foldl | split | dsimp +zetaDelta only

theorem inv_execCkptRestore {s : State} (h : Keeps w0 s) (id bad r) : OutKeeps w0 (execCkptRestore id bad r s) := by
  unfold execCkptRestore
  with_reducible repeat' first | intro _ | assumption | extract_lets | apply inv_restoreHeard | apply inv_finishCmd | apply inv_attempt | apply inv_cmdCkptRestore | apply out_ite | apply inv_next | apply inv_ite | apply inv_foldl | split | dsimp +zetaDelta only

theorem inv_execCkptWrite {s : State} (h : Keeps w0 s) (id) : OutKeeps w0 (execCkptWrite id s) := by
  unfold execCkptWrite
  with_reducible repeat' first | intro _ | assumption | extract_lets | apply inv_attempt | apply inv_cmdCkptWrite | apply out_ite | apply inv_next | apply inv_ite | apply inv_foldl | split | dsimp +zetaDelta only

theorem inv_execNandEraseFailure {s : State} (h : Keeps w0 s) (k) : OutKeeps w0 (execNandEraseFailure k s) := by
  unfold execNandEraseFailure
  with_reducible repeat' first | intro _ | assumption | extract_lets | apply inv_retireBlock | apply out_ite | apply inv_next | apply inv_ite | apply inv_foldl | split | dsimp +zetaDelta only

theorem inv_execNandProgramFailure {s : State} (h : Keeps w0 s) (k dst journal) : OutKeeps w0 (execNandProgramFailure k dst journal s) := by
  unfold execNandProgramFailure
  with_reducible repeat' first | intro _ | assumption | extract_lets | apply inv_retireBlock | apply out_ite | apply inv_next | apply inv_ite | apply inv_foldl | split | dsimp +zetaDelta only

theorem inv_execPatrolRead {s : State} (h : Keeps w0 s) (k weak) : OutKeeps w0 (execPatrolRead k weak s) := by
  unfold execPatrolRead
  with_reducible repeat' first | intro _ | assumption | extract_lets | apply inv_patrolRead | apply inv_setBlock | apply inv_relocate | apply out_ite | apply inv_next | apply inv_ite | apply inv_foldl | split | dsimp +zetaDelta only

theorem inv_execReadDisturbRelocate {s : State} (h : Keeps w0 s) (k dst) : OutKeeps w0 (execReadDisturbRelocate k dst s) := by
  unfold execReadDisturbRelocate
  with_reducible repeat' first | intro _ | assumption | extract_lets | apply inv_relocate | apply out_ite | apply inv_next | apply inv_ite | apply inv_foldl | split | dsimp +zetaDelta only

theorem inv_execRetentionRefresh {s : State} (h : Keeps w0 s) (k dst) : OutKeeps w0 (execRetentionRefresh k dst s) := by
  unfold execRetentionRefresh
  with_reducible repeat' first | intro _ | assumption | extract_lets | apply inv_relocate | apply out_ite | apply inv_next | apply inv_ite | apply inv_foldl | split | dsimp +zetaDelta only

theorem inv_execRollback {s : State} (h : Keeps w0 s) (id bad r spec) : OutKeeps w0 (execRollback id bad r spec s) := by
  unfold execRollback
  with_reducible repeat' first | intro _ | assumption | extract_lets | apply inv_restoreHeard | apply inv_finishCmd | apply inv_rolledBack | apply inv_attempt | apply inv_cmdRollback | apply out_ite | apply inv_next | apply inv_ite | apply inv_foldl | split | dsimp +zetaDelta only

theorem inv_execSanitize {s : State} (h : Keeps w0 s) : OutKeeps w0 (execSanitize s) := by
  unfold execSanitize
  with_reducible repeat' first | intro _ | assumption | extract_lets | apply inv_sanitize | apply out_ite | apply inv_next | apply inv_ite | apply inv_foldl | split | dsimp +zetaDelta only

theorem inv_execSanitizeComplete {s : State} (h : Keeps w0 s) : OutKeeps w0 (execSanitizeComplete s) := by
  unfold execSanitizeComplete
  with_reducible repeat' first | intro _ | assumption | extract_lets | apply inv_showBasin | apply inv_setFld | apply out_ite | apply inv_next | apply inv_ite | apply inv_foldl | split | dsimp +zetaDelta only

theorem inv_execStaticLevelling {s : State} (h : Keeps w0 s) (n dst) : OutKeeps w0 (execStaticLevelling n dst s) := by
  unfold execStaticLevelling
  with_reducible repeat' first | intro _ | assumption | extract_lets | apply inv_bump | apply inv_moveBlock | apply out_ite | apply inv_next | apply inv_ite | apply inv_foldl | split | dsimp +zetaDelta only

end Sys2Proof.Machine
end

