-- ==== Sys2Proof/Laws/InvEpochs.lean ====
section
/-!
SUPPORT. Every operation of Machine/Epochs.lean keeps the canonical form of registers and memory, and the queue of commands.
-/
namespace Sys2Proof.Machine

variable {w0 : List Instr}

theorem inv_commitSlot {s : State} (h : Keeps w0 s) (k) : Keeps w0 (State.commitSlot s k) := by
  unfold State.commitSlot
  with_reducible repeat' first | assumption | apply inv_commitQuarters | apply inv_setFld | apply inv_setEpoch | apply inv_bump | apply inv_setEpState | apply inv_setFlds | apply inv_State_retryHeld | apply inv_ite | apply inv_foldl | intro _ | split | extract_lets | dsimp +zetaDelta only

theorem inv_writeSpecCtl {s : State} (h : Keeps w0 s) (v) : Keeps w0 (State.writeSpecCtl s v) := by
  unfold State.writeSpecCtl
  with_reducible repeat' first | intro _ | assumption | extract_lets | apply inv_setFlds | apply inv_setFld | apply inv_ite | apply inv_foldl | split | dsimp +zetaDelta only

theorem inv_cmdEpochCommit {s : State} (h : Keeps w0 s) (c) : Keeps w0 (cmdEpochCommit c s).2 := by
  unfold cmdEpochCommit
  with_reducible repeat' first | intro _ | assumption | extract_lets | apply inv_commitSlot | apply inv_ite2 | apply inv_ite | apply inv_foldl | split | dsimp +zetaDelta only

theorem inv_cmdEpochDiscard {s : State} (h : Keeps w0 s) (c) : Keeps w0 (cmdEpochDiscard c s).2 := by
  unfold cmdEpochDiscard
  with_reducible repeat' first | intro _ | assumption | extract_lets | apply inv_discardSlot | apply inv_ite2 | apply inv_ite | apply inv_foldl | split | dsimp +zetaDelta only

theorem inv_cmdEpochOpen {s : State} (h : Keeps w0 s) (c) : Keeps w0 (cmdEpochOpen c s).2 := by
  unfold cmdEpochOpen
  with_reducible repeat' first | intro _ | assumption | extract_lets | apply inv_setFlds | apply inv_setReg | apply inv_setEpoch | apply inv_ite2 | apply inv_ite | apply inv_foldl | split | dsimp +zetaDelta only

theorem inv_execEpochCommit {s : State} (h : Keeps w0 s) (id) : OutKeeps w0 (execEpochCommit id s) := by
  unfold execEpochCommit
  with_reducible repeat' first | intro _ | assumption | extract_lets | apply inv_attempt | apply inv_cmdEpochCommit | apply out_ite | apply inv_next | apply inv_ite | apply inv_foldl | split | dsimp +zetaDelta only

theorem inv_execEpochCommitInstant {s : State} (h : Keeps w0 s) (k) : OutKeeps w0 (execEpochCommitInstant k s) := by
  unfold execEpochCommitInstant
  with_reducible repeat' first | intro _ | assumption | extract_lets | apply inv_commitSlot | apply inv_attempt | apply inv_cmdEpochCommit | apply out_ite | apply inv_next | apply inv_ite | apply inv_foldl | split | dsimp +zetaDelta only

theorem inv_execEpochDiscard {s : State} (h : Keeps w0 s) (id) : OutKeeps w0 (execEpochDiscard id s) := by
  unfold execEpochDiscard
  with_reducible repeat' first | intro _ | assumption | extract_lets | apply inv_attempt | apply inv_cmdEpochDiscard | apply out_ite | apply inv_next | apply inv_ite | apply inv_foldl | split | dsimp +zetaDelta only

theorem inv_execEpochDrainComplete {s : State} (h : Keeps w0 s) (k) : OutKeeps w0 (execEpochDrainComplete k s) := by
  unfold execEpochDrainComplete
  with_reducible repeat' first | intro _ | assumption | extract_lets | apply inv_settleStop | apply inv_freeSlot | apply out_ite | apply inv_next | apply inv_ite | apply inv_foldl | split | dsimp +zetaDelta only

theorem inv_execEpochOpen {s : State} (h : Keeps w0 s) (id) : OutKeeps w0 (execEpochOpen id s) := by
  unfold execEpochOpen
  with_reducible repeat' first | intro _ | assumption | extract_lets | apply inv_attempt | apply inv_cmdEpochOpen | apply out_ite | apply inv_next | apply inv_ite | apply inv_foldl | split | dsimp +zetaDelta only

theorem inv_execEpochStallLimit {s : State} (h : Keeps w0 s) (k) : OutKeeps w0 (execEpochStallLimit k s) := by
  unfold execEpochStallLimit
  with_reducible repeat' first | intro _ | assumption | extract_lets | apply inv_bump | apply inv_setEpoch | apply inv_note | apply inv_event | apply out_ite | apply inv_next | apply inv_ite | apply inv_foldl | split | dsimp +zetaDelta only

theorem inv_execSpecCtlWrite {s : State} (h : Keeps w0 s) (v) : OutKeeps w0 (execSpecCtlWrite v s) := by
  unfold execSpecCtlWrite
  with_reducible repeat' first | intro _ | assumption | extract_lets | apply inv_writeSpecCtl | apply out_ite | apply inv_next | apply inv_ite | apply inv_foldl | split | dsimp +zetaDelta only

end Sys2Proof.Machine
end

