-- ==== Sys2Proof/Laws/InvCollectives.lean ====
section
/-!
SUPPORT. Every operation of Machine/Collectives.lean keeps the canonical form of registers and memory, and the queue of commands.
-/
namespace Sys2Proof.Machine

variable {w0 : List Instr}

theorem inv_setColl {s : State} (h : Keeps w0 s) (q c) : Keeps w0 (State.setColl s q c) := by
  unfold State.setColl
  with_reducible repeat' first | intro _ | assumption | extract_lets | apply inv_ite | apply inv_foldl | split | dsimp +zetaDelta only

theorem inv_modColl {s : State} (h : Keeps w0 s) (q f) : Keeps w0 (State.modColl s q f) := by
  unfold State.modColl
  with_reducible repeat' first | intro _ | assumption | extract_lets | apply inv_setColl | apply inv_ite | apply inv_foldl | split | dsimp +zetaDelta only

theorem inv_active {s : State} (h : Keeps w0 s) (q) : Keeps w0 (State.active s q) := by
  unfold State.active
  with_reducible repeat' first | intro _ | assumption | extract_lets | apply inv_modColl | apply inv_ite | apply inv_foldl | split | dsimp +zetaDelta only

theorem inv_beginColl {s : State} (h : Keeps w0 s) (q w) : Keeps w0 (State.beginColl s q w) := by
  unfold State.beginColl
  with_reducible repeat' first | intro _ | assumption | extract_lets | apply inv_showEngine | apply inv_bump | apply inv_setColl | apply inv_ite | apply inv_foldl | split | dsimp +zetaDelta only

theorem inv_collAddressFault {s : State} (h : Keeps w0 s) (q) : Keeps w0 (State.collAddressFault s q) := by
  unfold State.collAddressFault
  with_reducible repeat' first | intro _ | assumption | extract_lets | apply inv_ceErr | apply inv_raise | apply inv_endColl | apply inv_ite | apply inv_foldl | split | dsimp +zetaDelta only

theorem inv_collReady {s : State} (h : Keeps w0 s) (q) : Keeps w0 (State.collReady s q) := by
  unfold State.collReady
  with_reducible repeat' first | intro _ | assumption | extract_lets | apply inv_collAddressFault | apply inv_setColl | apply inv_pageFault | apply inv_ite | apply inv_foldl | split | dsimp +zetaDelta only

theorem inv_collSend {s : State} (h : Keeps w0 s) (q j kind addr header body data) : Keeps w0 (State.collSend s q j kind addr header body data) := by
  unfold State.collSend
  with_reducible repeat' first | intro _ | assumption | extract_lets | apply inv_active | apply inv_endColl | apply inv_ceErr | apply inv_openStream | apply inv_modColl | apply inv_ite | apply inv_foldl | split | dsimp +zetaDelta only

theorem inv_writePiece {s : State} (h : Keeps w0 s) (c b i bs) : Keeps w0 (State.writePiece s c b i bs) := by
  unfold State.writePiece
  with_reducible repeat' first | intro _ | assumption | extract_lets | apply inv_jobStore | apply inv_ite | apply inv_foldl | split | dsimp +zetaDelta only

theorem inv_sendParts {s : State} (h : Keeps w0 s) (q me body ps) : Keeps w0 (State.sendParts s q me body ps) := by
  unfold State.sendParts
  with_reducible repeat' first | intro _ | assumption | extract_lets | apply inv_bump | apply inv_collSend | apply inv_ite | apply inv_foldl | split | dsimp +zetaDelta only

theorem inv_holdPiece {s : State} (h : Keeps w0 s) (q me i first vs) : Keeps w0 (State.holdPiece s q me i first vs) := by
  unfold State.holdPiece
  with_reducible repeat' first | intro _ | assumption | extract_lets | apply inv_modColl | apply inv_writePiece | apply inv_sendParts | apply inv_ite | apply inv_foldl | split | dsimp +zetaDelta only

theorem inv_startNext {s : State} (h : Keeps w0 s) (q) : Keeps w0 (State.startNext s q) := by
  unfold State.startNext
  with_reducible repeat' first | intro _ | assumption | extract_lets | apply inv_beginColl | apply inv_endColl | apply inv_collReady | apply inv_ite | apply inv_foldl | split | dsimp +zetaDelta only

theorem inv_queueColl {s : State} (h : Keeps w0 s) (q w) : Keeps w0 (State.queueColl s q w) := by
  unfold State.queueColl
  with_reducible repeat' first | intro _ | assumption | extract_lets | apply inv_startNext | apply inv_ite | apply inv_foldl | split | dsimp +zetaDelta only

theorem inv_settleRings {s : State} (h : Keeps w0 s) (q) : Keeps w0 (State.settleRings s q) := by
  unfold State.settleRings
  with_reducible repeat' first | intro _ | assumption | extract_lets | apply inv_jobStore | apply inv_modColl | apply inv_ite | apply inv_foldl | split | dsimp +zetaDelta only

theorem inv_startGroup {s : State} (h : Keeps w0 s) (q first len bucketed) : Keeps w0 (State.startGroup s q first len bucketed) := by
  unfold State.startGroup
  with_reducible repeat' first | intro _ | assumption | extract_lets | apply inv_bump | apply inv_setColl | apply inv_modColl | apply inv_writePiece | apply inv_sendParts | apply inv_holdPiece | apply inv_settleRings | apply inv_ite | apply inv_foldl | split | dsimp +zetaDelta only

theorem inv_cmdCollective {s : State} (h : Keeps w0 s) (c) : Keeps w0 (cmdCollective c s).2 := by
  unfold cmdCollective
  with_reducible repeat' first | intro _ | assumption | extract_lets | apply inv_queueColl | apply inv_ite2 | apply inv_ite | apply inv_foldl | split | dsimp +zetaDelta only

end Sys2Proof.Machine
end

