-- ==== Sys2Proof/Laws/InvStepEnd.lean ====
section
/-!
SUPPORT. Every operation of Machine/StepEnd.lean keeps the canonical form of registers and memory, and the queue of commands.
-/
namespace Sys2Proof.Machine

variable {w0 : List Instr}

theorem inv_stepBegin {s : State} (h : Keeps w0 s) (d cmd node dst) : Keeps w0 (State.stepBegin s d cmd node dst) := by
  unfold State.stepBegin
  with_reducible repeat' first | intro _ | assumption | extract_lets | apply inv_setReg | apply inv_jobStore | apply inv_queueColl | apply inv_ite | apply inv_foldl | split | dsimp +zetaDelta only

theorem inv_stepState {s : State} (h : Keeps w0 s) (x o) : Keeps w0 (State.stepState s x o) := by
  unfold State.stepState
  with_reducible repeat' first | intro _ | assumption | extract_lets | apply inv_bump | apply inv_setScale | apply inv_event | apply inv_note | apply inv_ite | apply inv_foldl | split | dsimp +zetaDelta only

theorem inv_stepEpoch {s : State} (h : Keeps w0 s) (d o) : Keeps w0 (State.stepEpoch s d o).2 := by
  unfold State.stepEpoch
  with_reducible repeat' first | intro _ | assumption | extract_lets | apply inv_commitSlot | apply inv_setEpoch | apply inv_discardSlot | apply inv_ite2 | apply inv_ite | apply inv_foldl | split | dsimp +zetaDelta only

theorem inv_stepDecide {s : State} (h : Keeps w0 s) (x) : Keeps w0 (State.stepDecide s x) := by
  unfold State.stepDecide
  with_reducible repeat' first | intro _ | assumption | extract_lets | apply inv_stepState | apply inv_stepEpoch | apply inv_writeStepEntry | apply inv_addToCell | apply inv_jobStore | apply inv_event | apply inv_ended | apply inv_raise | apply inv_ite | apply inv_foldl | split | dsimp +zetaDelta only

theorem inv_cmdStepEnd {s : State} (h : Keeps w0 s) (c) : Keeps w0 (cmdStepEnd c s).2 := by
  unfold cmdStepEnd
  with_reducible repeat' first | intro _ | assumption | extract_lets | apply inv_stepBegin | apply inv_ite2 | apply inv_ite | apply inv_foldl | split | dsimp +zetaDelta only

theorem inv_execStepEnd {s : State} (h : Keeps w0 s) (id) : OutKeeps w0 (execStepEnd id s) := by
  unfold execStepEnd
  with_reducible repeat' first | intro _ | assumption | extract_lets | apply inv_attempt | apply inv_cmdStepEnd | apply out_ite | apply inv_next | apply inv_ite | apply inv_foldl | split | dsimp +zetaDelta only

end Sys2Proof.Machine
end

