-- ==== Sys2Proof/Laws/InvTokens.lean ====
section
/-!
SUPPORT. Every operation of Machine/Tokens.lean keeps the canonical form of registers and memory, and the queue of commands.
-/
namespace Sys2Proof.Machine

variable {w0 : List Instr}

theorem inv_sendRun {s : State} (h : Keeps w0 s) (q d x r) : Keeps w0 (State.sendRun s q d x r) := by
  unfold State.sendRun
  with_reducible repeat' first | intro _ | assumption | extract_lets | apply inv_openStream | apply inv_collSend | apply inv_ite | apply inv_foldl | split | dsimp +zetaDelta only

theorem inv_sendCopies {s : State} (h : Keeps w0 s) (q d cs slots origins) : Keeps w0 (State.sendCopies s q d cs slots origins) := by
  unfold State.sendCopies
  with_reducible repeat' first | intro _ | assumption | extract_lets | apply inv_sendRun | apply inv_ite | apply inv_foldl | split | dsimp +zetaDelta only

theorem inv_sendCounts {s : State} (h : Keeps w0 s) (q c) : Keeps w0 (State.sendCounts s q c) := by
  unfold State.sendCounts
  with_reducible repeat' first | intro _ | assumption | extract_lets | apply inv_setColl | apply inv_ceErr | apply inv_collSend | apply inv_ite | apply inv_foldl | split | dsimp +zetaDelta only

theorem inv_startRedispatch {s : State} (h : Keeps w0 s) (q c) : Keeps w0 (State.startRedispatch s q c) := by
  unfold State.startRedispatch
  with_reducible repeat' first | intro _ | assumption | extract_lets | apply inv_setColl | apply inv_sendCopies | apply inv_ite | apply inv_foldl | split | dsimp +zetaDelta only

theorem inv_startReturn {s : State} (h : Keeps w0 s) (q c) : Keeps w0 (State.startReturn s q c) := by
  unfold State.startReturn
  with_reducible repeat' first | intro _ | assumption | extract_lets | apply inv_jobStore | apply inv_setColl | apply inv_collSend | apply inv_ite | apply inv_foldl | split | dsimp +zetaDelta only

theorem inv_takeBack {s : State} (h : Keeps w0 s) (q ks rows) : Keeps w0 (State.takeBack s q ks rows) := by
  unfold State.takeBack
  with_reducible repeat' first | intro _ | assumption | extract_lets | apply inv_jobStore | apply inv_setColl | apply inv_ite | apply inv_foldl | split | dsimp +zetaDelta only

theorem inv_takeCounts {s : State} (h : Keeps w0 s) (q src ns bad) : Keeps w0 (State.takeCounts s q src ns bad) := by
  unfold State.takeCounts
  with_reducible repeat' first | intro _ | assumption | extract_lets | apply inv_jobStore | apply inv_setColl | apply inv_ite | apply inv_foldl | split | dsimp +zetaDelta only

theorem inv_writeCounts {s : State} (h : Keeps w0 s) (c) : Keeps w0 (State.writeCounts s c) := by
  unfold State.writeCounts
  with_reducible repeat' first | intro _ | assumption | extract_lets | apply inv_addToCell | apply inv_jobStore | apply inv_ite | apply inv_foldl | split | dsimp +zetaDelta only

theorem inv_takePlaces {s : State} (h : Keeps w0 s) (q src ps excess) : Keeps w0 (State.takePlaces s q src ps excess) := by
  unfold State.takePlaces
  with_reducible repeat' first | intro _ | assumption | extract_lets | apply inv_jobStore | apply inv_setColl | apply inv_endColl | apply inv_writeCounts | apply inv_ite | apply inv_foldl | split | dsimp +zetaDelta only

theorem inv_takeRun {s : State} (h : Keeps w0 s) (q e slot origins rows) : Keeps w0 (State.takeRun s q e slot origins rows) := by
  unfold State.takeRun
  with_reducible repeat' first | intro _ | assumption | extract_lets | apply inv_jobStore | apply inv_setColl | apply inv_ite | apply inv_foldl | split | dsimp +zetaDelta only

theorem inv_execTokenPadding {s : State} (h : Keeps w0 s) (q e) : OutKeeps w0 (execTokenPadding q e s) := by
  unfold execTokenPadding
  with_reducible repeat' first | intro _ | assumption | extract_lets | apply inv_jobStore | apply inv_setColl | apply out_ite | apply inv_next | apply inv_ite | apply inv_foldl | split | dsimp +zetaDelta only

theorem inv_execTokenPayloadStart {s : State} (h : Keeps w0 s) (q) : OutKeeps w0 (execTokenPayloadStart q s) := by
  unfold execTokenPayloadStart
  with_reducible repeat' first | intro _ | assumption | extract_lets | apply inv_jobStore | apply inv_setColl | apply inv_sendCopies | apply out_ite | apply inv_next | apply inv_ite | apply inv_foldl | split | dsimp +zetaDelta only

theorem inv_execTokenPlacement {s : State} (h : Keeps w0 s) (q) : OutKeeps w0 (execTokenPlacement q s) := by
  unfold execTokenPlacement
  with_reducible repeat' first | intro _ | assumption | extract_lets | apply inv_endColl | apply inv_setColl | apply inv_bump | apply inv_jobStore | apply inv_collSend | apply inv_writeCounts | apply out_ite | apply inv_next | apply inv_ite | apply inv_foldl | split | dsimp +zetaDelta only

end Sys2Proof.Machine
end

