-- ==== Sys2Proof/Laws/InvCollRows.lean ====
section
/-!
SUPPORT. Every operation of Machine/CollRows.lean keeps the canonical form of registers and memory, and the queue of commands.
-/
namespace Sys2Proof.Machine

variable {w0 : List Instr}

theorem inv_onMessage {s : State} (h : Keeps w0 s) (q m) {f : Coll → State → State} (hf : ∀ c {s}, Keeps w0 s → Keeps w0 (f c s)) : Keeps w0 (s.onMessage q m f) := by
  unfold State.onMessage
  with_reducible repeat' first | assumption | apply inv_ite | apply hf | apply inv_raise | apply inv_endColl | apply inv_ceErr | split

theorem inv_sendUnits {s : State} (h : Keeps w0 s) (q c) : Keeps w0 (State.sendUnits s q c) := by
  unfold State.sendUnits
  with_reducible repeat' first | intro _ | assumption | extract_lets | apply inv_setColl | apply inv_collSend | apply inv_ite | apply inv_foldl | split | dsimp +zetaDelta only

theorem inv_startPhase {s : State} (h : Keeps w0 s) (q) : Keeps w0 (State.startPhase s q) := by
  unfold State.startPhase
  with_reducible repeat' first | intro _ | assumption | extract_lets | apply inv_sendUnits | apply inv_sendCounts | apply inv_startReturn | apply inv_startRedispatch | apply inv_ite | apply inv_foldl | split | dsimp +zetaDelta only

theorem inv_takeBlock {s : State} (h : Keeps w0 s) (q c src bs) : Keeps w0 (State.takeBlock s q c src bs) := by
  unfold State.takeBlock
  with_reducible repeat' first | intro _ | assumption | extract_lets | apply inv_jobStore | apply inv_setColl | apply inv_ite | apply inv_foldl | split | dsimp +zetaDelta only

theorem inv_takeGather {s : State} (h : Keeps w0 s) (q c first piece ps) : Keeps w0 (State.takeGather s q c first piece ps) := by
  unfold State.takeGather
  with_reducible repeat' first | intro _ | assumption | extract_lets | apply inv_setColl | apply inv_modColl | apply inv_writePiece | apply inv_sendParts | apply inv_settleRings | apply inv_ite | apply inv_foldl | split | dsimp +zetaDelta only

theorem inv_takeReduce {s : State} (h : Keeps w0 s) (q c first piece ps) : Keeps w0 (State.takeReduce s q c first piece ps) := by
  unfold State.takeReduce
  with_reducible repeat' first | intro _ | assumption | extract_lets | apply inv_bump | apply inv_setColl | apply inv_holdPiece | apply inv_sendParts | apply inv_settleRings | apply inv_ite | apply inv_foldl | split | dsimp +zetaDelta only

theorem inv_takeReply {s : State} (h : Keeps w0 s) (q c src excess) : Keeps w0 (State.takeReply s q c src excess) := by
  unfold State.takeReply
  with_reducible repeat' first | intro _ | assumption | extract_lets | apply inv_setColl | apply inv_endColl | apply inv_collSend | apply inv_ite | apply inv_foldl | split | dsimp +zetaDelta only

theorem inv_takeUnits {s : State} (h : Keeps w0 s) (q c src n) : Keeps w0 (State.takeUnits s q c src n) := by
  unfold State.takeUnits
  with_reducible repeat' first | intro _ | assumption | extract_lets | apply inv_setColl | apply inv_jobStore | apply inv_collSend | apply inv_ite | apply inv_foldl | split | dsimp +zetaDelta only

theorem inv_execBucketStart {s : State} (h : Keeps w0 s) (q) : OutKeeps w0 (execBucketStart q s) := by
  unfold execBucketStart
  with_reducible repeat' first | intro _ | assumption | extract_lets | apply inv_startGroup | apply out_ite | apply inv_next | apply inv_ite | apply inv_foldl | split | dsimp +zetaDelta only

theorem inv_execCoalesceTimeout {s : State} (h : Keeps w0 s) (q) : OutKeeps w0 (execCoalesceTimeout q s) := by
  unfold execCoalesceTimeout
  with_reducible repeat' first | intro _ | assumption | extract_lets | apply inv_startGroup | apply out_ite | apply inv_next | apply inv_ite | apply inv_foldl | split | dsimp +zetaDelta only

theorem inv_execCollective {s : State} (h : Keeps w0 s) (id) : OutKeeps w0 (execCollective id s) := by
  unfold execCollective
  with_reducible repeat' first | intro _ | assumption | extract_lets | apply inv_attempt | apply inv_cmdCollective | apply out_ite | apply inv_next | apply inv_ite | apply inv_foldl | split | dsimp +zetaDelta only

theorem inv_execCollectiveCompletion {s : State} (h : Keeps w0 s) (q) : OutKeeps w0 (execCollectiveCompletion q s) := by
  unfold execCollectiveCompletion
  with_reducible repeat' first | intro _ | assumption | extract_lets | apply inv_endColl | apply inv_stepDecide | apply inv_startPhase | apply inv_startNext | apply out_ite | apply inv_next | apply inv_ite | apply inv_foldl | split | dsimp +zetaDelta only

theorem inv_execCollectivePieceArrival {s : State} (h : Keeps w0 s) (q m) : OutKeeps w0 (execCollectivePieceArrival q m s) := by
  unfold execCollectivePieceArrival
  with_reducible repeat' first | assumption | apply inv_onMessage | apply inv_takeReduce | apply inv_takeGather | apply inv_takeUnits | apply inv_takeReply | apply inv_takeBlock | apply inv_takeRun | apply inv_takeBack | apply out_ite | apply inv_next | apply inv_ite | apply inv_foldl | intro _ | split | extract_lets | dsimp +zetaDelta only

theorem inv_execCollectiveStall {s : State} (h : Keeps w0 s) (q) : OutKeeps w0 (execCollectiveStall q s) := by
  unfold execCollectiveStall
  with_reducible repeat' first | intro _ | assumption | extract_lets | apply inv_ceErr | apply inv_setColl | apply inv_bump | apply inv_note | apply inv_event | apply out_ite | apply inv_next | apply inv_ite | apply inv_foldl | split | dsimp +zetaDelta only

theorem inv_execCollectiveStart {s : State} (h : Keeps w0 s) (q) : OutKeeps w0 (execCollectiveStart q s) := by
  unfold execCollectiveStart
  with_reducible repeat' first | intro _ | assumption | extract_lets | apply inv_collReady | apply inv_startNext | apply inv_startPhase | apply out_ite | apply inv_next | apply inv_ite | apply inv_foldl | split | dsimp +zetaDelta only

theorem inv_execCongestionWindow {s : State} (h : Keeps w0 s) (q) : OutKeeps w0 (execCongestionWindow q s) := by
  unfold execCongestionWindow
  with_reducible repeat' first | intro _ | assumption | extract_lets | apply inv_setColl | apply inv_setPath | apply out_ite | apply inv_next | apply inv_ite | apply inv_foldl | split | dsimp +zetaDelta only

theorem inv_execReadyPoll {s : State} (h : Keeps w0 s) (q) : OutKeeps w0 (execReadyPoll q s) := by
  unfold execReadyPoll
  with_reducible repeat' first | intro _ | assumption | extract_lets | apply inv_bump | apply inv_setColl | apply out_ite | apply inv_next | apply inv_ite | apply inv_foldl | split | dsimp +zetaDelta only

theorem inv_execTokenCountArrival {s : State} (h : Keeps w0 s) (q m) : OutKeeps w0 (execTokenCountArrival q m s) := by
  unfold execTokenCountArrival
  with_reducible repeat' first | assumption | apply inv_onMessage | apply inv_takeCounts | apply out_ite | apply inv_next | apply inv_ite | apply inv_foldl | intro _ | split | extract_lets | dsimp +zetaDelta only

theorem inv_execTokenReplyArrival {s : State} (h : Keeps w0 s) (q m) : OutKeeps w0 (execTokenReplyArrival q m s) := by
  unfold execTokenReplyArrival
  with_reducible repeat' first | assumption | apply inv_onMessage | apply inv_takePlaces | apply out_ite | apply inv_next | apply inv_ite | apply inv_foldl | intro _ | split | extract_lets | dsimp +zetaDelta only

end Sys2Proof.Machine
end

