-- ==== Sys2Proof/Laws/InvGraphs.lean ====
section
/-!
SUPPORT. Every operation of Machine/Graphs.lean keeps the canonical form of registers and memory, and the queue of commands.
-/
namespace Sys2Proof.Machine

variable {w0 : List Instr}

theorem inv_admitGraph {s : State} (h : Keeps w0 s) (id a n) : Keeps w0 (State.admitGraph s id a n) := by
  unfold State.admitGraph
  with_reducible repeat' first | intro _ | assumption | extract_lets | apply inv_setGraph | apply inv_ite | apply inv_foldl | split | dsimp +zetaDelta only

theorem inv_startNode {s : State} (h : Keeps w0 s) (g k n x) : Keeps w0 (s.startNode g k n x) := by
  unfold State.startNode
  extract_lets +onlyGivenNames running ready
  have hr : Keeps w0 running := inv_setGraph h ..
  have hd : Keeps w0 ready := inv_setGraph h ..
  clear_value running ready
  split
  · extract_lets +onlyGivenNames b
    clear_value b
    split
    · with_reducible exact inv_nodeDone hr _ _ _ _
    · extract_lets +onlyGivenNames c hh cells
      clear_value c hh cells
      with_reducible have k' := inv_launch hr b hh none (some (g, k)) cells
      generalize running.launch b hh none (some (g, k)) cells = x at k'
      obtain ⟨y, u⟩ := x
      cases y with
      | run _ => exact k'
      | wait _ _ => exact hd
      | refuse _ _ => with_reducible exact inv_nodeDone k' _ _ _ _
      | done _ _ => with_reducible exact inv_nodeDone k' _ _ _ _
  · extract_lets +onlyGivenNames d
    clear_value d
    with_reducible exact inv_ite (inv_nodeDone hr _ _ _ _) (inv_startPhase (inv_queueColl hr _ _) _)
  · extract_lets +onlyGivenNames d
    clear_value d
    with_reducible exact inv_ite (inv_nodeDone hr _ _ _ _) (inv_ite hd (inv_stepBegin hr _ _ _ _))
  · exact hr
  · with_reducible exact inv_nodeDone hr _ _ _ _

theorem inv_cmdGraphSubmit {s : State} (h : Keeps w0 s) (x) : Keeps w0 (cmdGraphSubmit x s).2 := by
  unfold cmdGraphSubmit
  with_reducible repeat' first | intro _ | assumption | extract_lets  | apply inv_ite2 | apply inv_ite | apply inv_foldl | split | dsimp +zetaDelta only

theorem inv_execGraphSubmit {s : State} (h : Keeps w0 s) (id) : OutKeeps w0 (execGraphSubmit id s) := by
  unfold execGraphSubmit
  with_reducible repeat' first | intro _ | assumption | extract_lets | apply inv_attempt | apply inv_cmdGraphSubmit | apply out_ite | apply inv_next | apply inv_ite | apply inv_foldl | split | dsimp +zetaDelta only

theorem inv_execPredicateEvaluation {s : State} (h : Keeps w0 s) (g k) : OutKeeps w0 (execPredicateEvaluation g k s) := by
  unfold execPredicateEvaluation
  with_reducible repeat' first | intro _ | assumption | extract_lets | apply inv_startNode | apply inv_nodeDone | apply inv_setGraph | apply inv_pageFault | apply inv_raise | apply out_ite | apply inv_next | apply inv_ite | apply inv_foldl | split | dsimp +zetaDelta only

end Sys2Proof.Machine
end

