-- ==== Sys2Proof/Laws/InvPower.lean ====
section
/-!
SUPPORT. Every operation of Machine/Power.lean keeps the canonical form of registers and memory, and the queue of commands.
-/
namespace Sys2Proof.Machine

variable {w0 : List Instr}

theorem inv_addEnergy {s : State} (h : Keeps w0 s) (mw) : Keeps w0 (State.addEnergy s mw) := by
  unfold State.addEnergy
  with_reducible repeat' first | intro _ | assumption | extract_lets | apply inv_setReg | apply inv_bump | apply inv_ite | apply inv_foldl | split | dsimp +zetaDelta only

theorem inv_beginBoot {s : State} (h : Keeps w0 s) (attempt) : Keeps w0 (State.beginBoot s attempt) := by
  unfold State.beginBoot
  with_reducible repeat' first | intro _ | assumption | extract_lets | apply inv_setFlds | apply inv_ite | apply inv_foldl | split | dsimp +zetaDelta only

theorem inv_cycleRecord {s : State} (h : Keeps w0 s) (cause skind d0 d1) : Keeps w0 (State.cycleRecord s cause skind d0 d1) := by
  unfold State.cycleRecord
  with_reducible repeat' first | intro _ | assumption | extract_lets | apply inv_putRecord | apply inv_ite | apply inv_foldl | split | dsimp +zetaDelta only

theorem inv_railsOff {s : State} (h : Keeps w0 s) (cause) : Keeps w0 (s.railsOff cause) := by
  refine ⟨⟨List.Pairwise.filter _ (List.pairwise_map.2 h.1.1), ?_⟩, Memory.wf_filter _ h.2.1, h.2.2⟩
  intro e he
  simpa using (List.mem_filter.1 he).2

theorem inv_bootFailed {s : State} (h : Keeps w0 s) : Keeps w0 (State.bootFailed s) := by
  unfold State.bootFailed
  with_reducible repeat' first | intro _ | assumption | extract_lets | apply inv_cycleRecord | apply inv_setFld | apply inv_railsOff | apply inv_ite | apply inv_foldl | split | dsimp +zetaDelta only

theorem inv_setCapLimit {s : State} (h : Keeps w0 s) (d v) : Keeps w0 (State.setCapLimit s d v) := by
  unfold State.setCapLimit
  with_reducible repeat' first | intro _ | assumption | extract_lets | apply inv_setFld | apply inv_ite | apply inv_foldl | split | dsimp +zetaDelta only

theorem inv_lowerCap {s : State} (h : Keeps w0 s) (d) : Keeps w0 (State.lowerCap s d) := by
  unfold State.lowerCap
  with_reducible repeat' first | intro _ | assumption | extract_lets | apply inv_setCapLimit | apply inv_ite | apply inv_foldl | split | dsimp +zetaDelta only

theorem inv_lowerCaps {s : State} (h : Keeps w0 s) (n d) : Keeps w0 (lowerCaps n d s) := by
  induction n generalizing s d with
  | zero => exact h
  | succ n ih => exact ih (inv_lowerCap h _) _

theorem inv_capTick {s : State} (h : Keeps w0 s) (step hot) : Keeps w0 (State.capTick s step hot) := by
  unfold State.capTick
  with_reducible repeat' first | intro _ | assumption | extract_lets | apply inv_lowerCaps | apply inv_setCapLimit | apply inv_ite | apply inv_foldl | split | dsimp +zetaDelta only

theorem inv_countCap {s : State} (h : Keeps w0 s) : Keeps w0 (State.countCap s) := by
  unfold State.countCap
  with_reducible repeat' first | intro _ | assumption | extract_lets | apply inv_bump | apply inv_ite | apply inv_foldl | split | dsimp +zetaDelta only

theorem inv_darkPorts {s : State} (h : Keeps w0 s) : Keeps w0 (State.darkPorts s) := by
  unfold State.darkPorts
  extract_lets +onlyGivenNames a b
  with_reducible have ha : Keeps w0 a := by apply inv_foldl h (fun _ _ h => inv_setFld h _ _ _)
  clear_value a
  with_reducible have hb : Keeps w0 b := by apply inv_foldl ha (fun _ _ h => inv_ite (inv_setFld h _ _ _) h)
  clear_value b
  with_reducible exact inv_setFld (inv_setReg hb _ _) _ _ _

theorem inv_endCapWindow {s : State} (h : Keeps w0 s) : Keeps w0 (State.endCapWindow s) := by
  unfold State.endCapWindow
  with_reducible repeat' first | assumption | apply inv_setFlds | apply inv_bump | apply inv_setFld | apply inv_note | apply inv_ite | apply inv_foldl | intro _ | split | extract_lets | dsimp +zetaDelta only

theorem inv_enterLoss {s : State} (h : Keeps w0 s) : Keeps w0 (State.enterLoss s) := by
  unfold State.enterLoss
  with_reducible repeat' first | intro _ | assumption | extract_lets | apply inv_ite | apply inv_foldl | split | dsimp +zetaDelta only

theorem inv_unpowered {s : State} (h : Keeps w0 s) : Keeps w0 s.unpowered := ⟨h.1, Memory.wf_filter _ h.2.1, h.2.2⟩

theorem inv_enterStandby {s : State} (h : Keeps w0 s) : Keeps w0 (State.enterStandby s) := by
  unfold State.enterStandby
  with_reducible exact inv_unpowered (inv_darkPorts h)

theorem inv_showLimits {s : State} (h : Keeps w0 s) : Keeps w0 (State.showLimits s) := by
  unfold State.showLimits
  with_reducible repeat' first | intro _ | assumption | extract_lets | apply inv_setFlds | apply inv_ite | apply inv_foldl | split | dsimp +zetaDelta only

theorem inv_fastCaps {s : State} (h : Keeps w0 s) : Keeps w0 (State.fastCaps s) := by
  unfold State.fastCaps
  with_reducible repeat' first | intro _ | assumption | extract_lets | apply inv_showLimits | apply inv_lowerCaps | apply inv_ite | apply inv_foldl | split | dsimp +zetaDelta only

theorem inv_landDome {s : State} (h : Keeps w0 s) (d) : Keeps w0 (State.landDome s d) := by
  unfold State.landDome
  with_reducible repeat' first | intro _ | assumption | extract_lets | apply inv_runTo | apply inv_ite | apply inv_foldl | split | dsimp +zetaDelta only

theorem inv_persistAgain {s : State} (h : Keeps w0 s) : Keeps w0 (State.persistAgain s) := by
  unfold State.persistAgain
  with_reducible repeat' first | intro _ | assumption | extract_lets | apply inv_persistEnd | apply inv_persistStart | apply inv_ite | apply inv_foldl | split | dsimp +zetaDelta only

theorem inv_stopAll {s : State} (h : Keeps w0 s) : Keeps w0 (State.stopAll s) := by
  unfold State.stopAll
  with_reducible repeat' first | intro _ | assumption | extract_lets | apply inv_stopEngines | apply inv_ite | apply inv_foldl | split | dsimp +zetaDelta only

theorem inv_resetNotice {s : State} (h : Keeps w0 s) : Keeps w0 (State.resetNotice s) := by
  unfold State.resetNotice
  with_reducible repeat' first | intro _ | assumption | extract_lets | apply inv_newStopId | apply inv_floodNow | apply inv_bump | apply inv_ite | apply inv_foldl | split | dsimp +zetaDelta only

theorem inv_lossNotice {s : State} (h : Keeps w0 s) : Keeps w0 (State.lossNotice s) := by
  unfold State.lossNotice
  with_reducible repeat' first | intro _ | assumption | extract_lets | apply inv_enterLoss | apply inv_persistAgain | apply inv_abandonCapture | apply inv_stopAll | apply inv_resetNotice | apply inv_bump | apply inv_setFld | apply inv_ite | apply inv_foldl | split | dsimp +zetaDelta only

theorem inv_noteCool {s : State} (h : Keeps w0 s) : Keeps w0 (State.noteCool s) := by
  unfold State.noteCool
  with_reducible repeat' first | intro _ | assumption | extract_lets | apply inv_ite | apply inv_foldl | split | dsimp +zetaDelta only

theorem inv_orderlyPersist {s : State} (h : Keeps w0 s) : Keeps w0 (State.orderlyPersist s) := by
  unfold State.orderlyPersist
  with_reducible repeat' first | intro _ | assumption | extract_lets | apply inv_persistEnd | apply inv_persistStart | apply inv_ite | apply inv_foldl | split | dsimp +zetaDelta only

theorem inv_orderlyOff {s : State} (h : Keeps w0 s) (cause wait) : Keeps w0 (State.orderlyOff s cause wait) := by
  unfold State.orderlyOff
  with_reducible repeat' first | intro _ | assumption | extract_lets | apply inv_orderlyPersist | apply inv_ite | apply inv_foldl | split | dsimp +zetaDelta only

theorem inv_rebase {s : State} (h : Keeps w0 s) (d pause) : Keeps w0 (State.rebase s d pause) := by
  unfold State.rebase
  with_reducible repeat' first | intro _ | assumption | extract_lets | apply inv_settleHold | apply inv_modSpire | apply inv_ite | apply inv_foldl | split | dsimp +zetaDelta only

theorem inv_rollCap {s : State} (h : Keeps w0 s) : Keeps w0 (State.rollCap s) := by
  unfold State.rollCap
  with_reducible repeat' first | intro _ | assumption | extract_lets | apply inv_endCapWindow | apply inv_ite | apply inv_foldl | split | dsimp +zetaDelta only

theorem inv_rollTo {s : State} (h : Keeps w0 s) (t) : Keeps w0 (State.rollTo s t) := by
  unfold State.rollTo
  with_reducible repeat' first | intro _ | assumption | extract_lets | apply inv_rollCap | apply inv_ite | apply inv_foldl | split | dsimp +zetaDelta only

theorem inv_setCap {s : State} (h : Keeps w0 s) (w) : Keeps w0 (State.setCap s w) := by
  unfold State.setCap
  with_reducible repeat' first | intro _ | assumption | extract_lets | apply inv_setFld | apply inv_ite | apply inv_foldl | split | dsimp +zetaDelta only

theorem inv_showInput {s : State} (h : Keeps w0 s) (dv ma mw) : Keeps w0 (State.showInput s dv ma mw) := by
  unfold State.showInput
  with_reducible repeat' first | intro _ | assumption | extract_lets | apply inv_setFlds | apply inv_setFld | apply inv_ite | apply inv_foldl | split | dsimp +zetaDelta only

theorem inv_showRails {s : State} (h : Keeps w0 s) (rails) : Keeps w0 (State.showRails s rails) := by
  unfold State.showRails
  with_reducible repeat' first | intro _ | assumption | extract_lets | apply inv_setFlds | apply inv_ite | apply inv_foldl | split | dsimp +zetaDelta only

theorem inv_standbyFar {s : State} (h : Keeps w0 s) : Keeps w0 (State.standbyFar s) := by
  unfold State.standbyFar
  with_reducible repeat' first | intro _ | assumption | extract_lets | apply inv_pushReinit | apply inv_ite | apply inv_foldl | split | dsimp +zetaDelta only

theorem inv_stepClock {s : State} (h : Keeps w0 s) (d pause k) : Keeps w0 (State.stepClock s d pause k) := by
  unfold State.stepClock
  with_reducible repeat' first | intro _ | assumption | extract_lets | apply inv_setFlds | apply inv_rebase | apply inv_setFld | apply inv_bump | apply inv_ite | apply inv_foldl | split | dsimp +zetaDelta only

theorem inv_takeTemps {s : State} (h : Keeps w0 s) (readings) : Keeps w0 (State.takeTemps s readings) := by
  unfold State.takeTemps
  with_reducible repeat' first | intro _ | assumption | extract_lets | apply inv_setFlds | apply inv_ite | apply inv_foldl | split | dsimp +zetaDelta only

theorem inv_thermStep {s : State} (h : Keeps w0 s) (lim d) : Keeps w0 (State.thermStep s lim d) := by
  unfold State.thermStep
  with_reducible repeat' first | intro _ | assumption | extract_lets | apply inv_setFld | apply inv_ite | apply inv_foldl | split | dsimp +zetaDelta only

theorem inv_thermLimits {s : State} (h : Keeps w0 s) : Keeps w0 (State.thermLimits s) := by
  unfold State.thermLimits
  with_reducible repeat' first | intro _ | assumption | extract_lets | apply inv_thermStep | apply inv_showLimits | apply inv_bump | apply inv_ite | apply inv_foldl | split | dsimp +zetaDelta only

theorem inv_thermalTrip {s : State} (h : Keeps w0 s) (sensor temp) : Keeps w0 (State.thermalTrip s sensor temp) := by
  unfold State.thermalTrip
  with_reducible repeat' first | intro _ | assumption | extract_lets | apply inv_orderlyOff | apply inv_cycleRecord | apply inv_ite | apply inv_foldl | split | dsimp +zetaDelta only

theorem inv_toLk {s : State} (h : Keeps w0 s) (t) : Keeps w0 (State.toLk s t) := by
  unfold State.toLk
  with_reducible repeat' first | intro _ | assumption | extract_lets | apply inv_ite | apply inv_foldl | split | dsimp +zetaDelta only

theorem inv_cmdPowerCycle {s : State} (h : Keeps w0 s) (x) : Keeps w0 (cmdPowerCycle x s).2 := by
  unfold cmdPowerCycle
  with_reducible repeat' first | intro _ | assumption | extract_lets  | apply inv_ite2 | apply inv_ite | apply inv_foldl | split | dsimp +zetaDelta only

theorem inv_tryPowerCycle {s : State} (h : Keeps w0 s) (id) : Keeps w0 (State.tryPowerCycle s id) := by
  unfold State.tryPowerCycle
  with_reducible repeat' first | intro _ | assumption | extract_lets | apply inv_attempt | apply inv_cmdPowerCycle | apply inv_orderlyOff | apply inv_ite | apply inv_foldl | split | dsimp +zetaDelta only

theorem inv_wakeModule {s : State} (h : Keeps w0 s) : Keeps w0 (State.wakeModule s) := by
  unfold State.wakeModule
  with_reducible repeat' first | intro _ | assumption | extract_lets | apply inv_setFld | apply inv_ite | apply inv_foldl | split | dsimp +zetaDelta only

theorem inv_writeUser {s : State} (h : Keeps w0 s) (d v) : Keeps w0 (State.writeUser s d v) := by
  unfold State.writeUser
  with_reducible repeat' first | intro _ | assumption | extract_lets | apply inv_showLimits | apply inv_setFld | apply inv_ite | apply inv_foldl | split | dsimp +zetaDelta only

theorem inv_cmdClockLimit {s : State} (h : Keeps w0 s) (c) : Keeps w0 (cmdClockLimit c s).2 := by
  unfold cmdClockLimit
  with_reducible repeat' first | intro _ | assumption | extract_lets | apply inv_writeUser | apply inv_ite2 | apply inv_ite | apply inv_foldl | split | dsimp +zetaDelta only

theorem inv_cmdPowerCap {s : State} (h : Keeps w0 s) (c) : Keeps w0 (cmdPowerCap c s).2 := by
  unfold cmdPowerCap
  with_reducible repeat' first | intro _ | assumption | extract_lets | apply inv_setCap | apply inv_ite2 | apply inv_ite | apply inv_foldl | split | dsimp +zetaDelta only

theorem inv_cmdPowerState {s : State} (h : Keeps w0 s) (c) : Keeps w0 (cmdPowerState c s).2 := by
  unfold cmdPowerState
  with_reducible repeat' first | intro _ | assumption | extract_lets | apply inv_wakeModule | apply inv_setFld | apply inv_standbyFar | apply inv_resetLinks | apply inv_enterStandby | apply inv_ite2 | apply inv_ite | apply inv_foldl | split | dsimp +zetaDelta only

theorem inv_cmdTelemetry {s : State} (h : Keeps w0 s) (x) : Keeps w0 (cmdTelemetry x s).2 := by
  unfold cmdTelemetry
  with_reducible repeat' first | intro _ | assumption | extract_lets  | apply inv_ite2 | apply inv_ite | apply inv_foldl | split | dsimp +zetaDelta only

theorem inv_execCapWindowEnd {s : State} (h : Keeps w0 s) : OutKeeps w0 (execCapWindowEnd s) := by
  unfold execCapWindowEnd
  with_reducible repeat' first | assumption | apply inv_rollTo | apply out_ite | apply inv_next | apply inv_ite | apply inv_foldl | intro _ | split | extract_lets | dsimp +zetaDelta only

theorem inv_execClampSenseClosed {s : State} (h : Keeps w0 s) : OutKeeps w0 (execClampSenseClosed s) := by
  unfold execClampSenseClosed
  with_reducible repeat' first | intro _ | assumption | extract_lets  | apply out_ite | apply inv_next | apply inv_ite | apply inv_foldl | split | dsimp +zetaDelta only

theorem inv_execClockLimit {s : State} (h : Keeps w0 s) (id) : OutKeeps w0 (execClockLimit id s) := by
  unfold execClockLimit
  with_reducible repeat' first | intro _ | assumption | extract_lets | apply inv_attempt | apply inv_cmdClockLimit | apply out_ite | apply inv_next | apply inv_ite | apply inv_foldl | split | dsimp +zetaDelta only

theorem inv_execClockUserLimitWrite {s : State} (h : Keeps w0 s) (d v) : OutKeeps w0 (execClockUserLimitWrite d v s) := by
  unfold execClockUserLimitWrite
  with_reducible repeat' first | intro _ | assumption | extract_lets | apply inv_writeUser | apply out_ite | apply inv_next | apply inv_ite | apply inv_foldl | split | dsimp +zetaDelta only

theorem inv_execFwWatchdog {s : State} (h : Keeps w0 s) (core) : OutKeeps w0 (execFwWatchdog core s) := by
  unfold execFwWatchdog
  with_reducible repeat' first | intro _ | assumption | extract_lets | apply inv_raise3 | apply out_ite | apply inv_next | apply inv_ite | apply inv_foldl | split | dsimp +zetaDelta only

theorem inv_execInputLoss {s : State} (h : Keeps w0 s) : OutKeeps w0 (execInputLoss s) := by
  unfold execInputLoss
  with_reducible repeat' first | intro _ | assumption | extract_lets | apply inv_setFld | apply inv_lossNotice | apply out_ite | apply inv_next | apply inv_ite | apply inv_foldl | split | dsimp +zetaDelta only

theorem inv_execLockkeeperSupplyLoss {s : State} (h : Keeps w0 s) : OutKeeps w0 (execLockkeeperSupplyLoss s) := by
  unfold execLockkeeperSupplyLoss
  with_reducible repeat' first | intro _ | assumption | extract_lets  | apply out_ite | apply inv_next | apply inv_ite | apply inv_foldl | split | dsimp +zetaDelta only

theorem inv_execLossPersistDone {s : State} (h : Keeps w0 s) (ok) : OutKeeps w0 (execLossPersistDone ok s) := by
  unfold execLossPersistDone
  with_reducible repeat' first | intro _ | assumption | extract_lets | apply inv_persistEnd | apply inv_toLk | apply inv_railsOff | apply out_ite | apply inv_next | apply inv_ite | apply inv_foldl | split | dsimp +zetaDelta only

theorem inv_execPowerCap {s : State} (h : Keeps w0 s) (id) : OutKeeps w0 (execPowerCap id s) := by
  unfold execPowerCap
  with_reducible repeat' first | intro _ | assumption | extract_lets | apply inv_attempt | apply inv_cmdPowerCap | apply out_ite | apply inv_next | apply inv_ite | apply inv_foldl | split | dsimp +zetaDelta only

theorem inv_execPowerCapTick {s : State} (h : Keeps w0 s) (step hot) : OutKeeps w0 (execPowerCapTick step hot s) := by
  unfold execPowerCapTick
  exact out_ite (inv_next h) (inv_next (inv_showLimits (inv_capTick (inv_rollTo h _) ..)))

theorem inv_execPowerCycle {s : State} (h : Keeps w0 s) (id) : OutKeeps w0 (execPowerCycle id s) := by
  unfold execPowerCycle
  with_reducible repeat' first | intro _ | assumption | extract_lets | apply inv_tryPowerCycle | apply out_ite | apply inv_next | apply inv_ite | apply inv_foldl | split | dsimp +zetaDelta only

theorem inv_execPowerRemoval {s : State} (h : Keeps w0 s) : OutKeeps w0 (execPowerRemoval s) := by
  unfold execPowerRemoval
  with_reducible repeat' first | intro _ | assumption | extract_lets | apply inv_railsOff | apply inv_resetNotice | apply inv_toLk | apply out_ite | apply inv_next | apply inv_ite | apply inv_foldl | split | dsimp +zetaDelta only

theorem inv_execPowerRestore {s : State} (h : Keeps w0 s) : OutKeeps w0 (execPowerRestore s) := by
  unfold execPowerRestore
  with_reducible repeat' first | intro _ | assumption | extract_lets | apply inv_beginBoot | apply inv_toLk | apply out_ite | apply inv_next | apply inv_ite | apply inv_foldl | split | dsimp +zetaDelta only

theorem inv_execPowerSample {s : State} (h : Keeps w0 s) (dv ma mw rails) : OutKeeps w0 (execPowerSample dv ma mw rails s) := by
  unfold execPowerSample
  exact out_ite (inv_next h) (inv_next (inv_fastCaps (inv_countCap (inv_addEnergy (inv_showRails (inv_showInput (inv_rollTo h _) ..) _) _))))

theorem inv_execPowerState {s : State} (h : Keeps w0 s) (id) : OutKeeps w0 (execPowerState id s) := by
  unfold execPowerState
  with_reducible repeat' first | intro _ | assumption | extract_lets | apply inv_attempt | apply inv_cmdPowerState | apply out_ite | apply inv_next | apply inv_ite | apply inv_foldl | split | dsimp +zetaDelta only

theorem inv_execPowerUp {s : State} (h : Keeps w0 s) (straps) : OutKeeps w0 (execPowerUp straps s) := by
  unfold execPowerUp
  with_reducible repeat' first | intro _ | assumption | extract_lets | apply inv_beginBoot | apply inv_toLk | apply out_ite | apply inv_next | apply inv_ite | apply inv_foldl | split | dsimp +zetaDelta only

theorem inv_execQuiescentWake {s : State} (h : Keeps w0 s) : OutKeeps w0 (execQuiescentWake s) := by
  unfold execQuiescentWake
  with_reducible repeat' first | intro _ | assumption | extract_lets | apply inv_wakeModule | apply out_ite | apply inv_next | apply inv_ite | apply inv_foldl | split | dsimp +zetaDelta only

theorem inv_execRailFault {s : State} (h : Keeps w0 s) (n) : OutKeeps w0 (execRailFault n s) := by
  unfold execRailFault
  with_reducible repeat' first | intro _ | assumption | extract_lets | apply inv_setFlds | apply inv_bootFailed | apply inv_lossNotice | apply out_ite | apply inv_next | apply inv_ite | apply inv_foldl | split | dsimp +zetaDelta only

theorem inv_execSidebandHeartbeat {s : State} (h : Keeps w0 s) : OutKeeps w0 (execSidebandHeartbeat s) := by
  unfold execSidebandHeartbeat
  with_reducible repeat' first | intro _ | assumption | extract_lets | apply inv_setFld | apply out_ite | apply inv_next | apply inv_ite | apply inv_foldl | split | dsimp +zetaDelta only

theorem inv_execSidebandHeartbeatLoss {s : State} (h : Keeps w0 s) : OutKeeps w0 (execSidebandHeartbeatLoss s) := by
  unfold execSidebandHeartbeatLoss
  with_reducible repeat' first | intro _ | assumption | extract_lets | apply inv_note | apply inv_setFld | apply out_ite | apply inv_next | apply inv_ite | apply inv_foldl | split | dsimp +zetaDelta only

theorem inv_execSpireClockStep {s : State} (h : Keeps w0 s) (d pause) : OutKeeps w0 (execSpireClockStep d pause s) := by
  unfold execSpireClockStep
  extract_lets +onlyGivenNames cur t
  refine out_ite (inv_next h) ?_
  extract_lets +onlyGivenNames last a b
  have ha : Keeps w0 a := inv_landDome (s := { s with now := max s.now (max (last d + 1000) (last (1 - d) + 500)) }) h d
  clear_value a
  with_reducible have hb : Keeps w0 b := inv_stepClock ha _ _ _
  clear_value b
  exact inv_next (s := { b with now := b.now + pause, pwr := { b.pwr with stepAt := tset (fun _ => 0) b.pwr.stepAt d b.now, stepDome := d } }) hb

theorem inv_execStandbyExitTimeout {s : State} (h : Keeps w0 s) : OutKeeps w0 (execStandbyExitTimeout s) := by
  unfold execStandbyExitTimeout
  with_reducible repeat' first | intro _ | assumption | extract_lets | apply inv_finishCmd | apply inv_setFld | apply out_ite | apply inv_next | apply inv_ite | apply inv_foldl | split | dsimp +zetaDelta only

theorem inv_execTelemetry {s : State} (h : Keeps w0 s) (id) : OutKeeps w0 (execTelemetry id s) := by
  unfold execTelemetry
  with_reducible repeat' first | intro _ | assumption | extract_lets | apply inv_attempt | apply inv_cmdTelemetry | apply out_ite | apply inv_next | apply inv_ite | apply inv_foldl | split | dsimp +zetaDelta only

theorem inv_execThermalRecovery {s : State} (h : Keeps w0 s) : OutKeeps w0 (execThermalRecovery s) := by
  unfold execThermalRecovery
  with_reducible repeat' first | intro _ | assumption | extract_lets | apply inv_beginBoot | apply inv_toLk | apply out_ite | apply inv_next | apply inv_ite | apply inv_foldl | split | dsimp +zetaDelta only

theorem inv_execThermalTick {s : State} (h : Keeps w0 s) (readings) : OutKeeps w0 (execThermalTick readings s) := by
  unfold execThermalTick
  with_reducible repeat' first | intro _ | assumption | extract_lets | apply inv_takeTemps | apply inv_noteCool | apply inv_thermLimits | apply inv_thermalTrip | apply out_ite | apply inv_next | apply inv_ite | apply inv_foldl | split | dsimp +zetaDelta only

theorem inv_execVectorHoldRamp {s : State} (h : Keeps w0 s) (w) : OutKeeps w0 (execVectorHoldRamp w s) := by
  unfold execVectorHoldRamp
  with_reducible repeat' first | intro _ | assumption | extract_lets  | apply out_ite | apply inv_next | apply inv_ite | apply inv_foldl | split | dsimp +zetaDelta only

end Sys2Proof.Machine
end

