-- ==== Sys2Proof/Laws/InvBoot.lean ====
section
/-!
SUPPORT. Every operation of Machine/Boot.lean keeps the canonical form of registers and memory, and the queue of commands.
-/
namespace Sys2Proof.Machine

variable {w0 : List Instr}

theorem inv_loadJournal {s : State} (h : Keeps w0 s) (key bad) : Keeps w0 (State.loadJournal s key bad) := by
  unfold State.loadJournal
  with_reducible repeat' first | intro _ | assumption | extract_lets | apply inv_setReg | apply inv_setFlds | apply inv_journalRestart | apply inv_bump | apply inv_ite | apply inv_foldl | split | dsimp +zetaDelta only

theorem inv_loadRetire {s : State} (h : Keeps w0 s) : Keeps w0 (State.loadRetire s) := by
  unfold State.loadRetire
  with_reducible repeat' first | intro _ | assumption | extract_lets | apply inv_setReg | apply inv_setFld | apply inv_ite | apply inv_foldl | split | dsimp +zetaDelta only

theorem inv_loadErrors {s : State} (h : Keeps w0 s) : Keeps w0 (State.loadErrors s) := by
  unfold State.loadErrors
  with_reducible repeat' first | intro _ | assumption | extract_lets | apply inv_setFld | apply inv_setReg | apply inv_ite | apply inv_foldl | split | dsimp +zetaDelta only

theorem inv_basinUp {s : State} (h : Keeps w0 s) (i) : Keeps w0 (State.basinUp s i) := by
  unfold State.basinUp
  with_reducible repeat' first | assumption | apply inv_setFlds | apply inv_bsnErr | apply inv_loadJournal | apply inv_showBasin | apply inv_loadRetire | apply inv_loadErrors | apply inv_ite | apply inv_foldl | intro _ | split | extract_lets | dsimp +zetaDelta only

theorem inv_bindAll {s : State} (h : Keeps w0 s) (b) : Keeps w0 (State.bindAll s b) := by
  unfold State.bindAll
  with_reducible repeat' first | intro _ | assumption | extract_lets | apply inv_setFlds | apply inv_ite | apply inv_foldl | split | dsimp +zetaDelta only

theorem inv_canalTables {s : State} (h : Keeps w0 s) (ok) : Keeps w0 (State.canalTables s ok) := by
  unfold State.canalTables
  with_reducible repeat' first | assumption | apply inv_setAqState | apply inv_setFlds | apply inv_ite | apply inv_foldl | intro _ | split | extract_lets | dsimp +zetaDelta only

theorem inv_endWarm {s : State} (h : Keeps w0 s) : Keeps w0 (State.endWarm s) := by
  unfold State.endWarm
  with_reducible repeat' first | intro _ | assumption | extract_lets | apply inv_ite | apply inv_foldl | split | dsimp +zetaDelta only

theorem inv_setPolicy {s : State} (h : Keeps w0 s) (n) : Keeps w0 (State.setPolicy s n) := by
  unfold State.setPolicy
  with_reducible repeat' first | intro _ | assumption | extract_lets | apply inv_ite | apply inv_foldl | split | dsimp +zetaDelta only

theorem inv_fwInit {s : State} (h : Keeps w0 s) : Keeps w0 (State.fwInit s) := by
  unfold State.fwInit
  with_reducible repeat' first | intro _ | assumption | extract_lets | apply inv_bindAll | apply inv_setFlds | apply inv_setFld | apply inv_setPolicy | apply inv_ite | apply inv_foldl | split | dsimp +zetaDelta only

theorem inv_showSelfTest {s : State} (h : Keeps w0 s) (kind boot bad) : Keeps w0 (State.showSelfTest s kind boot bad) := by
  unfold State.showSelfTest
  with_reducible repeat' first | intro _ | assumption | extract_lets | apply inv_setFlds | apply inv_setReg | apply inv_ite | apply inv_foldl | split | dsimp +zetaDelta only

theorem inv_harvest {s : State} (h : Keeps w0 s) (i) : Keeps w0 (State.harvest s i).2 := by
  unfold State.harvest
  with_reducible repeat' first | intro _ | assumption | extract_lets | apply inv_setFlds | apply inv_setReg | apply inv_setFld | apply inv_showSelfTest | apply inv_ite2 | apply inv_ite | apply inv_foldl | split | dsimp +zetaDelta only

theorem inv_lanternBoots {s : State} (h : Keeps w0 s) : Keeps w0 (State.lanternBoots s) := by
  unfold State.lanternBoots
  with_reducible repeat' first | intro _ | assumption | extract_lets | apply inv_ite | apply inv_foldl | split | dsimp +zetaDelta only

theorem inv_patrolDue {s : State} (h : Keeps w0 s) : Keeps w0 (State.patrolDue s) := by
  unfold State.patrolDue
  with_reducible repeat' first | intro _ | assumption | extract_lets | apply inv_ite | apply inv_foldl | split | dsimp +zetaDelta only

theorem inv_moduleReady {s : State} (h : Keeps w0 s) : Keeps w0 (State.moduleReady s) := by
  unfold State.moduleReady
  with_reducible repeat' first | intro _ | assumption | extract_lets | apply inv_setFld | apply inv_patrolDue | apply inv_ite | apply inv_foldl | split | dsimp +zetaDelta only

theorem inv_nextStage {s : State} (h : Keeps w0 s) : Keeps w0 (State.nextStage s) := by
  unfold State.nextStage
  with_reducible repeat' first | intro _ | assumption | extract_lets | apply inv_setFld | apply inv_ite | apply inv_foldl | split | dsimp +zetaDelta only

theorem inv_startTime {s : State} (h : Keeps w0 s) : Keeps w0 (State.startTime s) := by
  unfold State.startTime
  with_reducible repeat' first | intro _ | assumption | extract_lets | apply inv_ite | apply inv_foldl | split | dsimp +zetaDelta only

theorem inv_railsOn {s : State} (h : Keeps w0 s) (step) : Keeps w0 (State.railsOn s step) := by
  unfold State.railsOn
  with_reducible repeat' first | intro _ | assumption | extract_lets | apply inv_setFld | apply inv_setFlds | apply inv_startTime | apply inv_ite | apply inv_foldl | split | dsimp +zetaDelta only

theorem inv_setFarCfg {s : State} (h : Keeps w0 s) (caps bifur) : Keeps w0 (State.setFarCfg s caps bifur) := by
  unfold State.setFarCfg
  with_reducible repeat' first | intro _ | assumption | extract_lets | apply inv_setFlds | apply inv_ite | apply inv_foldl | split | dsimp +zetaDelta only

theorem inv_showImage {s : State} (h : Keeps w0 s) (typ bank) : Keeps w0 (State.showImage s typ bank) := by
  unfold State.showImage
  with_reducible repeat' first | intro _ | assumption | extract_lets | apply inv_setFld | apply inv_setFlds | apply inv_ite | apply inv_foldl | split | dsimp +zetaDelta only

theorem inv_verifyBank {s : State} (h : Keeps w0 s) (typ b) : Keeps w0 (State.verifyBank s typ b).2 := by
  unfold State.verifyBank
  with_reducible repeat' first | intro _ | assumption | extract_lets | apply inv_showImage | apply inv_setFld | apply inv_ite2 | apply inv_ite | apply inv_foldl | split | dsimp +zetaDelta only

theorem inv_verifyType {s : State} (h : Keeps w0 s) (typ) : Keeps w0 (State.verifyType s typ).2 := by
  unfold State.verifyType
  with_reducible repeat' first | intro _ | assumption | extract_lets | apply inv_verifyBank | apply inv_ite2 | apply inv_ite | apply inv_foldl | split | dsimp +zetaDelta only

theorem inv_towersUp {s : State} (h : Keeps w0 s) (i) : Keeps w0 (s.towersUp i) := by
  unfold State.towersUp
  have f : ∀ {s : State}, Keeps w0 s → Keeps w0 ({ s with mem := s.mem.filter (fun c => !isTower c.1), far := { reqs := [], failed := false } } : State) := fun h => ⟨h.1, Memory.wf_filter _ h.2.1, h.2.2⟩
  with_reducible repeat' first | assumption | apply inv_setFarCfg | apply f | refine inv_foldl ?_ (fun _ _ _ => ?_) | apply inv_setFld

theorem inv_stageDone {s : State} (h : Keeps w0 s) (i) : Keeps w0 (State.stageDone s i) := by
  unfold State.stageDone
  with_reducible repeat' first | intro _ | assumption | extract_lets | apply inv_verifyType | apply inv_nextStage | apply inv_bump | apply inv_railsOn | apply inv_lanternBoots | apply inv_fwInit | apply inv_harvest | apply inv_canalTables | apply inv_towersUp | apply inv_resetLinks | apply inv_basinUp | apply inv_moduleReady | apply inv_tbAlarm | apply inv_toLk | apply inv_ite | apply inv_foldl | split | dsimp +zetaDelta only

theorem inv_cmdWarmReset {s : State} (h : Keeps w0 s) (x) : Keeps w0 (cmdWarmReset x s).2 := by
  unfold cmdWarmReset
  with_reducible repeat' first | intro _ | assumption | extract_lets  | apply inv_ite2 | apply inv_ite | apply inv_foldl | split | dsimp +zetaDelta only

theorem inv_tryWarmReset {s : State} (h : Keeps w0 s) (id) : Keeps w0 (State.tryWarmReset s id) := by
  unfold State.tryWarmReset
  with_reducible repeat' first | intro _ | assumption | extract_lets | apply inv_attempt | apply inv_cmdWarmReset | apply inv_startWarm | apply inv_resetNotice | apply inv_ite | apply inv_foldl | split | dsimp +zetaDelta only

theorem inv_verifyAgain {s : State} (h : Keeps w0 s) (typ) : Keeps w0 (State.verifyAgain s typ).2 := by
  unfold State.verifyAgain
  with_reducible repeat' first | intro _ | assumption | extract_lets | apply inv_verifyBank | apply inv_ite2 | apply inv_ite | apply inv_foldl | split | dsimp +zetaDelta only

theorem inv_warmDone {s : State} (h : Keeps w0 s) (cmd) : Keeps w0 (State.warmDone s cmd) := by
  unfold State.warmDone
  with_reducible repeat' first | intro _ | assumption | extract_lets | apply inv_setFld | apply inv_journalRestart | apply inv_rewriteWork | apply inv_buildDefault | apply inv_patrolDue | apply inv_endWarm | apply inv_postCmd | apply inv_ite | apply inv_foldl | split | dsimp +zetaDelta only

theorem inv_warmParts {s : State} (h : Keeps w0 s) (i) : Keeps w0 (State.warmParts s i) := by
  unfold State.warmParts
  with_reducible repeat' first | intro _ | assumption | extract_lets | apply inv_towersUp | apply inv_canalTables | apply inv_showBasin | apply inv_setFld | apply inv_ite | apply inv_foldl | split | dsimp +zetaDelta only

theorem inv_execBootStageComplete {s : State} (h : Keeps w0 s) (i) : OutKeeps w0 (execBootStageComplete i s) := by
  unfold execBootStageComplete
  with_reducible repeat' first | intro _ | assumption | extract_lets | apply inv_stageDone | apply out_ite | apply inv_next | apply inv_ite | apply inv_foldl | split | dsimp +zetaDelta only

theorem inv_execBootTimeout {s : State} (h : Keeps w0 s) : OutKeeps w0 (execBootTimeout s) := by
  unfold execBootTimeout
  with_reducible repeat' first | intro _ | assumption | extract_lets | apply inv_bootFailed | apply inv_toLk | apply out_ite | apply inv_next | apply inv_ite | apply inv_foldl | split | dsimp +zetaDelta only

theorem inv_execWarmReset {s : State} (h : Keeps w0 s) (id) : OutKeeps w0 (execWarmReset id s) := by
  unfold execWarmReset
  with_reducible repeat' first | intro _ | assumption | extract_lets | apply inv_tryWarmReset | apply out_ite | apply inv_next | apply inv_ite | apply inv_foldl | split | dsimp +zetaDelta only

theorem inv_execWarmResetComplete {s : State} (h : Keeps w0 s) (i) : OutKeeps w0 (execWarmResetComplete i s) := by
  unfold execWarmResetComplete
  with_reducible repeat' first | intro _ | assumption | extract_lets | apply inv_verifyAgain | apply inv_harvest | apply inv_lanternBoots | apply inv_warmParts | apply inv_warmDone | apply inv_bootFailed | apply out_ite | apply inv_next | apply inv_ite | apply inv_foldl | split | dsimp +zetaDelta only

theorem inv_execWarmResetTimeout {s : State} (h : Keeps w0 s) : OutKeeps w0 (execWarmResetTimeout s) := by
  unfold execWarmResetTimeout
  with_reducible repeat' first | intro _ | assumption | extract_lets | apply inv_cycleRecord | apply inv_railsOff | apply out_ite | apply inv_next | apply inv_ite | apply inv_foldl | split | dsimp +zetaDelta only

end Sys2Proof.Machine
end

