-- ==== Sys2Proof/Laws/InvTowers.lean ====
section
/-!
SUPPORT. Every operation of Machine/Towers.lean keeps the canonical form of registers and memory, and the queue of commands.
-/
namespace Sys2Proof.Machine

variable {w0 : List Instr}

theorem inv_rollCe {s : State} (h : Keeps w0 s) (t) : Keeps w0 (State.rollCe s t) := by
  unfold State.rollCe
  with_reducible repeat' first | intro _ | assumption | extract_lets | apply inv_setTower | apply inv_ite | apply inv_foldl | split | dsimp +zetaDelta only

theorem inv_towerCe {s : State} (h : Keeps w0 s) (t ch bank) : Keeps w0 (State.towerCe s t ch bank) := by
  unfold State.towerCe
  with_reducible repeat' first | intro _ | assumption | extract_lets | apply inv_bump | apply inv_rollCe | apply inv_setTower | apply inv_event | apply inv_note | apply inv_ite | apply inv_foldl | split | dsimp +zetaDelta only

theorem inv_logTower {s : State} (h : Keeps w0 s) (t ch c byte source syn bit ue) : Keeps w0 (State.logTower s t ch c byte source syn bit ue) := by
  unfold State.logTower
  with_reducible repeat' first | intro _ | assumption | extract_lets | apply inv_bump | apply inv_setFlds | apply inv_setReg | apply inv_setFld | apply inv_ite | apply inv_foldl | split | dsimp +zetaDelta only

theorem inv_towerUe {s : State} (h : Keeps w0 s) (t) : Keeps w0 (State.towerUe s t) := by
  unfold State.towerUe
  with_reducible repeat' first | intro _ | assumption | extract_lets | apply inv_raise3 | apply inv_bump | apply inv_ite | apply inv_foldl | split | dsimp +zetaDelta only

theorem inv_checkWords {s : State} (h : Keeps w0 s) (t ch c source ws) : Keeps w0 (s.checkWords t ch c source ws) := by
  induction ws generalizing s with
  | nil => exact h
  | cons x r ih =>
    have m : ∀ {s : State} (a v), Keeps w0 s → Keeps w0 ({ s with mem := Memory.writeLE s.mem a 8 v } : State) := fun a v h => ⟨h.1, Memory.wf_writeLE a 8 v h.2.1, h.2.2⟩
    unfold State.checkWords
    with_reducible repeat' first | assumption | apply inv_ite | apply ih | apply inv_towerCe | apply inv_towerUe | apply inv_logTower | apply m | split

theorem inv_countOdecc {s : State} (h : Keeps w0 s) (t) : Keeps w0 (State.countOdecc s t) := by
  unfold State.countOdecc
  with_reducible repeat' first | intro _ | assumption | extract_lets | apply inv_setFld | apply inv_ite | apply inv_foldl | split | dsimp +zetaDelta only

theorem inv_farFailOne {s : State} (h : Keeps w0 s) (r) : Keeps w0 (State.farFailOne s r) := by
  unfold State.farFailOne
  with_reducible repeat' first | intro _ | assumption | extract_lets | apply inv_respond | apply inv_bump | apply inv_ite | apply inv_foldl | split | dsimp +zetaDelta only

theorem inv_farFails {s : State} (h : Keeps w0 s) : Keeps w0 (State.farFails s) := by
  unfold State.farFails
  with_reducible repeat' first | intro _ | assumption | extract_lets | apply inv_farFailOne | apply inv_pushReinit | apply inv_raise | apply inv_ite | apply inv_foldl | split | dsimp +zetaDelta only

theorem inv_latchLog {s : State} (h : Keeps w0 s) (t n) : Keeps w0 (State.latchLog s t n) := by
  unfold State.latchLog
  with_reducible repeat' first | intro _ | assumption | extract_lets | apply inv_setTower | apply inv_ite | apply inv_foldl | split | dsimp +zetaDelta only

theorem inv_towerRead {s : State} (h : Keeps w0 s) (t ch c source r) : Keeps w0 (State.towerRead s t ch c source r) := by
  unfold State.towerRead
  with_reducible repeat' first | intro _ | assumption | extract_lets | apply inv_checkWords | apply inv_countOdecc | apply inv_towerCe | apply inv_logTower | apply inv_towerUe | apply inv_ite | apply inv_foldl | split | dsimp +zetaDelta only

theorem inv_writeMargin {s : State} (h : Keeps w0 s) (t v) : Keeps w0 (State.writeMargin s t v) := by
  unfold State.writeMargin
  with_reducible repeat' first | intro _ | assumption | extract_lets | apply inv_setReg | apply inv_setTower | apply inv_ite | apply inv_foldl | split | dsimp +zetaDelta only

theorem inv_execCeWindowStart {s : State} (h : Keeps w0 s) (t) : OutKeeps w0 (execCeWindowStart t s) := by
  unfold execCeWindowStart
  with_reducible repeat' first | intro _ | assumption | extract_lets | apply inv_rollCe | apply out_ite | apply inv_next | apply inv_ite | apply inv_foldl | split | dsimp +zetaDelta only

theorem inv_execChannelHang {s : State} (h : Keeps w0 s) (t ch addr) : OutKeeps w0 (execChannelHang t ch addr s) := by
  unfold execChannelHang
  with_reducible repeat' first | intro _ | assumption | extract_lets | apply inv_setFld | apply inv_setTower | apply inv_pushReinit | apply inv_raise | apply out_ite | apply inv_next | apply inv_ite | apply inv_foldl | split | dsimp +zetaDelta only

theorem inv_execFarLinkLoss {s : State} (h : Keeps w0 s) : OutKeeps w0 (execFarLinkLoss s) := by
  unfold execFarLinkLoss
  with_reducible repeat' first | intro _ | assumption | extract_lets | apply inv_farFails | apply out_ite | apply inv_next | apply inv_ite | apply inv_foldl | split | dsimp +zetaDelta only

theorem inv_execFarReadCompletion {s : State} (h : Keeps w0 s) (k poison) : OutKeeps w0 (execFarReadCompletion k poison s) := by
  unfold execFarReadCompletion
  with_reducible repeat' first | intro _ | assumption | extract_lets | apply inv_raise3 | apply inv_bump | apply inv_respond | apply inv_ackWrite | apply inv_commitQuarters | apply out_ite | apply inv_next | apply inv_ite | apply inv_foldl | split | dsimp +zetaDelta only

theorem inv_execFarRequestTimeout {s : State} (h : Keeps w0 s) : OutKeeps w0 (execFarRequestTimeout s) := by
  unfold execFarRequestTimeout
  with_reducible repeat' first | intro _ | assumption | extract_lets | apply inv_farFails | apply out_ite | apply inv_next | apply inv_ite | apply inv_foldl | split | dsimp +zetaDelta only

theorem inv_execMarginTestDone {s : State} (h : Keeps w0 s) (t errors) : OutKeeps w0 (execMarginTestDone t errors s) := by
  unfold execMarginTestDone
  with_reducible repeat' first | intro _ | assumption | extract_lets | apply inv_setFlds | apply inv_setTower | apply out_ite | apply inv_next | apply inv_ite | apply inv_foldl | split | dsimp +zetaDelta only

theorem inv_execMarginTestStart {s : State} (h : Keeps w0 s) (t v) : OutKeeps w0 (execMarginTestStart t v s) := by
  unfold execMarginTestStart
  with_reducible repeat' first | intro _ | assumption | extract_lets | apply inv_writeMargin | apply out_ite | apply inv_next | apply inv_ite | apply inv_foldl | split | dsimp +zetaDelta only

theorem inv_execScrubPositionDue {s : State} (h : Keeps w0 s) (t flips) : OutKeeps w0 (execScrubPositionDue t flips s) := by
  unfold execScrubPositionDue
  with_reducible repeat' first | intro _ | assumption | extract_lets | apply inv_setFld | apply inv_setTower | apply inv_bump | apply inv_checkWords | apply out_ite | apply inv_next | apply inv_ite | apply inv_foldl | split | dsimp +zetaDelta only

theorem inv_execTowerLogLowRead {s : State} (h : Keeps w0 s) (t n) : OutKeeps w0 (execTowerLogLowRead t n s) := by
  unfold execTowerLogLowRead
  with_reducible repeat' first | intro _ | assumption | extract_lets | apply inv_latchLog | apply out_ite | apply inv_next | apply inv_ite | apply inv_foldl | split | dsimp +zetaDelta only

theorem inv_execTowerReadComplete {s : State} (h : Keeps w0 s) (t ch c source r) : OutKeeps w0 (execTowerReadComplete t ch c source r s) := by
  unfold execTowerReadComplete
  with_reducible repeat' first | intro _ | assumption | extract_lets | apply inv_towerRead | apply out_ite | apply inv_next | apply inv_ite | apply inv_foldl | split | dsimp +zetaDelta only

theorem inv_execTowerRefresh {s : State} (h : Keeps w0 s) (t ch bank managed) : OutKeeps w0 (execTowerRefresh t ch bank managed s) := by
  unfold execTowerRefresh
  with_reducible repeat' first | intro _ | assumption | extract_lets | apply inv_setTower | apply out_ite | apply inv_next | apply inv_ite | apply inv_foldl | split | dsimp +zetaDelta only

theorem inv_execTowerTemperatureRead {s : State} (h : Keeps w0 s) (t temp) : OutKeeps w0 (execTowerTemperatureRead t temp s) := by
  unfold execTowerTemperatureRead
  with_reducible repeat' first | intro _ | assumption | extract_lets | apply inv_countThrottle | apply inv_setTower | apply inv_setFlds | apply inv_event | apply inv_thermalTrip | apply out_ite | apply inv_next | apply inv_ite | apply inv_foldl | split | dsimp +zetaDelta only

end Sys2Proof.Machine
end

