-- ==== Sys2Proof/Laws/InvMemCommands.lean ====
section
/-!
SUPPORT. Every operation of Machine/MemCommands.lean keeps the canonical form of registers and memory, and the queue of commands.
-/
namespace Sys2Proof.Machine

variable {w0 : List Instr}

theorem inv_copyFault {s : State} (h : Keeps w0 s) (a) : Keeps w0 (State.copyFault s a) := by
  unfold State.copyFault
  with_reducible repeat' first | intro _ | assumption | extract_lets | apply inv_retiredHit | apply inv_ite | apply inv_foldl | split | dsimp +zetaDelta only

theorem inv_failNode {s : State} (h : Keeps w0 s) (g k a) : Keeps w0 (State.failNode s g k a) := by
  unfold State.failNode
  with_reducible repeat' first | intro _ | assumption | extract_lets | apply inv_raise | apply inv_nodeDone | apply inv_ite | apply inv_foldl | split | dsimp +zetaDelta only

theorem inv_faultToAddress {s : State} (h : Keeps w0 s) (site) : Keeps w0 (State.faultToAddress s site) := by
  unfold State.faultToAddress
  with_reducible repeat' first | intro _ | assumption | extract_lets | apply inv_setReg | apply inv_modMover | apply inv_spireFault | apply inv_ite | apply inv_foldl | split | dsimp +zetaDelta only

theorem inv_invalidate {s : State} (h : Keeps w0 s) (a n) : Keeps w0 (State.invalidate s a n) := by
  unfold State.invalidate
  with_reducible repeat' first | intro _ | assumption | extract_lets | apply inv_ite | apply inv_foldl | split | dsimp +zetaDelta only

theorem inv_resolveLimit {s : State} (h : Keeps w0 s) (t) : Keeps w0 (State.resolveLimit s t) := by
  unfold State.resolveLimit
  with_reducible repeat' first | intro _ | assumption | extract_lets | apply inv_ite | apply inv_foldl | split | dsimp +zetaDelta only

theorem inv_retryNode {s : State} (h : Keeps w0 s) (g k) : Keeps w0 (State.retryNode s g k) := by
  unfold State.retryNode
  with_reducible repeat' first | intro _ | assumption | extract_lets | apply inv_setGraph | apply inv_ite | apply inv_foldl | split | dsimp +zetaDelta only

theorem inv_setInterleave {s : State} (h : Keeps w0 s) (d g es) : Keeps w0 (State.setInterleave s d g es) := by
  have hw : ∀ (l : List (Nat × Byte)) (m : Memory), Memory.wf m → Memory.wf (l.foldl (fun m c => Memory.writeByte m c.1 c.2) m) := by
    intro l
    induction l with
    | nil => exact fun _ hm => hm
    | cons c l ih => exact fun m hm => ih _ (Memory.wf_writeByte _ _ hm)
  unfold State.setInterleave
  extract_lets +onlyGivenNames t moved
  have ht : Keeps w0 t := inv_setReg h ..
  clear_value moved
  clear_value t
  exact ⟨ht.1, hw _ _ (Memory.wf_filter _ h.2.1), ht.2.2⟩

theorem inv_showRetired {s : State} (h : Keeps w0 s) : Keeps w0 (State.showRetired s) := by
  unfold State.showRetired
  with_reducible repeat' first | intro _ | assumption | extract_lets | apply inv_setFld | apply inv_ite | apply inv_foldl | split | dsimp +zetaDelta only

theorem inv_copyBarges {s : State} (h : Keeps w0 s) (k src dst n) : Keeps w0 (copyBarges k src dst n s).2.2 := by
  induction k generalizing s src dst n with
  | zero => exact h
  | succ k ih =>
    unfold copyBarges
    dsimp only
    with_reducible repeat' first | assumption | apply inv_ite3 | apply ih | apply inv_store | apply inv_reachAddr | apply inv_copyFault

theorem inv_cmdCopy {s : State} (h : Keeps w0 s) (c) : Keeps w0 (cmdCopy c s).2 := by
  unfold cmdCopy
  with_reducible repeat' first | intro _ | assumption | extract_lets | apply inv_copyBarges | apply inv_ite2 | apply inv_ite | apply inv_foldl | split | dsimp +zetaDelta only

theorem inv_fillBarges {s : State} (h : Keeps w0 s) (k dst bs n) : Keeps w0 (fillBarges k dst bs n s).2.2 := by
  induction k generalizing s dst n with
  | zero => exact h
  | succ k ih =>
    unfold fillBarges
    with_reducible repeat' first | assumption | apply inv_ite3 | apply ih | apply inv_store | apply inv_reachAddr | apply inv_copyFault

theorem inv_cmdFill {s : State} (h : Keeps w0 s) (c) : Keeps w0 (cmdFill c s).2 := by
  unfold cmdFill
  with_reducible repeat' first | intro _ | assumption | extract_lets | apply inv_fillBarges | apply inv_ite2 | apply inv_ite | apply inv_foldl | split | dsimp +zetaDelta only

theorem inv_cmdInterleave {s : State} (h : Keeps w0 s) (c) : Keeps w0 (cmdInterleave c s).2 := by
  unfold cmdInterleave
  with_reducible repeat' first | intro _ | assumption | extract_lets | apply inv_setInterleave | apply inv_rewriteWork | apply inv_ite2 | apply inv_ite | apply inv_foldl | split | dsimp +zetaDelta only

theorem inv_cmdPageMigrate {s : State} (h : Keeps w0 s) (c) : Keeps w0 (cmdPageMigrate c s).2 := by
  unfold cmdPageMigrate
  with_reducible repeat' first | intro _ | assumption | extract_lets | apply inv_store | apply inv_storeLE | apply inv_clearFault | apply inv_retryNode | apply inv_collReady | apply inv_ite2 | apply inv_ite | apply inv_foldl | split | dsimp +zetaDelta only

theorem inv_cmdPageResolve {s : State} (h : Keeps w0 s) (c) : Keeps w0 (cmdPageResolve c s).2 := by
  unfold cmdPageResolve
  with_reducible repeat' first | intro _ | assumption | extract_lets | apply inv_faultToAddress | apply inv_clearFault | apply inv_failNode | apply inv_retryNode | apply inv_collAddressFault | apply inv_collReady | apply inv_ite2 | apply inv_ite | apply inv_foldl | split | dsimp +zetaDelta only

theorem inv_cmdRetire {s : State} (h : Keeps w0 s) (c) : Keeps w0 (cmdRetire c s).2 := by
  unfold cmdRetire
  with_reducible repeat' first | intro _ | assumption | extract_lets | apply inv_showRetired | apply inv_setReg | apply inv_ite2 | apply inv_ite | apply inv_foldl | split | dsimp +zetaDelta only

theorem inv_cmdRetireClear {s : State} (h : Keeps w0 s) (c) : Keeps w0 (cmdRetireClear c s).2 :=
  inv_showRetired ⟨twf_filter _ h.1, h.2⟩

theorem inv_cmdXltInvalidate {s : State} (h : Keeps w0 s) (c) : Keeps w0 (cmdXltInvalidate c s).2 := by
  unfold cmdXltInvalidate
  with_reducible repeat' first | intro _ | assumption | extract_lets | apply inv_invalidate | apply inv_ite2 | apply inv_ite | apply inv_foldl | split | dsimp +zetaDelta only

theorem inv_execCopy {s : State} (h : Keeps w0 s) (id) : OutKeeps w0 (execCopy id s) := by
  unfold execCopy
  with_reducible repeat' first | intro _ | assumption | extract_lets | apply inv_attempt | apply inv_cmdCopy | apply out_ite | apply inv_next | apply inv_ite | apply inv_foldl | split | dsimp +zetaDelta only

theorem inv_execFill {s : State} (h : Keeps w0 s) (id) : OutKeeps w0 (execFill id s) := by
  unfold execFill
  with_reducible repeat' first | intro _ | assumption | extract_lets | apply inv_attempt | apply inv_cmdFill | apply out_ite | apply inv_next | apply inv_ite | apply inv_foldl | split | dsimp +zetaDelta only

theorem inv_execInterleave {s : State} (h : Keeps w0 s) (id) : OutKeeps w0 (execInterleave id s) := by
  unfold execInterleave
  with_reducible repeat' first | intro _ | assumption | extract_lets | apply inv_attempt | apply inv_cmdInterleave | apply out_ite | apply inv_next | apply inv_ite | apply inv_foldl | split | dsimp +zetaDelta only

theorem inv_execPageMigrate {s : State} (h : Keeps w0 s) (id) : OutKeeps w0 (execPageMigrate id s) := by
  unfold execPageMigrate
  with_reducible repeat' first | intro _ | assumption | extract_lets | apply inv_attempt | apply inv_cmdPageMigrate | apply out_ite | apply inv_next | apply inv_ite | apply inv_foldl | split | dsimp +zetaDelta only

theorem inv_execPageResolve {s : State} (h : Keeps w0 s) (id) : OutKeeps w0 (execPageResolve id s) := by
  unfold execPageResolve
  with_reducible repeat' first | intro _ | assumption | extract_lets | apply inv_attempt | apply inv_cmdPageResolve | apply out_ite | apply inv_next | apply inv_ite | apply inv_foldl | split | dsimp +zetaDelta only

theorem inv_execRetire {s : State} (h : Keeps w0 s) (id) : OutKeeps w0 (execRetire id s) := by
  unfold execRetire
  with_reducible repeat' first | intro _ | assumption | extract_lets | apply inv_attempt | apply inv_cmdRetire | apply out_ite | apply inv_next | apply inv_ite | apply inv_foldl | split | dsimp +zetaDelta only

theorem inv_execRetireClear {s : State} (h : Keeps w0 s) (id) : OutKeeps w0 (execRetireClear id s) := by
  unfold execRetireClear
  with_reducible repeat' first | intro _ | assumption | extract_lets | apply inv_attempt | apply inv_cmdRetireClear | apply out_ite | apply inv_next | apply inv_ite | apply inv_foldl | split | dsimp +zetaDelta only

theorem inv_execXltInvalidate {s : State} (h : Keeps w0 s) (id) : OutKeeps w0 (execXltInvalidate id s) := by
  unfold execXltInvalidate
  with_reducible repeat' first | intro _ | assumption | extract_lets | apply inv_finishCmd | apply inv_attempt | apply inv_cmdXltInvalidate | apply out_ite | apply inv_next | apply inv_ite | apply inv_foldl | split | dsimp +zetaDelta only

theorem inv_execXltResolveTimeout {s : State} (h : Keeps w0 s) (w) : OutKeeps w0 (execXltResolveTimeout w s) := by
  unfold execXltResolveTimeout
  with_reducible repeat' first | intro _ | assumption | extract_lets | apply inv_faultToAddress | apply inv_resolveLimit | apply inv_failNode | apply inv_collAddressFault | apply out_ite | apply inv_next | apply inv_ite | apply inv_foldl | split | dsimp +zetaDelta only

end Sys2Proof.Machine
end

