-- ==== Sys2Proof/Laws/InvRecovery.lean ====
section
/-!
SUPPORT. Every operation of Machine/Recovery.lean keeps the canonical form of registers and memory, and the queue of commands.
-/
namespace Sys2Proof.Machine

variable {w0 : List Instr}

theorem inv_backInService {s : State} (h : Keeps w0 s) (r) : Keeps w0 (s.backInService r) := by
  have f : ∀ {s : State} (p : Host.Cell → Bool), Keeps w0 s → Keeps w0 ({ s with mem := s.mem.filter p } : State) := fun _ h => ⟨h.1, Memory.wf_filter _ h.2.1, h.2.2⟩
  unfold State.backInService
  with_reducible repeat' first | assumption | apply inv_ite | apply inv_showQueue | apply inv_setQueue | apply inv_setFld | apply f | apply inv_setTower | apply inv_showBasin | apply inv_persistLate | apply inv_setAqState | split

theorem inv_queueReinit {s : State} (h : Keeps w0 s) (q cmd) : Keeps w0 (State.queueReinit s q cmd) := by
  unfold State.queueReinit
  with_reducible repeat' first | intro _ | assumption | extract_lets | apply inv_pushReinit | apply inv_cqDisable | apply inv_setFld | apply inv_ite | apply inv_foldl | split | dsimp +zetaDelta only

theorem inv_beginReinit {s : State} (h : Keeps w0 s) (kind index id) : Keeps w0 (State.beginReinit s kind index id) := by
  unfold State.beginReinit
  with_reducible repeat' first | intro _ | assumption | extract_lets | apply inv_pushReinit | apply inv_dropStreams | apply inv_queueReinit | apply inv_enterRetrain | apply inv_setLink | apply inv_enterLink | apply inv_setFld | apply inv_setTower | apply inv_basinReinit | apply inv_setAqState | apply inv_farFailOne | apply inv_ite | apply inv_foldl | split | dsimp +zetaDelta only

theorem inv_recovered {s : State} (h : Keeps w0 s) (kind index) : Keeps w0 (State.recovered s kind index) := by
  unfold State.recovered
  with_reducible repeat' first | intro _ | assumption | extract_lets | apply inv_note | apply inv_ite | apply inv_foldl | split | dsimp +zetaDelta only

theorem inv_outOfService {s : State} (h : Keeps w0 s) (r) : Keeps w0 (State.outOfService s r) := by
  unfold State.outOfService
  with_reducible repeat' first | intro _ | assumption | extract_lets | apply inv_setFld | apply inv_raise | apply inv_setAqState | apply inv_aqErr | apply inv_ite | apply inv_foldl | split | dsimp +zetaDelta only

theorem inv_endRung {s : State} (h : Keeps w0 s) (r ok) : Keeps w0 (State.endRung s r ok) := by
  unfold State.endRung
  with_reducible repeat' first | intro _ | assumption | extract_lets | apply inv_recovered | apply inv_backInService | apply inv_outOfService | apply inv_finishCmd | apply inv_ite | apply inv_foldl | split | dsimp +zetaDelta only

theorem inv_fenceSite {s : State} (h : Keeps w0 s) (site) : Keeps w0 (State.fenceSite s site) := by
  unfold State.fenceSite
  with_reducible repeat' first | intro _ | assumption | extract_lets | apply inv_abortSpire | apply inv_raise | apply inv_setSpState | apply inv_ite | apply inv_foldl | split | dsimp +zetaDelta only

theorem inv_followReinit {s : State} (h : Keeps w0 s) (id) : Keeps w0 (State.followReinit s id) := by
  unfold State.followReinit
  with_reducible repeat' first | intro _ | assumption | extract_lets | apply inv_beginReinit | apply inv_ite | apply inv_foldl | split | dsimp +zetaDelta only

theorem inv_cmdFuncReinit {s : State} (h : Keeps w0 s) (c) : Keeps w0 (cmdFuncReinit c s).2 := by
  unfold cmdFuncReinit
  with_reducible repeat' first | intro _ | assumption | extract_lets  | apply inv_ite2 | apply inv_ite | apply inv_foldl | split | dsimp +zetaDelta only

theorem inv_tryReinit {s : State} (h : Keeps w0 s) (id) : Keeps w0 (State.tryReinit s id) := by
  unfold State.tryReinit
  with_reducible repeat' first | intro _ | assumption | extract_lets | apply inv_followReinit | apply inv_attempt | apply inv_cmdFuncReinit | apply inv_ite | apply inv_foldl | split | dsimp +zetaDelta only

theorem inv_cmdErrRead {s : State} (h : Keeps w0 s) (c) : Keeps w0 (cmdErrRead c s).2 := by
  unfold cmdErrRead
  with_reducible repeat' first | intro _ | assumption | extract_lets | apply inv_lanternStore | apply inv_setFld | apply inv_ite2 | apply inv_ite | apply inv_foldl | split | dsimp +zetaDelta only

theorem inv_cmdIdentify {s : State} (h : Keeps w0 s) (x) : Keeps w0 (cmdIdentify x s).2 := by
  unfold cmdIdentify
  with_reducible repeat' first | intro _ | assumption | extract_lets  | apply inv_ite2 | apply inv_ite | apply inv_foldl | split | dsimp +zetaDelta only

theorem inv_cmdJournalMark {s : State} (h : Keeps w0 s) (c) : Keeps w0 (cmdJournalMark c s).2 := by
  unfold cmdJournalMark
  with_reducible repeat' first | intro _ | assumption | extract_lets  | apply inv_ite2 | apply inv_ite | apply inv_foldl | split | dsimp +zetaDelta only

theorem inv_cmdJournalQuery {s : State} (h : Keeps w0 s) (c) : Keeps w0 (cmdJournalQuery c s).2 := by
  unfold cmdJournalQuery
  with_reducible repeat' first | intro _ | assumption | extract_lets | apply inv_bump | apply inv_lanternStore | apply inv_ite2 | apply inv_ite | apply inv_foldl | split | dsimp +zetaDelta only

theorem inv_cmdNop {s : State} (h : Keeps w0 s) (x) : Keeps w0 (cmdNop x s).2 := by
  unfold cmdNop
  with_reducible repeat' first | intro _ | assumption | extract_lets  | apply inv_ite2 | apply inv_ite | apply inv_foldl | split | dsimp +zetaDelta only

theorem inv_cmdSpireFence {s : State} (h : Keeps w0 s) (c) : Keeps w0 (cmdSpireFence c s).2 := by
  unfold cmdSpireFence
  with_reducible repeat' first | intro _ | assumption | extract_lets | apply inv_fenceSite | apply inv_setSpState | apply inv_ite2 | apply inv_ite | apply inv_foldl | split | dsimp +zetaDelta only

theorem inv_cmdTimeRead {s : State} (h : Keeps w0 s) (x) : Keeps w0 (cmdTimeRead x s).2 := by
  unfold cmdTimeRead
  with_reducible repeat' first | intro _ | assumption | extract_lets  | apply inv_ite2 | apply inv_ite | apply inv_foldl | split | dsimp +zetaDelta only

theorem inv_execErrRead {s : State} (h : Keeps w0 s) (id) : OutKeeps w0 (execErrRead id s) := by
  unfold execErrRead
  with_reducible repeat' first | intro _ | assumption | extract_lets | apply inv_attempt | apply inv_cmdErrRead | apply out_ite | apply inv_next | apply inv_ite | apply inv_foldl | split | dsimp +zetaDelta only

theorem inv_execFuncReinit {s : State} (h : Keeps w0 s) (id) : OutKeeps w0 (execFuncReinit id s) := by
  unfold execFuncReinit
  with_reducible repeat' first | intro _ | assumption | extract_lets | apply inv_tryReinit | apply out_ite | apply inv_next | apply inv_ite | apply inv_foldl | split | dsimp +zetaDelta only

theorem inv_execIdentify {s : State} (h : Keeps w0 s) (id) : OutKeeps w0 (execIdentify id s) := by
  unfold execIdentify
  with_reducible repeat' first | intro _ | assumption | extract_lets | apply inv_attempt | apply inv_cmdIdentify | apply out_ite | apply inv_next | apply inv_ite | apply inv_foldl | split | dsimp +zetaDelta only

theorem inv_execJournalMark {s : State} (h : Keeps w0 s) (id) : OutKeeps w0 (execJournalMark id s) := by
  unfold execJournalMark
  with_reducible repeat' first | intro _ | assumption | extract_lets | apply inv_attempt | apply inv_cmdJournalMark | apply out_ite | apply inv_next | apply inv_ite | apply inv_foldl | split | dsimp +zetaDelta only

theorem inv_execJournalQuery {s : State} (h : Keeps w0 s) (id) : OutKeeps w0 (execJournalQuery id s) := by
  unfold execJournalQuery
  with_reducible repeat' first | intro _ | assumption | extract_lets | apply inv_attempt | apply inv_cmdJournalQuery | apply out_ite | apply inv_next | apply inv_ite | apply inv_foldl | split | dsimp +zetaDelta only

theorem inv_execNop {s : State} (h : Keeps w0 s) (id) : OutKeeps w0 (execNop id s) := by
  unfold execNop
  with_reducible repeat' first | intro _ | assumption | extract_lets | apply inv_attempt | apply inv_cmdNop | apply out_ite | apply inv_next | apply inv_ite | apply inv_foldl | split | dsimp +zetaDelta only

theorem inv_execQueueDmaError {s : State} (h : Keeps w0 s) (q) : OutKeeps w0 (execQueueDmaError q s) := by
  unfold execQueueDmaError
  with_reducible repeat' first | intro _ | assumption | extract_lets | apply inv_queueReinit | apply out_ite | apply inv_next | apply inv_ite | apply inv_foldl | split | dsimp +zetaDelta only

theorem inv_execReinitComplete {s : State} (h : Keeps w0 s) (kind index ok) : OutKeeps w0 (execReinitComplete kind index ok s) := by
  unfold execReinitComplete
  with_reducible repeat' first | intro _ | assumption | extract_lets | apply inv_endRung | apply out_ite | apply inv_next | apply inv_ite | apply inv_foldl | split | dsimp +zetaDelta only

theorem inv_execReinitLimitExpiry {s : State} (h : Keeps w0 s) (kind index) : OutKeeps w0 (execReinitLimitExpiry kind index s) := by
  unfold execReinitLimitExpiry
  with_reducible repeat' first | intro _ | assumption | extract_lets | apply inv_failLink | apply inv_endRung | apply out_ite | apply inv_next | apply inv_ite | apply inv_foldl | split | dsimp +zetaDelta only

theorem inv_execSpireFence {s : State} (h : Keeps w0 s) (id) : OutKeeps w0 (execSpireFence id s) := by
  unfold execSpireFence
  with_reducible repeat' first | intro _ | assumption | extract_lets | apply inv_attempt | apply inv_cmdSpireFence | apply out_ite | apply inv_next | apply inv_ite | apply inv_foldl | split | dsimp +zetaDelta only

theorem inv_execTimeRead {s : State} (h : Keeps w0 s) (id) : OutKeeps w0 (execTimeRead id s) := by
  unfold execTimeRead
  with_reducible repeat' first | intro _ | assumption | extract_lets | apply inv_attempt | apply inv_cmdTimeRead | apply out_ite | apply inv_next | apply inv_ite | apply inv_foldl | split | dsimp +zetaDelta only

end Sys2Proof.Machine
end

