-- ==== Sys2Proof/Laws/InvSecurity.lean ====
section
/-!
SUPPORT. Every operation of Machine/Security.lean keeps the canonical form of registers and memory, and the queue of commands.
-/
namespace Sys2Proof.Machine

variable {w0 : List Instr}

theorem inv_activate {s : State} (h : Keeps w0 s) (typ b) : Keeps w0 (State.activate s typ b) := by
  unfold State.activate
  with_reducible repeat' first | assumption | apply inv_showImage | apply inv_beginBoot | apply inv_setFld | apply inv_ite | apply inv_foldl | intro _ | split | extract_lets | dsimp +zetaDelta only

theorem inv_authFails {s : State} (h : Keeps w0 s) : Keeps w0 (State.authFails s) := by
  unfold State.authFails
  with_reducible repeat' first | intro _ | assumption | extract_lets | apply inv_setFld | apply inv_bump | apply inv_ite | apply inv_foldl | split | dsimp +zetaDelta only

theorem inv_commitSvn {s : State} (h : Keeps w0 s) (typ) : Keeps w0 (State.commitSvn s typ) := by
  unfold State.commitSvn
  with_reducible repeat' first | intro _ | assumption | extract_lets | apply inv_setFld | apply inv_ite | apply inv_foldl | split | dsimp +zetaDelta only

theorem inv_dropNonce {s : State} (h : Keeps w0 s) : Keeps w0 (State.dropNonce s) := by
  unfold State.dropNonce
  with_reducible repeat' first | intro _ | assumption | extract_lets | apply inv_setFld | apply inv_ite | apply inv_foldl | split | dsimp +zetaDelta only

theorem inv_pldm {s : State} (h : Keeps w0 s) (code) : Keeps w0 (State.pldm s code) := by
  unfold State.pldm
  with_reducible repeat' first | intro _ | assumption | extract_lets | apply inv_ite | apply inv_foldl | split | dsimp +zetaDelta only

theorem inv_effectPower {s : State} (h : Keeps w0 s) (cause) : Keeps w0 (State.effectPower s cause) := by
  unfold State.effectPower
  with_reducible repeat' first | intro _ | assumption | extract_lets | apply inv_pldm | apply inv_orderlyOff | apply inv_ite | apply inv_foldl | split | dsimp +zetaDelta only

theorem inv_openDebug {s : State} (h : Keeps w0 s) : Keeps w0 (State.openDebug s) := by
  unfold State.openDebug
  with_reducible repeat' first | intro _ | assumption | extract_lets | apply inv_setFld | apply inv_setFlds | apply inv_ite | apply inv_foldl | split | dsimp +zetaDelta only

theorem inv_setIde {s : State} (h : Keeps w0 s) (v) : Keeps w0 (State.setIde s v) := by
  unfold State.setIde
  with_reducible repeat' first | intro _ | assumption | extract_lets | apply inv_setFld | apply inv_ite | apply inv_foldl | split | dsimp +zetaDelta only

theorem inv_cmdDebugChallenge {s : State} (h : Keeps w0 s) (x) : Keeps w0 (cmdDebugChallenge x s).2 := by
  unfold cmdDebugChallenge
  with_reducible repeat' first | intro _ | assumption | extract_lets | apply inv_authFails | apply inv_fresh | apply inv_setFld | apply inv_ite2 | apply inv_ite | apply inv_foldl | split | dsimp +zetaDelta only

theorem inv_cmdDebugUnlock {s : State} (h : Keeps w0 s) (c) : Keeps w0 (cmdDebugUnlock c s).2 := by
  unfold cmdDebugUnlock
  with_reducible repeat' first | intro _ | assumption | extract_lets | apply inv_authFails | apply inv_openDebug | apply inv_dropNonce | apply inv_ite2 | apply inv_ite | apply inv_foldl | split | dsimp +zetaDelta only

theorem inv_cmdManufService {s : State} (h : Keeps w0 s) (c) : Keeps w0 (cmdManufService c s).2 := by
  unfold cmdManufService
  with_reducible repeat' first | intro _ | assumption | extract_lets | apply inv_authFails | apply inv_setFld | apply inv_dropNonce | apply inv_ite2 | apply inv_ite | apply inv_foldl | split | dsimp +zetaDelta only

theorem inv_cmdSecStatus {s : State} (h : Keeps w0 s) (x) : Keeps w0 (cmdSecStatus x s).2 := by
  unfold cmdSecStatus
  with_reducible repeat' first | intro _ | assumption | extract_lets  | apply inv_ite2 | apply inv_ite | apply inv_foldl | split | dsimp +zetaDelta only

theorem inv_execActivateFirmware {s : State} (h : Keeps w0 s) : OutKeeps w0 (execActivateFirmware s) := by
  unfold execActivateFirmware
  with_reducible repeat' first | assumption | ((try lift_lets -underBinder); intro x; (try refine inv_cut x (fun _ => ?_) ?_); clear_value x) | apply inv_pldm | apply inv_activate | apply inv_bump | apply out_ite | apply inv_next | apply inv_ite | refine inv_pair ?_ (fun _ _ _ => ?_) | refine inv_foldl ?_ (fun _ _ _ => ?_) | split | dsimp +zetaDelta only

theorem inv_execCapEffecter {s : State} (h : Keeps w0 s) (w) : OutKeeps w0 (execCapEffecter w s) := by
  unfold execCapEffecter
  with_reducible repeat' first | intro _ | assumption | extract_lets | apply inv_pldm | apply inv_setCap | apply out_ite | apply inv_next | apply inv_ite | apply inv_foldl | split | dsimp +zetaDelta only

theorem inv_execCommitCfg {s : State} (h : Keeps w0 s) : OutKeeps w0 (execCommitCfg s) := by
  unfold execCommitCfg
  with_reducible repeat' first | intro _ | assumption | extract_lets | apply inv_commitSvn | apply out_ite | apply inv_next | apply inv_ite | apply inv_foldl | split | dsimp +zetaDelta only

theorem inv_execCommitLk {s : State} (h : Keeps w0 s) : OutKeeps w0 (execCommitLk s) := by
  unfold execCommitLk
  with_reducible repeat' first | intro _ | assumption | extract_lets | apply inv_commitSvn | apply out_ite | apply inv_next | apply inv_ite | apply inv_foldl | split | dsimp +zetaDelta only

theorem inv_execCommitLt {s : State} (h : Keeps w0 s) : OutKeeps w0 (execCommitLt s) := by
  unfold execCommitLt
  with_reducible repeat' first | intro _ | assumption | extract_lets | apply inv_commitSvn | apply out_ite | apply inv_next | apply inv_ite | apply inv_foldl | split | dsimp +zetaDelta only

theorem inv_execDebugChallenge {s : State} (h : Keeps w0 s) (id) : OutKeeps w0 (execDebugChallenge id s) := by
  unfold execDebugChallenge
  with_reducible repeat' first | intro _ | assumption | extract_lets | apply inv_attempt | apply inv_cmdDebugChallenge | apply out_ite | apply inv_next | apply inv_ite | apply inv_foldl | split | dsimp +zetaDelta only

theorem inv_execDebugUnlock {s : State} (h : Keeps w0 s) (id) : OutKeeps w0 (execDebugUnlock id s) := by
  unfold execDebugUnlock
  with_reducible repeat' first | intro _ | assumption | extract_lets | apply inv_attempt | apply inv_cmdDebugUnlock | apply out_ite | apply inv_next | apply inv_ite | apply inv_foldl | split | dsimp +zetaDelta only

theorem inv_execIdeIntegrityFailure {s : State} (h : Keeps w0 s) : OutKeeps w0 (execIdeIntegrityFailure s) := by
  unfold execIdeIntegrityFailure
  with_reducible repeat' first | intro _ | assumption | extract_lets | apply inv_bump | apply inv_setIde | apply out_ite | apply inv_next | apply inv_ite | apply inv_foldl | split | dsimp +zetaDelta only

theorem inv_execIdeKm {s : State} (h : Keeps w0 s) (k) : OutKeeps w0 (execIdeKm k s) := by
  unfold execIdeKm
  with_reducible repeat' first | intro _ | assumption | extract_lets | apply inv_setFld | apply inv_setIde | apply out_ite | apply inv_next | apply inv_ite | apply inv_foldl | split | dsimp +zetaDelta only

theorem inv_execManufService {s : State} (h : Keeps w0 s) (id) : OutKeeps w0 (execManufService id s) := by
  unfold execManufService
  with_reducible repeat' first | intro _ | assumption | extract_lets | apply inv_attempt | apply inv_cmdManufService | apply out_ite | apply inv_next | apply inv_ite | apply inv_foldl | split | dsimp +zetaDelta only

theorem inv_execNonceExpiry {s : State} (h : Keeps w0 s) : OutKeeps w0 (execNonceExpiry s) := by
  unfold execNonceExpiry
  with_reducible repeat' first | intro _ | assumption | extract_lets | apply inv_dropNonce | apply out_ite | apply inv_next | apply inv_ite | apply inv_foldl | split | dsimp +zetaDelta only

theorem inv_execPodConfigurationRecord {s : State} (h : Keeps w0 s) (podId topo x y z) : OutKeeps w0 (execPodConfigurationRecord podId topo x y z s) := by
  unfold execPodConfigurationRecord
  with_reducible repeat' first | intro _ | assumption | extract_lets  | apply out_ite | apply inv_next | apply inv_ite | apply inv_foldl | split | dsimp +zetaDelta only

theorem inv_execPowerEffecterCycle {s : State} (h : Keeps w0 s) : OutKeeps w0 (execPowerEffecterCycle s) := by
  unfold execPowerEffecterCycle
  with_reducible repeat' first | intro _ | assumption | extract_lets | apply inv_effectPower | apply out_ite | apply inv_next | apply inv_ite | apply inv_foldl | split | dsimp +zetaDelta only

theorem inv_execPowerEffecterOff {s : State} (h : Keeps w0 s) : OutKeeps w0 (execPowerEffecterOff s) := by
  unfold execPowerEffecterOff
  with_reducible repeat' first | intro _ | assumption | extract_lets | apply inv_effectPower | apply out_ite | apply inv_next | apply inv_ite | apply inv_foldl | split | dsimp +zetaDelta only

theorem inv_execPowerEffecterOn {s : State} (h : Keeps w0 s) : OutKeeps w0 (execPowerEffecterOn s) := by
  unfold execPowerEffecterOn
  with_reducible repeat' first | intro _ | assumption | extract_lets | apply inv_pldm | apply inv_beginBoot | apply out_ite | apply inv_next | apply inv_ite | apply inv_foldl | split | dsimp +zetaDelta only

theorem inv_execReleaseOutOfService {s : State} (h : Keeps w0 s) : OutKeeps w0 (execReleaseOutOfService s) := by
  unfold execReleaseOutOfService
  with_reducible repeat' first | intro _ | assumption | extract_lets | apply inv_beginBoot | apply out_ite | apply inv_next | apply inv_ite | apply inv_foldl | split | dsimp +zetaDelta only

theorem inv_execRequestFirmwareData {s : State} (h : Keeps w0 s) (off bs) : OutKeeps w0 (execRequestFirmwareData off bs s) := by
  unfold execRequestFirmwareData
  with_reducible repeat' first | intro _ | assumption | extract_lets | apply inv_pldm | apply inv_setFld | apply out_ite | apply inv_next | apply inv_ite | apply inv_foldl | split | dsimp +zetaDelta only

theorem inv_execRequestUpdate {s : State} (h : Keeps w0 s) (comp size) : OutKeeps w0 (execRequestUpdate comp size s) := by
  unfold execRequestUpdate
  with_reducible repeat' first | intro _ | assumption | extract_lets | apply inv_pldm | apply out_ite | apply inv_next | apply inv_ite | apply inv_foldl | split | dsimp +zetaDelta only

theorem inv_execSecStatus {s : State} (h : Keeps w0 s) (id) : OutKeeps w0 (execSecStatus id s) := by
  unfold execSecStatus
  with_reducible repeat' first | intro _ | assumption | extract_lets | apply inv_attempt | apply inv_cmdSecStatus | apply out_ite | apply inv_next | apply inv_ite | apply inv_foldl | split | dsimp +zetaDelta only

theorem inv_execSensorRead {s : State} (h : Keeps w0 s) (id) : OutKeeps w0 (execSensorRead id s) := by
  unfold execSensorRead
  with_reducible repeat' first | intro _ | assumption | extract_lets | apply inv_pldm | apply out_ite | apply inv_next | apply inv_ite | apply inv_foldl | split | dsimp +zetaDelta only

theorem inv_execSpdmRequest {s : State} (h : Keeps w0 s) (responder r) : OutKeeps w0 (execSpdmRequest responder r s) := by
  unfold execSpdmRequest
  with_reducible repeat' first | intro _ | assumption | extract_lets | apply inv_bump | apply out_ite | apply inv_next | apply inv_ite | apply inv_foldl | split | dsimp +zetaDelta only

theorem inv_execSvnProgrammingComplete {s : State} (h : Keeps w0 s) (typ) : OutKeeps w0 (execSvnProgrammingComplete typ s) := by
  unfold execSvnProgrammingComplete
  with_reducible repeat' first | intro _ | assumption | extract_lets | apply inv_setFld | apply out_ite | apply inv_next | apply inv_ite | apply inv_foldl | split | dsimp +zetaDelta only

theorem inv_execTransferComplete {s : State} (h : Keeps w0 s) : OutKeeps w0 (execTransferComplete s) := by
  unfold execTransferComplete
  with_reducible repeat' first | intro _ | assumption | extract_lets | apply inv_pldm | apply out_ite | apply inv_next | apply inv_ite | apply inv_foldl | split | dsimp +zetaDelta only

end Sys2Proof.Machine
end

