-- ==== Sys2Proof/Laws/InvTestModes.lean ====
section
/-!
SUPPORT. Every operation of Machine/TestModes.lean keeps the canonical form of registers and memory, and the queue of commands.
-/
namespace Sys2Proof.Machine

variable {w0 : List Instr}

theorem inv_showTest {s : State} (h : Keeps w0 s) (bit on) : Keeps w0 (State.showTest s bit on) := by
  unfold State.showTest
  with_reducible repeat' first | intro _ | assumption | extract_lets | apply inv_setFld | apply inv_ite | apply inv_foldl | split | dsimp +zetaDelta only

theorem inv_beginScan {s : State} (h : Keeps w0 s) : Keeps w0 (State.beginScan s) := by
  unfold State.beginScan
  with_reducible repeat' first | intro _ | assumption | extract_lets | apply inv_stopAll | apply inv_showTest | apply inv_ite | apply inv_foldl | split | dsimp +zetaDelta only

theorem inv_clearTower {s : State} (h : Keeps w0 s) (t) : Keeps w0 (s.clearTower t) := ⟨h.1, Memory.wf_filter _ h.2.1, h.2.2⟩

theorem inv_endScan {s : State} (h : Keeps w0 s) : Keeps w0 (State.endScan s) := by
  unfold State.endScan
  with_reducible repeat' first | intro _ | assumption | extract_lets | apply inv_startWarm | apply inv_resetNotice | apply inv_ite | apply inv_foldl | split | dsimp +zetaDelta only

theorem inv_enterTest {s : State} (h : Keeps w0 s) (target index) : Keeps w0 (State.enterTest s target index) := by
  unfold State.enterTest
  with_reducible repeat' first | assumption | apply inv_showTest | apply inv_clearTower | apply inv_setFld | apply inv_enterLink | apply inv_farFailOne | apply inv_ite | apply inv_foldl | intro _ | split | extract_lets | dsimp +zetaDelta only

theorem inv_leaveTest {s : State} (h : Keeps w0 s) (target index) : Keeps w0 (State.leaveTest s target index) := by
  unfold State.leaveTest
  with_reducible repeat' first | intro _ | assumption | extract_lets | apply inv_showTest | apply inv_clearTower | apply inv_setFld | apply inv_setTower | apply inv_enterLink | apply inv_setLink | apply inv_ite | apply inv_foldl | split | dsimp +zetaDelta only

theorem inv_loadScan {s : State} (h : Keeps w0 s) (op) : Keeps w0 (State.loadScan s op) := by
  unfold State.loadScan
  with_reducible repeat' first | intro _ | assumption | extract_lets | apply inv_ite | apply inv_foldl | split | dsimp +zetaDelta only

theorem inv_writeH1Margin {s : State} (h : Keeps w0 s) (v) : Keeps w0 (State.writeH1Margin s v) := by
  unfold State.writeH1Margin
  with_reducible repeat' first | assumption | apply inv_setFlds | apply inv_setFld | apply inv_ite | apply inv_foldl | intro _ | split | extract_lets | dsimp +zetaDelta only

theorem inv_writePpr {s : State} (h : Keeps w0 s) (v) : Keeps w0 (State.writePpr s v) := by
  unfold State.writePpr
  with_reducible repeat' first | assumption | apply inv_setFlds | apply inv_setFld | apply inv_ite | apply inv_foldl | intro _ | split | extract_lets | dsimp +zetaDelta only

theorem inv_writePrbs {s : State} (h : Keeps w0 s) (n v) : Keeps w0 (State.writePrbs s n v) := by
  unfold State.writePrbs
  with_reducible repeat' first | assumption | apply inv_setFlds | apply inv_setReg | apply inv_ite | apply inv_foldl | intro _ | split | extract_lets | dsimp +zetaDelta only

theorem inv_writeScanEn {s : State} (h : Keeps w0 s) (on) : Keeps w0 (State.writeScanEn s on) := by
  unfold State.writeScanEn
  with_reducible repeat' first | intro _ | assumption | extract_lets | apply inv_setFld | apply inv_ite | apply inv_foldl | split | dsimp +zetaDelta only

theorem inv_zeroTested {s : State} (h : Keeps w0 s) (k) : Keeps w0 (s.zeroTested k) := by
  unfold State.zeroTested
  split
  · exact ⟨twf_filter _ h.1, Memory.wf_filter _ h.2.1, h.2.2⟩
  · exact h

theorem inv_cmdSelfTest {s : State} (h : Keeps w0 s) (bad c) : Keeps w0 (cmdSelfTest bad c s).2 := by
  unfold cmdSelfTest
  with_reducible repeat' first | intro _ | assumption | extract_lets | apply inv_showSelfTest | apply inv_zeroTested | apply inv_ite2 | apply inv_ite | apply inv_foldl | split | dsimp +zetaDelta only

theorem inv_cmdTestMode {s : State} (h : Keeps w0 s) (c) : Keeps w0 (cmdTestMode c s).2 := by
  unfold cmdTestMode
  with_reducible repeat' first | intro _ | assumption | extract_lets | apply inv_enterTest | apply inv_pushReinit | apply inv_showTest | apply inv_leaveTest | apply inv_ite2 | apply inv_ite | apply inv_foldl | split | dsimp +zetaDelta only

theorem inv_execEyeMeasurement {s : State} (h : Keeps w0 s) (n lane v) : OutKeeps w0 (execEyeMeasurement n lane v s) := by
  unfold execEyeMeasurement
  with_reducible repeat' first | intro _ | assumption | extract_lets | apply inv_setReg | apply out_ite | apply inv_next | apply inv_ite | apply inv_foldl | split | dsimp +zetaDelta only

theorem inv_execH0DwellEnd {s : State} (h : Keeps w0 s) : OutKeeps w0 (execH0DwellEnd s) := by
  unfold execH0DwellEnd
  with_reducible repeat' first | intro _ | assumption | extract_lets | apply inv_showTest | apply out_ite | apply inv_next | apply inv_ite | apply inv_foldl | split | dsimp +zetaDelta only

theorem inv_execH0LinkTrained {s : State} (h : Keeps w0 s) (width rate log2) : OutKeeps w0 (execH0LinkTrained width rate log2 s) := by
  unfold execH0LinkTrained
  with_reducible repeat' first | intro _ | assumption | extract_lets | apply inv_setFlds | apply out_ite | apply inv_next | apply inv_ite | apply inv_foldl | split | dsimp +zetaDelta only

theorem inv_execH1MarginCommand {s : State} (h : Keeps w0 s) (v) : OutKeeps w0 (execH1MarginCommand v s) := by
  unfold execH1MarginCommand
  with_reducible repeat' first | intro _ | assumption | extract_lets | apply inv_writeH1Margin | apply out_ite | apply inv_next | apply inv_ite | apply inv_foldl | split | dsimp +zetaDelta only

theorem inv_execH1MarginResponse {s : State} (h : Keeps w0 s) (r) : OutKeeps w0 (execH1MarginResponse r s) := by
  unfold execH1MarginResponse
  with_reducible repeat' first | intro _ | assumption | extract_lets | apply inv_setFlds | apply inv_setFld | apply out_ite | apply inv_next | apply inv_ite | apply inv_foldl | split | dsimp +zetaDelta only

theorem inv_execLinkPrbsCheck {s : State} (h : Keeps w0 s) (n v) : OutKeeps w0 (execLinkPrbsCheck n v s) := by
  unfold execLinkPrbsCheck
  with_reducible repeat' first | intro _ | assumption | extract_lets | apply inv_writePrbs | apply out_ite | apply inv_next | apply inv_ite | apply inv_foldl | split | dsimp +zetaDelta only

theorem inv_execLinkPrbsCheckDone {s : State} (h : Keeps w0 s) (n errors) : OutKeeps w0 (execLinkPrbsCheckDone n errors s) := by
  unfold execLinkPrbsCheckDone
  with_reducible repeat' first | intro _ | assumption | extract_lets | apply inv_setFlds | apply out_ite | apply inv_next | apply inv_ite | apply inv_foldl | split | dsimp +zetaDelta only

theorem inv_execPprDone {s : State} (h : Keeps w0 s) (repaired spares) : OutKeeps w0 (execPprDone repaired spares s) := by
  unfold execPprDone
  with_reducible repeat' first | intro _ | assumption | extract_lets | apply inv_setFld | apply inv_setFlds | apply out_ite | apply inv_next | apply inv_ite | apply inv_foldl | split | dsimp +zetaDelta only

theorem inv_execPprStart {s : State} (h : Keeps w0 s) (v) : OutKeeps w0 (execPprStart v s) := by
  unfold execPprStart
  with_reducible repeat' first | intro _ | assumption | extract_lets | apply inv_writePpr | apply out_ite | apply inv_next | apply inv_ite | apply inv_foldl | split | dsimp +zetaDelta only

theorem inv_execScanEnWrite {s : State} (h : Keeps w0 s) (on) : OutKeeps w0 (execScanEnWrite on s) := by
  unfold execScanEnWrite
  with_reducible repeat' first | intro _ | assumption | extract_lets | apply inv_writeScanEn | apply out_ite | apply inv_next | apply inv_ite | apply inv_foldl | split | dsimp +zetaDelta only

theorem inv_execScanInstructionUpdate {s : State} (h : Keeps w0 s) (op) : OutKeeps w0 (execScanInstructionUpdate op s) := by
  unfold execScanInstructionUpdate
  with_reducible repeat' first | intro _ | assumption | extract_lets | apply inv_loadScan | apply inv_beginScan | apply inv_endScan | apply out_ite | apply inv_next | apply inv_ite | apply inv_foldl | split | dsimp +zetaDelta only

theorem inv_execSelfTest {s : State} (h : Keeps w0 s) (id bad) : OutKeeps w0 (execSelfTest id bad s) := by
  unfold execSelfTest
  with_reducible repeat' first | intro _ | assumption | extract_lets | apply inv_attempt | apply inv_cmdSelfTest | apply out_ite | apply inv_next | apply inv_ite | apply inv_foldl | split | dsimp +zetaDelta only

theorem inv_execTestMode {s : State} (h : Keeps w0 s) (id) : OutKeeps w0 (execTestMode id s) := by
  unfold execTestMode
  with_reducible repeat' first | intro _ | assumption | extract_lets | apply inv_attempt | apply inv_cmdTestMode | apply out_ite | apply inv_next | apply inv_ite | apply inv_foldl | split | dsimp +zetaDelta only

theorem inv_execTrstNAssertion {s : State} (h : Keeps w0 s) : OutKeeps w0 (execTrstNAssertion s) := by
  unfold execTrstNAssertion
  with_reducible repeat' first | intro _ | assumption | extract_lets | apply inv_endScan | apply out_ite | apply inv_next | apply inv_ite | apply inv_foldl | split | dsimp +zetaDelta only

end Sys2Proof.Machine
end

