-- ==== Sys2Proof/Laws/InvHostAccess.lean ====
section
/-!
SUPPORT. Every operation of Machine/HostAccess.lean keeps the canonical form of registers and memory, and the queue of commands.
-/
namespace Sys2Proof.Machine

variable {w0 : List Instr}

theorem inv_hostCount {s : State} (h : Keeps w0 s) (x0) : Keeps w0 (State.hostCount s x0) := by
  unfold State.hostCount
  with_reducible repeat' first | intro _ | assumption | extract_lets | apply inv_bump | apply inv_ite | apply inv_foldl | split | dsimp +zetaDelta only

theorem inv_hostRead {s : State} (h : Keeps w0 s) (a n) : Keeps w0 (s.hostRead a n).2 := by
  unfold State.hostRead
  generalize bargeParts (n / 512 + 2) a n = l
  suffices k : ∀ (r : List Byte × State), Keeps w0 r.2 → Keeps w0 (l.foldl _ r).2 from k ([], s) h
  induction l with
  | nil => intro r h; exact h
  | cons p l ih =>
    intro r h
    refine ih _ ?_
    dsimp only
    generalize (if (lsSite p.1).isSome then r.2.wakeModule else r.2) = t, (inv_ite (inv_wakeModule h) h : Keeps w0 (if (lsSite p.1).isSome then r.2.wakeModule else r.2)) = k
    split
    · exact inv_reachAddr k _
    · exact inv_hostCount k _

theorem inv_hostWrite {s : State} (h : Keeps w0 s) (a bs) : Keeps w0 (s.hostWrite a bs) := by
  unfold State.hostWrite
  generalize bargeParts (bs.length / 512 + 2) a bs.length = l
  suffices k : ∀ (r : List Byte × State), Keeps w0 r.2 → Keeps w0 (l.foldl _ r).2 from k (bs, s) h
  induction l with
  | nil => intro r h; exact h
  | cons p l ih =>
    intro r h
    refine ih _ ?_
    dsimp only
    generalize (if (lsSite p.1).isSome then r.2.wakeModule else r.2) = t, (inv_ite (inv_wakeModule h) h : Keeps w0 (if (lsSite p.1).isSome then r.2.wakeModule else r.2)) = k
    split
    · exact inv_ite k (inv_store (inv_reachAddr k _) ..)
    · exact inv_hostCount k _

theorem inv_portRead {s : State} (h : Keeps w0 s) (a n) : Keeps w0 (State.portRead s a n) := by
  unfold State.portRead
  with_reducible repeat' first | intro _ | assumption | extract_lets | apply inv_hostRead | apply inv_ite | apply inv_foldl | split | dsimp +zetaDelta only

theorem inv_portWrite {s : State} (h : Keeps w0 s) (a bs) : Keeps w0 (State.portWrite s a bs) := by
  unfold State.portWrite
  with_reducible repeat' first | intro _ | assumption | extract_lets | apply inv_hostWrite | apply inv_ite | apply inv_foldl | split | dsimp +zetaDelta only

theorem inv_readReg {s : State} (h : Keeps w0 s) (off) : Keeps w0 (State.readReg s off).2 := by
  unfold State.readReg
  with_reducible repeat' first | intro _ | assumption | extract_lets | apply inv_mailboxReceive | apply inv_latchLog | apply inv_setTower | apply inv_setReg | apply inv_ite2 | apply inv_ite | apply inv_foldl | split | dsimp +zetaDelta only

theorem inv_readPair {s : State} (h : Keeps w0 s) (off) : Keeps w0 (s.readPair off).2 := by
  unfold State.readPair
  with_reducible exact inv_snd (inv_readReg (inv_readReg h _) _)

theorem inv_readWord {s : State} (h : Keeps w0 s) (off) : Keeps w0 (State.readWord s off).2 := by
  unfold State.readWord
  with_reducible repeat' first | assumption | ((try lift_lets -underBinder); intro x; (try refine inv_cut x (fun _ => ?_) ?_); clear_value x) | apply inv_readReg | apply inv_readPair | apply inv_ite2 | apply inv_ite | refine inv_pair ?_ (fun _ _ _ => ?_) | refine inv_foldl ?_ (fun _ _ _ => ?_) | split | dsimp +zetaDelta only

theorem inv_writeQCfg {s : State} (h : Keeps w0 s) (q e) : Keeps w0 (State.writeQCfg s q e) := by
  unfold State.writeQCfg
  with_reducible repeat' first | intro _ | assumption | extract_lets | apply inv_setFlds | apply inv_sqEnable | apply inv_setFld | apply inv_cqEnable | apply inv_cqDisable | apply inv_ite | apply inv_foldl | split | dsimp +zetaDelta only

theorem inv_writeHcp {s : State} (h : Keeps w0 s) (off e m) : OptKeeps w0 (s.writeHcp off e m) := by
  unfold State.writeHcp
  with_reducible repeat' first | assumption | exact inv_none | apply opt_ite | apply inv_some | apply inv_writeQCfg | apply inv_sqDoorbell | apply inv_cqDoorbell

theorem inv_writeOther {s : State} (h : Keeps w0 s) (off e m) : OptKeeps w0 (s.writeOther off e m) := by
  unfold State.writeOther
  with_reducible repeat' first | assumption | exact inv_none | apply opt_ite | apply inv_some | apply inv_ite | apply inv_writeSpecCtl | apply inv_writeUser | apply inv_sanitize | refine inv_foldl ?_ (fun _ _ _ => ?_) | apply inv_commitSvn | apply inv_writeScanEn | apply inv_writePpr | apply inv_writeH1Margin | apply inv_writePrbs | apply inv_writeMargin | apply inv_mailboxSend | apply inv_writeRetrain | apply inv_writeLinkEnable | apply inv_setFld

theorem inv_writeSite {s : State} (h : Keeps w0 s) (off e v m) : OptKeeps w0 (s.writeSite off e v m) := by
  unfold State.writeSite
  with_reducible repeat' first | assumption | exact inv_none | apply opt_ite | apply inv_some | apply inv_ite | apply inv_writeSeed | apply inv_armInject | apply inv_clearFault | apply inv_writeGapThresh | apply inv_writeHoldLim | apply inv_writeCell

theorem inv_writeReg {s : State} (h : Keeps w0 s) (off v mask) : Keeps w0 (s.writeReg off v mask) := by
  have k : ∀ (o : Option State) (t : State), OptKeeps w0 o → Keeps w0 t → Keeps w0 (match o with | some u => u | none => t) := fun o t ho ht => by
    cases o with
    | none => exact ht
    | some u => exact ho u rfl
  unfold State.writeReg
  split
  · exact h
  · refine inv_ite h (k _ _ ?_ (inv_setReg h _ _))
    with_reducible repeat' first | assumption | apply opt_ite | apply inv_writeSite | apply inv_writeHcp | apply inv_writeOther

theorem inv_writeWord {s : State} (h : Keeps w0 s) (off v mask) : Keeps w0 (State.writeWord s off v mask) := by
  unfold State.writeWord
  with_reducible repeat' first | intro _ | assumption | extract_lets | apply inv_writeReg | apply inv_ite | apply inv_foldl | split | dsimp +zetaDelta only

theorem inv_readWords {s : State} (h : Keeps w0 s) (n off) : Keeps w0 (readWords n off s).2 := by
  induction n generalizing s off with
  | zero => exact h
  | succ n ih =>
    unfold readWords
    with_reducible repeat' first | assumption | apply ih | apply inv_readWord | apply inv_ite2

theorem inv_cmdCounterSnapshot {s : State} (h : Keeps w0 s) (c) : Keeps w0 (cmdCounterSnapshot c s).2 := by
  unfold cmdCounterSnapshot
  with_reducible repeat' first | intro _ | assumption | extract_lets | apply inv_readWords | apply inv_lanternStore | apply inv_ite2 | apply inv_ite | apply inv_foldl | split | dsimp +zetaDelta only

theorem inv_cmdRegRead {s : State} (h : Keeps w0 s) (c) : Keeps w0 (cmdRegRead c s).2 := by
  unfold cmdRegRead
  with_reducible repeat' first | intro _ | assumption | extract_lets | apply inv_readWords | apply inv_ite2 | apply inv_ite | apply inv_foldl | split | dsimp +zetaDelta only

theorem inv_cmdRegWrite {s : State} (h : Keeps w0 s) (c) : Keeps w0 (cmdRegWrite c s).2 := by
  unfold cmdRegWrite
  with_reducible repeat' first | intro _ | assumption | extract_lets | apply inv_writeWord | apply inv_readWord | apply inv_ite2 | apply inv_ite | apply inv_foldl | split | dsimp +zetaDelta only

theorem inv_execBar2Read {s : State} (h : Keeps w0 s) (o n) : OutKeeps w0 (execBar2Read o n s) := by
  unfold execBar2Read
  with_reducible repeat' first | intro _ | assumption | extract_lets | apply inv_portRead | apply out_ite | apply inv_next | apply inv_ite | apply inv_foldl | split | dsimp +zetaDelta only

theorem inv_execBar2Write {s : State} (h : Keeps w0 s) (o bs) : OutKeeps w0 (execBar2Write o bs s) := by
  unfold execBar2Write
  with_reducible repeat' first | intro _ | assumption | extract_lets | apply inv_portWrite | apply out_ite | apply inv_next | apply inv_ite | apply inv_foldl | split | dsimp +zetaDelta only

theorem inv_execCounterSnapshot {s : State} (h : Keeps w0 s) (id) : OutKeeps w0 (execCounterSnapshot id s) := by
  unfold execCounterSnapshot
  with_reducible repeat' first | intro _ | assumption | extract_lets | apply inv_attempt | apply inv_cmdCounterSnapshot | apply out_ite | apply inv_next | apply inv_ite | apply inv_foldl | split | dsimp +zetaDelta only

theorem inv_execCxlMemAccess {s : State} (h : Keeps w0 s) (a n wr) : OutKeeps w0 (execCxlMemAccess a n wr s) := by
  unfold execCxlMemAccess
  with_reducible repeat' first | intro _ | assumption | extract_lets | apply inv_portWrite | apply inv_portRead | apply out_ite | apply inv_next | apply inv_ite | apply inv_foldl | split | dsimp +zetaDelta only

theorem inv_execRegRead {s : State} (h : Keeps w0 s) (id) : OutKeeps w0 (execRegRead id s) := by
  unfold execRegRead
  with_reducible repeat' first | intro _ | assumption | extract_lets | apply inv_attempt | apply inv_cmdRegRead | apply out_ite | apply inv_next | apply inv_ite | apply inv_foldl | split | dsimp +zetaDelta only

theorem inv_execRegWrite {s : State} (h : Keeps w0 s) (id) : OutKeeps w0 (execRegWrite id s) := by
  unfold execRegWrite
  with_reducible repeat' first | intro _ | assumption | extract_lets | apply inv_attempt | apply inv_cmdRegWrite | apply out_ite | apply inv_next | apply inv_ite | apply inv_foldl | split | dsimp +zetaDelta only

theorem inv_execRegisterWrite {s : State} (h : Keeps w0 s) (off v) : OutKeeps w0 (execRegisterWrite off v s) := by
  unfold execRegisterWrite
  with_reducible repeat' first | intro _ | assumption | extract_lets | apply inv_writeReg | apply inv_wakeModule | apply out_ite | apply inv_next | apply inv_ite | apply inv_foldl | split | dsimp +zetaDelta only

end Sys2Proof.Machine
end

