-- ==== Sys2Proof/Laws/InvAdmission.lean ====
section
/-!
SUPPORT. Every operation of Machine/Admission.lean keeps the canonical form of registers and memory, and the queue of commands.
-/
namespace Sys2Proof.Machine

variable {w0 : List Instr}

theorem inv_admitTo {s : State} (h : Keeps w0 s) (pos fwd slot p) : Keeps w0 (State.admitTo s pos fwd slot p) := by
  unfold State.admitTo
  with_reducible repeat' first | assumption | apply inv_jAppend | apply inv_showSlots | apply inv_bump | apply inv_admitGraph | apply inv_delayCmd | apply inv_ite | apply inv_foldl | intro _ | split | extract_lets | dsimp +zetaDelta only

theorem inv_refusePkt {s : State} (h : Keeps w0 s) (pos fwd q p st r0 byGateway) : Keeps w0 (State.refusePkt s pos fwd q p st r0 byGateway) := by
  unfold State.refusePkt
  with_reducible repeat' first | intro _ | assumption | extract_lets | apply inv_replyTo | apply inv_bump | apply inv_ite | apply inv_foldl | split | dsimp +zetaDelta only

theorem inv_forward {s : State} (h : Keeps w0 s) (pos p) : Keeps w0 (State.forward s pos p) := by
  unfold State.forward
  with_reducible repeat' first | intro _ | assumption | extract_lets | apply inv_refusePkt | apply inv_sendL | apply inv_showSlots | apply inv_bump | apply inv_ite | apply inv_foldl | split | dsimp +zetaDelta only

theorem inv_takeIn {s : State} (h : Keeps w0 s) (pos fwd p) : Keeps w0 (State.takeIn s pos fwd p) := by
  unfold State.takeIn
  with_reducible repeat' first | intro _ | assumption | extract_lets | apply inv_refusePkt | apply inv_admitTo | apply inv_ite | apply inv_foldl | split | dsimp +zetaDelta only

theorem inv_route {s : State} (h : Keeps w0 s) (q p) : Keeps w0 (State.route s q p) := by
  unfold State.route
  with_reducible repeat' first | intro _ | assumption | extract_lets | apply inv_refusePkt | apply inv_takeIn | apply inv_forward | apply inv_ite | apply inv_foldl | split | dsimp +zetaDelta only

theorem inv_startOf {s : State} (h : Keeps w0 s) (op x1) : Keeps w0 (startOf op x1 s).2 := by
  unfold startOf
  with_reducible repeat' first | intro _ | assumption | extract_lets | apply inv_cmdNop | apply inv_cmdIdentify | apply inv_cmdRegRead | apply inv_cmdRegWrite | apply inv_cmdTimeRead | apply inv_cmdCopy | apply inv_cmdFill | apply inv_cmdXltInvalidate | apply inv_cmdPageResolve | apply inv_cmdPageMigrate | apply inv_cmdInterleave | apply inv_cmdRetire | apply inv_cmdRetireClear | apply inv_cmdProgramLoad | apply inv_cmdProgramUnload | apply inv_cmdLaunch | apply inv_cmdGraphSubmit | apply inv_cmdPause | apply inv_cmdResume | apply inv_cmdAbort | apply inv_cmdEpochOpen | apply inv_cmdEpochCommit | apply inv_cmdEpochDiscard | apply inv_cmdTaskQuery | apply inv_cmdPodConfig | apply inv_cmdJobStart | apply inv_cmdJobEnd | apply inv_cmdJobStop | apply inv_cmdPair | apply inv_cmdSyncGroupsLoad | apply inv_cmdCanalGroupsLoad | apply inv_cmdStageqLoad | apply inv_cmdPhaseListLoad | apply inv_cmdCollective | apply inv_cmdStepEnd | apply inv_cmdMirrorClose | apply inv_cmdSubstitute | apply inv_cmdBasinInfo | apply inv_cmdCkptWrite | apply inv_cmdCkptList | apply inv_cmdCkptRestore | apply inv_cmdCkptDelete | apply inv_cmdErrRead | apply inv_cmdSpireFence | apply inv_cmdFuncReinit | apply inv_cmdWarmReset | apply inv_cmdPowerCycle | apply inv_cmdRollback | apply inv_cmdPowerState | apply inv_cmdPowerCap | apply inv_cmdClockLimit | apply inv_cmdTelemetry | apply inv_cmdSecStatus | apply inv_cmdDebugChallenge | apply inv_cmdDebugUnlock | apply inv_cmdManufService | apply inv_cmdJournalQuery | apply inv_cmdJournalMark | apply inv_cmdTestMode | apply inv_cmdSelfTest | apply inv_cmdCounterSnapshot | apply inv_ite2 | apply inv_ite | apply inv_foldl | split | dsimp +zetaDelta only

theorem inv_startNow {s : State} (h : Keeps w0 s) (c) : Keeps w0 (State.startNow s c) := by
  unfold State.startNow
  with_reducible repeat' first | intro _ | assumption | extract_lets | apply inv_tryReinit | apply inv_tryWarmReset | apply inv_tryPowerCycle | apply inv_attempt | apply inv_startOf | apply inv_ite | apply inv_foldl | split | dsimp +zetaDelta only

theorem inv_execDelayedCommandStart {s : State} (h : Keeps w0 s) : OutKeeps w0 (execDelayedCommandStart s) := by
  unfold execDelayedCommandStart
  with_reducible repeat' first | intro _ | assumption | extract_lets | apply inv_startNow | apply out_ite | apply inv_next | apply inv_ite | apply inv_foldl | split | dsimp +zetaDelta only

theorem inv_execH0PerstNAssertion {s : State} (h : Keeps w0 s) : OutKeeps w0 (execH0PerstNAssertion s) := by
  unfold execH0PerstNAssertion
  with_reducible repeat' first | intro _ | assumption | extract_lets | apply inv_h0Reset | apply out_ite | apply inv_next | apply inv_ite | apply inv_foldl | split | dsimp +zetaDelta only

theorem inv_execHcp {s : State} (h : Keeps w0 s) (n p) : OutKeeps w0 (execHcp n p s) := by
  unfold execHcp
  with_reducible repeat' first | intro _ | assumption | extract_lets | apply inv_takeIn | apply inv_takeInbox | apply out_ite | apply inv_next | apply inv_ite | apply inv_foldl | split | dsimp +zetaDelta only

theorem inv_execHcpReply {s : State} (h : Keeps w0 s) (n p) : OutKeeps w0 (execHcpReply n p s) := by
  unfold execHcpReply
  with_reducible repeat' first | intro _ | assumption | extract_lets | apply inv_postModule | apply inv_takeInbox | apply inv_cqPost | apply inv_showSlots | apply out_ite | apply inv_next | apply inv_ite | apply inv_foldl | split | dsimp +zetaDelta only

theorem inv_execPacketFetch {s : State} (h : Keeps w0 s) (q pkt) : OutKeeps w0 (execPacketFetch q pkt s) := by
  unfold execPacketFetch
  with_reducible repeat' first | intro _ | assumption | extract_lets | apply inv_bump | apply inv_setFld | apply inv_refusePkt | apply inv_route | apply out_ite | apply inv_next | apply inv_ite | apply inv_foldl | split | dsimp +zetaDelta only

theorem inv_execWaitLimitExpiry {s : State} (h : Keeps w0 s) (id) : OutKeeps w0 (execWaitLimitExpiry id s) := by
  unfold execWaitLimitExpiry
  with_reducible repeat' first | intro _ | assumption | extract_lets | apply inv_expireCmd | apply out_ite | apply inv_next | apply inv_ite | apply inv_foldl | split | dsimp +zetaDelta only

end Sys2Proof.Machine
end

