-- ==== Sys2Proof/Laws/InvStageQueues.lean ====
section
/-!
SUPPORT. Every operation of Machine/StageQueues.lean keeps the canonical form of registers and memory, and the queue of commands.
-/
namespace Sys2Proof.Machine

variable {w0 : List Instr}

theorem inv_setStq {s : State} (h : Keeps w0 s) (q x) : Keeps w0 (State.setStq s q x) := by
  unfold State.setStq
  with_reducible repeat' first | intro _ | assumption | extract_lets | apply inv_showStq | apply inv_ite | apply inv_foldl | split | dsimp +zetaDelta only

theorem inv_stqPoll {s : State} (h : Keeps w0 s) (x) : Keeps w0 (State.stqPoll s x) := by
  unfold State.stqPoll
  with_reducible repeat' first | intro _ | assumption | extract_lets | apply inv_ite | apply inv_foldl | split | dsimp +zetaDelta only

theorem inv_execStageCreditArrival {s : State} (h : Keeps w0 s) (q) : OutKeeps w0 (execStageCreditArrival q s) := by
  unfold execStageCreditArrival
  with_reducible repeat' first | intro _ | assumption | extract_lets | apply inv_bump | apply inv_addToCell | apply inv_setStq | apply out_ite | apply inv_next | apply inv_ite | apply inv_foldl | split | dsimp +zetaDelta only

theorem inv_execStageFreePoll {s : State} (h : Keeps w0 s) (q) : OutKeeps w0 (execStageFreePoll q s) := by
  unfold execStageFreePoll
  with_reducible repeat' first | intro _ | assumption | extract_lets | apply inv_stqPoll | apply inv_setStq | apply inv_openStream | apply out_ite | apply inv_next | apply inv_ite | apply inv_foldl | split | dsimp +zetaDelta only

theorem inv_execStageReadyPoll {s : State} (h : Keeps w0 s) (q) : OutKeeps w0 (execStageReadyPoll q s) := by
  unfold execStageReadyPoll
  with_reducible repeat' first | intro _ | assumption | extract_lets | apply inv_stqPoll | apply inv_setStq | apply inv_bump | apply inv_jobStore | apply inv_openStream | apply out_ite | apply inv_next | apply inv_ite | apply inv_foldl | split | dsimp +zetaDelta only

theorem inv_execStageSlotArrival {s : State} (h : Keeps w0 s) (q) : OutKeeps w0 (execStageSlotArrival q s) := by
  unfold execStageSlotArrival
  with_reducible repeat' first | intro _ | assumption | extract_lets | apply inv_jobStore | apply inv_bump | apply inv_setStq | apply inv_addToCell | apply out_ite | apply inv_next | apply inv_ite | apply inv_foldl | split | dsimp +zetaDelta only

end Sys2Proof.Machine
end

