-- ==== Sys2Proof/Laws/State.lean ====
section
/-!
SUPPORT. What the accessors of the state read after an update: one lemma for each field that an update leaves alone, the registers after a write, the fields of a word.
-/
namespace Sys2Proof.Machine

/-! Updates of registers and spires leave every other field of the state alone. -/

@[simp] theorem State.setReg_pending (s : State) (o : Nat) (v : Word) : (s.setReg o v).pending = s.pending := rfl
@[simp] theorem State.setReg_now (s : State) (o : Nat) (v : Word) : (s.setReg o v).now = s.now := rfl
@[simp] theorem State.setReg_mem (s : State) (o : Nat) (v : Word) : (s.setReg o v).mem = s.mem := rfl
@[simp] theorem State.setReg_hcp (s : State) (o : Nat) (v : Word) : (s.setReg o v).hcp = s.hcp := rfl
@[simp] theorem State.setReg_jnl (s : State) (o : Nat) (v : Word) : (s.setReg o v).jnl = s.jnl := rfl
@[simp] theorem State.setReg_errs (s : State) (o : Nat) (v : Word) : (s.setReg o v).errs = s.errs := rfl
@[simp] theorem State.setReg_mbx (s : State) (o : Nat) (v : Word) : (s.setReg o v).mbx = s.mbx := rfl
@[simp] theorem State.setReg_canal (s : State) (o : Nat) (v : Word) : (s.setReg o v).canal = s.canal := rfl
@[simp] theorem State.setReg_aq (s : State) (o : Nat) (v : Word) : (s.setReg o v).aq = s.aq := rfl
@[simp] theorem State.setReg_groups (s : State) (o : Nat) (v : Word) : (s.setReg o v).groups = s.groups := rfl
@[simp] theorem State.setReg_pod (s : State) (o : Nat) (v : Word) : (s.setReg o v).pod = s.pod := rfl
@[simp] theorem State.setReg_mirror (s : State) (o : Nat) (v : Word) : (s.setReg o v).mirror = s.mirror := rfl
@[simp] theorem State.setReg_spires (s : State) (o : Nat) (v : Word) : (s.setReg o v).spires = s.spires := rfl
@[simp] theorem State.setReg_tasks (s : State) (o : Nat) (v : Word) : (s.setReg o v).tasks = s.tasks := rfl
@[simp] theorem State.setReg_epochs (s : State) (o : Nat) (v : Word) : (s.setReg o v).epochs = s.epochs := rfl
@[simp] theorem State.setReg_syncGroups (s : State) (o : Nat) (v : Word) : (s.setReg o v).syncGroups = s.syncGroups := rfl
@[simp] theorem State.setReg_job (s : State) (o : Nat) (v : Word) : (s.setReg o v).job = s.job := rfl
@[simp] theorem State.setReg_programs (s : State) (o : Nat) (v : Word) : (s.setReg o v).programs = s.programs := rfl
@[simp] theorem State.setReg_progCount (s : State) (o : Nat) (v : Word) : (s.setReg o v).progCount = s.progCount := rfl
@[simp] theorem State.setReg_graphs (s : State) (o : Nat) (v : Word) : (s.setReg o v).graphs = s.graphs := rfl
@[simp] theorem State.setReg_coll (s : State) (o : Nat) (v : Word) : (s.setReg o v).coll = s.coll := rfl
@[simp] theorem State.setReg_stepEnd (s : State) (o : Nat) (v : Word) : (s.setReg o v).stepEnd = s.stepEnd := rfl
@[simp] theorem State.setReg_ovfRun (s : State) (o : Nat) (v : Word) : (s.setReg o v).ovfRun = s.ovfRun := rfl
@[simp] theorem State.setReg_stq (s : State) (o : Nat) (v : Word) : (s.setReg o v).stq = s.stq := rfl
@[simp] theorem State.setReg_bsn (s : State) (o : Nat) (v : Word) : (s.setReg o v).bsn = s.bsn := rfl
@[simp] theorem State.setReg_towers (s : State) (o : Nat) (v : Word) : (s.setReg o v).towers = s.towers := rfl
@[simp] theorem State.setReg_far (s : State) (o : Nat) (v : Word) : (s.setReg o v).far = s.far := rfl
@[simp] theorem State.setReg_warm (s : State) (o : Nat) (v : Word) : (s.setReg o v).warm = s.warm := rfl
@[simp] theorem State.setReg_reinit (s : State) (o : Nat) (v : Word) : (s.setReg o v).reinit = s.reinit := rfl
@[simp] theorem State.setReg_pwr (s : State) (o : Nat) (v : Word) : (s.setReg o v).pwr = s.pwr := rfl
@[simp] theorem State.setReg_fw (s : State) (o : Nat) (v : Word) : (s.setReg o v).fw = s.fw := rfl
@[simp] theorem State.setReg_tst (s : State) (o : Nat) (v : Word) : (s.setReg o v).tst = s.tst := rfl
@[simp] theorem State.setReg_answers (s : State) (o : Nat) (v : Word) : (s.setReg o v).answers = s.answers := rfl
@[simp] theorem State.setReg_freeCtr (s : State) (o : Nat) (v : Word) : (s.setReg o v).freeCtr = s.freeCtr := rfl

@[simp] theorem State.setFld_pending (s : State) (o : Nat) (f : Fld) (x : Nat) : (s.setFld o f x).pending = s.pending := rfl
@[simp] theorem State.setFld_now (s : State) (o : Nat) (f : Fld) (x : Nat) : (s.setFld o f x).now = s.now := rfl
@[simp] theorem State.setFld_mem (s : State) (o : Nat) (f : Fld) (x : Nat) : (s.setFld o f x).mem = s.mem := rfl
@[simp] theorem State.setFld_hcp (s : State) (o : Nat) (f : Fld) (x : Nat) : (s.setFld o f x).hcp = s.hcp := rfl
@[simp] theorem State.setFld_jnl (s : State) (o : Nat) (f : Fld) (x : Nat) : (s.setFld o f x).jnl = s.jnl := rfl
@[simp] theorem State.setFld_errs (s : State) (o : Nat) (f : Fld) (x : Nat) : (s.setFld o f x).errs = s.errs := rfl
@[simp] theorem State.setFld_mbx (s : State) (o : Nat) (f : Fld) (x : Nat) : (s.setFld o f x).mbx = s.mbx := rfl
@[simp] theorem State.setFld_canal (s : State) (o : Nat) (f : Fld) (x : Nat) : (s.setFld o f x).canal = s.canal := rfl
@[simp] theorem State.setFld_aq (s : State) (o : Nat) (f : Fld) (x : Nat) : (s.setFld o f x).aq = s.aq := rfl
@[simp] theorem State.setFld_groups (s : State) (o : Nat) (f : Fld) (x : Nat) : (s.setFld o f x).groups = s.groups := rfl
@[simp] theorem State.setFld_pod (s : State) (o : Nat) (f : Fld) (x : Nat) : (s.setFld o f x).pod = s.pod := rfl
@[simp] theorem State.setFld_mirror (s : State) (o : Nat) (f : Fld) (x : Nat) : (s.setFld o f x).mirror = s.mirror := rfl
@[simp] theorem State.setFld_spires (s : State) (o : Nat) (f : Fld) (x : Nat) : (s.setFld o f x).spires = s.spires := rfl
@[simp] theorem State.setFld_tasks (s : State) (o : Nat) (f : Fld) (x : Nat) : (s.setFld o f x).tasks = s.tasks := rfl
@[simp] theorem State.setFld_epochs (s : State) (o : Nat) (f : Fld) (x : Nat) : (s.setFld o f x).epochs = s.epochs := rfl
@[simp] theorem State.setFld_syncGroups (s : State) (o : Nat) (f : Fld) (x : Nat) : (s.setFld o f x).syncGroups = s.syncGroups := rfl
@[simp] theorem State.setFld_job (s : State) (o : Nat) (f : Fld) (x : Nat) : (s.setFld o f x).job = s.job := rfl
@[simp] theorem State.setFld_programs (s : State) (o : Nat) (f : Fld) (x : Nat) : (s.setFld o f x).programs = s.programs := rfl
@[simp] theorem State.setFld_progCount (s : State) (o : Nat) (f : Fld) (x : Nat) : (s.setFld o f x).progCount = s.progCount := rfl
@[simp] theorem State.setFld_graphs (s : State) (o : Nat) (f : Fld) (x : Nat) : (s.setFld o f x).graphs = s.graphs := rfl
@[simp] theorem State.setFld_coll (s : State) (o : Nat) (f : Fld) (x : Nat) : (s.setFld o f x).coll = s.coll := rfl
@[simp] theorem State.setFld_stepEnd (s : State) (o : Nat) (f : Fld) (x : Nat) : (s.setFld o f x).stepEnd = s.stepEnd := rfl
@[simp] theorem State.setFld_ovfRun (s : State) (o : Nat) (f : Fld) (x : Nat) : (s.setFld o f x).ovfRun = s.ovfRun := rfl
@[simp] theorem State.setFld_stq (s : State) (o : Nat) (f : Fld) (x : Nat) : (s.setFld o f x).stq = s.stq := rfl
@[simp] theorem State.setFld_bsn (s : State) (o : Nat) (f : Fld) (x : Nat) : (s.setFld o f x).bsn = s.bsn := rfl
@[simp] theorem State.setFld_towers (s : State) (o : Nat) (f : Fld) (x : Nat) : (s.setFld o f x).towers = s.towers := rfl
@[simp] theorem State.setFld_far (s : State) (o : Nat) (f : Fld) (x : Nat) : (s.setFld o f x).far = s.far := rfl
@[simp] theorem State.setFld_warm (s : State) (o : Nat) (f : Fld) (x : Nat) : (s.setFld o f x).warm = s.warm := rfl
@[simp] theorem State.setFld_reinit (s : State) (o : Nat) (f : Fld) (x : Nat) : (s.setFld o f x).reinit = s.reinit := rfl
@[simp] theorem State.setFld_pwr (s : State) (o : Nat) (f : Fld) (x : Nat) : (s.setFld o f x).pwr = s.pwr := rfl
@[simp] theorem State.setFld_fw (s : State) (o : Nat) (f : Fld) (x : Nat) : (s.setFld o f x).fw = s.fw := rfl
@[simp] theorem State.setFld_tst (s : State) (o : Nat) (f : Fld) (x : Nat) : (s.setFld o f x).tst = s.tst := rfl
@[simp] theorem State.setFld_answers (s : State) (o : Nat) (f : Fld) (x : Nat) : (s.setFld o f x).answers = s.answers := rfl
@[simp] theorem State.setFld_freeCtr (s : State) (o : Nat) (f : Fld) (x : Nat) : (s.setFld o f x).freeCtr = s.freeCtr := rfl

@[simp] theorem State.setFlds_pending (s : State) (o : Nat) (l : List (Fld × Nat)) : (s.setFlds o l).pending = s.pending := rfl
@[simp] theorem State.setFlds_now (s : State) (o : Nat) (l : List (Fld × Nat)) : (s.setFlds o l).now = s.now := rfl
@[simp] theorem State.setFlds_mem (s : State) (o : Nat) (l : List (Fld × Nat)) : (s.setFlds o l).mem = s.mem := rfl
@[simp] theorem State.setFlds_hcp (s : State) (o : Nat) (l : List (Fld × Nat)) : (s.setFlds o l).hcp = s.hcp := rfl
@[simp] theorem State.setFlds_jnl (s : State) (o : Nat) (l : List (Fld × Nat)) : (s.setFlds o l).jnl = s.jnl := rfl
@[simp] theorem State.setFlds_errs (s : State) (o : Nat) (l : List (Fld × Nat)) : (s.setFlds o l).errs = s.errs := rfl
@[simp] theorem State.setFlds_mbx (s : State) (o : Nat) (l : List (Fld × Nat)) : (s.setFlds o l).mbx = s.mbx := rfl
@[simp] theorem State.setFlds_canal (s : State) (o : Nat) (l : List (Fld × Nat)) : (s.setFlds o l).canal = s.canal := rfl
@[simp] theorem State.setFlds_aq (s : State) (o : Nat) (l : List (Fld × Nat)) : (s.setFlds o l).aq = s.aq := rfl
@[simp] theorem State.setFlds_groups (s : State) (o : Nat) (l : List (Fld × Nat)) : (s.setFlds o l).groups = s.groups := rfl
@[simp] theorem State.setFlds_pod (s : State) (o : Nat) (l : List (Fld × Nat)) : (s.setFlds o l).pod = s.pod := rfl
@[simp] theorem State.setFlds_mirror (s : State) (o : Nat) (l : List (Fld × Nat)) : (s.setFlds o l).mirror = s.mirror := rfl
@[simp] theorem State.setFlds_spires (s : State) (o : Nat) (l : List (Fld × Nat)) : (s.setFlds o l).spires = s.spires := rfl
@[simp] theorem State.setFlds_tasks (s : State) (o : Nat) (l : List (Fld × Nat)) : (s.setFlds o l).tasks = s.tasks := rfl
@[simp] theorem State.setFlds_epochs (s : State) (o : Nat) (l : List (Fld × Nat)) : (s.setFlds o l).epochs = s.epochs := rfl
@[simp] theorem State.setFlds_syncGroups (s : State) (o : Nat) (l : List (Fld × Nat)) : (s.setFlds o l).syncGroups = s.syncGroups := rfl
@[simp] theorem State.setFlds_job (s : State) (o : Nat) (l : List (Fld × Nat)) : (s.setFlds o l).job = s.job := rfl
@[simp] theorem State.setFlds_programs (s : State) (o : Nat) (l : List (Fld × Nat)) : (s.setFlds o l).programs = s.programs := rfl
@[simp] theorem State.setFlds_progCount (s : State) (o : Nat) (l : List (Fld × Nat)) : (s.setFlds o l).progCount = s.progCount := rfl
@[simp] theorem State.setFlds_graphs (s : State) (o : Nat) (l : List (Fld × Nat)) : (s.setFlds o l).graphs = s.graphs := rfl
@[simp] theorem State.setFlds_coll (s : State) (o : Nat) (l : List (Fld × Nat)) : (s.setFlds o l).coll = s.coll := rfl
@[simp] theorem State.setFlds_stepEnd (s : State) (o : Nat) (l : List (Fld × Nat)) : (s.setFlds o l).stepEnd = s.stepEnd := rfl
@[simp] theorem State.setFlds_ovfRun (s : State) (o : Nat) (l : List (Fld × Nat)) : (s.setFlds o l).ovfRun = s.ovfRun := rfl
@[simp] theorem State.setFlds_stq (s : State) (o : Nat) (l : List (Fld × Nat)) : (s.setFlds o l).stq = s.stq := rfl
@[simp] theorem State.setFlds_bsn (s : State) (o : Nat) (l : List (Fld × Nat)) : (s.setFlds o l).bsn = s.bsn := rfl
@[simp] theorem State.setFlds_towers (s : State) (o : Nat) (l : List (Fld × Nat)) : (s.setFlds o l).towers = s.towers := rfl
@[simp] theorem State.setFlds_far (s : State) (o : Nat) (l : List (Fld × Nat)) : (s.setFlds o l).far = s.far := rfl
@[simp] theorem State.setFlds_warm (s : State) (o : Nat) (l : List (Fld × Nat)) : (s.setFlds o l).warm = s.warm := rfl
@[simp] theorem State.setFlds_reinit (s : State) (o : Nat) (l : List (Fld × Nat)) : (s.setFlds o l).reinit = s.reinit := rfl
@[simp] theorem State.setFlds_pwr (s : State) (o : Nat) (l : List (Fld × Nat)) : (s.setFlds o l).pwr = s.pwr := rfl
@[simp] theorem State.setFlds_fw (s : State) (o : Nat) (l : List (Fld × Nat)) : (s.setFlds o l).fw = s.fw := rfl
@[simp] theorem State.setFlds_tst (s : State) (o : Nat) (l : List (Fld × Nat)) : (s.setFlds o l).tst = s.tst := rfl
@[simp] theorem State.setFlds_answers (s : State) (o : Nat) (l : List (Fld × Nat)) : (s.setFlds o l).answers = s.answers := rfl
@[simp] theorem State.setFlds_freeCtr (s : State) (o : Nat) (l : List (Fld × Nat)) : (s.setFlds o l).freeCtr = s.freeCtr := rfl

@[simp] theorem State.bump_pending (s : State) (o n : Nat) : (s.bump o n).pending = s.pending := rfl
@[simp] theorem State.bump_now (s : State) (o n : Nat) : (s.bump o n).now = s.now := rfl
@[simp] theorem State.bump_mem (s : State) (o n : Nat) : (s.bump o n).mem = s.mem := rfl
@[simp] theorem State.bump_hcp (s : State) (o n : Nat) : (s.bump o n).hcp = s.hcp := rfl
@[simp] theorem State.bump_jnl (s : State) (o n : Nat) : (s.bump o n).jnl = s.jnl := rfl
@[simp] theorem State.bump_errs (s : State) (o n : Nat) : (s.bump o n).errs = s.errs := rfl
@[simp] theorem State.bump_mbx (s : State) (o n : Nat) : (s.bump o n).mbx = s.mbx := rfl
@[simp] theorem State.bump_canal (s : State) (o n : Nat) : (s.bump o n).canal = s.canal := rfl
@[simp] theorem State.bump_aq (s : State) (o n : Nat) : (s.bump o n).aq = s.aq := rfl
@[simp] theorem State.bump_groups (s : State) (o n : Nat) : (s.bump o n).groups = s.groups := rfl
@[simp] theorem State.bump_pod (s : State) (o n : Nat) : (s.bump o n).pod = s.pod := rfl
@[simp] theorem State.bump_mirror (s : State) (o n : Nat) : (s.bump o n).mirror = s.mirror := rfl
@[simp] theorem State.bump_spires (s : State) (o n : Nat) : (s.bump o n).spires = s.spires := rfl
@[simp] theorem State.bump_tasks (s : State) (o n : Nat) : (s.bump o n).tasks = s.tasks := rfl
@[simp] theorem State.bump_epochs (s : State) (o n : Nat) : (s.bump o n).epochs = s.epochs := rfl
@[simp] theorem State.bump_syncGroups (s : State) (o n : Nat) : (s.bump o n).syncGroups = s.syncGroups := rfl
@[simp] theorem State.bump_job (s : State) (o n : Nat) : (s.bump o n).job = s.job := rfl
@[simp] theorem State.bump_programs (s : State) (o n : Nat) : (s.bump o n).programs = s.programs := rfl
@[simp] theorem State.bump_progCount (s : State) (o n : Nat) : (s.bump o n).progCount = s.progCount := rfl
@[simp] theorem State.bump_graphs (s : State) (o n : Nat) : (s.bump o n).graphs = s.graphs := rfl
@[simp] theorem State.bump_coll (s : State) (o n : Nat) : (s.bump o n).coll = s.coll := rfl
@[simp] theorem State.bump_stepEnd (s : State) (o n : Nat) : (s.bump o n).stepEnd = s.stepEnd := rfl
@[simp] theorem State.bump_ovfRun (s : State) (o n : Nat) : (s.bump o n).ovfRun = s.ovfRun := rfl
@[simp] theorem State.bump_stq (s : State) (o n : Nat) : (s.bump o n).stq = s.stq := rfl
@[simp] theorem State.bump_bsn (s : State) (o n : Nat) : (s.bump o n).bsn = s.bsn := rfl
@[simp] theorem State.bump_towers (s : State) (o n : Nat) : (s.bump o n).towers = s.towers := rfl
@[simp] theorem State.bump_far (s : State) (o n : Nat) : (s.bump o n).far = s.far := rfl
@[simp] theorem State.bump_warm (s : State) (o n : Nat) : (s.bump o n).warm = s.warm := rfl
@[simp] theorem State.bump_reinit (s : State) (o n : Nat) : (s.bump o n).reinit = s.reinit := rfl
@[simp] theorem State.bump_pwr (s : State) (o n : Nat) : (s.bump o n).pwr = s.pwr := rfl
@[simp] theorem State.bump_fw (s : State) (o n : Nat) : (s.bump o n).fw = s.fw := rfl
@[simp] theorem State.bump_tst (s : State) (o n : Nat) : (s.bump o n).tst = s.tst := rfl
@[simp] theorem State.bump_answers (s : State) (o n : Nat) : (s.bump o n).answers = s.answers := rfl
@[simp] theorem State.bump_freeCtr (s : State) (o n : Nat) : (s.bump o n).freeCtr = s.freeCtr := rfl

@[simp] theorem State.setCell_pending (s : State) (i c : Nat) (w : Word) : (s.setCell i c w).pending = s.pending := rfl
@[simp] theorem State.setCell_now (s : State) (i c : Nat) (w : Word) : (s.setCell i c w).now = s.now := rfl
@[simp] theorem State.setCell_mem (s : State) (i c : Nat) (w : Word) : (s.setCell i c w).mem = s.mem := rfl
@[simp] theorem State.setCell_hcp (s : State) (i c : Nat) (w : Word) : (s.setCell i c w).hcp = s.hcp := rfl
@[simp] theorem State.setCell_jnl (s : State) (i c : Nat) (w : Word) : (s.setCell i c w).jnl = s.jnl := rfl
@[simp] theorem State.setCell_errs (s : State) (i c : Nat) (w : Word) : (s.setCell i c w).errs = s.errs := rfl
@[simp] theorem State.setCell_mbx (s : State) (i c : Nat) (w : Word) : (s.setCell i c w).mbx = s.mbx := rfl
@[simp] theorem State.setCell_canal (s : State) (i c : Nat) (w : Word) : (s.setCell i c w).canal = s.canal := rfl
@[simp] theorem State.setCell_aq (s : State) (i c : Nat) (w : Word) : (s.setCell i c w).aq = s.aq := rfl
@[simp] theorem State.setCell_groups (s : State) (i c : Nat) (w : Word) : (s.setCell i c w).groups = s.groups := rfl
@[simp] theorem State.setCell_pod (s : State) (i c : Nat) (w : Word) : (s.setCell i c w).pod = s.pod := rfl
@[simp] theorem State.setCell_mirror (s : State) (i c : Nat) (w : Word) : (s.setCell i c w).mirror = s.mirror := rfl
@[simp] theorem State.setCell_spires (s : State) (i c : Nat) (w : Word) : (s.setCell i c w).spires = s.spires := rfl
@[simp] theorem State.setCell_tasks (s : State) (i c : Nat) (w : Word) : (s.setCell i c w).tasks = s.tasks := rfl
@[simp] theorem State.setCell_epochs (s : State) (i c : Nat) (w : Word) : (s.setCell i c w).epochs = s.epochs := rfl
@[simp] theorem State.setCell_syncGroups (s : State) (i c : Nat) (w : Word) : (s.setCell i c w).syncGroups = s.syncGroups := rfl
@[simp] theorem State.setCell_job (s : State) (i c : Nat) (w : Word) : (s.setCell i c w).job = s.job := rfl
@[simp] theorem State.setCell_programs (s : State) (i c : Nat) (w : Word) : (s.setCell i c w).programs = s.programs := rfl
@[simp] theorem State.setCell_progCount (s : State) (i c : Nat) (w : Word) : (s.setCell i c w).progCount = s.progCount := rfl
@[simp] theorem State.setCell_graphs (s : State) (i c : Nat) (w : Word) : (s.setCell i c w).graphs = s.graphs := rfl
@[simp] theorem State.setCell_coll (s : State) (i c : Nat) (w : Word) : (s.setCell i c w).coll = s.coll := rfl
@[simp] theorem State.setCell_stepEnd (s : State) (i c : Nat) (w : Word) : (s.setCell i c w).stepEnd = s.stepEnd := rfl
@[simp] theorem State.setCell_ovfRun (s : State) (i c : Nat) (w : Word) : (s.setCell i c w).ovfRun = s.ovfRun := rfl
@[simp] theorem State.setCell_stq (s : State) (i c : Nat) (w : Word) : (s.setCell i c w).stq = s.stq := rfl
@[simp] theorem State.setCell_bsn (s : State) (i c : Nat) (w : Word) : (s.setCell i c w).bsn = s.bsn := rfl
@[simp] theorem State.setCell_towers (s : State) (i c : Nat) (w : Word) : (s.setCell i c w).towers = s.towers := rfl
@[simp] theorem State.setCell_far (s : State) (i c : Nat) (w : Word) : (s.setCell i c w).far = s.far := rfl
@[simp] theorem State.setCell_warm (s : State) (i c : Nat) (w : Word) : (s.setCell i c w).warm = s.warm := rfl
@[simp] theorem State.setCell_reinit (s : State) (i c : Nat) (w : Word) : (s.setCell i c w).reinit = s.reinit := rfl
@[simp] theorem State.setCell_pwr (s : State) (i c : Nat) (w : Word) : (s.setCell i c w).pwr = s.pwr := rfl
@[simp] theorem State.setCell_fw (s : State) (i c : Nat) (w : Word) : (s.setCell i c w).fw = s.fw := rfl
@[simp] theorem State.setCell_tst (s : State) (i c : Nat) (w : Word) : (s.setCell i c w).tst = s.tst := rfl
@[simp] theorem State.setCell_answers (s : State) (i c : Nat) (w : Word) : (s.setCell i c w).answers = s.answers := rfl
@[simp] theorem State.setCell_freeCtr (s : State) (i c : Nat) (w : Word) : (s.setCell i c w).freeCtr = s.freeCtr := rfl

@[simp] theorem State.setSpire_pending (s : State) (i : Nat) (p : Spire) : (s.setSpire i p).pending = s.pending := rfl
@[simp] theorem State.setSpire_now (s : State) (i : Nat) (p : Spire) : (s.setSpire i p).now = s.now := rfl
@[simp] theorem State.setSpire_regs (s : State) (i : Nat) (p : Spire) : (s.setSpire i p).regs = s.regs := rfl
@[simp] theorem State.setSpire_mem (s : State) (i : Nat) (p : Spire) : (s.setSpire i p).mem = s.mem := rfl
@[simp] theorem State.setSpire_hcp (s : State) (i : Nat) (p : Spire) : (s.setSpire i p).hcp = s.hcp := rfl
@[simp] theorem State.setSpire_jnl (s : State) (i : Nat) (p : Spire) : (s.setSpire i p).jnl = s.jnl := rfl
@[simp] theorem State.setSpire_errs (s : State) (i : Nat) (p : Spire) : (s.setSpire i p).errs = s.errs := rfl
@[simp] theorem State.setSpire_mbx (s : State) (i : Nat) (p : Spire) : (s.setSpire i p).mbx = s.mbx := rfl
@[simp] theorem State.setSpire_canal (s : State) (i : Nat) (p : Spire) : (s.setSpire i p).canal = s.canal := rfl
@[simp] theorem State.setSpire_aq (s : State) (i : Nat) (p : Spire) : (s.setSpire i p).aq = s.aq := rfl
@[simp] theorem State.setSpire_groups (s : State) (i : Nat) (p : Spire) : (s.setSpire i p).groups = s.groups := rfl
@[simp] theorem State.setSpire_pod (s : State) (i : Nat) (p : Spire) : (s.setSpire i p).pod = s.pod := rfl
@[simp] theorem State.setSpire_mirror (s : State) (i : Nat) (p : Spire) : (s.setSpire i p).mirror = s.mirror := rfl
@[simp] theorem State.setSpire_tasks (s : State) (i : Nat) (p : Spire) : (s.setSpire i p).tasks = s.tasks := rfl
@[simp] theorem State.setSpire_epochs (s : State) (i : Nat) (p : Spire) : (s.setSpire i p).epochs = s.epochs := rfl
@[simp] theorem State.setSpire_syncGroups (s : State) (i : Nat) (p : Spire) : (s.setSpire i p).syncGroups = s.syncGroups := rfl
@[simp] theorem State.setSpire_job (s : State) (i : Nat) (p : Spire) : (s.setSpire i p).job = s.job := rfl
@[simp] theorem State.setSpire_programs (s : State) (i : Nat) (p : Spire) : (s.setSpire i p).programs = s.programs := rfl
@[simp] theorem State.setSpire_progCount (s : State) (i : Nat) (p : Spire) : (s.setSpire i p).progCount = s.progCount := rfl
@[simp] theorem State.setSpire_graphs (s : State) (i : Nat) (p : Spire) : (s.setSpire i p).graphs = s.graphs := rfl
@[simp] theorem State.setSpire_coll (s : State) (i : Nat) (p : Spire) : (s.setSpire i p).coll = s.coll := rfl
@[simp] theorem State.setSpire_stepEnd (s : State) (i : Nat) (p : Spire) : (s.setSpire i p).stepEnd = s.stepEnd := rfl
@[simp] theorem State.setSpire_ovfRun (s : State) (i : Nat) (p : Spire) : (s.setSpire i p).ovfRun = s.ovfRun := rfl
@[simp] theorem State.setSpire_stq (s : State) (i : Nat) (p : Spire) : (s.setSpire i p).stq = s.stq := rfl
@[simp] theorem State.setSpire_bsn (s : State) (i : Nat) (p : Spire) : (s.setSpire i p).bsn = s.bsn := rfl
@[simp] theorem State.setSpire_towers (s : State) (i : Nat) (p : Spire) : (s.setSpire i p).towers = s.towers := rfl
@[simp] theorem State.setSpire_far (s : State) (i : Nat) (p : Spire) : (s.setSpire i p).far = s.far := rfl
@[simp] theorem State.setSpire_warm (s : State) (i : Nat) (p : Spire) : (s.setSpire i p).warm = s.warm := rfl
@[simp] theorem State.setSpire_reinit (s : State) (i : Nat) (p : Spire) : (s.setSpire i p).reinit = s.reinit := rfl
@[simp] theorem State.setSpire_pwr (s : State) (i : Nat) (p : Spire) : (s.setSpire i p).pwr = s.pwr := rfl
@[simp] theorem State.setSpire_fw (s : State) (i : Nat) (p : Spire) : (s.setSpire i p).fw = s.fw := rfl
@[simp] theorem State.setSpire_tst (s : State) (i : Nat) (p : Spire) : (s.setSpire i p).tst = s.tst := rfl
@[simp] theorem State.setSpire_answers (s : State) (i : Nat) (p : Spire) : (s.setSpire i p).answers = s.answers := rfl
@[simp] theorem State.setSpire_freeCtr (s : State) (i : Nat) (p : Spire) : (s.setSpire i p).freeCtr = s.freeCtr := rfl

@[simp] theorem State.modSpire_pending (s : State) (i : Nat) (f : Spire → Spire) : (s.modSpire i f).pending = s.pending := rfl
@[simp] theorem State.modSpire_now (s : State) (i : Nat) (f : Spire → Spire) : (s.modSpire i f).now = s.now := rfl
@[simp] theorem State.modSpire_regs (s : State) (i : Nat) (f : Spire → Spire) : (s.modSpire i f).regs = s.regs := rfl
@[simp] theorem State.modSpire_mem (s : State) (i : Nat) (f : Spire → Spire) : (s.modSpire i f).mem = s.mem := rfl
@[simp] theorem State.modSpire_hcp (s : State) (i : Nat) (f : Spire → Spire) : (s.modSpire i f).hcp = s.hcp := rfl
@[simp] theorem State.modSpire_jnl (s : State) (i : Nat) (f : Spire → Spire) : (s.modSpire i f).jnl = s.jnl := rfl
@[simp] theorem State.modSpire_errs (s : State) (i : Nat) (f : Spire → Spire) : (s.modSpire i f).errs = s.errs := rfl
@[simp] theorem State.modSpire_mbx (s : State) (i : Nat) (f : Spire → Spire) : (s.modSpire i f).mbx = s.mbx := rfl
@[simp] theorem State.modSpire_canal (s : State) (i : Nat) (f : Spire → Spire) : (s.modSpire i f).canal = s.canal := rfl
@[simp] theorem State.modSpire_aq (s : State) (i : Nat) (f : Spire → Spire) : (s.modSpire i f).aq = s.aq := rfl
@[simp] theorem State.modSpire_groups (s : State) (i : Nat) (f : Spire → Spire) : (s.modSpire i f).groups = s.groups := rfl
@[simp] theorem State.modSpire_pod (s : State) (i : Nat) (f : Spire → Spire) : (s.modSpire i f).pod = s.pod := rfl
@[simp] theorem State.modSpire_mirror (s : State) (i : Nat) (f : Spire → Spire) : (s.modSpire i f).mirror = s.mirror := rfl
@[simp] theorem State.modSpire_tasks (s : State) (i : Nat) (f : Spire → Spire) : (s.modSpire i f).tasks = s.tasks := rfl
@[simp] theorem State.modSpire_epochs (s : State) (i : Nat) (f : Spire → Spire) : (s.modSpire i f).epochs = s.epochs := rfl
@[simp] theorem State.modSpire_syncGroups (s : State) (i : Nat) (f : Spire → Spire) : (s.modSpire i f).syncGroups = s.syncGroups := rfl
@[simp] theorem State.modSpire_job (s : State) (i : Nat) (f : Spire → Spire) : (s.modSpire i f).job = s.job := rfl
@[simp] theorem State.modSpire_programs (s : State) (i : Nat) (f : Spire → Spire) : (s.modSpire i f).programs = s.programs := rfl
@[simp] theorem State.modSpire_progCount (s : State) (i : Nat) (f : Spire → Spire) : (s.modSpire i f).progCount = s.progCount := rfl
@[simp] theorem State.modSpire_graphs (s : State) (i : Nat) (f : Spire → Spire) : (s.modSpire i f).graphs = s.graphs := rfl
@[simp] theorem State.modSpire_coll (s : State) (i : Nat) (f : Spire → Spire) : (s.modSpire i f).coll = s.coll := rfl
@[simp] theorem State.modSpire_stepEnd (s : State) (i : Nat) (f : Spire → Spire) : (s.modSpire i f).stepEnd = s.stepEnd := rfl
@[simp] theorem State.modSpire_ovfRun (s : State) (i : Nat) (f : Spire → Spire) : (s.modSpire i f).ovfRun = s.ovfRun := rfl
@[simp] theorem State.modSpire_stq (s : State) (i : Nat) (f : Spire → Spire) : (s.modSpire i f).stq = s.stq := rfl
@[simp] theorem State.modSpire_bsn (s : State) (i : Nat) (f : Spire → Spire) : (s.modSpire i f).bsn = s.bsn := rfl
@[simp] theorem State.modSpire_towers (s : State) (i : Nat) (f : Spire → Spire) : (s.modSpire i f).towers = s.towers := rfl
@[simp] theorem State.modSpire_far (s : State) (i : Nat) (f : Spire → Spire) : (s.modSpire i f).far = s.far := rfl
@[simp] theorem State.modSpire_warm (s : State) (i : Nat) (f : Spire → Spire) : (s.modSpire i f).warm = s.warm := rfl
@[simp] theorem State.modSpire_reinit (s : State) (i : Nat) (f : Spire → Spire) : (s.modSpire i f).reinit = s.reinit := rfl
@[simp] theorem State.modSpire_pwr (s : State) (i : Nat) (f : Spire → Spire) : (s.modSpire i f).pwr = s.pwr := rfl
@[simp] theorem State.modSpire_fw (s : State) (i : Nat) (f : Spire → Spire) : (s.modSpire i f).fw = s.fw := rfl
@[simp] theorem State.modSpire_tst (s : State) (i : Nat) (f : Spire → Spire) : (s.modSpire i f).tst = s.tst := rfl
@[simp] theorem State.modSpire_answers (s : State) (i : Nat) (f : Spire → Spire) : (s.modSpire i f).answers = s.answers := rfl
@[simp] theorem State.modSpire_freeCtr (s : State) (i : Nat) (f : Spire → Spire) : (s.modSpire i f).freeCtr = s.freeCtr := rfl

@[simp] theorem State.modRegs_pending (s : State) (i : Nat) (f : Regs → Regs) : (s.modRegs i f).pending = s.pending := rfl
@[simp] theorem State.modRegs_now (s : State) (i : Nat) (f : Regs → Regs) : (s.modRegs i f).now = s.now := rfl
@[simp] theorem State.modRegs_regs (s : State) (i : Nat) (f : Regs → Regs) : (s.modRegs i f).regs = s.regs := rfl
@[simp] theorem State.modRegs_mem (s : State) (i : Nat) (f : Regs → Regs) : (s.modRegs i f).mem = s.mem := rfl
@[simp] theorem State.modRegs_hcp (s : State) (i : Nat) (f : Regs → Regs) : (s.modRegs i f).hcp = s.hcp := rfl
@[simp] theorem State.modRegs_jnl (s : State) (i : Nat) (f : Regs → Regs) : (s.modRegs i f).jnl = s.jnl := rfl
@[simp] theorem State.modRegs_errs (s : State) (i : Nat) (f : Regs → Regs) : (s.modRegs i f).errs = s.errs := rfl
@[simp] theorem State.modRegs_mbx (s : State) (i : Nat) (f : Regs → Regs) : (s.modRegs i f).mbx = s.mbx := rfl
@[simp] theorem State.modRegs_canal (s : State) (i : Nat) (f : Regs → Regs) : (s.modRegs i f).canal = s.canal := rfl
@[simp] theorem State.modRegs_aq (s : State) (i : Nat) (f : Regs → Regs) : (s.modRegs i f).aq = s.aq := rfl
@[simp] theorem State.modRegs_groups (s : State) (i : Nat) (f : Regs → Regs) : (s.modRegs i f).groups = s.groups := rfl
@[simp] theorem State.modRegs_pod (s : State) (i : Nat) (f : Regs → Regs) : (s.modRegs i f).pod = s.pod := rfl
@[simp] theorem State.modRegs_mirror (s : State) (i : Nat) (f : Regs → Regs) : (s.modRegs i f).mirror = s.mirror := rfl
@[simp] theorem State.modRegs_tasks (s : State) (i : Nat) (f : Regs → Regs) : (s.modRegs i f).tasks = s.tasks := rfl
@[simp] theorem State.modRegs_epochs (s : State) (i : Nat) (f : Regs → Regs) : (s.modRegs i f).epochs = s.epochs := rfl
@[simp] theorem State.modRegs_syncGroups (s : State) (i : Nat) (f : Regs → Regs) : (s.modRegs i f).syncGroups = s.syncGroups := rfl
@[simp] theorem State.modRegs_job (s : State) (i : Nat) (f : Regs → Regs) : (s.modRegs i f).job = s.job := rfl
@[simp] theorem State.modRegs_programs (s : State) (i : Nat) (f : Regs → Regs) : (s.modRegs i f).programs = s.programs := rfl
@[simp] theorem State.modRegs_progCount (s : State) (i : Nat) (f : Regs → Regs) : (s.modRegs i f).progCount = s.progCount := rfl
@[simp] theorem State.modRegs_graphs (s : State) (i : Nat) (f : Regs → Regs) : (s.modRegs i f).graphs = s.graphs := rfl
@[simp] theorem State.modRegs_coll (s : State) (i : Nat) (f : Regs → Regs) : (s.modRegs i f).coll = s.coll := rfl
@[simp] theorem State.modRegs_stepEnd (s : State) (i : Nat) (f : Regs → Regs) : (s.modRegs i f).stepEnd = s.stepEnd := rfl
@[simp] theorem State.modRegs_ovfRun (s : State) (i : Nat) (f : Regs → Regs) : (s.modRegs i f).ovfRun = s.ovfRun := rfl
@[simp] theorem State.modRegs_stq (s : State) (i : Nat) (f : Regs → Regs) : (s.modRegs i f).stq = s.stq := rfl
@[simp] theorem State.modRegs_bsn (s : State) (i : Nat) (f : Regs → Regs) : (s.modRegs i f).bsn = s.bsn := rfl
@[simp] theorem State.modRegs_towers (s : State) (i : Nat) (f : Regs → Regs) : (s.modRegs i f).towers = s.towers := rfl
@[simp] theorem State.modRegs_far (s : State) (i : Nat) (f : Regs → Regs) : (s.modRegs i f).far = s.far := rfl
@[simp] theorem State.modRegs_warm (s : State) (i : Nat) (f : Regs → Regs) : (s.modRegs i f).warm = s.warm := rfl
@[simp] theorem State.modRegs_reinit (s : State) (i : Nat) (f : Regs → Regs) : (s.modRegs i f).reinit = s.reinit := rfl
@[simp] theorem State.modRegs_pwr (s : State) (i : Nat) (f : Regs → Regs) : (s.modRegs i f).pwr = s.pwr := rfl
@[simp] theorem State.modRegs_fw (s : State) (i : Nat) (f : Regs → Regs) : (s.modRegs i f).fw = s.fw := rfl
@[simp] theorem State.modRegs_tst (s : State) (i : Nat) (f : Regs → Regs) : (s.modRegs i f).tst = s.tst := rfl
@[simp] theorem State.modRegs_answers (s : State) (i : Nat) (f : Regs → Regs) : (s.modRegs i f).answers = s.answers := rfl
@[simp] theorem State.modRegs_freeCtr (s : State) (i : Nat) (f : Regs → Regs) : (s.modRegs i f).freeCtr = s.freeCtr := rfl

@[simp] theorem State.vector_pending (s : State) (n : Nat) : (s.vector n).pending = s.pending := rfl
@[simp] theorem State.vector_now (s : State) (n : Nat) : (s.vector n).now = s.now := rfl
@[simp] theorem State.vector_regs (s : State) (n : Nat) : (s.vector n).regs = s.regs := rfl
@[simp] theorem State.vector_mem (s : State) (n : Nat) : (s.vector n).mem = s.mem := rfl
@[simp] theorem State.vector_jnl (s : State) (n : Nat) : (s.vector n).jnl = s.jnl := rfl
@[simp] theorem State.vector_errs (s : State) (n : Nat) : (s.vector n).errs = s.errs := rfl
@[simp] theorem State.vector_mbx (s : State) (n : Nat) : (s.vector n).mbx = s.mbx := rfl
@[simp] theorem State.vector_canal (s : State) (n : Nat) : (s.vector n).canal = s.canal := rfl
@[simp] theorem State.vector_aq (s : State) (n : Nat) : (s.vector n).aq = s.aq := rfl
@[simp] theorem State.vector_groups (s : State) (n : Nat) : (s.vector n).groups = s.groups := rfl
@[simp] theorem State.vector_pod (s : State) (n : Nat) : (s.vector n).pod = s.pod := rfl
@[simp] theorem State.vector_mirror (s : State) (n : Nat) : (s.vector n).mirror = s.mirror := rfl
@[simp] theorem State.vector_spires (s : State) (n : Nat) : (s.vector n).spires = s.spires := rfl
@[simp] theorem State.vector_tasks (s : State) (n : Nat) : (s.vector n).tasks = s.tasks := rfl
@[simp] theorem State.vector_epochs (s : State) (n : Nat) : (s.vector n).epochs = s.epochs := rfl
@[simp] theorem State.vector_syncGroups (s : State) (n : Nat) : (s.vector n).syncGroups = s.syncGroups := rfl
@[simp] theorem State.vector_job (s : State) (n : Nat) : (s.vector n).job = s.job := rfl
@[simp] theorem State.vector_programs (s : State) (n : Nat) : (s.vector n).programs = s.programs := rfl
@[simp] theorem State.vector_progCount (s : State) (n : Nat) : (s.vector n).progCount = s.progCount := rfl
@[simp] theorem State.vector_graphs (s : State) (n : Nat) : (s.vector n).graphs = s.graphs := rfl
@[simp] theorem State.vector_coll (s : State) (n : Nat) : (s.vector n).coll = s.coll := rfl
@[simp] theorem State.vector_stepEnd (s : State) (n : Nat) : (s.vector n).stepEnd = s.stepEnd := rfl
@[simp] theorem State.vector_ovfRun (s : State) (n : Nat) : (s.vector n).ovfRun = s.ovfRun := rfl
@[simp] theorem State.vector_stq (s : State) (n : Nat) : (s.vector n).stq = s.stq := rfl
@[simp] theorem State.vector_bsn (s : State) (n : Nat) : (s.vector n).bsn = s.bsn := rfl
@[simp] theorem State.vector_towers (s : State) (n : Nat) : (s.vector n).towers = s.towers := rfl
@[simp] theorem State.vector_far (s : State) (n : Nat) : (s.vector n).far = s.far := rfl
@[simp] theorem State.vector_warm (s : State) (n : Nat) : (s.vector n).warm = s.warm := rfl
@[simp] theorem State.vector_reinit (s : State) (n : Nat) : (s.vector n).reinit = s.reinit := rfl
@[simp] theorem State.vector_pwr (s : State) (n : Nat) : (s.vector n).pwr = s.pwr := rfl
@[simp] theorem State.vector_fw (s : State) (n : Nat) : (s.vector n).fw = s.fw := rfl
@[simp] theorem State.vector_tst (s : State) (n : Nat) : (s.vector n).tst = s.tst := rfl
@[simp] theorem State.vector_answers (s : State) (n : Nat) : (s.vector n).answers = s.answers := rfl
@[simp] theorem State.vector_freeCtr (s : State) (n : Nat) : (s.vector n).freeCtr = s.freeCtr := rfl

@[simp] theorem State.setQueue_pending (s : State) (n : Nat) (x : Queue) : (s.setQueue n x).pending = s.pending := rfl
@[simp] theorem State.setQueue_now (s : State) (n : Nat) (x : Queue) : (s.setQueue n x).now = s.now := rfl
@[simp] theorem State.setQueue_regs (s : State) (n : Nat) (x : Queue) : (s.setQueue n x).regs = s.regs := rfl
@[simp] theorem State.setQueue_mem (s : State) (n : Nat) (x : Queue) : (s.setQueue n x).mem = s.mem := rfl
@[simp] theorem State.setQueue_jnl (s : State) (n : Nat) (x : Queue) : (s.setQueue n x).jnl = s.jnl := rfl
@[simp] theorem State.setQueue_errs (s : State) (n : Nat) (x : Queue) : (s.setQueue n x).errs = s.errs := rfl
@[simp] theorem State.setQueue_mbx (s : State) (n : Nat) (x : Queue) : (s.setQueue n x).mbx = s.mbx := rfl
@[simp] theorem State.setQueue_canal (s : State) (n : Nat) (x : Queue) : (s.setQueue n x).canal = s.canal := rfl
@[simp] theorem State.setQueue_aq (s : State) (n : Nat) (x : Queue) : (s.setQueue n x).aq = s.aq := rfl
@[simp] theorem State.setQueue_groups (s : State) (n : Nat) (x : Queue) : (s.setQueue n x).groups = s.groups := rfl
@[simp] theorem State.setQueue_pod (s : State) (n : Nat) (x : Queue) : (s.setQueue n x).pod = s.pod := rfl
@[simp] theorem State.setQueue_mirror (s : State) (n : Nat) (x : Queue) : (s.setQueue n x).mirror = s.mirror := rfl
@[simp] theorem State.setQueue_spires (s : State) (n : Nat) (x : Queue) : (s.setQueue n x).spires = s.spires := rfl
@[simp] theorem State.setQueue_tasks (s : State) (n : Nat) (x : Queue) : (s.setQueue n x).tasks = s.tasks := rfl
@[simp] theorem State.setQueue_epochs (s : State) (n : Nat) (x : Queue) : (s.setQueue n x).epochs = s.epochs := rfl
@[simp] theorem State.setQueue_syncGroups (s : State) (n : Nat) (x : Queue) : (s.setQueue n x).syncGroups = s.syncGroups := rfl
@[simp] theorem State.setQueue_job (s : State) (n : Nat) (x : Queue) : (s.setQueue n x).job = s.job := rfl
@[simp] theorem State.setQueue_programs (s : State) (n : Nat) (x : Queue) : (s.setQueue n x).programs = s.programs := rfl
@[simp] theorem State.setQueue_progCount (s : State) (n : Nat) (x : Queue) : (s.setQueue n x).progCount = s.progCount := rfl
@[simp] theorem State.setQueue_graphs (s : State) (n : Nat) (x : Queue) : (s.setQueue n x).graphs = s.graphs := rfl
@[simp] theorem State.setQueue_coll (s : State) (n : Nat) (x : Queue) : (s.setQueue n x).coll = s.coll := rfl
@[simp] theorem State.setQueue_stepEnd (s : State) (n : Nat) (x : Queue) : (s.setQueue n x).stepEnd = s.stepEnd := rfl
@[simp] theorem State.setQueue_ovfRun (s : State) (n : Nat) (x : Queue) : (s.setQueue n x).ovfRun = s.ovfRun := rfl
@[simp] theorem State.setQueue_stq (s : State) (n : Nat) (x : Queue) : (s.setQueue n x).stq = s.stq := rfl
@[simp] theorem State.setQueue_bsn (s : State) (n : Nat) (x : Queue) : (s.setQueue n x).bsn = s.bsn := rfl
@[simp] theorem State.setQueue_towers (s : State) (n : Nat) (x : Queue) : (s.setQueue n x).towers = s.towers := rfl
@[simp] theorem State.setQueue_far (s : State) (n : Nat) (x : Queue) : (s.setQueue n x).far = s.far := rfl
@[simp] theorem State.setQueue_warm (s : State) (n : Nat) (x : Queue) : (s.setQueue n x).warm = s.warm := rfl
@[simp] theorem State.setQueue_reinit (s : State) (n : Nat) (x : Queue) : (s.setQueue n x).reinit = s.reinit := rfl
@[simp] theorem State.setQueue_pwr (s : State) (n : Nat) (x : Queue) : (s.setQueue n x).pwr = s.pwr := rfl
@[simp] theorem State.setQueue_fw (s : State) (n : Nat) (x : Queue) : (s.setQueue n x).fw = s.fw := rfl
@[simp] theorem State.setQueue_tst (s : State) (n : Nat) (x : Queue) : (s.setQueue n x).tst = s.tst := rfl
@[simp] theorem State.setQueue_answers (s : State) (n : Nat) (x : Queue) : (s.setQueue n x).answers = s.answers := rfl
@[simp] theorem State.setQueue_freeCtr (s : State) (n : Nat) (x : Queue) : (s.setQueue n x).freeCtr = s.freeCtr := rfl

@[simp] theorem State.setCmd_pending (s : State) (c : Cmd) : (s.setCmd c).pending = s.pending := rfl
@[simp] theorem State.setCmd_now (s : State) (c : Cmd) : (s.setCmd c).now = s.now := rfl
@[simp] theorem State.setCmd_regs (s : State) (c : Cmd) : (s.setCmd c).regs = s.regs := rfl
@[simp] theorem State.setCmd_mem (s : State) (c : Cmd) : (s.setCmd c).mem = s.mem := rfl
@[simp] theorem State.setCmd_jnl (s : State) (c : Cmd) : (s.setCmd c).jnl = s.jnl := rfl
@[simp] theorem State.setCmd_errs (s : State) (c : Cmd) : (s.setCmd c).errs = s.errs := rfl
@[simp] theorem State.setCmd_mbx (s : State) (c : Cmd) : (s.setCmd c).mbx = s.mbx := rfl
@[simp] theorem State.setCmd_canal (s : State) (c : Cmd) : (s.setCmd c).canal = s.canal := rfl
@[simp] theorem State.setCmd_aq (s : State) (c : Cmd) : (s.setCmd c).aq = s.aq := rfl
@[simp] theorem State.setCmd_groups (s : State) (c : Cmd) : (s.setCmd c).groups = s.groups := rfl
@[simp] theorem State.setCmd_pod (s : State) (c : Cmd) : (s.setCmd c).pod = s.pod := rfl
@[simp] theorem State.setCmd_mirror (s : State) (c : Cmd) : (s.setCmd c).mirror = s.mirror := rfl
@[simp] theorem State.setCmd_spires (s : State) (c : Cmd) : (s.setCmd c).spires = s.spires := rfl
@[simp] theorem State.setCmd_tasks (s : State) (c : Cmd) : (s.setCmd c).tasks = s.tasks := rfl
@[simp] theorem State.setCmd_epochs (s : State) (c : Cmd) : (s.setCmd c).epochs = s.epochs := rfl
@[simp] theorem State.setCmd_syncGroups (s : State) (c : Cmd) : (s.setCmd c).syncGroups = s.syncGroups := rfl
@[simp] theorem State.setCmd_job (s : State) (c : Cmd) : (s.setCmd c).job = s.job := rfl
@[simp] theorem State.setCmd_programs (s : State) (c : Cmd) : (s.setCmd c).programs = s.programs := rfl
@[simp] theorem State.setCmd_progCount (s : State) (c : Cmd) : (s.setCmd c).progCount = s.progCount := rfl
@[simp] theorem State.setCmd_graphs (s : State) (c : Cmd) : (s.setCmd c).graphs = s.graphs := rfl
@[simp] theorem State.setCmd_coll (s : State) (c : Cmd) : (s.setCmd c).coll = s.coll := rfl
@[simp] theorem State.setCmd_stepEnd (s : State) (c : Cmd) : (s.setCmd c).stepEnd = s.stepEnd := rfl
@[simp] theorem State.setCmd_ovfRun (s : State) (c : Cmd) : (s.setCmd c).ovfRun = s.ovfRun := rfl
@[simp] theorem State.setCmd_stq (s : State) (c : Cmd) : (s.setCmd c).stq = s.stq := rfl
@[simp] theorem State.setCmd_bsn (s : State) (c : Cmd) : (s.setCmd c).bsn = s.bsn := rfl
@[simp] theorem State.setCmd_towers (s : State) (c : Cmd) : (s.setCmd c).towers = s.towers := rfl
@[simp] theorem State.setCmd_far (s : State) (c : Cmd) : (s.setCmd c).far = s.far := rfl
@[simp] theorem State.setCmd_warm (s : State) (c : Cmd) : (s.setCmd c).warm = s.warm := rfl
@[simp] theorem State.setCmd_reinit (s : State) (c : Cmd) : (s.setCmd c).reinit = s.reinit := rfl
@[simp] theorem State.setCmd_pwr (s : State) (c : Cmd) : (s.setCmd c).pwr = s.pwr := rfl
@[simp] theorem State.setCmd_fw (s : State) (c : Cmd) : (s.setCmd c).fw = s.fw := rfl
@[simp] theorem State.setCmd_tst (s : State) (c : Cmd) : (s.setCmd c).tst = s.tst := rfl
@[simp] theorem State.setCmd_answers (s : State) (c : Cmd) : (s.setCmd c).answers = s.answers := rfl
@[simp] theorem State.setCmd_freeCtr (s : State) (c : Cmd) : (s.setCmd c).freeCtr = s.freeCtr := rfl

@[simp] theorem State.setLink_pending (s : State) (n : Nat) (l : Link) : (s.setLink n l).pending = s.pending := rfl
@[simp] theorem State.setLink_now (s : State) (n : Nat) (l : Link) : (s.setLink n l).now = s.now := rfl
@[simp] theorem State.setLink_regs (s : State) (n : Nat) (l : Link) : (s.setLink n l).regs = s.regs := rfl
@[simp] theorem State.setLink_mem (s : State) (n : Nat) (l : Link) : (s.setLink n l).mem = s.mem := rfl
@[simp] theorem State.setLink_hcp (s : State) (n : Nat) (l : Link) : (s.setLink n l).hcp = s.hcp := rfl
@[simp] theorem State.setLink_jnl (s : State) (n : Nat) (l : Link) : (s.setLink n l).jnl = s.jnl := rfl
@[simp] theorem State.setLink_errs (s : State) (n : Nat) (l : Link) : (s.setLink n l).errs = s.errs := rfl
@[simp] theorem State.setLink_mbx (s : State) (n : Nat) (l : Link) : (s.setLink n l).mbx = s.mbx := rfl
@[simp] theorem State.setLink_canal (s : State) (n : Nat) (l : Link) : (s.setLink n l).canal = s.canal := rfl
@[simp] theorem State.setLink_aq (s : State) (n : Nat) (l : Link) : (s.setLink n l).aq = s.aq := rfl
@[simp] theorem State.setLink_groups (s : State) (n : Nat) (l : Link) : (s.setLink n l).groups = s.groups := rfl
@[simp] theorem State.setLink_mirror (s : State) (n : Nat) (l : Link) : (s.setLink n l).mirror = s.mirror := rfl
@[simp] theorem State.setLink_spires (s : State) (n : Nat) (l : Link) : (s.setLink n l).spires = s.spires := rfl
@[simp] theorem State.setLink_tasks (s : State) (n : Nat) (l : Link) : (s.setLink n l).tasks = s.tasks := rfl
@[simp] theorem State.setLink_epochs (s : State) (n : Nat) (l : Link) : (s.setLink n l).epochs = s.epochs := rfl
@[simp] theorem State.setLink_syncGroups (s : State) (n : Nat) (l : Link) : (s.setLink n l).syncGroups = s.syncGroups := rfl
@[simp] theorem State.setLink_job (s : State) (n : Nat) (l : Link) : (s.setLink n l).job = s.job := rfl
@[simp] theorem State.setLink_programs (s : State) (n : Nat) (l : Link) : (s.setLink n l).programs = s.programs := rfl
@[simp] theorem State.setLink_progCount (s : State) (n : Nat) (l : Link) : (s.setLink n l).progCount = s.progCount := rfl
@[simp] theorem State.setLink_graphs (s : State) (n : Nat) (l : Link) : (s.setLink n l).graphs = s.graphs := rfl
@[simp] theorem State.setLink_coll (s : State) (n : Nat) (l : Link) : (s.setLink n l).coll = s.coll := rfl
@[simp] theorem State.setLink_stepEnd (s : State) (n : Nat) (l : Link) : (s.setLink n l).stepEnd = s.stepEnd := rfl
@[simp] theorem State.setLink_ovfRun (s : State) (n : Nat) (l : Link) : (s.setLink n l).ovfRun = s.ovfRun := rfl
@[simp] theorem State.setLink_stq (s : State) (n : Nat) (l : Link) : (s.setLink n l).stq = s.stq := rfl
@[simp] theorem State.setLink_bsn (s : State) (n : Nat) (l : Link) : (s.setLink n l).bsn = s.bsn := rfl
@[simp] theorem State.setLink_towers (s : State) (n : Nat) (l : Link) : (s.setLink n l).towers = s.towers := rfl
@[simp] theorem State.setLink_far (s : State) (n : Nat) (l : Link) : (s.setLink n l).far = s.far := rfl
@[simp] theorem State.setLink_warm (s : State) (n : Nat) (l : Link) : (s.setLink n l).warm = s.warm := rfl
@[simp] theorem State.setLink_reinit (s : State) (n : Nat) (l : Link) : (s.setLink n l).reinit = s.reinit := rfl
@[simp] theorem State.setLink_pwr (s : State) (n : Nat) (l : Link) : (s.setLink n l).pwr = s.pwr := rfl
@[simp] theorem State.setLink_fw (s : State) (n : Nat) (l : Link) : (s.setLink n l).fw = s.fw := rfl
@[simp] theorem State.setLink_tst (s : State) (n : Nat) (l : Link) : (s.setLink n l).tst = s.tst := rfl
@[simp] theorem State.setLink_answers (s : State) (n : Nat) (l : Link) : (s.setLink n l).answers = s.answers := rfl
@[simp] theorem State.setLink_freeCtr (s : State) (n : Nat) (l : Link) : (s.setLink n l).freeCtr = s.freeCtr := rfl

@[simp] theorem State.reg_setSpire (s : State) (i : Nat) (p : Spire) (k : Nat) : (s.setSpire i p).reg k = s.reg k := rfl
@[simp] theorem State.fld_setSpire (s : State) (i : Nat) (p : Spire) (k : Nat) (g : Fld) : (s.setSpire i p).fld k g = s.fld k g := rfl
@[simp] theorem State.reg_modSpire (s : State) (i : Nat) (f : Spire → Spire) (k : Nat) : (s.modSpire i f).reg k = s.reg k := rfl
@[simp] theorem State.fld_modSpire (s : State) (i : Nat) (f : Spire → Spire) (k : Nat) (g : Fld) : (s.modSpire i f).fld k g = s.fld k g := rfl
@[simp] theorem State.reg_modRegs (s : State) (i : Nat) (f : Regs → Regs) (k : Nat) : (s.modRegs i f).reg k = s.reg k := rfl
@[simp] theorem State.fld_modRegs (s : State) (i : Nat) (f : Regs → Regs) (k : Nat) (g : Fld) : (s.modRegs i f).fld k g = s.fld k g := rfl
@[simp] theorem State.reg_vector (s : State) (n : Nat) (k : Nat) : (s.vector n).reg k = s.reg k := rfl
@[simp] theorem State.fld_vector (s : State) (n : Nat) (k : Nat) (g : Fld) : (s.vector n).fld k g = s.fld k g := rfl
@[simp] theorem State.reg_setQueue (s : State) (n : Nat) (x : Queue) (k : Nat) : (s.setQueue n x).reg k = s.reg k := rfl
@[simp] theorem State.fld_setQueue (s : State) (n : Nat) (x : Queue) (k : Nat) (g : Fld) : (s.setQueue n x).fld k g = s.fld k g := rfl
@[simp] theorem State.reg_setCmd (s : State) (c : Cmd) (k : Nat) : (s.setCmd c).reg k = s.reg k := rfl
@[simp] theorem State.fld_setCmd (s : State) (c : Cmd) (k : Nat) (g : Fld) : (s.setCmd c).fld k g = s.fld k g := rfl
@[simp] theorem State.reg_setLink (s : State) (n : Nat) (l : Link) (k : Nat) : (s.setLink n l).reg k = s.reg k := rfl
@[simp] theorem State.fld_setLink (s : State) (n : Nat) (l : Link) (k : Nat) (g : Fld) : (s.setLink n l).fld k g = s.fld k g := rfl

/-! Comparisons as Booleans. -/

@[simp] theorem natBlt (a b : Nat) : Nat.blt a b = decide (a < b) := by
  rw [Bool.eq_iff_iff]; simp [Nat.blt_eq]

@[simp] theorem natBle (a b : Nat) : Nat.ble a b = decide (a ≤ b) := by
  rw [Bool.eq_iff_iff]; simp

/-! Registers. -/

theorem State.reg_setReg {s : State} (h : InForm s) (o x : Nat) (v : Word) : (s.setReg o v).reg x = if x = o then v else s.reg x := by
  unfold State.reg State.setReg
  rw [tget_tset h.1]

theorem State.reg_setReg_same {s : State} (h : InForm s) (o : Nat) (v : Word) : (s.setReg o v).reg o = v := by
  rw [State.reg_setReg h, if_pos rfl]

theorem State.reg_setReg_ne {s : State} (h : InForm s) {o x : Nat} (v : Word) (n : x ≠ o) : (s.setReg o v).reg x = s.reg x := by
  rw [State.reg_setReg h, if_neg n]

theorem State.inv_setReg {s : State} (h : InForm s) (o : Nat) (v : Word) : InForm (s.setReg o v) := ⟨twf_tset _ _ h.1, h.2⟩

theorem State.inv_setFld {s : State} (h : InForm s) (o : Nat) (f : Fld) (x : Nat) : InForm (s.setFld o f x) := State.inv_setReg h _ _

theorem State.inv_setFlds {s : State} (h : InForm s) (o : Nat) (l : List (Fld × Nat)) : InForm (s.setFlds o l) := State.inv_setReg h _ _

theorem State.inv_bump {s : State} (h : InForm s) (o n : Nat) : InForm (s.bump o n) := State.inv_setReg h _ _

theorem State.reg_bump {s : State} (h : InForm s) (o n x : Nat) : (s.bump o n).reg x = if x = o then s.reg o + BitVec.ofNat 64 n else s.reg x :=
  State.reg_setReg h _ _ _

theorem State.reg_setFld {s : State} (h : InForm s) (o x : Nat) (f : Fld) (v : Nat) : (s.setFld o f v).reg x = if x = o then fset (s.reg o) f v else s.reg x :=
  State.reg_setReg h _ _ _

theorem State.reg_setFlds {s : State} (h : InForm s) (o x : Nat) (l : List (Fld × Nat)) :
    (s.setFlds o l).reg x = if x = o then l.foldl (fun v p => fset v p.1 p.2) (s.reg o) else s.reg x :=
  State.reg_setReg h _ _ _

/-! Fields of a word. -/

set_option linter.unusedSimpArgs false

theorem fget_lt (v : Word) (f : Fld) : fget v f < 2 ^ (f.hi + 1 - f.lo) := Nat.mod_lt _ (Nat.two_pow_pos _)

/-- A word below, in and above a field, after the field is written. -/
theorem fset_toNat (v : Word) (f : Fld) (x : Nat) (h : f.lo ≤ f.hi) (w : f.hi < 64) :
    (fset v f x).toNat = v.toNat % 2 ^ f.lo + x % 2 ^ (f.hi + 1 - f.lo) * 2 ^ f.lo + v.toNat / 2 ^ (f.hi + 1) * 2 ^ (f.hi + 1) := by
  unfold fset fget
  have e : 2 ^ (f.hi + 1) = 2 ^ f.lo * 2 ^ (f.hi + 1 - f.lo) := by rw [← Nat.pow_add]; congr 1; omega
  have e64 : 2 ^ 64 = 2 ^ (f.hi + 1) * 2 ^ (63 - f.hi) := by rw [← Nat.pow_add]; congr 1; omega
  have d : v.toNat = v.toNat % 2 ^ f.lo + (v.toNat / 2 ^ f.lo % 2 ^ (f.hi + 1 - f.lo)) * 2 ^ f.lo + v.toNat / 2 ^ (f.hi + 1) * 2 ^ (f.hi + 1) := by
    have a := Nat.mod_add_div v.toNat (2 ^ f.lo)
    have b := Nat.mod_add_div (v.toNat / 2 ^ f.lo) (2 ^ (f.hi + 1 - f.lo))
    rw [Nat.div_div_eq_div_mul, ← e] at b
    rw [e]
    conv => lhs; rw [← a, ← b, e]
    simp only [Nat.mul_add, Nat.add_mul, Nat.one_mul, Nat.mul_comm, Nat.mul_left_comm, Nat.mul_assoc, Nat.add_comm, Nat.add_left_comm, Nat.add_assoc]
  have hb := Nat.mod_lt x (Nat.two_pow_pos (f.hi + 1 - f.lo))
  have hl := Nat.mod_lt v.toNat (Nat.two_pow_pos f.lo)
  have hv : v.toNat / 2 ^ (f.hi + 1) < 2 ^ (63 - f.hi) := by
    apply Nat.div_lt_of_lt_mul
    rw [← e64]
    exact v.isLt
  have bound : v.toNat % 2 ^ f.lo + x % 2 ^ (f.hi + 1 - f.lo) * 2 ^ f.lo + v.toNat / 2 ^ (f.hi + 1) * 2 ^ (f.hi + 1) < 2 ^ 64 := by
    have h1 : v.toNat % 2 ^ f.lo + x % 2 ^ (f.hi + 1 - f.lo) * 2 ^ f.lo < 2 ^ (f.hi + 1) := by
      rw [e]
      calc v.toNat % 2 ^ f.lo + x % 2 ^ (f.hi + 1 - f.lo) * 2 ^ f.lo < 2 ^ f.lo + x % 2 ^ (f.hi + 1 - f.lo) * 2 ^ f.lo := by omega
        _ = (x % 2 ^ (f.hi + 1 - f.lo) + 1) * 2 ^ f.lo := by simp only [Nat.mul_add, Nat.add_mul, Nat.one_mul, Nat.mul_comm, Nat.mul_left_comm, Nat.mul_assoc, Nat.add_comm, Nat.add_left_comm, Nat.add_assoc]
        _ ≤ 2 ^ (f.hi + 1 - f.lo) * 2 ^ f.lo := Nat.mul_le_mul_right _ hb
        _ = _ := Nat.mul_comm _ _
    rw [e64]
    calc _ < 2 ^ (f.hi + 1) + v.toNat / 2 ^ (f.hi + 1) * 2 ^ (f.hi + 1) := by omega
      _ = (v.toNat / 2 ^ (f.hi + 1) + 1) * 2 ^ (f.hi + 1) := by simp only [Nat.mul_add, Nat.add_mul, Nat.one_mul, Nat.mul_comm, Nat.mul_left_comm, Nat.mul_assoc, Nat.add_comm, Nat.add_left_comm, Nat.add_assoc]
      _ ≤ 2 ^ (63 - f.hi) * 2 ^ (f.hi + 1) := Nat.mul_le_mul_right _ hv
      _ = _ := Nat.mul_comm _ _
  rw [BitVec.toNat_ofNat]
  generalize hb' : v.toNat / 2 ^ f.lo % 2 ^ (f.hi + 1 - f.lo) * 2 ^ f.lo = b at d ⊢
  have : v.toNat - b + x % 2 ^ (f.hi + 1 - f.lo) * 2 ^ f.lo = v.toNat % 2 ^ f.lo + x % 2 ^ (f.hi + 1 - f.lo) * 2 ^ f.lo + v.toNat / 2 ^ (f.hi + 1) * 2 ^ (f.hi + 1) := by omega
  rw [this, Nat.mod_eq_of_lt bound]

/-- A field reads back what was written to it, cut to its width. -/
theorem fget_fset_same (v : Word) (f : Fld) (x : Nat) (h : f.lo ≤ f.hi) (w : f.hi < 64) : fget (fset v f x) f = x % 2 ^ (f.hi + 1 - f.lo) := by
  unfold fget
  rw [fset_toNat v f x h w]
  have e : 2 ^ (f.hi + 1) = 2 ^ f.lo * 2 ^ (f.hi + 1 - f.lo) := by rw [← Nat.pow_add]; congr 1; omega
  have hl := Nat.mod_lt v.toNat (Nat.two_pow_pos f.lo)
  have r : v.toNat % 2 ^ f.lo + x % 2 ^ (f.hi + 1 - f.lo) * 2 ^ f.lo + v.toNat / 2 ^ (f.hi + 1) * 2 ^ (f.hi + 1)
      = v.toNat % 2 ^ f.lo + 2 ^ f.lo * (x % 2 ^ (f.hi + 1 - f.lo) + 2 ^ (f.hi + 1 - f.lo) * (v.toNat / 2 ^ (f.hi + 1))) := by rw [e]; simp only [Nat.mul_add, Nat.add_mul, Nat.one_mul, Nat.mul_comm, Nat.mul_left_comm, Nat.mul_assoc, Nat.add_comm, Nat.add_left_comm, Nat.add_assoc]
  rw [r, Nat.add_mul_div_left _ _ (Nat.two_pow_pos _), Nat.div_eq_of_lt hl, Nat.zero_add, Nat.add_mul_mod_self_left, Nat.mod_mod]

/-- A field above the one written is as before. -/
theorem fget_fset_above (v : Word) (f g : Fld) (x : Nat) (h : f.lo ≤ f.hi) (w : f.hi < 64) (d : f.hi < g.lo) : fget (fset v f x) g = fget v g := by
  unfold fget
  rw [fset_toNat v f x h w]
  congr 1
  have e : 2 ^ g.lo = 2 ^ (f.hi + 1) * 2 ^ (g.lo - (f.hi + 1)) := by rw [← Nat.pow_add]; congr 1; omega
  have e' : 2 ^ (f.hi + 1) = 2 ^ f.lo * 2 ^ (f.hi + 1 - f.lo) := by rw [← Nat.pow_add]; congr 1; omega
  have hb := Nat.mod_lt x (Nat.two_pow_pos (f.hi + 1 - f.lo))
  have hl := Nat.mod_lt v.toNat (Nat.two_pow_pos f.lo)
  have h1 : v.toNat % 2 ^ f.lo + x % 2 ^ (f.hi + 1 - f.lo) * 2 ^ f.lo < 2 ^ (f.hi + 1) := by
    rw [e']
    calc v.toNat % 2 ^ f.lo + x % 2 ^ (f.hi + 1 - f.lo) * 2 ^ f.lo < 2 ^ f.lo + x % 2 ^ (f.hi + 1 - f.lo) * 2 ^ f.lo := by omega
      _ = (x % 2 ^ (f.hi + 1 - f.lo) + 1) * 2 ^ f.lo := by simp only [Nat.mul_add, Nat.add_mul, Nat.one_mul, Nat.mul_comm, Nat.mul_left_comm, Nat.mul_assoc, Nat.add_comm, Nat.add_left_comm, Nat.add_assoc]
      _ ≤ 2 ^ (f.hi + 1 - f.lo) * 2 ^ f.lo := Nat.mul_le_mul_right _ hb
      _ = _ := Nat.mul_comm _ _
  rw [e, ← Nat.div_div_eq_div_mul, ← Nat.div_div_eq_div_mul]
  congr 1
  rw [Nat.mul_comm (v.toNat / 2 ^ (f.hi + 1)), Nat.add_mul_div_left _ _ (Nat.two_pow_pos _), Nat.div_eq_of_lt h1, Nat.zero_add]

/-- A field below the one written is as before. -/
theorem fget_fset_below (v : Word) (f g : Fld) (x : Nat) (h : f.lo ≤ f.hi) (w : f.hi < 64) (k : g.lo ≤ g.hi) (d : g.hi < f.lo) : fget (fset v f x) g = fget v g := by
  unfold fget
  rw [fset_toNat v f x h w]
  have e : 2 ^ f.lo = 2 ^ g.lo * 2 ^ (g.hi + 1 - g.lo) * 2 ^ (f.lo - (g.hi + 1)) := by rw [← Nat.pow_add, ← Nat.pow_add]; congr 1; omega
  have e' : 2 ^ (f.hi + 1) = 2 ^ f.lo * 2 ^ (f.hi + 1 - f.lo) := by rw [← Nat.pow_add]; congr 1; omega
  have r : v.toNat % 2 ^ f.lo + x % 2 ^ (f.hi + 1 - f.lo) * 2 ^ f.lo + v.toNat / 2 ^ (f.hi + 1) * 2 ^ (f.hi + 1)
      = v.toNat % 2 ^ f.lo + 2 ^ f.lo * (x % 2 ^ (f.hi + 1 - f.lo) + v.toNat / 2 ^ (f.hi + 1) * 2 ^ (f.hi + 1 - f.lo)) := by rw [e']; simp only [Nat.mul_add, Nat.add_mul, Nat.one_mul, Nat.mul_comm, Nat.mul_left_comm, Nat.mul_assoc, Nat.add_comm, Nat.add_left_comm, Nat.add_assoc]
  have m : ∀ n, n / 2 ^ g.lo % 2 ^ (g.hi + 1 - g.lo) = n % 2 ^ f.lo / 2 ^ g.lo % 2 ^ (g.hi + 1 - g.lo) := by
    intro n
    rw [← Nat.mod_mul_right_div_self, ← Nat.mod_mul_right_div_self, e, Nat.mod_mul_right_mod]
  rw [r, m, Nat.add_mul_mod_self_left, Nat.mod_mod, ← m]

end Sys2Proof.Machine
end

