-- ==== Sys2Proof/Laws/Issue.lean ====
section
/-!
SUPPORT. What issuing an instruction of fixed latency does, said once: the state after it when the engine stands at its issue cycle.
-/
namespace Sys2Proof.Machine

@[simp] theorem setSpire_setSpire (s : State) (i : Nat) (p r : Spire) : (s.setSpire i p).setSpire i r = s.setSpire i r := by
  simp [State.setSpire]

@[simp] theorem spire_setSpire (s : State) (i : Nat) (p : Spire) : (s.setSpire i p).spire i = p := by
  simp [State.setSpire, State.spire, tfind_tinsert_same]

theorem spire_setSpire_ne (s : State) {i j : Nat} (p : Spire) (h : j ≠ i) : (s.setSpire i p).spire j = s.spire j := by
  simp [State.setSpire, State.spire, tfind_tinsert_ne _ _ h]

theorem modSpire_setSpire (s : State) (i : Nat) (p : Spire) (f : Spire → Spire) : (s.setSpire i p).modSpire i f = s.setSpire i (f p) := by
  simp [State.modSpire]

theorem modSpire_modSpire (s : State) (i : Nat) (f g : Spire → Spire) : (s.modSpire i f).modSpire i g = s.modSpire i (fun p => g (f p)) := by
  simp [State.modSpire]

@[simp] theorem spire_modSpire (s : State) (i : Nat) (f : Spire → Spire) : (s.modSpire i f).spire i = f (s.spire i) := by
  simp [State.modSpire]

@[simp] theorem Spire.eng_setEng (p : Spire) (e : Engine) (x : Eng) : (p.setEng e x).eng e = x := by cases e <;> rfl

@[simp] theorem spire_bump (s : State) (o n i : Nat) : (s.bump o n).spire i = s.spire i := rfl

/-- An engine that takes its next instruction may issue, and is not held. -/
theorem canIssue_of_takes {s : State} {site : Nat} {e : Engine} (h : s.takes site e = true) : s.canIssue site e = true := by
  unfold State.takes at h
  exact (Bool.and_eq_true_iff.mp h).1

theorem ready_of_takes {s : State} {site : Nat} {e : Engine} (h : s.takes site e = true) : s.ready site e = s := by
  have k := canIssue_of_takes h
  unfold State.canIssue State.issuing at k
  unfold State.ready
  rw [if_neg]
  rintro ⟨hw, -⟩
  dsimp only at k
  rw [hw] at k
  simp at k

@[simp] theorem hazEn_modSpire (s : State) (i j : Nat) (f : Spire → Spire) : (s.modSpire i f).hazEn j = s.hazEn j := rfl

theorem earlyReads_off {s : State} {site : Nat} (h : s.hazEn site = false) (n q : Nat) (rs : List Res) (f : Landing → Bool) (k : Option Nat) : s.earlyReads site n q rs f k = (true, s) := by
  simp [State.earlyReads, h]

/-- An instruction of fixed latency issues (R75, R77, R85). -/
theorem issueFixed_at {s : State} {site : Nat} {e : Engine} {g : Option AttSig} {f : State → Except (Nat × Nat) Effect} {x : Effect}
    (h : AtIssue s site e) (hg : SignalOk s site e g) (hf : f s = .ok x) :
    s.issueFixed site e g f = s.setSpire site (issuedSpire s site e g x) := by
  obtain ⟨hc, hr, hz⟩ := h
  obtain ⟨h1, h2⟩ := hg
  unfold State.issueFixed
  simp only [canIssue_of_takes hc, hr, hc, h1, h2, hf, earlyReads_off hz, Bool.true_eq_false, if_false]
  by_cases hl : x.lat = 0 <;> cases hs : landSig g <;> cases hgr : relSig g <;>
    simp only [hl, if_true, if_false, State.nextSeq, State.pushSig, State.pushUpd, State.issued, modSpire_modSpire, hazEn_modSpire, hz] <;>
    simp only [State.modSpire, issuedSpire, landingOf, sigUpds, hl, hgr, hs, if_true, if_false] <;> cases e <;>
    simp [Spire.eng, Spire.setEng, Spire.issueAt]

theorem qpos_issuedSpire (s : State) (site : Nat) (e : Engine) (g : Option AttSig) (x : Effect) : ((issuedSpire s site e g x).eng e).qpos = ((s.spire site).eng e).qpos + 1 := by
  cases e <;> rfl

/-- A vector instruction issues, and is counted (R213). -/
theorem vecIssue_at {s : State} {site : Nat} {g : Option AttSig} {f : State → Except (Nat × Nat) Effect} {x : Effect}
    (h : AtIssue s site .vector) (hg : SignalOk s site .vector g) (hf : f s = .ok x) : s.vecIssue site g f = vecIssued s site g x := by
  unfold State.vecIssue
  simp only [ready_of_takes h.1, issueFixed_at h hg hf]
  have q := qpos_issuedSpire s site .vector g x
  simp only [Spire.eng] at q
  simp only [spire_setSpire, q]
  rw [if_neg (by omega)]
  rfl

/-- A sync operation, branch or wait at its issue cycle (R75, R86). -/
theorem syncIssue_at {s : State} {site : Nat} {e : Engine} (h : AtIssue s site e) (f : State → Nat → Nat → Option Nat × State) :
    s.syncIssue site e f = (match (f s ((s.spire site).issueAt e) ((s.spire site).eng e).qpos).1 with
      | some n => syncDone (f s ((s.spire site).issueAt e) ((s.spire site).eng e).qpos).2 site e ((s.spire site).issueAt e) n
      | none => (f s ((s.spire site).issueAt e) ((s.spire site).eng e).qpos).2) := by
  obtain ⟨h1, h2, -⟩ := h
  unfold State.syncIssue
  simp only [ready_of_takes h1, canIssue_of_takes h1, h1, h2, Bool.true_eq_false, if_false]
  rfl

end Sys2Proof.Machine
end

