-- ==== Sys2Proof/Laws/Quiet.lean ====
section
/-!
SUPPORT. A spire with nothing under way: its clock moves and nothing else, and one cell update that reaches it is that update alone (R219, R221).
-/
namespace Sys2Proof.Machine

/-- A fold whose every step leaves the state leaves it. -/
theorem foldl_fixed {α β : Type} (f : α → β → α) (s : α) (l : List β) (h : ∀ x, f s x = s) : l.foldl f s = s := by
  induction l with
  | nil => rfl
  | cons x l ih => rw [List.foldl_cons, h x, ih]

theorem resumeDue_quiet {s : State} {site : Nat} (h : ∀ e, ((s.spire site).eng e).st ≠ .wait) (c : Nat) : s.resumeDue site c = s := by
  refine foldl_fixed _ s _ fun e => ?_
  dsimp only
  split
  · exact absurd ‹_› (h e)
  · rfl

theorem wake_quiet {s : State} {site : Nat} (h : ∀ e, ((s.spire site).eng e).st ≠ .wait) (c : Nat) : s.wake site c = s := by
  refine foldl_fixed _ s _ fun e => ?_
  dsimp only
  split
  · exact absurd ‹_› (h e)
  · rfl

theorem slots_still {p : Spire} (h : Still p) : p.slots < 40 := by simp [Spire.slots, h.2.2.1, h.2.2.2.2.2.2.1]

theorem nextReq_still {p : Spire} (h : Still p) : p.nextReq = none := by simp [Spire.nextReq, h.2.2.1]

theorem pump_still {s : State} {site : Nat} (h : Still (s.spire site)) : s.pump site = s := by
  have hw : (s.spire site).ways = [] := by simp [Spire.ways, h.2.2.1]
  have hr : pumpReqs 1 site s = s := by simp [pumpReqs, nextReq_still h]
  have hh : pumpHints 17 site s = s := by simp [pumpHints, h.2.2.2.2.1]
  have hn : s.noteSlots site = s := by simp [State.noteSlots, h.2.2.2.2.2.1, Nat.not_le.mpr (slots_still h)]
  simp [State.pump, hw, h.2.2.1, hr, hh, hn]

theorem reissue_still {s : State} {site : Nat} (h : Still (s.spire site)) : s.reissue site = s := by
  unfold State.reissue
  simp only [h.2.2.2.1]

theorem Spire.stand_stand (p : Spire) {a b : Nat} (h : a ≤ b) (hp : p.cycle ≤ a) : (p.stand a).stand b = p.stand b := by
  have ha : max a p.cycle = a := by omega
  have hb : max b p.cycle = b := by omega
  have hc : max b a = b := by omega
  simp only [Spire.stand, ha, hb, hc]
  by_cases h1 : a < b
  · have : p.cycle < b := by omega
    simp [h1, this]
  · have : a = b := by omega
    subst this
    simp

/-- A cycle of a spire in which nothing but cell updates is under way: its clock moves, and the updates of the cycle act. -/
theorem runCycle_still {s : State} {site : Nat} (h : Still (s.spire site)) (c : Nat) (full : Bool) :
    s.runCycle site c full =
      let c := max c (s.spire site).cycle
      let late := fun (u : CellUpd) => if full then Nat.ble u.due c else Nat.blt u.due c
      let v := (s.setSpire site { (s.spire site).stand c with upds := (s.spire site).upds.filter (fun u => !late u) }).applyCycle site c ((s.spire site).upds.filter late)
      if full then (v.wake site c).modSpire site (fun p => p.stand (c + 1)) else v := by
  have e1 : s.modSpire site (fun p => { p.stand (max c (s.spire site).cycle) with landings := p.landings.filter (fun l => !Nat.ble l.due (max c (s.spire site).cycle)) }) =
      s.setSpire site ((s.spire site).stand (max c (s.spire site).cycle)) := by
    simp only [State.modSpire, h.1, List.filter_nil]
    congr 1
    simp only [Spire.stand, ← h.1]
  have k : Still ((s.setSpire site ((s.spire site).stand (max c (s.spire site).cycle))).spire site) := by rw [spire_setSpire]; exact h
  have e2 : (s.setSpire site ((s.spire site).stand (max c (s.spire site).cycle))).modSpire site (fun p => { p with reads := p.reads.filter (fun r => !Nat.ble r.due (max c (s.spire site).cycle)) }) =
      s.setSpire site ((s.spire site).stand (max c (s.spire site).cycle)) := by
    rw [modSpire_setSpire]
    congr 1
    simp only [Spire.stand, h.2.1, List.filter_nil]
  unfold State.runCycle
  dsimp only
  rw [e1]
  simp only [h.1, List.filter_nil, sortOn, State.landAll]
  rw [reissue_still k, e2]
  have er : ((s.setSpire site ((s.spire site).stand (max c (s.spire site).cycle))).spire site).reads = [] := k.2.1
  simp only [er, List.filter_nil, List.foldl_nil]
  rw [pump_still k, resumeDue_quiet k.2.2.2.2.2.2.2, modSpire_setSpire]
  simp only [spire_setSpire, Spire.stand]

/-- A cycle of a spire with nothing under way moves its clock. -/
theorem runCycle_quiet {s : State} {site : Nat} (h : Quiet (s.spire site)) (c : Nat) : s.runCycle site c false = s.setSpire site ((s.spire site).stand c) := by
  rw [runCycle_still h.1]
  simp only [h.2, List.filter_nil, State.applyCycle, List.foldl_nil, Bool.false_eq_true, if_false]
  congr 1
  simp only [Spire.stand, ← h.2]
  by_cases g : (s.spire site).cycle < c
  · have : max c (s.spire site).cycle = c := by omega
    simp [this]
  · have : max c (s.spire site).cycle = (s.spire site).cycle := by omega
    simp [this, g]

theorem nextDue_quiet {s : State} {site : Nat} (h : Quiet (s.spire site)) : s.nextDue site = none := by
  have hr : (s.spire site).resumes = [] := by
    simp only [Spire.resumes, List.filterMap_eq_nil_iff]
    intro e _
    simp [h.1.2.2.2.2.2.2.2 e]
  have hm : s.movDue site = none := by
    simp only [State.movDue, nextReq_still h.1, State.redoReady, h.1.2.2.2.1]
    simp
  simp [State.nextDue, h.1.1, h.1.2.1, h.2, hr, hm]

/-- A spire with nothing under way runs to a cycle by its clock alone. -/
theorem runTo_quiet {s : State} {site : Nat} (h : Quiet (s.spire site)) (t : Nat) : s.runTo site t = s.setSpire site ((s.spire site).stand t) := by
  have e : ∀ n t, runBefore n site t s = s := by
    intro n t
    cases n <;> simp [runBefore, nextDue_quiet h]
  simp only [State.runTo, e]
  rw [runCycle_quiet h]
  congr 1
  simp only [Spire.stand]
  by_cases g : (s.spire site).cycle < t
  · have : max t (s.spire site).cycle = t := by omega
    simp [this]
  · have : max t (s.spire site).cycle = (s.spire site).cycle := by omega
    simp [this, g]

/-- A cell update from outside that reaches a spire with nothing under way, and touches nothing of the spire but its cell, is that update and a cycle of the clock. -/
theorem cellReached_quiet {s : State} {site : Nat} {u : Nat → CellUpd} (h : Quiet (s.spire site)) (hu : (u (s.arriveAt site)).due = s.arriveAt site)
    (hv : (((s.setSpire site ((s.spire site).stand (s.arriveAt site))).applyCycle site (s.arriveAt site) [u (s.arriveAt site)]).spire site) = (s.spire site).stand (s.arriveAt site)) :
    s.cellReached site u =
      ((s.setSpire site ((s.spire site).stand (s.arriveAt site))).applyCycle site (s.arriveAt site) [u (s.arriveAt site)]).setSpire site ((s.spire site).stand (s.arriveAt site + 1)) := by
  have hc : (s.spire site).cycle ≤ s.arriveAt site := Nat.le_max_left _ _
  have hm : max (s.arriveAt site) ((s.spire site).stand (s.arriveAt site)).cycle = s.arriveAt site := by simp only [Spire.stand]; omega
  simp only [State.cellReached, runTo_quiet h, modSpire_setSpire]
  have hs : Still (((s.setSpire site { (s.spire site).stand (s.arriveAt site) with upds := ((s.spire site).stand (s.arriveAt site)).upds ++ [u (s.arriveAt site)] })).spire site) := by
    rw [spire_setSpire]; exact h.1
  rw [runCycle_still hs]
  simp only [spire_setSpire, setSpire_setSpire]
  have hup : ((s.spire site).stand (s.arriveAt site)).upds = [] := h.2
  simp only [hm, hup, List.nil_append, if_true]
  have hl : [u (s.arriveAt site)].filter (fun u => Nat.ble u.due (s.arriveAt site)) = [u (s.arriveAt site)] := by simp [hu]
  have hn : [u (s.arriveAt site)].filter (fun u => !Nat.ble u.due (s.arriveAt site)) = [] := by simp [hu]
  rw [hl, hn]
  have hst : ({ ({ (s.spire site).stand (s.arriveAt site) with upds := [u (s.arriveAt site)] } : Spire).stand (s.arriveAt site) with upds := [] } : Spire) = (s.spire site).stand (s.arriveAt site) := by
    have := Spire.stand_stand (s.spire site) (Nat.le_refl (s.arriveAt site)) hc
    simp only [Spire.stand] at this ⊢
    simpa [Spire.stand, h.2] using this
  rw [hst, wake_quiet (by rw [hv]; exact h.1.2.2.2.2.2.2.2)]
  have e : ∀ v : State, v.spire site = (s.spire site).stand (s.arriveAt site) → v.modSpire site (fun p => p.stand (s.arriveAt site + 1)) = v.setSpire site ((s.spire site).stand (s.arriveAt site + 1)) := by
    intro v hv
    rw [State.modSpire, hv, Spire.stand_stand _ (Nat.le_succ _) hc]
  rw [e _ hv]
  have z : ∀ v : State, (v.setSpire site ((s.spire site).stand (s.arriveAt site + 1))).settleCells site = v.setSpire site ((s.spire site).stand (s.arriveAt site + 1)) := by
    intro v
    have hq : ∀ n, settleUpds n site (v.setSpire site ((s.spire site).stand (s.arriveAt site + 1))) = v.setSpire site ((s.spire site).stand (s.arriveAt site + 1)) := by
      intro n
      cases n with
      | zero => rfl
      | succ n =>
        simp only [settleUpds, spire_setSpire]
        exact if_pos h.2
    exact hq _
  split
  · rfl
  · exact z _

end Sys2Proof.Machine
end

