-- ==== Sys2Proof/Machine/Flash.lean ====
section
/-!
DEFINITION. How the basin lies on flash: flights and their parity (R529, R531), the areas of the logical space (R530) and the commit record of a checkpoint (R536). Which units and blocks
the controller takes is its own and not visible (R529): first units are an argument.
-/
namespace Sys2Proof.Machine

/-! Flights (R529, R531). -/

/-- The blocks of flight `n`, in die order: one of each die, but for a bad one. -/
def State.flight (s : State) (n : Nat) : List Nat :=
  ((List.range 40).map (fun d => d * 6250 + n)).filter (fun k => !(s.block k).bad && !s.bsn.factory.contains k)

/-- The XOR of pages, byte by byte. -/
def xorPages : List (List Byte) → List Byte
  | [] => []
  | p :: ps => ps.foldl (List.zipWith (fun a b => a ^^^ b)) p

/-- A page-stripe over a flight: the last die, in die order, holds the parity of the others (R529). -/
def pageStripe (data : List (List Byte)) : List (List Byte) := data ++ [xorPages data]

/-- A page of a stripe rebuilt from the others (R531). -/
def rebuildPage (stripe : List (List Byte)) (i : Nat) : List Byte := xorPages (stripe.eraseIdx i)

/-! The logical space (R530). -/

inductive BasinArea where
  | superA
  | superB
  | healthA
  | healthB
  | journal
  | checkpoint
  deriving DecidableEq, Repr

/-- The area that a unit of the usable capacity lies in. -/
def areaOf (u : Nat) : Option BasinArea :=
  if u < 256 then some .superA else if u < 512 then some .superB else if u < 8704 then some .healthA else if u < 16896 then some .healthB
  else if u < 16794112 then some .journal else if u < 976562500 then some .checkpoint else none

/-! The commit record (R536). -/

/-- A region's data as the checkpoint holds it. -/
def Ckpt.regionData (k : Ckpt) (r : CkRegion) : List Byte := Memory.readBytes (if r.partner then k.partner else k.own) r.base r.len

/-- The descriptor of a region whose data starts at unit `first`. -/
def Ckpt.regionEntry (k : Ckpt) (r : CkRegion) (first : Nat) : List Byte :=
  bytesLE 8 r.base ++ bytesLE 8 r.len ++ bytesLE 8 first ++ bytesLE 1 (if r.partner then 1 else 0) ++ List.replicate 7 0 ++ (sha384 (k.regionData r)).take 32

/-- Bytes 0 to 16,319 of the commit record. -/
def Ckpt.recordBody (k : Ckpt) (first : List Nat) : List Byte :=
  let partner := k.plogical != 0xFF
  let head := bytesLE 8 k.epoch ++ bytesLE 8 k.job.toNat ++ bytesLE 1 k.logical ++ bytesLE 1 (if partner then 1 else 0) ++ bytesLE 1 k.plogical ++ bytesLE 1 k.regions.length
    ++ List.replicate 4 0 ++ bytesLE 8 k.tCapture ++ bytesLE 8 k.tCommit ++ bytesLE 8 k.spec ++ bytesLE 8 k.bytes ++ List.replicate 8 0 ++ k.step ++ k.pmirror ++ List.replicate 320 0
  let regs := (k.regions.zip first).flatMap (fun p => k.regionEntry p.1 p.2)
  (head ++ regs ++ List.replicate 16320 0).take 16320

/-- The commit record: one 16 KiB page. -/
def Ckpt.record (k : Ckpt) (first : List Nat) : List Byte :=
  let b := k.recordBody first
  b ++ sha384 b ++ List.replicate 16 0

end Sys2Proof.Machine
end

