-- ==== Sys2Proof/Machine/Layouts.lean ====
section
/-!
DEFINITION. How packets and frames lie in bits: the head flit of a canal packet (R319, R320, R322), the header and payload of a link packet (R351, R352), the frame word and its CRC (R348 to R350).
-/
namespace Sys2Proof.Machine

/-- A value in the bits [hi:lo] of a word. -/
def bitsAt (hi lo v : Nat) : Nat := v % 2 ^ (hi - lo + 1) * 2 ^ lo

/-! Canal packets. -/

/-- The header of a canal packet (R320). -/
def CPkt.header (p : CPkt) : BitVec 128 :=
  BitVec.ofNat 128 (bitsAt 127 126 p.tc + bitsAt 125 120 p.typ + bitsAt 119 118 p.dkind
    + (match p.dkind with | 2 => bitsAt 115 108 p.dest | 3 => bitsAt 111 108 p.dest | 1 => bitsAt 115 108 p.dest | _ => bitsAt 117 108 p.dest)
    + bitsAt 107 107 p.skind + bitsAt 106 97 p.src + bitsAt 96 93 p.len + bitsAt 92 91 p.spec + bitsAt 90 87 p.qmask + bitsAt 86 80 p.status + bitsAt 79 64 p.tag
    + (if p.typ = 1 ∨ p.typ = 3 then bitsAt 47 0 p.addr else 0))

/-- The signal payload of a head flit (R322). -/
def SigPay.bits (p : SigPay) : Nat :=
  bitsAt 133 128 p.cell + bitsAt 135 134 p.op + bitsAt 151 136 p.n + bitsAt 153 152 p.gen + bitsAt 165 160 p.origModule + bitsAt 175 166 p.origSpire

/-- The head flit: the header, and a signal's payload; other types have none (R319, R322). -/
def CPkt.headFlit (p : CPkt) : BitVec 512 :=
  BitVec.ofNat 512 (p.header.toNat + (if p.typ = 5 ∨ (p.typ = 7 ∧ p.tc = 0) then p.sig.bits else 0))

/-- A packet as flits of 64 bytes: the head, then the data in ascending byte order (R319). -/
def CPkt.words (p : CPkt) : List (BitVec 512) :=
  p.headFlit :: (List.range p.len).map (fun i => BitVec.ofNat 512 (natLE ((p.data.drop (64 * i)).take 64)))

/-! Link packets. -/

/-- The TYPE of a link packet (R351). -/
def LBody.typ : LBody → Nat
  | .sig _ _ _ => 0x01 | .sigAck _ => 0x02 | .hcp _ => 0x03 | .hcpReply _ _ => 0x04 | .streamOpen _ _ _ _ _ => 0x05 | .streamAck _ => 0x06
  | .time _ _ _ _ => 0x07 | .phase _ _ _ => 0x08 | .stop _ _ _ => 0x09 | .ident _ _ _ _ => 0x0A | .mirrorCommit _ _ _ _ => 0x0B | .mirrorAck _ _ => 0x0C

/-- The fields of a type in bits [191:0] of the header (R352). -/
def LBody.fields : LBody → Nat
  | .sig p mc dest => bitsAt 191 186 p.cell + bitsAt 185 184 p.op + bitsAt 183 168 p.n + bitsAt 167 166 p.gen + bitsAt 165 160 p.origModule + bitsAt 159 150 p.origSpire
      + (if mc then bitsAt 149 149 1 + bitsAt 144 139 dest else bitsAt 148 139 dest)
  | .sigAck status => bitsAt 191 176 status
  | .hcp _ => 0
  | .hcpReply _ _ => 0
  | .streamOpen addr len collId kind orig => bitsAt 191 144 addr + bitsAt 143 120 len + bitsAt 119 104 collId + bitsAt 103 96 kind + bitsAt 95 80 orig
  | .streamAck status => bitsAt 191 176 status
  | .time response t1 t2 t3 => bitsAt 191 128 t1 + (if response then bitsAt 127 64 t2 + bitsAt 63 0 t3 else 0)
  | .phase release _ tc => if release then bitsAt 191 128 tc else 0
  | .stop kind srcPos jobId => bitsAt 191 190 kind + bitsAt 189 184 srcPos + bitsAt 183 120 jobId
  | .ident podId pos link serial => bitsAt 191 160 podId + bitsAt 159 154 pos + bitsAt 153 148 link + bitsAt 147 84 serial
  | .mirrorCommit _ epoch close spec => bitsAt 191 128 epoch + bitsAt 127 64 close + bitsAt 63 0 spec
  | .mirrorAck _ epoch => bitsAt 191 128 epoch

/-- The payload of a link packet: a command packet or an entry, whose phase bit the write to the queue adds (R352, R468). -/
def LBody.payload : LBody → List Byte
  | .hcp pkt => bytesLE 512 pkt.toNat
  | .hcpReply e _ => bytesLE 32 (entryWord e 0)
  | _ => []

/-- The header of a link packet (R351). -/
def LPkt.header (p : LPkt) : BitVec 256 :=
  BitVec.ofNat 256 (bitsAt 255 250 p.body.typ + bitsAt 249 248 p.lclass + bitsAt 247 247 p.vl + bitsAt 246 246 p.tgen + bitsAt 245 243 p.table + bitsAt 242 237 p.destPos
    + bitsAt 236 231 p.srcPos + bitsAt 230 225 (p.body.payload.length / 32) + bitsAt 224 209 p.id + p.body.fields)

/-- A link packet as bytes: the header, then the payload (R351). -/
def LPkt.bytes (p : LPkt) : List Byte := bytesLE 32 p.header.toNat ++ p.body.payload

/-! Frames. -/

/-- The 2,048 flit bytes of a frame: a stream's data, or packets at 32-byte boundaries from offset 0, and zeros after them (R349, R350; DESIGN CHOICE for PACKET and IDLE, notes/assumptions/135.md). -/
def FrameBody.bytes (b : FrameBody) : List Byte :=
  let x := match b with | .data _ _ bs => bs | .packet _ _ ps => ps.flatMap LPkt.bytes | .idle => []
  x ++ List.replicate (2048 - x.length) 0

/-- One bit into a CRC-16 with polynomial 0x1021 (R349). -/
def crcBit (c : BitVec 16) (b : Bool) : BitVec 16 := if c.msb != b then (c <<< 1) ^^^ 0x1021 else c <<< 1

/-- Bytes into a CRC-16, the most significant bit of each first (DESIGN CHOICE, notes/assumptions/135.md). -/
def crcBytes (c : BitVec 16) (bs : List Byte) : BitVec 16 :=
  bs.foldl (fun c (b : Byte) => (List.range 8).foldl (fun c i => crcBit c (b.getLsbD (7 - i))) c) c

/-- The frame word without its CRC (R349). -/
def Frame.wordBits (f : Frame) : Nat :=
  (match f.body with
    | .data stream n _ => bitsAt 63 62 0 + bitsAt 35 33 (n - 1) + bitsAt 32 23 stream
    | .packet c v _ => bitsAt 63 62 1 + bitsAt 32 31 c + bitsAt 30 30 v
    | .idle => bitsAt 63 62 2)
    + bitsAt 61 61 f.tgen + bitsAt 60 49 f.fseq + bitsAt 48 37 f.ack + bitsAt 36 36 (if f.nak then 1 else 0) + bitsAt 22 21 f.credClass + bitsAt 20 20 f.credVl + bitsAt 19 16 f.credit

/-- The CRC of a frame: initial value 0xFFFF, over the flit bytes, then bits [63:16] of the frame word (R349). -/
def Frame.crc (f : Frame) : BitVec 16 := crcBytes (crcBytes 0xFFFF f.body.bytes) ((bytesLE 8 f.wordBits).drop 2).reverse

/-- The frame word: bits [63:16] and the CRC (R349). -/
def Frame.word (f : Frame) : Word := BitVec.ofNat 64 (f.wordBits + f.crc.toNat)

/-- The slots of a frame: tag i is bits [8i + 7 : 8i] of the frame word, before flit i (R348). -/
def Frame.slots (f : Frame) : List (List Byte) :=
  (List.range 8).map (fun i => f.word.extractLsb' (8 * i) 8 :: (f.body.bytes.drop (256 * i)).take 256)

end Sys2Proof.Machine
end

