-- ==== Sys2Proof/WellFormed.lean ====
section
/-!
DEFINITION. Well-formed commands: every operand that the rules number lies in its range. Beyond this a command names something that the module does not have.
-/
namespace Sys2Proof

open Sys2Proof.Machine

/-- Numbered operands of a lane-wise vector instruction, each with the end of its range (R199, R201). -/
def Machine.VIns.bounds (i : VIns) : List (Nat × Nat) := [(i.d, 32), (i.a, 32), (i.b, 32), (i.c, 32), (i.k, 8), (i.n, 64)]

/-- Of a local-store access (R206). -/
def Machine.VMem.bounds (i : VMem) : List (Nat × Nat) := [(i.v, 32), (i.idx, 32), (i.k, 8)]

/-- Of a move between registers and tiles (R205). -/
def Machine.VMove.bounds (i : VMove) : List (Nat × Nat) := [(i.t, 16), (i.r, 32), (i.v, 32), (i.half, 2), (i.k, 8)]

/-- Of a conversion (R203, R204). -/
def Machine.VCvt.bounds (i : VCvt) : List (Nat × Nat) := [(i.half, 2), (i.k, 8), (i.tag, 16)]

/-- Of an array instruction (R116, R130). -/
def Machine.ArrIns.bounds (i : ArrIns) : List (Nat × Nat) := [(i.ac, 4), (i.ta, 16), (i.ta2, 16), (i.tb, 16), (i.tb2, 16), (i.tm, 16), (i.half, 2), (i.ctx.getD 0, 2), (i.desc.getD 0, 32)]

/-- Of a mover tile form (R119). -/
def Machine.TileIns.bounds (i : TileIns) : List (Nat × Nat) := [(i.t, 16), (i.tag, 16), (i.desc.getD 0, 32)]

/-- Of what comes beside a landing (R71, R550). -/
def Machine.Upset.bounds : Upset → List (Nat × Nat)
  | .quiet => []
  | .sram k => [(k, 7)]
  | .residue row col point expected observed => [(row, 32), (col, 64), (point, 4), (expected, 7), (observed, 7)]

/-- Of a mover copy (R86). -/
def Machine.CopyIns.bounds (i : CopyIns) : List (Nat × Nat) := [(i.n, 257), (i.ls, 0x60000), (i.desc.getD 0, 32)]

/-- Of a link packet (R351). -/
def Machine.LPkt.bounds (p : LPkt) : List (Nat × Nat) := [(p.lclass, 4), (p.vl, 2), (p.tgen, 2), (p.table, 5), (p.destPos, 64), (p.srcPos, 64), (p.id, 2 ^ 16)]

/-- Of a canal packet (R320). -/
def Machine.CPkt.bounds (p : CPkt) : List (Nat × Nat) := [(p.tc, 4), (p.dkind, 4), (p.skind, 2), (p.tag, 2 ^ 16)]

/-- Of a signal (R322). -/
def Machine.SigPay.bounds (p : SigPay) : List (Nat × Nat) := [(p.cell, 48), (p.op, 4), (p.n, 2 ^ 16), (p.gen, 4), (p.origModule, 64), (p.origSpire, 960)]

/-- The numbered operands of a command, each with the end of its range. -/
def Instr.bounds (i : Instr) : List (Nat × Nat) :=
  match i with
  | .mma site i => [(site, 1024)] ++ i.bounds
  | .mmaSp site i => [(site, 1024)] ++ i.bounds
  | .mmaDiag site i => [(site, 1024)] ++ i.bounds
  | .instructionLanding site u => [(site, 1024)] ++ u.bounds
  | .vadd site i => [(site, 1024)] ++ i.bounds
  | .vsub site i => [(site, 1024)] ++ i.bounds
  | .vmul site i => [(site, 1024)] ++ i.bounds
  | .vfma site i => [(site, 1024)] ++ i.bounds
  | .vfms site i => [(site, 1024)] ++ i.bounds
  | .vfnma site i => [(site, 1024)] ++ i.bounds
  | .vmax site i => [(site, 1024)] ++ i.bounds
  | .vmin site i => [(site, 1024)] ++ i.bounds
  | .vabs site i => [(site, 1024)] ++ i.bounds
  | .vneg site i => [(site, 1024)] ++ i.bounds
  | .vcpsgn site i => [(site, 1024)] ++ i.bounds
  | .vcmp site i => [(site, 1024)] ++ i.bounds
  | .vsel site i => [(site, 1024)] ++ i.bounds
  | .viadd site i => [(site, 1024)] ++ i.bounds
  | .visub site i => [(site, 1024)] ++ i.bounds
  | .vimul site i => [(site, 1024)] ++ i.bounds
  | .vand site i => [(site, 1024)] ++ i.bounds
  | .vor site i => [(site, 1024)] ++ i.bounds
  | .vxor site i => [(site, 1024)] ++ i.bounds
  | .vnot site i => [(site, 1024)] ++ i.bounds
  | .vshl site i => [(site, 1024)] ++ i.bounds
  | .vshr site i => [(site, 1024)] ++ i.bounds
  | .vsra site i => [(site, 1024)] ++ i.bounds
  | .vimax site i => [(site, 1024)] ++ i.bounds
  | .vimin site i => [(site, 1024)] ++ i.bounds
  | .viota site i => [(site, 1024)] ++ i.bounds
  | .vlane site i => [(site, 1024)] ++ i.bounds
  | .kand site i => [(site, 1024)] ++ i.bounds
  | .kor site i => [(site, 1024)] ++ i.bounds
  | .kxor site i => [(site, 1024)] ++ i.bounds
  | .knot site i => [(site, 1024)] ++ i.bounds
  | .vcvtw site i => [(site, 1024)] ++ i.bounds
  | .vcvtn site i => [(site, 1024)] ++ i.bounds
  | .vcvti site i => [(site, 1024)] ++ i.bounds
  | .vcvtf site i => [(site, 1024)] ++ i.bounds
  | .vmxenc site i => [(site, 1024)] ++ i.bounds
  | .vrsum site i => [(site, 1024)] ++ i.bounds
  | .vrmax site i => [(site, 1024)] ++ i.bounds
  | .vrmin site i => [(site, 1024)] ++ i.bounds
  | .vexp2 site i => [(site, 1024)] ++ i.bounds
  | .vlog2 site i => [(site, 1024)] ++ i.bounds
  | .vrcp site i => [(site, 1024)] ++ i.bounds
  | .vrsqrt site i => [(site, 1024)] ++ i.bounds
  | .vtanh site i => [(site, 1024)] ++ i.bounds
  | .vsigm site i => [(site, 1024)] ++ i.bounds
  | .vdiv site i => [(site, 1024)] ++ i.bounds
  | .vsqrt site i => [(site, 1024)] ++ i.bounds
  | .vtr site i => [(site, 1024)] ++ i.bounds
  | .vrt site i => [(site, 1024)] ++ i.bounds
  | .vgather site i => [(site, 1024)] ++ i.bounds
  | .vscatter site i => [(site, 1024)] ++ i.bounds
  | .vld site i => [(site, 1024)] ++ i.bounds
  | .vst site i => [(site, 1024)] ++ i.bounds
  | .tileLoad site i => [(site, 1024)] ++ i.bounds
  | .tileLoadScale site i => [(site, 1024)] ++ i.bounds
  | .transposedLoad site i => [(site, 1024)] ++ i.bounds
  | .accumulatorLoad site i => [(site, 1024)] ++ i.bounds
  | .tileStore site i => [(site, 1024)] ++ i.bounds
  | .tileStoreScale site i => [(site, 1024)] ++ i.bounds
  | .accumulatorStore site i => [(site, 1024)] ++ i.bounds
  | .moverCopy site i => [(site, 1024)] ++ i.bounds
  | .prefetchHint site _ _ => [(site, 1024)]
  | .dload site d _ => [(site, 1024), (d, 32)]
  | .dstore site d _ => [(site, 1024), (d, 32)]
  | .dcount site d _ _ => [(site, 1024), (d, 32)]
  | .dset site d _ _ => [(site, 1024), (d, 32)]
  | .scalarArithmetic site _ d _ _ => [(site, 1024), (d, 32)]
  | .branch site _ _ _ _ => [(site, 1024)]
  | .syncBranch site _ _ _ => [(site, 1024)]
  | .loopIterationIssue site _ => [(site, 1024)]
  | .syncFill site _ c => [(site, 1024), (c, 48)]
  | .drain site _ c => [(site, 1024), (c, 48)]
  | .add site _ c n => [(site, 1024), (c, 48), (n, 2 ^ 16)]
  | .dec site _ c n => [(site, 1024), (c, 48), (n, 2 ^ 16)]
  | .waitf site _ c => [(site, 1024), (c, 48)]
  | .waite site _ c => [(site, 1024), (c, 48)]
  | .waitge site _ c n => [(site, 1024), (c, 48), (n, 2 ^ 16)]
  | .waitgeTake site _ c n => [(site, 1024), (c, 48), (n, 2 ^ 16)]
  | .sread site x c => [(site, 1024), (x, 32), (c, 48)]
  | .barrive site _ c => [(site, 1024), (c, 48)]
  | .bwait site _ c _ => [(site, 1024), (c, 48)]
  | .sig site _ m l c _ => [(site, 1024), (m, 64), (l, 960), (c, 48)]
  | .sigMc site _ g _ => [(site, 1024), (g, 64)]
  | .fence site _ _ _ _ => [(site, 1024)]
  | .endStream site _ => [(site, 1024)]
  | .engineIssueResume site _ => [(site, 1024)]
  | .instructionFetchReturn site _ _ => [(site, 1024)]
  | .globalRowArrival site _ _ => [(site, 1024)]
  | .moverAsyncLanding site _ => [(site, 1024)]
  | .translationWalkComplete site _ _ => [(site, 1024)]
  | .xltResolveTimeout w => (match w with | .site n => [(n, 1024)] | .node _ k => [(k, 65536)] | .coll q => [(q, 16)])
  | .prefetchIssue site _ => [(site, 1024)]
  | .prefetchArrival p => p.bounds
  | .spireStart site => [(site, 1024)]
  | .spireFinished site => [(site, 1024)]
  | .taskCompletion handle => [(handle, 2 ^ 32)]
  | .taskWatchdogExpiry handle => [(handle, 2 ^ 32)]
  | .gapThresholdReached site c => [(site, 1024), (c, 2)]
  | .dutyDecrement site c => [(site, 1024), (c, 2)]
  | .dutyIncrement site c => [(site, 1024), (c, 2)]
  | .sparseIntervalEnd site c => [(site, 1024), (c, 2)]
  | .gapThreshWrite site _ => [(site, 1024)]
  | .rsdInjectArm site _ => [(site, 1024)]
  | .rngSeedWrite site _ => [(site, 1024)]
  | .syncCellWrite site c _ => [(site, 1024), (c, 48)]
  | .holdLimWrite site _ => [(site, 1024)]
  | .syncHoldLimitReached site c eng => [(site, 1024), (c, 48), (eng, 6)]
  | .remoteSignalArrival site p => [(site, 1024)] ++ p.bounds
  | .barrierArrival site p => [(site, 1024)] ++ p.bounds
  | .barrierRelease site p => [(site, 1024)] ++ p.bounds
  | .rd p => p.bounds
  | .rdData p => p.bounds
  | .wr p => p.bounds
  | .wrAck p => p.bounds
  | .canalSig p => p.bounds
  | .canalSigAck p => p.bounds
  | .mc site _ => [(site, 1024)]
  | .mcAck _ => []
  | .mcBranchTimeout site port => [(site, 1024), (port, 6)]
  | .cfg p => p.bounds
  | .cfgRsp p => p.bounds
  | .packetForward site out _ => [(site, 1024), (out, 7)]
  | .creditReturn site port tc => [(site, 1024), (port, 16), (tc, 4)]
  | .aqueductFlitReceive dir ch _ => [(dir, 2), (ch, 64)]
  | .frameReceive n _ => [(n, 48)]
  | .linkRetryLimit n => [(n, 48)]
  | .linkEnableWrite n _ => [(n, 48)]
  | .linkRetrainRequest n => [(n, 48)]
  | .linkTrainingComplete n => [(n, 48)]
  | .linkAlignComplete n => [(n, 48)]
  | .linkTrainTimeout n => [(n, 48)]
  | .linkAlignTimeout n => [(n, 48)]
  | .linkIdentTimeout n => [(n, 48)]
  | .linkRetrainTimeout n => [(n, 48)]
  | .ident n p => [(n, 48)] ++ p.bounds
  | .linkSig n p => [(n, 48)] ++ p.bounds
  | .linkSigAck n p => [(n, 48)] ++ p.bounds
  | .hcp n p => [(n, 48)] ++ p.bounds
  | .hcpReply n p => [(n, 48)] ++ p.bounds
  | .streamOpen n p => [(n, 48)] ++ p.bounds
  | .streamLanded n ctx => [(n, 48), (ctx, 1024)]
  | .streamAck n p => [(n, 48)] ++ p.bounds
  | .timePacket n p => [(n, 48)] ++ p.bounds
  | .timeExchangeTick => []
  | .timebaseExchangeTimeout => []
  | .phaseBoundary _ _ => []
  | .phaseShadowLoaded => []
  | .phase n p => [(n, 48)] ++ p.bounds
  | .phaseHoldLimit => []
  | .bankSwap => []
  | .stop n p => [(n, 48)] ++ p.bounds
  | .stopTimeout => []
  | .mirrorChunkCopy _ => []
  | .mirrorEpochComplete => []
  | .mirrorCommit n p => [(n, 48)] ++ p.bounds
  | .mirrorAck n p => [(n, 48)] ++ p.bounds
  | .collectiveStart q => [(q, 16)]
  | .readyPoll q => [(q, 16)]
  | .bucketStart q => [(q, 16)]
  | .coalesceTimeout q => [(q, 16)]
  | .congestionWindow q => [(q, 16)]
  | .collectivePieceArrival q _ => [(q, 16)]
  | .tokenCountArrival q _ => [(q, 16)]
  | .tokenPlacement q => [(q, 16)]
  | .tokenReplyArrival q _ => [(q, 16)]
  | .tokenPayloadStart q => [(q, 16)]
  | .tokenPadding q _ => [(q, 16)]
  | .collectiveCompletion q => [(q, 16)]
  | .collectiveStall q => [(q, 16)]
  | .stageReadyPoll q => [(q, 32)]
  | .stageSlotArrival q => [(q, 32)]
  | .stageFreePoll q => [(q, 32)]
  | .stageCreditArrival q => [(q, 32)]
  | .predicateEvaluation _ _ => []
  | .epochCommitInstant k => [(k, 2)]
  | .epochDrainComplete k => [(k, 2)]
  | .epochStallLimit k => [(k, 2)]
  | .specCtlWrite _ => []
  | .towerReadComplete t ch c source _ => [(t, 8), (ch, 32), (c, 6291456), (source, 3)]
  | .towerRefresh t ch bank _ => [(t, 8), (ch, 32), (bank, 64)]
  | .scrubPositionDue t _ => [(t, 8)]
  | .ceWindowStart t => [(t, 8)]
  | .towerTemperatureRead t _ => [(t, 8)]
  | .channelHang t ch _ => [(t, 8), (ch, 32)]
  | .towerLogLowRead t n => [(t, 8), (n, 64)]
  | .marginTestStart t _ => [(t, 8)]
  | .marginTestDone t _ => [(t, 8)]
  | .farReadCompletion _ _ => []
  | .farRequestTimeout => []
  | .farLinkLoss => []
  | .bar2Read _ _ => []
  | .bar2Write _ _ => []
  | .cxlMemAccess _ _ _ => []
  | .registerWrite off _ => [(off, 0x4000000)]
  | .sqTailDoorbell q _ => [(q, 64)]
  | .cqHeadDoorbell q _ => [(q, 64)]
  | .sqEnable q => [(q, 64)]
  | .sqDisable q => [(q, 64)]
  | .cqEnable q => [(q, 64)]
  | .cqDisable q => [(q, 64)]
  | .packetFetch q _ => [(q, 64)]
  | .delayedCommandStart => []
  | .waitLimitExpiry _ => []
  | .msixCoalesceTimeout q => [(q, 64)]
  | .functionLevelReset => []
  | .h0PerstNAssertion => []
  | .nop _ => []
  | .identify _ => []
  | .regRead _ => []
  | .regWrite _ => []
  | .timeRead _ => []
  | .copy _ => []
  | .fill _ => []
  | .xltInvalidate _ => []
  | .pageResolve _ => []
  | .pageMigrate _ => []
  | .interleave _ => []
  | .retire _ => []
  | .retireClear _ => []
  | .programLoad _ => []
  | .programUnload _ => []
  | .launch _ => []
  | .graphSubmit _ => []
  | .pause _ => []
  | .resume _ => []
  | .abort _ => []
  | .epochOpen _ => []
  | .epochCommit _ => []
  | .epochDiscard _ => []
  | .taskQuery _ => []
  | .podConfig _ => []
  | .jobStart _ _ => []
  | .jobEnd _ => []
  | .jobStop _ => []
  | .pair _ _ => []
  | .syncGroupsLoad _ => []
  | .canalGroupsLoad _ => []
  | .stageqLoad _ _ => []
  | .phaseListLoad _ => []
  | .collective _ => []
  | .stepEnd _ => []
  | .mirrorClose _ => []
  | .substitute _ => []
  | .basinInfo _ => []
  | .ckptWrite _ => []
  | .ckptCaptureChunk => []
  | .ckptCaptureComplete => []
  | .ckptList _ => []
  | .ckptRestore _ _ _ => []
  | .ckptDelete _ => []
  | .errRead _ => []
  | .spireFence _ => []
  | .funcReinit _ => []
  | .reinitLimitExpiry kind _ => [(kind, 7)]
  | .warmReset _ => []
  | .warmResetComplete _ => []
  | .warmResetTimeout => []
  | .powerCycle _ => []
  | .powerRemoval => []
  | .powerRestore => []
  | .rollback _ _ _ _ => []
  | .powerState _ => []
  | .powerCap _ => []
  | .clockLimit _ => []
  | .telemetry _ => []
  | .secStatus _ => []
  | .debugChallenge _ => []
  | .debugUnlock _ => []
  | .manufService _ => []
  | .nonceExpiry => []
  | .journalQuery _ => []
  | .journalMark _ => []
  | .testMode _ => []
  | .selfTest _ _ => []
  | .counterSnapshot _ => []
  | .mailboxSend agent c _ _ => [(agent, 2 ^ 16), (c, 32)]
  | .mailboxReceive agent c => [(agent, 2 ^ 16), (c, 32)]
  | .partnerMessageLanded c => [(c, 32)]
  | .partnerCountReturned c => [(c, 32)]
  | .journalPersist => []
  | .journalPersistComplete _ => []
  | .patrolRead _ _ => []
  | .retentionRefresh _ _ => []
  | .readDisturbRelocate _ _ => []
  | .staticLevelling _ _ => []
  | .basinCodewordRead _ _ _ => []
  | .nandProgramFailure _ _ _ => []
  | .nandEraseFailure _ => []
  | .basinControllerTimeout => []
  | .sanitize => []
  | .inputLoss => []
  | .lossPersistDone _ => []
  | .powerUp straps => [(straps, 64)]
  | .railFault n => [(n, 14)]
  | .powerSample _ _ _ _ => []
  | .powerCapTick _ _ => []
  | .capWindowEnd => []
  | .spireClockStep d _ => [(d, 2)]
  | .clockUserLimitWrite d _ => [(d, 2)]
  | .thermalTick _ => []
  | .thermalRecovery => []
  | .quiescentWake => []
  | .sidebandHeartbeatLoss => []
  | .sidebandHeartbeat => []
  | .fwWatchdog core => [(core, 4)]
  | .bootStageComplete _ => []
  | .bootTimeout => []
  | .commitLk => []
  | .commitLt => []
  | .commitCfg => []
  | .spdmRequest responder _ => [(responder, 2)]
  | .ideKm _ => []
  | .ideIntegrityFailure => []
  | .requestUpdate _ _ => []
  | .requestFirmwareData _ _ => []
  | .transferComplete => []
  | .activateFirmware => []
  | .sensorRead _ => []
  | .powerEffecterOn => []
  | .powerEffecterOff => []
  | .powerEffecterCycle => []
  | .capEffecter _ => []
  | .releaseOutOfService => []
  | .podConfigurationRecord _ _ _ _ _ => []
  | .scanEnWrite _ => []
  | .scanInstructionUpdate _ => []
  | .trstNAssertion => []
  | .pprStart _ => []
  | .linkPrbsCheck n _ => [(n, 48)]
  | .h1MarginCommand _ => []
  | .h0DwellEnd => []
  | .eyeMeasurement n lane _ => [(n, 48), (lane, 2)]
  | .reinitComplete kind _ _ => [(kind, 7)]
  | .queueDmaError q => [(q, 64)]
  | .frameSend n => [(n, 48)]
  | .pairConfirmTimeout _ => []
  | .standbyExitTimeout => []
  | .clampSenseClosed => []
  | .vectorHoldRamp _ => []
  | .lockkeeperSupplyLoss => []
  | .h0LinkTrained width rate log2 => [(width, 17), (rate, 7), (log2, 41)]
  | .pprDone _ _ => []
  | .linkPrbsCheckDone n _ => [(n, 48)]
  | .h1MarginResponse _ => []
  | .sanitizeComplete => []
  | .svnProgrammingComplete typ => [(typ, 4)]

/-- A command is well formed when every numbered operand is in its range. -/
def Instr.wf (i : Instr) : Bool := i.bounds.all (fun p => Nat.blt p.1 p.2)

end Sys2Proof
end

