-- ==== Sys2Proof/Tests/Slice0.lean ====
section
/-!
SUPPORT. Tests: an ill-formed command for each range of WellFormed, small values from the manual, and for each statement with hypotheses a state and operands that meet them.
-/
namespace Sys2Proof.Tests
open Sys2Proof Sys2Proof.Machine

set_option Elab.async false

/-! States to test in. -/

/-- Registers of reset, some fields set. -/
def withFlds (s : State) (l : List (Nat × Fld × Nat)) : State := l.foldl (fun s x => s.setFld x.1 x.2.1 x.2.2) s

/-- All four engines run, each with an instruction in its queue. -/
def runAll (p : Spire) : Spire := allEngines.foldl (fun p e => p.setEng e { p.eng e with st := .run, queue := 1 }) p

/-- Site 0 runs a task. -/
def running : State := (State.reset.setFld (R.SPR_STATUS 0) F.SPR_STATUS_STATE 1).modSpire 0 runAll

theorem form_of {s : State} (h : twf regReset s.regs ∧ Memory.wf s.mem) : InForm s := h

theorem forms_of {l : List State} (h : ∀ s ∈ l, twf regReset s.regs ∧ Memory.wf s.mem) : ∀ s ∈ l, InForm s := h

/-! The vector engine. -/

def relS : Option AttSig := some { release := true, cell := 47, op := .add, n := 65535 }
def vins : VIns := { fmt := .f, d := 31, a := 31, b := 31, c := 31, k := 7, n := 63, cc := .eq, sig := relS }
def vcvt : VCvt := { dst := .reg 31, src := .reg 31, fmt := .f, elem := .bf16, half := 1, tag := 0, rnd := .nearest, k := 7, sig := none }
def vmov : VMove := { acc := true, t := 3, r := 31, half := 1, v := 31, tag := 0, k := 7, sig := none }
def vmem : VMem := { v := 31, idx := 31, base := 0x5FFFC, size := 4, k := 7, sig := none }

theorem wit_VectorFloat : AtIssue running 0 .vector ∧ SignalOk running 0 .vector vins.sig ∧ vins.ok = true ∧ vfmtInfo vins.fmt = some (fmtFp32, 64, 32) := by decide +kernel

theorem wit_VectorInteger : AtIssue running 0 .vector ∧ SignalOk running 0 .vector vins.sig ∧ ({ vins with fmt := .int } : VIns).ok = true ∧ ({ vins with d := 7, a := 7, b := 7, n := 7, fmt := .fp16 } : VIns).ok = true
    ∧ vfmtInfo .fp16 = some (fmtFp16, 128, 16) ∧ vins.n < 64 := by decide +kernel

theorem wit_VectorConvert : InForm running ∧ AtIssue running 0 .vector ∧ SignalOk running 0 .vector vcvt.sig ∧ vins.ok = true ∧ (elemFmt .bf16).width ≠ 32 ∧ elemFmt .bf16 ≠ fmtFp32 ∧ Elem.bf16.isMx = false ∧ segOk 64 16 0 = true ∧ vfmtInfo vcvt.fmt = some (fmtFp32, 64, 32)
    ∧ tagInfo 5 = some (fmtE4m3, 128, true, .byte) ∧ segOk 64 fmtE4m3.width 64 = true ∧ tagInfo 0xB = some (fmtE2m1, 256, true, .nibble) :=
  ⟨form_of (by decide +kernel), by decide +kernel⟩

theorem wit_VectorReduce : AtIssue running 0 .vector ∧ SignalOk running 0 .vector vins.sig ∧ vins.ok = true ∧ vfmtInfo .bf16 = some (fmtBf16, 128, 16) := by decide +kernel

/-- Lane 0 alone is in the mask: an element ends at the last byte of the local store. -/
def lane0 : State := running.modSpire 0 (fun p => { p with regs := { p.regs with kmasks := [(7, 1#64)] } })

theorem wit_VectorMoves : InForm lane0 ∧ AtIssue lane0 0 .vector ∧ SignalOk lane0 0 .vector vmov.sig ∧ vmem.base % 4 = 0
    ∧ (laneOffsets ((lane0.spire 0).mask vmem.k) vmem.base 4 (fun l => l)).find? (fun x => Nat.blt lsSize (x.2 + 4)) = none
    ∧ (laneOffsets ((lane0.spire 0).mask vmem.k) vmem.base 4 (fun l => elemAt ((lane0.spire 0).vreg vmem.idx).toNat 32 l)).find? (fun x => Nat.blt lsSize (x.2 + 4)) = none :=
  ⟨form_of (by decide +kernel), by decide +kernel⟩

/-! Array, mover and loops. -/

def arr : ArrIns := { ctx := some 1, ac := 3, ta := 15, ta2 := 15, tb := 14, tb2 := 14, accumulate := true, window := 0, tm := 13, slot := 1, p416 := false, half := 1, desc := none, sig := relS }
/-- Tile 13 holds metadata. -/
def withMeta : State := running.setReg (R.SPR_TAG_OP 0) 0x00C0000000000000#64
def okArr (s : State) (f : AForm) : Bool := match s.arrCheck 0 f arr with | .ok .wide => true | _ => false

theorem wit_MatrixIssue : AtArray withMeta 0 arr ∧ SignalOk withMeta 0 .matrix arr.sig ∧ (okArr withMeta .mma = true ∧ okArr withMeta .sp = true ∧ okArr withMeta .diag = true) ∧ runsOnce withMeta 0 (.arr .mma arr) arr.desc :=
  ⟨by decide +kernel, by decide +kernel, by decide +kernel, trivial⟩

def tile : TileIns := { global := false, t := 3, base := 0, stride := 1, sbase := 64, sstride := 8, tag := 0, desc := none, sig := none }
def goodMov (s : State) (f : MForm) (i : TileIns) : Bool := (s.movCheck 0 (s.movAtIssue 0 (tileOp f i))).isNone
/-- Tile 3 is scaled. -/
def scaled3 : State := running.setReg (R.SPR_TAG_OP 0) 0x5000#64
/-- The last four barges of the towers. -/
def copyOp : MovOp := { form := .copyIn, global := true, t := 0, base := 0x00C000000000 - 2048, stride := 512, sbase := 0, sstride := 0, tag := 0, stag := 0, n := 4, ls := 0x60000 - 2048, win := none, swin := none, qpos := 0, iter := none, sig := none }

theorem wit_MoverForms : AtIssue running 0 .mover ∧ SignalOk running 0 .mover tile.sig ∧ goodMov running .load tile = true ∧ goodMov running .accLoad tile = true ∧ goodMov running .store tile = true ∧ goodMov running .accStore tile = true
    ∧ goodMov running .transposed { tile with tag := 1 } = true ∧ goodMov running .loadScale { tile with tag := 5 } = true
    ∧ AtIssue scaled3 0 .mover ∧ goodMov scaled3 .storeScale tile = true ∧ running.movCheck 0 (running.movAtIssue 0 copyOp) = none ∧ running.movCheck 0 (running.movAtIssue 0 { copyOp with form := .copyOut }) = none
    ∧ goodMov running .load { tile with global := true, base := 0 } = true := by decide +kernel

/-- A hint's barge is still to be requested, with `n` slots held by prefetches; its page is cached where `xs` lists it. -/
def hinting (n : Nat) (xs : List Xlt) : State :=
  running.modMover 0 (fun m => { m with hints := [512], xlt := xs, pre := List.replicate n { tag := 0, addr := 0, gen := 0 } })
def page0 : Xlt := { va := 0, size := 0x10000, frame := 0x10000, w := true, nopf := false }

theorem wit_PrefetchHint : (hinting 0 []).prefetchTo 0 512 = none ∧ (hinting 39 [page0]).prefetchTo 0 512 = some 0x10200 ∧ ((hinting 39 [page0]).spire 0).slots = 39 ∧ ((hinting 39 [page0]).spire 0).wayFree 0x10200 = true
    ∧ ((hinting 40 [page0]).spire 0).slots = 40 ∧ (hinting 40 [page0]).prefetchTo 0 512 = some 0x10200 := by decide +kernel
/-- One level of three iterations, its signal at the last, no gate. -/
def desc3 : BitVec 2048 := BitVec.ofNat 2048 (0x7071 + 3 * 2 ^ 64)
/-- A gate of 2 on cell 47 at every iteration. -/
def gated3 : BitVec 2048 := BitVec.ofNat 2048 (0x7071 - 0x7000 + 2 * 2 ^ 16 + 47 * 2 ^ 24 + 3 * 2 ^ 64)
def withDesc (d : BitVec 2048) : State := running.modSpire 0 (fun p => { p with regs := { p.regs with descs := [(31, d)] } })
def sigM : Option AttSig := some { release := false, cell := 0, op := .fill, n := 0 }

def loopable (d : BitVec 2048) : Prop := dLevels d ≠ 0 ∧ dReservedOk d = true ∧ dLevelsOk d = true ∧ (dGateN d = 0 ∨ (withDesc d).cellIs 0 (dGateCell d) 0 = true) ∧ ((withDesc d).spire 0).desc 31 = d
    ∧ AtIssue (withDesc d) 0 .matrix ∧ AtIssue (withDesc d) 0 .mover ∧ SignalOk (withDesc d) 0 .matrix relS ∧ SignalOk (withDesc d) 0 .mover sigM
    ∧ granulesOk d ((withDesc d).bodySlots 0 d (.arr .mma { arr with desc := some 31 })) = true ∧ granulesOk d ((withDesc d).bodySlots 0 d (.mov (tileOp .load { tile with desc := some 31 }))) = true

theorem wit_LoopStart : loopable desc3 ∧ loopable gated3 ∧ loopable (BitVec.ofNat 2048 0x7071) ∧ tripCount desc3 = 3 ∧ tripCount (BitVec.ofNat 2048 0x7071) = 0 := by unfold loopable; decide +kernel

/-- A loop of either engine, at its iteration `n`. -/
def looping (d : BitVec 2048) (n : Nat) : State := running.modSpire 0 (fun p =>
  { p with mat := { p.mat with loop := some { desc := d, body := .arr .mma { arr with desc := some 31 }, next := n, total := 3, gateTaken := false } },
           mov := { p.mov with loop := some { desc := d, body := .mov (tileOp .load { tile with desc := some 31 }), next := n, total := 3, gateTaken := false } } })

theorem wit_LoopIteration : (∀ n ∈ [0, 2], let s := looping desc3 n
      (∀ e ∈ [Engine.matrix, .mover], s.issuing 0 e = true ∧ s.slotsFree 0 e = true) ∧ gated desc3 n = false ∧ s.hazEn 0 = false
      ∧ (let j := s.arrAtIter 0 desc3 .mma { arr with desc := some 31 } n; s.runTo 0 ((s.spire 0).arrAt { arr with desc := some 31 }) = s ∧ (match s.arrCheck 0 .mma j with | .ok _ => true | _ => false) = true)
      ∧ s.runTo 0 ((s.spire 0).issueAt .mover) = s ∧ s.movCheck 0 (s.latchTag 0 (movAtIter desc3 (tileOp .load { tile with desc := some 31 }) n 3)) = none)
    ∧ (∀ k ∈ [1, 2], let s := (looping gated3 0).setReg (R.SPR_SYNC_CELL 0 47) (fset 0 cCount k); let v := (s.tryTake 0 47 2 0).2
      dGateCell gated3 = 47 ∧ dGateN gated3 = 2 ∧ gated gated3 0 = true ∧ s.cellIs 0 47 0 = true ∧ s.runTo 0 0 = s ∧ (s.spire 0).arrAt { arr with desc := some 31 } = 0 ∧ (s.spire 0).issueAt .mover = 0
      ∧ (s.waitHolds 0 .matrix (.gate 47 2) = true ↔ k = 2) ∧ (k = 2 → (s.tryTake 0 47 2 0).1 = true ∧ v.hazEn 0 = false ∧ v.movCheck 0 (v.latchTag 0 (movAtIter gated3 (tileOp .load { tile with desc := some 31 }) 0 3)) = none
        ∧ (match v.arrCheck 0 .mma (v.arrAtIter 0 gated3 .mma { arr with desc := some 31 } 0) with | .ok _ => true | _ => false) = true)) := by decide +kernel

theorem wit_DescriptorsAndScalars : AtIssue running 0 .mover ∧ AtIssue running 0 .seq ∧ (0x5FF00 % 128 = 0 ∧ 0x5FF00 + 256 ≤ lsSize) ∧ 0x5FFFC + 4 ≤ lsSize
    ∧ dPlace (.count 5) = some (28, 4) ∧ dPlace (.stride 5 3) = some (124, 4) ∧ dPlace (.adv 3) = some (184, 8) := by decide +kernel

/-- Cell 47 of site 0 holds a word. -/
def cell47 (w : Word) : State := running.setReg (R.SPR_SYNC_CELL 0 47) w
/-- A participant cell: home module 0, home spire 959, PEND p. -/
def part (p : Nat) : Word := fset (fset (fset (fset 0 cKind 2) cHspire 959) cPend p) cFull (if p = 0 then 1 else 0)

theorem wit_CellOperations : (∀ e ∈ [Engine.matrix, .vector, .mover, .seq], AtIssue running 0 e ∧ running.cellIs 0 0 0 = true ∧ running.cellIs 0 47 0 = true)
    ∧ (∀ p ∈ [0, 1, 2], AtIssue (cell47 (part p)) 0 .seq ∧ (cell47 (part p)).cellIs 0 47 2 = true ∧ fget ((cell47 (part p)).cell 0 47) cPend = p ∧ ((cell47 (part p)).posOf (fget (part p) cHmod)).isSome = true
      ∧ fget ((cell47 (part p)).cell 0 47) cHspire = 959) := by decide +kernel

/-- The matrix engine waits for cell 0 since cycle 0 and resumes at cycle 5; the spire stands at 2. -/
def resuming : State := running.modSpire 0 (fun p => { p with cycle := 2, mat := { p.mat with st := .wait, wait := some (.full 0), since := 0, resume := some 5 } })

theorem wit_SignalsAndFences : (∀ e ∈ [Engine.matrix, .vector, .mover, .seq], AtIssue running 0 e) ∧ (RemOp.add 65535).ok = true ∧ (running.posOf 0).isSome = true
    ∧ ((resuming.spire 0).eng .matrix).st = .wait ∧ resuming.spState 0 = 1 ∧ resuming.nextDue 0 = some 5 ∧ (((resuming.runCycle 0 5 true).spire 0).eng .matrix).st = .run ∧ (((resuming.runCycle 0 5 true).spire 0).eng .matrix).wait = none := by decide +kernel

theorem wit_Resume : InForm resuming ∧ ((resuming.spire 0).eng .matrix).wait = some (.full 0) ∧ ((resuming.spire 0).eng .matrix).resume = some 5 ∧ resuming.hazEn 0 = false
    ∧ (let p := resuming.spire 0; p.landings = [] ∧ p.reads = [] ∧ p.upds = [] ∧ p.mover.ops = [] ∧ p.mover.redo = [] ∧ p.mover.hints = [] ∧ p.cycle ≤ 5 ∧ ∀ x ∈ [Engine.vector, .mover, .seq], (p.eng x).st ≠ .wait) :=
  ⟨form_of (by decide +kernel), by decide +kernel⟩

/-- It does as the statement says: released at cycle 5 after five cycles held. -/
theorem test_resume : (match exec (.engineIssueResume 0 .matrix) resuming with
    | .next u => (((u.spire 0).eng .matrix).st, ((u.spire 0).eng .matrix).free, (u.spire 0).cycle, u.reg (R.SPR_SYNC_WAIT 0)) == (.run, 5, 6, 5)
    | _ => false) = true := by decide +kernel

/-- Both contexts of site 0 in a state of the hold. -/
def holding (st duty : Nat) : State := running.modSpire 0 (fun p => { p with hold0 := { emptyHold with st := st, duty := duty }, hold1 := { emptyHold with st := st, duty := duty } })

theorem wit_HoldEvents : InForm running ∧ (∀ c ∈ [0, 1], ∀ x ∈ [(2, 64), (3, 64), (4, 1), (1, 64)], let s := holding x.1 x.2; (((s.settleHold 0 (s.spireNs 0)).spire 0).holdCtx c).st = x.1)
    ∧ (∀ x ∈ [0, 64], let s := (holding 1 64).modSpire 0 (fun p => { p with hold1 := { p.hold1 with gapFrom := 64, work := [{ start := 0, stop := 64, real := x, total := 64 }] } }); let u : State := { s with now := 64 }
      let v := u.settleHold 0 (u.spireNs 0); ((v.spire 0).holdCtx 1).st = 1 ∧ (x = 0 → 2 * ((v.spire 0).holdCtx 1).fillOf 0 ≤ 65536) ∧ (x = 64 → 65536 < 2 * ((v.spire 0).holdCtx 1).fillOf 0))
    ∧ (let s := (holding 3 64).modSpire 0 (fun p => { p with hold1 := { p.hold1 with bySparse := true } }); let u : State := { s with now := 64 }
      let v := u.settleHold 0 (u.spireNs 0); ((v.spire 0).holdCtx 1).st = 3 ∧ ((v.spire 0).holdCtx 1).bySparse = true)
    ∧ (let h : HoldCtx := { emptyHold with st := 3, duty := 1 }; h.dutyAt 1000 = 0) ∧ (let h : HoldCtx := { emptyHold with st := 4, duty := 63 }; h.dutyAt 64 = 64) :=
  ⟨form_of (by decide +kernel), by decide +kernel⟩

def debugOpen : State := running.setFld R.SEC_STATE F.SEC_STATE_DEBUG_OPEN 1
def spireIs (n : Nat) : State := State.reset.setFld (R.SPR_STATUS 0) F.SPR_STATUS_STATE n
def heldAt (lim : Nat) : State := (running.modSpire 0 (fun p => { p with holds := [{ cell := 47, eng := 4, since := 10, reached := false }] })).setReg (R.SPR_SYNC_HOLD_LIM 0) (BitVec.ofNat 64 lim)

theorem wit_SpireRegisterRows : InForm debugOpen ∧ debugOpen.fld R.SEC_STATE F.SEC_STATE_DEBUG_OPEN = 1
    ∧ (∀ e ∈ [0, 1, 2], fget (BitVec.ofNat 64 (fset (fset 0 F.SPR_RSD_INJECT_ARM 1) F.SPR_RSD_INJECT_ENGINE e).toNat) F.SPR_RSD_INJECT_ARM = 1 ∧ fget (BitVec.ofNat 64 (fset (fset 0 F.SPR_RSD_INJECT_ARM 1) F.SPR_RSD_INJECT_ENGINE e).toNat) F.SPR_RSD_INJECT_ENGINE = e)
    ∧ running.fld R.SEC_STATE F.SEC_STATE_DEBUG_OPEN = 0 ∧ (spireIs 0).spState 0 = 0 ∧ (spireIs 4).spState 0 = 4 ∧ (spireIs 6).spState 0 = 6
    ∧ ((heldAt 1).spire 0).holds.all (fun h => h.reached || Nat.blt ((heldAt 1).spireNs 0) (h.since + 1)) = true
    ∧ (((heldAt 1).spire 0).holds.find? (fun h => h.cell == 47 && h.eng == 4 && !h.reached)).isSome = true ∧ ((heldAt 1).reg (R.SPR_SYNC_HOLD_LIM 0)).toNat ≠ 0 :=
  ⟨form_of (by decide +kernel), by decide +kernel⟩

theorem wit_CellUpdates : InForm (cell47 0xFFFF#64) ∧ InForm (cell47 (part 2)) ∧ fget ((cell47 0xFFFF#64).cell 0 47) cCount = 0xFFFF ∧ fget ((cell47 0xFFFF#64).cell 0 47) cKind = 0
    ∧ fget ((cell47 (part 2)).cell 0 47) cKind = 2 ∧ fget ((cell47 (part 2)).cell 0 47) cPend ≠ 0 :=
  ⟨form_of (by decide +kernel), form_of (by decide +kernel), by decide +kernel⟩

def sigPay (op : Nat) : SigPay := { cell := 47, op := op, n := 1, gen := 0, origModule := 0, origSpire := 959 }

theorem quiet_of {p : Spire} (h : (p.landings = [] ∧ p.reads = [] ∧ p.mover.ops = [] ∧ p.mover.redo = [] ∧ p.mover.hints = [] ∧ p.mover.fullSince = none ∧ p.mover.pre.length < 40)
    ∧ (∀ e ∈ [Engine.matrix, .vector, .mover, .seq], (p.eng e).st ≠ .wait) ∧ p.upds = []) : Quiet p :=
  ⟨⟨h.1.1, h.1.2.1, h.1.2.2.1, h.1.2.2.2.1, h.1.2.2.2.2.1, h.1.2.2.2.2.2.1, h.1.2.2.2.2.2.2, fun e => h.2.1 e (by cases e <;> decide)⟩, h.2.2⟩

theorem quiet_running : Quiet (running.spire 0) := quiet_of (by decide +kernel)

/-- A home cell that expects 48 and has 46. -/
def home : Word := fset (fset (fset 0 cKind 1) cTarget 48) cCount 46

theorem wit_SignalArrivals : InForm running ∧ (spireIs 6).spState 0 = 6 ∧ InForm (spireIs 6) ∧ running.spState 0 ≠ 6 ∧ Quiet (running.spire 0) ∧ (∀ op ∈ [0, 1, 2, 3], (sigPay op).op = op ∧ (sigPay op).cell < 48)
    ∧ (let s := cell47 (fset 0 cCount 0xFFFE); InForm s ∧ fget (s.cell 0 47) cKind = 0 ∧ fget (s.cell 0 47) cCount + 1 ≤ 0xFFFF)
    ∧ (let w := (cell47 home).cell 0 47; InForm (cell47 home) ∧ fget w cKind = 1 ∧ fget w cGen = 0 ∧ fget w cTarget ≠ 0 ∧ fget w cCount + 1 ≠ fget w cTarget)
    ∧ (let w := (cell47 (fset (part 1) cGen 1)).cell 0 47; fget w cKind = 2 ∧ fget w cPend ≠ 0 ∧ (fget w cGen + 4 - fget w cPend) % 4 = 0) :=
  ⟨form_of (by decide +kernel), by decide +kernel, form_of (by decide +kernel), by decide +kernel, quiet_running, by decide +kernel, ⟨form_of (by decide +kernel), by decide +kernel⟩, ⟨form_of (by decide +kernel), by decide +kernel⟩, by decide +kernel⟩

theorem wit_SyncCellWrite : InForm running ∧ Quiet (running.spire 0) ∧ (let t := running.arriveAt 0
    ((((running.runTo 0 t).modSpire 0 (fun p => { p with upds := p.upds ++ [{ due := t, cell := 47, op := .host 5#64, eng := 5, qpos := 0, remote := false, omod := 0, ospire := 0 }] })).runCycle 0 t true).spState 0 = 1)) :=
  ⟨form_of (by decide +kernel), quiet_running, by decide +kernel⟩/-! Mover events and tasks. -/

def task1 : Task := { handle := 1, gang := [0], cmd := none, node := none, start := 0, limit := 1, program := 0x77, epoch := 0, fault := none, finished := [], update := 0, nreq := 0, frozen := 0, started := true, abortCmds := [], pauseCmds := [] }
/-- A load of one barge, its request in a state. -/
def asyncOp (st : ReqSt) (rows : List Nat) : Async :=
  { op := { copyOp with n := 1, base := 0, win := some (0, 511) }, seq := 0, reqs := [{ barge := 0, pieces := [(0, 0, 512, 0)], st := st, tag := 0, phys := 0, left := 0, data := [] }], rows := rows, buf := [] }
def moving (st : ReqSt) (rows : List Nat) : State := running.modSpire 0 (fun p => { p with mover := { p.mover with ops := [asyncOp st rows] } })
/-- Page tables at 0x1000 with one page of 64 KiB at address 0. -/
def paged (leaf : Nat) : State :=
  (((((moving .walking []).setFld (R.SPR_XLT_ROOT 0) F.SPR_XLT_ROOT_ROOT 1).storeLE 0x1000 8 0x2001).storeLE 0x2000 8 0x3001).storeLE 0x3000 8 0x4001).storeLE 0x4000 8 leaf
def streaming : State := (running.setFlds (R.SPR_MEM_CTL 0) [(F.SPR_MEM_CTL_PF_EN, 1), (F.SPR_MEM_CTL_PF_DEPTH, 16), (F.SPR_MEM_CTL_PF_RESERVE, 40)]).modSpire 0
  (fun p => { p with mover := { p.mover with streams := [{ page := 0, last := 0, up := true, trained := true, next := 16 * 512 }], xlt := [page0], faultAt := some 0 } })
def cpkt (typ dkind dest addr : Nat) : CPkt := { tc := 0, typ := typ, dkind := dkind, dest := dest, skind := 0, src := 0, len := 8, spec := 0, qmask := 15, status := 0, tag := 0, addr := addr, sig := sigPay 0, data := List.replicate 512 0x5A#8, tree := false }
def short (p : CPkt) : CPkt := { p with len := 0 }
def came (s : State) (p : CPkt) : State := { s with canal := { s.canal with arrived := [p] } }

/-- The extent of a stream is free: the first clause rests on one that is not empty. -/
theorem wit_MoverProgress : Quiet { (moving .here [0]).spire 0 with mover := { ((moving .here [0]).spire 0).mover with ops := [] } } ∧ ({ running with tasks := [(1, task1)] } : State).taskAt 0 = some task1 ∧ (running.spire 0).mat.queue ≠ 0
    ∧ (asyncOp .here []).op.isStore = false ∧ (asyncOp .here []).rowHere 0 = true
    ∧ (let s := moving .here [0]; let a := asyncOp .here [0]; a.complete = true ∧ (s.spire 0).earlierIter a = false ∧ a.op.sig = none)
    ∧ (∀ leaf ∈ [0x10003, 0x10021, 0x10022], (paged leaf).reach 0 = paged leaf ∧ ((paged leaf).spire 0).mover.ops = [asyncOp .walking []])
    ∧ (paged 0x10003).walk ((paged 0x10003).xltRoot 0) 0 = .page { va := 0, size := 0x10000, frame := 0x10000, w := false, nopf := false } ∧ (paged 0x10021).walk ((paged 0x10021).xltRoot 0) 0 = .bad ∧ (paged 0x10022).walk ((paged 0x10022).xltRoot 0) 0 = .missing true
    ∧ (streaming.spire 0).mover.faultAt = some 0 ∧ streaming.fld (R.SPR_LOOP_FAULT 0) F.SPR_LOOP_FAULT_VALID = 0
    ∧ streaming.reach 0 = streaming ∧ max 1 (min 16 (streaming.fld (R.SPR_MEM_CTL 0) F.SPR_MEM_CTL_PF_DEPTH)) = 16 ∧ max 1 (min 40 (streaming.fld (R.SPR_MEM_CTL 0) F.SPR_MEM_CTL_PF_RESERVE)) ≤ 40 - (streaming.spire 0).slots
    ∧ streaming.prefetchTo 0 (16 * 512) = some (0x10000 + 16 * 512) ∧ (streaming.spire 0).wayFree (0x10000 + 16 * 512) = true ∧ running.prefetchTo 0 (16 * 512) = none
    ∧ (let q := cpkt 2 0 0 0; (came (hinting 1 []) q).canal.arrived.contains q = true ∧ ((came (hinting 1 []) q).spire 0).mover.pre.any (fun x => x.tag == q.tag) = true) :=
  ⟨quiet_of (by decide +kernel), by decide +kernel⟩

def tasked (st : EngSt) (state : Nat) (t : Task) : State :=
  let s := spireIs state
  { s.modSpire 0 (fun p => { p with mat := { p.mat with st := st }, vec := { p.vec with st := st }, mov := { p.mov with st := st }, sqr := { p.sqr with st := st } }) with tasks := [(1, t)], pwr := { s.pwr with hold := [0] } }
def landing (due : Nat) : State := running.modSpire 0 (fun p => { p with landings := [{ due := due, seq := 0, eng := 1, qpos := 0, writes := [], sig := none, flags := 0, ac := 0, ctxs := 0, mov := none }] })

theorem wit_TaskEvents : Quiet { (landing 0).spire 0 with landings := [] } ∧ Quiet ((spireIs 2).spire 0) ∧ ((tasked .idle 1 task1).spState 0 = 1 ∧ (tasked .idle 1 task1).gangHeld 0 = true ∧ allEngines.all (fun e => (((tasked .idle 1 task1).spire 0).eng e).st == .idle) = true)
    ∧ (∀ n ∈ [1, 2, 3], let s := tasked .ended n task1; s.taskAt 0 = some task1 ∧ s.spState 0 = n ∧ s.spireDone 0 = true ∧ task1.finished.contains 0 = false ∧ (s.spire 0).upds = [])
    ∧ task1.gang.all ({ task1 with finished := [0] } : Task).finished.contains = true ∧ ({ task1 with fault := some (8, 0, 0) } : Task).fault ≠ none ∧ (tasked .stop 4 task1).quiesced task1 = true
    ∧ task1.limit ≠ 0 ∧ task1.gang.filter (fun i => !task1.finished.contains i) = [0]
    ∧ ((landing 0).spire 0).landings.length = 1 ∧ ((landing 0).spire 0).cycle ≤ 0
    ∧ ((spireIs 2).spState 0 = 2 ∧ (spireIs 2).taskAt 0 = none) :=
  ⟨quiet_of (by decide +kernel), quiet_of (by decide +kernel), by decide +kernel⟩

/-! The canals. -/

/-- A packet waits outside the spire lock of site 0's router. -/
def waiting1 : State := { running with canal := { running.canal with outbox := [(qKey 0 5 1, [short (cpkt 2 0 0 0)])] } }

theorem wit_CanalReads : (∀ x ∈ [(1, 1, 255), (1, 0, 1023), (1, 3, 3)], let p := cpkt x.1 x.2.1 x.2.2 0; Served (came running p) p x.1 ∧ (came running p).channelHeld p = false)
    ∧ (∀ x ∈ [(2, 0, 0), (9, 0, 0), (10, 3, 0)], let p := cpkt x.1 x.2.1 x.2.2 0; (came running p).canal.arrived.contains p = true ∧ p.typ = x.1)
    ∧ running.quiescent = false ∧ running.far.failed = false ∧ running.retired 0 = false ∧ running.far.reqs.length < 384
    ∧ running.outbox (qKey 0 5 1) = [] ∧ running.lockRoom 0 5 (short (cpkt 2 0 0 0)) = true ∧ (waiting1.outbox (qKey 0 5 1) ≠ []) := by decide +kernel

def chunk0 : State := { running with mirror := { running.mirror with c := [0] } }
def epochIs (n : Nat) : State := (running.setFld (R.GLB_SPEC_STAT 1) F.GLB_SPEC_STAT_STATE n)

theorem wit_CanalWrites : InForm running ∧ (∀ x ∈ [(3, 1, 0), (3, 0, 0)], let p := cpkt x.1 x.2.1 x.2.2 0; Served (came running p) p x.1 ∧ (came running p).channelHeld p = false) ∧ Arrived (came running (cpkt 5 0 0 0)) (cpkt 5 0 0 0) 5
    ∧ (∀ x ∈ [4, 6], (came running (cpkt x 0 0 0)).canal.arrived.contains (cpkt x 0 0 0) = true) ∧ running.quiescent = false
    ∧ (came running (cpkt 3 1 0 0)).heldChunk 0 512 = none ∧ (came chunk0 (cpkt 3 1 0 0)).heldChunk 0 512 = some 0 ∧ (came chunk0 (cpkt 3 1 0 0)).mayServe (cpkt 3 1 0 0) = true
    ∧ running.mirror.c = [] ∧ running.bsn.capture = none ∧ (cpkt 3 1 0 0).data.length = 512
    ∧ (∀ n ∈ [1, 2], (epochIs n).epState 1 = n ∧ (epochIs n).heldRoom 1 0 = some false ∧ Served (came (epochIs n) { cpkt 3 1 0 0 with spec := 2 }) { cpkt 3 1 0 0 with spec := 2 } 3) :=
  ⟨form_of (by decide +kernel), by decide +kernel⟩

/-- A router's lock holds a packet for its own site. -/
def local0 (n : Nat) : State := (running.setInq 0 1 0 [short (cpkt 1 0 0 0)]).setDeficit 0 0 0 n

/-- A packet from the west that a channel's receiver holds in the east, and one with no credit at the far crossbar. -/
def passer : CPkt := short (cpkt 1 1 128 0)
def received : State := running.setRecv 0 [passer]
def crowded (s : State) : State := { s with canal := { s.canal with used := [(hopKey (s.aqExit 1 passer) passer.tc, 18)] } }

theorem wit_CanalForwarding : (let s := local0 0; let p := short (cpkt 1 0 0 0)
      tget (fun _ => 0) s.canal.serving 0 / 2 % 4 = 0 ∧ pickTurn (tget (fun _ => 0) s.canal.turn (qKey 0 0 0)) (s.offers 0 0 0) = some (1, p) ∧ s.hasCredit (s.hopOf 0 0 p) p = true ∧ s.hopOf 0 0 p = .deliver 0 0
        ∧ p.flits ≤ tget (fun _ => 0) s.canal.deficit (qKey 0 0 0) + (s.beginRound 0 0).quantum 0 0 0)
    ∧ tget (fun _ => 0) (local0 0).canal.serving 0 = 0 ∧ tget (fun _ => 0) ({ local0 0 with canal := { (local0 0).canal with serving := [(0, 1)] } } : State).canal.serving 0 ≠ 0
    ∧ (let s := received; s.recv 0 = [passer] ∧ s.hasCredit (s.aqExit 1 passer) passer = true) ∧ (let s := crowded received; s.recv 0 = [passer] ∧ s.hasCredit (s.aqExit 1 passer) passer = false)
    ∧ (∀ tc ∈ [0, 1, 2, 3], running.offers 0 0 tc = []) ∧ twf (fun _ => (0 : Nat)) (local0 1).canal.used ∧ twf (fun _ => (0 : Nat)) (local0 1).canal.freed
    ∧ twf (fun _ => ([] : List CPkt)) waiting1.canal.outbox ∧ waiting1.outbox (qKey 0 5 1) = [short (cpkt 2 0 0 0)] ∧ (short (cpkt 2 0 0 0)).flits ≤ qDepth 0 := by decide +kernel

def mcPkt : CPkt := { cpkt 7 2 0 0 with tc := 1 }
def grp : CGroup := { members := [0, 1], rootW := some 1, rootE := none }
def fork0 : Fork := { pkt := mcPkt, inPort := 2, toSend := [], toAck := [0], since := 0, reported := [], first := false }
def forking (fs : List Fork) : State :=
  let s := running.setInq 0 2 1 [{ mcPkt with tree := true }]
  { s with groups := [(0, grp)], canal := { s.canal with forks := if fs = [] then [] else [(0, fs)], acks := [(0, 0, mcPkt.srcKey, 0)] } }
def crossing : State := ({ running with aq := { running.aq with held := [(480, short (cpkt 1 1 128 0))] } } : State).setAqState 0 2

theorem wit_MulticastAndAqueduct : (let s := forking []; s.inq 0 2 1 = [{ mcPkt with tree := true }] ∧ (s.forksAt 0).length < 32 ∧ tfind s.groups 0 = some grp ∧ s.forkPorts grp 0 false ≠ [] ∧ grp.root 0 ≠ some 0)
    ∧ ((forking (List.replicate 32 fork0)).forksAt 0).length = 32 ∧ ((forking (List.replicate 32 fork0)).forksAt 0).any (fun f => f.inPort == 2 && f.pkt.tc == 1 && f.toSend != []) = false
    ∧ (came running (cpkt 7 0 0 0)).canal.arrived.find? (fun p => p.typ == 7 && p.dkind == 0 && p.dest == 0) = some (cpkt 7 0 0 0)
    ∧ (let s := forking [fork0]; s.canal.acks.contains (0, 0, mcPkt.srcKey, 0) = true ∧ s.forksAt 0 = [fork0] ∧ s.upstream 0 fork0 = some (1, 4))
    ∧ Arrived (came running (cpkt 8 0 0 0)) (cpkt 8 0 0 0) 8
    ∧ ((forking [{ fork0 with toSend := [5] }]).forksAt 0).find? (fun f => f.toSend.contains 5 && !f.reported.contains 5) = some { fork0 with toSend := [5] } ∧ running.fld (R.CNL_MC_CTL 0) F.CNL_MC_CTL_TIMEOUT ≠ 0
    ∧ (let s := crossing; s.aqState 0 = 2 ∧ s.aqReplays (s.aqChannel 1 passer) = [] ∧ s.aqNext 0 (s.aqChannel 1 passer) = some (480, passer))
    ∧ (let s := crossing.setReplays 0 [passer]; s.aqReplays 0 = [passer] ∧ s.aqState 0 = 2) ∧ (let s := running.setAqState 1 2; s.aqState 1 = 2 ∧ s.aqReplays 127 = [] ∧ s.aqNext 1 63 = none)
    ∧ crossing.recv 0 = [] ∧ crossing.hasCredit (crossing.aqExit 1 passer) passer = true ∧ (crowded crossing).hasCredit ((crowded crossing).aqExit 1 passer) passer = false ∧ twf (fun _ => (0 : Nat)) crossing.aq.rxSeq
    ∧ (match crossing.aqExit 1 { passer with dkind := 0, dest := 512 } with | .router _ _ => true | _ => false) = true ∧ (crossing.setFld R.CNL_AQ_CTL F.CNL_AQ_CTL_RETRY_LIM 0).fld R.CNL_AQ_CTL F.CNL_AQ_CTL_RETRY_LIM = 0
    ∧ ((forking [{ fork0 with toSend := [0xF] }]).forksAt 0).find? (fun f => f.toSend.contains 0xF && !f.reported.contains 0xF) = some { fork0 with toSend := [0xF] } := by decide +kernel
/-! Links and the pod. -/

def linkIs (st : Nat) : State := (State.reset.setFld (R.LNK_STATUS 47) F.LNK_STATUS_STATE st).setLink 47 { (State.reset.link 47) with winCount := 255, tries := 3 }
def lpkt (b : LBody) : LPkt := { lclass := 0, vl := 0, tgen := 0, table := 4, destPos := 0, srcPos := 0, id := 7, body := b }
def identHere (s : State) : LPkt := lpkt (.ident (s.fld R.LNK_POD_CFG F.LNK_POD_CFG_POD_ID) (s.predicted 47).1 (s.predicted 47).2 0)

theorem wit_LinkBringUp : InForm (linkIs 4) ∧ (∀ st ∈ [0, 1, 2, 3, 4, 5, 6, 7], (linkIs st).linkState 47 = st)
    ∧ ((linkIs 4).setFld (R.LNK_CTL 47) F.LNK_CTL_RETRY_LIM 255).fld (R.LNK_CTL 47) F.LNK_CTL_RETRY_LIM = 255 ∧ ((linkIs 4).link 47).winCount = 255 ∧ ((linkIs 2).link 47).tries = 3 ∧ ((State.reset.link 47)).tries < 3
    ∧ (linkIs 3).fld (R.LNK_ERR 47) F.LNK_ERR_VALID = 0 :=
  ⟨form_of (by decide +kernel), by decide +kernel⟩

def frame (b : FrameBody) : Frame := { tgen := 0, fseq := 1, ack := 0, nak := false, credClass := 0, credVl := 0, credit := 0, body := b, fecCorrected := 0, fecOk := true, crcOk := true }
def busyLink (l : Link) : State := (linkIs 4).setLink 47 l

theorem wit_LinkFrames : (linkIs 4).linkState 47 = 4 ∧ (let f := { frame .idle with crcOk := false }; (f.fecOk && f.crcOk && (f.body == .idle || f.fseq == (((linkIs 4).link 47).rxSeq + 1) % 4096)) = false)
    ∧ (frame (.packet 0 0 [])).tgen = (linkIs 4).fld R.LNK_PHASE_CTL F.LNK_PHASE_CTL_TGEN ∧ (frame (.packet 0 0 [])).fseq = (((linkIs 4).link 47).rxSeq + 1) % 4096
    ∧ ((linkIs 4).frameWord 47 (frame (.packet 0 0 []))).fld R.LNK_PHASE_CTL F.LNK_PHASE_CTL_TGEN = 0 ∧ (lpkt (.sigAck 0)).destPos = (linkIs 4).position ∧ (linkIs 4).tst.scan = false
    ∧ ((busyLink { (linkIs 4).link 47 with replay := List.replicate 64 (0, .idle) }).link 47).replay.length = 64 ∧ ((linkIs 4).link 47).resend = [] ∧ ((linkIs 4).link 47).replay.length < 64
    ∧ (chooseClass (linkIs 4) 5 ((linkIs 4).link 47)).isNone = true ∧ (chooseClass (linkIs 4) 5 { (linkIs 4).link 47 with pktq := [(7, [{ pkt := lpkt (.sigAck 0) }])] }).isSome = true
    ∧ (let l := { (linkIs 4).link 47 with pieces := [(5, (7, 2))] }; tfind ((linkIs 4).setLink 47 l |>.link 47).pieces 5 = some (7, 2) ∧ twf (fun _ => (0 : Nat)) l.owed) ∧ ({ lpkt (.sig (sigPay 0) false 0) with destPos := 63 } : LPkt).destPos ≠ (linkIs 4).position := by decide +kernel

def inbox (s : State) (b : LBody) : State := { s with pod := { s.pod with io := { s.pod.io with inbox := [(47, lpkt b)] } } }
/-- Site 0 is logical spire 0. -/
def site0 : State := running.setFld (R.SPR_CAP 0) F.SPR_CAP_ENABLED 1
def readyS : State := let s := withFlds running [(R.SEC_BOOT_STAT, F.SEC_BOOT_STAT_STAGE, 9)]; { s with pwr := { s.pwr with at_ := .up } }
def stream (k : Nat) : Stream := { dest := 0, addr := 0, barges := 1, collId := 0, kind := k, table := 4, lclass := 2, owner := 16 }
def rxCtx (acked : Nat) : RxCtx := { src := 0, dest := 0, addr := 0, barges := 1, got := 1, acked := acked, collId := 0, kind := 0, orig := 7, lclass := 2, onward := none }

theorem wit_LinkPackets : (∀ b ∈ [LBody.sig (sigPay 0) false 0, .sig (sigPay 0) true 63, .sigAck 0, .streamOpen 0 1 0 0 0, .streamAck 1, .hcp 0, .hcpReply { status := 0, disp := .served, final := true, module := 0, seq := 0, tAccept := 0, tDone := 0, r0 := 0, r1 := 0, r2 := 0, r3 := 0 } 63],
      (inbox site0 b).pod.io.inbox.contains (47, lpkt b) = true)
    ∧ ((inbox site0 (.sigAck 0)).takeInbox 47 (lpkt (.sigAck 0))).siteOf 0 = some 0 ∧ readyS.isReady = true ∧ ¬((stream 3).kind ≤ 2 ∧ 1 = 1 ∧ (stream 3).owner < 16) ∧ ¬((stream 0).kind ≤ 2 ∧ 1 = 1 ∧ (stream 0).owner < 16)
    ∧ site0.cqOn 63 = false ∧ (site0.queue 63).hold.length < 1024
    ∧ (let s := busyLink { (linkIs 4).link 47 with rx := [(1023, rxCtx 1)] }; tfind (s.link 47).rx 1023 = some (rxCtx 1) ∧ (rxCtx 1).barges ≤ (rxCtx 1).acked) := by decide +kernel

/-- Position 1 of a pod of two in a row; link 0 is ACTIVE and the time parent. -/
def member : State := withFlds State.reset [(R.LNK_POD_CFG, F.LNK_POD_CFG_TOPO, 1), (R.LNK_POD_CFG, F.LNK_POD_CFG_DIMX, 2), (R.LNK_POD_CFG, F.LNK_POD_CFG_POSITION, 1), (R.LNK_STATUS 0, F.LNK_STATUS_STATE, 4)]
def phaseIs (st : Nat) (arr : List Nat) : State := { State.reset with pod := { State.reset.pod with shadowLoaded := true, phase := { State.reset.pod.phase with stage := st, arrivals := arr } } }
def phased : State := let s := withFlds State.reset [(R.LNK_PHASE_CTL, F.LNK_PHASE_CTL_MODE, 1), (R.LNK_PHASE_CTL, F.LNK_PHASE_CTL_HOLD_LIM, 1)]; { s with pod := { s.pod with phases := [{ entries := [], masks := [] }] } }

theorem wit_TimeBase : (∀ b ∈ [LBody.time false 0 0 0, .time true 0 20 0, .time true 0 21 0, .phase false 0 0, .phase true 0 5], (inbox State.reset b).pod.io.inbox.contains (47, lpkt b) = true)
    ∧ member.master ≠ member.position ∧ member.fld R.LNK_TB_STATUS F.LNK_TB_STATUS_PARENT_LINK = 0 ∧ member.linkState 0 = 4
    ∧ (phaseIs 0 []).pod.phase.stage = 0 ∧ (phaseIs 0 []).quiet = true ∧ (phaseIs 0 []).master = (phaseIs 0 []).position ∧ (phaseIs 2 []).pod.phase.stage = 2 ∧ (phaseIs 3 []).pod.phase.stage = 3
    ∧ phased.fld R.LNK_PHASE_CTL F.LNK_PHASE_CTL_MODE ≠ 0 ∧ phased.pod.shadowLoaded = false ∧ (phased.pod.phases[(phased.fld R.LNK_PHASE_CTL F.LNK_PHASE_CTL_PHASE + 1) % phased.pod.phases.length]?).isSome = true
    ∧ phased.fld R.LNK_PHASE_CTL F.LNK_PHASE_CTL_HOLD_LIM ≠ 0 ∧ (phaseIs 2 [0]).pod.phase.arrivals ≠ [] := by decide +kernel

def jobIs (n : Nat) : State := withFlds State.reset [(R.ERR_JOB, F.ERR_JOB_STATE, n)]
/-- Paired with itself, a mirror epoch open or closing. -/
def mirroring (closing : Option Nat) (c : List Nat) : State :=
  let s := State.reset.setFld R.LNK_MIR_CFG F.LNK_MIR_CFG_EN 1
  { s with mirror := { s.mirror with closing := closing, c := c, openEpoch := 1, d0 := [0], d1 := [0] } }

theorem wit_StopsAndMirror : InForm (mirroring (some 1) []) ∧ (inbox (jobIs 1) (.stop 0 0 0)).pod.io.inbox.contains (47, lpkt (.stop 0 0 0)) = true ∧ (jobIs 1).errs.stopsSeen.contains 7 = false ∧ (jobIs 0).jobState = 0 ∧ (jobIs 1).jobState = 1 ∧ (jobIs 2).jobState = 2
    ∧ 0 = ((jobIs 1).reg R.ERR_JOB_ID).toNat ∧ (mirroring none []).partnerPos = some 0 ∧ (mirroring (some 1) [0]).mirror.c.contains 0 = true ∧ (mirroring none []).mirror.openEpoch ≠ 0
    ∧ ((mirroring none []).mirror.dirty ((mirroring none []).mirror.openEpoch % 2)).contains 0 = true ∧ (mirroring (some 1) []).mirror.inFlight = [] ∧ (mirroring (some 1) []).mirror.commitSent = false
    ∧ (∀ b ∈ [LBody.mirrorCommit 1 1 0 0, .mirrorAck 1 1], (inbox State.reset b).pod.io.inbox.contains (47, lpkt b) = true) :=
  ⟨form_of (by decide +kernel), by decide +kernel⟩
/-! Collectives, tokens and stage queues. -/

/-- Words from (byte, bytes' value) pairs. -/
def fields (l : List (Nat × Nat)) : Nat := l.foldl (fun t x => t + x.2 * 2 ^ (8 * x.1)) 0
def coll (op : Nat) (l : List (Nat × Nat)) : Coll :=
  { addr := 0, d := BitVec.ofNat 1024 (fields ([(7, op), (8, 1)] ++ l)), cmd := none, node := none, dst := none, step := false, tStart := 0, status := .ok, pageWait := none, bucketed := false, fixed := false, switched := false, usedBucketed := false,
    ready := 0, started := 0, readySince := 0, lastPoll := 0, due := false, rings := [], bkts := [], bytes := 0, groups := 0, suppressed := 0, last := 0, stalled := false, counts := [], replies := [], bad := false, excess := false, badToken := 0, badRank := 0,
    placed := false, payload := false, units := [], accepted := [], landed := [], padded := [], blocks := [], a := 0, b := 0, recv := 0, maxOff := 0 }
def working (c : Coll) : State := State.reset.setColl 15 c
def manyBuckets : Coll := coll 1 [(32, 64), (48, 512)]
def cmsg (b : CollBody) : CollMsg := { collId := 0, digest := collDigest manyBuckets.d, src := 0, body := b }

theorem wit_CollectiveProgress : (∀ c ∈ [manyBuckets, { manyBuckets with ready := 1 }, { manyBuckets with bucketed := true, ready := 1 }], (working c).going 15 = some c)
    ∧ (dToken manyBuckets.d || dOp manyBuckets.d == 5 || descAt manyBuckets.d 48 8 == 0 || Nat.ble (dBuckets manyBuckets.d) manyBuckets.ready) = false
    ∧ dToken manyBuckets.d = false ∧ dOp manyBuckets.d ≠ 5 ∧ manyBuckets.started < { manyBuckets with ready := 1 }.ready ∧ manyBuckets.rings.length < 8 ∧ 8 ≤ (List.replicate 8 ({ first := 0, len := 1, got := 0, want := 0 } : Ring)).length
    ∧ max 1 ((working manyBuckets).fld R.LNK_CE_CTL F.LNK_CE_CTL_COALESCE) ≤ 64 - manyBuckets.started ∧ ({ manyBuckets with ready := 64 } : Coll).ready = dBuckets manyBuckets.d
    ∧ ((working manyBuckets).setFld R.LNK_CE_CTL F.LNK_CE_CTL_COALESCE 3).fld R.LNK_CE_CTL F.LNK_CE_CTL_COALESCE = 3
    ∧ (∀ b ∈ [CollBody.reduce 0 0 [], .gather 0 0 [], .count 0, .block []], (cmsg b).collId = dId manyBuckets.d ∧ (cmsg b).digest = collDigest manyBuckets.d)
    ∧ collDigest (coll 2 []).d ≠ collDigest manyBuckets.d ∧ ({ manyBuckets with started := 64 } : Coll).workDone = true ∧ (working manyBuckets).streamsDone 15 = true ∧ dNext manyBuckets.d = 0
    ∧ (working manyBuckets).collAt 15 = some manyBuckets ∧ ((working manyBuckets).setFld R.LNK_CE_CTL2 F.LNK_CE_CTL2_STALL_MS 1).fld R.LNK_CE_CTL2 F.LNK_CE_CTL2_STALL_MS ≠ 0
    ∧ min 100 ((working manyBuckets).fld R.LNK_CE_CTL F.LNK_CE_CTL_CONG_PCT) ≤ 100 ∧ 2 * 0 < min 100 ((working manyBuckets).fld R.LNK_CE_CTL F.LNK_CE_CTL_CONG_PCT)
    ∧ State.reset.collAt 15 = none ∧ (working { manyBuckets with pageWait := some 0 }).collAt 15 = some { manyBuckets with pageWait := some 0 } := by decide +kernel

/-- A token exchange of one member, one expert, capacity 4, padded to capacity. -/
def exchange : Coll := coll 6 [(3, 8), (4, 32), (40, 1), (44, 4)]

theorem wit_TokenExchange : dOp exchange.d = 6 ∧ (working exchange).going 15 = some exchange ∧ exchange.counts.contains 0 = false ∧ ({ exchange with counts := [0] } : Coll).counts.contains 0 = true
    ∧ ({ exchange with counts := [0] } : Coll).counts.length = dM exchange.d ∧ ({ exchange with bad := true } : Coll).bad = true ∧ exchange.bad = false ∧ exchange.placed = false ∧ ({ exchange with replies := [0] } : Coll).replies.length = dM exchange.d
    ∧ tkPad exchange.d ≠ 0 ∧ exchange.padded.contains 0 = false ∧ ({ exchange with accepted := [(0, 0)] } : Coll).expertLanded 0 = true ∧ tfind ({ exchange with accepted := [(0, 0)] } : Coll).accepted 0 = some 0 ∧ 4 ≤ 4 := by decide +kernel

def sent (dir ahead behind : Nat) : StageQ := { entry := BitVec.ofNat 512 (fields [(0, dir), (3, 1), (16, 512), (24, 512), (32, lsBase 0), (40, lsBase 0 + 512)]), ahead := ahead, behind := behind, since := 0, lastPoll := 0, flying := [] }
/-- Position 1 of two, in whose logical map 0 stands at position 0; the queue, and a 1 in its word. -/
def staged (x : StageQ) : State := let s := ((member.setReg (R.LNK_LMAP 0) 0x80#64).setFld (R.SPR_CAP 0) F.SPR_CAP_ENABLED 1).store (lsBase 0) (bytesLE 8 1); { s with stq := [(7, x)] }

theorem wit_StageQueueEngine : (∀ x ∈ [sent 1 0 0, sent 1 1 0], (staged x).stqAt 7 1 = some x) ∧ (sent 1 1 0).depth ≤ (sent 1 1 0).ahead - (sent 1 1 0).behind ∧ (sent 1 0 0).ahead - (sent 1 0 0).behind < (sent 1 0 0).depth
    ∧ (staged (sent 1 0 0)).jobLE ((sent 1 0 0).word 32 0) 8 = 0 % 2 ^ 32 + 1 ∧ (staged (sent 1 0 0)).posOf (sqAt (sent 1 0 0).entry 1 1) = some 0 ∧ (staged (sent 1 0 0)).position ≠ 0 ∧ (sent 1 1 0).behind < (sent 1 1 0).ahead
    ∧ (∀ x ∈ [sent 2 0 0, sent 2 1 0], (staged x).stqAt 7 2 = some x) ∧ (staged (sent 2 1 0)).jobLE ((sent 2 1 0).word 32 0) 8 = 0 % 2 ^ 32 + 1
    ∧ ([{ kind := 3, addr := 512, barges := 1, src := 0 }] : List Landed).find? (fun l => l.kind == 3 && l.addr == (sent 2 0 0).slot 0) = some { kind := 3, addr := 512, barges := 1, src := 0 } := by decide +kernel

/-! Lantern's commands. -/

/-- A packet: opcode, sequence number, class, length of its parameters, and those. -/
def packet (op seq cls plen : Nat) (l : List (Nat × Nat)) : Packet := BitVec.ofNat 4096 (fields ([(0, op), (4, seq), (8, 0xC0), (10, cls), (12, plen)] ++ l.map (fun x => (64 + x.1, x.2))))
def cmd (op : Nat) (l : List (Nat × Nat)) : Cmd :=
  { dseq := 1, queue := 0, seq := 0, pos := 0, cls := 0, opcode := op, quiet := false, ordered := false, pkt := packet op 0 0 0 l, tAccept := 0, waitLimit := 0, slot := 1, attempted := false, delayed := none, started := false, tStart := 0, fwd := 0, data := [] }
def withCmds (s : State) (cs : List Cmd) : State := { s with hcp := { s.hcp with cmds := cs } }
/-- A READY module that holds one command. -/
def held (op : Nat) (l : List (Nat × Nat)) : State := withCmds readyS [cmd op l]
def StartAll (l : List (Nat × List (Nat × Nat))) : Prop := ∀ x ∈ l, Starts (held x.1 x.2) 1 x.1 (cmd x.1 x.2)

theorem wit_CommandEnds : InForm (withCmds readyS []) ∧ (held 0x0101 []).cmd? 1 = some (cmd 0x0101 []) ∧
    (cmd 0x0101 []).pos = (held 0x0101 []).position ∧ (held 0x0101 []).cqOn 0 = false ∧
    Takes ((held 0x0101 []).setFlds (R.HCP_Q_CFG 0) [(F.HCP_Q_CFG_CQ_EN, 1), (F.HCP_Q_CFG_CQ_LOG2, 16)]) 0 ∧
    (let c := { cmd 0x0101 [] with waitLimit := 0xFFFFFFFF }; (withCmds readyS [c]).cmd? 1 = some c ∧ c.started = false ∧ c.waitLimit ≠ 0) ∧
    (let c := { cmd 0x0101 [] with ordered := true, dseq := 2 }; let s := withCmds readyS [{ cmd 0x0101 [] with started := true }, c] ; s.cmd? 2 = some c ∧ s.notYet c = false ∧ s.behind c = true) :=
  ⟨form_of (by decide +kernel), by decide +kernel⟩

/-- Queue 0 with both rings enabled and one packet to fetch. -/
def fetching : State :=
  let s := readyS.setFlds (R.HCP_Q_CFG 0) [(F.HCP_Q_CFG_SQ_EN, 1), (F.HCP_Q_CFG_CQ_EN, 1), (F.HCP_Q_CFG_SQ_LOG2, 1), (F.HCP_Q_CFG_CQ_LOG2, 1)]
  s.setQueue 0 { s.queue 0 with sqTail := 1 }

theorem wit_PacketAdmission : InForm fetching ∧ fetching.mayFetch 0 = true ∧ Takes fetching 0 ∧
    fetching.headPacket 0 (packet 0x0101 0 0 0 []) = packet 0x0101 0 0 0 [] ∧
    pktAt (packet 0x0101 0 0 0 []) 4 4 = fetching.fld (R.HCP_SQ_SEQ 0) F.HCP_SQ_SEQ_SEQ ∧
    pktAt (packet 0x0101 1 0 0 []) 4 4 ≠ fetching.fld (R.HCP_SQ_SEQ 0) F.HCP_SQ_SEQ_SEQ ∧ headerBad 0 (packet 0x0101 0 0 0 []) = false ∧
    headerBad 0 (packet 0x0101 0 4 0 []) = true ∧ plenOf 0x0100 = none ∧ plenOf 0x0101 ≠ some 8 ∧
    (fetching.paramFaults 0x0103 (packet 0x0103 0 0 8 [(0, 4), (4, 1)])).find? (fun x => x.2) = some (0, true) ∧
    fetching.refusalOf (packet 0x0101 0 0 0 []) = none ∧ fetching.slotFor 0 = some 1 ∧
    (withCmds fetching (List.replicate 512 (cmd 0x0101 []) ++ List.replicate 1536 { cmd 0x0101 [] with slot := 2 })).slotFor 3 = none ∧
    (let c := { cmd 0x0101 [] with delayed := some .waitIdle, cls := 3 }; let s := withCmds readyS [c]; s.hcp.cmds.find? (fun x => x.cls == 3 && s.canStart x) = some c ∧ ∀ j ∈ [0, 1, 2], ∀ x ∈ s.hcp.cmds, x.cls ≠ j) :=
  ⟨form_of (by decide +kernel), by decide +kernel⟩

theorem wit_QueueRows : InForm readyS ∧ InForm fetching ∧
    (∀ s ∈ [readyS, fetching], s.tst.dwell = none ∧ (s.queue 0).evLost = 0 ∧ (s.queue 0).waiting = [] ∧ (s.queue 0).hold = []) ∧
    fetching.sqOn 0 = true ∧ readyS.sqOn 0 = false ∧ fetching.sqSize 0 = 2 ∧ 1 % 4096 < 2 ∧ 2 ≤ 2 % 4096 ∧ fetching.cqSize 0 = 2 ∧
    fetching.cqOn 0 = true ∧ readyS.cqOn 0 = false ∧ (fetching.cqTail 0 + 1) % fetching.cqSize 0 ≠ 0 % 65536 ∧
    ¬((fetching.cqTail 0 + 1) % fetching.cqSize 0 ≠ 1 % 65536) ∧
    ((fetching.setQueue 0 { fetching.queue 0 with unsignalled := 1 }).queue 0).unsignalled ≠ 0 ∧
    fetching.reinit.any (fun r => r.kind == 1 && r.index == 0) = false :=
  ⟨form_of (by decide +kernel), form_of (by decide +kernel), by decide +kernel⟩

theorem wit_HostAccess : InForm readyS ∧ readyS.h0Down = false ∧ readyS.bar2Shut = false ∧
    (readyS.setFld R.HCP_H0_STAT F.HCP_H0_STAT_BAR2_LOG2 40).inBar2 (2 ^ 40 - 1) = true ∧ readyS.hostMem 0 = .ok ∧
    readyS.hostMem (towerEnd) = .noTarget ∧ lsSite towerEnd = none ∧
    (readyS.setReg (R.TWR_RETIRE 0) (BitVec.ofNat 64 (2 ^ 63 + 512))).retireEntries.length ≤ 512 ∧ isTower 0 = true ∧ isTower (towerEnd - 1) = true ∧
    inJournal 0 = false ∧ inJournal workBase = true ∧ readyS.mirror.c = [] ∧ readyS.bsn.capture = none ∧ 511 % 512 + 1 ≤ 512 ∧
    readyS.fld R.HCP_H0_STAT F.HCP_H0_STAT_CXL = 0 ∧ (readyS.setFld R.HCP_H0_STAT F.HCP_H0_STAT_CXL 1).fld R.HCP_H0_STAT F.HCP_H0_STAT_CXL ≠ 0 ∧
    readyS.hostMayWrite R.ERR_CTL = true ∧ (regAt R.ERR_CTL).isSome = true ∧ regAt 8 = none ∧ readyS.writeOther R.ERR_CTL 0 0 = none :=
  ⟨form_of (by decide +kernel), by decide +kernel⟩

theorem wit_DeviceCommands : StartAll [(0x0101, []), (0x0102, []), (0x0103, [(4, 1)]), (0x0103, [(4, 2)]), (0x0104, []), (0x0105, []), (0x0905, [(12, 1)]), (0x0601, [(8, 1)]), (0x0901, [(0, 2)]), (0x0901, []), (0x0902, []), (0x0704, []), (0x0801, []), (0x0501, []), (0x0503, [(8, 1)])]
    ∧ (held 0x0103 []).needsWake 0 1 = false ∧ ((held 0x0103 []).setFld R.PWR_STATUS F.PWR_STATUS_STATE 1).needsWake 0x400000 1 = true ∧ (held 0x0905 []).quiescent = false ∧ (1 < 2 ∧ (((held 0x0901 []).reg R.JNL_OLDEST).toNat ≤ 1 ∧ 1 ≤ 1))
    ∧ ([0x0501, 0x0503].all (fun op => ((held op []).setFld R.BSN_STATUS F.BSN_STATUS_STATE 3).bsnState == 3 && (held op []).bsnState != 3) = true) := by unfold StartAll; decide +kernel

def heldIn (s : State) (op : Nat) (l : List (Nat × Nat)) : State := withCmds s [cmd op l]
def quietJob (n : Nat) : State := let s := readyS.setFld R.ERR_JOB F.ERR_JOB_STATE n; s
/-- The first 2 MiB retired. -/
def retired0 : State := readyS.setReg (R.TWR_RETIRE 0) (BitVec.ofNat 64 (2 ^ 63))

theorem wit_RetiredAndShadow : retired0.hostMem 0 = .retired ∧ (readyS.setFld R.GLB_SPEC_CTL F.GLB_SPEC_CTL_EN 1).hostMem 0x005E00000000 = .shadow := by decide +kernel

/-- A page entry with P = 0 and MIGR = 1 at 8. -/
def migrating : State := readyS.storeLE 8 8 32
def retireAt (k : Nat) (s : State) : State := s.setReg (R.TWR_RETIRE k) (BitVec.ofNat 64 (2 ^ 63 + 2 ^ 21 * (k + 1)))
theorem setReg_form (s : State) (o : Nat) (v : Word) (h : InForm s) : InForm (s.setReg o v) := ⟨twf_tset o v h.1, h.2⟩

theorem retireAt_form (k : Nat) (s : State) (h : InForm s) : InForm (retireAt k s) := by
  unfold retireAt
  exact setReg_form s _ _ h

/-- Every entry of the table used. -/
def fullRetire : State := (List.range 512).foldr retireAt readyS

theorem fullRetire_form : InForm fullRetire := by
  have h : ∀ l : List Nat, InForm (l.foldr retireAt readyS) := fun l => by
    induction l with
    | nil => exact form_of (by decide +kernel)
    | cons a r ih => exact retireAt_form a _ ih
  rw [fullRetire]
  exact h (List.range 512)


theorem wit_MemoryCommands : InForm readyS ∧ InForm migrating ∧ InForm fullRetire ∧
    StartAll [(0x0201, [(0, 0), (8, 512), (16, 512)]), (0x0202, [(8, 512)]), (0x0203, [(8, 1)]), (0x0204, []), (0x0204, [(8, 1)]), (0x0205, [(8, 0x10000)]), (0x0206, []), (0x0206, [(8, 1)]), (0x0207, [(0, 2 ^ 63)]), (0x0207, []), (0x0208, [(0, 511)]), (0x0208, [(0, 0xFFFF)])] ∧
    (readyS.mirror.c = [] ∧ readyS.bsn.capture = none ∧ readyS.quiescent = false) ∧ readyS.copyBad 0 = 0 ∧ retired0.copyBad 0x1FFFFF = 1 ∧
    retired0.copyBad 0x200000 = 0 ∧ 0 + 512 * 1 ≤ 512 ∧
    (readyS.waitingNodes 0 = [] ∧ readyS.waitingColls 0 = [] ∧ readyS.translationSites (fun _ m => m) = []) ∧
    (readyS.loadLE 8 8 / 32 % 2 = 0 ∧ migrating.loadLE 8 8 % 2 = 0 ∧ migrating.loadLE 8 8 / 32 % 2 = 1) ∧ 8 + 8 ≤ 0x10000 ∧
    ilSetOk (cmd 0x0206 []).ilEntries = true ∧ ilSetOk (cmd 0x0206 [(8, 1)]).ilEntries = false ∧
    ilSetOk (cmd 0x0206 [(8, 0x4746454443424140)]).ilEntries = true ∧ (readyS.setFld R.GLB_SPEC_CTL F.GLB_SPEC_CTL_EN 1).specOn = true ∧
    readyS.specOn = false ∧ readyS.tasks = [] ∧ readyS.epState 0 = 0 ∧ readyS.epState 1 = 0 ∧ (epochIs 1).epState 1 ≠ 0 ∧ readyS.retireOk 0 = false ∧
    readyS.retireOk (2 ^ 63) = true ∧ (0, 2 ^ 63) ∈ retired0.retireEntries ∧ (2 ^ 63 ∉ fullRetire.retireEntries.map Prod.snd) ∧
    fullRetire.retireEntries.map Prod.fst = List.range 512 ∧ readyS.retireEntries = [] :=
  ⟨form_of (by decide +kernel), form_of (by decide +kernel), fullRetire_form, by unfold StartAll; decide +kernel⟩

/-- Logical spire 0 is site 0, in a state; a task of handle 1 runs on it. -/
def withTask (st : Nat) : State := let s := withFlds readyS [(R.SPR_STATUS 0, F.SPR_STATUS_STATE, st), (R.SPR_CAP 0, F.SPR_CAP_ENABLED, 1)]; { s with tasks := [(1, task1)] }
def noTask (st : Nat) : State := { withTask st with tasks := [] }
def oneSpire : LaunchBlk := launchBlk (cmd 0x0303 [(16, 1)]).pkt

/-- Whether an image is valid is free: either clause of PROGRAM_LOAD rests on its value. -/
theorem wit_TaskCommands : InForm (withTask 1) ∧ InForm (noTask 6) ∧
    StartAll [(0x0301, [(8, 4096)]), (0x0302, [(0, 0x76)]), (0x0302, [(0, 0x77)]), (0x0303, [(16, 1)]), (0x0304, []), (0x0305, [(0, 1)]), (0x0306, [(0, 1)]), (0x0307, [(0, 1)]), (0x030B, [(0, 1)]), (0x0602, []), (0x0602, [(2, 1)])] ∧
    ((withTask 1).tasks.any (fun p => p.2.program == 0x77) = true ∧ (withTask 1).tasks.any (fun p => p.2.program == 0x76) = false) ∧
    (gangOf oneSpire).filterMap (noTask 0).siteOf = [0] ∧ (noTask 0).launchRefused oneSpire = none ∧
    (noTask 6).launchRefused oneSpire = some (.gangFenced, 0) ∧ (noTask 0).quiescent = false ∧ task1.gang = [0] ∧
    32 ≤ (List.replicate 32 task1).length ∧ blkAt oneSpire 320 8 = 0 ∧ tfind (withTask 1).tasks 1 = some task1 ∧ tfind (noTask 1).tasks 1 = none ∧
    (∀ n ∈ [1, 3, 5], (withTask n).spState 0 = n) ∧ (withTask 3).isPaused task1 = true ∧ (withTask 4).isPaused task1 = false ∧
    (withTask 4).spState 0 ≠ 1 ∧ (withTask 1).spLive 0 = true ∧ (noTask 1).siteOf 0 = some 0 ∧ (noTask 1).siteOf 1 = none ∧ (noTask 6).spState 0 = 6 ∧
    (noTask 1).taskAt 0 = none :=
  ⟨form_of (by decide +kernel), form_of (by decide +kernel), by unfold StartAll; decide +kernel⟩

/-- Epoch 5 in slot `k`, in a state. -/
def epoch5 (k st : Nat) : State := (readyS.setFld (R.GLB_SPEC_STAT k) F.GLB_SPEC_STAT_STATE st).setReg (R.GLB_SPEC_NUM k) 5
def node (st : NodeSt) (pred : Nat) : GNode := { kind := 1, comp := false, preds := [], pred := BitVec.ofNat 256 pred, args := 0, st := st, asked := false }
def graph (pred : Nat) : Graph := { nodes := [node .wait pred, node .done 0], elig := [0], failed := none }

/-- A write that an epoch without room holds at its slice, not yet reported. -/
def heldWr : HeldWr := { pkt := cpkt 3 0 0 0, since := 5, reported := false }
def stalled : State := ((epoch5 1 1).setFld R.GLB_SPEC_CTL F.GLB_SPEC_CTL_STALL_LIM 1).setEpoch 1 { emptyEpoch with waiting := [heldWr] }

theorem wit_EpochsAndPredicates : (∀ s ∈ [stalled, readyS, epoch5 0 1], InForm s) ∧ InForm (epoch5 1 4) ∧
    StartAll [(0x0308, [(0, 5)]), (0x0308, [(0, 6)]), (0x0308, [(0, 6), (8, 5)]), (0x0309, [(0, 5)]), (0x0309, [(0, 6)]), (0x030A, [(0, 5)]), (0x030A, [(0, 6)])] ∧
    (epoch5 0 1).epSlot 5 = some 0 ∧ (epoch5 0 1).epSlot 6 = none ∧ readyS.epState 0 = 0 ∧
    ((epoch5 0 1).setFld (R.GLB_SPEC_STAT 1) F.GLB_SPEC_STAT_STATE 1).epState 1 ≠ 0 ∧ (epoch5 1 3).epState 1 = 3 ∧ (epoch5 1 1).epState 1 = 1 ∧
    (epoch5 1 4).epState 1 = 4 ∧ (epoch5 1 1).epochTasks 1 = 0 ∧
    ({ epoch5 1 1 with tasks := [(1, { task1 with epoch := 2 })] } : State).epochTasks 1 ≠ 0 ∧ (epoch5 1 1).epParent 1 = none ∧
    ((epoch5 1 1).setFld (R.GLB_SPEC_STAT 1) F.GLB_SPEC_STAT_HAS_PARENT 1).epParent 1 = some 0 ∧
    ((epoch5 1 1).bsn.capture = none ∧ (epoch5 1 1).mirror.c = [] ∧ ((epoch5 1 1).epoch 0).waiting = [] ∧ (epoch5 1 1).epState 0 ≠ 2 ∧ (epoch5 1 1).jobState ≠ 2 ∧ (epoch5 1 1).commitWait 1 = none ∧ ((epoch5 1 1).epoch 1).commit = false) ∧
    (let c := { cmd 0x0309 [(0, 5)] with delayed := some .waitTasks }; (withCmds (epoch5 1 1) [c]).hcp.cmds.find? (fun c => c.opcode == 0x0309 && c.par 0 8 == (epoch5 1 1).epNum 1 && c.delayed.isSome) = some c) ∧
    (stalled.fld R.GLB_SPEC_CTL F.GLB_SPEC_CTL_STALL_LIM ≠ 0 ∧ (stalled.epoch 1).waiting.find? (fun x => !x.reported) = some heldWr ∧ ((epoch5 1 1).epoch 1).waiting = []) ∧
    (∀ p ∈ [0, 1 * 2 ^ 48 + lsBase 0, 4 * 2 ^ 48 + lsBase 0, 6 * 2 ^ 48 + 2 ^ 112, 7 * 2 ^ 48 + 2 ^ 112], let c := { cmd 0x0304 [] with started := true }; let s : State := { withCmds (withTask 1) [c] with graphs := [(1, graph p)] }
      tfind s.graphs 1 = some (graph p) ∧ (graph p).nodes[0]? = some (node .wait p) ∧ s.cmd? 1 = some c ∧ (graph p).failed = none ∧ s.entryWaits 1 = false ∧ (graph p).elig.find? (fun j => match (graph p).nodes[j]? with | some m => m.st == .wait | none => false) = some 0) ∧
    (∀ o ∈ [1, 2, 3, 4, 6, 7], predOp (node .wait (o * 2 ^ 48)).pred = o) ∧
    (graph 0).nodes[predRef (node .wait (2 ^ 112)).pred]? = some (node .done 0) ∧
    (withTask 1).place ((withTask 1).nodeView (node .wait (2 ^ 48 + lsBase 0))).1 (predAddr (node .wait (2 ^ 48 + lsBase 0)).pred) 8 false = .at_ [(lsBase 0, 8)] :=
  ⟨forms_of (by decide +kernel), form_of (by decide +kernel), by unfold StartAll; decide +kernel⟩

def map0 (l : List (Nat × Nat)) : Nat := fields ((List.range 64).map (fun i => (i, ((l.find? (fun x => x.1 == i)).map Prod.snd).getD 0xFF)))
/-- A ring of four with positions 1 and 3 out of service. -/
def split : State := let s := withFlds readyS [(R.LNK_POD_CFG, F.LNK_POD_CFG_TOPO, 1), (R.LNK_POD_CFG, F.LNK_POD_CFG_DIMX, 4)]; { s with pod := { s.pod with dead := [1, 3] } }
def oneModule : List (Nat × Nat) := [(8, 1 + 2 ^ 40)]

theorem wit_JobCommands : InForm readyS ∧ InForm (quietJob 1) ∧
    StartAll [(0x0401, [(0, map0 [(0, 0)])]), (0x0401, [(0, map0 [(0, 0), (2, 2)])]), (0x0402, oneModule), (0x0402, []), (0x0403, []), (0x0404, []), (0x0405, [(1, 1)])] ∧
    (readyS.takeMap (cmd 0x0401 [(0, map0 [(0, 0)])])).unroutable = false ∧
    (split.takeMap (cmd 0x0401 [(0, map0 [(0, 0), (2, 2)])])).unroutable = true ∧ readyS.jobState = 0 ∧ (∀ n ∈ [1, 2, 3], (quietJob n).jobState = n) ∧
    readyS.mappingFault ((cmd 0x0402 oneModule).par 8 64) false = none ∧ readyS.mappingFault ((cmd 0x0402 []).par 8 64) false = some 0xFFFFFFFF ∧
    readyS.mirror.c = [] ∧ readyS.bsn.capture = none ∧ readyS.alone = true ∧ (readyS.setReg (R.LNK_LMAP 0) 0x80#64).alone = false ∧
    (quietJob 1).coll.running = [] ∧ ((quietJob 1).reg R.ERR_JOB_ID).toNat = (cmd 0x0403 []).par 0 8 ∧
    (∀ op ∈ [0x0405, 0x0402], (withCmds readyS [{ cmd op [] with started := true }]).waiting op 1 = some { cmd op [] with started := true }) :=
  ⟨form_of (by decide +kernel), form_of (by decide +kernel), by unfold StartAll; decide +kernel⟩

def goodColl : Nat := fields [(7, 1), (8, 1), (32, 1), (36, 128), (40, 1024)]
def goodStep : Nat := fields [(8, 1), (48, 4096), (56, 64)]
/-- A descriptor in the window of site 0. -/
def describing (d : Nat) : State := (withTask 1).storeLE (lsBase 0) 128 d
def paired (open_ : Nat) (closing : Option Nat) : State := let s := readyS.setFld R.LNK_MIR_CFG F.LNK_MIR_CFG_EN 1; { s with mirror := { s.mirror with openEpoch := open_, closing := closing, d1 := [0] } }

theorem wit_FabricTables : InForm readyS ∧ InForm (describing goodColl) ∧ InForm (paired 1 none) ∧
    StartAll [(0x0406, [(9, 1)]), (0x0407, [(9, 1)]), (0x0407, [(8, 255), (9, 0)]), (0x0408, [(8, 1)]), (0x0409, [(8, 1)]), (0x040C, [(0, 1)]), (0x040D, [(1, 63)]), (0x040A, [(0, lsBase 0)]), (0x040B, [(0, lsBase 0)])] ∧
    readyS.syncGroups = [] ∧ readyS.canalGroup 0 = none ∧
    (readyS.storeLE 120 4 0xFFFFFFFF).canalGroup 0 = some { members := [], rootW := none, rootE := none } ∧ readyS.canal.forks = [] ∧
    readyS.sqOk 0 = true ∧ readyS.sqOk 3 = false ∧ readyS.sqPair [0] 0 = true ∧ readyS.sqPair [1] 0 = false ∧ ([readyS.phaseAt 0].any (fun p => p.entries.any readyS.tableBad) = false) ∧
    readyS.fld R.LNK_MIR_CFG F.LNK_MIR_CFG_EN = 0 ∧ (paired 1 none).fld R.LNK_MIR_CFG F.LNK_MIR_CFG_EN = 1 ∧ (paired 1 none).epochPersists = false ∧
    ((paired 1 (some 0)).mirror.closing.isSome = true) ∧ 1 ≠ 0 ∧
    (({ epochIs 1 with epochs := [(1, { emptyEpoch with persist := true })] } : State).epochPersists = true) ∧ readyS.posOf 1 = none ∧
    (readyS.setReg (R.LNK_LMAP 0) 0x80#64).posOf 0 = some 0 ∧ (readyS.setReg (R.LNK_LMAP 0) 0x80#64).alone = false ∧
    (describing goodColl).jobLE (lsBase 0) 128 = goodColl ∧ (describing goodColl).descBad (BitVec.ofNat 1024 goodColl) = false ∧
    readyS.descBad 0 = true ∧ (describing goodStep).jobLE (lsBase 0) 128 = goodStep ∧
    (describing goodStep).stepBad (BitVec.ofNat 1024 goodStep) = false ∧ (describing goodStep).descBad (stepColl (BitVec.ofNat 1024 goodStep)) = false ∧
    readyS.stepBad 1 = true ∧ lsBase 0 % 64 = 0 ∧ readyS.stepEnd = none ∧ readyS.lockkeeperRuns = true :=
  ⟨form_of (by decide +kernel), form_of (by decide +kernel), form_of (by decide +kernel), by unfold StartAll; decide +kernel⟩

/-! Towers, the far tier, test modes, the basin, mailboxes. -/

def towerIs (st : Nat) : State := readyS.setFld (R.TWR_STATUS 7) F.TWR_STATUS_STATE st

theorem wit_TowerMemory : InForm (towerIs 1) ∧ InForm (towerIs 3) ∧ (towerIs 1).channelUp 7 31 = true ∧ (towerIs 3).channelUp 7 31 = true ∧
    (towerIs 0).channelUp 7 31 = false ∧ 6291455 < 6291456 ∧ (towerIs 1).warm = none ∧
    ((towerIs 1).setFld (R.TWR_SCRUB_CTL 7) F.TWR_SCRUB_CTL_EN 1).fld (R.TWR_SCRUB_CTL 7) F.TWR_SCRUB_CTL_EN = 1 ∧
    (∀ p ∈ [201326590, 201326591], ((towerIs 1).setFld (R.TWR_SCRUB_POS 7) F.TWR_SCRUB_POS_POS p).fld (R.TWR_SCRUB_POS 7) F.TWR_SCRUB_POS_POS = p) ∧
    (towerIs 1).towerState 7 = 1 ∧ (towerIs 3).towerState 7 = 3 ∧ (towerIs 1).pwr.at_ = .up ∧ 104 < 105 :=
  ⟨form_of (by decide +kernel), form_of (by decide +kernel), by decide +kernel⟩

def farReq (typ : Nat) : FarReq := { pkt := short (cpkt typ 0 0 0x010000000000), since := 0 }
def farHas (l : List Nat) : State := { readyS with far := { reqs := l.map farReq, failed := false } }

theorem wit_FarTier : InForm (farHas [1]) ∧ (farHas [1, 3]).far.reqs[1]? = some (farReq 3) ∧ (farHas [1]).far.reqs[0]? = some (farReq 1) ∧
    (((farHas [1]).far.reqs.take 0).any (fun x => x.pkt.addr / 512 * 512 == 0x010000000000) = false) ∧
    (((farHas [1, 3]).far.reqs.take 1).any (fun x => x.pkt.addr / 512 * 512 == 0x010000000000) = true) ∧ (farHas [1]).warm = none ∧
    ((farHas [1]).setFld R.TWR_FAR_CFG F.TWR_FAR_CFG_LINK_UP 1).fld R.TWR_FAR_CFG F.TWR_FAR_CFG_LINK_UP = 1 ∧ (farHas [1]).far.failed = false ∧
    (farHas [1]).jobState ≠ 1 ∧ (farHas [1]).far.reqs = [farReq 1] :=
  ⟨form_of (by decide +kernel), by decide +kernel⟩

def opened : State := readyS.setFld R.SEC_STATE F.SEC_STATE_DEBUG_OPEN 1
def inMode (t i : Nat) : State := opened.showTest (testBit t i) true
def manuf : State := towerIs 2 |>.setFld R.SEC_STATE F.SEC_STATE_MANUF_SERVICE 1
def linkTest : State := readyS.setFld (R.LNK_STATUS 47) F.LNK_STATUS_STATE 8
def scanning : State := let s := readyS.setFld R.TST_CTL F.TST_CTL_SCAN_EN 1; { s with tst := { s.tst with scan := true } }
def pprCtl : Word := fset (fset 0 F.TST_PPR_CTL_START 1) F.TST_PPR_CTL_TOWER 7

theorem wit_MarginAndTest : (∀ s ∈ [opened, inMode 0 7, manuf, linkTest], InForm s) ∧ InForm scanning ∧
    StartAll [(0x0903, [(1, 7), (2, 1)]), (0x0903, [(0, 1), (1, 47), (2, 1)]), (0x0903, [(0, 2), (2, 1)]), (0x0903, [(0, 3), (2, 1)]), (0x0903, [(1, 7)]), (0x0904, [])] ∧
    (opened.inTest 0 7 = false ∧ (inMode 0 7).inTest 0 7 = true ∧ (inMode 1 47).inTest 1 47 = true ∧ (inMode 2 0).inTest 2 0 = true) ∧
    opened.debugOpen = true ∧ readyS.debugOpen = false ∧ opened.tasks = [] ∧ opened.jobState = 0 ∧ ((inMode 0 7).tower 7).down = [] ∧
    readyS.fld R.PWR_STATUS F.PWR_STATUS_STATE = 0 ∧ (towerIs 2).towerState 7 = 2 ∧ manuf.towerState 7 = 2 ∧
    manuf.fld R.SEC_STATE F.SEC_STATE_MANUF_SERVICE = 1 ∧ fget pprCtl F.TST_PPR_CTL_START = 1 ∧ fget pprCtl F.TST_PPR_CTL_TOWER = 7 ∧
    manuf.tst.ppr = false ∧ linkTest.linkState 47 = 8 ∧ fget (fset 0 F.TWR_MARGIN_CTL_START 1) F.TWR_MARGIN_CTL_START = 1 ∧
    fget (fset 0 F.TST_LNK_CTL_START 1) F.TST_LNK_CTL_START = 1 ∧ fget (fset 0 F.TST_H1_MARGIN_CMD_START 1) F.TST_H1_MARGIN_CMD_START = 1 ∧
    readyS.fld R.TST_H1_MARGIN_CMD F.TST_H1_MARGIN_CMD_START = 0 ∧ scanning.fld R.TST_CTL F.TST_CTL_SCAN_EN = 1 ∧ scanning.tst.scan = true ∧
    scanning.warm = none ∧ readyS.tst.scan = false ∧ readyS.fld R.TST_CTL F.TST_CTL_SCAN_EN ≠ 1 :=
  ⟨forms_of (by decide +kernel), form_of (by decide +kernel), by unfold StartAll; decide +kernel⟩

def ck (e : Nat) : Ckpt := { epoch := e, job := 0, logical := 0, plogical := 0, state := 0, bytes := 0x200000, tCapture := 0, tCommit := 0, spec := 0, step := [], pmirror := [], regions := [{ base := 0, len := 0x200000, partner := false }], own := [], partner := [], units := 512 }
def basinIs (st : Nat) : State := readyS.setFld R.BSN_STATUS F.BSN_STATUS_STATE st
/-- One region of 2 MiB to write, listed at 4096. -/
def regioned (st : Nat) : State := ((basinIs st).setFlds R.BSN_RGN_LIST [(F.BSN_RGN_LIST_ADDR, 4096), (F.BSN_RGN_LIST_COUNT, 1)]).storeLE (4096 + 8) 8 0x200000
def capturing (l : List Nat) : State := let s := basinIs 1; { s with bsn := { s.bsn with capture := some { ck := { ck 5 with state := 2 }, left := l, held := [], reclaim := [], cmd := 1 } } }
def holdsCk : State := let s := basinIs 1; { s with bsn := { s.bsn with ckpts := [ck 5] } }

theorem wit_Checkpoints : InForm (regioned 1) ∧ InForm holdsCk ∧ InForm (quietJob 3) ∧
    StartAll [(0x0502, [(0, 5)]), (0x0502, []), (0x0505, [(0, 5)]), (0x0505, [(0, 6)]), (0x0504, [(0, 5)]), (0x0504, [(0, 5), (8, 1)]), (0x0606, [(0, 5)]), (0x0606, [(0, 5), (8, 1)])] ∧
    (regioned 1).ckptBad 0 = true ∧ (∀ st ∈ [1, 2, 3], (regioned st).ckptBad 5 = false ∧ (regioned st).bsnState = st) ∧
    (regioned 1).bsn.capture = none ∧ (regioned 1).bsn.restore = none ∧ (regioned 1).epochPersists = false ∧
    (regioned 1).fld R.BSN_CKPT_CTL F.BSN_CKPT_CTL_PARTNER = 0 ∧
    (regioned 1).ckptRegions.all (fun r => r.base % 0x200000 == 0 && r.len % 0x200000 == 0 && isTower r.base && Nat.ble (r.base + r.len) towerEnd) = true ∧
    (regioned 1).bsn.ckpts.length < 16 ∧ (regioned 1).usedUnits + regionBytes (regioned 1).ckptRegions / 4096 + 8 ≤ 959768388 ∧
    ((capturing [0]).bsn.capture.map (fun k => (k.held, k.left.head?)) = some ([], some 0)) ∧
    ((capturing []).bsn.capture.map (fun k => k.left) = some []) ∧ Memory.wf (ck 5).own ∧ (ck 5).regions.all (fun g => !g.partner) = true ∧
    holdsCk.ckpt 5 = some (ck 5) ∧ holdsCk.ckpt 6 = none ∧ holdsCk.ownCkpt 5 = some (ck 5) ∧ holdsCk.tasks = [] ∧ holdsCk.mirror.c = [] ∧
    holdsCk.partnerPos = none ∧ (quietJob 3).jobState = 3 ∧ ((quietJob 3).setReg R.LNK_MIR_EPOCH 5).inPlace 5 0 = true ∧
    (quietJob 3).inPlace 5 0 = false :=
  ⟨form_of (by decide +kernel), form_of (by decide +kernel), form_of (by decide +kernel), by unfold StartAll; decide +kernel⟩

def nand (l : List (Nat × NandBlock)) : State := let s := basinIs 1; { s with bsn := { s.bsn with blocks := l } }
def full : NandBlock := { emptyBlock with data := true }

theorem wit_BasinMedia : InForm (nand []) ∧ InForm manuf ∧
    ({ nand [] with bsn := { (nand []).bsn with restore := some (1, 5, 0) } } : State).bsn.restore = some (1, 5, 0) ∧
    ((nand [(0, full)]).block 0).data = true ∧ (nand [(0, full)]).freeBlock 6249 = true ∧ 0 / 6250 = 6249 / 6250 ∧
    (∀ r ∈ [999, 1000], ((nand [(0, { full with reads := r * 1000 })]).block 0).reads = r * 1000) ∧
    max 1 ((nand []).fld R.BSN_PATROL_CTL F.BSN_PATROL_CTL_DISTURB_K) * 1000 ≤ 1000000 ∧
    full.cycles + 200 < ({ full with cycles := 201 } : NandBlock).cycles ∧
    (nand [(0, full), (6248, { full with cycles := 201 })]).freeBlock 6249 = true ∧ ((nand [(0, full)]).block 0).bad = false ∧
    (nand []).bsn.factory.contains 0 = false ∧ (nand []).bsnState = 1 ∧ (basinIs 2).bsnState = 2 ∧ (nand []).bsn.capture = none ∧
    manuf.fld R.SEC_STATE F.SEC_STATE_MANUF_SERVICE = 1 ∧ manuf.jobState = 0 ∧ readyS.fld R.SEC_STATE F.SEC_STATE_MANUF_SERVICE = 0 ∧
    (readyS.setFld R.BSN_SANITIZE F.BSN_SANITIZE_START 1).fld R.BSN_SANITIZE F.BSN_SANITIZE_START = 1 :=
  ⟨form_of (by decide +kernel), form_of (by decide +kernel), by decide +kernel⟩

/-- Channel 31 from one agent to another. -/
def chanFrom (a b : Nat) (x : Channel) : State := let s := readyS.setFlds (R.MBX_BIND 31) [(F.MBX_BIND_VALID, 1), (F.MBX_BIND_SENDER, a), (F.MBX_BIND_RECEIVER, b)]; { s with mbx := { s.mbx with chans := [(31, x)] } }
def chanIs (full_ : Bool) : Channel := { emptyChannel with full := full_, up := true }
def jEntry : JEntry := { dseq := 65535, orig := 0, seq := 0, opcode := 0x0101, queue := 0, kind := 0, cls := 0, forwarded := false, ordered := false, state := 0, pos := 0, status := 0, r0 := 0, digest := 0, tAccept := 0, tStart := 0, tDone := 0 }
def journal (p : Option Nat) : State := let s := readyS.setFld R.JNL_STATUS F.JNL_STATUS_READY 1; { s with jnl := { s.jnl with persist := p, ring := [(65535, jEntry)], changed := [65535], covered := [65535] } }

/-- A journal whose last record says all that there is. -/
def settled : State :=
  let s := journal none
  let x : PRec := { rseq := 1, newest := 0, start := 0, full := true, orderly := false, ents := [], step := s.stepEntry, mir := s.mirrorRecord }
  { s with jnl := { s.jnl with changed := [], fullDone := true, log := [x], making := some x } }

theorem wit_MailboxesAndJournal : InForm (chanFrom 0x100 0x10F (chanIs false)) ∧ InForm (journal none) ∧ InForm (chanFrom 3 0x100 (chanIs false)) ∧
    (∀ b ∈ [true, false], let s := chanFrom 0x100 0x10F (chanIs b); s.bound 31 = true ∧ s.partnerChan 31 = false ∧ s.sender 31 = 0x100 ∧ s.receiver 31 = 0x10F ∧ (s.chan 31).full = b ∧ s.sender 31 ≠ 0x10F) ∧
    (let s := (chanFrom 3 0x100 (chanIs false)).storeLE (0x005DFF801000 + 512 * 31 + 12) 4 1; s.sender 31 = 3 ∧ (s.chan 31).up = true ∧ (s.chan 31).full = false ∧ s.loadLE (0x005DFF801000 + 512 * 31 + 12) 4 ≠ (s.chan 31).landed) ∧
    (let s := chanFrom 0x100 3 (chanIs true); s.receiver 31 = 3 ∧ (s.chan 31).full = true ∧ s.loadLE (0x005DFF801000 + 512 * 31 + 12) 4 = (s.chan 31).count ∧ s.loadLE (0x005DFF801000 + 512 * 31 + 12) 4 = (s.chan 31).landed) ∧
    (journal none).fld R.JNL_STATUS F.JNL_STATUS_READY = 1 ∧ (journal none).bsnState ≠ 4 ∧ ((journal none).setFld R.BSN_STATUS F.BSN_STATUS_STATE 4).bsnState = 4 ∧ (journal none).jnl.fullDone = false ∧ ((journal none).bsn.records + 1) % 1024 ≠ 0 ∧
    (let s := settled; s.jnl.fullDone = true ∧ s.jnl.changed = [] ∧ s.jnl.log.getLast?.map (fun r => (r.step, r.mir)) = some (s.stepEntry, s.mirrorRecord) ∧ s.jnl.making.map (fun r => r.full) = some true) ∧
    (journal none).jnl.persist = none ∧ (journal (some 7)).jnl.persist = some 7 ∧ (journal none).jnl.changed = [65535] ∧
    tfind (journal none).jnl.ring 65535 = some jEntry ∧ (journal none).mirror.c = [] ∧ (journal none).bsn.capture = none :=
  ⟨form_of (by decide +kernel), form_of (by decide +kernel), form_of (by decide +kernel), by decide +kernel⟩

/-! Recovery, power, boot, security. -/

def reinitOf (kind index : Nat) (c : Option Nat) : State := { withCmds readyS [{ cmd 0x0603 [] with started := true }] with reinit := [{ kind := kind, index := index, since := 0, cmd := c, was := 0 }] }
def warming : State := { readyS with warm := some { since := 0, cmd := none } }
def bootInfo : BootInfo := { done := true, step := 64, sites := [], routers := [], rows := [], spares := [], columns := [], offline := [], far := [], bifur := 0, key := true, health := true, unread := [], factory := [] }
def pwrIs (a : PwrAt) (c : OffCause) : State := { readyS with pwr := { readyS.pwr with at_ := a, cause := c } }

/-- An image with a body, whose signature is the first key's. -/
def imageOf (typ : Nat) (body : List Byte) : List Byte :=
  bytesLE 4 0x5746475A ++ bytesLE 2 typ ++ bytesLE 2 1 ++ List.replicate 8 0 ++ bytesLE 8 body.length ++ sha384 body ++ List.replicate 440 0 ++ body
def imaged : State := { warming with fw := { warming.fw with banks := [(2, imageOf 1 [0]), (3, []), (4, imageOf 2 [0]), (5, []), (6, imageOf 3 (List.replicate 512 0)), (7, [])] } }

theorem code_image_ok (h : ∀ k a b, Config.signed k a b = true) (s : State) (h1 : s.reg R.SEC_KEYS = 0) (h2 : s.reg R.SEC_SVN_MIN = 0) : s.imageFail 1 (imageOf 1 [0]) = 0 ∧ s.imageFail 2 (imageOf 2 [0]) = 0 := by
  unfold State.imageFail State.svnMin
  simp only [h, h1, h2]
  decide +kernel

theorem cfg_image_ok (h : ∀ k a b, Config.signed k a b = true) (s : State) (h1 : s.reg R.SEC_KEYS = 0) (h2 : s.reg R.SEC_SVN_MIN = 0) : s.imageFail 3 (imageOf 3 (List.replicate 512 0)) = 0 := by
  unfold State.imageFail State.svnMin
  simp only [h, h1, h2]
  decide +kernel

/-- What an image whose version, SVN and key are 0 shows as it runs. -/
def shown (s : State) (typ : Nat) (img : List Byte) : State :=
  (({ s with fw := { s.fw with running := tinsert s.fw.running typ img } } : State).setFlds (fwReg typ) [(F.SEC_FW_LK_VERSION, 0), (F.SEC_FW_LK_SVN, 0), (F.SEC_FW_LK_BANK, 0), (F.SEC_FW_LK_KEY, 0),
    (F.SEC_FW_LK_PENDING, if tfind s.fw.pend typ = some 1 then 1 else 0)]).setFld R.SEC_BOOT_STAT (bankFld typ) 0

theorem showImage_shown (s : State) (typ : Nat) (img : List Byte) (h : s.image typ 0 = img) (a : fieldOf img 8 4 = 0) (b : fieldOf img 12 1 = 0) (c : fieldOf img 13 1 = 0) : s.showImage typ 0 = shown s typ img := by
  unfold State.showImage shown
  simp only [h, a, b, c]

theorem verifyBank_ok (s : State) (typ b : Nat) (h : s.imageFail typ (s.image typ b) = 0) : s.verifyBank typ b = (some b, s.showImage typ b) := by
  unfold State.verifyBank; rw [if_pos h]

/-- Whether an image's signature verifies is free: where it does, the images pass, as a boot and a warm reset ask; the harvest finds no failed router, and leaves the tables acceptable. -/
theorem wit_images (h : ∀ k a b, Config.signed k a b = true) : (imaged.verifyType 1).1 = some 0 ∧ (imaged.verifyType 2).1 = some 0 ∧ ((imaged.verifyType 2).2.verifyType 3).1 = some 0 ∧
    (let lt := imaged.verifyAgain 2
      let cfg := lt.2.verifyAgain 3
      let r := cfg.2.lanternBoots.harvest bootInfo
      imaged.warm = some { since := 0, cmd := none } ∧ imaged.linksDone = true ∧ lt.1.isSome = true ∧ cfg.1.isSome = true ∧ r.1 = true ∧ imaged.tablesOk = true) := by
  have h2 : imaged.verifyBank 2 0 = (some 0, imaged.showImage 2 0) := verifyBank_ok _ _ _ (code_image_ok h imaged (by decide +kernel) (by decide +kernel)).2
  have h3 : (imaged.showImage 2 0).verifyBank 3 0 = (some 0, (imaged.showImage 2 0).showImage 3 0) := verifyBank_ok _ _ _ (cfg_image_ok h (imaged.showImage 2 0) (by decide +kernel) (by decide +kernel))
  have h1 : imaged.verifyBank 1 0 = (some 0, imaged.showImage 1 0) := verifyBank_ok _ _ _ (code_image_ok h imaged (by decide +kernel) (by decide +kernel)).1
  have e2 : imaged.verifyType 2 = (some 0, imaged.showImage 2 0) := h2
  have a2 : imaged.verifyAgain 2 = (some 0, imaged.showImage 2 0) := h2
  have e3 : (imaged.showImage 2 0).verifyType 3 = (some 0, (imaged.showImage 2 0).showImage 3 0) := h3
  have a3 : (imaged.showImage 2 0).verifyAgain 3 = (some 0, (imaged.showImage 2 0).showImage 3 0) := h3
  have e1 : imaged.verifyType 1 = (some 0, imaged.showImage 1 0) := h1
  refine ⟨by rw [e1], by rw [e2], by rw [e2, e3], ?_⟩
  have s2 : imaged.showImage 2 0 = shown imaged 2 (imageOf 2 [0]) := showImage_shown _ _ _ rfl (by decide +kernel) (by decide +kernel) (by decide +kernel)
  have s3 : (shown imaged 2 (imageOf 2 [0])).showImage 3 0 = shown (shown imaged 2 (imageOf 2 [0])) 3 (imageOf 3 (List.replicate 512 0)) := showImage_shown _ _ _ rfl (by decide +kernel) (by decide +kernel) (by decide +kernel)
  simp only [a2, a3]
  rw [s2, s3]
  exact ⟨rfl, by decide +kernel, rfl, rfl, by decide +kernel, by decide +kernel⟩

def blankWarm : State := { warming with fw := { warming.fw with banks := [(4, []), (5, [])] } }
theorem wit_RecoveryRungs_blank : blankWarm.warm = some { since := 0, cmd := none } ∧ blankWarm.linksDone = true ∧ (blankWarm.verifyAgain 2).1.isSome = false := by decide +kernel

theorem wit_RecoveryRungs : InForm readyS ∧ InForm (quietJob 1) ∧
    StartAll [(0x0603, [(0, 3)]), (0x0603, [(0, 5), (1, 1)]), (0x0603, [(0, 1), (1, 63)]), (0x0604, []), (0x0605, [])] ∧ (quietJob 1).jobState = 1 ∧
    readyS.reinit = [] ∧ (∀ k ∈ [1, 5, 6], (reinitOf k 0 none).reinit = [{ kind := k, index := 0, since := 0, cmd := none, was := 0 }] ∧ k ≠ 2) ∧
    (reinitOf 5 1 (some 1)).reinit = [{ kind := 5, index := 1, since := 0, cmd := some 1, was := 0 }] ∧ readyS.warm = none ∧
    warming.warm = some { since := 0, cmd := none } ∧ warming.linksDone = true ∧
    ({ bootInfo with offline := [255] } : BootInfo).offline ≠ [] ∧ readyS.pwr.at_ = .up ∧ (pwrIs .orderly .cycle).pwr.at_ = .orderly ∧
    (pwrIs .aux .cycle).pwr.at_ = .aux ∧ (pwrIs .aux .cycle).pwr.oos = false ∧ (pwrIs .aux .cycle).pwr.cause = .cycle :=
  ⟨form_of (by decide +kernel), form_of (by decide +kernel), by unfold StartAll; decide +kernel⟩

/-- A boot that stands at a stage. -/
def booting (a : PwrAt) (n : Nat) : State := let s := readyS.setFld R.SEC_BOOT_STAT F.SEC_BOOT_STAT_STAGE n; { s with pwr := { s.pwr with at_ := a, booting := true, clamp := true } }
def locked8 : State := (booting .up 8).setFld R.LNK_TB_STATUS F.LNK_TB_STATUS_LOCKED 1

/-- Both banks of the lockkeeper's firmware blank. -/
def blank : State := let s := booting .aux 0; { s with fw := { s.fw with banks := [(2, []), (3, [])] } }

/-- The clauses with an image that verifies have their witness in wit_images. -/
theorem wit_BootAndInput : (∀ s ∈ [readyS, State.reset, booting .aux 0, locked8], InForm s) ∧ State.reset.pwr.at_ = .dark ∧
    (pwrIs .aux .loss).pwr.cause = .loss ∧ (booting .aux 0).pwr.booting = true ∧ (booting .aux 0).pwr.at_ = .aux ∧ bootInfo.done = true ∧
    (booting .aux 0).stage = 0 ∧ (blank.verifyType 1).1 = none ∧ blank.stage = 0 ∧ blank.pwr.booting = true ∧ (∀ n ∈ [1, 3, 4, 5, 6, 7, 8], (booting .up n).stage = n) ∧
    (booting .aux 1).pwr.clamp = true ∧ (booting .aux 1).pwr.oos = false ∧ { readyS.pwr with clamp := false }.clamp = false ∧ bootInfo.sites = [] ∧
    bootInfo.routers = [] ∧ bootInfo.offline = [] ∧ bootInfo.key = true ∧ bootInfo.health = true ∧ locked8.linksDone = true ∧
    ((booting .up 8).setFlds R.LNK_POD_CFG [(F.LNK_POD_CFG_TOPO, 1)]).linksDone = false ∧ locked8.fld R.LNK_TB_STATUS F.LNK_TB_STATUS_LOCKED = 1 ∧
    locked8.pwr.at_ = .up ∧ locked8.warm = none ∧ (booting .up 1).pwr.failedAt = none ∧ ({ readyS.pwr with failedAt := some 0 }.failedAt = some 0) ∧
    (booting .up 1).pwr.lkBase ≤ (booting .up 1).pwr.returned + 60000000000 ∧ readyS.bsn.capture = none ∧ (pwrIs .loss .loss).pwr.at_ = .loss ∧
    13 < 14 :=
  ⟨forms_of (by decide +kernel), by decide +kernel⟩

def clocked (cur : Nat) : State := (readyS.setFlds R.CLK_SPIRE_W [(F.CLK_SPIRE_W_CUR, cur), (F.CLK_SPIRE_W_USER, 320), (F.CLK_SPIRE_W_CAP, 320), (F.CLK_SPIRE_W_THERM, 320)])
def pwrState (n : Nat) : State := readyS.setFld R.PWR_STATUS F.PWR_STATUS_STATE n
def ramping (l : List Nat) : State := { withTask 1 with pwr := { readyS.pwr with hold := l } }

theorem wit_PowerControl : InForm readyS ∧ InForm (clocked 64) ∧
    StartAll [(0x0703, [(0, 1), (2, 3000)]), (0x0702, [(0, 1400)]), (0x0702, [(0, 1401)]), (0x0701, []), (0x0701, [(0, 1)]), (0x0701, [(0, 2)])] ∧
    (∀ c ∈ [64, 319], (clocked c).fld (clkReg 0) F.CLK_SPIRE_W_CUR ≠ (clocked c).target16 0) ∧
    (clocked 320).fld (clkReg 0) F.CLK_SPIRE_W_CUR = (clocked 320).target16 0 ∧ 5000 ≤ 5000 ∧ 511 < 512 ∧
    (∀ n ∈ [0, 1, 2, 3], (pwrState n).fld R.PWR_STATUS F.PWR_STATUS_STATE = n) ∧ readyS.tasks = [] ∧ (withTask 1).tasks ≠ [] ∧ readyS.standbyOk = true ∧
    (quietJob 1).standbyOk = false ∧ (pwrState 1).quiescent = true ∧ ({ readyS.pwr with leaving := some (1, 5) }.leaving = some (1, 5)) ∧
    tfind (ramping []).tasks 1 = some task1 ∧ (0 ∉ (ramping []).pwr.hold) ∧ ({ ramping [0] with tasks := [] } : State).pwr.hold.contains 0 = true ∧
    1600000 < 1600001 ∧ 1549999 < 1550000 ∧ readyS.floorStep + 10 ≤ (clocked 320).fld (clkReg 0) F.CLK_SPIRE_W_CAP ∧ readyS.pwr.tickE = 0 ∧
    readyS.pwr.winE = 0 ∧ readyS.now ≤ (readyS.pwr.tickAt / 100000 + 1) * 100000 ∧ (clocked 64).fld (clkReg 0) F.CLK_SPIRE_W_CAP < 511 ∧
    readyS.pwr.silent = false ∧ readyS.pwr.sensors = [] ∧ tripPoint 139 ≤ 125 ∧ tripPoint 64 ≤ 110 ∧
    ({ (pwrIs .aux .thermal).pwr with coolSince := some 9 }.coolSince = some 9) ∧ (pwrIs .aux .thermal).pwr.cause = .thermal :=
  ⟨form_of (by decide +kernel), form_of (by decide +kernel), by unfold StartAll; decide +kernel⟩

def updating (v : Bool) : State := { readyS with fw := { readyS.fw with update := some { typ := 3, size := 4096, data := [], verified := v } } }
def sessions : State := { readyS with fw := { readyS.fw with sessions := 1, nonce := some 0, svnDue := [(3, 255)] } }
def ide (n : Nat) : State := sessions.setFld R.SEC_IDE F.SEC_IDE_STATE n

/-- Whether a token or an image verifies is free: the clauses that ask for one that does rest on it. -/
theorem wit_SecurityAndManagement : InForm readyS ∧ InForm sessions ∧ InForm (ide 2) ∧
    StartAll [(0x0802, []), (0x0803, []), (0x0804, [(96, 1)]), (0x0804, [])] ∧ readyS.lockedOut = false ∧
    (readyS.setFld R.SEC_STATE F.SEC_STATE_AUTH_LOCKOUT 1).lockedOut = true ∧ readyS.tokenOk (cmd 0x0803 []).signature 1 = false ∧
    readyS.fld R.SEC_STATE F.SEC_STATE_DEBUG_DISABLED = 0 ∧ (readyS.setFld R.SEC_AUTH F.SEC_AUTH_FAILS 7).fld R.SEC_AUTH F.SEC_AUTH_FAILS = 7 ∧
    (quietJob 1).jobState ≠ 0 ∧ readyS.jobState = 0 ∧ sessions.fw.nonce.isSome = true ∧
    (∀ k ∈ [1, 2, 3], readyS.fld (fwReg k) F.SEC_FW_LK_SVN ≤ readyS.svnMin k) ∧
    (∀ k ∈ [1, 2, 3], let s := readyS.setFld (fwReg k) F.SEC_FW_LK_SVN 1; s.svnMin k < s.fld (fwReg k) F.SEC_FW_LK_SVN ∧ tfind s.fw.svnDue k = none) ∧
    tfind sessions.fw.svnDue 3 = some 255 ∧ readyS.pwr.at_ = .up ∧ 3 ≤ readyS.stage ∧ sessions.fw.sessions ≠ 0 ∧
    (∀ n ∈ [0, 1, 2, 3], (ide n).fld R.SEC_IDE F.SEC_IDE_STATE = n) ∧ readyS.pwr.recovery = false ∧ readyS.fw.update = none ∧
    (∀ b ∈ [true, false], (updating b).fw.update = some { typ := 3, size := 4096, data := [], verified := b }) ∧ 4095 < 4096 ∧
    64 ≤ (List.replicate 64 0#8).length ∧ readyS.imageFail 3 (Memory.readBytes [] 0 4096) ≠ 0 ∧ readyS.lockkeeperRuns = true ∧
    readyS.sensor 200 = some 0 ∧ (pwrIs .aux .off).pwr.booting = false ∧ (pwrIs .aux .off).pwr.cause = .off ∧ (quietJob 1).fw.policy / 2 % 2 = 0 ∧
    ({ readyS.pwr with oos := true }.oos = true) :=
  ⟨form_of (by decide +kernel), form_of (by decide +kernel), form_of (by decide +kernel), by unfold StartAll; decide +kernel⟩

/-! The rules stated for every state, and the invariant. -/

theorem wit_CountsSaturate : InForm running ∧ fget (running.cell 0 47) cKind = 0 ∧
    0xFFFF < fget ((cell47 (fset 0 cCount 0xFFFF)).cell 0 47) cCount + 1 ∧ fget (running.cell 0 47) cCount + 65535 ≤ 0xFFFF ∧
    fget (running.cell 0 47) cCount < 1 :=
  ⟨form_of (by decide +kernel), by decide +kernel⟩

theorem wit_ReachSets : StartAll [(0x0206, [(8, 1)])] ∧ ((cmd 0x0206 [(8, 1)]).ilEntries = [1, 0, 0, 0, 0, 0, 0, 0]) ∧ ([71, 70, 69, 68, 67, 66, 65, 64] : List Nat).length = 8 := by unfold StartAll; decide +kernel

theorem wit_UnassignedOffsets : regAt 0 = none ∧ regAt 0x3FFFFF8 = none := by decide +kernel

theorem wit_StepKeepsForm : InForm { readyS with pending := [.sqDisable 0] } ∧ (match step { readyS with pending := [.sqDisable 0] } with | .next t => t.pending == [] | _ => false) = true :=
  ⟨form_of (by decide +kernel), by decide +kernel⟩

theorem wit_CommandsLeaveQueue : InForm { readyS with pending := [.nop 1] } ∧ (match exec (.sqDisable 0) { readyS with pending := [.nop 1] } with | .next t => t.pending == [.nop 1] | _ => false) = true :=
  ⟨form_of (by decide +kernel), by decide +kernel⟩

theorem wit_IdleStep : State.reset.pending = [] := by decide +kernel

theorem wit_RegisterReadAfterWrite : InForm State.reset ∧ F.HCP_Q_STATUS_SQ_HEAD.lo ≤ F.HCP_Q_STATUS_SQ_HEAD.hi ∧ F.HCP_Q_STATUS_SQ_HEAD.hi < F.HCP_Q_STATUS_CQ_TAIL.lo ∧ F.HCP_Q_STATUS_CQ_TAIL.hi < 64 ∧ F.HCP_Q_STATUS_DB_ERR.hi < F.HCP_Q_STATUS_SQ_HEAD.lo :=
  ⟨form_of (by decide +kernel), by decide +kernel⟩

theorem wit_MemoryReadAfterWrite : Memory.wf [(0, 1#8), (5, 2#8)] := by decide +kernel

/-! Further premises of statements, each met. -/

/-- Site 0 has a prefetch on its way by the translation of page 0. -/
def walking : State := readyS.modSpire 0 (fun p => { p with mover := { p.mover with pre := [{ tag := 0, addr := 512, gen := 0, va := 0 }] } })

theorem also_MemoryCommands : InForm walking ∧ walking.usesOld 0 1 = true ∧ readyS.usesOld 0 1 = false ∧ readyS.migrColls = [] ∧ inGroup 0 0 0 = true ∧ inGroup 1 47 towerEnd = false ∧
    ilSetOk ((List.range 8).map (fun k => readyS.ilEntry 1 (8 * 47 + k))) = true ∧
    (let c := { cmd 0x0203 [] with started := true }; (withCmds readyS [c]).cmd? 1 = some c) :=
  ⟨form_of (by decide +kernel), by decide +kernel⟩

theorem also_TaskCommands : ((noTask 0).spire 0).upds = [] ∧ (noTask 0).tasks.length < 32 := by decide +kernel

/-- The aqueduct towards Dome E is lost; and there is no credit past it. -/
def lostWE : State := let s := forking [{ fork0 with toSend := [6] }]; { s with aq := { s.aq with lost := [0] } }
def noCredit : State := let p := short (cpkt 1 1 128 0); { crossing with canal := { crossing.canal with used := [(hopKey (crossing.aqExit 1 p) p.tc, qDepth p.tc)] } }

theorem also_MulticastAndAqueduct : (lostWE.forksAt 0).find? (fun f => f.toSend.contains 6 && !f.reported.contains 6) = some { fork0 with toSend := [6] } ∧ (6 == 6 && lostWE.aq.lost.contains (domeOf 0)) = true ∧
    (let p := short (cpkt 1 1 128 0); noCredit.hasCredit (noCredit.aqExit 1 p) p = false) := by decide +kernel

theorem also_LinkPackets : (∀ b ∈ [LBody.sig (sigPay 0) false 0, .sig (sigPay 0) true 63], (inbox site0 b).sigInTurn 47 (lpkt b) = true) ∧
    ({ site0 with pod := { site0.pod with sigTags := [(7, 8)] } } : State).pod.sigTags.find? (fun t => t.1 == (lpkt (.sigAck 0)).id) = some (7, 8) := by decide +kernel

theorem also_StopsAndMirror : (let s := mirroring (some 1) []; ({ s with mirror := { s.mirror with commitSent := true } } : State).mirror.closing = some 1) ∧ InForm (inbox State.reset (.mirrorAck 1 1)) :=
  ⟨by decide +kernel, form_of (by decide +kernel)⟩

theorem also_CollectiveProgress : manyBuckets.step = false ∧ (coll 1 [(2, 0)]).auto = true ∧ (working manyBuckets).collAt 14 = none := by decide +kernel

def lands : Landing := { due := 0, seq := 0, eng := 1, qpos := 0, writes := [], sig := none, flags := 0, ac := 0, ctxs := 0, mov := none }

theorem also_TaskEvents : (lands.rsd = none ∧ lands.sig = none ∧ lands.eng < 3 ∧ lands.writes.all (fun w => match w with | .desc _ _ _ => false | _ => true) = true) ∧
    (let l := { lands with rsd := some { row := 0, col := 63, point := 2, expected := 2, observed := 0 }, bad := true }; l.bad = true ∧ l.ctxs = 0) := by decide +kernel

theorem also_MoverProgress : (let s : State := { readyS with graphs := [(1, { graph 0 with nodes := [{ node .wait 0 with asked := true }] })] }
      tfind s.graphs 1 = some { graph 0 with nodes := [{ node .wait 0 with asked := true }] }) ∧ ({ node .wait 0 with asked := true } : GNode).st = .wait ∧
    (working { manyBuckets with pageWait := some 0 }).collAt 15 = some { manyBuckets with pageWait := some 0 } := by decide +kernel

theorem also_TowerMemory : (towerIs 1).channelUp 7 0 = true ∧ (towerIs 1).towerState 7 ≠ 0 ∧ tfind ((towerIs 1).tower 7).refreshed 0 = none := by decide +kernel

theorem also_PowerControl : domeOf 511 = 0 ∧ Quiet ((clocked 64).spire 0) ∧ Quiet ((clocked 64).spire 511) := ⟨by decide +kernel, quiet_of (by decide +kernel), quiet_of (by decide +kernel)⟩

theorem also_SecurityAndManagement : ((0 = 0 ∧ readyS.pwr.at_ = .up ∧ 3 ≤ readyS.stage) ∨ (0 = 1 ∧ readyS.lockkeeperRuns = true)) ∧ (pwrIs .aux .off).lockkeeperRuns = true := by decide +kernel

theorem also_BootAndInput : (booting .up 2).stage = 2 ∧ ((booting .up 4).harvest bootInfo).1 = true ∧ bootInfo.badSites = [] := by decide +kernel
/-! Well-formed commands. -/

/-- Well formed: each operand at the end of its range. -/
theorem test_wf_accepts : ([.vadd 1023 vins, .mma 1023 arr, .vgather 1023 vmem, .vtr 1023 vmov, .vcvtn 1023 vcvt, .tileLoad 1023 tile, .sqTailDoorbell 63 0, .linkSigAck 47 (lpkt (.sigAck 0)), .kand 1023 vins] : List Instr).all Instr.wf = true := by decide +kernel

/-- Ill formed: one operand of a lane-wise vector instruction past its range. -/
theorem test_wf_vector : ([.vadd 1024 vins, .vadd 0 { vins with d := 32 }, .vadd 0 { vins with a := 32 }, .vadd 0 { vins with b := 32 }, .vadd 0 { vins with c := 32 }, .vadd 0 { vins with k := 8 }, .vadd 0 { vins with n := 64 }] : List Instr).any Instr.wf = false := by decide +kernel

theorem test_wf_local_store : ([.vgather 0 { vmem with v := 32 }, .vgather 0 { vmem with idx := 32 }, .vgather 0 { vmem with k := 8 }] : List Instr).any Instr.wf = false := by decide +kernel

theorem test_wf_move : ([.vtr 0 { vmov with t := 16 }, .vtr 0 { vmov with r := 32 }, .vtr 0 { vmov with v := 32 }, .vtr 0 { vmov with half := 2 }, .vtr 0 { vmov with k := 8 }] : List Instr).any Instr.wf = false := by decide +kernel

theorem test_wf_convert : ([.vcvtn 0 { vcvt with half := 2 }, .vcvtn 0 { vcvt with k := 8 }, .vcvtn 0 { vcvt with tag := 16 }] : List Instr).any Instr.wf = false := by decide +kernel

theorem test_wf_array : ([.mma 0 { arr with ac := 4 }, .mma 0 { arr with ta := 16 }, .mma 0 { arr with ta2 := 16 }, .mma 0 { arr with tb := 16 }, .mma 0 { arr with tb2 := 16 }, .mma 0 { arr with tm := 16 }, .mma 0 { arr with half := 2 }, .mma 0 { arr with ctx := some 2 },
    .mma 0 { arr with desc := some 32 }] : List Instr).any Instr.wf = false := by decide +kernel

theorem test_wf_mover : ([.tileLoad 0 { tile with t := 16 }, .tileLoad 0 { tile with tag := 16 }, .tileLoad 0 { tile with desc := some 32 }] : List Instr).any Instr.wf = false := by decide +kernel

theorem test_wf_link_packet : let p := lpkt (.sigAck 0)
    ([.linkSigAck 48 p, .linkSigAck 0 { p with lclass := 4 }, .linkSigAck 0 { p with vl := 2 }, .linkSigAck 0 { p with tgen := 2 }, .linkSigAck 0 { p with table := 5 }, .linkSigAck 0 { p with destPos := 64 }, .linkSigAck 0 { p with srcPos := 64 }, .linkSigAck 0 { p with id := 65536 }] : List Instr).any Instr.wf = false := by decide +kernel

theorem test_wf_copy_and_packets : let c : CopyIns := { toGlobal := false, gaddr := 0, ls := 0, n := 1, desc := none, sig := none }
    let p := cpkt 1 0 0 0
    ([.moverCopy 0 { c with n := 257 }, .moverCopy 0 { c with ls := 0x60000 }, .moverCopy 0 { c with desc := some 32 }, .canalSig { p with tc := 4 }, .canalSig { p with dkind := 4 }, .canalSig { p with skind := 2 }, .canalSig { p with tag := 65536 },
      .remoteSignalArrival 0 { sigPay 0 with cell := 48 }, .remoteSignalArrival 0 { sigPay 4 with cell := 0 }, .remoteSignalArrival 0 { sigPay 0 with n := 65536 }, .remoteSignalArrival 0 { sigPay 0 with gen := 4 }, .remoteSignalArrival 0 { sigPay 0 with origModule := 64 },
      .remoteSignalArrival 0 { sigPay 0 with origSpire := 960 }] : List Instr).any Instr.wf = false := by decide +kernel

theorem test_wf_numbers : ([.instructionLanding 1024 .quiet, .instructionLanding 0 (.sram 7), .xltResolveTimeout (.site 1024), .xltResolveTimeout (.coll 16), .add 0 .seq 48 1, .add 0 .seq 0 65536, .sread 0 32 0, .gapThresholdReached 0 2, .syncHoldLimitReached 0 0 6, .packetForward 0 7 .clean, .creditReturn 0 0 4, .aqueductFlitReceive 2 0 .bad, .streamLanded 0 1024, .collectiveStart 16, .congestionWindow 16,
    .stageReadyPoll 32, .epochCommitInstant 2, .towerReadComplete 8 0 0 0 (.words []), .towerReadComplete 0 32 0 0 (.words []), .towerReadComplete 0 0 6291456 0 (.words []), .towerReadComplete 0 0 0 3 (.words []), .towerRefresh 0 0 64 false, .towerLogLowRead 0 64, .registerWrite 0x4000000 0, .sqTailDoorbell 64 0,
    .reinitLimitExpiry 7 0, .mailboxSend 65536 0 0 none, .partnerMessageLanded 32, .powerUp 64, .railFault 14, .spireClockStep 2 0, .fwWatchdog 4, .spdmRequest 2 .plain, .eyeMeasurement 0 2 0, .h0LinkTrained 17 0 0, .h0LinkTrained 0 7 0, .h0LinkTrained 0 0 41, .svnProgrammingComplete 4,
    .taskCompletion (2 ^ 32)] : List Instr).any Instr.wf = false := by decide +kernel

/-! No word spells a command (R1, R74, R470). -/

theorem test_no_word : decodeTableWord 64 0x0101 = none ∧ (State.reset.withFetchWord 64 0x0101) = State.reset := by decide +kernel

/-! Values the manual works out. -/

/-- Chapter "Towers", worked example: device address 0x0012_3456_7A40 of Dome W in DOME mode is channel index 61, channel-local barge 1,193,046; bank 22, COL 1, row 4,660. -/
theorem test_tower_place : State.reset.towerPlace 0x001234567A40 = (0, 61, 1193046) ∧ State.reset.channelAddr 1 29 1193046 + 64 = 0x001234567A40 ∧ bankOf 1193046 = 22 ∧ columnOf 1193046 = 1 ∧ dramRowOf 1193046 = 4660 := by decide +kernel

/-- The same example: the entry 0xC000_0000_0000_2756 covers that barge, and not the one at the same place of the next page (bank 23). -/
theorem test_retire_bank : State.reset.retireOk 0xC000000000002756 = true ∧ State.reset.entryCovers 0xC000000000002756 0x001234567A40 = true ∧ State.reset.entryCovers 0xC000000000002756 0x001234577A40 = false := by decide +kernel

/-- Chapter "Collectives", placement at expert 104: capacity 24,576, 13,100 copies of rank 0, then rank 1 by source (grouped). -/
theorem test_placement : placeByRank 24576 [(0, 0, 13100), (1, 16, 3392), (1, 17, 199), (1, 60, 7719), (1, 61, 205), (1, 63, 1165)] 0
    = [(0, 0, 13100, 0), (1, 16, 3392, 13100), (1, 17, 199, 16492), (1, 60, 7719, 16691), (1, 61, 166, 24410), (1, 63, 0, 24576)] := by decide +kernel

/-- Chapter "Step ends", a clipped step: GSQ 40,960², OVF 0, ONE 64, SCALE 9,152, CLEAN 127,936, STEPLO 3,328,384 with MAXNORM 1.0 is CLIP with NORM 0x3FA0_0000 and κ 0x3F4C_CCCD. -/
theorem test_clipped_step : decideStep [0x4EC80000, 0, 0x42800000, 0x460F0000, 0x47F9E000, 0x4A4B2600] 15 1999 52006 64 0x3F800000 = ⟨1, 0x3FA00000, 0x3F4CCCCD⟩ := by decide +kernel

/-- The same example: CLEAN 1,999 of INTERVAL 2,000 raises EXP from 15 to 16 and clears CLEAN; GLB_STEPS becomes 52,007. -/
theorem test_scale_raised : let s := State.reset.stepState { cmd := none, node := none, d := 0, exp := 15, clean := 1999, steps := 52006, tCapture := 0 } 1
    s.lsExp = 16 ∧ s.lsClean = 0 ∧ s.steps = 52007 := by decide +kernel

/-- Chapter "Host commands", overload: with 140 of 224 shared slots held, 84 are free, not more than T3 = 96: a class-3 packet is refused BUSY, class 1 is taken. -/
theorem test_class_3_busy : let s := withCmds readyS (List.replicate 140 { cmd 0x0101 [] with slot := 2, cls := 1 })
    s.slotFor 3 = none ∧ s.slotFor 1 = some 2 := by decide +kernel

/-- The same example: SEQ 2 where 1 is expected is refused BAD_SEQUENCE with RESULT0 = 1, and the expected value stays 1. -/
theorem test_bad_sequence : let s := fetching.setFld (R.HCP_SQ_SEQ 0) F.HCP_SQ_SEQ_SEQ 1
    (match exec (.packetFetch 0 (packet 0x0101 2 0 0 [])) s with
     | .next t => t.hcp.cqOut.map (fun e => (e.1, e.2.status, e.2.final, e.2.seq, e.2.r0)) == [(0, statusCode .badSequence, true, 2, 1)] && t.fld (R.HCP_SQ_SEQ 0) F.HCP_SQ_SEQ_SEQ == 1
     | _ => false) = true := by decide +kernel

/-- Chapter "Test", worked example: COUNT 8 is 8,388,608 bits, 1.311 ms per test. -/
theorem test_margin_time : (match exec (.marginTestStart 7 (fset (fset 0 F.TWR_MARGIN_CTL_START 1) F.TWR_MARGIN_CTL_COUNT 8)) ((towerIs 2).setFld R.SEC_STATE F.SEC_STATE_DEBUG_OPEN 1) with
     | .next t => (t.tower 7).testing == some 1310720
     | _ => false) = true := by decide +kernel

/-- Chapter "Canal", worked example: from site 0 toward site 69, at (2, 5): east until column 5, then south. -/
theorem test_route : [0, 1, 4, 5, 37, 69].map (fun x => State.reset.routeToSite x 69) = [2, 2, 2, 3, 3, 0] := by decide +kernel

/-- R59, computed by hand: E4M3 saturates at 448; the tie 2.5 goes to E2M1 2.0 and the tie 3.5 to 4.0; the BF16 tie 1 + 2⁻⁸ goes to 1.0. -/
theorem test_narrow : (narrow fmtE4m3 false none (.fin false 1000 0)).1 = 0x7E ∧ (narrow fmtE2m1 false none (.fin false 5 (-1))).1 = 4 ∧ (narrow fmtE2m1 false none (.fin false 7 (-1))).1 = 6 ∧ (narrow fmtBf16 false none (.fin false 257 (-8))).1 = 0x3F80 := by decide +kernel

/-- IEEE 754, by hand: 2²⁴ + 1 rounds to 2²⁴ in FP32, 2²⁴ + 3 to 2²⁴ + 4; the largest finite value doubled is infinity. -/
theorem test_fp32 : (arithTo fmtFp32 [] (Machine.Num.add (.fin false 1 24) (.fin false 1 0))).1 = 0x4B800000 ∧ (arithTo fmtFp32 [] (Machine.Num.add (.fin false 1 24) (.fin false 3 0))).1 = 0x4B800002
    ∧ (arithTo fmtFp32 [] (Machine.Num.mul (fmtFp32.decode 0x7F7FFFFF) (.fin false 2 0))).1 = 0x7F800000 := by decide +kernel

/-- FIPS 180-4's own example: the SHA-384 digest of "abc" begins CB00753F 45A35E8B B5A03D69 9AC65007. -/
theorem test_sha384 : (sha384 [0x61#8, 0x62#8, 0x63#8]).take 16 = [0xCB#8, 0x00#8, 0x75#8, 0x3F#8, 0x45#8, 0xA3#8, 0x5E#8, 0x8B#8, 0xB5#8, 0xA0#8, 0x3D#8, 0x69#8, 0x9A#8, 0xC6#8, 0x50#8, 0x07#8] := by decide +kernel

/-- R218: 0xFFFF plus 2 stays 0xFFFF, and the cell's bit of SPR_SYNC_SATHI is set. -/
theorem test_count_saturates : let s := (cell47 (fset 0 cCount 0xFFFF)).cellAdd 0 47 2
    fget (s.cell 0 47) cCount = 0xFFFF ∧ s.reg (R.SPR_SYNC_SATHI 0) = 0x800000000000#64 ∧ s.reg (R.SPR_SYNC_SATCNT 0) = 1 := by decide +kernel

/-- R493: CLOCK_LIMIT of 2,000 MHz is the step 320, and its result is 2,000. -/
theorem test_clock_limit : (match exec (.clockLimit 1) (heldIn (clocked 64) 0x0703 [(0, 0), (2, 2000)]) with
     | .next t => t.fld (clkReg 0) F.CLK_SPIRE_W_USER == 320 && t.target16 0 * 25 / 4 == 2000
     | _ => false) = true := by decide +kernel

/-- R201, by hand: VIADD of 3 and 5 lands 8; before its landing the register is as it was. -/
theorem test_viadd : let s := running.modSpire 0 (fun p => { p with regs := { p.regs with vec := [(1, BitVec.ofNat 2048 3), (2, BitVec.ofNat 2048 5)], kmasks := [(0, 1#64)] } })
    (match exec (.viadd 0 { vins with fmt := .int, d := 4, a := 1, b := 2, c := 0, k := 0, n := 0, sig := none }) s with
     | .next t => (match exec (.instructionLanding 0 .quiet) t with | .next u => (u.spire 0).vreg 4 == BitVec.ofNat 2048 8 && (t.spire 0).vreg 4 == 0 | _ => false)
     | _ => false) = true := by decide +kernel


-- R242 with R81, R119: a remote request in cycle 5 of a local tile load's 32 costs the mover one cycle, one in cycle 32 none.
theorem test_port_m_lengthens :
    let p (c : Nat) : Spire := { readyS.spire 0 with cycle := c, landings := [{ lands with eng := 3, due := 36, mov := some (tileOp .load { tile with global := false }) }] }
    (p 5).takePort.mov.free = (p 5).mov.free + 1 ∧ (p 5).takePort.landings.map (fun l => l.due) = [37] ∧ (p 32).takePort = p 32 := by decide +kernel

/-! Witnesses of further clauses, and of the layouts on wires and flash. -/

def upSite : State := { site0 with regs := (withFlds site0 [(R.SEC_BOOT_STAT, F.SEC_BOOT_STAT_STAGE, 9)]).regs }
theorem wit_HostAccess_site : lsSite (lsBase 0) = some 0 ∧ upSite.wakeModule.hostMem (lsBase 0) = .ok ∧ inJournal (lsBase 0) = false ∧ lsBase 0 % 512 + 8 ≤ 512 ∧ (lsSite (lsBase 1023)).isSome = true ∧ readyS.wakeModule.hostMem (lsBase 1023) ≠ .ok := by decide +kernel

theorem wit_MemoryCommands_site : lsSite 0 = none ∧ lsSite 512 = none ∧ (readyS.setFld R.PWR_STATUS F.PWR_STATUS_STATE 1 |>.quiescent) = true ∧ touchesSite (lsBase 0) = true ∧ touchesSite 0 = false ∧ upSite.copyBad (lsBase 0) = 0 := by decide +kernel

theorem wit_BasinMedia_patrol : let s := nand [(0, full), (6248, full)]
    (s.block 0).data = true ∧ s.freeBlock 6249 = true ∧ s.bsn.blocks.map Prod.fst = [0, 6248] ∧ s.bsn.patrolled = [] ∧ (nand [(0, full)]).bsn.blocks.map Prod.fst = [0] := by decide +kernel

theorem wit_MarginAndTest_scan : readyS.scanActs .extestFamily = .bypass ∧ scanning.scanActs .extestFamily = .extestFamily ∧ opened.scanActs .nonPublic = .nonPublic ∧ readyS.scanActs .nonPublic = .bypass ∧ readyS.scanActs .idcode = .idcode := by decide +kernel

/-- Dome W with two live routers in one row and a failed one between them, and no other. -/
def parted : State := (List.range 8).foldl (fun s q => s.setReg (R.CNL_FAILED 0 q) (if q = 0 then 0xFFFFFFFFFFFFFFFA else 0xFFFFFFFFFFFFFFFF)) ((booting .up 5).setFld (R.CNL_STATUS 0) F.CNL_STATUS_FAILED 510)
theorem wit_BootAndInput_tables : parted.stage = 5 ∧ parted.pwr.booting = true ∧ parted.tablesOk = false ∧ (booting .up 5).tablesOk = true := by decide +kernel

/-- R306: two expanders of equal size are striped by 4 KiB pages, three are concatenated. -/
theorem test_far_place : let s := fun (l : List Nat) => ({ State.reset with far := { State.reset.far with sizes := l } } : State)
    (s [1024, 1024]).farPlace 0x100000001008 = (1, 8) ∧ (s [1024, 1024]).farPlace 0x100000002000 = (0, 4096) ∧ (s [1024, 1024, 2048]).farPlace 0x100040000008 = (1, 8) := by decide +kernel

/-- R529, R531: the parity page is the XOR of the others, and gives any of them back. -/
theorem test_parity : pageStripe [[1], [2], [7]] = [[1], [2], [7], [4]] ∧ [0, 1, 2, 3].all (fun i => rebuildPage (pageStripe [[1], [2], [7]]) i == (pageStripe [[1], [2], [7]]).getD i []) = true := by decide +kernel

/-- R530: the first and last unit of the journal and of the checkpoint area. -/
theorem test_areas : [16895, 16896, 16794111, 16794112, 976562499, 976562500].map areaOf = [some .healthB, some .journal, some .journal, some .checkpoint, some .checkpoint, none] := by decide +kernel

/-- R539: a full record is 1,025 units; a delta of 61 entries is one unit, of 62 two. -/
theorem test_record_units : let r : PRec := { rseq := 1, newest := 0, start := 0, full := false, orderly := false, ents := [], step := [], mir := [] }
    ({ r with full := true }.units, { r with ents := List.replicate 61 (0, jEntry) }.units, { r with ents := List.replicate 62 (0, jEntry) }.units) = (1025, 1, 2) := by decide +kernel

/-- R540: a load takes the newest full record that reads whole and what follows it up to the first gap or unreadable one. -/
theorem test_loadable : let r := fun (n : Nat) (f : Bool) => ({ rseq := n, newest := 0, start := 0, full := f, orderly := false, ents := [], step := [], mir := [] } : PRec)
    let log := [r 1 true, r 2 false, r 3 true, r 4 false, r 5 false, r 6 false]
    ((loadable log []).map PRec.rseq, (loadable log [5]).map PRec.rseq, (loadable log [3]).map PRec.rseq) = ([3, 4, 5, 6], [3, 4], [1, 2]) := by decide +kernel

/-- The CRC-16 of polynomial 0x1021 and initial value 0xFFFF over "123456789" is 0x29B1 in every table of check values. -/
theorem test_crc : crcBytes 0xFFFF ([0x31, 0x32, 0x33, 0x34, 0x35, 0x36, 0x37, 0x38, 0x39] : List Byte) = 0x29B1 := by decide +kernel

/-- R638: the IDCODE of Dome E differs from that of Dome W by 1 in the part number. -/
theorem test_idcode : (scanIdcode 0).toNat / 4096 % 65536 = 0x9600 ∧ (scanIdcode 1).toNat / 4096 % 65536 = 0x9601 := by
  have h : Config.jep106.toNat < 2048 := Config.jep106.isLt
  have e : ∀ d, d < 2 → (scanIdcode d).toNat / 4096 % 65536 = 0x9600 + d := by
    intro d hd
    unfold scanIdcode
    rw [BitVec.toNat_ofNat]
    generalize Config.stepping.toNat = a
    generalize Config.jep106.toNat = b at h
    omega
  exact ⟨e 0 (by decide), e 1 (by decide)⟩
end Sys2Proof.Tests
end

section
/-!
PROOFS of the family 00_scope: every step keeps the canonical form, what a register and the state after reset hold, and what the host reads and writes through H0.
-/
namespace Sys2Proof.Machine

open Sys2Proof

/-! ## Every command keeps the canonical form and the queue

`exec` has one arm for each constructor, and each arm's operation has its own preservation lemma under Sys2Proof/Laws/. -/

variable {w0 : List Instr} {s : State}

/-- On a state in canonical form, the next state of any command is in canonical form, with the queue unchanged. -/
theorem exec_outKeeps (h : Keeps w0 s) : ∀ c : Instr, OutKeeps w0 (exec c s)
  | .mma site ins => inv_execMma h site ins
  | .mmaSp site ins => inv_execMmaSp h site ins
  | .mmaDiag site ins => inv_execMmaDiag h site ins
  | .instructionLanding site u => inv_execInstructionLanding h site u
  | .vadd site ins => inv_execVadd h site ins
  | .vsub site ins => inv_execVsub h site ins
  | .vmul site ins => inv_execVmul h site ins
  | .vfma site ins => inv_execVfma h site ins
  | .vfms site ins => inv_execVfms h site ins
  | .vfnma site ins => inv_execVfnma h site ins
  | .vmax site ins => inv_execVmax h site ins
  | .vmin site ins => inv_execVmin h site ins
  | .vabs site ins => inv_execVabs h site ins
  | .vneg site ins => inv_execVneg h site ins
  | .vcpsgn site ins => inv_execVcpsgn h site ins
  | .vcmp site ins => inv_execVcmp h site ins
  | .vsel site ins => inv_execVsel h site ins
  | .viadd site ins => inv_execViadd h site ins
  | .visub site ins => inv_execVisub h site ins
  | .vimul site ins => inv_execVimul h site ins
  | .vand site ins => inv_execVand h site ins
  | .vor site ins => inv_execVor h site ins
  | .vxor site ins => inv_execVxor h site ins
  | .vnot site ins => inv_execVnot h site ins
  | .vshl site ins => inv_execVshl h site ins
  | .vshr site ins => inv_execVshr h site ins
  | .vsra site ins => inv_execVsra h site ins
  | .vimax site ins => inv_execVimax h site ins
  | .vimin site ins => inv_execVimin h site ins
  | .viota site ins => inv_execViota h site ins
  | .vlane site ins => inv_execVlane h site ins
  | .kand site ins => inv_execKand h site ins
  | .kor site ins => inv_execKor h site ins
  | .kxor site ins => inv_execKxor h site ins
  | .knot site ins => inv_execKnot h site ins
  | .vcvtw site ins => inv_execVcvtw h site ins
  | .vcvtn site ins => inv_execVcvtn h site ins
  | .vcvti site ins => inv_execVcvti h site ins
  | .vcvtf site ins => inv_execVcvtf h site ins
  | .vmxenc site ins => inv_execVmxenc h site ins
  | .vrsum site ins => inv_execVrsum h site ins
  | .vrmax site ins => inv_execVrmax h site ins
  | .vrmin site ins => inv_execVrmin h site ins
  | .vexp2 site ins => inv_execVexp2 h site ins
  | .vlog2 site ins => inv_execVlog2 h site ins
  | .vrcp site ins => inv_execVrcp h site ins
  | .vrsqrt site ins => inv_execVrsqrt h site ins
  | .vtanh site ins => inv_execVtanh h site ins
  | .vsigm site ins => inv_execVsigm h site ins
  | .vdiv site ins => inv_execVdiv h site ins
  | .vsqrt site ins => inv_execVsqrt h site ins
  | .vtr site ins => inv_execVtr h site ins
  | .vrt site ins => inv_execVrt h site ins
  | .vgather site ins => inv_execVgather h site ins
  | .vscatter site ins => inv_execVscatter h site ins
  | .vld site ins => inv_execVld h site ins
  | .vst site ins => inv_execVst h site ins
  | .tileLoad site ins => inv_execTileLoad h site ins
  | .tileLoadScale site ins => inv_execTileLoadScale h site ins
  | .transposedLoad site ins => inv_execTransposedLoad h site ins
  | .accumulatorLoad site ins => inv_execAccumulatorLoad h site ins
  | .tileStore site ins => inv_execTileStore h site ins
  | .tileStoreScale site ins => inv_execTileStoreScale h site ins
  | .accumulatorStore site ins => inv_execAccumulatorStore h site ins
  | .moverCopy site ins => inv_execMoverCopy h site ins
  | .prefetchHint site a n => inv_execPrefetchHint h site a n
  | .dload site d off => inv_execDload h site d off
  | .dstore site d off => inv_execDstore h site d off
  | .dcount site d k off => inv_execDcount h site d k off
  | .dset site d f x => inv_execDset h site d f x
  | .scalarArithmetic site op d a b => inv_execScalarArithmetic h site op d a b
  | .branch site c a b target => inv_execBranch h site c a b target
  | .syncBranch site e c target => inv_execSyncBranch h site e c target
  | .loopIterationIssue site e => inv_execLoopIterationIssue h site e
  | .syncFill site e c => inv_execSyncFill h site e c
  | .drain site e c => inv_execDrain h site e c
  | .add site e c n => inv_execAdd h site e c n
  | .dec site e c n => inv_execDec h site e c n
  | .waitf site e c => inv_execWaitf h site e c
  | .waite site e c => inv_execWaite h site e c
  | .waitge site e c n => inv_execWaitge h site e c n
  | .waitgeTake site e c n => inv_execWaitgeTake h site e c n
  | .sread site x c => inv_execSread h site x c
  | .barrive site e c => inv_execBarrive h site e c
  | .bwait site e c k => inv_execBwait h site e c k
  | .sig site e m l c op => inv_execSig h site e m l c op
  | .sigMc site e g op => inv_execSigMc h site e g op
  | .fence site e w sg a => inv_execFence h site e w sg a
  | .endStream site e => inv_execEndStream h site e
  | .engineIssueResume site e => inv_execEngineIssueResume h site e
  | .instructionFetchReturn site e n => inv_execInstructionFetchReturn h site e n
  | .globalRowArrival site seq row => inv_execGlobalRowArrival h site seq row
  | .moverAsyncLanding site seq => inv_execMoverAsyncLanding h site seq
  | .translationWalkComplete site seq barge => inv_execTranslationWalkComplete h site seq barge
  | .xltResolveTimeout w => inv_execXltResolveTimeout h w
  | .prefetchIssue site k => inv_execPrefetchIssue h site k
  | .prefetchArrival p => inv_execPrefetchArrival h p
  | .spireStart site => inv_execSpireStart h site
  | .spireFinished site => inv_execSpireFinished h site
  | .taskCompletion handle => inv_execTaskCompletion h handle
  | .taskWatchdogExpiry handle => inv_execTaskWatchdogExpiry h handle
  | .gapThresholdReached site c => inv_execGapThresholdReached h site c
  | .dutyDecrement site c => inv_execDutyDecrement h site c
  | .dutyIncrement site c => inv_execDutyIncrement h site c
  | .sparseIntervalEnd site c => inv_execSparseIntervalEnd h site c
  | .gapThreshWrite site v => inv_execGapThreshWrite h site v
  | .rsdInjectArm site v => inv_execRsdInjectArm h site v
  | .rngSeedWrite site v => inv_execRngSeedWrite h site v
  | .syncCellWrite site c v => inv_execSyncCellWrite h site c v
  | .holdLimWrite site v => inv_execHoldLimWrite h site v
  | .syncHoldLimitReached site c eng => inv_execSyncHoldLimitReached h site c eng
  | .remoteSignalArrival site p => inv_execRemoteSignalArrival h site p
  | .barrierArrival site p => inv_execBarrierArrival h site p
  | .barrierRelease site p => inv_execBarrierRelease h site p
  | .rd p => inv_execRd h p
  | .rdData p => inv_execRdData h p
  | .wr p => inv_execWr h p
  | .wrAck p => inv_execWrAck h p
  | .canalSig p => inv_execCanalSig h p
  | .canalSigAck p => inv_execCanalSigAck h p
  | .mc site w => inv_execMc h site w
  | .mcAck w => inv_execMcAck h w
  | .mcBranchTimeout site port => inv_execMcBranchTimeout h site port
  | .cfg p => inv_execCfg h p
  | .cfgRsp p => inv_execCfgRsp h p
  | .packetForward site out w => inv_execPacketForward h site out w
  | .creditReturn site port tc => inv_execCreditReturn h site port tc
  | .aqueductFlitReceive dir ch r => inv_execAqueductFlitReceive h dir ch r
  | .frameReceive n f => inv_execFrameReceive h n f
  | .linkRetryLimit n => inv_execLinkRetryLimit h n
  | .linkEnableWrite n on => inv_execLinkEnableWrite h n on
  | .linkRetrainRequest n => inv_execLinkRetrainRequest h n
  | .linkTrainingComplete n => inv_execLinkTrainingComplete h n
  | .linkAlignComplete n => inv_execLinkAlignComplete h n
  | .linkTrainTimeout n => inv_execLinkTrainTimeout h n
  | .linkAlignTimeout n => inv_execLinkAlignTimeout h n
  | .linkIdentTimeout n => inv_execLinkIdentTimeout h n
  | .linkRetrainTimeout n => inv_execLinkRetrainTimeout h n
  | .ident n p => inv_execIdent h n p
  | .linkSig n p => inv_execLinkSig h n p
  | .linkSigAck n p => inv_execLinkSigAck h n p
  | .hcp n p => inv_execHcp h n p
  | .hcpReply n p => inv_execHcpReply h n p
  | .streamOpen n p => inv_execStreamOpen h n p
  | .streamLanded n ctx => inv_execStreamLanded h n ctx
  | .streamAck n p => inv_execStreamAck h n p
  | .timePacket n p => inv_execTimePacket h n p
  | .timeExchangeTick => inv_execTimeExchangeTick h
  | .timebaseExchangeTimeout => inv_execTimebaseExchangeTimeout h
  | .phaseBoundary graph node => inv_execPhaseBoundary h graph node
  | .phaseShadowLoaded => inv_execPhaseShadowLoaded h
  | .phase n p => inv_execPhase h n p
  | .phaseHoldLimit => inv_execPhaseHoldLimit h
  | .bankSwap => inv_execBankSwap h
  | .stop n p => inv_execStop h n p
  | .stopTimeout => inv_execStopTimeout h
  | .mirrorChunkCopy c => inv_execMirrorChunkCopy h c
  | .mirrorEpochComplete => inv_execMirrorEpochComplete h
  | .mirrorCommit n p => inv_execMirrorCommit h n p
  | .mirrorAck n p => inv_execMirrorAck h n p
  | .collectiveStart q => inv_execCollectiveStart h q
  | .readyPoll q => inv_execReadyPoll h q
  | .bucketStart q => inv_execBucketStart h q
  | .coalesceTimeout q => inv_execCoalesceTimeout h q
  | .congestionWindow q => inv_execCongestionWindow h q
  | .collectivePieceArrival q m => inv_execCollectivePieceArrival h q m
  | .tokenCountArrival q m => inv_execTokenCountArrival h q m
  | .tokenPlacement q => inv_execTokenPlacement h q
  | .tokenReplyArrival q m => inv_execTokenReplyArrival h q m
  | .tokenPayloadStart q => inv_execTokenPayloadStart h q
  | .tokenPadding q e => inv_execTokenPadding h q e
  | .collectiveCompletion q => inv_execCollectiveCompletion h q
  | .collectiveStall q => inv_execCollectiveStall h q
  | .stageReadyPoll q => inv_execStageReadyPoll h q
  | .stageSlotArrival q => inv_execStageSlotArrival h q
  | .stageFreePoll q => inv_execStageFreePoll h q
  | .stageCreditArrival q => inv_execStageCreditArrival h q
  | .predicateEvaluation g k => inv_execPredicateEvaluation h g k
  | .epochCommitInstant k => inv_execEpochCommitInstant h k
  | .epochDrainComplete k => inv_execEpochDrainComplete h k
  | .epochStallLimit k => inv_execEpochStallLimit h k
  | .specCtlWrite v => inv_execSpecCtlWrite h v
  | .towerReadComplete t ch c source r => inv_execTowerReadComplete h t ch c source r
  | .towerRefresh t ch bank managed => inv_execTowerRefresh h t ch bank managed
  | .scrubPositionDue t flips => inv_execScrubPositionDue h t flips
  | .ceWindowStart t => inv_execCeWindowStart h t
  | .towerTemperatureRead t temp => inv_execTowerTemperatureRead h t temp
  | .channelHang t ch addr => inv_execChannelHang h t ch addr
  | .towerLogLowRead t n => inv_execTowerLogLowRead h t n
  | .marginTestStart t v => inv_execMarginTestStart h t v
  | .marginTestDone t errors => inv_execMarginTestDone h t errors
  | .farReadCompletion k poison => inv_execFarReadCompletion h k poison
  | .farRequestTimeout => inv_execFarRequestTimeout h
  | .farLinkLoss => inv_execFarLinkLoss h
  | .bar2Read o n => inv_execBar2Read h o n
  | .bar2Write o bs => inv_execBar2Write h o bs
  | .cxlMemAccess a n wr => inv_execCxlMemAccess h a n wr
  | .registerWrite off v => inv_execRegisterWrite h off v
  | .sqTailDoorbell q v => inv_execSqTailDoorbell h q v
  | .cqHeadDoorbell q v => inv_execCqHeadDoorbell h q v
  | .sqEnable q => inv_execSqEnable h q
  | .sqDisable q => inv_execSqDisable h q
  | .cqEnable q => inv_execCqEnable h q
  | .cqDisable q => inv_execCqDisable h q
  | .packetFetch q pkt => inv_execPacketFetch h q pkt
  | .delayedCommandStart => inv_execDelayedCommandStart h
  | .waitLimitExpiry id => inv_execWaitLimitExpiry h id
  | .msixCoalesceTimeout q => inv_execMsixCoalesceTimeout h q
  | .functionLevelReset => inv_execFunctionLevelReset h
  | .h0PerstNAssertion => inv_execH0PerstNAssertion h
  | .nop id => inv_execNop h id
  | .identify id => inv_execIdentify h id
  | .regRead id => inv_execRegRead h id
  | .regWrite id => inv_execRegWrite h id
  | .timeRead id => inv_execTimeRead h id
  | .copy id => inv_execCopy h id
  | .fill id => inv_execFill h id
  | .xltInvalidate id => inv_execXltInvalidate h id
  | .pageResolve id => inv_execPageResolve h id
  | .pageMigrate id => inv_execPageMigrate h id
  | .interleave id => inv_execInterleave h id
  | .retire id => inv_execRetire h id
  | .retireClear id => inv_execRetireClear h id
  | .programLoad id => inv_execProgramLoad h id
  | .programUnload id => inv_execProgramUnload h id
  | .launch id => inv_execLaunch h id
  | .graphSubmit id => inv_execGraphSubmit h id
  | .pause id => inv_execPause h id
  | .resume id => inv_execResume h id
  | .abort id => inv_execAbort h id
  | .epochOpen id => inv_execEpochOpen h id
  | .epochCommit id => inv_execEpochCommit h id
  | .epochDiscard id => inv_execEpochDiscard h id
  | .taskQuery id => inv_execTaskQuery h id
  | .podConfig id => inv_execPodConfig h id
  | .jobStart id r => inv_execJobStart h id r
  | .jobEnd id => inv_execJobEnd h id
  | .jobStop id => inv_execJobStop h id
  | .pair id r => inv_execPair h id r
  | .syncGroupsLoad id => inv_execSyncGroupsLoad h id
  | .canalGroupsLoad id => inv_execCanalGroupsLoad h id
  | .stageqLoad id bad => inv_execStageqLoad h id bad
  | .phaseListLoad id => inv_execPhaseListLoad h id
  | .collective id => inv_execCollective h id
  | .stepEnd id => inv_execStepEnd h id
  | .mirrorClose id => inv_execMirrorClose h id
  | .substitute id => inv_execSubstitute h id
  | .basinInfo id => inv_execBasinInfo h id
  | .ckptWrite id => inv_execCkptWrite h id
  | .ckptCaptureChunk => inv_execCkptCaptureChunk h
  | .ckptCaptureComplete => inv_execCkptCaptureComplete h
  | .ckptList id => inv_execCkptList h id
  | .ckptRestore id bad r => inv_execCkptRestore h id bad r
  | .ckptDelete id => inv_execCkptDelete h id
  | .errRead id => inv_execErrRead h id
  | .spireFence id => inv_execSpireFence h id
  | .funcReinit id => inv_execFuncReinit h id
  | .reinitLimitExpiry kind index => inv_execReinitLimitExpiry h kind index
  | .warmReset id => inv_execWarmReset h id
  | .warmResetComplete ins => inv_execWarmResetComplete h ins
  | .warmResetTimeout => inv_execWarmResetTimeout h
  | .powerCycle id => inv_execPowerCycle h id
  | .powerRemoval => inv_execPowerRemoval h
  | .powerRestore => inv_execPowerRestore h
  | .rollback id bad r spec => inv_execRollback h id bad r spec
  | .powerState id => inv_execPowerState h id
  | .powerCap id => inv_execPowerCap h id
  | .clockLimit id => inv_execClockLimit h id
  | .telemetry id => inv_execTelemetry h id
  | .secStatus id => inv_execSecStatus h id
  | .debugChallenge id => inv_execDebugChallenge h id
  | .debugUnlock id => inv_execDebugUnlock h id
  | .manufService id => inv_execManufService h id
  | .nonceExpiry => inv_execNonceExpiry h
  | .journalQuery id => inv_execJournalQuery h id
  | .journalMark id => inv_execJournalMark h id
  | .testMode id => inv_execTestMode h id
  | .selfTest id bad => inv_execSelfTest h id bad
  | .counterSnapshot id => inv_execCounterSnapshot h id
  | .mailboxSend agent c tag ptr => inv_execMailboxSend h agent c tag ptr
  | .mailboxReceive agent c => inv_execMailboxReceive h agent c
  | .partnerMessageLanded c => inv_execPartnerMessageLanded h c
  | .partnerCountReturned c => inv_execPartnerCountReturned h c
  | .journalPersist => inv_execJournalPersist h
  | .journalPersistComplete ok => inv_execJournalPersistComplete h ok
  | .patrolRead k weak => inv_execPatrolRead h k weak
  | .retentionRefresh k dst => inv_execRetentionRefresh h k dst
  | .readDisturbRelocate k dst => inv_execReadDisturbRelocate h k dst
  | .staticLevelling n dst => inv_execStaticLevelling h n dst
  | .basinCodewordRead k who r => inv_execBasinCodewordRead h k who r
  | .nandProgramFailure k dst journal => inv_execNandProgramFailure h k dst journal
  | .nandEraseFailure k => inv_execNandEraseFailure h k
  | .basinControllerTimeout => inv_execBasinControllerTimeout h
  | .sanitize => inv_execSanitize h
  | .inputLoss => inv_execInputLoss h
  | .lossPersistDone ok => inv_execLossPersistDone h ok
  | .powerUp straps => inv_execPowerUp h straps
  | .railFault n => inv_execRailFault h n
  | .powerSample dv ma mw rails => inv_execPowerSample h dv ma mw rails
  | .powerCapTick step hot => inv_execPowerCapTick h step hot
  | .capWindowEnd => inv_execCapWindowEnd h
  | .spireClockStep d pause => inv_execSpireClockStep h d pause
  | .clockUserLimitWrite d v => inv_execClockUserLimitWrite h d v
  | .thermalTick readings => inv_execThermalTick h readings
  | .thermalRecovery => inv_execThermalRecovery h
  | .quiescentWake => inv_execQuiescentWake h
  | .sidebandHeartbeatLoss => inv_execSidebandHeartbeatLoss h
  | .sidebandHeartbeat => inv_execSidebandHeartbeat h
  | .fwWatchdog core => inv_execFwWatchdog h core
  | .bootStageComplete ins => inv_execBootStageComplete h ins
  | .bootTimeout => inv_execBootTimeout h
  | .commitLk => inv_execCommitLk h
  | .commitLt => inv_execCommitLt h
  | .commitCfg => inv_execCommitCfg h
  | .spdmRequest responder r => inv_execSpdmRequest h responder r
  | .ideKm k => inv_execIdeKm h k
  | .ideIntegrityFailure => inv_execIdeIntegrityFailure h
  | .requestUpdate comp size => inv_execRequestUpdate h comp size
  | .requestFirmwareData off bs => inv_execRequestFirmwareData h off bs
  | .transferComplete => inv_execTransferComplete h
  | .activateFirmware => inv_execActivateFirmware h
  | .sensorRead id => inv_execSensorRead h id
  | .powerEffecterOn => inv_execPowerEffecterOn h
  | .powerEffecterOff => inv_execPowerEffecterOff h
  | .powerEffecterCycle => inv_execPowerEffecterCycle h
  | .capEffecter w => inv_execCapEffecter h w
  | .releaseOutOfService => inv_execReleaseOutOfService h
  | .podConfigurationRecord podId topo x y z => inv_execPodConfigurationRecord h podId topo x y z
  | .scanEnWrite on => inv_execScanEnWrite h on
  | .scanInstructionUpdate op => inv_execScanInstructionUpdate h op
  | .trstNAssertion => inv_execTrstNAssertion h
  | .pprStart v => inv_execPprStart h v
  | .linkPrbsCheck n v => inv_execLinkPrbsCheck h n v
  | .h1MarginCommand v => inv_execH1MarginCommand h v
  | .h0DwellEnd => inv_execH0DwellEnd h
  | .eyeMeasurement n lane v => inv_execEyeMeasurement h n lane v
  | .reinitComplete kind index ok => inv_execReinitComplete h kind index ok
  | .queueDmaError q => inv_execQueueDmaError h q
  | .frameSend n => inv_execFrameSend h n
  | .pairConfirmTimeout id => inv_execPairConfirmTimeout h id
  | .standbyExitTimeout => inv_execStandbyExitTimeout h
  | .clampSenseClosed => inv_execClampSenseClosed h
  | .vectorHoldRamp w => inv_execVectorHoldRamp h w
  | .lockkeeperSupplyLoss => inv_execLockkeeperSupplyLoss h
  | .h0LinkTrained width rate log2 => inv_execH0LinkTrained h width rate log2
  | .pprDone repaired spares => inv_execPprDone h repaired spares
  | .linkPrbsCheckDone n errors => inv_execLinkPrbsCheckDone h n errors
  | .h1MarginResponse r => inv_execH1MarginResponse h r
  | .sanitizeComplete => inv_execSanitizeComplete h
  | .svnProgrammingComplete typ => inv_execSvnProgrammingComplete h typ

/-- A state in canonical form, said as the laws pass it along, with its own queue. -/
theorem keeps_of_inForm (h : InForm s) : Keeps s.pending s := ⟨h.1, h.2, rfl⟩

/-- A command's next state has the queue of the state it ran on, and its registers and memory are in canonical form. -/
theorem exec_next_inForm {c : Instr} {t : State} (h : InForm s) (e : exec c s = .next t) : t.pending = s.pending ∧ InForm t :=
  have ⟨regs, mem, queue⟩ := exec_outKeeps (keeps_of_inForm h) c t e
  ⟨queue, regs, mem⟩

/-- Settles O3: on an empty queue only the time base moves; otherwise the front command runs on a state with the same registers and memory, and every command keeps the form. -/
theorem stepKeepsForm : Obligations.StepKeepsForm := by
  unfold Obligations.StepKeepsForm
  intro s t h e
  unfold step at e
  split at e
  case h_1 =>
    cases e
    exact h
  case h_2 c r _ =>
    have h' : InForm { s with pending := r } := h
    exact (exec_next_inForm h' e).2

/-! ## Registers of BAR0 -/

/-- A read of an offset without a register gives zero and leaves the state (R11). -/
theorem State.readReg_of_unassigned {off : Nat} (h : regAt off = none) : s.readReg off = (0, s) := by
  unfold State.readReg
  rw [h]

/-- A write to an offset without a register leaves the state (R11). -/
theorem State.writeReg_of_unassigned {off : Nat} (v m : Word) (h : regAt off = none) : s.writeReg off v m = s := by
  unfold State.writeReg
  rw [h]

/-- Outside the site windows and the queue registers, a write without an effect of its own stores what the access codes give (R9). -/
theorem State.writeReg_of_plain {off : Nat} {r : RegRow} {v m : Word} (h : regAt off = some r) (out : off < 0x100000 ∨ 0x800000 ≤ off)
    (plain : let m := if r.width = 32 then m &&& 0xFFFFFFFF else m; s.writeOther off (r.asked (s.reg off) v m) m = none) :
    s.writeReg off v m = s.setReg off (r.written (s.reg off) v (if r.width = 32 then m &&& 0xFFFFFFFF else m)) := by
  have site : (Nat.ble 0x400000 off && Nat.blt off 0x800000) = false := by simp; omega
  have hcp : (Nat.ble 0x100000 off && Nat.blt off 0x200000) = false := by simp; omega
  unfold State.writeReg
  simp only [h, site, hcp, Bool.false_and, Bool.false_eq_true, if_false, plain]

/-- Under a full mask, a register that is no record keeps its other bits, takes its writable ones, and clears those written 1 to clear (R9). -/
theorem RegRow.written_allOnes {r : RegRow} (old v : Word) (h : r.record = false) :
    r.written old v (BitVec.allOnes 64) = ((old &&& ~~~r.bits .rw) ||| (v &&& (r.bits .rw ||| r.bits .w1s))) &&& ~~~(v &&& r.bits .w1c) := by
  unfold RegRow.written
  simp only [h, Bool.false_and, Bool.false_eq_true, if_false, BitVec.and_allOnes, BitVec.and_or_distrib_left, BitVec.or_assoc]

/-- Settles O60: neither the read nor the write finds a row. -/
theorem unassignedOffsets : Obligations.UnassignedOffsets := by
  unfold Obligations.UnassignedOffsets
  intro s off v m h
  exact ⟨State.readReg_of_unassigned h, State.writeReg_of_unassigned v m h⟩

/-- Settles O6, by the read-after-write laws of the register table and of the fields of a word. -/
theorem registerReadAfterWrite : Obligations.RegisterReadAfterWrite := by
  unfold Obligations.RegisterReadAfterWrite
  exact ⟨fun _ o x v h => State.reg_setReg h o x v, fget_fset_same, fget_fset_above, fget_fset_below⟩

/-! ## Reset -/

/-- The field table of SEC_STATE gives SECURE_BOOT no reset value of 1: the fuse does (R626). -/
theorem regReset_secState_ne_one : (1 : Word) ≠ regReset R.SEC_STATE := by decide +kernel

/-- Settles O5: the one entry of the reset table is SEC_STATE, and its memory lists nothing. -/
theorem resetForm : Obligations.ResetForm := by
  unfold Obligations.ResetForm
  refine ⟨⟨?_, twf_nil _⟩, rfl, ?_, ?_, fun _ => rfl⟩
  · exact twf_cons.2 ⟨by simp [above], regReset_secState_ne_one, twf_nil _⟩
  · intro off h
    exact tget_tinsert_ne regReset [] 1 h
  · exact tget_tinsert_same regReset [] R.SEC_STATE 1

/-! ## The host's accesses to device memory -/

/-- The module as an access of the host finds it: woken where the address lies in a local store (R583). -/
def State.atHostPort (s : State) (a : Nat) : State := if (lsSite a).isSome then s.wakeModule else s

theorem State.atHostPort_of_none {a : Nat} (h : lsSite a = none) : s.atHostPort a = s := by simp [State.atHostPort, h]

theorem State.atHostPort_of_some {a site : Nat} (h : lsSite a = some site) : s.atHostPort a = s.wakeModule := by simp [State.atHostPort, h]

theorem State.reachAddr_of_none {a : Nat} (h : lsSite a = none) : s.reachAddr a = s := by simp [State.reachAddr, h]

theorem State.reachAddr_of_some {a site : Nat} (h : lsSite a = some site) : s.reachAddr a = s.reachSite site := by simp [State.reachAddr, h]

/-- The tower window lies below the local stores (R193). -/
theorem lsSite_of_isTower {a : Nat} (h : isTower a = true) : lsSite a = none := by
  have below : a < 0xC000000000 := by simpa [isTower, towerEnd] using h
  exact if_neg fun ⟨above, _⟩ => by omega

/-- An access within one barge is one request (R463). -/
theorem bargeParts_one {a n : Nat} (pos : 0 < n) (fits : a % 512 + n ≤ 512) : bargeParts (n / 512 + 2) a n = [(a, n)] := by
  have all : min n (512 - a % 512) = n := by omega
  simp [bargeParts, all, Nat.ne_of_gt pos]

section OneBarge
variable {a n : Nat} {bs : List Byte}

theorem State.hostRead_of_ok (pos : 0 < n) (fits : a % 512 + n ≤ 512) (ok : (s.atHostPort a).hostMem a = .ok) :
    s.hostRead a n = (((s.atHostPort a).reachAddr a).load a n, (s.atHostPort a).reachAddr a) := by
  unfold State.atHostPort at ok ⊢
  simp only [State.hostRead, bargeParts_one pos fits, List.foldl_cons, List.foldl_nil, ok, List.nil_append]

theorem State.hostRead_of_not_ok (pos : 0 < n) (fits : a % 512 + n ≤ 512) (bad : (s.atHostPort a).hostMem a ≠ .ok) :
    s.hostRead a n = (List.replicate n 0, (s.atHostPort a).hostCount ((s.atHostPort a).hostMem a)) := by
  unfold State.atHostPort at bad ⊢
  simp only [State.hostRead, bargeParts_one pos fits, List.foldl_cons, List.foldl_nil, List.nil_append]

theorem State.hostWrite_of_ok (pos : 0 < bs.length) (fits : a % 512 + bs.length ≤ 512) (ok : (s.atHostPort a).hostMem a = .ok) :
    s.hostWrite a bs = if inJournal a then s.atHostPort a else ((s.atHostPort a).reachAddr a).store a bs := by
  unfold State.atHostPort at ok ⊢
  simp only [State.hostWrite, bargeParts_one pos fits, List.foldl_cons, List.foldl_nil, ok, List.take_length]

theorem State.hostWrite_of_not_ok (pos : 0 < bs.length) (fits : a % 512 + bs.length ≤ 512) (bad : (s.atHostPort a).hostMem a ≠ .ok) :
    s.hostWrite a bs = (s.atHostPort a).hostCount ((s.atHostPort a).hostMem a) := by
  unfold State.atHostPort at bad ⊢
  simp only [State.hostWrite, bargeParts_one pos fits, List.foldl_cons, List.foldl_nil]

end OneBarge

/-- Where neither the mirror nor a capture still has chunks to read, a store writes its bytes and changes no register (R376, R535). -/
theorem State.readFirst_of_none_held {a n : Nat} (mir : s.mirror.c = []) (cap : s.bsn.capture = none) : s.readFirst a n = s := by
  simp [State.readFirst, State.heldChunks, mir, cap]

theorem State.store_regs_of_none_held {a : Nat} {bs : List Byte} (mir : s.mirror.c = []) (cap : s.bsn.capture = none) : (s.store a bs).regs = s.regs := by
  simp only [State.store, State.readFirst_of_none_held mir cap]

theorem State.readByte_store_of_none_held {a : Nat} {bs : List Byte} (h : InForm s) (mir : s.mirror.c = []) (cap : s.bsn.capture = none) (x : Nat) :
    Memory.readByte (s.store a bs).mem x = if a ≤ x ∧ x < a + bs.length then bs.getD (x - a) 0#8 else Memory.readByte s.mem x := by
  simp only [State.store, State.readFirst_of_none_held mir cap]
  exact Memory.readByte_writeBytes h.2 a x bs

/-! ## The rows of port H0 -/

/-- A read through H0 answers what the host reads. -/
def State.answered (s : State) (a n : Nat) : State :=
  { (s.hostRead a n).2 with answers := (s.hostRead a n).2.answers ++ [.mem a (s.hostRead a n).1] }

theorem State.portRead_of_open {a n : Nat} (shut : s.bar2Shut = false) : s.portRead a n = s.answered a n := by
  simp [State.portRead, shut, State.answered]

theorem State.portWrite_of_open {a : Nat} {bs : List Byte} (shut : s.bar2Shut = false) : s.portWrite a bs = s.hostWrite a bs := by
  simp [State.portWrite, shut]

theorem State.answered_of_ok {a n : Nat} (pos : 0 < n) (fits : a % 512 + n ≤ 512) (ok : (s.atHostPort a).hostMem a = .ok) :
    s.answered a n = { (s.atHostPort a).reachAddr a with
      answers := ((s.atHostPort a).reachAddr a).answers ++ [.mem a (((s.atHostPort a).reachAddr a).load a n)] } := by
  rw [State.answered, State.hostRead_of_ok pos fits ok]

theorem State.answered_of_not_ok {a n : Nat} (pos : 0 < n) (fits : a % 512 + n ≤ 512) (bad : (s.atHostPort a).hostMem a ≠ .ok) :
    s.answered a n = { (s.atHostPort a).hostCount ((s.atHostPort a).hostMem a) with
      answers := ((s.atHostPort a).hostCount ((s.atHostPort a).hostMem a)).answers ++ [.mem a (List.replicate n 0)] } := by
  rw [State.answered, State.hostRead_of_not_ok pos fits bad]

section Port
variable (down : s.h0Down = false) (shut : s.bar2Shut = false)
include down shut

/-- BAR2_READ inside the BAR (R463). -/
theorem exec_bar2Read_of_open {o n : Nat} (inBar : s.inBar2 o = true) : exec (.bar2Read o n) s = .next (s.answered (s.bar2Addr o) n) := by
  rw [← State.portRead_of_open shut]
  change execBar2Read o n s = _
  simp [execBar2Read, down, inBar]

/-- BAR2_WRITE inside the BAR (R463). -/
theorem exec_bar2Write_of_open {o : Nat} {bs : List Byte} (inBar : s.inBar2 o = true) :
    exec (.bar2Write o bs) s = .next (s.hostWrite (s.bar2Addr o) bs) := by
  rw [← State.portWrite_of_open shut]
  change execBar2Write o bs s = _
  simp [execBar2Write, down, inBar]

/-- A CXL read at a tower address in CXL mode (R461). -/
theorem exec_cxlMemAccess_read_of_open {a n : Nat} (tower : isTower a = true) (cxl : s.fld R.HCP_H0_STAT F.HCP_H0_STAT_CXL ≠ 0) :
    exec (.cxlMemAccess a n none) s = .next (s.answered a n) := by
  rw [← State.portRead_of_open shut]
  change execCxlMemAccess a n none s = _
  simp [execCxlMemAccess, down, tower, cxl]

/-- A CXL write at a tower address in CXL mode (R461). -/
theorem exec_cxlMemAccess_write_of_open {a n : Nat} {bs : List Byte} (tower : isTower a = true) (cxl : s.fld R.HCP_H0_STAT F.HCP_H0_STAT_CXL ≠ 0) :
    exec (.cxlMemAccess a n (some bs)) s = .next (s.hostWrite a bs) := by
  rw [← State.portWrite_of_open shut]
  change execCxlMemAccess a n (some bs) s = _
  simp [execCxlMemAccess, down, tower, cxl]

end Port

/-- Outside CXL mode a CXL access has no effect (R461). -/
theorem exec_cxlMemAccess_of_not_cxl {a n : Nat} {w : Option (List Byte)} (cxl : s.fld R.HCP_H0_STAT F.HCP_H0_STAT_CXL = 0) :
    exec (.cxlMemAccess a n w) s = .next s := by
  change execCxlMemAccess a n w s = _
  simp [execCxlMemAccess, cxl]

/-- REGISTER_WRITE outside the site windows writes the register on the state as it is: nothing is woken (R583). -/
theorem exec_registerWrite_of_may {off : Nat} {v : Word} (may : s.hostMayWrite off = true) (out : off < 0x400000 ∨ 0x800000 ≤ off) :
    exec (.registerWrite off v) s = .next (s.writeReg off v (BitVec.allOnes 64)) := by
  have site : ¬(0x400000 ≤ off ∧ off < 0x800000) := by omega
  change execRegisterWrite off v s = _
  simp [execRegisterWrite, may, site]

/-- A write to tower memory within a barge is stored, and one to the journal's region discarded (R463, R517). -/
theorem State.hostWrite_of_tower {a : Nat} {bs : List Byte} (pos : 0 < bs.length) (fits : a % 512 + bs.length ≤ 512) (ok : s.hostMem a = .ok) (tower : isTower a = true) :
    s.hostWrite a bs = if inJournal a then s else s.store a bs := by
  have away := lsSite_of_isTower tower
  rw [State.hostWrite_of_ok pos fits (by rwa [State.atHostPort_of_none away]), State.atHostPort_of_none away, State.reachAddr_of_none away]

/-- What a read answers away from the local stores. -/
theorem State.answered_away_of_ok {a n : Nat} (pos : 0 < n) (fits : a % 512 + n ≤ 512) (away : lsSite a = none) (ok : s.hostMem a = .ok) :
    s.answered a n = { s with answers := s.answers ++ [.mem a (s.load a n)] } := by
  rw [State.answered_of_ok pos fits (by rwa [State.atHostPort_of_none away]), State.atHostPort_of_none away, State.reachAddr_of_none away]

theorem State.answered_away_of_not_ok {a n : Nat} {x : HostMem} (pos : 0 < n) (fits : a % 512 + n ≤ 512) (away : lsSite a = none) (e : s.hostMem a = x) (bad : x ≠ .ok) :
    s.answered a n = { s.hostCount x with answers := (s.hostCount x).answers ++ [.mem a (List.replicate n 0)] } := by
  subst e
  rw [State.answered_of_not_ok pos fits (by rwa [State.atHostPort_of_none away]), State.atHostPort_of_none away]

/-- BAR2_READ of an address away from the local stores where no byte answers: zeros, and the count of the reason (R303, R463). -/
theorem exec_bar2Read_away_of_not_ok {o n : Nat} {x : HostMem} (down : s.h0Down = false) (shut : s.bar2Shut = false) (inBar : s.inBar2 o = true) (bad : x ≠ .ok)
    (one : 0 < n ∧ s.bar2Addr o % 512 + n ≤ 512) (e : s.hostMem (s.bar2Addr o) = x) (away : lsSite (s.bar2Addr o) = none) :
    exec (.bar2Read o n) s = .next { s.hostCount x with answers := (s.hostCount x).answers ++ [.mem (s.bar2Addr o) (List.replicate n 0)] } := by
  rw [exec_bar2Read_of_open down shut inBar, State.answered_away_of_not_ok one.1 one.2 away e bad]

/-- REGISTER_WRITE of a plain register: nothing but that register changes. -/
theorem exec_registerWrite_of_plain {off : Nat} {v : Word} {r : RegRow} (h : InForm s) (may : s.hostMayWrite off = true) (at_ : regAt off = some r)
    (out : off < 0x100000 ∨ 0x800000 ≤ off)
    (plain : let m := if r.width = 32 then 0xFFFFFFFF#64 else BitVec.allOnes 64; s.writeOther off (r.asked (s.reg off) v m) m = none) :
    ∃ t : State, exec (.registerWrite off v) s = .next t ∧ t.mem = s.mem ∧ t.hcp = s.hcp ∧ (∀ o, o ≠ off → t.reg o = s.reg o) ∧
      (r.width = 64 → r.record = false → t.reg off = ((s.reg off &&& ~~~r.bits .rw) ||| (v &&& (r.bits .rw ||| r.bits .w1s))) &&& ~~~(v &&& r.bits .w1c)) := by
  rw [exec_registerWrite_of_may may (by omega), State.writeReg_of_plain at_ out plain]
  refine ⟨_, rfl, rfl, rfl, fun o ne => State.reg_setReg_ne h _ ne, fun wide single => ?_⟩
  rw [State.reg_setReg_same h, if_neg (by omega), RegRow.written_allOnes _ _ single]

/-- Settles O41: each row of H0 is one access within a barge, and what `hostMem` says of its address decides it. -/
theorem hostAccess : Obligations.HostAccess := by
  unfold Obligations.HostAccess
  refine ⟨?bar2, ?cxl, ?registers⟩
  case bar2 =>
    intro s o n bs down inBar shut
    have read := exec_bar2Read_of_open down shut (n := n) inBar
    have write := exec_bar2Write_of_open down shut (bs := bs) inBar
    have counted {x : HostMem} (bad : x ≠ .ok) := exec_bar2Read_away_of_not_ok (n := n) down shut inBar bad
    refine ⟨?_, counted (x := .noTarget) (by decide), counted (x := .retired) (by decide), counted (x := .shadow) (by decide), ?_, ?_, ?_⟩
    · intro ⟨pos, fits⟩ ok away
      rw [read, State.answered_away_of_ok pos fits away ok]
    · intro ⟨pos, fits⟩ ok tower form mir cap
      rw [write, State.hostWrite_of_tower pos fits ok tower]
      constructor
      · intro free
        rw [free]
        exact ⟨_, rfl, State.store_regs_of_none_held mir cap, State.readByte_store_of_none_held form mir cap⟩
      · intro journal
        rw [journal, if_pos rfl]
    · intro ⟨pos, fits⟩ gone away
      rw [write, State.hostWrite_of_not_ok pos fits (by rw [State.atHostPort_of_none away, gone]; decide), State.atHostPort_of_none away, gone]
      rfl
    · intro site at_
      have woken : s.atHostPort (s.bar2Addr o) = s.wakeModule := State.atHostPort_of_some at_
      refine ⟨?_, ?_, ?_, ?_⟩
      · intro ⟨pos, fits⟩ ok
        rw [read, State.answered_of_ok pos fits (by rwa [woken]), woken, State.reachAddr_of_some at_]
      · intro ⟨pos, fits⟩ bad
        rw [read, State.answered_of_not_ok pos fits (by rwa [woken]), woken]
      · intro ⟨pos, fits⟩ ok free
        rw [write, State.hostWrite_of_ok pos fits (by rwa [woken]), woken, State.reachAddr_of_some at_, free]
        rfl
      · intro ⟨pos, fits⟩ bad
        rw [write, State.hostWrite_of_not_ok pos fits (by rwa [woken]), woken]
  case cxl =>
    intro s a n bs down shut tower
    refine ⟨fun off _ => exec_cxlMemAccess_of_not_cxl off, fun cxl ok => ⟨?_, ?_⟩⟩
    · intro pos fits
      rw [exec_cxlMemAccess_read_of_open down shut tower cxl, State.answered_away_of_ok pos fits (lsSite_of_isTower tower) ok]
    · intro pos fits free
      rw [exec_cxlMemAccess_write_of_open down shut tower cxl, State.hostWrite_of_tower pos fits ok tower, free]
      rfl
  case registers =>
    intro s off v form may
    refine ⟨?_, fun r at_ out plain => exec_registerWrite_of_plain form may at_ out plain⟩
    intro unassigned out
    rw [exec_registerWrite_of_may may out, State.writeReg_of_unassigned v _ unassigned]

end Sys2Proof.Machine
end

section
/-!
Number formats: the vector engine's conversions (O10), the issue of an array instruction (O13), the writes to a spire's registers that act at once (O21).
-/
namespace Sys2Proof.Machine

open Sys2Proof

variable {s : State}

/-! ## Conversions of the vector engine -/

/-- Counting a vector instruction changes no other register, so what it selects for rounding is as before (R55, R213). -/
theorem selects_vecIssued (h : InForm s) (site : Nat) (g : Option AttSig) (x : Effect) (r : Rnd) : (vecIssued s site g x).selects site r = s.selects site r := by
  have other : R.SPR_NUMCTL site ≠ R.SPR_VEC_ISSUE site := by simp only [R.SPR_NUMCTL, R.SPR_VEC_ISSUE]; omega
  have numctl : (vecIssued s site g x).reg (R.SPR_NUMCTL site) = s.reg (R.SPR_NUMCTL site) := by
    unfold vecIssued
    rw [State.reg_bump (s := s.setSpire site _) h, if_neg other, State.reg_setSpire]
  cases r <;> simp only [State.selects, State.fld, numctl]

theorem vec_qpos_vecIssued (s : State) (site : Nat) (g : Option AttSig) (x : Effect) : ((vecIssued s site g x).spire site).vec.qpos = (s.spire site).vec.qpos + 1 := by
  unfold vecIssued
  rw [spire_bump, spire_setSpire]
  exact qpos_issuedSpire s site .vector g x

/-- A vector instruction that may draw issues, then its lanes draw (R57, R200). -/
theorem drawIssue_at {site : Nat} {g : Option AttSig} {r : Rnd} {per : Nat} {f : State → List (Option Nat) → Except (Nat × Nat) Effect} {x : Effect}
    (form : InForm s) (h : AtIssue s site .vector) (hg : SignalOk s site .vector g) (hf : f s (s.draws site (s.selects site r) per).1 = .ok x) :
    s.drawIssue site g (fun s => s.selects site r) per f = ((vecIssued s site g x).draws site (s.selects site r) per).2 := by
  have issues : s.vecIssue site g (fun s => f s (s.draws site (s.selects site r) per).1) = vecIssued s site g x := vecIssue_at h hg hf
  unfold State.drawIssue
  simp only [ready_of_takes h.1, issues, selects_vecIssued form]
  rw [if_neg (by rw [vec_qpos_vecIssued]; omega)]

/-- Settles O10: with its checks passed each conversion has the effect stated, and `vecIssue_at` or `drawIssue_at` says what is left when that effect issues. -/
theorem vectorConvert : Obligations.VectorConvert := by
  unfold Obligations.VectorConvert
  intro s site form here
  refine ⟨fun i sig ok => ?integers, fun i sig mask => ⟨?widenReg, ?widenRow, ?narrow, ?encode⟩⟩
  case integers =>
    exact ⟨congrArg Host.Outcome.next (vecIssue_at here sig (if_pos ok)), congrArg Host.Outcome.next (vecIssue_at here sig (if_pos ok))⟩
  case widenReg =>
    intro d v dst src hd hv half wide plain
    refine congrArg Host.Outcome.next (vecIssue_at here sig ?_)
    simp only [dst, src]
    exact (if_neg (by simp [hd, hv, mask, half])).trans (if_neg (by simp [wide, plain]))
  case widenRow =>
    intro d t r off g n scaled cls dst src hd ht hr tag wide seg
    refine congrArg Host.Outcome.next (vecIssue_at here sig ?_)
    simp only [dst, src, tag, if_neg wide]
    exact (if_neg (by simp [hd, ht, hr, mask])).trans (if_neg (by simp [seg]))
  case narrow =>
    intro sf n w v info src hv fp32 same mx
    have read : (Nat.blt v 32 && Nat.blt i.k 8 && (elemFmt i.elem).width != 32 && elemFmt i.elem != sf && !i.elem.isMx) ≠ false := by simp [hv, mask, fp32, same, mx]
    refine ⟨?toReg, ?toRow⟩
    case toReg =>
      intro d dst hd
      refine congrArg Host.Outcome.next (drawIssue_at form here sig ?_)
      simp only [dst, src, info, if_pos hd]
      exact if_neg read
    case toRow =>
      intro t r off dst ht hr seg tag
      refine congrArg Host.Outcome.next (drawIssue_at form here sig ?_)
      simp only [dst, src, info, if_neg (Nat.not_le.mpr tag)]
      exact (if_neg read).trans (if_neg (by simp [ht, hr, seg]))
  case encode =>
    intro t r off v g n cls dst src hv ht hr info seg
    refine congrArg Host.Outcome.next (drawIssue_at form here sig ?_)
    simp only [dst, src, info]
    exact if_neg (by simp [hv, mask, ht, hr, seg])

/-! ## The issue of an array instruction -/

/-- An MMA of one FP32 block on which the two zero-block detectors disagree (R159). -/
def disputedMma : ArrIns :=
  { ctx := none, ac := 0, ta := 0, ta2 := 1, tb := 2, tb2 := 3, accumulate := false, window := 0, tm := 0, slot := 0, p416 := false, half := 0, desc := none, sig := none, disagree := [0] }

/-- The task of site 0, none of whose detectors has disagreed yet. -/
def undisputedTask : Task :=
  { handle := 1, gang := [0], cmd := none, node := none, start := 0, limit := 1, program := 0, epoch := 0, fault := none, finished := [], update := 0, nreq := 0, frozen := 0, started := true,
    abortCmds := [], pauseCmds := [] }

/-- Site 0 runs a task with its array free, every error record is an event (R549), and module-wide events go to completion queue 0, which lies in device memory at address 0 (R468, R476, R500). -/
def eventsToDevice : State :=
  let s := (State.reset.setFld (R.SPR_STATUS 0) F.SPR_STATUS_STATE 1).setFld R.ERR_CTL F.ERR_CTL_EVT_CLASS 0
  let s := (s.setFld R.HCP_CTL F.HCP_CTL_EVT_EN 1).setFld (R.HCP_Q_CFG 0) F.HCP_Q_CFG_CQ_EN 1
  let s := (s.setFld (R.HCP_CQ_BASE 0) F.HCP_CQ_BASE_LOC 1).setTask undisputedTask
  s.modSpire 0 (fun p => { p with mat := { p.mat with st := .run, queue := 1 } })

/-- Device memory after a command. -/
def memAfter (o : Host.Outcome State Fault Refusal) : Memory := match o with | .next u => u.mem | _ => []

/-- The disagreement is the task's first, so Lantern writes an error record (R159); the record's event is an entry of the completion queue, and its bytes are in device memory. -/
theorem disputedMma_writes_memory : memAfter (exec (.mma 0 disputedMma) eventsToDevice) ≠ eventsToDevice.mem := by decide +kernel

/-- Refutes O13: memory is not unchanged where the detectors disagree on a block and the event of the record that follows goes to a completion queue in device memory. -/
theorem not_matrixIssue : ¬ Obligations.MatrixIssue := by
  unfold Obligations.MatrixIssue
  intro h
  have here : AtArray eventsToDevice 0 disputedMma := by decide +kernel
  have signal : SignalOk eventsToDevice 0 .matrix disputedMma.sig := ⟨rfl, rfl⟩
  have tags : eventsToDevice.arrCheck 0 .mma disputedMma = .ok .wide := by rfl
  obtain ⟨u, l, issues, -, -, -, -, -, -, -, -, -, -, -, -, -, mem, -⟩ := h eventsToDevice 0 .mma (.mma 0 disputedMma) disputedMma .wide (.inl ⟨rfl, rfl⟩) here signal trivial tags
  refine disputedMma_writes_memory ?_
  rw [issues]
  exact mem

/-! ## Writes to a spire's registers -/

theorem tget_range' {α : Type} (d g : Nat → α) {n a l : Nat} (lo : a ≤ l) (hi : l < a + n) : tget d ((List.range' a n).map (fun i => (i, g i))) l = g l := by
  induction n generalizing a with
  | zero => omega
  | succ n ih =>
    simp only [List.range'_succ, List.map_cons, tget]
    split
    · subst a
      rfl
    · rw [if_neg (by omega)]
      exact ih (by omega) (by omega)

/-- Reading a table that lists the first `n` keys in order. -/
theorem tget_range {α : Type} (d g : Nat → α) {n l : Nat} (h : l < n) : tget d ((List.range n).map (fun i => (i, g i))) l = g l := by
  rw [List.range_eq_range']
  exact tget_range' d g (Nat.zero_le l) (by omega)

/-- No lane is seeded with 0 (R57). -/
theorem seedOf_ne_zero (seed : Word) (logical lane : Nat) : seedOf seed logical lane ≠ 0 := by
  unfold seedOf
  simp only
  split
  · decide
  · assumption

/-- After seeding, each of the 64 lanes holds its own seed (R57). -/
theorem rngOf_seedLanes (s : State) (site : Nat) {l : Nat} (h : l < 64) : ((s.seedLanes site).spire site).rngOf l = seedOf (s.reg (R.SPR_RNG_SEED site)) (s.logical site) l := by
  have nonzero : ∀ x ∈ (List.range 64).map (fun i => (i, seedOf (s.reg (R.SPR_RNG_SEED site)) (s.logical site) i)), (x.2 != 0) = true := by
    intro x hx
    obtain ⟨i, -, rfl⟩ := List.mem_map.mp hx
    exact bne_iff_ne.mpr (seedOf_ne_zero _ _ i)
  simp only [State.seedLanes, State.modRegs, spire_modSpire, Spire.rngOf, List.filter_eq_self.mpr nonzero]
  exact tget_range _ _ h

/-- Storing a seed leaves the number the lanes are seeded with. -/
theorem logical_setReg_seed (h : InForm s) (site : Nat) (v : Word) : (s.setReg (R.SPR_RNG_SEED site) v).logical site = s.logical site := by
  have other : R.SPR_MAP site ≠ R.SPR_RNG_SEED site := by simp only [R.SPR_MAP, R.SPR_RNG_SEED]; omega
  simp only [State.logical, State.fld, State.reg_setReg_ne h v other]

/-- The hold limit is no clock register, so a write of it leaves the time a spire has reached. -/
theorem spireNs_setReg_holdLim (h : InForm s) (site : Nat) (v : Word) : (s.setReg (R.SPR_SYNC_HOLD_LIM site) v).spireNs site = s.spireNs site := by
  have west : R.CLK_SPIRE_W ≠ R.SPR_SYNC_HOLD_LIM site := by simp only [R.CLK_SPIRE_W, R.SPR_SYNC_HOLD_LIM]; omega
  have east : R.CLK_SPIRE_E ≠ R.SPR_SYNC_HOLD_LIM site := by simp only [R.CLK_SPIRE_E, R.SPR_SYNC_HOLD_LIM]; omega
  have step : (s.setReg (R.SPR_SYNC_HOLD_LIM site) v).clockStep site = s.clockStep site := by
    simp only [State.clockStep, State.fld, State.reg_setReg_ne h v west, State.reg_setReg_ne h v east]
  simp only [State.spireNs, State.nsOf, step]
  rfl

/-- A limit of 0, or one that no hold has lasted, is stored and nothing else (R234). -/
theorem writeHoldLim_of_none_reached (h : InForm s) (site v : Nat)
    (short : v % 2 ^ 32 = 0 ∨ (s.spire site).holds.all (fun h => h.reached || Nat.blt (s.spireNs site) (h.since + v % 2 ^ 32)) = true) :
    s.writeHoldLim site v = s.setReg (R.SPR_SYNC_HOLD_LIM site) (BitVec.ofNat 64 (v % 2 ^ 32)) := by
  unfold State.writeHoldLim
  by_cases zero : v % 2 ^ 32 = 0
  · exact if_pos zero
  · have none_ : (s.spire site).holds.filter (fun h => !h.reached && Nat.ble (h.since + v % 2 ^ 32) (s.spireNs site)) = [] := by
      refine List.filter_eq_nil_iff.mpr fun x hx => ?_
      have kept := List.all_eq_true.mp (short.resolve_left zero) x hx
      cases reached : x.reached
      · simpa [reached] using kept
      · simp
    have holds : ((s.setReg (R.SPR_SYNC_HOLD_LIM site) (BitVec.ofNat 64 (v % 2 ^ 32))).spire site).holds = (s.spire site).holds := rfl
    simp only [if_neg zero, spireNs_setReg_holdLim h, holds, none_, List.foldl_nil]

/-- The update that a host's write of a cell makes, in cycle `t` (R221). -/
def hostUpd (c : Nat) (v : Word) (t : Nat) : CellUpd := { due := t, cell := c, op := .host v, eng := 5, qpos := 0, remote := false, omod := 0, ospire := 0 }

theorem exec_syncCellWrite_of_lt {c : Nat} (site : Nat) (v : Word) (lt : c < 48) : exec (.syncCellWrite site c v) s = .next (s.cellReached site (hostUpd c v)) :=
  congrArg Host.Outcome.next (if_pos lt)

/-- A cycle whose one update is a host's write stores the word in its cell's form (R215, R219). -/
theorem applyCycle_hostUpd (s : State) (site c t : Nat) (v : Word) : s.applyCycle site t [hostUpd c v t] = s.setCell site c v := by
  simp [State.applyCycle, State.applyAdds, State.applyUpd, hostUpd, updRank, sortOn, putOn]

/-- In a spire with nothing under way a host's write of a cell is that cell's new word and a cycle of the clock (R221). -/
theorem cellReached_hostUpd_quiet {site : Nat} (quiet : Quiet (s.spire site)) (c : Nat) (v : Word) :
    s.cellReached site (hostUpd c v) = ((s.setSpire site ((s.spire site).stand (s.arriveAt site))).setCell site c v).setSpire site ((s.spire site).stand (s.arriveAt site + 1)) := by
  have acts := applyCycle_hostUpd (s.setSpire site ((s.spire site).stand (s.arriveAt site))) site c (s.arriveAt site) v
  rw [cellReached_quiet quiet rfl (by rw [acts]; exact spire_setSpire ..), acts]

theorem arriveAt_ge_cycle (s : State) (site : Nat) : (s.spire site).cycle ≤ s.arriveAt site := Nat.le_max_left _ _

/-- Settles O21: each write has a lemma of its own above; the running cell and the reached hold are the model's own branches. -/
theorem spireRegisterRows : Obligations.SpireRegisterRows := by
  unfold Obligations.SpireRegisterRows
  intro s site form
  refine ⟨?seed, ?armed, ?locked, ?quietCell, ?runningCell, ?limit, ?reached⟩
  case seed =>
    intro v
    have stored := State.reg_setReg_same form (R.SPR_RNG_SEED site) v
    refine ⟨s.writeSeed site v, rfl, stored, fun l lane => ?_, fun x other => State.reg_setReg_ne form v other, rfl⟩
    exact (rngOf_seedLanes _ site lane).trans (by rw [stored, logical_setReg_seed form])
  case armed =>
    intro v e opened arm engine array
    have arms : s.armInject site v = s.modSpire site (fun p => { p with inject := some e }) := by
      unfold State.armInject
      rw [if_neg (by rw [opened]; decide), engine, if_pos ⟨arm, array⟩]
    exact ⟨_, congrArg Host.Outcome.next arms, by rw [spire_modSpire], rfl, rfl⟩
  case locked =>
    exact fun v shut => congrArg Host.Outcome.next (if_pos shut)
  case quietCell =>
    intro c v lt quiet
    refine ⟨_, (exec_syncCellWrite_of_lt site v lt).trans (congrArg Host.Outcome.next (cellReached_hostUpd_quiet quiet c v)), ?_, ?_, ?_, rfl⟩
    · exact State.reg_setReg_same (s := s.setSpire site _) form _ _
    · rw [spire_setSpire]
      exact Nat.max_eq_left (Nat.le_succ_of_le (arriveAt_ge_cycle s site))
    · exact fun x other => State.reg_setReg_ne (s := s.setSpire site _) form _ other
  case runningCell =>
    intro c v lt t u w runs
    exact (exec_syncCellWrite_of_lt site v lt).trans (congrArg Host.Outcome.next (if_pos runs))
  case limit =>
    exact fun v short => congrArg Host.Outcome.next (writeHoldLim_of_none_reached form site v short)
  case reached =>
    intro c eng h held lim
    change execSyncHoldLimitReached site c eng s = _
    simp only [execSyncHoldLimitReached, held, if_neg lim]

end Sys2Proof.Machine
end

section
/-!
PROOFS of the family 04_tiles_and_array: how a looped instruction starts (O15), and what the events of holding the array's current do to a context (O20).
-/
namespace Sys2Proof.Machine

open Sys2Proof

variable {s : State}

/-! ## The start of a looped instruction -/

/-- The descriptor takes its advance, under what a landing of this cycle has written (R190, R191). -/
def State.descAdvanced (s : State) (site k : Nat) (d : BitVec 2048) (ss : Slots) : State :=
  s.modRegs site (fun r => { r with descs := tset (fun _ => 0) r.descs k (advance d ss ((s.spire site).descLanded k)) })

/-- A nest of no iterations, on its advanced descriptor, has issued in one cycle with its signals (R188). -/
def State.loopSkipped (s : State) (site : Nat) (e : Engine) (t q n : Nat) (g : Option AttSig) : State :=
  (((s.bump (R.SPR_LOOP_ZERO site)).pushSig site (t + 1) n q (landSig g)).pushSig site t n q (relSig g)).issued site e t 1

/-- The engine holds the loop and tries its first iteration (R180, R182). -/
def State.loopBegun (s : State) (site : Nat) (e : Engine) (d : BitVec 2048) (body : LoopBody) : State :=
  (s.modEng site e (fun x => { x with qpos := x.qpos + 1, pc := x.pc + 1, queue := x.queue - 1, loop := some { desc := d, body := body, next := 0, total := tripCount d, gateTaken := false } })).loopStep site e

/-- A mover body as the loop keeps it: the windows of its first rows (R193). -/
def State.withWindows (s : State) (d : BitVec 2048) (ss : Slots) : LoopBody → LoopBody
  | .mov m => .mov { m with win := if m.global then s.windowOf (slotValue d ss 0 0) else none, swin := if m.global ∧ m.scaleRowBytes ≠ 0 then s.windowOf (slotValue d ss 0 2) else none }
  | b => b

/-- A descriptor with legal fields and a PLAIN gate cell passes the checks of R179. -/
theorem descFault_of_legal {site : Nat} {d : BitVec 2048} {ss : Slots} (reserved : dReservedOk d = true) (levels : dLevelsOk d = true) (granules : granulesOk d ss = true)
    (gate : dGateN d = 0 ∨ s.cellIs site (dGateCell d) 0 = true) : s.descFault site d ss = none := by
  have open_ : ¬(dGateN d ≠ 0 ∧ s.cellIs site (dGateCell d) 0 = false) := by
    rintro ⟨gated, other⟩
    rcases gate with zero | plain
    · exact gated zero
    · simp [plain] at other
  unfold State.descFault
  rw [if_neg (by simp [reserved, levels, granules]), if_neg open_]

/-- What a looped instruction does once its descriptor has passed its checks. -/
theorem startLoop_of_legal {site k t : Nat} {e : Engine} {d : BitVec 2048} {body : LoopBody} {g : Option AttSig} (legal : s.descFault site d (s.bodySlots site d body) = none) :
    s.startLoop site e t k d body g =
      let ss := s.bodySlots site d body
      let v := s.descAdvanced site k d ss
      if tripCount d = 0 then v.loopSkipped site e t ((s.spire site).eng e).qpos (body.engNo e) g else v.loopBegun site e d (v.withWindows d ss body) := by
  unfold State.startLoop
  simp only [legal]
  cases body <;> rfl

section Looped
variable {site k : Nat} {g : Option AttSig} (lt : k < 32) (looped : dLevels ((s.spire site).desc k) ≠ 0)
include lt looped

/-- At its issue cycle an array instruction with a descriptor of at least one level starts its loop (R180). -/
theorem arrCommand_of_looped {f : AForm} {i : ArrIns} (here : AtArray s site i) (sig : SignalOk s site .matrix i.sig) (desc : i.desc = some k) :
    s.arrCommand site f i = s.startLoop site .matrix ((s.spire site).arrAt i) k ((s.spire site).desc k) (.arr f i) i.sig := by
  obtain ⟨takes, stands, -⟩ := here
  obtain ⟨form, plain⟩ := sig
  have inRange : ¬Nat.ble 32 k = true := by simp [lt]
  unfold State.arrCommand
  simp only [ready_of_takes takes, canIssue_of_takes takes, stands, takes, form, plain, desc, Bool.true_eq_false, if_false]
  rw [if_neg inRange, if_pos looped]

/-- The same for a mover operation, which keeps its stream position. -/
theorem movCommand_of_looped {m : MovOp} (here : AtIssue s site .mover) (sig : SignalOk s site .mover m.sig) :
    s.movCommand site m (some k) = s.startLoop site .mover ((s.spire site).issueAt .mover) k ((s.spire site).desc k) (.mov { m with qpos := (s.spire site).mov.qpos }) m.sig := by
  obtain ⟨takes, stands, -⟩ := here
  obtain ⟨form, plain⟩ := sig
  have inRange : ¬Nat.ble 32 k = true := by simp [lt]
  unfold State.movCommand
  simp only [ready_of_takes takes, canIssue_of_takes takes, stands, takes, form, plain, Bool.true_eq_false, if_false]
  rw [if_neg inRange, if_pos looped]

end Looped

/-- LOOP_ITERATION_ISSUE on an engine without a loop (R182). -/
theorem loopStep_of_none {site : Nat} {e : Engine} (none_ : ((s.spire site).eng e).loop = none) : s.loopStep site e = s := by
  unfold State.loopStep
  rw [none_]

/-- Settles O15: each row is the array's or the mover's command of its form, which starts its loop; `startLoop_of_legal` says what that leaves. -/
theorem loopStart : Obligations.LoopStart := by
  unfold Obligations.LoopStart
  intro s site k lt d looped reserved levels gate loaded zero begun
  refine ⟨?array, ?mover, ?none_⟩
  case array =>
    intro f c i row here sig desc granules
    have runs : exec c s = .next (s.arrCommand site f i) := by
      rcases row with ⟨rfl, rfl⟩ | ⟨rfl, rfl⟩ | ⟨rfl, rfl⟩ <;> rfl
    rw [runs, arrCommand_of_looped lt looped here sig desc, startLoop_of_legal (descFault_of_legal reserved levels granules gate)]
    rfl
  case mover =>
    intro m c row here sig m' ss granules
    have runs : exec c s = .next (s.movCommand site m (some k)) := by
      rcases row with ⟨i, desc, row⟩ | ⟨i, desc, rfl, rfl⟩
      · rcases row with ⟨rfl, rfl⟩ | ⟨rfl, rfl⟩ | ⟨rfl, rfl⟩ | ⟨rfl, rfl⟩ | ⟨rfl, rfl⟩ | ⟨rfl, rfl⟩ | ⟨rfl, rfl⟩ <;> exact desc ▸ rfl
      · exact desc ▸ rfl
    rw [runs, movCommand_of_looped lt looped here sig, startLoop_of_legal (descFault_of_legal reserved levels granules gate)]
    rfl
  case none_ =>
    exact fun e h => congrArg Host.Outcome.next (loopStep_of_none h)

/-! ## The hold state of a context -/

@[simp] theorem HoldCtx.segs_settleRamp (h : HoldCtx) (t : Nat) : (h.settleRamp t).segs = h.segs := by
  unfold HoldCtx.settleRamp
  split
  · rfl
  · split <;> rfl

@[simp] theorem HoldCtx.segs_at (h : HoldCtx) (th t : Nat) : (h.at_ th t).segs = h.segs := by
  simp only [HoldCtx.at_, HoldCtx.segs_settleRamp, apply_ite HoldCtx.segs, ite_self]

/-- A gap that reaches the threshold with duty left ramps down from that duty (R140). -/
theorem HoldCtx.at_threshold {h : HoldCtx} (duty : 0 < h.duty) (held : h.st = 2) (th : Nat) :
    h.at_ th (h.gapFrom + th) = { h with st := 3, since := h.gapFrom + th, bySparse := false } := by
  have left : h.duty ≠ 0 := Nat.ne_of_gt duty
  simp [HoldCtx.at_, HoldCtx.settleRamp, HoldCtx.dutyAt, downSteps, held, left]

theorem HoldCtx.st_settleRamp_of_down {h : HoldCtx} {t : Nat} (down : h.st = 3) (zero : h.dutyAt t = 0) : (h.settleRamp t).st = 0 := by
  rw [HoldCtx.settleRamp, if_pos ⟨down, zero⟩]

theorem HoldCtx.st_settleRamp_of_up {h : HoldCtx} {t : Nat} (up : h.st = 4) (full : h.dutyAt t = 64) : (h.settleRamp t).st = 1 := by
  rw [HoldCtx.settleRamp, if_neg (by simp [up]), if_pos ⟨up, full⟩]

@[simp] theorem Spire.holdCtx_setHoldCtx (p : Spire) (c : Nat) (h : HoldCtx) : (p.setHoldCtx c h).holdCtx c = h := by
  unfold Spire.setHoldCtx Spire.holdCtx
  split <;> rfl

/-! ## Bringing the hold state to a time -/

@[simp] theorem settleHold_now (s : State) (site t : Nat) : (s.settleHold site t).now = s.now := by
  simp only [State.settleHold, State.settleHoldAt, State.modSpire, State.bump, State.setSpire_now, apply_ite State.now, State.setReg_now, ite_self]

@[simp] theorem settleHold_mem (s : State) (site t : Nat) : (s.settleHold site t).mem = s.mem := by
  simp only [State.settleHold, State.settleHoldAt, State.modSpire, State.bump, State.setSpire_mem, apply_ite State.mem, State.setReg_mem, ite_self]

/-- Each context is brought to the time as R140 gives it, and the stretches of cycles that are counted whole are dropped (R145). -/
theorem holdCtx_settleHold (s : State) (site t c : Nat) :
    ((s.settleHold site t).spire site).holdCtx c =
      { ((s.spire site).holdCtx c).at_ (s.gapThresh site) t with segs := ((s.spire site).holdCtx c).segs.filter (fun x => Nat.blt (s.cycleAt site t) x.b) } := by
  simp only [State.settleHold, State.settleHoldAt, spire_modSpire, apply_ite (fun u : State => u.spire site), spire_bump, ite_self, Spire.holdCtx]
  split <;> rfl

theorem settleHold_inForm (h : InForm s) (site t : Nat) : InForm (s.settleHold site t) :=
  have ⟨regs, mem, _⟩ := inv_settleHold (keeps_of_inForm h) site t
  ⟨regs, mem⟩

/-- Device time goes to `t`, and a context with it (R140). -/
theorem holdTo_reaches (u : State) (site c t : Nat) :
    let h := (u.spire site).holdCtx c
    let v := u.holdTo site t
    v.now = max u.now t ∧ { (v.spire site).holdCtx c with segs := h.segs } = h.at_ (u.gapThresh site) (({ u with now := max u.now t } : State).spireNs site) ∧ v.mem = u.mem := by
  refine ⟨settleHold_now .., ?_, settleHold_mem ..⟩
  simp only [State.holdTo, holdCtx_settleHold]
  rw [← HoldCtx.segs_at ((u.spire site).holdCtx c) (u.gapThresh site) (({ u with now := max u.now t } : State).spireNs site)]
  rfl

/-! ## The end of a sparse interval -/

/-- A context at the end of the 64 ns interval from `a` (R163). -/
def HoldCtx.intervalEnd (h : HoldCtx) (th a : Nat) : HoldCtx :=
  let b := a + 64
  let from_ := h.sparseFrom.getD a
  if (h.st == 1 || h.st == 2 || (h.st == 3 && h.bySparse)) = false then { h with sparseFrom := none }
  else if Nat.ble (2 * h.fillOf a) 65536 then
    if h.st ≠ 3 ∧ b - from_ ≥ th then { h with sparseFrom := some from_, st := 3, duty := if h.st = 1 then 64 else h.duty, since := b, bySparse := true }
    else { h with sparseFrom := some from_ }
  else if h.st = 3 then { h with sparseFrom := none, st := 4, duty := max (h.dutyAt b) 1, since := b, frac := 0 }
  else { h with sparseFrom := none }

/-- SPARSE_INTERVAL_END: device time goes to the interval's end, and the context with it. -/
theorem exec_sparseIntervalEnd (s : State) (site c : Nat) :
    exec (.sparseIntervalEnd site c) s =
      let a := s.spireNs site / 64 * 64
      let u := ({ s with now := max s.now (a + 64) } : State)
      let v := u.settleHold site (u.spireNs site)
      let h := ((v.spire site).holdCtx c).intervalEnd (v.gapThresh site) a
      .next (v.modSpire site (fun p => p.setHoldCtx c { h with work := h.work.filter (fun w => Nat.blt (a + 64) w.stop) })) := rfl

namespace HoldCtx
variable {h : HoldCtx} {th a : Nat}

/-- The interval is not sparse: the run of sparse intervals of a context that works ends. -/
theorem intervalEnd_of_work_filled (work : h.st = 1 ∨ h.st = 2) (filled : 65536 < 2 * h.fillOf a) : h.intervalEnd th a = { h with sparseFrom := none } := by
  have notSparse : ¬Nat.ble (2 * h.fillOf a) 65536 = true := by simpa using filled
  have notDown : h.st ≠ 3 := by omega
  unfold intervalEnd
  simp only [if_neg notSparse, if_neg notDown, ite_self]

/-- The interval is sparse: the run of a context that works goes on, and as long as the threshold it starts a ramp-down. -/
theorem intervalEnd_of_work_sparse (work : h.st = 1 ∨ h.st = 2) (sparse : 2 * h.fillOf a ≤ 65536) :
    (h.intervalEnd th a).sparseFrom = some (h.sparseFrom.getD a) ∧ (h.intervalEnd th a).st = if th ≤ a + 64 - h.sparseFrom.getD a then 3 else h.st := by
  have works : ¬(h.st == 1 || h.st == 2 || (h.st == 3 && h.bySparse)) = false := by rcases work with e | e <;> simp [e]
  have isSparse : Nat.ble (2 * h.fillOf a) 65536 = true := by simpa using sparse
  have notDown : h.st ≠ 3 := by omega
  unfold intervalEnd
  simp only [if_neg works, if_pos isSparse, notDown, ne_eq, not_false_eq_true, true_and, ge_iff_le]
  split <;> exact ⟨rfl, rfl⟩

/-- The first interval that is not sparse starts the ramp up of a sparse ramp-down. -/
theorem intervalEnd_of_down_filled (down : h.st = 3) (bySparse : h.bySparse = true) (filled : 65536 < 2 * h.fillOf a) :
    h.intervalEnd th a = { h with sparseFrom := none, st := 4, duty := max (h.dutyAt (a + 64)) 1, since := a + 64, frac := 0 } := by
  have notSparse : ¬Nat.ble (2 * h.fillOf a) 65536 = true := by simpa using filled
  unfold intervalEnd
  rw [if_neg (by simp [down, bySparse]), if_neg notSparse, if_pos down]

/-- Through a sparse interval a sparse ramp-down goes on. -/
theorem intervalEnd_of_down_sparse (down : h.st = 3) (bySparse : h.bySparse = true) (sparse : 2 * h.fillOf a ≤ 65536) :
    h.intervalEnd th a = { h with sparseFrom := some (h.sparseFrom.getD a) } := by
  have isSparse : Nat.ble (2 * h.fillOf a) 65536 = true := by simpa using sparse
  unfold intervalEnd
  rw [if_neg (by simp [down, bySparse]), if_pos isSparse, if_neg (by simp [down])]

end HoldCtx

/-! ## A write of GAP_THRESH -/

/-- A gap compared at time `t` with a threshold written then (R142). -/
def HoldCtx.compared (h : HoldCtx) (th t : Nat) : HoldCtx := if h.st = 2 ∧ h.gapFrom + th ≤ t then { h with st := 3, since := t, bySparse := false } else h

theorem HoldCtx.st_compared {h : HoldCtx} (held : h.st = 2) (th t : Nat) : (h.compared th t).st = if h.gapFrom + th ≤ t then 3 else 2 := by
  simp only [HoldCtx.compared, held, true_and]
  split
  · rfl
  · exact held

theorem fld_setFld_same (h : InForm s) (o : Nat) (f : Fld) (v : Nat) (lo : f.lo ≤ f.hi) (hi : f.hi < 64) : (s.setFld o f v).fld o f = v % 2 ^ (f.hi + 1 - f.lo) := by
  rw [State.fld, State.reg_setFld h, if_pos rfl, fget_fset_same _ f v lo hi]

/-- The written threshold is stored. -/
theorem fld_writeGapThresh (h : InForm s) (site v : Nat) :
    (s.writeGapThresh site v).fld (R.SPR_ARR_CTL site) F.SPR_ARR_CTL_GAP_THRESH = v % 2 ^ (F.SPR_ARR_CTL_GAP_THRESH.hi + 1 - F.SPR_ARR_CTL_GAP_THRESH.lo) :=
  fld_setFld_same (settleHold_inForm h site (s.spireNs site)) (R.SPR_ARR_CTL site) F.SPR_ARR_CTL_GAP_THRESH v (by decide) (by decide)

/-- Each context, brought to the spire's time, is compared with the threshold written. -/
theorem holdCtx_writeGapThresh (s : State) (site v c : Nat) :
    ((s.writeGapThresh site v).spire site).holdCtx c =
      (((s.settleHold site (s.spireNs site)).spire site).holdCtx c).compared ((s.writeGapThresh site v).gapThresh site) (s.spireNs site) := by
  have same : ((s.settleHold site (s.spireNs site)).setFld (R.SPR_ARR_CTL site) F.SPR_ARR_CTL_GAP_THRESH v).spire site = (s.settleHold site (s.spireNs site)).spire site := rfl
  simp only [State.writeGapThresh, State.gapThresh, State.fld_modSpire, spire_modSpire, same, Spire.holdCtx]
  split
  · rfl
  · rfl

/-- Settles O20: the ramps by `holdTo_reaches`, a sparse interval by the cases of `HoldCtx.intervalEnd`, a written threshold by `HoldCtx.compared`. -/
theorem holdEvents : Obligations.HoldEvents := by
  unfold Obligations.HoldEvents
  refine ⟨?ramps, ?threshold, fun h t => HoldCtx.st_settleRamp_of_down, fun h t => HoldCtx.st_settleRamp_of_up, ?sparse, ?write⟩
  case ramps =>
    intro s site c _ u h reach
    have reaches : ∀ t, reach t := fun t => ⟨_, rfl, holdTo_reaches u site c t⟩
    exact ⟨fun held => ⟨congrArg Host.Outcome.next (if_pos held), reaches _⟩, fun down => ⟨congrArg Host.Outcome.next (if_pos down), reaches _⟩,
      fun up => ⟨congrArg Host.Outcome.next (if_pos up), reaches _⟩⟩
  case threshold =>
    intro h th t duty held at_
    subst at_
    rw [HoldCtx.at_threshold duty held]
    exact ⟨rfl, by simp [HoldCtx.dutyAt, downSteps]⟩
  case sparse =>
    intro s site c _ a u v h from_
    refine ⟨_, exec_sparseIntervalEnd s site c, settleHold_now .., settleHold_mem .., ?_⟩
    simp only [spire_modSpire, Spire.holdCtx_setHoldCtx]
    refine ⟨fun work => ⟨fun filled => ?_, fun sparse => HoldCtx.intervalEnd_of_work_sparse work sparse⟩, fun down bySparse => ⟨fun filled => ?_, fun sparse => ?_⟩⟩
    · rw [HoldCtx.intervalEnd_of_work_filled work filled]
      exact ⟨rfl, rfl⟩
    · rw [HoldCtx.intervalEnd_of_down_filled down bySparse filled]
      exact ⟨rfl, rfl, rfl, rfl⟩
    · rw [HoldCtx.intervalEnd_of_down_sparse down bySparse sparse]
      exact ⟨rfl, down⟩
  case write =>
    intro s site v form
    refine ⟨_, rfl, fld_writeGapThresh form site v, settleHold_mem .., fun c _ held => ?_⟩
    rw [holdCtx_writeGapThresh]
    exact HoldCtx.st_compared held _ _

end Sys2Proof.Machine
end

section
/-!
PROOFS of the family 05_sparsity_and_conditional: the epoch commands and their instants, the write of GLB_SPEC_CTL, and predicated nodes (O45).
-/
namespace Sys2Proof.Machine

open Sys2Proof

variable {s t : State} {k : Nat}

/-! ## The registers of the epoch slots -/

theorem specStat_ne_specNum (j k : Nat) : R.GLB_SPEC_STAT j ≠ R.GLB_SPEC_NUM k := by
  simp only [R.GLB_SPEC_STAT, R.GLB_SPEC_NUM]
  omega

theorem specStat_inj {j k : Nat} : R.GLB_SPEC_STAT j = R.GLB_SPEC_STAT k ↔ j = k := by
  simp only [R.GLB_SPEC_STAT]
  omega

/-- STAT and NUM of the two slots lie from 0x4010 to 0x402F. -/
theorem specStat_mem (hk : k < 2) : 0x4010 ≤ R.GLB_SPEC_STAT k ∧ R.GLB_SPEC_STAT k < 0x4030 := by
  simp only [R.GLB_SPEC_STAT]
  omega

theorem specNum_mem (hk : k < 2) : 0x4010 ≤ R.GLB_SPEC_NUM k ∧ R.GLB_SPEC_NUM k < 0x4030 := by
  simp only [R.GLB_SPEC_NUM]
  omega

theorem specStat_ne (hk : k < 2) {o : Nat} (out : o < 0x4010 ∨ 0x4030 ≤ o) : R.GLB_SPEC_STAT k ≠ o := by
  have := specStat_mem hk
  omega

theorem specNum_ne (hk : k < 2) {o : Nat} (out : o < 0x4010 ∨ 0x4030 ≤ o) : R.GLB_SPEC_NUM k ≠ o := by
  have := specNum_mem hk
  omega

theorem other_slot_ne (hk : k < 2) : 1 - k ≠ k := by omega

theorem epState_of_reg {k : Nat} (e : t.reg (R.GLB_SPEC_STAT k) = s.reg (R.GLB_SPEC_STAT k)) : t.epState k = s.epState k := congrArg (fget · F.GLB_SPEC_STAT_STATE) e

theorem epParent_of_reg {k : Nat} (e : t.reg (R.GLB_SPEC_STAT k) = s.reg (R.GLB_SPEC_STAT k)) : t.epParent k = s.epParent k := by
  simp only [State.epParent, e]

theorem epNum_of_reg {k : Nat} (e : t.reg (R.GLB_SPEC_NUM k) = s.reg (R.GLB_SPEC_NUM k)) : t.epNum k = s.epNum k := congrArg BitVec.toNat e

@[simp] theorem epoch_setEpoch (s : State) (k : Nat) (e : Epoch) : (s.setEpoch k e).epoch k = e := by
  simp [State.epoch, State.setEpoch, tfind_tinsert_same]

theorem epoch_setEpoch_ne (s : State) {j k : Nat} (e : Epoch) (ne : j ≠ k) : (s.setEpoch k e).epoch j = s.epoch j := by
  simp [State.epoch, State.setEpoch, tfind_tinsert_ne _ _ ne]

@[simp] theorem epoch_setReg (s : State) (o : Nat) (v : Word) (k : Nat) : (s.setReg o v).epoch k = s.epoch k := rfl
@[simp] theorem epoch_setFld (s : State) (o : Nat) (f : Fld) (x k : Nat) : (s.setFld o f x).epoch k = s.epoch k := rfl
@[simp] theorem epoch_setFlds (s : State) (o : Nat) (l : List (Fld × Nat)) (k : Nat) : (s.setFlds o l).epoch k = s.epoch k := rfl
@[simp] theorem epoch_bump (s : State) (o n k : Nat) : (s.bump o n).epoch k = s.epoch k := rfl
@[simp] theorem mem_setEpoch (s : State) (k : Nat) (e : Epoch) : (s.setEpoch k e).mem = s.mem := rfl
@[simp] theorem reg_setEpoch (s : State) (k : Nat) (e : Epoch) (o : Nat) : (s.setEpoch k e).reg o = s.reg o := rfl

/-- A slot that holds a number is one of the two (R265). -/
theorem lt_of_epSlot {n k : Nat} (h : s.epSlot n = some k) : k < 2 := by
  have := List.mem_of_find?_eq_some h
  simp only [List.mem_cons, List.not_mem_nil, or_false] at this
  omega

/-! ## The start of a command -/

/-- A command that may start is answered by what its start says (R474, R479). -/
theorem attempt_of_starts {id op : Nat} {c : Cmd} (h : Starts s id op c) (f : Cmd → State → Go × State) : s.attempt op id f = (f c s).2.answer c (f c s).1 := by
  obtain ⟨found, opcode, notStarted, slot, inTurn, first, ordered⟩ := h
  unfold State.attempt
  simp [found, opcode, notStarted, slot, inTurn, first, ordered]

theorem dseq_of_starts {id op : Nat} {c : Cmd} (h : Starts s id op c) : c.dseq = id := by
  simpa using List.find?_some h.1

section Commands
variable {id : Nat} {c : Cmd}

theorem exec_epochOpen_of_starts (h : Starts s id 0x0308 c) : exec (.epochOpen id) s = .next ((cmdEpochOpen c s).2.answer c (cmdEpochOpen c s).1) :=
  congrArg Host.Outcome.next (attempt_of_starts h cmdEpochOpen)

theorem exec_epochCommit_of_starts (h : Starts s id 0x0309 c) : exec (.epochCommit id) s = .next ((cmdEpochCommit c s).2.answer c (cmdEpochCommit c s).1) :=
  congrArg Host.Outcome.next (attempt_of_starts h cmdEpochCommit)

theorem exec_epochDiscard_of_starts (h : Starts s id 0x030A c) : exec (.epochDiscard id) s = .next ((cmdEpochDiscard c s).2.answer c (cmdEpochDiscard c s).1) :=
  congrArg Host.Outcome.next (attempt_of_starts h cmdEpochDiscard)

end Commands

/-! ## EPOCH_OPEN -/

/-- Slot `k` OPEN with a number, an open parent's slot or none, and whether the epoch persists (R265). -/
def State.slotOpened (s : State) (k n : Nat) (parent : Option Nat) (persist : Bool) : State :=
  (((s.setReg (R.GLB_SPEC_STAT k) 0).setFlds (R.GLB_SPEC_STAT k)
    [(F.GLB_SPEC_STAT_STATE, 1), (F.GLB_SPEC_STAT_HAS_PARENT, if parent.isSome then 1 else 0), (F.GLB_SPEC_STAT_PARENT_SLOT, parent.getD 0)]).setReg
    (R.GLB_SPEC_NUM k) (BitVec.ofNat 64 n)).setEpoch k { emptyEpoch with persist := persist }

/-- The first free slot is the one EPOCH_OPEN takes. -/
theorem find_free_slot (hk : k < 2) (free : s.epState k = 0) (first : ∀ j, j < k → s.epState j ≠ 0) : [0, 1].find? (fun j => s.epState j == 0) = some k := by
  obtain rfl | rfl : k = 0 ∨ k = 1 := by omega
  · simp [free]
  · simp [free, first 0]

section Open
variable {c : Cmd} (fresh : s.epSlot (c.par 0 8) = none)

theorem cmdEpochOpen_of_held {j : Nat} (held : s.epSlot (c.par 0 8) = some j) : cmdEpochOpen c s = (.refuse .epochDuplicate 0, s) := by
  simp [cmdEpochOpen, held]

include fresh

theorem cmdEpochOpen_of_unknown (child : c.par 8 8 ≠ 0) (gone : s.epSlot (c.par 8 8) = none) : cmdEpochOpen c s = (.refuse .epochUnknown 8, s) := by
  simp [cmdEpochOpen, fresh, child, gone]

theorem cmdEpochOpen_of_busy (root : c.par 8 8 = 0) (busy0 : s.epState 0 ≠ 0) (busy1 : s.epState 1 ≠ 0) : cmdEpochOpen c s = (.wait .waitEpochSlot unknown, s) := by
  simp [cmdEpochOpen, fresh, root, busy0, busy1]

theorem cmdEpochOpen_of_root (root : c.par 8 8 = 0) (free : [0, 1].find? (fun j => s.epState j == 0) = some k) :
    cmdEpochOpen c s = (.done .ok [k], s.slotOpened k (c.par 0 8) none (c.par 16 1 == 1)) := by
  simp only [cmdEpochOpen, fresh, root, free]
  rfl

theorem cmdEpochOpen_of_child {j : Nat} (child : c.par 8 8 ≠ 0) (parent : s.epSlot (c.par 8 8) = some j) (open_ : s.epState j = 1 ∨ s.epState j = 2)
    (free : [0, 1].find? (fun j => s.epState j == 0) = some k) :
    cmdEpochOpen c s = (.done .ok [k], s.slotOpened k (c.par 0 8) (some j) (c.par 16 1 == 1)) := by
  have fit : (c.par 8 8 == 0 || (s.epState j == 1 || s.epState j == 2)) ≠ false := by rcases open_ with e | e <;> simp [e]
  simp only [cmdEpochOpen, fresh, if_neg child, parent, free, if_neg fit]
  rfl

end Open

section OpenedFrame
variable (s) (k n : Nat) (parent : Option Nat) (persist : Bool)

theorem slotOpened_mem : (s.slotOpened k n parent persist).mem = s.mem := by
  rw [State.slotOpened, mem_setEpoch, State.setReg_mem, State.setFlds_mem, State.setReg_mem]

theorem slotOpened_quarters : ((s.slotOpened k n parent persist).epoch k).quarters = [] := by
  rw [State.slotOpened, epoch_setEpoch]
  rfl

variable {k} in
theorem slotOpened_epoch_ne {j : Nat} (ne : j ≠ k) : (s.slotOpened k n parent persist).epoch j = s.epoch j := by
  rw [State.slotOpened, epoch_setEpoch_ne _ _ ne, epoch_setReg, epoch_setFlds, epoch_setReg]

end OpenedFrame

section Opened
variable (h : InForm s) (n : Nat) (parent : Option Nat) (persist : Bool)
include h

theorem slotOpened_reg_ne {o : Nat} (stat : o ≠ R.GLB_SPEC_STAT k) (num : o ≠ R.GLB_SPEC_NUM k) : (s.slotOpened k n parent persist).reg o = s.reg o := by
  have cleared := State.inv_setReg h (R.GLB_SPEC_STAT k) 0
  rw [State.slotOpened, reg_setEpoch, State.reg_setReg_ne (State.inv_setFlds cleared _ _) _ num, State.reg_setFlds cleared, if_neg stat, State.reg_setReg_ne h _ stat]

theorem slotOpened_epNum : (s.slotOpened k n parent persist).epNum k = n % 2 ^ 64 := by
  have cleared := State.inv_setReg h (R.GLB_SPEC_STAT k) 0
  rw [State.epNum, State.slotOpened, reg_setEpoch, State.reg_setReg_same (State.inv_setFlds cleared _ _), BitVec.toNat_ofNat]

/-- The status word of an opened slot. -/
theorem slotOpened_stat : (s.slotOpened k n parent persist).reg (R.GLB_SPEC_STAT k) =
    fset (fset (fset 0 F.GLB_SPEC_STAT_STATE 1) F.GLB_SPEC_STAT_HAS_PARENT (if parent.isSome then 1 else 0)) F.GLB_SPEC_STAT_PARENT_SLOT (parent.getD 0) := by
  have cleared := State.inv_setReg h (R.GLB_SPEC_STAT k) 0
  rw [State.slotOpened, reg_setEpoch, State.reg_setReg_ne (State.inv_setFlds cleared _ _) _ (specStat_ne_specNum k k), State.reg_setFlds cleared, if_pos rfl,
    State.reg_setReg_same h]
  rfl

theorem slotOpened_epState : (s.slotOpened k n parent persist).epState k = 1 := by
  rw [State.epState, State.fld, slotOpened_stat h]
  rw [fget_fset_above _ _ _ _ (by decide) (by decide) (by decide), fget_fset_above _ _ _ _ (by decide) (by decide) (by decide),
    fget_fset_same _ _ _ (by decide) (by decide)]
  rfl

theorem slotOpened_epParent (two : ∀ j, parent = some j → j < 2) : (s.slotOpened k n parent persist).epParent k = parent := by
  have has : fget ((s.slotOpened k n parent persist).reg (R.GLB_SPEC_STAT k)) F.GLB_SPEC_STAT_HAS_PARENT = if parent.isSome then 1 else 0 := by
    rw [slotOpened_stat h, fget_fset_above _ _ _ _ (by decide) (by decide) (by decide), fget_fset_same _ _ _ (by decide) (by decide)]
    split <;> rfl
  have slot : fget ((s.slotOpened k n parent persist).reg (R.GLB_SPEC_STAT k)) F.GLB_SPEC_STAT_PARENT_SLOT = parent.getD 0 % 2 := by
    rw [slotOpened_stat h, fget_fset_same _ _ _ (by decide) (by decide)]
    rfl
  simp only [State.epParent, has, slot]
  cases parent with
  | none => rfl
  | some j => exact congrArg some (Nat.mod_eq_of_lt (two j rfl))

end Opened

/-! ## Held writes of the two slots

With no write that waits, nothing is retried and no waiting time counts. -/

theorem retryHeld_of_none_waiting {j : Nat} (none_ : (s.epoch j).waiting = []) (live : s.epState j ≠ 2) : s.retryHeld j = s := by
  unfold State.retryHeld
  rw [if_pos none_, if_neg live]

theorem countStall_of_none_waiting (hk : k < 2) (own : (s.epoch k).waiting = []) (other : (s.epoch (1 - k)).waiting = []) : s.countStall = s.bump R.GLB_SPEC_STALL_NS 0 := by
  have slots : (s.epoch 0).waiting = [] ∧ (s.epoch 1).waiting = [] := by
    obtain rfl | rfl : k = 0 ∨ k = 1 := by omega
    · exact ⟨own, other⟩
    · exact ⟨other, own⟩
  obtain ⟨w0, w1⟩ := slots
  simp [State.countStall, State.stallNow, w0, w1]

/-- Only registers at offsets of `P` differ from `s`, and the form is kept. -/
def RegsOnly (P : Nat → Prop) (s t : State) : Prop := InForm t ∧ t = { s with regs := t.regs } ∧ ∀ o, ¬P o → t.reg o = s.reg o

theorem RegsOnly.setReg {P : Nat → Prop} (h : RegsOnly P s t) {o : Nat} (v : Word) (at_ : P o) : RegsOnly P s (t.setReg o v) := by
  obtain ⟨form, same, regs⟩ := h
  refine ⟨State.inv_setReg form o v, ?_, fun x out => ?_⟩
  · rw [same]
    rfl
  · rw [State.reg_setReg_ne form v (fun e : x = o => out (e.symm ▸ at_)), regs x out]

/-- The registers that count shadow barges (R269). -/
def SpillCounter (o : Nat) : Prop := o = R.GLB_SPEC_SPILL_W ∨ o = R.GLB_SPEC_SPILL_E

theorem spillCounter_spillReg (a : Nat) : SpillCounter (spillReg a) := by
  unfold spillReg
  split
  · exact .inl rfl
  · exact .inr rfl

theorem freeSpill_regsOnly (h : InForm s) (k : Nat) : RegsOnly SpillCounter s (s.freeSpill k) := by
  unfold State.freeSpill
  refine List.foldlRecOn _ _ ⟨h, rfl, fun _ _ => rfl⟩ fun u ih x _ => ?_
  split
  · exact ih.setReg _ (spillCounter_spillReg x.1)
  · exact ih

theorem freeSpill_reg (h : InForm s) (k : Nat) {o : Nat} (out : ¬SpillCounter o) : (s.freeSpill k).reg o = s.reg o := (freeSpill_regsOnly h k).2.2 o out

/-- Freeing shadow barges changes registers alone. -/
theorem freeSpill_eq (h : InForm s) (k : Nat) : s.freeSpill k = { s with regs := (s.freeSpill k).regs } := (freeSpill_regsOnly h k).2.1

theorem not_spillCounter_specStat (hk : k < 2) : ¬SpillCounter (R.GLB_SPEC_STAT k) := by
  have := specStat_mem hk
  simp only [SpillCounter, R.GLB_SPEC_SPILL_W, R.GLB_SPEC_SPILL_E]
  omega

/-! ## A slot that gives up what it holds

A commit and a discard leave the slot with an epoch `e`, in state `v`, and count the event at `o`. -/

/-- Slot `k` holds `e`, is in state `v`, and the event is counted. -/
def State.slotClosed (s : State) (k : Nat) (e : Epoch) (v o : Nat) : State := ((s.setEpoch k e).setEpState k v).bump o

@[simp] theorem slotClosed_mem (s : State) (k : Nat) (e : Epoch) (v o : Nat) : (s.slotClosed k e v o).mem = s.mem := by
  rw [State.slotClosed, State.bump_mem, State.setEpState, State.setFld_mem, mem_setEpoch]

@[simp] theorem slotClosed_epoch (s : State) (k : Nat) (e : Epoch) (v o : Nat) : (s.slotClosed k e v o).epoch k = e := by
  rw [State.slotClosed, epoch_bump, State.setEpState, epoch_setFld, epoch_setEpoch]

theorem slotClosed_epoch_ne (s : State) {j k : Nat} (e : Epoch) (v o : Nat) (ne : j ≠ k) : (s.slotClosed k e v o).epoch j = s.epoch j := by
  rw [State.slotClosed, epoch_bump, State.setEpState, epoch_setFld, epoch_setEpoch_ne s e ne]

theorem setEpState_inForm (h : InForm s) (k v : Nat) : InForm (s.setEpState k v) := State.inv_setFld h _ _ _

section Closed
variable (h : InForm s) (e : Epoch) (v : Nat) {o : Nat}
include h

theorem slotClosed_inForm : InForm (s.slotClosed k e v o) := by
  have held : InForm (s.setEpoch k e) := h
  exact State.inv_bump (setEpState_inForm held k v) o 1

theorem slotClosed_reg_ne {x : Nat} (stat : x ≠ R.GLB_SPEC_STAT k) (count : x ≠ o) : (s.slotClosed k e v o).reg x = s.reg x := by
  have held : InForm (s.setEpoch k e) := h
  rw [State.slotClosed, State.reg_bump (setEpState_inForm held k v), if_neg count, State.setEpState, State.reg_setFld held, if_neg stat, reg_setEpoch]

variable (other : o ≠ R.GLB_SPEC_STAT k)
include other

theorem slotClosed_count : (s.slotClosed k e v o).reg o = s.reg o + 1 := by
  have held : InForm (s.setEpoch k e) := h
  rw [State.slotClosed, State.reg_bump (setEpState_inForm held k v), if_pos rfl, State.setEpState, State.reg_setFld held, if_neg other, reg_setEpoch]
  rfl

theorem slotClosed_epState : (s.slotClosed k e v o).epState k = v % 8 := by
  have held : InForm (s.setEpoch k e) := h
  rw [State.epState, State.fld, State.slotClosed, State.reg_bump (setEpState_inForm held k v), if_neg other.symm, State.setEpState, State.reg_setFld held, if_pos rfl,
    fget_fset_same _ _ _ (by decide) (by decide)]
  rfl

end Closed

/-! ## EPOCH_COMMIT -/

/-- With no chunk to be read first, committed quarters change memory and the mirror's bitmaps alone (R250, R375). -/
theorem commitQuarters_eq (qs : List (Nat × List Byte)) (mir : s.mirror.c = []) (cap : s.bsn.capture = none) :
    ∃ m d, s.commitQuarters qs = { s with mem := m, mirror := d } := by
  induction qs generalizing s with
  | nil => exact ⟨s.mem, s.mirror, rfl⟩
  | cons q r ih =>
    have stored : s.store q.1 q.2 = { s with mem := Memory.writeBytes s.mem q.1 q.2, mirror := s.mirror.mark q.1 q.2.length } := by
      simp only [State.store, State.readFirst_of_none_held mir cap]
    obtain ⟨m, d, e⟩ := ih (s := s.store q.1 q.2) (by rw [stored]; exact mir) (by rw [stored]; exact cap)
    exact ⟨m, d, e.trans (by rw [stored])⟩

/-- The quarters of slot `k` are committed, and its overflow has reached the step latch (R272, R421). -/
def State.flushed (s : State) (k : Nat) : State :=
  let u := s.commitQuarters (s.epoch k).quarters
  if (s.epoch k).ovf then u.setFld R.GLB_STEP_LATCH F.GLB_STEP_LATCH_OVF 1 else u

/-- The journal keeps the number of the epoch last committed. -/
def State.noteSpec (s : State) (n : Nat) : State := { s with jnl := { s.jnl with lastSpec := n } }

@[simp] theorem reg_noteSpec (s : State) (n o : Nat) : (s.noteSpec n).reg o = s.reg o := rfl
@[simp] theorem mem_noteSpec (s : State) (n : Nat) : (s.noteSpec n).mem = s.mem := rfl
@[simp] theorem epoch_noteSpec (s : State) (n j : Nat) : (s.noteSpec n).epoch j = s.epoch j := rfl
@[simp] theorem lastSpec_noteSpec (s : State) (n : Nat) : (s.noteSpec n).jnl.lastSpec = n := rfl

theorem noteSpec_inForm (h : InForm s) (n : Nat) : InForm (s.noteSpec n) := h

/-- Slot `k`, flushed, drains with the shadow barges it has (R272). -/
def State.drained (s : State) (k : Nat) : State :=
  (s.flushed k).slotClosed k { emptyEpoch with spilled := (s.epoch k).spilled.filter (fun (x : Nat × Bool) => x.2) } 4 R.GLB_SPEC_COMMITS

/-- The same, with its number noted. -/
def State.committed (s : State) (k : Nat) : State := (s.drained k).noteSpec ((s.drained k).epNum k)

/-- The child of slot `k` is a child no more (R272). -/
def State.orphaned (s : State) (k : Nat) : State :=
  if s.epParent (1 - k) = some k then s.setFlds (R.GLB_SPEC_STAT (1 - k)) [(F.GLB_SPEC_STAT_HAS_PARENT, 0), (F.GLB_SPEC_STAT_PARENT_SLOT, 0)] else s

theorem commitSlot_eq (s : State) (k : Nat) : s.commitSlot k = ((s.committed k).orphaned k).retryHeld (1 - k) := by
  unfold State.commitSlot
  rfl

section Orphaned
variable (s : State) (k : Nat)

theorem orphaned_epochs : (s.orphaned k).epochs = s.epochs := by
  unfold State.orphaned
  split
  · rw [State.setFlds_epochs]
  · rfl

theorem orphaned_mem : (s.orphaned k).mem = s.mem := by
  unfold State.orphaned
  split
  · rw [State.setFlds_mem]
  · rfl

theorem orphaned_jnl : (s.orphaned k).jnl = s.jnl := by
  unfold State.orphaned
  split
  · rw [State.setFlds_jnl]
  · rfl

variable {s} (h : InForm s)
include h

theorem orphaned_reg_ne {o : Nat} (ne : o ≠ R.GLB_SPEC_STAT (1 - k)) : (s.orphaned k).reg o = s.reg o := by
  unfold State.orphaned
  split
  · rw [State.reg_setFlds h, if_neg ne]
  · rfl

/-- The child's state is not touched. -/
theorem orphaned_epState (j : Nat) : (s.orphaned k).epState j = s.epState j := by
  by_cases ne : R.GLB_SPEC_STAT j = R.GLB_SPEC_STAT (1 - k)
  · unfold State.orphaned
    split
    · rw [State.epState, State.fld, State.reg_setFlds h, if_pos ne, ← ne]
      exact (fget_fset_above _ _ _ _ (by decide) (by decide) (by decide)).trans (fget_fset_above _ _ _ _ (by decide) (by decide) (by decide))
    · rfl
  · exact epState_of_reg (orphaned_reg_ne k h ne)

theorem orphaned_epParent (child : s.epParent (1 - k) = some k) : (s.orphaned k).epParent (1 - k) = none := by
  have cleared : fget ((s.orphaned k).reg (R.GLB_SPEC_STAT (1 - k))) F.GLB_SPEC_STAT_HAS_PARENT = 0 := by
    rw [State.orphaned, if_pos child, State.reg_setFlds h, if_pos rfl]
    exact (fget_fset_above _ _ _ _ (by decide) (by decide) (by decide)).trans (fget_fset_same _ _ _ (by decide) (by decide))
  simp [State.epParent, cleared]

end Orphaned

section Flushed
variable (mir : s.mirror.c = []) (cap : s.bsn.capture = none)

theorem flushed_mem (s : State) (k : Nat) : (s.flushed k).mem = (s.commitQuarters (s.epoch k).quarters).mem := by
  unfold State.flushed
  dsimp only
  split <;> rfl

theorem flushed_inForm (h : InForm s) (k : Nat) : InForm (s.flushed k) := by
  obtain ⟨regs, mem, -⟩ := inv_commitQuarters (keeps_of_inForm h) (s.epoch k).quarters
  unfold State.flushed
  dsimp only
  split
  · exact State.inv_setFld ⟨regs, mem⟩ _ _ _
  · exact ⟨regs, mem⟩

include mir cap

theorem flushed_epoch (k j : Nat) : (s.flushed k).epoch j = s.epoch j := by
  obtain ⟨m, d, e⟩ := commitQuarters_eq (s.epoch k).quarters mir cap
  unfold State.flushed
  rw [e]
  dsimp only
  split <;> rfl

theorem flushed_reg (h : InForm s) (k : Nat) {o : Nat} (ne : o ≠ R.GLB_STEP_LATCH) : (s.flushed k).reg o = s.reg o := by
  obtain ⟨regs, mem, -⟩ := inv_commitQuarters (keeps_of_inForm h) (s.epoch k).quarters
  have same : (s.commitQuarters (s.epoch k).quarters).reg o = s.reg o := by
    obtain ⟨m, d, e⟩ := commitQuarters_eq (s.epoch k).quarters mir cap
    rw [e]
    rfl
  unfold State.flushed
  dsimp only
  split
  · rw [State.reg_setFld ⟨regs, mem⟩, if_neg ne, same]
  · exact same

end Flushed

/-! What a commit leaves that finds no chunk to be read and no write waiting in the other slot. -/

theorem committed_inForm (h : InForm s) (k : Nat) : InForm (s.committed k) := noteSpec_inForm (slotClosed_inForm (flushed_inForm h k) _ _) _

theorem committed_mem (s : State) (k : Nat) : (s.committed k).mem = (s.commitQuarters (s.epoch k).quarters).mem := by
  rw [State.committed, mem_noteSpec, State.drained, slotClosed_mem, flushed_mem]

theorem committed_quarters (s : State) (k : Nat) : ((s.committed k).epoch k).quarters = [] := by
  rw [State.committed, epoch_noteSpec, State.drained, slotClosed_epoch]
  rfl

theorem committed_epState (h : InForm s) (hk : k < 2) : (s.committed k).epState k = 4 := by
  rw [State.committed, epState_of_reg (reg_noteSpec _ _ _), State.drained, slotClosed_epState (flushed_inForm h k) _ _ (specStat_ne hk (by decide)).symm]

section Commit
variable (h : InForm s) (hk : k < 2) (mir : s.mirror.c = []) (cap : s.bsn.capture = none)
include mir cap

theorem committed_epoch_ne {j : Nat} (ne : j ≠ k) : (s.committed k).epoch j = s.epoch j := by
  rw [State.committed, epoch_noteSpec, State.drained, slotClosed_epoch_ne _ _ _ _ ne, flushed_epoch mir cap]

include h

theorem committed_reg_ne {o : Nat} (stat : o ≠ R.GLB_SPEC_STAT k) (count : o ≠ R.GLB_SPEC_COMMITS) (latch : o ≠ R.GLB_STEP_LATCH) : (s.committed k).reg o = s.reg o := by
  rw [State.committed, reg_noteSpec, State.drained, slotClosed_reg_ne (flushed_inForm h k) _ _ stat count, flushed_reg mir cap h k latch]

include hk

theorem committed_count : (s.committed k).reg R.GLB_SPEC_COMMITS = s.reg R.GLB_SPEC_COMMITS + 1 := by
  rw [State.committed, reg_noteSpec, State.drained, slotClosed_count (flushed_inForm h k) _ _ (specStat_ne hk (by decide)).symm, flushed_reg mir cap h k (by decide)]

theorem committed_other_stat : (s.committed k).reg (R.GLB_SPEC_STAT (1 - k)) = s.reg (R.GLB_SPEC_STAT (1 - k)) :=
  have other : 1 - k < 2 := by omega
  committed_reg_ne h mir cap (fun e => other_slot_ne hk (specStat_inj.mp e)) (specStat_ne other (by decide)) (specStat_ne other (by decide))

theorem committed_lastSpec : (s.committed k).jnl.lastSpec = s.epNum k := by
  rw [State.committed, lastSpec_noteSpec, State.drained]
  refine epNum_of_reg ?_
  rw [slotClosed_reg_ne (flushed_inForm h k) _ _ (specStat_ne_specNum k k).symm (specNum_ne hk (by decide)), flushed_reg mir cap h k (specNum_ne hk (by decide))]

theorem commitSlot_of_none_waiting (none_ : (s.epoch (1 - k)).waiting = []) (live : s.epState (1 - k) ≠ 2) : s.commitSlot k = (s.committed k).orphaned k := by
  have still : ((s.committed k).orphaned k).epoch (1 - k) = s.epoch (1 - k) := by
    rw [State.epoch, orphaned_epochs]
    exact committed_epoch_ne mir cap (other_slot_ne hk)
  rw [commitSlot_eq]
  refine retryHeld_of_none_waiting (by rw [still, none_]) ?_
  rw [orphaned_epState k (committed_inForm h k), epState_of_reg (committed_other_stat h hk mir cap)]
  exact live

end Commit

section CommitCommand
variable {c : Cmd}

theorem cmdEpochCommit_of_unheld (unheld : s.epSlot (c.par 0 8) = none) :
    cmdEpochCommit c s = (if c.delayed.isSome then .done .epochDiscarded [] else .refuse .epochUnknown 0, s) := by
  simp [cmdEpochCommit, unheld]

variable (held : s.epSlot (c.par 0 8) = some k)
include held

theorem cmdEpochCommit_of_doomed (doomed : s.epState k = 3) : cmdEpochCommit c s = (.done .epochDiscarded [], s) := by
  simp [cmdEpochCommit, held, doomed]

variable (open_ : s.epState k = 1)
include open_

theorem cmdEpochCommit_of_wait {w : Status} {e : Nat} (wait : s.commitWait k = some (w, e)) : cmdEpochCommit c s = (.wait w e, s) := by
  simp [cmdEpochCommit, held, open_, wait]

theorem cmdEpochCommit_of_ready (ready : s.commitWait k = none) : cmdEpochCommit c s = (.done .ok [s.now % 2 ^ 32, s.now / 2 ^ 32], s.commitSlot k) := by
  simp [cmdEpochCommit, held, open_, ready]

end CommitCommand

/-! Why an open epoch's commit waits (R272). -/

theorem commitWait_of_tasks (tasks : s.epochTasks k ≠ 0) : ∃ e, s.commitWait k = some (.waitTasks, e) := ⟨_, if_pos tasks⟩

theorem commitWait_of_parent (tasks : s.epochTasks k = 0) (open_ : s.epState k = 1) (child : (s.epParent k).isSome = true) : s.commitWait k = some (.waitParent, unknown) := by
  simp [State.commitWait, tasks, open_, child]

theorem commitWait_of_free (tasks : s.epochTasks k = 0) (open_ : s.epState k = 1) (root : s.epParent k = none) (cap : s.bsn.capture = none) : s.commitWait k = none := by
  simp [State.commitWait, tasks, open_, root, cap]

/-! EPOCH_COMMIT_INSTANT. -/

theorem exec_epochCommitInstant_of_stepEnd (own : (s.epoch k).commit = true) (open_ : s.epState k = 1) (ready : s.commitWait k = none) :
    exec (.epochCommitInstant k) s = .next (s.commitSlot k) := by
  change execEpochCommitInstant k s = _
  simp [execEpochCommitInstant, own, open_, ready]

theorem exec_epochCommitInstant_of_command {c : Cmd} (none_ : (s.epoch k).commit = false) (open_ : s.epState k = 1)
    (found : s.hcp.cmds.find? (fun c => c.opcode == 0x0309 && c.par 0 8 == s.epNum k && c.delayed.isSome) = some c) :
    exec (.epochCommitInstant k) s = exec (.epochCommit c.dseq) s := by
  change execEpochCommitInstant k s = execEpochCommit c.dseq s
  simp only [execEpochCommitInstant, execEpochCommit, none_, found, Bool.false_and, Bool.false_eq_true, if_false, if_pos open_]

/-! ## EPOCH_DISCARD -/

section DiscardCommand
variable {c : Cmd}

theorem cmdEpochDiscard_of_unheld (unheld : s.epSlot (c.par 0 8) = none) : cmdEpochDiscard c s = (.refuse .epochUnknown 0, s) := by
  simp [cmdEpochDiscard, unheld]

theorem cmdEpochDiscard_of_open (held : s.epSlot (c.par 0 8) = some k) (open_ : s.epState k = 1) : cmdEpochDiscard c s = (.done .ok [], s.discardSlot k) := by
  simp [cmdEpochDiscard, held, open_]

end DiscardCommand

/-- Slot `k` has dropped what it holds: it drains, or is DOOMED while its tasks run (R273). -/
def State.dropped (s : State) (k : Nat) : State :=
  ((s.bump R.GLB_SPEC_STALL_NS 0).freeSpill k).slotClosed k emptyEpoch (if s.epochTasks k = 0 then 5 else 3) R.GLB_SPEC_DISCARDS

theorem freeSpill_epoch (h : InForm s) (k j : Nat) : (s.freeSpill k).epoch j = s.epoch j := by
  rw [freeSpill_eq h]
  rfl

theorem freeSpill_mem (h : InForm s) (k : Nat) : (s.freeSpill k).mem = s.mem := by
  rw [freeSpill_eq h]

theorem freeSpill_tasks (h : InForm s) (k : Nat) : (s.freeSpill k).tasks = s.tasks := by
  rw [freeSpill_eq h]

theorem dropped_epoch (s : State) (k : Nat) : (s.dropped k).epoch k = emptyEpoch := by
  rw [State.dropped, slotClosed_epoch]

section Dropped
variable (h : InForm s) (hk : k < 2)
include h

theorem dropped_mem : (s.dropped k).mem = s.mem := by
  rw [State.dropped, slotClosed_mem, freeSpill_mem (State.inv_bump h _ _), State.bump_mem]

theorem dropped_epoch_ne {j : Nat} (ne : j ≠ k) : (s.dropped k).epoch j = s.epoch j := by
  rw [State.dropped, slotClosed_epoch_ne _ _ _ _ ne, freeSpill_epoch (State.inv_bump h _ _), epoch_bump]

theorem unspilled_inForm : InForm ((s.bump R.GLB_SPEC_STALL_NS 0).freeSpill k) := (freeSpill_regsOnly (State.inv_bump h _ _) k).1

include hk

theorem dropped_epState : (s.dropped k).epState k = if s.epochTasks k = 0 then 5 else 3 := by
  rw [State.dropped, slotClosed_epState (unspilled_inForm h) _ _ (specStat_ne hk (by decide)).symm]
  split <;> rfl

theorem dropped_count : (s.dropped k).reg R.GLB_SPEC_DISCARDS = s.reg R.GLB_SPEC_DISCARDS + 1 := by
  have free : ¬SpillCounter R.GLB_SPEC_DISCARDS := by simp [SpillCounter, R.GLB_SPEC_DISCARDS, R.GLB_SPEC_SPILL_W, R.GLB_SPEC_SPILL_E]
  rw [State.dropped, slotClosed_count (unspilled_inForm h) _ _ (specStat_ne hk (by decide)).symm, freeSpill_reg (State.inv_bump h _ _) k free,
    State.reg_bump h, if_neg (by decide)]

theorem dropped_other_epState : (s.dropped k).epState (1 - k) = s.epState (1 - k) := by
  have other : 1 - k < 2 := by omega
  refine epState_of_reg ?_
  rw [State.dropped, slotClosed_reg_ne (unspilled_inForm h) _ _ (fun e => other_slot_ne hk (specStat_inj.mp e)) (specStat_ne other (by decide)),
    freeSpill_reg (State.inv_bump h _ _) k (not_spillCounter_specStat other), State.reg_bump h, if_neg (specStat_ne other (by decide))]

/-- A discard of an open epoch with no write waiting in either slot. -/
theorem dropSlot_of_none_waiting (open_ : s.epState k = 1) (own : (s.epoch k).waiting = []) (none_ : (s.epoch (1 - k)).waiting = []) (live : s.epState (1 - k) ≠ 2) :
    s.dropSlot k = s.dropped k := by
  have form := State.inv_bump h R.GLB_SPEC_STALL_NS 0
  have tasks (e : Epoch) : (((s.bump R.GLB_SPEC_STALL_NS 0).freeSpill k).setEpoch k e).epochTasks k = s.epochTasks k := by
    change List.length (List.filter _ ((s.bump R.GLB_SPEC_STALL_NS 0).freeSpill k).tasks) = _
    rw [freeSpill_tasks form, State.bump_tasks]
    rfl
  have waits : (((s.bump R.GLB_SPEC_STALL_NS 0).freeSpill k).epoch k).waiting = [] := by rw [freeSpill_epoch form, epoch_bump, own]
  have other : ((s.dropped k).epoch (1 - k)).waiting = [] := by rw [dropped_epoch_ne h (other_slot_ne hk), none_]
  have still : (s.dropped k).epState (1 - k) ≠ 2 := by rw [dropped_other_epState h hk]; exact live
  unfold State.dropSlot
  rw [if_pos (.inl open_)]
  simp only [countStall_of_none_waiting hk own none_, waits, List.foldl_nil, tasks]
  exact retryHeld_of_none_waiting other still

/-- With the other slot FREE there is no child to discard too. -/
theorem discardSlot_of_alone (open_ : s.epState k = 1) (own : (s.epoch k).waiting = []) (none_ : (s.epoch (1 - k)).waiting = []) (free : s.epState (1 - k) = 0) :
    s.discardSlot k = s.dropped k := by
  simp [State.discardSlot, free, dropSlot_of_none_waiting h hk open_ own none_ (by omega)]

end Dropped

/-! ## EPOCH_DRAIN_COMPLETE -/

/-- Slot `k` is FREE and holds nothing (R271). -/
def State.freed (s : State) (k : Nat) : State := (((s.freeSpill k).setEpoch k emptyEpoch).setReg (R.GLB_SPEC_STAT k) 0).setReg (R.GLB_SPEC_NUM k) 0

theorem freed_spilled (s : State) (k : Nat) : ((s.freed k).epoch k).spilled = [] := by
  rw [State.freed, epoch_setReg, epoch_setReg, epoch_setEpoch]
  rfl

section Freed
variable (h : InForm s) (k : Nat)
include h

theorem emptied_inForm : InForm ((s.freeSpill k).setEpoch k emptyEpoch) := (freeSpill_regsOnly h k).1

theorem freed_reg_ne {o : Nat} (stat : o ≠ R.GLB_SPEC_STAT k) (num : o ≠ R.GLB_SPEC_NUM k) (spill : ¬SpillCounter o) : (s.freed k).reg o = s.reg o := by
  have form := emptied_inForm h k
  rw [State.freed, State.reg_setReg_ne (State.inv_setReg form _ _) _ num, State.reg_setReg_ne form _ stat, reg_setEpoch, freeSpill_reg h k spill]

theorem freed_epNum : (s.freed k).epNum k = 0 := by
  rw [State.epNum, State.freed, State.reg_setReg_same (State.inv_setReg (emptied_inForm h k) _ _)]
  rfl

theorem freed_epState : (s.freed k).epState k = 0 := by
  have form := emptied_inForm h k
  rw [State.epState, State.fld, State.freed, State.reg_setReg_ne (State.inv_setReg form _ _) _ (specStat_ne_specNum k k), State.reg_setReg_same form]
  rfl

theorem freed_mem : (s.freed k).mem = s.mem := by
  rw [State.freed, State.setReg_mem, State.setReg_mem, mem_setEpoch, freeSpill_mem h]

theorem freed_epoch_ne {j : Nat} (ne : j ≠ k) : (s.freed k).epoch j = s.epoch j := by
  rw [State.freed, epoch_setReg, epoch_setReg, epoch_setEpoch_ne _ _ ne, freeSpill_epoch h]

variable {k} (hk : k < 2)
include hk

theorem freeSlot_of_none_waiting (none_ : (s.epoch (1 - k)).waiting = []) (live : s.epState (1 - k) ≠ 2) : s.freeSlot k = s.freed k := by
  have other : 1 - k < 2 := by omega
  have same : (s.freed k).epState (1 - k) = s.epState (1 - k) :=
    epState_of_reg (freed_reg_ne h k (fun e => other_slot_ne hk (specStat_inj.mp e)) (specStat_ne_specNum _ _) (not_spillCounter_specStat other))
  have quiet : ((s.freed k).epoch (1 - k)).waiting = [] := by rw [freed_epoch_ne h k (other_slot_ne hk), none_]
  have still : (s.freed k).epState (1 - k) ≠ 2 := by rw [same]; exact live
  exact retryHeld_of_none_waiting quiet still

theorem freed_jobState : (s.freed k).jobState = s.jobState := by
  have spill : ¬SpillCounter R.ERR_JOB := by simp [SpillCounter, R.ERR_JOB, R.GLB_SPEC_SPILL_W, R.GLB_SPEC_SPILL_E]
  exact congrArg (fget · F.ERR_JOB_STATE) (freed_reg_ne h k (specStat_ne hk (by decide)).symm (specNum_ne hk (by decide)).symm spill)

end Freed

/-- No job that is STOPPING: nothing waits for the module to be STOPPED (R555). -/
theorem settleStop_of_not_stopping (job : s.jobState ≠ 2) : s.settleStop = s := by
  simp [State.settleStop, job]

theorem exec_epochDrainComplete_of_draining (draining : s.epState k = 4 ∨ s.epState k = 5) : exec (.epochDrainComplete k) s = .next (s.freeSlot k).settleStop :=
  congrArg Host.Outcome.next (if_pos draining)

/-! ## The write of GLB_SPEC_CTL -/

/-- The fields that GLB_SPEC_CTL always takes are written (R264). -/
def State.specLimits (s : State) (v : Word) : State :=
  s.setFlds R.GLB_SPEC_CTL [(F.GLB_SPEC_CTL_DRAIN_SHARE, fget v F.GLB_SPEC_CTL_DRAIN_SHARE), (F.GLB_SPEC_CTL_STALL_LIM, fget v F.GLB_SPEC_CTL_STALL_LIM)]

/-- A field of a word is within its width. -/
theorem fget_mod (v : Word) (f : Fld) : fget v f % 2 ^ (f.hi + 1 - f.lo) = fget v f := Nat.mod_eq_of_lt (fget_lt v f)

/-- A field below the one written is as before. -/
theorem fld_setFld_below (h : InForm s) (o : Nat) {f g : Fld} (x : Nat) (lo : f.lo ≤ f.hi) (hi : f.hi < 64) (le : g.lo ≤ g.hi) (below : g.hi < f.lo) : (s.setFld o f x).fld o g = s.fld o g := by
  rw [State.fld, State.reg_setFld h, if_pos rfl, fget_fset_below _ _ _ _ lo hi le below]
  rfl

theorem exec_specCtlWrite (s : State) (v : Word) : exec (.specCtlWrite v) s = .next (s.writeSpecCtl v) := rfl

theorem specLimits_mem (s : State) (v : Word) : (s.specLimits v).mem = s.mem := by
  rw [State.specLimits, State.setFlds_mem]

section SpecCtl
variable (h : InForm s) (v : Word)
include h

theorem specLimits_reg_ne {o : Nat} (ne : o ≠ R.GLB_SPEC_CTL) : (s.specLimits v).reg o = s.reg o := by
  rw [State.specLimits, State.reg_setFlds h, if_neg ne]

theorem specLimits_ctl : (s.specLimits v).reg R.GLB_SPEC_CTL =
    fset (fset (s.reg R.GLB_SPEC_CTL) F.GLB_SPEC_CTL_DRAIN_SHARE (fget v F.GLB_SPEC_CTL_DRAIN_SHARE)) F.GLB_SPEC_CTL_STALL_LIM (fget v F.GLB_SPEC_CTL_STALL_LIM) := by
  rw [State.specLimits, State.reg_setFlds h, if_pos rfl]
  rfl

theorem specLimits_stallLim : (s.specLimits v).fld R.GLB_SPEC_CTL F.GLB_SPEC_CTL_STALL_LIM = fget v F.GLB_SPEC_CTL_STALL_LIM := by
  rw [State.fld, specLimits_ctl h, fget_fset_same _ _ _ (by decide) (by decide), fget_mod]

theorem specLimits_drainShare : (s.specLimits v).fld R.GLB_SPEC_CTL F.GLB_SPEC_CTL_DRAIN_SHARE = fget v F.GLB_SPEC_CTL_DRAIN_SHARE := by
  rw [State.fld, specLimits_ctl h, fget_fset_above _ _ _ _ (by decide) (by decide) (by decide), fget_fset_same _ _ _ (by decide) (by decide), fget_mod]

theorem specLimits_en : (s.specLimits v).fld R.GLB_SPEC_CTL F.GLB_SPEC_CTL_EN = s.fld R.GLB_SPEC_CTL F.GLB_SPEC_CTL_EN := by
  rw [State.fld, specLimits_ctl h, fget_fset_above _ _ _ _ (by decide) (by decide) (by decide), fget_fset_above _ _ _ _ (by decide) (by decide) (by decide)]
  rfl

theorem specLimits_epState (hk : k < 2) : (s.specLimits v).epState k = s.epState k := by
  exact epState_of_reg (specLimits_reg_ne h v (specStat_ne hk (by decide)))

theorem specLimits_inForm : InForm (s.specLimits v) := State.inv_setFlds h _ _

/-- EN is written while no task runs and both slots are FREE, and only then. -/
theorem writeSpecCtl_eq : s.writeSpecCtl v =
    if s.tasks = [] ∧ s.epState 0 = 0 ∧ s.epState 1 = 0 then (s.specLimits v).setFld R.GLB_SPEC_CTL F.GLB_SPEC_CTL_EN (fget v F.GLB_SPEC_CTL_EN) else s.specLimits v := by
  have tasks : (s.specLimits v).tasks = s.tasks := by rw [State.specLimits, State.setFlds_tasks]
  unfold State.writeSpecCtl
  rw [← State.specLimits]
  simp only [tasks, specLimits_epState h v (show 0 < 2 by decide), specLimits_epState h v (show 1 < 2 by decide), Bool.and_eq_true, List.isEmpty_iff, beq_iff_eq, and_assoc]

theorem writeSpecCtl_mem : (s.writeSpecCtl v).mem = s.mem := by
  rw [writeSpecCtl_eq h]
  split
  · rw [State.setFld_mem, specLimits_mem]
  · exact specLimits_mem s v

theorem writeSpecCtl_reg_ne {o : Nat} (ne : o ≠ R.GLB_SPEC_CTL) : (s.writeSpecCtl v).reg o = s.reg o := by
  rw [writeSpecCtl_eq h]
  split
  · rw [State.reg_setFld (specLimits_inForm h v), if_neg ne, specLimits_reg_ne h v ne]
  · exact specLimits_reg_ne h v ne

/-- EN lies above the other fields, so they read as written with or without it. -/
theorem writeSpecCtl_below_en {f : Fld} (le : f.lo ≤ f.hi) (below : f.hi < F.GLB_SPEC_CTL_EN.lo) :
    (s.writeSpecCtl v).fld R.GLB_SPEC_CTL f = (s.specLimits v).fld R.GLB_SPEC_CTL f := by
  rw [writeSpecCtl_eq h]
  split
  · exact fld_setFld_below (specLimits_inForm h v) _ _ (by decide) (by decide) le below
  · rfl

theorem writeSpecCtl_en : (s.writeSpecCtl v).fld R.GLB_SPEC_CTL F.GLB_SPEC_CTL_EN =
    if s.tasks = [] ∧ s.epState 0 = 0 ∧ s.epState 1 = 0 then fget v F.GLB_SPEC_CTL_EN else s.fld R.GLB_SPEC_CTL F.GLB_SPEC_CTL_EN := by
  rw [writeSpecCtl_eq h]
  split
  · rw [fld_setFld_same (specLimits_inForm h v) _ _ _ (by decide) (by decide), fget_mod]
  · exact specLimits_en h v

end SpecCtl

/-! ## Predicated nodes -/

/-- Node `j` of a graph has not been evaluated. -/
def Graph.unevaluated (x : Graph) (j : Nat) : Bool := match x.nodes[j]? with | some m => m.st == .wait | none => false

/-- A node evaluated: it starts, or is skipped with status SKIPPED_PREDICATE (R169, R170). -/
def State.evaluated (s : State) (g k : Nat) (n : GNode) (x : Graph) (b : Bool) : State := if b then s.startNode g k n x else s.nodeDone g k .skippedPredicate [0, 0, 0]

section Predicates
variable {g k : Nat} {x : Graph} {n : GNode} {c : Cmd} (graph : tfind s.graphs g = some x) (node : x.nodes[k]? = some n) (cmd : s.cmd? g = some c) (started : c.started = true)
  (sound : x.failed = none) (waits : n.st = .wait) (free : s.entryWaits g = false) (oldest : x.elig.find? x.unevaluated = some k)
include graph node cmd started sound waits free oldest

/-- The node that has been eligible longest is evaluated by its predicate: none, an earlier node that completed or was skipped, or a word of memory (R167, R169). -/
theorem exec_predicateEvaluation_of_oldest :
    (predOp n.pred = 0 → exec (.predicateEvaluation g k) s = .next (s.startNode g k n x)) ∧
    (∀ m, x.nodes[predRef n.pred]? = some m →
      (predOp n.pred = 6 → exec (.predicateEvaluation g k) s = .next (s.evaluated g k n x (m.st == .done))) ∧
      (predOp n.pred = 7 → exec (.predicateEvaluation g k) s = .next (s.evaluated g k n x (m.st == .skipped)))) ∧
    (∀ pa n1, 1 ≤ predOp n.pred → predOp n.pred ≤ 4 → s.place (s.nodeView n).1 (predAddr n.pred) 8 false = .at_ [(pa, n1)] →
      exec (.predicateEvaluation g k) s =
        .next (s.evaluated g k n x (wordHolds n.pred (natLE (((s.quarterFor (s.nodeView n).2 (pa / 128 * 128)).drop (pa % 128)).take 8))))) := by
  have notReady : n.st ≠ .ready := by simp [waits]
  have due : (decide (n.st ≠ .wait) || x.failed.isSome || s.entryWaits g || x.elig.find? x.unevaluated != some k) = false := by simp [waits, sound, free, oldest]
  refine ⟨fun op => ?always, fun m ref => ⟨fun op => ?done, fun op => ?skipped⟩, fun pa n1 low high place => ?word⟩
  all_goals
    change execPredicateEvaluation g k s = _
    unfold execPredicateEvaluation
    simp only [graph, cmd, Option.map_some, started, node]
    refine (if_neg notReady).trans ((if_neg (ne_true_of_eq_false due)).trans ?_)
  case always => simp only [op]
  case done => simp only [op, ref, State.evaluated]
  case skipped => simp only [op, ref, State.evaluated]
  case word =>
    split
    · omega
    · omega
    · omega
    · rw [place]
      rfl

end Predicates

/-! ## What a note and an event leave alone

A record and its event pass through the completion queues and the links, and an entry in device memory may need a chunk read first. None of it
touches the time, the epoch slots or the registers of the global block, which lie below 0x100000 (R462). -/

/-- Tables in canonical form, with the epochs, the time and the global block of `s`. -/
def GlobalOf (s : State) (r : Table Word) (m : Memory) (e : Table Epoch) (n : Nat) : Prop :=
  Canonical r m ∧ e = s.epochs ∧ n = s.now ∧ ∀ o, o < 0x100000 → tget regReset r o = s.reg o

/-- `t` is in canonical form and agrees with `s` on its epochs, its time and the global block. -/
abbrev KeepsGlobal (s t : State) : Prop := GlobalOf s t.regs t.mem t.epochs t.now

theorem KeepsGlobal.refl (h : InForm s) : KeepsGlobal s s := ⟨h, rfl, rfl, fun _ _ => rfl⟩

theorem KeepsGlobal.setReg (h : KeepsGlobal s t) {o : Nat} (v : Word) (high : 0x100000 ≤ o) : KeepsGlobal s (t.setReg o v) := by
  obtain ⟨form, epochs, now, regs⟩ := h
  exact ⟨State.inv_setReg form o v, epochs, now, fun x low => (State.reg_setReg_ne form v (by omega)).trans (regs x low)⟩

theorem KeepsGlobal.setFld (h : KeepsGlobal s t) {o : Nat} (f : Fld) (x : Nat) (high : 0x100000 ≤ o) : KeepsGlobal s (t.setFld o f x) := h.setReg _ high

theorem KeepsGlobal.setFlds (h : KeepsGlobal s t) {o : Nat} (l : List (Fld × Nat)) (high : 0x100000 ≤ o) : KeepsGlobal s (t.setFlds o l) := h.setReg _ high

theorem KeepsGlobal.bump (h : KeepsGlobal s t) {o : Nat} (n : Nat) (high : 0x100000 ≤ o) : KeepsGlobal s (t.bump o n) := h.setReg _ high

theorem KeepsGlobal.ite {c : Prop} [Decidable c] {a b : State} (ha : KeepsGlobal s a) (hb : KeepsGlobal s b) : KeepsGlobal s (if c then a else b) := by
  split
  · exact ha
  · exact hb

/-! Records of the state that hold none of these. -/

theorem KeepsGlobal.hcp (h : KeepsGlobal s t) (x : Hcp) : KeepsGlobal s { t with hcp := x } := h
theorem KeepsGlobal.pod (h : KeepsGlobal s t) (x : Pod) : KeepsGlobal s { t with pod := x } := h
theorem KeepsGlobal.mirror (h : KeepsGlobal s t) (x : Mirror) : KeepsGlobal s { t with mirror := x } := h
theorem KeepsGlobal.bsn (h : KeepsGlobal s t) (x : Basin) : KeepsGlobal s { t with bsn := x } := h
theorem KeepsGlobal.errs (h : KeepsGlobal s t) (x : Errs) : KeepsGlobal s { t with errs := x } := h
theorem KeepsGlobal.setQueue (h : KeepsGlobal s t) (q : Nat) (x : Queue) : KeepsGlobal s (t.setQueue q x) := h
theorem KeepsGlobal.vector (h : KeepsGlobal s t) (v : Nat) : KeepsGlobal s (t.vector v) := h

/-! Links: a packet sent changes the pod alone. -/

theorem unpark_eq (s : State) (w : WaitPkt) (n c : Nat) : ∃ p, s.unpark w n c = { s with pod := p } := by
  unfold State.unpark
  split
  · exact ⟨_, rfl⟩
  · exact ⟨_, rfl⟩

theorem openWith_eq (s : State) (n c : Nat) (w : WaitPkt) : ∃ p, s.openWith n c w = { s with pod := p } := by
  unfold State.openWith
  dsimp only
  split
  · exact unpark_eq _ w n c
  · exact ⟨_, rfl⟩

theorem openOnLink_eq (s : State) (n : Nat) (w : WaitPkt) : ∃ p, s.openOnLink n w = { s with pod := p } := by
  unfold State.openOnLink
  dsimp only
  split
  · exact openWith_eq s n _ w
  · exact ⟨_, rfl⟩

theorem sendW_eq (s : State) (w : WaitPkt) : ∃ p, s.sendW w = { s with pod := p } := by
  unfold State.sendW
  dsimp only
  split
  · exact ⟨_, rfl⟩
  · split
    · exact ⟨_, rfl⟩
    · split
      · exact openOnLink_eq s _ _
      · exact ⟨_, rfl⟩

theorem KeepsGlobal.sendLD (h : KeepsGlobal s t) (p : LPkt) (bs : List Byte) (half : Nat) : KeepsGlobal s (t.sendLD p bs half) := by
  obtain ⟨q, e⟩ := sendW_eq t { pkt := p, data := bs, half := half }
  rw [State.sendLD, e]
  exact h.pod q

/-! Chunks read before a write to them. -/

theorem KeepsGlobal.openStream (h : KeepsGlobal s t) (dest addr kind collId owner lclass table half : Nat) (bs : List Byte) :
    KeepsGlobal s (t.openStream dest addr kind collId owner lclass table half bs) := by
  unfold State.openStream
  exact (h.pod _).sendLD _ _ _

theorem KeepsGlobal.sendChunk (h : KeepsGlobal s t) (n c : Nat) : KeepsGlobal s (t.sendChunk n c) := by
  unfold State.sendChunk
  split
  · exact ((h.mirror _).bump _ (by decide)).openStream ..
  · exact h

theorem KeepsGlobal.showMirror (h : KeepsGlobal s t) : KeepsGlobal s t.showMirror := by
  unfold State.showMirror
  exact h.setFlds _ (by decide)

theorem KeepsGlobal.releaseMirror (h : KeepsGlobal s t) (c : Nat) : KeepsGlobal s (t.releaseMirror c) := by
  unfold State.releaseMirror
  exact (h.bump (o := R.LNK_MIR_WAIT_NS) _ (by decide)).mirror _

theorem KeepsGlobal.copyClosing (h : KeepsGlobal s t) (c : Nat) : KeepsGlobal s (t.copyClosing c) := by
  unfold State.copyClosing
  split
  · exact (((h.mirror _).sendChunk _ c).releaseMirror c).showMirror
  · exact h

theorem KeepsGlobal.showCapture (h : KeepsGlobal s t) : KeepsGlobal s t.showCapture := by
  unfold State.showCapture
  split
  · exact h.setFlds _ (by decide)
  · exact h.setReg _ (by decide)

theorem KeepsGlobal.releaseCapture (h : KeepsGlobal s t) (c : Nat) : KeepsGlobal s (t.releaseCapture c) := by
  unfold State.releaseCapture
  split
  · exact ((h.bump (o := R.BSN_CAPTURE_WAIT_NS) _ (by decide)).bsn _).showCapture
  · exact h

theorem KeepsGlobal.captureChunk (h : KeepsGlobal s t) (c : Nat) : KeepsGlobal s (t.captureChunk c) := by
  unfold State.captureChunk
  split
  · exact ((h.bsn _).releaseCapture c).bump _ (by decide)
  · exact h

theorem KeepsGlobal.readFirst (h : KeepsGlobal s t) (a n : Nat) : KeepsGlobal s (t.readFirst a n) := by
  unfold State.readFirst
  refine List.foldlRecOn _ _ h fun u ih c _ => ?_
  have copied : KeepsGlobal s (if u.mirror.c.contains c then u.copyClosing c else u) := (ih.copyClosing c).ite ih
  exact (copied.captureChunk c).ite copied

theorem KeepsGlobal.store (h : KeepsGlobal s t) (a : Nat) (bs : List Byte) : KeepsGlobal s (t.store a bs) := by
  obtain ⟨⟨regs, mem⟩, rest⟩ := h.readFirst a bs.length
  exact ⟨⟨regs, Memory.wf_writeBytes _ _ mem⟩, rest⟩

/-! Completion queues and events. -/

theorem KeepsGlobal.signalQueue (h : KeepsGlobal s t) (q : Nat) : KeepsGlobal s (t.signalQueue q) := by
  unfold State.signalQueue
  exact ((h.setQueue q _).vector _).ite (h.setQueue q _)

theorem le_cqStatus (q : Nat) : 0x100000 ≤ R.HCP_Q_STATUS q := by
  simp only [R.HCP_Q_STATUS]
  omega

theorem KeepsGlobal.cqWrite (h : KeepsGlobal s t) (q : Nat) (e : CqEntry) : KeepsGlobal s (t.cqWrite q e) := by
  unfold State.cqWrite
  refine (KeepsGlobal.signalQueue ?_ q).ite ?_
  all_goals exact ((((h.hcp _).store _ _).ite (h.hcp _)).setFld _ _ (le_cqStatus q)).setQueue q _

theorem KeepsGlobal.cqPost (h : KeepsGlobal s t) (q : Nat) (e : CqEntry) : KeepsGlobal s (t.cqPost q e) := by
  have lost : 0x100000 ≤ if e.disp = .event then R.HCP_EVT_LOST else R.HCP_CQ_DROP := by split <;> decide
  unfold State.cqPost
  exact (h.bump _ lost).ite ((h.cqWrite q e).ite ((h.setQueue q _).ite (((h.bump _ (by decide)).setQueue q _).ite (h.setQueue q _))))

theorem KeepsGlobal.replyTo (h : KeepsGlobal s t) (pos q fwd : Nat) (e : CqEntry) : KeepsGlobal s (t.replyTo pos q fwd e) := by
  unfold State.replyTo
  exact (h.cqPost q e).ite (h.sendLD ..)

theorem KeepsGlobal.postModule (h : KeepsGlobal s t) (e : CqEntry) : KeepsGlobal s (t.postModule e) := by
  unfold State.postModule
  exact ((h.bump _ (by decide)).ite (h.cqPost _ e)).ite (h.sendLD ..)

theorem KeepsGlobal.event (h : KeepsGlobal s t) (ev : Event) (kind idx : Nat) (d : List Nat) (dst : Option (Nat × Nat × Nat)) : KeepsGlobal s (t.event ev kind idx d dst) := by
  unfold State.event
  dsimp only
  split
  · exact (h.hcp _).replyTo ..
  · exact (h.hcp _).postModule _

/-! Error records. -/

theorem le_errClass (k : Nat) : 0x100000 ≤ R.ERR_CLASS k := by
  simp only [R.ERR_CLASS]
  omega

theorem KeepsGlobal.putRecord (h : KeepsGlobal s t) (cause cls skind sindex rung d0 d1 dseq flags stopId : Nat) :
    KeepsGlobal s (t.putRecord cause cls skind sindex rung d0 d1 dseq flags stopId) := by
  have counted (x : Errs) (n : Word) := ((h.errs x).setReg (o := R.ERR_NEWEST) n (by decide)).bump 1 (le_errClass cls)
  have unread (x : Errs) (n : Word) (v : Nat) := (counted x n).setFld (o := R.ERR_STATUS) F.ERR_STATUS_UNREAD v (by decide)
  unfold State.putRecord
  refine (KeepsGlobal.vector ?_ 66).ite ?_
  all_goals
    refine (KeepsGlobal.event ?_ ..).ite ?_
    all_goals exact ((unread _ _ _).setFld _ _ (by decide)).ite (unread _ _ _)

theorem KeepsGlobal.note (h : KeepsGlobal s t) (cause cls skind sindex d0 d1 dseq : Nat) : KeepsGlobal s (t.note cause cls skind sindex d0 d1 dseq) := by
  unfold State.note
  exact h.putRecord ..

/-! ## EPOCH_STALL_LIMIT -/

/-- The wait `w` of slot `k` is marked reported, at the time at which it has lasted `lim` µs (R270). -/
def State.stallReported (s : State) (k lim : Nat) (w : HeldWr) : State :=
  ({ s with now := max s.now (w.since + 1000 * lim) } : State).setEpoch k { s.epoch k with waiting := (s.epoch k).waiting.replace w { w with reported := true } }

/-- The wait is counted (R279), and noted in a record and an event with the epoch's number. -/
def State.stallNoted (s : State) (k lim : Nat) (w : HeldWr) : State :=
  let m := (s.stallReported k lim w).bump R.GLB_SPEC_STALLS
  let n := m.epNum k
  let v := m.note 0x0003 0 0 0 n 0
  v.event .epochStalled 0 0 [n % 2 ^ 32, n / 2 ^ 32] ((v.tasks.find? (fun (p : Nat × Task) => p.2.epoch == k + 1)).bind (fun p => v.taskDest p.2))

theorem exec_epochStallLimit_of_all_reported (all : ∀ w ∈ (s.epoch k).waiting, w.reported = true) : exec (.epochStallLimit k) s = .next s := by
  have none_ : (s.epoch k).waiting.find? (fun w => !w.reported) = none := by simpa using all
  change execEpochStallLimit k s = _
  simp only [execEpochStallLimit, none_]

theorem exec_epochStallLimit_of_wait {w : HeldWr} (oldest : (s.epoch k).waiting.find? (fun w => !w.reported) = some w) (lim : s.fld R.GLB_SPEC_CTL F.GLB_SPEC_CTL_STALL_LIM ≠ 0) :
    exec (.epochStallLimit k) s = .next (s.stallNoted k (s.fld R.GLB_SPEC_CTL F.GLB_SPEC_CTL_STALL_LIM) w) := by
  change execEpochStallLimit k s = _
  unfold execEpochStallLimit
  dsimp only
  rw [oldest]
  exact if_neg lim

section Stalled
variable (lim : Nat) (w : HeldWr)

theorem stallReported_reg (s : State) (k o : Nat) : (s.stallReported k lim w).reg o = s.reg o := rfl

theorem stallReported_inForm (h : InForm s) (k : Nat) : InForm (s.stallReported k lim w) := h

theorem stallReported_epoch (s : State) (k : Nat) : ((s.stallReported k lim w).epoch k).waiting = (s.epoch k).waiting.replace w { w with reported := true } := by
  rw [State.stallReported, epoch_setEpoch]

/-- The record and the event leave the epoch slots, the time and the global block as they are marked. -/
theorem stallNoted_keepsGlobal (h : InForm s) (k : Nat) : KeepsGlobal ((s.stallReported k lim w).bump R.GLB_SPEC_STALLS) (s.stallNoted k lim w) :=
  ((KeepsGlobal.refl (State.inv_bump (stallReported_inForm lim w h k) R.GLB_SPEC_STALLS 1)).note ..).event ..

theorem stallNoted_waiting (h : InForm s) (k : Nat) : ((s.stallNoted k lim w).epoch k).waiting = (s.epoch k).waiting.replace w { w with reported := true } := by
  obtain ⟨-, epochs, -, -⟩ := stallNoted_keepsGlobal lim w h k
  rw [State.epoch, epochs, ← State.epoch, epoch_bump, stallReported_epoch]

theorem stallNoted_now (h : InForm s) (k : Nat) : (s.stallNoted k lim w).now = max s.now (w.since + 1000 * lim) := by
  obtain ⟨-, -, now, -⟩ := stallNoted_keepsGlobal lim w h k
  rw [now]
  rfl

/-- In the global block only the count of stalls has changed. -/
theorem stallNoted_reg (h : InForm s) (k : Nat) {o : Nat} (low : o < 0x100000) :
    (s.stallNoted k lim w).reg o = if o = R.GLB_SPEC_STALLS then s.reg R.GLB_SPEC_STALLS + 1 else s.reg o := by
  obtain ⟨-, -, -, global⟩ := stallNoted_keepsGlobal lim w h k
  rw [State.reg, global o low, State.reg_bump (stallReported_inForm lim w h k), stallReported_reg, stallReported_reg]
  rfl

end Stalled

/-! ## The obligation -/

/-- Settles O45: each command is answered by what its start says, and each instant by the lemma of its operation above. -/
theorem epochsAndPredicates : Obligations.EpochsAndPredicates := by
  unfold Obligations.EpochsAndPredicates
  refine ⟨fun s id c form => ⟨?open_, ?commit, ?commitUnheld, ?discardUnheld, ?discard⟩, fun s k form hk => ⟨?stepEnd, ?command, ?drain, ?stall, ?quiet⟩, ?specCtl, ?predicate⟩
  case open_ =>
    intro starts
    rw [exec_epochOpen_of_starts starts]
    have dseq := dseq_of_starts starts
    refine ⟨fun j held => ?_, fun fresh child gone => ?_, fun fresh root busy0 busy1 => ?_, fun k fresh root hk free first => ?_, fun k j fresh child parent live hk free first => ?_⟩
    · rw [cmdEpochOpen_of_held held, ← dseq]
      rfl
    · rw [cmdEpochOpen_of_unknown fresh child gone, ← dseq]
      rfl
    · rw [cmdEpochOpen_of_busy fresh root busy0 busy1]
      rfl
    · rw [cmdEpochOpen_of_root fresh root (find_free_slot hk free first), ← dseq]
      have other := other_slot_ne hk
      refine ⟨_, rfl, slotOpened_epState form _ _ _, slotOpened_epParent form _ _ _ (by simp), slotOpened_epNum form _ _ _, ?_, ?_, slotOpened_epoch_ne _ _ _ _ other, slotOpened_mem ..⟩
      · exact slotOpened_quarters ..
      · exact epState_of_reg (slotOpened_reg_ne form _ _ _ (fun e => other (specStat_inj.mp e)) (specStat_ne_specNum _ _))
    · rw [cmdEpochOpen_of_child fresh child parent live (find_free_slot hk free first), ← dseq]
      have two : ∀ i, some j = some i → i < 2 := fun i e => Option.some.inj e ▸ lt_of_epSlot parent
      exact ⟨_, rfl, slotOpened_epState form _ _ _, slotOpened_epParent form _ _ _ two, slotOpened_epNum form _ _ _⟩
  case commit =>
    intro starts k held
    have hk := lt_of_epSlot held
    have dseq := dseq_of_starts starts
    rw [exec_epochCommit_of_starts starts]
    refine ⟨fun doomed => ?_, fun live tasks => ?_, fun live tasks child => ?_, fun live tasks root cap mir none_ other => ?_⟩
    · rw [cmdEpochCommit_of_doomed held doomed, ← dseq]
      rfl
    · obtain ⟨e, wait⟩ := commitWait_of_tasks tasks
      rw [cmdEpochCommit_of_wait held live wait]
      exact ⟨e, rfl⟩
    · rw [cmdEpochCommit_of_wait held live (commitWait_of_parent tasks live child)]
      rfl
    · rw [cmdEpochCommit_of_ready held live (commitWait_of_free tasks live root cap), commitSlot_of_none_waiting form hk mir cap none_ other, ← dseq]
      have done := committed_inForm form k
      have commits : R.GLB_SPEC_STAT (1 - k) ≠ R.GLB_SPEC_COMMITS := specStat_ne (by omega) (by decide)
      refine ⟨_, rfl, ?state, ?count, ?quarters, ?last, fun child => orphaned_epParent k done ?child, fun q bs one x => ?memory⟩
      case state => rw [orphaned_epState k done, committed_epState form hk]
      case count => rw [orphaned_reg_ne k done commits.symm, committed_count form hk mir cap]
      case quarters => rw [State.epoch, orphaned_epochs, ← State.epoch, committed_quarters]
      case last => rw [orphaned_jnl, committed_lastSpec form hk mir cap]
      case child => rw [epParent_of_reg (committed_other_stat form hk mir cap), child]
      case memory =>
        rw [orphaned_mem, committed_mem, one]
        exact State.readByte_store_of_none_held form mir cap x
  case commitUnheld =>
    intro starts unheld
    rw [exec_epochCommit_of_starts starts, cmdEpochCommit_of_unheld unheld, ← dseq_of_starts starts]
    split <;> rfl
  case discardUnheld =>
    intro starts unheld
    rw [exec_epochDiscard_of_starts starts, cmdEpochDiscard_of_unheld unheld, ← dseq_of_starts starts]
    rfl
  case discard =>
    intro starts k held live own none_ free
    have hk := lt_of_epSlot held
    rw [exec_epochDiscard_of_starts starts, cmdEpochDiscard_of_open held live, discardSlot_of_alone form hk live own none_ free, ← dseq_of_starts starts]
    exact ⟨_, rfl, dropped_epState form hk, congrArg Epoch.quarters (dropped_epoch s k), dropped_mem form, dropped_count form hk⟩
  case stepEnd => exact exec_epochCommitInstant_of_stepEnd
  case command => exact fun none_ c live found => exec_epochCommitInstant_of_command none_ live found
  case drain =>
    intro draining none_ live job
    rw [exec_epochDrainComplete_of_draining draining, freeSlot_of_none_waiting form hk none_ live, settleStop_of_not_stopping (by rwa [freed_jobState form hk])]
    exact ⟨_, rfl, freed_epState form k, freed_epNum form k, freed_spilled s k, freed_mem form k⟩
  case stall =>
    intro w oldest lim
    have stat : R.GLB_SPEC_STAT k < 0x100000 := Nat.lt_trans (specStat_mem hk).2 (by decide)
    refine ⟨_, exec_epochStallLimit_of_wait oldest lim, stallNoted_waiting _ w form k, stallNoted_now _ w form k, ?_, epState_of_reg ?_⟩
    · rw [stallNoted_reg _ w form k (by decide), if_pos rfl]
    · rw [stallNoted_reg _ w form k stat, if_neg (specStat_ne hk (by decide))]
  case quiet => exact exec_epochStallLimit_of_all_reported
  case specCtl =>
    intro s v form
    refine ⟨_, exec_specCtlWrite s v, writeSpecCtl_mem form v, fun o ne => writeSpecCtl_reg_ne form v ne, ?_, ?_, writeSpecCtl_en form v⟩
    · rw [writeSpecCtl_below_en form v (by decide) (by decide), specLimits_stallLim form]
    · rw [writeSpecCtl_below_en form v (by decide) (by decide), specLimits_drainShare form]
  case predicate =>
    intro s g k x n c graph node cmd started sound waits free oldest
    obtain ⟨always, earlier, word⟩ := exec_predicateEvaluation_of_oldest graph node cmd started sound waits free oldest
    refine ⟨always, fun m ref => ⟨fun op => ?_, fun op => ?_⟩, word⟩
    · rw [(earlier m ref).1 op, State.evaluated]
      simp only [beq_iff_eq]
    · rw [(earlier m ref).2 op, State.evaluated]
      simp only [beq_iff_eq]

end Sys2Proof.Machine
end

section
/-!
PROOFS of the family 06_address_loops: what a store leaves in memory (O7), and the vector engine's moves and accesses of the local store (O12).
-/
namespace Sys2Proof.Machine

open Sys2Proof

variable {s : State}

/-! ## Memory -/

/-- Settles O7: the form is kept by every byte stored, and the bytes read back by the read-after-write law of the memory. -/
theorem memoryReadAfterWrite : Obligations.MemoryReadAfterWrite := by
  unfold Obligations.MemoryReadAfterWrite
  exact fun m a bs wf => ⟨Memory.wf_writeBytes a bs wf, fun x => Memory.readByte_writeBytes wf a x bs⟩

/-! ## The vector engine after an issue -/

/-- Counting a vector instruction does not turn hazard-check mode on or off (R92, R213). -/
theorem hazEn_vecIssued (form : InForm s) (site : Nat) (g : Option AttSig) (x : Effect) : (vecIssued s site g x).hazEn site = s.hazEn site := by
  have other : R.SPR_CTL site ≠ R.SPR_VEC_ISSUE site := by simp only [R.SPR_CTL, R.SPR_VEC_ISSUE]; omega
  unfold vecIssued State.hazEn State.fld
  rw [State.reg_bump (s := s.setSpire site _) form, if_neg other, State.reg_setSpire]

theorem vec_free_vecIssued (s : State) (site : Nat) (g : Option AttSig) (x : Effect) :
    ((vecIssued s site g x).spire site).vec.free = (s.spire site).issueAt .vector + x.occ := by
  unfold vecIssued
  rw [spire_bump, spire_setSpire]
  rfl

/-! ## Accesses of the local store

VLD and VST are the linear forms: 32-bit elements, the lane number as index. -/

/-- The offset in the local store of each unmasked lane (R206). -/
def VMem.offsets (i : VMem) (p : Spire) (linear : Bool) : List (Nat × Nat) :=
  laneOffsets (p.mask i.k) i.base (if linear then 4 else i.size) (fun l => if linear then l else elemAt (p.vreg i.idx).toNat 32 l)

/-- What an access lands: the lanes' elements in the local store, or the bytes of the local store in the register. -/
def VMem.writes (i : VMem) (s : State) (site : Nat) (scatter linear : Bool) : List SWr :=
  let p := s.spire site
  let size := if linear then 4 else i.size
  let offs := i.offsets p linear
  if scatter then offs.map (fun x => SWr.ls x.2 (bytesLE size (elemAt (p.vreg i.v).toNat 32 x.1)))
  else [.vec i.v (BitVec.ofNat 2048 (offs.foldl (fun v x => v + s.loadLE (lsBase site + x.2) size * 2 ^ (32 * x.1)) 0)) (laneMask (p.mask i.k))]

/-- The effect of an access whose addresses all lie in the local store (R206). -/
def VMem.effect (i : VMem) (s : State) (site : Nat) (scatter linear : Bool) : Effect :=
  let offs := i.offsets (s.spire site) linear
  let occ := 4 + (bankPasses offs - 1)
  { occ := occ, lat := occ + 12, writes := i.writes s site scatter linear, flags := 0,
    reads := (if scatter then [(2, i.v)] else []) ++ (if linear then [] else [(2, i.idx)]), result := true, point := 1, lanes := if scatter then offs.map Prod.fst else [] }

/-- An access has issued, and its bank passes beyond the first are counted (R206, R213). -/
def VMem.issued (i : VMem) (s : State) (site : Nat) (scatter linear : Bool) : State :=
  let n := bankPasses (i.offsets (s.spire site) linear) - 1
  let t := vecIssued s site i.sig (i.effect s site scatter linear)
  if n = 0 then t else t.bump (R.SPR_VEC_BANKPASS site) n

/-- The form of an access: registers in range, a permitted element size, and an aligned base (R206). -/
def VMem.formed (i : VMem) (linear : Bool) : Bool :=
  let size := if linear then 4 else i.size
  Nat.blt i.v 32 && Nat.blt i.idx 32 && Nat.blt i.k 8 && (size == 1 || size == 2 || size == 4) && i.base % size == 0

/-- An access that is well formed and within the local store issues. The engine is free again after the occupancy, and the model takes the count of bank passes from that time. -/
theorem vecMem_at {site : Nat} {i : VMem} {linear : Bool} (form : InForm s) (here : AtIssue s site .vector) (sig : SignalOk s site .vector i.sig) (formed : i.formed linear = true)
    (fits : (i.offsets (s.spire site) linear).find? (fun x => Nat.blt lsSize (x.2 + if linear then 4 else i.size)) = none) (scatter : Bool) :
    s.vecMem site i scatter linear = i.issued s site scatter linear := by
  have ⟨takes, _, haz⟩ := here
  unfold State.vecMem
  simp only [ready_of_takes takes]
  rw [vecIssue_at (x := i.effect s site scatter linear) here sig ?effect]
  case effect =>
    refine (if_neg (ne_false_of_eq_true formed)).trans ?_
    rw [← VMem.offsets, fits]
    cases scatter <;> rfl
  have passes : (s.spire site).issueAt .vector + (i.effect s site scatter linear).occ - (s.spire site).issueAt .vector - 4 = bankPasses (i.offsets (s.spire site) linear) - 1 := by
    simp only [VMem.effect]
    omega
  rw [if_neg (by rw [vec_qpos_vecIssued]; omega), hazEn_vecIssued form, haz, vec_free_vecIssued]
  simp only [Bool.false_eq_true, if_false, passes, VMem.issued]

/-! ## Moves -/

/-- The form of a move: register, mask, row and half in range, and the tile in the range of its kind (R205). -/
def VMove.formed (i : VMove) : Bool := Nat.blt i.v 32 && Nat.blt i.k 8 && Nat.blt i.r 32 && Nat.blt i.t (if i.acc then 4 else 16) && Nat.blt i.half 2

/-- Settles O12: with its checks passed each move has the effect stated and issues by `vecIssue_at`; the four accesses of the local store are cases of `vecMem_at`. -/
theorem vectorMoves : Obligations.VectorMoves := by
  unfold Obligations.VectorMoves
  intro s site form here
  refine ⟨fun i sig hv hk hr half => ⟨fun acc ht => ?accRow, fun tile ht => ?tileRow⟩, fun i sig hv hidx hk => ⟨fun size aligned fits => ?indexed, fun aligned fits => ?linear⟩⟩
  case accRow =>
    have formed : i.formed ≠ false := by simp [VMove.formed, hv, hk, hr, half, acc, ht]
    refine ⟨fun tag => congrArg Host.Outcome.next (vecIssue_at here sig ?_), congrArg Host.Outcome.next (vecIssue_at here sig ?_)⟩
    · exact (if_neg formed).trans ((if_pos acc).trans (if_pos tag))
    · exact (if_neg formed).trans (if_pos acc)
  case tileRow =>
    have formed : i.formed ≠ false := by simp [VMove.formed, hv, hk, hr, half, tile, ht]
    have operand : ¬i.acc = true := by simp [tile]
    refine ⟨congrArg Host.Outcome.next (vecIssue_at here sig ?_), fun tag => congrArg Host.Outcome.next (vecIssue_at here sig ?_)⟩
    · exact (if_neg formed).trans (if_neg operand)
    · exact (if_neg formed).trans ((if_neg operand).trans (if_neg (Nat.not_le.mpr tag)))
  case indexed =>
    have formed : i.formed false = true := by
      have sized : (i.size == 1 || i.size == 2 || i.size == 4) = true := by simpa [or_assoc] using size
      simp [VMem.formed, hv, hidx, hk, sized, aligned]
    exact ⟨congrArg Host.Outcome.next (vecMem_at form here sig formed fits false), congrArg Host.Outcome.next (vecMem_at form here sig formed fits true)⟩
  case linear =>
    have formed : i.formed true = true := by simp [VMem.formed, hv, hidx, hk, aligned]
    exact ⟨congrArg Host.Outcome.next (vecMem_at form here sig formed fits false), congrArg Host.Outcome.next (vecMem_at form here sig formed fits true)⟩

end Sys2Proof.Machine
end

section
/-!
PROOFS of the family 07_vector_engine: reductions, approximations, division and root (O11).
-/
namespace Sys2Proof.Machine

open Sys2Proof

variable {s : State} {site : Nat} {i : VIns}

/-! ## Reductions

VRSUM, VRMAX and VRMIN differ in the operation of a step, the value a masked lane gives, and the point of the residue check (R208). -/

/-- One step of the tree on two FP32 codes with the flags met so far: the result rounded once, INVALID where two numbers give a NaN (R54, R61, R208). -/
def reduceStep (op : Num → Num → Num) (a b : Nat × Nat) : Nat × Nat :=
  let r := op (fmtFp32.decode a.1) (fmtFp32.decode b.1)
  let c := roundTo fmtFp32 false none r
  (c.1, a.2 ||| b.2 ||| c.2 ||| flagIf (r.isNan && !(fmtFp32.decode a.1).isNan && !(fmtFp32.decode b.1).isNan) flInvalid)

/-- The elements of lane `l` of the source, widened to FP32, each with its operand flags. -/
def VIns.reduceElems (i : VIns) (p : Spire) (f : Fmt) (n w l : Nat) : List (Nat × Nat) :=
  ((List.range (n / 64)).map (fun j => f.decode (elemAt (p.vreg i.a).toNat w (n / 64 * l + j)))).map (fun x => ((roundTo fmtFp32 false none x).1, operandFlags x))

/-- What lane `l` gives the tree: the identity where it is masked, its element, or its two halves combined (R208, steps 1 and 2). -/
def VIns.reduceLane (i : VIns) (p : Spire) (f : Fmt) (n w ident : Nat) (op : Num → Num → Num) (l : Nat) : Nat × Nat :=
  if (p.mask i.k).getLsbD l = false then (ident, 0)
  else match i.reduceElems p f n w l with
    | [a] => a
    | [a, b] => reduceStep op a b
    | _ => (ident, 0)

/-- The root of the tree: six levels of adjacent pairs over the 64 lanes (R208, step 3). -/
def VIns.reduceTree (i : VIns) (p : Spire) (f : Fmt) (n w ident : Nat) (op : Num → Num → Num) : Nat × Nat :=
  ((List.range 6).foldl (fun xs _ => pairUp (reduceStep op) xs) ((List.range 64).map (i.reduceLane p f n w ident op))).headD (ident, 0)

/-- The effect of a reduction: the root in every unmasked lane (R208, step 4). -/
def VIns.reduceEffect (i : VIns) (p : Spire) (f : Fmt) (n w ident : Nat) (op : Num → Num → Num) (point : Nat) : Effect :=
  let root := i.reduceTree p f n w ident op
  { occ := 1, lat := 12, writes := [.vec i.d (BitVec.ofNat 2048 (packElems 32 (List.replicate 64 root.1))) (laneMask (p.mask i.k))], flags := root.2, reads := [(2, i.a)], result := true, point := point }

/-- A reduction in a floating-point format issues with its one result. -/
theorem vecReduce_at {f : Fmt} {n w : Nat} (here : AtIssue s site .vector) (sig : SignalOk s site .vector i.sig) (ok : i.ok = true) (info : vfmtInfo i.fmt = some (f, n, w))
    (ident : Nat) (op : Num → Num → Num) (point : Nat) : s.vecReduce site i ident op point = vecIssued s site i.sig (i.reduceEffect (s.spire site) f n w ident op point) := by
  refine vecIssue_at here sig ?_
  simp only [ok, info]
  rfl

/-! ## Approximations, division and root -/

/-- An approximation of FP32 lanes issues. -/
theorem vecApprox_at (here : AtIssue s site .vector) (sig : SignalOk s site .vector i.sig) (fp32 : (i.ok && i.fmt == .f) = true) (occ lat op : Nat) :
    s.vecApprox site i occ lat op = laneIssued s site i occ lat 64 32 [i.a] (fun l => approx op (BitVec.ofNat 32 (elemAt ((s.spire site).vreg i.a).toNat 32 l))) :=
  vecIssue_at here sig (if_pos fp32)

/-! ## The obligation -/

/-- Settles O11: the reductions are cases of `vecReduce_at` and the approximations of `vecApprox_at`; with its format checked, division and root issue by `vecIssue_at`. -/
theorem vectorReduce : Obligations.VectorReduce := by
  unfold Obligations.VectorReduce
  intro s site i f n w here sig ok info
  have reduces := fun ident op point => congrArg (Host.Outcome.next (φ := Fault) (ρ := Refusal)) (vecReduce_at here sig ok info ident op point)
  refine ⟨reduces _ _ _, reduces _ _ _, reduces _ _ _, fun single => ?_⟩
  have fp32 : (i.ok && i.fmt == .f) = true := by simp [ok, single]
  have approximates := fun occ lat op => congrArg (Host.Outcome.next (φ := Fault) (ρ := Refusal)) (vecApprox_at here sig fp32 occ lat op)
  exact ⟨approximates 1 12 0, approximates 1 12 1, approximates 1 12 2, approximates 1 12 3, approximates 2 16 4, approximates 2 16 5,
    congrArg Host.Outcome.next (vecIssue_at here sig (if_pos fp32)), congrArg Host.Outcome.next (vecIssue_at here sig (if_pos fp32))⟩

end Sys2Proof.Machine
end

section
/-!
PROOFS of the family 08_synchronisation: how COUNT saturates (O58), what a signal or a barrier message does at a spire (O23), and the writes and signals of the canal (O27).
-/
namespace Sys2Proof.Machine

open Sys2Proof

variable {s : State} {site c : Nat}

/-! ## The registers of the sync cells -/

/-- The 48 cells of a site lie from its offset 0x400 to 0x57F; a register outside is none of them. -/
theorem ne_syncCell (lt : c < 48) {o : Nat} (out : o < 0x400400 + 0x1000 * site ∨ 0x400580 + 0x1000 * site ≤ o) : o ≠ R.SPR_SYNC_CELL site c := by
  simp only [R.SPR_SYNC_CELL]
  omega

theorem satcnt_ne_syncCell (lt : c < 48) : R.SPR_SYNC_SATCNT site ≠ R.SPR_SYNC_CELL site c := ne_syncCell lt (.inr (by simp only [R.SPR_SYNC_SATCNT]; omega))

theorem sigin_ne_syncCell (lt : c < 48) : R.SPR_SYNC_SIGIN site ≠ R.SPR_SYNC_CELL site c := ne_syncCell lt (.inr (by simp only [R.SPR_SYNC_SIGIN]; omega))

theorem sathi_ne_satcnt : R.SPR_SYNC_SATHI site ≠ R.SPR_SYNC_SATCNT site := by simp only [R.SPR_SYNC_SATHI, R.SPR_SYNC_SATCNT]; omega

theorem satlo_ne_satcnt : R.SPR_SYNC_SATLO site ≠ R.SPR_SYNC_SATCNT site := by simp only [R.SPR_SYNC_SATLO, R.SPR_SYNC_SATCNT]; omega

/-! ## The words of the cells -/

theorem cellIs_of_kind {k : Nat} (lt : c < 48) (kind : fget (s.cell site c) cKind = k) : s.cellIs site c k = true := by
  simp [State.cellIs, lt, kind]

theorem cell_setCell (h : InForm s) (w : Word) : (s.setCell site c w).cell site c = cellForm w := State.reg_setReg_same h ..

theorem reg_setCell_ne (h : InForm s) (w : Word) {o : Nat} (other : o ≠ R.SPR_SYNC_CELL site c) : (s.setCell site c w).reg o = s.reg o := State.reg_setReg_ne h _ other

theorem setCell_inForm (h : InForm s) (w : Word) : InForm (s.setCell site c w) := State.inv_setReg h ..

/-- A COUNT cell's form keeps all of COUNT (R215). -/
theorem cCount_cellForm {w : Word} (kind : fget w cKind = 0) : fget (cellForm w) cCount = fget w cCount := by
  have masked : cellForm w = w &&& 0x9C00FFFF#64 := by simp only [cellForm, kind]
  have low : 0x9C00FFFF % 2 ^ 16 = 2 ^ 16 - 1 := by decide
  rw [masked]
  change (w &&& 0x9C00FFFF#64).toNat / 1 % 2 ^ 16 = w.toNat / 1 % 2 ^ 16
  rw [Nat.div_one, Nat.div_one, BitVec.toNat_and, Nat.and_mod_two_pow]
  change w.toNat % 2 ^ 16 &&& 0x9C00FFFF % 2 ^ 16 = _
  rw [low, Nat.and_two_pow_sub_one_eq_mod, Nat.mod_mod]

/-- A COUNT cell holds the count written to it. -/
theorem cCount_cellForm_fset {w : Word} (kind : fget w cKind = 0) {v : Nat} (fits : v ≤ 0xFFFF) : fget (cellForm (fset w cCount v)) cCount = v := by
  have kept : fget (fset w cCount v) cKind = 0 := (fget_fset_above w cCount cKind v (by decide) (by decide) (by decide)).trans kind
  rw [cCount_cellForm kept, fget_fset_same w cCount v (by decide) (by decide)]
  exact Nat.mod_eq_of_lt (Nat.lt_succ_of_le fits)

theorem cCount_le (w : Word) : fget w cCount ≤ 0xFFFF := Nat.le_of_lt_succ (fget_lt w cCount)

/-! ## Saturation (R218)

Additions and decrements end alike: the cell takes its count, and a saturating one sets the cell's bit in the register of its end and is counted. -/

/-- COUNT becomes `v`; where the operation saturates, the cell's bit in register `flag` is set and SPR_SYNC_SATCNT counts. -/
def State.counted (s : State) (site c flag v : Nat) (sat : Prop) [Decidable sat] : State :=
  let t := s.setCell site c (fset (s.cell site c) cCount v)
  if sat then (t.setReg flag (t.reg flag ||| BitVec.ofNat 64 (2 ^ c))).bump (R.SPR_SYNC_SATCNT site) else t

theorem cellAdd_eq_counted (s : State) (site c n : Nat) :
    s.cellAdd site c n = s.counted site c (R.SPR_SYNC_SATHI site) (min 0xFFFF (fget (s.cell site c) cCount + n)) (0xFFFF < fget (s.cell site c) cCount + n) := by
  simp only [State.cellAdd, State.counted, Nat.min_comm 0xFFFF]
  split
  · rw [if_neg (by omega)]
  · rw [if_pos (by omega)]

theorem cellDec_eq_counted (s : State) (site c n : Nat) :
    s.cellDec site c n = s.counted site c (R.SPR_SYNC_SATLO site) (fget (s.cell site c) cCount - n) (fget (s.cell site c) cCount < n) := by
  simp only [State.cellDec, State.counted]
  split
  · rw [if_neg (by omega)]
  · rw [if_pos (by omega)]

theorem spires_counted (s : State) (site c flag v : Nat) (sat : Prop) [Decidable sat] : (s.counted site c flag v sat).spires = s.spires := by
  unfold State.counted
  split
  · rfl
  · rfl

section Counted
variable {flag v : Nat} {sat : Prop} [Decidable sat]

theorem counted_of_not (no : ¬sat) : s.counted site c flag v sat = s.setCell site c (fset (s.cell site c) cCount v) := if_neg no

variable (h : InForm s) (lt : c < 48) (other : flag ≠ R.SPR_SYNC_SATCNT site) (above : 0x400580 + 0x1000 * site ≤ flag)
include h lt other above

/-- The registers after an operation that saturates, away from its cell. -/
theorem reg_counted_of_sat (yes : sat) {o : Nat} (away : o ≠ R.SPR_SYNC_CELL site c) :
    (s.counted site c flag v sat).reg o = if o = R.SPR_SYNC_SATCNT site then s.reg (R.SPR_SYNC_SATCNT site) + 1 else if o = flag then s.reg flag ||| BitVec.ofNat 64 (2 ^ c) else s.reg o := by
  have written := setCell_inForm (site := site) (c := c) h (fset (s.cell site c) cCount v)
  rw [State.counted, if_pos yes, State.reg_bump (State.inv_setReg written _ _), State.reg_setReg_ne written _ other.symm, State.reg_setReg written,
    reg_setCell_ne h _ (satcnt_ne_syncCell lt), reg_setCell_ne h _ (ne_syncCell lt (.inr above)), reg_setCell_ne h _ away]
  rfl

/-- A register that is neither the cell nor one of the saturation's own is as before. -/
theorem reg_counted_ne {o : Nat} (away : o ≠ R.SPR_SYNC_CELL site c) (flag_ : o ≠ flag) (count : o ≠ R.SPR_SYNC_SATCNT site) : (s.counted site c flag v sat).reg o = s.reg o := by
  by_cases saturates : sat
  · rw [reg_counted_of_sat h lt other above saturates away, if_neg count, if_neg flag_]
  · rw [counted_of_not saturates, reg_setCell_ne h _ away]

omit other in
theorem cell_counted : (s.counted site c flag v sat).cell site c = cellForm (fset (s.cell site c) cCount v) := by
  have written := setCell_inForm (site := site) (c := c) h (fset (s.cell site c) cCount v)
  unfold State.counted
  split
  · rw [State.cell, State.reg_bump (State.inv_setReg written _ _), if_neg (satcnt_ne_syncCell lt).symm, State.reg_setReg_ne written _ (ne_syncCell lt (.inr above)).symm]
    exact cell_setCell h _
  · exact cell_setCell h _

/-- What R218 says of an addition or decrement that leaves `v` in a COUNT cell, and of the bit and the count of one that saturates. -/
theorem counted_saturates (kind : fget (s.cell site c) cKind = 0) (fits : v ≤ 0xFFFF) :
    let t := s.counted site c flag v sat
    fget (t.cell site c) cCount = v ∧
    (sat → t.reg flag = s.reg flag ||| BitVec.ofNat 64 (2 ^ c) ∧ t.reg (R.SPR_SYNC_SATCNT site) = s.reg (R.SPR_SYNC_SATCNT site) + 1) ∧
    (¬sat → t.reg flag = s.reg flag ∧ t.reg (R.SPR_SYNC_SATCNT site) = s.reg (R.SPR_SYNC_SATCNT site)) ∧
    t.reg (R.SPR_FAULT site) = s.reg (R.SPR_FAULT site) ∧ t.spState site = s.spState site ∧ t.spires = s.spires := by
  have apart := ne_syncCell (site := site) lt (.inr above)
  have below : ∀ o, o < 0x400400 + 0x1000 * site → (s.counted site c flag v sat).reg o = s.reg o := fun o low =>
    reg_counted_ne h lt other above (ne_syncCell lt (.inl low)) (by omega) (by simp only [R.SPR_SYNC_SATCNT]; omega)
  have status := below (R.SPR_STATUS site) (by simp only [R.SPR_STATUS]; omega)
  refine ⟨?count, fun yes => ⟨?bit, ?counts⟩, fun no => ?same, below _ (by simp only [R.SPR_FAULT]; omega), congrArg (fget · F.SPR_STATUS_STATE) status, spires_counted ..⟩
  case count => exact (congrArg (fget · cCount) (cell_counted h lt above)).trans (cCount_cellForm_fset kind fits)
  case bit => rw [reg_counted_of_sat h lt other above yes apart, if_neg other, if_pos rfl]
  case counts => rw [reg_counted_of_sat h lt other above yes (satcnt_ne_syncCell lt), if_pos rfl]
  case same =>
    rw [counted_of_not no]
    exact ⟨reg_setCell_ne h _ apart, reg_setCell_ne h _ (satcnt_ne_syncCell lt)⟩

end Counted

/-- Settles O58: an addition and a decrement are each a `State.counted` of their end's register. -/
theorem countsSaturate : Obligations.CountsSaturate := by
  unfold Obligations.CountsSaturate
  intro s site c n form _ lt kind old u bit
  refine ⟨?add, ?dec⟩
  case add =>
    intro t
    have adds : t = s.counted site c (R.SPR_SYNC_SATHI site) (min 0xFFFF (old + n)) (0xFFFF < old + n) := cellAdd_eq_counted s site c n
    rw [adds, ← Nat.not_lt]
    exact counted_saturates form lt sathi_ne_satcnt (Nat.le_refl _) kind (Nat.min_le_left ..)
  case dec =>
    intro t
    have decs : t = s.counted site c (R.SPR_SYNC_SATLO site) (old - n) (old < n) := (if_pos (cellIs_of_kind lt kind)).trans (cellDec_eq_counted s site c n)
    rw [decs, ← Nat.not_lt]
    exact counted_saturates form lt satlo_ne_satcnt (by simp only [R.SPR_SYNC_SATLO]; omega) kind (Nat.le_trans (Nat.sub_le ..) (cCount_le _))

/-! ## What a signal does at a spire

A message that a row brings is one update of its cell, in a cycle of its own. -/

/-- The update that a signal makes in cycle `t` (R226). -/
def remoteUpd (p : SigPay) (t : Nat) : CellUpd := { due := t, cell := p.cell, op := sigUpd p, eng := 4, qpos := 0, remote := true, omod := p.origModule, ospire := p.origSpire }

/-- A row carries `p` to the spire at `site`: each of the three rows only the operations it names (R226, R232, R233). -/
def BringsSignal (i : Instr) (site : Nat) (p : SigPay) : Prop :=
  (i = .remoteSignalArrival site p ∧ p.op < 2) ∨ (i = .barrierArrival site p ∧ p.op = 2) ∨ (i = .barrierRelease site p ∧ p.op = 3)

theorem exec_of_bringsSignal {i : Instr} {p : SigPay} (row : BringsSignal i site p) (s : State) : exec i s = .next (s.signalNow site p).2 := by
  rcases row with ⟨rfl, op⟩ | ⟨rfl, op⟩ | ⟨rfl, op⟩
  · exact congrArg Host.Outcome.next (if_pos op)
  · exact congrArg Host.Outcome.next (if_pos op)
  · exact congrArg Host.Outcome.next (if_pos op)

theorem signalNow_of_fenced (p : SigPay) (fenced : s.spState site = 6) : (s.signalNow site p).2 = s.bump (R.SPR_SYNC_DROP site) := by
  rw [State.signalNow, if_pos ⟨fenced, rfl⟩]

theorem signalNow_of_not_fenced (p : SigPay) (open_ : s.spState site ≠ 6) : (s.signalNow site p).2 = s.cellReached site (remoteUpd p) := by
  rw [State.signalNow, if_neg (fun fenced => open_ fenced.1)]
  rfl

/-! ### One update in its cycle (R219) -/

/-- The cycle of a single update that is no addition is that update. -/
theorem applyCycle_one {t : Nat} {u : CellUpd} (other : updRank u.op ≠ 0) : s.applyCycle site t [u] = s.applyUpd site t u := by
  have none_ : ∀ n, u.op ≠ .add n := fun n e => other (by rw [e]; rfl)
  have unadded : s.applyAdds site u.cell [u] = s := by
    unfold State.applyAdds
    cases e : u.op with
    | add n => exact absurd e (none_ n)
    | _ => simp [e]
  simp [State.applyCycle, unadded, other, sortOn, putOn]

/-- The cycle of a single addition that finds a COUNT cell counts it where it is remote, and adds. -/
theorem applyCycle_one_add {t n : Nat} {u : CellUpd} (add : u.op = .add n) (plain : s.cellIs site u.cell 0 = true) :
    s.applyCycle site t [u] = (s.countIn site u).cellAdd site u.cell n := by
  simp [State.applyCycle, State.applyAdds, add, plain, updRank, sortOn]

section Acts
variable {p : SigPay}

/-- An addition of a signal that stays within 0xFFFF. -/
theorem applyCycle_add_fits (form : InForm s) (lt : p.cell < 48) (op : p.op = 0) (kind : fget (s.cell site p.cell) cKind = 0) (fits : fget (s.cell site p.cell) cCount + p.n ≤ 0xFFFF) (t : Nat) :
    s.applyCycle site t [remoteUpd p t] = (s.bump (R.SPR_SYNC_SIGIN site)).setCell site p.cell (fset (s.cell site p.cell) cCount (fget (s.cell site p.cell) cCount + p.n)) := by
  have add : (remoteUpd p t).op = .add p.n := by simp only [remoteUpd, sigUpd, op]
  have same : (s.bump (R.SPR_SYNC_SIGIN site)).cell site p.cell = s.cell site p.cell := State.reg_setReg_ne form _ (sigin_ne_syncCell lt).symm
  rw [applyCycle_one_add add (cellIs_of_kind lt kind)]
  change (s.bump (R.SPR_SYNC_SIGIN site)).cellAdd site p.cell p.n = _
  rw [cellAdd_eq_counted, same, counted_of_not (Nat.not_lt.mpr fits), same, Nat.min_eq_right fits]

theorem applyCycle_fill (lt : p.cell < 48) (op : p.op = 1) (kind : fget (s.cell site p.cell) cKind = 0) (t : Nat) :
    s.applyCycle site t [remoteUpd p t] = (s.bump (R.SPR_SYNC_SIGIN site)).setCell site p.cell (fset (s.cell site p.cell) cFull 1) := by
  have fill : (remoteUpd p t).op = .fill := by simp only [remoteUpd, sigUpd, op]
  rw [applyCycle_one (by simp [fill, updRank]), State.applyUpd, fill]
  exact if_pos (cellIs_of_kind lt kind)

/-- An arrival of the current generation that does not close the round (R233). -/
theorem applyCycle_arrive (lt : p.cell < 48) (op : p.op = 2) (kind : fget (s.cell site p.cell) cKind = 1) (gen : p.gen = fget (s.cell site p.cell) cGen)
    (home : fget (s.cell site p.cell) cTarget ≠ 0) (opens : fget (s.cell site p.cell) cCount + 1 ≠ fget (s.cell site p.cell) cTarget) (t : Nat) :
    s.applyCycle site t [remoteUpd p t] = (s.bump (R.SPR_SYNC_SIGIN site)).setCell site p.cell (fset (s.cell site p.cell) cCount (fget (s.cell site p.cell) cCount + 1)) := by
  have arrive : (remoteUpd p t).op = .arrive p.gen := by simp only [remoteUpd, sigUpd, op]
  have isHome := cellIs_of_kind lt kind
  rw [applyCycle_one (by simp [arrive, updRank]), State.applyUpd, arrive]
  change (if s.cellIs site p.cell 1 = false then _ else _) = _
  rw [if_neg (by simp [isHome])]
  exact (if_neg home).trans ((if_pos gen).trans (if_neg opens))

/-- A release of the awaited generation (R232). -/
theorem applyCycle_release (lt : p.cell < 48) (op : p.op = 3) (kind : fget (s.cell site p.cell) cKind = 2) (pending : fget (s.cell site p.cell) cPend ≠ 0)
    (gen : p.gen = (fget (s.cell site p.cell) cGen + 4 - fget (s.cell site p.cell) cPend) % 4) (t : Nat) :
    s.applyCycle site t [remoteUpd p t] = (s.bump (R.SPR_SYNC_SIGIN site)).setCell site p.cell (fset (s.cell site p.cell) cPend (fget (s.cell site p.cell) cPend - 1)) := by
  have release : (remoteUpd p t).op = .release p.gen := by simp only [remoteUpd, sigUpd, op]
  have isPart := cellIs_of_kind lt kind
  rw [applyCycle_one (by simp [release, updRank]), State.applyUpd, release]
  change (if s.cellIs site p.cell 2 = false then _ else _) = _
  rw [if_neg (by simp [isPart])]
  exact (if_neg pending).trans (if_neg (fun other => other gen))

/-- In a spire with nothing under way, a signal whose cycle leaves `x` in its cell and is counted changes nothing else but the spire's clock. -/
theorem cellReached_remoteUpd_quiet {x : Word} (form : InForm s) (quiet : Quiet (s.spire site))
    (acts : ∀ r, let v := s.setSpire site r; v.applyCycle site (s.arriveAt site) [remoteUpd p (s.arriveAt site)] = (v.bump (R.SPR_SYNC_SIGIN site)).setCell site p.cell x) :
    let t := s.cellReached site (remoteUpd p)
    t.cell site p.cell = cellForm x ∧ (t.spire site).upds = [] ∧ t.mem = s.mem ∧
      ∀ o, o ≠ R.SPR_SYNC_CELL site p.cell → t.reg o = if o = R.SPR_SYNC_SIGIN site then (s.bump (R.SPR_SYNC_SIGIN site)).reg o else s.reg o := by
  have counted : InForm (s.bump (R.SPR_SYNC_SIGIN site)) := State.inv_bump form ..
  have acted := acts ((s.spire site).stand (s.arriveAt site))
  intro t
  have ends : t = (((s.setSpire site ((s.spire site).stand (s.arriveAt site))).bump (R.SPR_SYNC_SIGIN site)).setCell site p.cell x).setSpire site ((s.spire site).stand (s.arriveAt site + 1)) :=
    (cellReached_quiet quiet rfl (by rw [acted]; exact spire_setSpire ..)).trans (by rw [acted])
  have regs : ∀ o, t.reg o = ((s.bump (R.SPR_SYNC_SIGIN site)).setCell site p.cell x).reg o := fun o => by rw [ends]; rfl
  refine ⟨(regs _).trans (cell_setCell counted x), ?_, by rw [ends]; rfl, fun o other => ?_⟩
  · rw [ends, spire_setSpire]
    exact quiet.2
  · rw [regs, reg_setCell_ne counted x other]
    split
    · rfl
    · rw [State.reg_bump form, if_neg ‹_›]

end Acts

/-- Settles O23: the row is `State.signalNow`; at a spire that is not FENCED that is `State.cellReached`, and where nothing else is under way the cycle of one update. -/
theorem signalArrivals : Obligations.SignalArrivals := by
  unfold Obligations.SignalArrivals
  intro s site p i form row
  have runs := exec_of_bringsSignal row s
  refine ⟨fun fenced => by rw [runs, signalNow_of_fenced p fenced], fun open_ => by rw [runs, signalNow_of_not_fenced p open_]; rfl, ?_⟩
  intro open_ quiet lt w into
  have acts : ∀ {x : Word}, (∀ r, let v := s.setSpire site r
      v.applyCycle site (s.arriveAt site) [remoteUpd p (s.arriveAt site)] = (v.bump (R.SPR_SYNC_SIGIN site)).setCell site p.cell x) → into x := fun {x} acts =>
    ⟨_, by rw [runs, signalNow_of_not_fenced p open_], cellReached_remoteUpd_quiet form quiet acts⟩
  refine ⟨?add, ?fill, ?arrive, ?release⟩
  case add => exact fun op kind fits => acts fun r => applyCycle_add_fits (s := s.setSpire site r) form lt op kind fits _
  case fill => exact fun op kind => acts fun r => applyCycle_fill (s := s.setSpire site r) lt op kind _
  case arrive => exact fun op kind gen home opens => acts fun r => applyCycle_arrive (s := s.setSpire site r) lt op kind gen home opens _
  case release => exact fun op kind pending gen => acts fun r => applyCycle_release (s := s.setSpire site r) lt op kind pending gen _

/-! ## Writes at a slice -/

/-- A fold that keeps what it has or takes the next element yields one of them. -/
theorem mem_of_foldl_select {α : Type} {f : Option α → α → Option α} (sel : ∀ b x, f b x = b ∨ f b x = some x) {y : α} :
    ∀ (l : List α) (b : Option α), l.foldl f b = some y → b = some y ∨ y ∈ l
  | [], _, h => .inl h
  | x :: l, b, h => by
    rcases mem_of_foldl_select sel l (f b x) h with start | later
    · rcases sel b x with kept | taken
      · exact .inl (kept.symm.trans start)
      · exact .inr (List.mem_cons.mpr (.inl (Option.some.inj (start.symm.trans taken))))
    · exact .inr (List.mem_cons_of_mem x later)

variable {p : CPkt}

/-- A slice does not turn to a write that a mirror close or a capture makes wait (R248, R376). -/
theorem not_writeHeld_of_slicePick {slice : Nat} (turn : s.slicePick slice = some p) : s.writeHeld p = false := by
  have picked := (mem_of_foldl_select (fun b x => ?_) _ _ turn).resolve_left (by simp)
  · have chosen := (List.mem_filter.mp picked).2
    simp only [Bool.and_eq_true, Bool.not_eq_true'] at chosen
    exact chosen.2
  · cases b with
    | none => exact .inr rfl
    | some y =>
      exact (Decidable.em _).elim (fun sooner => .inr (if_pos sooner)) (fun later => .inl (if_neg later))

theorem mayServe_and_typ {t : Nat} (may : s.mayServe p = true) (typ : p.typ = t) : (s.mayServe p && p.typ == t) = true := by simp [may, typ]

/-! A slice's turn passes in the canal alone, which no read of memory, of the retirement table or of an epoch sees. -/

theorem reg_setCanal (s : State) (x : Canal) : State.reg { s with canal := x } = State.reg s := rfl
theorem epoch_setCanal (s : State) (x : Canal) : State.epoch { s with canal := x } = State.epoch s := rfl
theorem epState_setCanal (s : State) (x : Canal) : State.epState { s with canal := x } = State.epState s := rfl
theorem retireEntries_setCanal (s : State) (x : Canal) : State.retireEntries { s with canal := x } = State.retireEntries s := rfl
theorem wrQuarters_setCanal (s : State) (x : Canal) : State.wrQuarters { s with canal := x } = State.wrQuarters s := rfl

theorem ilEntry_setCanal (s : State) (x : Canal) : State.ilEntry { s with canal := x } = State.ilEntry s := by
  funext d r
  unfold State.ilEntry
  rw [reg_setCanal]

theorem towerPlace_setCanal (s : State) (x : Canal) : State.towerPlace { s with canal := x } = State.towerPlace s := by
  funext a
  unfold State.towerPlace
  rw [ilEntry_setCanal]

theorem entryCovers_setCanal (s : State) (x : Canal) : State.entryCovers { s with canal := x } = State.entryCovers s := by
  funext w a
  unfold State.entryCovers
  rw [towerPlace_setCanal]

theorem retired_setCanal (s : State) (x : Canal) : State.retired { s with canal := x } = State.retired s := by
  funext a
  unfold State.retired
  rw [entryCovers_setCanal, retireEntries_setCanal]
  rfl

/-- The definition is unfolded as a function: applied, its match on the place of `a` would have the kernel compute that place. -/
theorem setUse_setCanal (s : State) (x : Canal) : State.setUse { s with canal := x } = State.setUse s := by
  have unfolds : State.setUse = State.setUse := rfl
  conv at unfolds => rhs; delta State.setUse
  funext a
  rw [congrFun (congrFun unfolds { s with canal := x }) a, congrFun (congrFun unfolds s) a, towerPlace_setCanal, epoch_setCanal]

theorem heldRoom_setCanal (s : State) (x : Canal) : State.heldRoom { s with canal := x } = State.heldRoom s := by
  funext k a
  unfold State.heldRoom
  rw [setUse_setCanal, reg_setCanal, epoch_setCanal]

theorem retired_sliceTakes (s : State) (p : CPkt) : (s.sliceTakes p).retired = s.retired := retired_setCanal ..
theorem wrQuarters_sliceTakes (s : State) (p : CPkt) : (s.sliceTakes p).wrQuarters = s.wrQuarters := wrQuarters_setCanal ..
theorem epState_sliceTakes (s : State) (p : CPkt) : (s.sliceTakes p).epState = s.epState := epState_setCanal ..
theorem heldRoom_sliceTakes (s : State) (p : CPkt) : (s.sliceTakes p).heldRoom = s.heldRoom := heldRoom_setCanal ..

/-- What a slice does with a write it serves in its turn, at a location that is not retired (R250, R268). -/
theorem exec_wr_of_served (served : Served s p 3) (slice : p.dkind = 1) (channel : s.channelHeld p = false) (good : s.retired (p.addr / 512 * 512) = false) :
    exec (.wr p) s = .next (if p.spec ≠ 0 then (s.sliceTakes p).specWrite p else (((s.sliceTakes p).takeArrived p).commitQuarters (s.wrQuarters p 0)).ackWrite p 0) := by
  obtain ⟨may, typ, turn⟩ := served
  have turn := turn slice
  change execWr p s = _
  simp only [execWr, mayServe_and_typ may typ, slice, channel, not_writeHeld_of_slicePick turn, turn, good, retired_sliceTakes, wrQuarters_sliceTakes, Bool.true_eq_false, Bool.false_eq_true, if_false, ne_eq, not_true_eq_false]

/-- A speculative write of an open epoch with room is held (R268). -/
theorem specWrite_of_room {sp : Bool} (open_ : s.epState (p.spec - 1) = 1 ∨ s.epState (p.spec - 1) = 2) (room : s.heldRoom (p.spec - 1) (p.addr / 512 * 512) = some sp) :
    s.specWrite p = ((s.takeArrived p).holdWrite (p.spec - 1) (p.addr / 512 * 512) sp (s.wrQuarters p p.spec)).ackWrite p 0 := by
  unfold State.specWrite
  simp only [if_pos open_, room]

/-! ### What taking up, holding and answering leave alone -/

theorem takeArrived_eq (s : State) (p : CPkt) : ∃ x, s.takeArrived p = { s with canal := x } := by
  unfold State.takeArrived
  split
  · exact ⟨_, rfl⟩
  · exact ⟨s.canal, rfl⟩

theorem mem_takeArrived (s : State) (p : CPkt) : (s.takeArrived p).mem = s.mem := by
  obtain ⟨x, e⟩ := takeArrived_eq s p
  rw [e]

theorem mem_holdWrite (s : State) (k a : Nat) (sp : Bool) (qs : List (Nat × List Byte)) : (s.holdWrite k a sp qs).mem = s.mem := by
  simp only [State.holdWrite, mem_setEpoch]
  split
  · rfl
  · rfl

theorem mem_injectAt (s : State) (site port : Nat) (p : CPkt) : (s.injectAt site port p).mem = s.mem := by
  unfold State.injectAt State.enterLock
  dsimp only
  split
  · split
    · rfl
    · rfl
  · rfl

theorem mem_ackWrite (s : State) (p : CPkt) (status : Nat) : (s.ackWrite p status).mem = s.mem := mem_injectAt ..

/-! ### A barge written whole -/

theorem writeBytes_append (m : Memory) (a : Nat) (bs cs : List Byte) : Memory.writeBytes m a (bs ++ cs) = Memory.writeBytes (Memory.writeBytes m a bs) (a + bs.length) cs := by
  induction bs generalizing m a with
  | nil => rfl
  | cons b r ih =>
    simp only [List.cons_append, Memory.writeBytes, List.length_cons]
    rw [ih, Nat.add_right_comm, Nat.add_assoc]

/-- A run of bytes is written by its first `n` and, behind them, the rest. -/
theorem writeBytes_take_drop (m : Memory) (a n : Nat) (bs : List Byte) (le : n ≤ bs.length) :
    Memory.writeBytes (Memory.writeBytes m a (bs.take n)) (a + n) (bs.drop n) = Memory.writeBytes m a bs := by
  have whole := writeBytes_append m a (bs.take n) (bs.drop n)
  rw [List.take_append_drop, List.length_take_of_le le] at whole
  exact whole.symm

/-- With no chunk to be read first, committed quarters are stored one after another. -/
theorem mem_commitQuarters (qs : List (Nat × List Byte)) (mir : s.mirror.c = []) (cap : s.bsn.capture = none) :
    (s.commitQuarters qs).mem = qs.foldl (fun m q => Memory.writeBytes m q.1 q.2) s.mem := by
  induction qs generalizing s with
  | nil => rfl
  | cons q r ih =>
    have stored : s.store q.1 q.2 = { s with mem := Memory.writeBytes s.mem q.1 q.2, mirror := s.mirror.mark q.1 q.2.length } := by
      simp only [State.store, State.readFirst_of_none_held mir cap]
    exact (ih (s := s.store q.1 q.2) (by rw [stored]; exact mir) (by rw [stored]; exact cap)).trans (by rw [stored]; rfl)

/-- The four quarters of a whole-barge write (R319). -/
theorem wrQuarters_whole (s : State) (spec : Nat) (len : p.len = 8) (mask : p.qmask = 15) :
    s.wrQuarters p spec = (List.range 4).map (fun i => (p.addr / 512 * 512 + 128 * i, (p.data.drop (128 * i)).take 128)) := by
  have all : (List.range 4).filter (fun k => p.qmask.testBit k) = List.range 4 := by rw [mask]; decide
  simp only [State.wrQuarters, len, all]
  rfl

/-- The four quarters of 512 bytes, stored in order, are the bytes stored whole. -/
theorem writeBytes_quarters (m : Memory) (a : Nat) {bs : List Byte} (len : bs.length = 512) :
    ((List.range 4).map (fun i => (a + 128 * i, (bs.drop (128 * i)).take 128))).foldl (fun m q => Memory.writeBytes m q.1 q.2) m = Memory.writeBytes m a bs := by
  have last : (bs.drop 384).take 128 = bs.drop 384 := List.take_of_length_le (by simp [len])
  have back : ∀ (m : Memory) (i : Nat), i + 128 ≤ 512 → Memory.writeBytes (Memory.writeBytes m (a + i) ((bs.drop i).take 128)) (a + (i + 128)) (bs.drop (i + 128)) = Memory.writeBytes m (a + i) (bs.drop i) :=
    fun m i le => by
      have := writeBytes_take_drop m (a + i) 128 (bs.drop i) (by simp [len]; omega)
      rwa [List.drop_drop, Nat.add_assoc] at this
  calc _ = Memory.writeBytes (Memory.writeBytes (Memory.writeBytes (Memory.writeBytes m a (bs.take 128)) (a + 128) ((bs.drop 128).take 128)) (a + 256) ((bs.drop 256).take 128)) (a + 384) ((bs.drop 384).take 128) := rfl
    _ = Memory.writeBytes (Memory.writeBytes (Memory.writeBytes m a (bs.take 128)) (a + 128) ((bs.drop 128).take 128)) (a + 256) (bs.drop 256) := by rw [last]; exact back _ 256 (by decide)
    _ = Memory.writeBytes (Memory.writeBytes m a (bs.take 128)) (a + 128) (bs.drop 128) := back _ 128 (by decide)
    _ = Memory.writeBytes m a bs := back m 0 (by decide)

/-- After a committed whole-barge write is acknowledged, memory holds the packet's data in the barge and every other byte as before. -/
theorem readByte_wholeBarge (form : InForm s) (mir : s.mirror.c = []) (cap : s.bsn.capture = none) (len : p.len = 8) (mask : p.qmask = 15) (bytes : p.data.length = 512) (x : Nat) :
    let a := p.addr / 512 * 512
    Memory.readByte ((((s.sliceTakes p).takeArrived p).commitQuarters (s.wrQuarters p 0)).ackWrite p 0).mem x = if a ≤ x ∧ x < a + 512 then p.data.getD (x - a) 0#8 else Memory.readByte s.mem x := by
  obtain ⟨canal, taken⟩ := takeArrived_eq (s.sliceTakes p) p
  rw [mem_ackWrite, taken, mem_commitQuarters _ (by exact mir) (by exact cap), wrQuarters_whole s 0 len mask, writeBytes_quarters _ _ bytes]
  exact (Memory.readByte_writeBytes form.2 _ x p.data).trans (by rw [bytes]; rfl)

/-! ## The other rows -/

/-- A committed write whose chunk is still to be read waits at its slice (R376). -/
theorem exec_wr_of_heldChunk {k : Nat} (may : s.mayServe p = true) (typ : p.typ = 3) (slice : p.dkind = 1) (channel : s.channelHeld p = false)
    (good : s.retired (p.addr / 512 * 512) = false) (committed : p.spec = 0) (chunk : s.heldChunk (p.addr / 512 * 512) 512 = some k) : exec (.wr p) s = .next (s.noteHeld k) := by
  have held : s.writeHeld p = true := by simp [State.writeHeld, typ, committed, good, chunk]
  change execWr p s = _
  simp only [execWr, mayServe_and_typ may typ, slice, channel, held, chunk, Bool.true_eq_false, Bool.false_eq_true, if_false, if_true]

/-- A write at a site that is not QUIESCENT (R243). -/
theorem exec_wr_at_site (may : s.mayServe p = true) (typ : p.typ = 3) (at_ : p.dkind = 0) (awake : s.quiescent = false) :
    exec (.wr p) s = .next (if s.takesIn p.dest p then (((s.reachSite p.dest).takeArrived p).commitQuarters ((s.reachSite p.dest).wrQuarters p 0)).ackWrite p 0 else (s.takeArrived p).ackWrite p 1) := by
  change execWr p s = _
  simp only [execWr, mayServe_and_typ may typ, at_, awake, Bool.true_eq_false, Bool.false_eq_true, if_false]

/-- The acknowledgement of an engine's signal counts it as delivered (R222). -/
theorem eng_sigDone {tag : Nat} (engine : tag < 5) (s : State) (site : Nat) :
    ((s.sigDone site tag).spire site).eng (engOf tag) = { (s.spire site).eng (engOf tag) with out := ((s.spire site).eng (engOf tag)).out - 1 } := by
  rw [State.sigDone, if_pos engine, State.sigDelivered, spire_modSpire]
  exact Spire.eng_setEng ..

/-! ## The obligation -/

/-- Settles O27: each packet's row is one branch of its operation; the bytes of a whole barge by `readByte_wholeBarge`. -/
theorem canalWrites : Obligations.CanalWrites := by
  unfold Obligations.CanalWrites
  intro s p u v a
  refine ⟨fun served => ⟨?committed, ?speculative, ?site⟩, ?held, ?ack, ?signal, ?signalAck, ?delivered⟩
  case committed =>
    intro slice channel good plain
    have runs := (exec_wr_of_served served slice channel good).trans (congrArg Host.Outcome.next (if_neg (fun spec => spec plain)))
    exact ⟨runs, fun form mir cap len mask bytes => ⟨_, runs, readByte_wholeBarge form mir cap len mask bytes⟩⟩
  case speculative =>
    intro slice channel good spec open_ sp room
    refine ⟨?_, (mem_holdWrite ..).trans (mem_takeArrived ..)⟩
    rw [← epState_sliceTakes s p] at open_
    rw [← heldRoom_sliceTakes s p] at room
    rw [exec_wr_of_served served slice channel good, if_pos spec, specWrite_of_room open_ room, wrQuarters_sliceTakes]
  case site => exact fun at_ awake => exec_wr_at_site served.1 served.2.1 at_ awake
  case held => exact fun may typ slice channel good committed k chunk => exec_wr_of_heldChunk may typ slice channel good committed chunk
  case ack => exact fun here typ => if_pos (by rw [here, typ]; rfl)
  case signal =>
    rintro ⟨turn, typ⟩ at_
    exact if_pos (by simp [turn, typ, at_])
  case signalAck => exact fun here typ => if_pos (by rw [here, typ]; rfl)
  case delivered =>
    intro site tag x engine
    exact eng_sigDone engine s site

end Sys2Proof.Machine
end

section
/-!
PROOFS of the family 09_memory_hierarchy: the reads that a packet brings over the canals, and the responses to them (O26).
-/
namespace Sys2Proof.Machine

open Sys2Proof

variable {s : State} {p : CPkt}

/-! ## Reads at a slice, a site and port H1 -/

theorem readBarge_sliceTakes (s : State) (p : CPkt) : (s.sliceTakes p).readBarge = s.readBarge := rfl

/-- What a slice answers to a read it serves in its turn (R250, R303). -/
theorem exec_rd_at_slice (served : Served s p 1) (slice : p.dkind = 1) (channel : s.channelHeld p = false) :
    let v := (s.sliceTakes p).takeArrived p
    exec (.rd p) s = .next (if s.retired (p.addr / 512 * 512) then (v.retiredHit (p.addr / 512 * 512) p.reqKind).respond p 2 8 2 [] else v.respond p 2 8 0 (s.readBarge p.spec (p.addr / 512 * 512))) := by
  obtain ⟨may, typ, turn⟩ := served
  change execRd p s = _
  simp only [execRd, mayServe_and_typ may typ, slice, channel, turn slice, retired_sliceTakes, readBarge_sliceTakes, Bool.true_eq_false, Bool.false_eq_true, ne_eq, not_true_eq_false, or_false, if_false]

/-- A read at a site that is not QUIESCENT (R243). -/
theorem exec_rd_at_site (may : s.mayServe p = true) (typ : p.typ = 1) (at_ : p.dkind = 0) (awake : s.quiescent = false) :
    exec (.rd p) s = .next (if s.takesIn p.dest p then ((s.reachSite p.dest).takeArrived p).respond p 2 8 0 ((s.reachSite p.dest).load (p.addr / 512 * 512) 512)
      else (s.takeArrived p).respond p 2 8 1 []) := by
  change execRd p s = _
  simp only [execRd, mayServe_and_typ may typ, at_, awake, Bool.true_eq_false, Bool.false_eq_true, if_false]

/-- A read at port H1 is tracked there (R306, R307). -/
theorem exec_rd_at_h1 (may : s.mayServe p = true) (typ : p.typ = 1) (agent : p.dkind = 3) (port : p.dest = 3) (up : s.far.failed = false)
    (good : s.retired (p.addr / 512 * 512) = false) (room : s.far.reqs.length < 384) :
    exec (.rd p) s = .next { s.takeArrived p with
      far := { s.far with reqs := s.far.reqs ++ [{ pkt := p, since := s.now, at_ := s.farPlace (p.addr / 512 * 512) }] } } := by
  obtain ⟨canal, taken⟩ := takeArrived_eq s p
  have tracked : Nat.ble 384 s.far.reqs.length = false := by simp; omega
  change execRd p s = _
  simp only [execRd, mayServe_and_typ may typ, agent, port, State.farTake, up, good, tracked, taken, Bool.true_eq_false, Bool.false_eq_true, if_false, and_self, if_true]
  rfl

/-! ## What a packet taken up leaves -/

theorem arrived_of_mayServe (may : s.mayServe p = true) : s.canal.arrived.contains p = true := by
  have oldest : s.canal.arrived.find? (fun q => q.sameFlow p) = some p := by
    simp only [State.mayServe, State.inTurn, Bool.and_eq_true, beq_iff_eq] at may
    exact may.1
  exact List.contains_iff_mem.mpr (List.mem_of_find?_eq_some oldest)

/-- Taking a packet up changes the canal alone: the packet leaves the list, and the list of those that a fence found, and its flits are freed (R325). -/
theorem takeArrived_of_contains (here : s.canal.arrived.contains p = true) :
    ∃ freed, s.takeArrived p = { s with canal := { s.canal with arrived := s.canal.arrived.erase p, before := s.canal.before.erase p, freed := freed } } := by
  unfold State.takeArrived
  rw [if_pos here]
  exact ⟨_, rfl⟩

theorem takesIn_iff (s : State) (site : Nat) (p : CPkt) : s.takesIn site p = true ↔ s.siteUp site = true ∨ p ∈ s.canal.before := by
  simp [State.takesIn]

/-! ## A packet put into a lock -/

/-- A packet enters the canal, and is counted in the injected flits at most; what has arrived is as before (R345). -/
theorem injectAt_eq (s : State) (site port : Nat) (p : CPkt) : ∃ x : Canal, x.arrived = s.canal.arrived ∧
    (s.injectAt site port p = { s with canal := x } ∨ s.injectAt site port p = State.bump { s with canal := x } (R.CNL_FLITS_TC (domeOf site) p.tc) p.flits) := by
  unfold State.injectAt State.enterLock
  dsimp only
  split
  · split
    · exact ⟨_, by rfl, .inl rfl⟩
    · exact ⟨_, by rfl, .inr rfl⟩
  · exact ⟨_, by rfl, .inl rfl⟩

theorem arrived_injectAt (s : State) (site port : Nat) (p : CPkt) : (s.injectAt site port p).canal.arrived = s.canal.arrived := by
  obtain ⟨x, arrived, e | e⟩ := injectAt_eq s site port p
  · rw [e, arrived]
  · rw [e, State.bump_canal, arrived]

theorem spires_injectAt (s : State) (site port : Nat) (p : CPkt) : (s.injectAt site port p).spires = s.spires := by
  obtain ⟨x, -, e | e⟩ := injectAt_eq s site port p
  · rw [e]
  · rw [e, State.bump_spires]

theorem inq_setInq_append (s : State) (site port tc : Nat) (l : List CPkt) : (s.setInq site port tc (l ++ [p])).inq site port tc = l ++ [p] := by
  simp [State.inq, State.setInq, tfind_tinsert_same]

theorem inq_enterLock (s : State) (site port : Nat) (p : CPkt) : (s.enterLock site port p).inq site port p.tc = s.inq site port p.tc ++ [p] := by
  unfold State.enterLock
  dsimp only
  split
  · exact inq_setInq_append ..
  · exact inq_setInq_append ..

/-- A lock with room, for which nothing waits, takes the packet behind what it holds (R29). -/
theorem injectAt_of_room {site port : Nat} (none_ : s.outbox (qKey site port p.tc) = []) (room : s.lockRoom site port p = true) : s.injectAt site port p = s.enterLock site port p :=
  if_pos ⟨none_, room⟩

/-- A full lock, or one for which a packet waits, holds its writer (R29). -/
theorem injectAt_of_no_room {site port : Nat} (held : s.outbox (qKey site port p.tc) ≠ [] ∨ s.lockRoom site port p = false) :
    s.injectAt site port p = s.setOutbox (qKey site port p.tc) (s.outbox (qKey site port p.tc) ++ [p]) := by
  refine if_neg fun ⟨none_, room⟩ => ?_
  rcases held with waits | full
  · exact waits none_
  · simp [room] at full

theorem outbox_setOutbox_append (s : State) (k : Nat) (l : List CPkt) : (s.setOutbox k (l ++ [p])).outbox k = l ++ [p] := by
  simp [State.outbox, State.setOutbox, tfind_tinsert_same]

/-- The response that a slice sends from the router at `site` (R321). -/
def CPkt.sliceResponse (p : CPkt) (site typ len status : Nat) (data : List Byte) : CPkt :=
  { p with tc := 1, typ := typ, dkind := if p.skind = 0 then 0 else 3, dest := p.src, skind := 0, src := site, len := len, spec := 0, qmask := 0, status := status, addr := 0, data := data, tree := false }

theorem respond_of_slice (slice : p.dkind = 1) (v : State) (typ len status : Nat) (data : List Byte) :
    let site := (v.target (p.dest / 16 / 8) p).1
    v.respond p typ len status data = v.injectAt site 5 (p.sliceResponse site typ len status data) := by
  simp only [State.respond, slice, if_true]
  rfl

/-! ## The obligation -/

/-- Settles O26: each packet's row is one branch of its operation, and a slice's response is a packet put into the lock of its crossbar port. -/
theorem canalReads : Obligations.CanalReads := by
  unfold Obligations.CanalReads
  intro s p u a
  refine ⟨fun served => ⟨exec_rd_at_slice served, exec_rd_at_site served.1 served.2.1, ?h1⟩, fun here => ⟨?data, ?cfg, ?cfgRsp, ?taken⟩, fun site => takesIn_iff s site p, ?response⟩
  case h1 =>
    intro agent port up good room
    obtain ⟨freed, taken⟩ := takeArrived_of_contains (arrived_of_mayServe served.1)
    exact ⟨_, exec_rd_at_h1 served.1 served.2.1 agent port up good room, rfl, by rw [taken], by rw [taken], by rw [taken]⟩
  case data => exact fun typ => if_pos (by rw [here, typ]; rfl)
  case cfg => exact fun typ at_ => if_pos (by rw [here, typ, at_]; rfl)
  case cfgRsp => exact fun typ => if_pos (by rw [here, typ]; rfl)
  case taken =>
    obtain ⟨freed, taken⟩ := takeArrived_of_contains here
    have taken : u = _ := taken
    rw [taken]
    exact ⟨rfl, rfl, rfl, rfl, rfl, rfl⟩
  case response =>
    intro slice v typ len status data
    refine ⟨p.sliceResponse (v.target (p.dest / 16 / 8) p).1 typ len status data, rfl, rfl, rfl, rfl, rfl, rfl, rfl, ?_⟩
    rw [respond_of_slice slice]
    refine ⟨fun none_ room => ?_, fun held => ?_, mem_injectAt .., arrived_injectAt .., spires_injectAt ..⟩
    · rw [injectAt_of_room none_ room]
      exact inq_enterLock ..
    · rw [injectAt_of_no_room held]
      exact ⟨outbox_setOutbox_append .., rfl⟩

end Sys2Proof.Machine
end

section
/-!
PROOFS of the family 09_memory_hierarchy: what a record leaves alone, and the far tier (O49).
-/
namespace Sys2Proof.Machine

open Sys2Proof

variable {s t : State} {p : CPkt}

/-! ## What a record leaves alone

A record and its module-wide event pass through the completion queues and the links, and an entry in device memory may need a chunk read first. They
write registers of four blocks only (R462), and of the state's parts only the command port, the links, the mirror, the basin and the error ring. -/

/-- The blocks in which a record and its event write: the command port's, the links', the basin's and the errors'. -/
abbrev InReportBlock (o : Nat) : Prop := (0x100000 ≤ o ∧ o < 0x200000) ∨ (0xA00000 ≤ o ∧ o < 0xC00000) ∨ (0xE00000 ≤ o ∧ o < 0xF00000)

/-- `t` differs from `s` at most in what a record and its event write; from a state in canonical form, `t` is in it and agrees with `s` on every register outside their blocks. -/
def Reported (s t : State) : Prop :=
  { t with regs := s.regs, mem := s.mem, hcp := s.hcp, pod := s.pod, mirror := s.mirror, bsn := s.bsn, errs := s.errs } = s ∧
  (InForm s → InForm t ∧ ∀ o, ¬InReportBlock o → t.reg o = s.reg o)

theorem Reported.refl (s : State) : Reported s s := ⟨rfl, fun form => ⟨form, fun _ _ => rfl⟩⟩

theorem Reported.setReg (h : Reported s t) {o : Nat} (v : Word) (block : InReportBlock o) : Reported s (t.setReg o v) := by
  refine ⟨h.1, fun form => ?_⟩
  obtain ⟨formed, regs⟩ := h.2 form
  refine ⟨State.inv_setReg formed o v, fun x out => (State.reg_setReg_ne formed v ?_).trans (regs x out)⟩
  rintro rfl
  exact out block

theorem Reported.setFld (h : Reported s t) {o : Nat} (f : Fld) (x : Nat) (block : InReportBlock o) : Reported s (t.setFld o f x) := h.setReg _ block

theorem Reported.setFlds (h : Reported s t) {o : Nat} (l : List (Fld × Nat)) (block : InReportBlock o) : Reported s (t.setFlds o l) := h.setReg _ block

theorem Reported.bump (h : Reported s t) {o : Nat} (n : Nat) (block : InReportBlock o) : Reported s (t.bump o n) := h.setReg _ block

theorem Reported.ite {c : Prop} [Decidable c] {a b : State} (ha : Reported s a) (hb : Reported s b) : Reported s (if c then a else b) := by
  split
  · exact ha
  · exact hb

theorem Reported.hcp (h : Reported s t) (x : Hcp) : Reported s { t with hcp := x } := h
theorem Reported.pod (h : Reported s t) (x : Pod) : Reported s { t with pod := x } := h
theorem Reported.mirror (h : Reported s t) (x : Mirror) : Reported s { t with mirror := x } := h
theorem Reported.bsn (h : Reported s t) (x : Basin) : Reported s { t with bsn := x } := h
theorem Reported.errs (h : Reported s t) (x : Errs) : Reported s { t with errs := x } := h
theorem Reported.setQueue (h : Reported s t) (q : Nat) (x : Queue) : Reported s (t.setQueue q x) := h
theorem Reported.vector (h : Reported s t) (v : Nat) : Reported s (t.vector v) := h

/-! The parts of the state that the statements here speak of. -/

theorem Reported.far (h : Reported s t) : t.far = s.far := by
  have same := congrArg State.far h.1
  exact same
theorem Reported.warm (h : Reported s t) : t.warm = s.warm := by
  have same := congrArg State.warm h.1
  exact same
theorem Reported.reinit (h : Reported s t) : t.reinit = s.reinit := by
  have same := congrArg State.reinit h.1
  exact same

/-! Links and chunks read before a write to them. -/

theorem Reported.sendLD (h : Reported s t) (p : LPkt) (bs : List Byte) (half : Nat) : Reported s (t.sendLD p bs half) := by
  obtain ⟨q, e⟩ := sendW_eq t { pkt := p, data := bs, half := half }
  rw [State.sendLD, e]
  exact h.pod q

theorem Reported.sendChunk (h : Reported s t) (n c : Nat) : Reported s (t.sendChunk n c) := by
  unfold State.sendChunk State.openStream
  split
  · exact ((((h.mirror _).bump _ (by decide)).pod _).sendLD _ _ _)
  · exact h

theorem Reported.copyClosing (h : Reported s t) (c : Nat) : Reported s (t.copyClosing c) := by
  unfold State.copyClosing State.releaseMirror State.showMirror
  split
  · exact ((((h.mirror _).sendChunk _ c).bump (o := R.LNK_MIR_WAIT_NS) _ (by decide)).mirror _).setFlds _ (by decide)
  · exact h

theorem Reported.showCapture (h : Reported s t) : Reported s t.showCapture := by
  unfold State.showCapture
  split
  · exact h.setFlds _ (by decide)
  · exact h.setReg _ (by decide)

theorem Reported.releaseCapture (h : Reported s t) (c : Nat) : Reported s (t.releaseCapture c) := by
  unfold State.releaseCapture
  split
  · exact ((h.bump (o := R.BSN_CAPTURE_WAIT_NS) _ (by decide)).bsn _).showCapture
  · exact h

theorem Reported.captureChunk (h : Reported s t) (c : Nat) : Reported s (t.captureChunk c) := by
  unfold State.captureChunk
  split
  · exact ((h.bsn _).releaseCapture c).bump _ (by decide)
  · exact h

theorem Reported.store (h : Reported s t) (a : Nat) (bs : List Byte) : Reported s (t.store a bs) := by
  have read : Reported s (t.readFirst a bs.length) := by
    unfold State.readFirst
    refine List.foldlRecOn _ _ h fun u ih c _ => ?_
    have copied : Reported s (if u.mirror.c.contains c then u.copyClosing c else u) := (ih.copyClosing c).ite ih
    exact (copied.captureChunk c).ite copied
  refine ⟨read.1, fun form => ?_⟩
  obtain ⟨⟨regs, mem⟩, same⟩ := read.2 form
  exact ⟨⟨regs, Memory.wf_writeBytes _ _ mem⟩, same⟩

/-! Completion queues, events and records. -/

theorem inReportBlock_cqStatus {q : Nat} (lt : q < 64) : InReportBlock (R.HCP_Q_STATUS q) := by
  simp only [R.HCP_Q_STATUS]
  omega

theorem Reported.signalQueue (h : Reported s t) (q : Nat) : Reported s (t.signalQueue q) := by
  unfold State.signalQueue
  exact ((h.setQueue q _).vector _).ite (h.setQueue q _)

theorem Reported.cqWrite (h : Reported s t) {q : Nat} (lt : q < 64) (e : CqEntry) : Reported s (t.cqWrite q e) := by
  unfold State.cqWrite
  refine (Reported.signalQueue ?_ q).ite ?_
  all_goals exact ((((h.hcp _).store _ _).ite (h.hcp _)).setFld _ _ (inReportBlock_cqStatus lt)).setQueue q _

theorem Reported.cqPost (h : Reported s t) {q : Nat} (lt : q < 64) (e : CqEntry) : Reported s (t.cqPost q e) := by
  have lost : InReportBlock (if e.disp = .event then R.HCP_EVT_LOST else R.HCP_CQ_DROP) := by split <;> decide
  unfold State.cqPost
  exact (h.bump _ lost).ite ((h.cqWrite lt e).ite ((h.setQueue q _).ite (((h.bump _ (by decide)).setQueue q _).ite (h.setQueue q _))))

theorem Reported.postModule (h : Reported s t) (e : CqEntry) : Reported s (t.postModule e) := by
  unfold State.postModule
  exact ((h.bump _ (by decide)).ite (h.cqPost (fget_lt _ F.HCP_CTL_EVT_CQ) e)).ite (h.sendLD ..)

theorem inReportBlock_errClass {k : Nat} (le : k ≤ 4) : InReportBlock (R.ERR_CLASS k) := by
  simp only [R.ERR_CLASS]
  omega

theorem Reported.putRecord (h : Reported s t) {cls : Nat} (le : cls ≤ 4) (cause skind sindex rung d0 d1 dseq flags stopId : Nat) :
    Reported s (t.putRecord cause cls skind sindex rung d0 d1 dseq flags stopId) := by
  have counted (x : Errs) (n : Word) := ((h.errs x).setReg (o := R.ERR_NEWEST) n (by decide)).bump 1 (inReportBlock_errClass le)
  have unread (x : Errs) (n : Word) (v : Nat) := (counted x n).setFld (o := R.ERR_STATUS) F.ERR_STATUS_UNREAD v (by decide)
  unfold State.putRecord
  refine (Reported.vector ?_ 66).ite ?_
  all_goals
    refine ((Reported.hcp ?_ _).postModule _).ite ?_
    all_goals exact ((unread _ _ _).setFld _ _ (by decide)).ite (unread _ _ _)

/-! ## A record of class 3: the warm reset -/

theorem Reported.floodNow (h : Reported s t) (id : Nat) (b : LBody) : Reported s (t.floodNow id b) := by
  unfold State.floodNow
  exact List.foldlRecOn _ _ h fun u ih n _ => ih.pod _

theorem far_resetLinks (s : State) : s.resetLinks.far = s.far := by
  unfold State.resetLinks
  generalize List.range 48 = links
  extract_lets emptied
  refine List.foldlRecOn (motive := fun u : State => u.far = s.far) _ _ rfl fun u ih n _ => ?_
  extract_lets v
  rw [State.setLink_far, State.setFld_far, ih]

/-- A warm reset drops what is outstanding at H1 (R562). -/
theorem far_reqs_clearModule (s : State) : s.clearModule.far.reqs = [] := by
  unfold State.clearModule
  generalize (List.range 8).foldl (fun (s : State) t => s.countThrottle t) s.countStall = throttled
  dsimp only
  generalize List.foldl _ throttled _ = stopped
  generalize stopped.mailboxReset = reset
  generalize List.foldl _ reset _ = disabled
  rw [far_resetLinks]
  exact List.foldlRecOn (motive := fun u : State => u.far.reqs = []) _ _ rfl fun u ih x _ => by rw [State.setFld_far, ih]

/-- With no warm reset under way, a class 3 record is reported and the warm reset starts (R295, R551). -/
theorem raise3_eq_startWarm (idle : s.warm = none) (cause skind sindex d0 d1 : Nat) : ∃ u, Reported s u ∧ s.raise3 cause skind sindex d0 d1 = u.startWarm none := by
  unfold State.raise3
  rw [idle]
  refine ⟨_, ?_, rfl⟩
  refine Reported.putRecord ?_ (by decide) ..
  refine Reported.floodNow ?_ ..
  exact Reported.bump (o := R.ERR_STOPS_SENT) ((Reported.refl s).errs _) 1 (by decide)

theorem far_beginWarm (s : State) (cmd : Option Cmd) : (s.beginWarm cmd).far = s.far := rfl

theorem startWarm_of_none {u : State} (idle : u.warm = none) (cmd : Option Cmd) : u.startWarm cmd = u.clearModule.beginWarm cmd := by
  rw [State.startWarm, idle]

/-- A class 3 record starts a warm reset where none is under way (R295). -/
theorem raise3_starts (idle : s.warm = none) (cause skind sindex d0 d1 : Nat) :
    (s.raise3 cause skind sindex d0 d1).warm.isSome = true ∧ (s.raise3 cause skind sindex d0 d1).far.reqs = [] := by
  obtain ⟨u, same, e⟩ := raise3_eq_startWarm idle cause skind sindex d0 d1
  rw [e, startWarm_of_none (same.warm.trans idle), far_beginWarm, far_reqs_clearModule]
  exact ⟨rfl, rfl⟩

/-! ## The far tier -/

section Completion
variable {k : Nat} {r : FarReq} (at_ : s.far.reqs[k]? = some r)

/-- The module without its `k`-th outstanding far request. -/
def State.farDone (s : State) (k : Nat) : State := { s with far := { s.far with reqs := s.far.reqs.eraseIdx k } }

include at_

theorem exec_farReadCompletion_of_behind (behind : (s.far.reqs.take k).any (fun x => x.pkt.addr / 512 * 512 == r.pkt.addr / 512 * 512) = true) (poison : Bool) :
    exec (.farReadCompletion k poison) s = .next s := by
  change execFarReadCompletion k poison s = _
  simp only [execFarReadCompletion, at_, behind, if_true]

/-- The first request to its barge is completed (R250, R307, R308). -/
theorem exec_farReadCompletion_of_first (first : (s.far.reqs.take k).any (fun x => x.pkt.addr / 512 * 512 == r.pkt.addr / 512 * 512) = false) (poison : Bool) :
    exec (.farReadCompletion k poison) s =
      let v := s.farDone k
      if r.pkt.typ = 1 then
        (if poison then .next (((v.bump R.TWR_FAR_FAIL).bump (R.TWR_UE_COUNT 0)).raise3 0x0305 3 0x100 (r.pkt.addr / 512 * 512) 0)
         else .next ((v.bump R.TWR_FAR_RD).respond r.pkt 2 8 0 (s.load (r.pkt.addr / 512 * 512) 512)))
      else .next (((v.bump R.TWR_FAR_WR).commitQuarters (v.wrQuarters r.pkt 0)).ackWrite r.pkt 0) := by
  change execFarReadCompletion k poison s = _
  simp only [execFarReadCompletion, at_, first, Bool.false_eq_true, if_false]
  rfl

end Completion

/-! ### The failure of H1 -/

/-- A response enters the canal in class TC1, and is counted in the injected flits at most (R321, R345). -/
theorem respond_eq (s : State) (p : CPkt) (typ len status : Nat) (data : List Byte) : ∃ (x : Canal) (site n : Nat),
    s.respond p typ len status data = { s with canal := x } ∨ s.respond p typ len status data = State.bump { s with canal := x } (R.CNL_FLITS_TC (domeOf site) 1) n := by
  unfold State.respond
  dsimp only
  obtain ⟨x, -, entered⟩ := injectAt_eq s _ _ _
  exact ⟨x, _, _, entered⟩

/-- A response changes no register but a count of injected flits. -/
theorem reg_respond_ne (form : InForm s) {o : Nat} (other : ∀ site, o ≠ R.CNL_FLITS_TC (domeOf site) 1) (p : CPkt) (typ len status : Nat) (data : List Byte) :
    (s.respond p typ len status data).reg o = s.reg o := by
  obtain ⟨x, site, n, e | e⟩ := respond_eq s p typ len status data
  · rw [e]
    rfl
  · rw [e]
    exact State.reg_setReg_ne (s := { s with canal := x }) form _ (other site)

theorem far_respond (s : State) (p : CPkt) (typ len status : Nat) (data : List Byte) : (s.respond p typ len status data).far = s.far := by
  obtain ⟨x, site, n, e | e⟩ := respond_eq s p typ len status data
  · rw [e]
  · rw [e, State.bump_far]

theorem reinit_respond (s : State) (p : CPkt) (typ len status : Nat) (data : List Byte) : (s.respond p typ len status data).reinit = s.reinit := by
  obtain ⟨x, site, n, e | e⟩ := respond_eq s p typ len status data
  · rw [e]
  · rw [e, State.bump_reinit]

theorem respond_inForm (form : InForm s) (p : CPkt) (typ len status : Nat) (data : List Byte) : InForm (s.respond p typ len status data) := by
  obtain ⟨regs, mem, -⟩ := inv_respond (keeps_of_inForm form) p typ len status data
  exact ⟨regs, mem⟩

/-- Counts of injected flits of class TC1 lie apart from the registers of the far tier and of the job. -/
theorem ne_flits {o : Nat} (low : o % 0x40000 ≠ 0x108) (site : Nat) : o ≠ R.CNL_FLITS_TC (domeOf site) 1 := by
  simp only [R.CNL_FLITS_TC]
  omega

/-- A failed request is counted (R308). -/
theorem reg_farFail_farFailOne (form : InForm s) (r : FarReq) : (s.farFailOne r).reg R.TWR_FAR_FAIL = s.reg R.TWR_FAR_FAIL + 1 := by
  rw [State.farFailOne, reg_respond_ne (State.inv_bump form ..) (ne_flits (by decide)), State.reg_bump form, if_pos rfl]
  rfl

theorem jobState_farFailOne (form : InForm s) (r : FarReq) : (s.farFailOne r).jobState = s.jobState := by
  have same : (s.farFailOne r).reg R.ERR_JOB = s.reg R.ERR_JOB := by
    rw [State.farFailOne, reg_respond_ne (State.inv_bump form ..) (ne_flits (by decide)), State.reg_bump form, if_neg (by decide)]
  exact congrArg (fget · F.ERR_JOB_STATE) same

/-- A class 2 record while no job runs stops nothing (R554). -/
theorem raise_of_no_job (idle : s.jobState ≠ 1) (cause skind sindex rung d0 d1 : Nat) :
    s.raise cause skind sindex rung d0 d1 = s.putRecord cause 2 skind sindex rung d0 d1 0 0 0 := if_neg idle

/-- H1 has failed, with nothing outstanding any more (R308). -/
def State.h1Shut (s : State) : State := { s with far := { s.far with reqs := [], failed := true } }

/-- With one request outstanding and no job running, the failure of H1 fails that request, counts it, and puts H1 at rung 2 (R308, R560). -/
theorem farFails_of_one {r : FarReq} (form : InForm s) (idle : s.jobState ≠ 1) (one : s.far.reqs = [r]) :
    s.farFails.far.failed = true ∧ s.farFails.far.reqs = [] ∧ s.farFails.reg R.TWR_FAR_FAIL = s.reg R.TWR_FAR_FAIL + 1 ∧ s.farFails.reinit.length = s.reinit.length + 1 := by
  have formed : InForm (s.h1Shut.farFailOne r) := respond_inForm (State.inv_bump (s := s.h1Shut) form ..) ..
  have still : (s.h1Shut.farFailOne r).jobState ≠ 1 := by rwa [jobState_farFailOne (s := s.h1Shut) form]
  have record := (Reported.refl (s.h1Shut.farFailOne r)).putRecord (cls := 2) (by decide) 0x0306 3 0x100 2 (r.pkt.addr / 512 * 512) 0 0 0 0
  have ends : s.farFails = (State.putRecord (s.h1Shut.farFailOne r) 0x0306 2 3 0x100 2 (r.pkt.addr / 512 * 512) 0 0 0 0).pushReinit 6 0 none := by
    rw [← raise_of_no_job still, State.farFails, one]
    rfl
  have far : s.farFails.far = s.h1Shut.far := by
    rw [ends]
    exact record.far.trans (far_respond ..)
  rw [far]
  refine ⟨rfl, rfl, ?_, ?_⟩
  · rw [ends]
    exact ((record.2 formed).2 _ (by decide)).trans (reg_farFail_farFailOne (s := s.h1Shut) form r)
  · rw [ends]
    exact (List.length_append ..).trans (congrArg (List.length · + 1) (record.reinit.trans (reinit_respond ..)))

/-- Settles O49: a completion by whether an earlier request to its barge is outstanding, the failure of H1 by `farFails_of_one`. -/
theorem farTier : Obligations.FarTier := by
  unfold Obligations.FarTier
  intro s k r at_ a first v
  refine ⟨?behind, ?read, ?write, ?poison, ?timeout, ?loss, fun idle form one => farFails_of_one form idle one⟩
  case behind =>
    intro behind
    exact exec_farReadCompletion_of_behind at_ (eq_true_of_ne_false behind)
  case read =>
    intro first read
    rw [exec_farReadCompletion_of_first at_ first]
    simp only [read, if_true, Bool.false_eq_true, if_false]
    rfl
  case write =>
    intro first write poison
    rw [exec_farReadCompletion_of_first at_ first]
    exact if_neg write
  case poison =>
    intro first read idle
    rw [exec_farReadCompletion_of_first at_ first]
    simp only [read, if_true]
    exact ⟨_, rfl, rfl, raise3_starts (s := ((s.farDone k).bump R.TWR_FAR_FAIL).bump (R.TWR_UE_COUNT 0)) idle ..⟩
  case timeout =>
    cases outstanding : s.far.reqs with
    | nil => simp [outstanding] at at_
    | cons r0 rs =>
      refine ⟨r0, rs, rfl, ?_⟩
      change execFarRequestTimeout s = _
      simp only [execFarRequestTimeout, outstanding]
  case loss =>
    intro up alive
    change execFarLinkLoss s = _
    simp only [execFarLinkLoss, up, alive]
    rfl

end Sys2Proof.Machine
end

section
/-!
PROOFS of the family 09_memory_hierarchy: the memory group of commands (O43).
-/
namespace Sys2Proof.Machine

open Sys2Proof

variable {s t : State} {id op : Nat} {c : Cmd}

/-! ## What the start of a command answers -/

section Starts
variable {f : Cmd → State → Go × State} (h : Starts s id op c)
include h

theorem attempt_done {st : Status} {r : List Nat} (e : f c s = (.done st r, t)) : s.attempt op id f = t.finishCmd id st r := by
  rw [attempt_of_starts h, e, ← dseq_of_starts h]
  rfl

theorem attempt_run {r0 : Nat} (e : f c s = (.run r0, t)) : s.attempt op id f = t.startCmd c r0 := by
  rw [attempt_of_starts h, e]
  rfl

theorem attempt_wait {why : Status} {est : Nat} (e : f c s = (.wait why est, s)) : s.attempt op id f = s.delayCmd c why est := by
  rw [attempt_of_starts h, e]
  rfl

theorem attempt_refuse {st : Status} {r0 : Nat} (e : f c s = (.refuse st r0, s)) : s.attempt op id f = s.refuseCmd id st r0 := by
  rw [attempt_of_starts h, e, ← dseq_of_starts h]
  rfl

end Starts

/-! ## What depends on the registers alone -/

section OfRegs
variable (regs : t.regs = s.regs)
include regs

theorem reg_of_regs : t.reg = s.reg := by
  funext o
  unfold State.reg
  rw [regs]

theorem specOn_of_regs : t.specOn = s.specOn := by
  unfold State.specOn State.fld
  rw [reg_of_regs regs]

theorem ilEntry_of_regs : t.ilEntry = s.ilEntry := by
  funext d r
  unfold State.ilEntry
  rw [reg_of_regs regs]

theorem towerPlace_of_regs : t.towerPlace = s.towerPlace := by
  funext a
  unfold State.towerPlace
  rw [ilEntry_of_regs regs]

theorem entryCovers_of_regs : t.entryCovers = s.entryCovers := by
  funext w a
  unfold State.entryCovers
  rw [towerPlace_of_regs regs]

theorem retired_of_regs : t.retired = s.retired := by
  funext a
  unfold State.retired State.retireEntries
  rw [entryCovers_of_regs regs, specOn_of_regs regs, regs]

theorem isFar_of_regs : t.isFar = s.isFar := by
  funext a
  unfold State.isFar State.farEnd State.fld
  rw [reg_of_regs regs]

theorem siteUp_of_regs : t.siteUp = s.siteUp := by
  funext site
  unfold State.siteUp State.enabled State.spState State.fld
  rw [reg_of_regs regs]

/-- What stops a copy lies in the registers and the state of H1. -/
theorem copyBad_of_regs (far : t.far = s.far) : t.copyBad = s.copyBad := by
  funext a
  unfold State.copyBad
  rw [siteUp_of_regs regs, specOn_of_regs regs, retired_of_regs regs, isFar_of_regs regs, far]

end OfRegs

/-! ## Writes that change memory alone -/

/-- `t` is `s` with other bytes, still in canonical form, and other dirty chunks of the mirror. -/
def OnlyBytes (s t : State) : Prop := Memory.wf t.mem ∧ t.mirror.c = s.mirror.c ∧ { t with mem := s.mem, mirror := s.mirror } = s

theorem OnlyBytes.refl (form : InForm s) : OnlyBytes s s := ⟨form.2, rfl, rfl⟩

theorem OnlyBytes.trans {u : State} (h : OnlyBytes s t) (k : OnlyBytes t u) : OnlyBytes s u := by
  obtain ⟨-, closing, rest⟩ := h
  obtain ⟨wf, closing', rest'⟩ := k
  have same := congrArg (fun v : State => { v with mem := s.mem, mirror := s.mirror }) rest'
  exact ⟨wf, closing'.trans closing, same.trans rest⟩

theorem OnlyBytes.regs (h : OnlyBytes s t) : t.regs = s.regs := by
  have same := congrArg State.regs h.2.2
  exact same

theorem OnlyBytes.hcp (h : OnlyBytes s t) : t.hcp = s.hcp := by
  have same := congrArg State.hcp h.2.2
  exact same

theorem OnlyBytes.bsn (h : OnlyBytes s t) : t.bsn = s.bsn := by
  have same := congrArg State.bsn h.2.2
  exact same

theorem OnlyBytes.far (h : OnlyBytes s t) : t.far = s.far := by
  have same := congrArg State.far h.2.2
  exact same

theorem OnlyBytes.inForm (h : OnlyBytes s t) (form : InForm s) : InForm t := ⟨h.regs ▸ form.1, h.1⟩

theorem OnlyBytes.copyBad (h : OnlyBytes s t) : t.copyBad = s.copyBad := copyBad_of_regs h.regs h.far

/-- With no chunk to be read first, a store changes bytes alone (R375). -/
theorem store_onlyBytes (form : InForm s) (mir : s.mirror.c = []) (cap : s.bsn.capture = none) (a : Nat) (bs : List Byte) : OnlyBytes s (s.store a bs) := by
  have stored : s.store a bs = { s with mem := Memory.writeBytes s.mem a bs, mirror := s.mirror.mark a bs.length } := by
    simp only [State.store, State.readFirst_of_none_held mir cap]
  rw [stored]
  exact ⟨Memory.wf_writeBytes a bs form.2, rfl, rfl⟩

/-! ## Bytes read and bytes spelled -/

theorem length_readBytes (m : Memory) (a n : Nat) : (Memory.readBytes m a n).length = n := by simp [Memory.readBytes]

theorem getD_readBytes (m : Memory) (a : Nat) {n i : Nat} (lt : i < n) : (Memory.readBytes m a n).getD i 0#8 = Memory.readByte m (a + i) := by
  simp [Memory.readBytes, lt]

theorem length_bytesLE (n v : Nat) : (bytesLE n v).length = n := by
  induction n generalizing v with
  | zero => rfl
  | succ n ih => exact congrArg (· + 1) (ih _)

theorem natLE_bytesLE (n v : Nat) : natLE (bytesLE n v) = v % 256 ^ n := by
  induction n generalizing v with
  | zero => simp [bytesLE, natLE, Nat.mod_one]
  | succ n ih =>
    have step : natLE (bytesLE (n + 1) v) = v % 256 + 256 * natLE (bytesLE n (v / 256)) := rfl
    rw [step, ih, Nat.pow_succ', Nat.mod_mul]

/-- Bytes read where they were stored are those stored. -/
theorem readBytes_writeBytes {m : Memory} (wf : Memory.wf m) (a : Nat) (bs : List Byte) : Memory.readBytes (Memory.writeBytes m a bs) a bs.length = bs := by
  refine List.ext_getElem (length_readBytes ..) fun i lt lt' => ?_
  simp only [Memory.readBytes, List.getElem_map, List.getElem_range]
  rw [Memory.readByte_writeBytes wf, if_pos (by omega), Nat.add_sub_cancel_left, List.getD_eq_getElem?_getD, List.getElem?_eq_getElem lt', Option.getD_some]

theorem readLE_writeLE {m : Memory} (wf : Memory.wf m) (a n v : Nat) : Memory.readLE (Memory.writeLE m a n v) a n = v % 256 ^ n := by
  have read := readBytes_writeBytes wf a (bytesLE n v)
  rw [length_bytesLE] at read
  rw [Memory.readLE, Memory.writeLE, read, natLE_bytesLE]

/-- A pattern repeated reads the pattern's bytes over and over. -/
theorem getD_flatMap_const (w : List Byte) : ∀ k j, j < w.length * k → ((List.range k).flatMap (fun _ => w)).getD j 0#8 = w.getD (j % w.length) 0#8 := by
  intro k
  induction k with
  | zero => simp
  | succ k ih =>
    intro j lt
    have len : ((List.range k).flatMap (fun _ => w)).length = w.length * k := by
      rw [List.length_flatMap, List.map_const', List.length_range, List.sum_replicate_nat, Nat.mul_comm]
    rw [List.range_succ, List.flatMap_append, List.flatMap_singleton, List.getD_eq_getElem?_getD]
    rcases Nat.lt_or_ge j (w.length * k) with low | high
    · rw [List.getElem?_append_left (by omega), ← List.getD_eq_getElem?_getD]
      exact ih j low
    · rw [List.getElem?_append_right (by omega), len, ← List.getD_eq_getElem?_getD]
      have : j % w.length = j - w.length * k := by
        rw [Nat.mul_succ] at lt
        rw [← Nat.mod_eq_of_lt (show j - w.length * k < w.length by omega), Nat.sub_mul_mod (by omega)]
      rw [this]

/-! ## COPY -/

theorem cmdCopy_of_quiescent (g : (s.quiescent && (touchesSite (c.par 0 8) || touchesSite (c.par 8 8))) = true) : cmdCopy c s = (.wait .waitIdle unknown, s) := if_pos g

theorem cmdCopy_of_awake (g : (s.quiescent && (touchesSite (c.par 0 8) || touchesSite (c.par 8 8))) = false) :
    let x := copyBarges (c.par 16 8 / 512) (c.par 0 8) (c.par 8 8) 0 s
    cmdCopy c s = (.done (if x.2.1 then .ok else .copyAddress) [x.1], x.2.2) := if_neg (by simp [g])

theorem copyBarges_succ {src dst : Nat} (from_ : s.copyBad src = 0) (free : s.copyBad dst = 0) (k n : Nat) :
    let u := (s.reachAddr src).reachAddr dst
    copyBarges (k + 1) src dst n s = copyBarges k (src + 512) (dst + 512) (n + 1) (u.store dst (u.load src 512)) := by
  rw [copyBarges, if_neg (by simp [from_]), if_neg (by simp [free])]

/-- The barge at which a copy faults ends it (R484). -/
theorem copyBarges_of_bad {src dst : Nat} (bad : s.copyBad src ≠ 0 ∨ s.copyBad dst ≠ 0) (k n : Nat) : ∃ u, copyBarges (k + 1) src dst n s = (n, false, u) := by
  rw [copyBarges]
  split
  · exact ⟨_, rfl⟩
  · exact ⟨_, if_pos (bad.resolve_left ‹_›)⟩

/-- With no chunk to be read first, the first `b` barges of a copy away from the local stores change bytes alone: those of the destination, which, where the copy
does not run into its own source, read as the source did. -/
theorem copyBarges_after (b : Nat) {s : State} (src dst n : Nat) (form : InForm s) (mir : s.mirror.c = []) (cap : s.bsn.capture = none)
    (good : ∀ i, i < b → s.copyBad (src + 512 * i) = 0 ∧ s.copyBad (dst + 512 * i) = 0) (away : ∀ i, i < b → lsSite (src + 512 * i) = none ∧ lsSite (dst + 512 * i) = none) :
    ∃ t, OnlyBytes s t ∧ (∀ k, copyBarges (b + k) src dst n s = copyBarges k (src + 512 * b) (dst + 512 * b) (n + b) t) ∧
      (src + 512 * b ≤ dst ∨ dst ≤ src → ∀ x, Memory.readByte t.mem x = if dst ≤ x ∧ x < dst + 512 * b then Memory.readByte s.mem (src + (x - dst)) else Memory.readByte s.mem x) := by
  induction b generalizing s src dst n with
  | zero => exact ⟨s, .refl form, fun k => by simp, fun _ x => by rw [if_neg (by omega)]⟩
  | succ b ih =>
    obtain ⟨from_, free⟩ : s.copyBad src = 0 ∧ s.copyBad dst = 0 := good 0 (by omega)
    obtain ⟨fromAway, toAway⟩ : lsSite src = none ∧ lsSite dst = none := away 0 (by omega)
    have one := store_onlyBytes form mir cap dst (s.load src 512)
    have moved (k : Nat) : copyBarges (b + 1 + k) src dst n s = copyBarges (b + k) (src + 512) (dst + 512) (n + 1) (s.store dst (s.load src 512)) := by
      rw [Nat.add_right_comm, copyBarges_succ from_ free, State.reachAddr_of_none fromAway, State.reachAddr_of_none toAway]
    have next (a i : Nat) : a + 512 + 512 * i = a + 512 * (i + 1) := by omega
    obtain ⟨t, rest, runs, reads⟩ := ih (s := s.store dst (s.load src 512)) (src + 512) (dst + 512) (n + 1) (one.inForm form) (one.2.1.trans mir) (one.bsn ▸ cap)
      (fun i lt => by rw [next, next, one.copyBad]; exact good (i + 1) (by omega)) (fun i lt => by rw [next, next]; exact away (i + 1) (by omega))
    refine ⟨t, one.trans rest, fun k => ?_, fun apart x => ?_⟩
    · rw [moved, runs, next, next, Nat.add_right_comm, Nat.add_assoc n]
    · have stored (y : Nat) : Memory.readByte (s.store dst (s.load src 512)).mem y = _ := State.readByte_store_of_none_held form mir cap y
      simp only [State.load, length_readBytes] at stored reads
      have reads := reads (by omega)
      by_cases first : dst ≤ x ∧ x < dst + 512
      · calc _ = _ := (reads x).trans (if_neg (by omega))
          _ = (Memory.readBytes s.mem src 512).getD (x - dst) 0#8 := (stored x).trans (if_pos first)
          _ = Memory.readByte s.mem (src + (x - dst)) := getD_readBytes _ _ (by omega)
          _ = _ := (if_pos ⟨by omega, by omega⟩).symm
      · by_cases later : dst + 512 ≤ x ∧ x < dst + 512 + 512 * b
        · calc _ = _ := (reads x).trans (if_pos later)
            _ = Memory.readByte s.mem (src + 512 + (x - (dst + 512))) := (stored _).trans (if_neg (by omega))
            _ = Memory.readByte s.mem (src + (x - dst)) := congrArg _ (by omega)
            _ = _ := (if_pos (by omega)).symm
        · calc _ = _ := (reads x).trans (if_neg later)
            _ = Memory.readByte s.mem x := (stored x).trans (if_neg first)
            _ = _ := (if_neg fun ⟨low, high⟩ => by omega).symm

/-! ## FILL -/

theorem cmdFill_of_quiescent (g : (s.quiescent && touchesSite (c.par 0 8)) = true) : cmdFill c s = (.wait .waitIdle unknown, s) := if_pos g

theorem cmdFill_of_awake (g : (s.quiescent && touchesSite (c.par 0 8)) = false) :
    let x := fillBarges (c.par 8 8 / 512) (c.par 0 8) ((List.range 64).flatMap (fun _ => bytesLE 8 (c.par 16 8))) 0 s
    cmdFill c s = (.done (if x.2.1 then .ok else .copyAddress) [x.1], x.2.2) := if_neg (by simp [g])

theorem fillBarges_succ {dst : Nat} (good : s.copyBad dst = 0) (bs : List Byte) (k n : Nat) :
    fillBarges (k + 1) dst bs n s = fillBarges k (dst + 512) bs (n + 1) ((s.reachAddr dst).store dst bs) := by
  rw [fillBarges, if_neg (by simp [good])]

theorem fillBarges_of_bad {dst : Nat} (bad : s.copyBad dst ≠ 0) (bs : List Byte) (k n : Nat) : ∃ u, fillBarges (k + 1) dst bs n s = (n, false, u) :=
  ⟨_, if_pos bad⟩

/-- The first `b` barges of a fill away from the local stores change bytes alone: those of the destination, barge by barge. -/
theorem fillBarges_after (b : Nat) {s : State} {bs : List Byte} (dst n : Nat) (len : bs.length = 512) (form : InForm s) (mir : s.mirror.c = []) (cap : s.bsn.capture = none)
    (good : ∀ i, i < b → s.copyBad (dst + 512 * i) = 0) (away : ∀ i, i < b → lsSite (dst + 512 * i) = none) :
    ∃ t, OnlyBytes s t ∧ (∀ k, fillBarges (b + k) dst bs n s = fillBarges k (dst + 512 * b) bs (n + b) t) ∧
      ∀ x, Memory.readByte t.mem x = if dst ≤ x ∧ x < dst + 512 * b then bs.getD ((x - dst) % 512) 0#8 else Memory.readByte s.mem x := by
  induction b generalizing s dst n with
  | zero => exact ⟨s, .refl form, fun k => by simp, fun x => by rw [if_neg (by omega)]⟩
  | succ b ih =>
    have one := store_onlyBytes form mir cap dst bs
    have free : s.copyBad dst = 0 := good 0 (by omega)
    have atDst : lsSite dst = none := away 0 (by omega)
    have filled (k : Nat) : fillBarges (b + 1 + k) dst bs n s = fillBarges (b + k) (dst + 512) bs (n + 1) (s.store dst bs) := by
      rw [Nat.add_right_comm, fillBarges_succ free, State.reachAddr_of_none atDst]
    have next (i : Nat) : dst + 512 + 512 * i = dst + 512 * (i + 1) := by omega
    obtain ⟨t, rest, runs, reads⟩ := ih (s := s.store dst bs) (dst + 512) (n + 1) (one.inForm form) (one.2.1.trans mir) (one.bsn ▸ cap)
      (fun i lt => by rw [next, one.copyBad]; exact good (i + 1) (by omega)) (fun i lt => by rw [next]; exact away (i + 1) (by omega))
    refine ⟨t, one.trans rest, fun k => ?_, fun x => ?_⟩
    · rw [filled, runs, next, Nat.add_right_comm, Nat.add_assoc n]
    · have stored (y : Nat) : Memory.readByte (s.store dst bs).mem y = _ := State.readByte_store_of_none_held form mir cap y
      simp only [len] at stored
      by_cases first : dst ≤ x ∧ x < dst + 512
      · calc _ = _ := (reads x).trans (if_neg (by omega))
          _ = bs.getD (x - dst) 0#8 := (stored x).trans (if_pos first)
          _ = bs.getD ((x - dst) % 512) 0#8 := by rw [Nat.mod_eq_of_lt (by omega)]
          _ = _ := (if_pos ⟨by omega, by omega⟩).symm
      · by_cases later : dst + 512 ≤ x ∧ x < dst + 512 + 512 * b
        · calc _ = _ := (reads x).trans (if_pos later)
            _ = bs.getD ((x - dst) % 512) 0#8 := congrArg (bs.getD · 0#8) (by omega)
            _ = _ := (if_pos (by omega)).symm
        · calc _ = _ := (reads x).trans (if_neg later)
            _ = Memory.readByte s.mem x := (stored x).trans (if_neg first)
            _ = _ := (if_neg fun ⟨low, high⟩ => by omega).symm

theorem length_fillPattern (v : Nat) : ((List.range 64).flatMap (fun _ => bytesLE 8 v)).length = 512 := by
  simp only [List.length_flatMap, length_bytesLE, List.map_const', List.length_range, List.sum_replicate_nat]

/-- The barge of a fill: its pattern of eight bytes 64 times (R484). -/
theorem getD_fillPattern (v y : Nat) : ((List.range 64).flatMap (fun _ => bytesLE 8 v)).getD (y % 512) 0#8 = (bytesLE 8 v).getD (y % 8) 0#8 := by
  rw [getD_flatMap_const _ _ _ (by rw [length_bytesLE]; omega), length_bytesLE, Nat.mod_mod_of_dvd _ (by decide)]

/-! ## XLT_INVALIDATE -/

theorem tfind_map {α β : Type} (f : α → β) (l : Table α) (k : Nat) : tfind (l.map (fun p => (p.1, f p.2))) k = (tfind l k).map f := by
  induction l with
  | nil => rfl
  | cons e r ih =>
    obtain ⟨i, v⟩ := e
    simp only [List.map_cons, tfind, ih]
    split
    · rfl
    · split
      · rfl
      · rfl

/-- Every spire changed in the same way, one that is not listed by a change that leaves the empty spire. -/
theorem spire_map (f : Spire → Spire) (empty : f emptySpire = emptySpire) (s : State) (site : Nat) :
    State.spire { s with spires := s.spires.map (fun p => (p.1, f p.2)) } site = f (s.spire site) := by
  simp only [State.spire, tfind_map]
  cases tfind s.spires site with
  | none => exact empty.symm
  | some p => rfl

theorem spire_invalidate (s : State) (a n site : Nat) : (s.invalidate a n).spire site = { s.spire site with mover := { (s.spire site).mover with
    xlt := (s.spire site).mover.xlt.filter (fun x => !(n == 0 || (Nat.blt x.va (a + n) && Nat.blt a (x.va + x.size)))) } } :=
  spire_map (fun p => { p with mover := { p.mover with xlt := p.mover.xlt.filter (fun x => !(n == 0 || (Nat.blt x.va (a + n) && Nat.blt a (x.va + x.size)))) } }) rfl s site

theorem exec_xltInvalidate_of_starts (h : Starts s id 0x0203 c) :
    exec (.xltInvalidate id) s = .next (if s.usesOld (c.par 0 8) (c.par 8 8) then (s.invalidate (c.par 0 8) (c.par 8 8)).startCmd c 0 else (s.invalidate (c.par 0 8) (c.par 8 8)).finishCmd id .ok []) := by
  have fresh : ¬(c.opcode = 0x0203 ∧ c.started = true) := by simp [h.2.2.1]
  change execXltInvalidate id s = _
  simp only [execXltInvalidate, h.1, if_neg fresh]
  by_cases old : s.usesOld (c.par 0 8) (c.par 8 8) = true
  · rw [if_pos old, attempt_run h (if_pos old)]
  · rw [if_neg old, attempt_done h (if_neg old)]

/-- A started XLT_INVALIDATE ends once no request on its way used an old translation (R263). -/
theorem exec_xltInvalidate_of_started (found : s.cmd? id = some c) (opcode : c.opcode = 0x0203) (started : c.started = true) :
    exec (.xltInvalidate id) s = .next (if s.usesOld (c.par 0 8) (c.par 8 8) then s else s.finishCmd id .ok []) := by
  change execXltInvalidate id s = _
  simp only [execXltInvalidate, found, opcode, started, and_self, if_true]

/-! ## PAGE_RESOLVE -/

/-- Where no node and no collective waits for the page, PAGE_RESOLVE acts on the faults of the movers alone (R262). -/
theorem cmdPageResolve_of_none_waiting (nodes : s.waitingNodes (c.par 0 8) = []) (colls : s.waitingColls (c.par 0 8) = []) :
    let sites := s.translationSites (fun x _ => x == c.par 0 8)
    cmdPageResolve c s = (.done .ok [sites.length], sites.foldl (fun s i => if c.par 8 1 == 1 then s.faultToAddress i else s.clearFault i) s) := by
  simp only [cmdPageResolve, nodes, colls, List.length_nil, List.foldl_nil, Nat.add_zero]

section Moves
variable {n src dst : Nat} (form : InForm s) (mir : s.mirror.c = []) (cap : s.bsn.capture = none)
include form mir cap

/-- A copy that meets no fault (R484). -/
theorem copyBarges_all (good : ∀ i, i < n → s.copyBad (src + 512 * i) = 0 ∧ s.copyBad (dst + 512 * i) = 0) (away : ∀ i, i < n → lsSite (src + 512 * i) = none ∧ lsSite (dst + 512 * i) = none)
    (apart : src + 512 * n ≤ dst ∨ dst ≤ src) :
    ∃ t, copyBarges n src dst 0 s = (n, true, t) ∧ OnlyBytes s t ∧ ∀ x, Memory.readByte t.mem x = if dst ≤ x ∧ x < dst + 512 * n then Memory.readByte s.mem (src + (x - dst)) else Memory.readByte s.mem x := by
  obtain ⟨t, bytes, runs, reads⟩ := copyBarges_after n src dst 0 form mir cap good away
  exact ⟨t, (runs 0).trans (by rw [copyBarges, Nat.zero_add]), bytes, reads apart⟩

/-- A copy that meets its first fault at barge `b` (R484). -/
theorem copyBarges_to_bad {b : Nat} (lt : b < n) (good : ∀ i, i < b → s.copyBad (src + 512 * i) = 0 ∧ s.copyBad (dst + 512 * i) = 0)
    (away : ∀ i, i < b → lsSite (src + 512 * i) = none ∧ lsSite (dst + 512 * i) = none) (bad : s.copyBad (src + 512 * b) ≠ 0 ∨ s.copyBad (dst + 512 * b) ≠ 0) :
    ∃ u, copyBarges n src dst 0 s = (b, false, u) := by
  obtain ⟨t, bytes, runs, -⟩ := copyBarges_after b src dst 0 form mir cap good away
  obtain ⟨k, rfl⟩ : ∃ k, n = b + (k + 1) := ⟨n - b - 1, by omega⟩
  obtain ⟨u, stops⟩ := copyBarges_of_bad (s := t) (by rwa [bytes.copyBad]) k (0 + b)
  exact ⟨u, (runs _).trans (by rw [stops, Nat.zero_add])⟩

/-- A fill that meets no fault (R484). -/
theorem fillBarges_all (v : Nat) (good : ∀ i, i < n → s.copyBad (dst + 512 * i) = 0) (away : ∀ i, i < n → lsSite (dst + 512 * i) = none) :
    ∃ t, fillBarges n dst ((List.range 64).flatMap (fun _ => bytesLE 8 v)) 0 s = (n, true, t) ∧ OnlyBytes s t ∧
      ∀ x, Memory.readByte t.mem x = if dst ≤ x ∧ x < dst + 512 * n then (bytesLE 8 v).getD ((x - dst) % 8) 0#8 else Memory.readByte s.mem x := by
  obtain ⟨t, bytes, runs, reads⟩ := fillBarges_after n dst 0 (length_fillPattern v) form mir cap good away
  refine ⟨t, (runs 0).trans (by rw [fillBarges, Nat.zero_add]), bytes, fun x => ?_⟩
  rw [reads, getD_fillPattern]

/-- A fill that meets its first fault at barge `b` (R484). -/
theorem fillBarges_to_bad {b : Nat} {bs : List Byte} (len : bs.length = 512) (lt : b < n) (good : ∀ i, i < b → s.copyBad (dst + 512 * i) = 0) (away : ∀ i, i < b → lsSite (dst + 512 * i) = none)
    (bad : s.copyBad (dst + 512 * b) ≠ 0) : ∃ u, fillBarges n dst bs 0 s = (b, false, u) := by
  obtain ⟨t, bytes, runs, -⟩ := fillBarges_after b dst 0 len form mir cap good away
  obtain ⟨k, rfl⟩ : ∃ k, n = b + (k + 1) := ⟨n - b - 1, by omega⟩
  obtain ⟨u, stops⟩ := fillBarges_of_bad (s := t) (by rwa [bytes.copyBad]) bs k (0 + b)
  exact ⟨u, (runs _).trans (by rw [stops, Nat.zero_add])⟩

end Moves

/-! ## PAGE_MIGRATE -/

theorem natLE_lt (bs : List Byte) : natLE bs < 256 ^ bs.length := by
  induction bs with
  | nil => decide
  | cons b r ih =>
    have step : natLE (b :: r) = b.toNat + 256 * natLE r := rfl
    have byte : b.toNat < 256 := b.isLt
    rw [step, List.length_cons, Nat.pow_succ]
    omega

theorem loadLE_lt (s : State) (a : Nat) : s.loadLE a 8 < 2 ^ 64 := by
  have := natLE_lt (Memory.readBytes s.mem a 8)
  rwa [length_readBytes] at this

theorem mem_store (mir : s.mirror.c = []) (cap : s.bsn.capture = none) (a : Nat) (bs : List Byte) : (s.store a bs).mem = Memory.writeBytes s.mem a bs := by
  simp only [State.store, State.readFirst_of_none_held mir cap]

/-- The rewritten entry, with P = 1, MIGR = 0 and the new frame, fits its eight bytes (R260, R262). -/
theorem migrated_lt {e : Nat} (frame : Nat) (fits : e < 2 ^ 64) (absent : e % 2 = 0) : e + 1 - 32 - e / 256 % 2 ^ 40 * 256 + frame / 256 * 256 % 2 ^ 48 < 256 ^ 8 := by
  have whole : frame / 256 * 256 % 2 ^ 48 = frame / 256 % 2 ^ 40 * 256 := Nat.mul_mod_mul_right 256 (frame / 256) (2 ^ 40)
  rw [whole]
  omega

theorem retryNode_eq (s : State) (g k : Nat) : ∃ x, s.retryNode g k = { s with graphs := x } := by
  unfold State.retryNode
  split
  · exact ⟨_, rfl⟩
  · exact ⟨s.graphs, rfl⟩

theorem foldl_retryNode_eq (l : List (Nat × Nat)) (s : State) : ∃ x, l.foldl (fun s n => s.retryNode n.1 n.2) s = { s with graphs := x } := by
  refine List.foldlRecOn (motive := fun u : State => ∃ x, u = { s with graphs := x }) l _ ⟨s.graphs, rfl⟩ fun u ih n _ => ?_
  obtain ⟨x, e⟩ := ih
  obtain ⟨y, e'⟩ := retryNode_eq u n.1 n.2
  exact ⟨y, by rw [e', e]⟩

/-- The frame that an entry with P = 0 and MIGR = 1 names, and the size of its page (R260, R262). -/
def Cmd.oldFrame (c : Cmd) (s : State) : Nat := s.loadLE (c.par 0 8) 8 / 256 % 2 ^ 40 * 256
/-- The size of the page that PAGE_MIGRATE moves (R262). -/
def Cmd.pageSize (c : Cmd) : Nat := if c.par 16 1 = 0 then 0x10000 else 0x200000

/-- What PAGE_MIGRATE writes: the frame's copy, and the entry (R262). -/
def Cmd.migrated (c : Cmd) (s : State) : State :=
  (s.store (c.par 8 8) (s.load (c.oldFrame s) c.pageSize)).storeLE (c.par 0 8) 8 (s.loadLE (c.par 0 8) 8 + 1 - 32 - c.oldFrame s + c.par 8 8 / 256 * 256 % 2 ^ 48)

/-- The cached translations that place something in an old frame go (R262). -/
def State.dropFrame (s : State) (old size : Nat) : State :=
  { s with spires := s.spires.map (fun (p : Nat × Spire) => (p.1, { p.2 with mover := { p.2.mover with
      xlt := p.2.mover.xlt.filter (fun x => !(Nat.blt x.frame (old + size) && Nat.blt old (x.frame + x.size))) } })) }

/-- What waited for the migration goes on: movers whose page is there now, nodes, collectives (R262). -/
def State.resumeMigrated (s : State) : State :=
  let sites := (s.translationSites (fun _ m => m)).filter (fun i =>
    match s.walk (s.xltRoot i) (s.reg (R.SPR_FAULT_ADDR i)).toNat with | .page _ => true | _ => false)
  let u := sites.foldl (fun s i => s.clearFault i) s
  let v := u.migrNodes.foldl (fun s n => s.retryNode n.1 n.2) u
  v.migrColls.foldl (fun s q => s.collReady q) v

theorem cmdPageMigrate_of_bad (bad : s.loadLE (c.par 0 8) 8 % 2 = 1 ∨ s.loadLE (c.par 0 8) 8 / 32 % 2 = 0) : cmdPageMigrate c s = (.done .badState [], s) := by
  have refused : (s.loadLE (c.par 0 8) 8 % 2 == 0 && s.loadLE (c.par 0 8) 8 / 32 % 2 == 1) = false := by
    rcases bad with present | fixed
    · simp [present]
    · simp [fixed]
  unfold cmdPageMigrate
  extract_lets ea frame size e
  exact if_pos refused

theorem cmdPageMigrate_of_absent (absent : s.loadLE (c.par 0 8) 8 % 2 = 0) (migr : s.loadLE (c.par 0 8) 8 / 32 % 2 = 1) :
    cmdPageMigrate c s = (.done .ok [], ((c.migrated s).dropFrame (c.oldFrame s) c.pageSize).resumeMigrated) := by
  have taken : ¬(s.loadLE (c.par 0 8) 8 % 2 == 0 && s.loadLE (c.par 0 8) 8 / 32 % 2 == 1) = false := by simp [absent, migr]
  unfold cmdPageMigrate
  extract_lets ea frame size e
  exact if_neg taken

theorem translationSites_migr_eq_nil : s.translationSites (fun _ m => m) = [] ↔ ∀ p ∈ s.spires, (p.2.mover.faultAt.isSome && p.2.mover.migr) = false := by
  simp [State.translationSites]

/-- Dropping cached translations leaves each mover's fault. -/
theorem translationSites_dropFrame (none_ : s.translationSites (fun _ m => m) = []) (old size : Nat) : (s.dropFrame old size).translationSites (fun _ m => m) = [] := by
  rw [translationSites_migr_eq_nil] at none_ ⊢
  intro p mem
  obtain ⟨q, here, rfl⟩ := List.mem_map.mp mem
  exact none_ q here

/-- Where no mover and no collective waits for a migration, graph nodes alone are tried again. -/
theorem resumeMigrated_of_none_waiting (faults : s.translationSites (fun _ m => m) = []) (colls : s.migrColls = []) : ∃ g, s.resumeMigrated = { s with graphs := g } := by
  obtain ⟨g, e⟩ := foldl_retryNode_eq s.migrNodes s
  have still : State.migrColls { s with graphs := g } = [] := colls
  refine ⟨g, ?_⟩
  unfold State.resumeMigrated
  simp only [faults, List.filter_nil, List.foldl_nil, e, still]

section Migrate
variable (form : InForm s) (mir : s.mirror.c = []) (cap : s.bsn.capture = none)
include form mir cap

theorem migrated_onlyBytes (c : Cmd) : OnlyBytes s (c.migrated s) := by
  have copied := store_onlyBytes form mir cap (c.par 8 8) (s.load (c.oldFrame s) c.pageSize)
  exact copied.trans (store_onlyBytes (copied.inForm form) (copied.2.1.trans mir) (copied.bsn ▸ cap) _ _)

/-- The bytes after a migration: the copied frame, the entry, and all others as before. -/
theorem readByte_migrated (c : Cmd) (x : Nat) : Memory.readByte (c.migrated s).mem x =
    if c.par 0 8 ≤ x ∧ x < c.par 0 8 + 8 then (bytesLE 8 (s.loadLE (c.par 0 8) 8 + 1 - 32 - c.oldFrame s + c.par 8 8 / 256 * 256 % 2 ^ 48)).getD (x - c.par 0 8) 0#8
    else if c.par 8 8 ≤ x ∧ x < c.par 8 8 + c.pageSize then Memory.readByte s.mem (c.oldFrame s + (x - c.par 8 8)) else Memory.readByte s.mem x := by
  have copied := store_onlyBytes form mir cap (c.par 8 8) (s.load (c.oldFrame s) c.pageSize)
  rw [Cmd.migrated, State.storeLE, State.readByte_store_of_none_held (copied.inForm form) (copied.2.1.trans mir) (copied.bsn ▸ cap), length_bytesLE,
    State.readByte_store_of_none_held form mir cap]
  simp only [State.load, length_readBytes]
  split
  · rfl
  · split
    · exact getD_readBytes _ _ (by omega)
    · rfl

theorem loadLE_migrated (c : Cmd) (absent : s.loadLE (c.par 0 8) 8 % 2 = 0) :
    (c.migrated s).loadLE (c.par 0 8) 8 = s.loadLE (c.par 0 8) 8 + 1 - 32 - c.oldFrame s + c.par 8 8 / 256 * 256 % 2 ^ 48 := by
  have copied := store_onlyBytes form mir cap (c.par 8 8) (s.load (c.oldFrame s) c.pageSize)
  rw [Cmd.migrated, State.storeLE, State.loadLE, mem_store (copied.2.1.trans mir) (copied.bsn ▸ cap)]
  exact (readLE_writeLE (copied.inForm form).2 _ 8 _).trans (Nat.mod_eq_of_lt (migrated_lt _ (loadLE_lt s _) absent))

end Migrate

/-! ## INTERLEAVE -/

/-! ### Tables cut by their keys, and bytes put at new addresses -/

theorem tget_cons_ne {α : Type} {d : Nat → α} {i k : Nat} {r : Table α} (rising : above r i) (ne : i ≠ k) (v : α) : tget d ((i, v) :: r) k = tget d r k := by
  rw [tget, if_neg ne]
  split
  · exact (tget_above d r k fun e mem => Nat.lt_trans ‹k < i› (rising e mem)).symm
  · rfl

/-- A canonical table cut to the keys of a set. -/
theorem tget_filter {α : Type} {d : Nat → α} {l : Table α} (wf : twf d l) (P : Nat → Bool) (k : Nat) : tget d (l.filter (fun e => P e.1)) k = if P k then tget d l k else d k := by
  induction l with
  | nil => simp [tget]
  | cons e r ih =>
    obtain ⟨i, v⟩ := e
    obtain ⟨rising, -, rest⟩ := twf_cons.mp wf
    have cut : above (r.filter (fun e => P e.1)) i := fun e mem => rising e (List.mem_filter.mp mem).1
    by_cases eq : i = k
    · subst eq
      cases keep : P i with
      | true => simp [keep, tget]
      | false => simpa [keep] using tget_above d _ i cut
    · rw [tget_cons_ne rising eq, ← ih rest]
      cases keep : P i with
      | true => simp [keep, tget_cons_ne cut eq]
      | false => simp [keep]

/-- What a canonical table lists, it reads. -/
theorem tget_of_mem {α : Type} {d : Nat → α} {l : Table α} (wf : twf d l) {e : Nat × α} (mem : e ∈ l) : tget d l e.1 = e.2 := by
  induction l with
  | nil => simp at mem
  | cons x r ih =>
    obtain ⟨i, v⟩ := x
    obtain ⟨rising, -, rest⟩ := twf_cons.mp wf
    rcases List.mem_cons.mp mem with rfl | later
    · simp [tget]
    · have := rising e later
      rw [tget, if_neg (by omega), if_neg (by omega), ih rest later]

/-- What does not read as the default is listed. -/
theorem mem_of_tget_ne {α : Type} {d : Nat → α} {l : Table α} {k : Nat} (ne : tget d l k ≠ d k) : (k, tget d l k) ∈ l := by
  induction l with
  | nil => exact absurd rfl ne
  | cons x r ih =>
    obtain ⟨i, v⟩ := x
    by_cases eq : i = k
    · subst eq
      simp [tget]
    · by_cases lt : k < i
      · exact absurd (by simp [tget, eq, lt]) ne
      · simp only [tget, if_neg eq, if_neg lt] at ne ⊢
        exact List.mem_cons_of_mem _ (ih ne)

theorem readByte_foldl_writeByte_of_not_mem (l : List (Nat × Byte)) {m : Memory} (wf : Memory.wf m) {x : Nat} (away : ∀ e ∈ l, e.1 ≠ x) :
    Memory.readByte (l.foldl (fun m c => Memory.writeByte m c.1 c.2) m) x = Memory.readByte m x := by
  induction l generalizing m with
  | nil => rfl
  | cons e r ih =>
    rw [List.foldl_cons, ih (Memory.wf_writeByte _ _ wf) fun e' mem => away e' (List.mem_cons_of_mem _ mem), Memory.readByte_writeByte wf,
      if_neg (Ne.symm (away e List.mem_cons_self))]

/-- An address to which one byte is written, however often, reads that byte. -/
theorem readByte_foldl_writeByte_of_mem {l : List (Nat × Byte)} {m : Memory} (wf : Memory.wf m) {x : Nat} {b : Byte} (all : ∀ e ∈ l, e.1 = x → e.2 = b) (some_ : ∃ e ∈ l, e.1 = x) :
    Memory.readByte (l.foldl (fun m c => Memory.writeByte m c.1 c.2) m) x = b := by
  induction l generalizing m with
  | nil => simp at some_
  | cons e r ih =>
    by_cases later : ∃ e' ∈ r, e'.1 = x
    · exact ih (Memory.wf_writeByte _ _ wf) (fun e' mem => all e' (List.mem_cons_of_mem _ mem)) later
    · obtain ⟨e', mem, rfl⟩ := some_
      obtain rfl : e' = e := (List.mem_cons.mp mem).resolve_right fun here => later ⟨e', here, rfl⟩
      rw [List.foldl_cons, readByte_foldl_writeByte_of_not_mem r (Memory.wf_writeByte _ _ wf) (fun e'' mem'' eq => later ⟨e'', mem'', eq⟩), Memory.readByte_writeByte wf, if_pos rfl,
        all e' List.mem_cons_self rfl]

/-! ### Groups, places and addresses (R282 to R284)

Group `g` of dome `d` is the 8 GiB from (48 d + g) 2^33. -/

theorem inGroup_iff {d g a : Nat} : inGroup d g a = true ↔ a / 2 ^ 33 = 48 * d + g := by
  simp only [inGroup, natBle, natBlt, Bool.and_eq_true, decide_eq_true_eq]
  omega

/-- A place lies in the group of its address, on one of a dome's 128 channels. -/
theorem towerPlace_in_group (s : State) (a : Nat) : (s.towerPlace a).2.1 < 128 ∧ 48 * (s.towerPlace a).1 + (s.towerPlace a).2.2 / 131072 = a / 2 ^ 33 := by
  have dome : towerDome a = 0 ∨ towerDome a = 1 ∧ 0x006000000000 ≤ a := by
    unfold towerDome
    split
    · exact .inl rfl
    · exact .inr ⟨rfl, by omega⟩
  unfold State.towerPlace
  extract_lets d o r b e
  have place : 48 * d + r / 8 = a / 2 ^ 33 := by rcases dome with zero | ⟨one, high⟩ <;> simp only [r, o, d, *] <;> omega
  have barge : b < 2 ^ 21 := Nat.mod_lt _ (by decide)
  split
  · exact ⟨by simp only; omega, by simp only; omega⟩
  · exact ⟨by simp only; omega, by simp only; omega⟩

/-- The address of a place on one of the 128 channels lies in its group, whatever the entries are. -/
theorem towerAddr_in_group (s : State) {d ch c o : Nat} (channel : ch < 128) (lt : o < 512) : (s.towerAddr d ch c + o) / 2 ^ 33 = 48 * d + c / 131072 := by
  unfold State.towerAddr
  extract_lets grp j
  split
  · have region : j < 8 := by
      cases found : (List.range 8).find? (fun j => s.ilEntry d (8 * grp + j) % 8 == ch / 16) with
      | none => simp [j, found]
      | some i => simpa [j, found] using List.mem_of_find?_eq_some found
    omega
  · omega

/-- The entries of a group are a set that R284 allows: all of mode DOME, or all of mode REACH with each of the eight reaches a target. -/
def State.ilLegal (s : State) (d g : Nat) : Prop :=
  (∀ k, k < 8 → s.ilEntry d (8 * g + k) / 64 ≠ 1) ∨ (∀ k, k < 8 → s.ilEntry d (8 * g + k) / 64 = 1) ∧ ∀ q, q < 8 → ∃ k, k < 8 ∧ s.ilEntry d (8 * g + k) % 8 = q

theorem ilLegal_of_ilSetOk {d g : Nat} (ok : ilSetOk ((List.range 8).map (fun k => s.ilEntry d (8 * g + k))) = true) : s.ilLegal d g := by
  simp only [ilSetOk, Bool.or_eq_true, Bool.and_eq_true, List.all_eq_true, List.mem_map, List.mem_range, forall_exists_index, and_imp, forall_apply_eq_imp_iff₂, beq_iff_eq, natBle, natBlt,
    decide_eq_true_eq, List.contains_iff_mem] at ok
  rcases ok with zero | ⟨reach, targets⟩
  · exact .inl fun k lt => by rw [zero k lt]; decide
  · refine .inr ⟨fun k lt => ?_, fun q lt => ?_⟩
    · have := reach k lt
      omega
    · obtain ⟨k, lt', e⟩ := targets q lt
      exact ⟨k, lt', by omega⟩

/-- Each reach is the target of one entry. -/
theorem reach_target_unique {f : Nat → Nat} (targets : ∀ q, q < 8 → ∃ k, k < 8 ∧ f k % 8 = q) {i j : Nat} (hi : i < 8) (hj : j < 8) (same : f i % 8 = f j % 8) : i = j := by
  refine Decidable.byContradiction fun ne => ?_
  have onto : List.range 8 ⊆ ((List.range 8).erase i).map (fun k => f k % 8) := fun q here => by
    obtain ⟨k, lt, e⟩ := targets q (List.mem_range.mp here)
    by_cases eq : k = i
    · exact List.mem_map.mpr ⟨j, (List.mem_erase_of_ne (Ne.symm ne)).mpr (List.mem_range.mpr hj), by rw [← same, ← eq, e]⟩
    · exact List.mem_map.mpr ⟨k, (List.mem_erase_of_ne eq).mpr (List.mem_range.mpr lt), e⟩
  have fits := List.nodup_range.length_le_of_subset onto
  rw [List.length_map, List.length_erase_of_mem (List.mem_range.mpr hi), List.length_range] at fits
  omega

/-- The place of barge `b` of region `r` of a dome (R282, R283). -/
theorem towerPlace_of_region (s : State) {d r b o : Nat} (dome : d < 2) (region : r < 384) (barge : b < 2 ^ 21) (byte : o < 512) :
    s.towerPlace (d * 0x006000000000 + r * 2 ^ 30 + b * 512 + o) =
      if s.ilEntry d r / 64 = 1 then (d, 16 * (s.ilEntry d r % 8) + b % 16, 131072 * (r / 8) + b / 16) else (d, b % 128, 16384 * r + b / 128) := by
  have hd : towerDome (d * 0x006000000000 + r * 2 ^ 30 + b * 512 + o) = d := by
    unfold towerDome
    split <;> omega
  have hr : (d * 0x006000000000 + r * 2 ^ 30 + b * 512 + o - d * 0x006000000000) / 2 ^ 30 = r := by omega
  have hb : (d * 0x006000000000 + r * 2 ^ 30 + b * 512 + o - d * 0x006000000000) / 512 % 2 ^ 21 = b := by omega
  simp only [State.towerPlace, hd, hr, hb]

theorem towerAddr_of_dome {d ch c : Nat} (mode : s.ilEntry d (8 * (c / 131072)) / 64 ≠ 1) : s.towerAddr d ch c = d * 0x006000000000 + c / 16384 * 2 ^ 30 + (c % 16384 * 128 + ch) * 512 :=
  if_neg mode

theorem towerAddr_of_reach {d ch c j : Nat} (mode : s.ilEntry d (8 * (c / 131072)) / 64 = 1) (targets : ∀ q, q < 8 → ∃ k, k < 8 ∧ s.ilEntry d (8 * (c / 131072) + k) % 8 = q)
    (lt : j < 8) (target : s.ilEntry d (8 * (c / 131072) + j) % 8 = ch / 16) :
    s.towerAddr d ch c = d * 0x006000000000 + (8 * (c / 131072) + j) * 2 ^ 30 + (c % 131072 * 16 + ch % 16) * 512 := by
  have found : (List.range 8).find? (fun j => s.ilEntry d (8 * (c / 131072) + j) % 8 == ch / 16) = some j := by
    cases e : (List.range 8).find? (fun j => s.ilEntry d (8 * (c / 131072) + j) % 8 == ch / 16) with
    | none => exact absurd target (by simpa using List.find?_eq_none.mp e j (List.mem_range.mpr lt))
    | some i =>
      have same : s.ilEntry d (8 * (c / 131072) + i) % 8 = ch / 16 := by simpa using List.find?_some e
      exact congrArg some (reach_target_unique (f := fun k => s.ilEntry d (8 * (c / 131072) + k)) targets (List.mem_range.mp (List.mem_of_find?_eq_some e)) lt (same.trans target.symm))
  refine (if_pos mode).trans ?_
  rw [found]
  rfl

section RoundTrips
variable {d g : Nat} (dome : d < 2) (group : g < 48) (legal : s.ilLegal d g)
include dome group legal

/-- In a group whose entries are legal, the address of an address's place is that address (R282, R283). -/
theorem towerAddr_towerPlace {a : Nat} (in_ : a / 2 ^ 33 = 48 * d + g) :
    (s.towerPlace a).1 = d ∧ s.towerAddr d (s.towerPlace a).2.1 (s.towerPlace a).2.2 + a % 512 = a := by
  obtain ⟨k, b, o, hk, hb, ho, rfl⟩ : ∃ k b o, k < 8 ∧ b < 2 ^ 21 ∧ o < 512 ∧ a = d * 0x006000000000 + (8 * g + k) * 2 ^ 30 + b * 512 + o :=
    ⟨a % 2 ^ 33 / 2 ^ 30, a % 2 ^ 30 / 512, a % 512, by omega, by omega, by omega, by omega⟩
  rw [towerPlace_of_region s dome (by omega) hb ho]
  rcases legal with domes | ⟨reaches, targets⟩
  · have grp : (16384 * (8 * g + k) + b / 128) / 131072 = g := by omega
    rw [if_neg (domes k hk)]
    dsimp only
    refine ⟨rfl, ?_⟩
    rw [towerAddr_of_dome (by rw [grp]; exact domes 0 (by decide))]
    omega
  · have grp : (131072 * ((8 * g + k) / 8) + b / 16) / 131072 = g := by omega
    rw [if_pos (reaches k hk)]
    dsimp only
    refine ⟨rfl, ?_⟩
    rw [towerAddr_of_reach (j := k) (by rw [grp]; exact reaches 0 (by decide)) (by rw [grp]; exact targets) hk (by rw [grp]; omega), grp]
    omega

/-- In a group whose entries are legal, the place of a place's address is that place (R282, R283). -/
theorem towerPlace_towerAddr {ch c o : Nat} (channel : ch < 128) (in_ : c / 131072 = g) (byte : o < 512) : s.towerPlace (s.towerAddr d ch c + o) = (d, ch, c) := by
  rcases legal with domes | ⟨reaches, targets⟩
  · have region : c / 16384 = 8 * g + c / 16384 % 8 := by omega
    rw [towerAddr_of_dome (by rw [in_]; exact domes 0 (by decide)), towerPlace_of_region s dome (by omega) (by omega) byte, if_neg (by rw [region]; exact domes _ (by omega))]
    congr 2 <;> omega
  · obtain ⟨j, hj, target⟩ := targets (ch / 16) (by omega)
    rw [towerAddr_of_reach (j := j) (by rw [in_]; exact reaches 0 (by decide)) (by rw [in_]; exact targets) hj (by rw [in_]; exact target), in_,
      towerPlace_of_region s dome (by omega) (by omega) byte, if_pos (reaches j hj), target]
    congr 2 <;> omega

end RoundTrips

/-! ### The bytes of a group after INTERLEAVE -/

/-- Where `t` finds the byte that `s` keeps at an address: in the same place (R287). -/
def State.relocated (s t : State) (a : Nat) : Nat := t.towerAddr (s.towerPlace a).1 (s.towerPlace a).2.1 (s.towerPlace a).2.2 + a % 512

theorem relocated_in_group (s t : State) (a : Nat) : s.relocated t a / 2 ^ 33 = a / 2 ^ 33 := by
  obtain ⟨channel, place⟩ := towerPlace_in_group s a
  exact (towerAddr_in_group t channel (Nat.mod_lt _ (by decide))).trans place

theorem towerAddr_mod (s : State) (d ch c : Nat) : s.towerAddr d ch c % 512 = 0 := by
  unfold State.towerAddr
  extract_lets grp j
  split <;> omega

/-- Between two legal sets, an address goes there and back. -/
theorem relocated_relocated {d g a : Nat} (dome : d < 2) (group : g < 48) (old : s.ilLegal d g) (new : t.ilLegal d g) (in_ : a / 2 ^ 33 = 48 * d + g) : t.relocated s (s.relocated t a) = a := by
  obtain ⟨channel, place⟩ := towerPlace_in_group s a
  obtain ⟨at_, back⟩ := towerAddr_towerPlace dome group old in_
  have moved : s.relocated t a = t.towerAddr d (s.towerPlace a).2.1 (s.towerPlace a).2.2 + a % 512 := by rw [State.relocated, at_]
  generalize s.towerPlace a = p at at_ back channel place moved
  obtain ⟨d', ch, c⟩ := p
  dsimp only at at_ back channel place moved
  subst at_
  have byte := towerAddr_mod t d' ch c
  rw [State.relocated, moved, towerPlace_towerAddr dome group new channel (by omega) (Nat.mod_lt _ (by decide))]
  dsimp only
  omega

/-- Memory with the bytes of a group moved: each byte of the group that memory lists goes where `f` sends it. -/
def movedGroup (m : Memory) (d g : Nat) (f : Nat → Nat) : Memory :=
  ((m.filter (fun e => inGroup d g e.1)).map (fun e => (f e.1, e.2))).foldl (fun m e => Memory.writeByte m e.1 e.2) (m.filter (fun e => !inGroup d g e.1))

section Moved
variable {m : Memory} (wf : Memory.wf m) {d g : Nat} {f : Nat → Nat} (stays : ∀ a, inGroup d g a = true → inGroup d g (f a) = true)
include wf

include stays in
/-- Outside the group every byte stays. -/
theorem readByte_movedGroup_of_outside {x : Nat} (out : inGroup d g x = false) : Memory.readByte (movedGroup m d g f) x = Memory.readByte m x := by
  rw [movedGroup, readByte_foldl_writeByte_of_not_mem _ (Memory.wf_filter _ wf) fun e mem eq => ?_]
  · exact (tget_filter wf (fun a => !inGroup d g a) x).trans (if_pos (by rw [out]; rfl))
  · obtain ⟨e', mem', rfl⟩ := List.mem_map.mp mem
    have inside : inGroup d g x = true := eq ▸ stays e'.1 (List.mem_filter.mp mem').2
    exact absurd (out.symm.trans inside) (by decide)

/-- In the group, where the move has an inverse, a byte is the one from before at the address it came from. -/
theorem readByte_movedGroup_of_inside {f' : Nat → Nat} (left : ∀ a, inGroup d g a = true → f' (f a) = a) (right : ∀ x, inGroup d g x = true → f (f' x) = x ∧ inGroup d g (f' x) = true)
    {x : Nat} (in_ : inGroup d g x = true) : Memory.readByte (movedGroup m d g f) x = Memory.readByte m (f' x) := by
  have from_ : ∀ e ∈ (m.filter (fun e => inGroup d g e.1)).map (fun e => (f e.1, e.2)), e.1 = x → e.2 = Memory.readByte m (f' x) := by
    rintro _ mem rfl
    obtain ⟨e, mem', rfl⟩ := List.mem_map.mp mem
    obtain ⟨here, inside⟩ := List.mem_filter.mp mem'
    rw [left e.1 inside]
    exact (tget_of_mem wf here).symm
  by_cases listed : ∃ e ∈ (m.filter (fun e => inGroup d g e.1)).map (fun e => (f e.1, e.2)), e.1 = x
  · exact readByte_foldl_writeByte_of_mem (Memory.wf_filter _ wf) from_ listed
  · have unlisted : Memory.readByte m (f' x) = 0#8 := by
      refine Decidable.byContradiction fun ne => ?_
      obtain ⟨back, inside⟩ := right x in_
      exact listed ⟨_, List.mem_map.mpr ⟨_, List.mem_filter.mpr ⟨mem_of_tget_ne (d := memDefault) ne, inside⟩, rfl⟩, back⟩
    rw [movedGroup, readByte_foldl_writeByte_of_not_mem _ (Memory.wf_filter _ wf) fun e mem eq => listed ⟨e, mem, eq⟩, unlisted]
    exact (tget_filter wf (fun a => !inGroup d g a) x).trans (if_neg (by simp [in_]))

end Moved

/-! ### The command -/

theorem cmdInterleave_of_illegal (bad : ilSetOk c.ilEntries = false) : cmdInterleave c s = (.refuse .badParam 8, s) := if_pos bad

theorem cmdInterleave_of_shadow (ok : ilSetOk c.ilEntries = true) (spec : s.specOn = true) (shadow : c.par 1 1 = 47) : cmdInterleave c s = (.refuse .badState 1, s) := by
  simp only [cmdInterleave, ok, spec, shadow]
  rfl

section Allowed
variable (ok : ilSetOk c.ilEntries = true) (open_ : ¬(s.specOn = true ∧ c.par 1 1 = 47))
include ok open_

theorem cmdInterleave_of_busy (busy : s.tasks ≠ [] ∨ s.epState 0 ≠ 0 ∨ s.epState 1 ≠ 0) : ∃ e, cmdInterleave c s = (.wait .waitIdle e, s) := by
  have waits : (s.tasks.isEmpty && s.epState 0 == 0 && s.epState 1 == 0) = false := by
    simp only [Bool.and_eq_false_iff, List.isEmpty_eq_false_iff, beq_eq_false_iff_ne, ne_eq]
    exact or_assoc.mpr busy
  unfold cmdInterleave
  extract_lets d g
  rw [if_neg (by simp [ok]), if_neg (by simpa using open_), if_pos waits]
  exact ⟨_, rfl⟩

/-- Every L1 is empty (R286). -/
def State.emptyL1 (s : State) : State := { s with spires := s.spires.map (fun (p : Nat × Spire) => (p.1, { p.2 with mover := { p.2.mover with l1 := [] } })) }

theorem cmdInterleave_of_idle (tasks : s.tasks = []) (slot0 : s.epState 0 = 0) (slot1 : s.epState 1 = 0) (work : ¬(c.par 0 1 = 0 ∧ c.par 1 1 = 46)) :
    cmdInterleave c s = (.done .ok [], s.emptyL1.setInterleave (c.par 0 1) (c.par 1 1) (BitVec.ofNat 64 (c.par 8 8))) := by
  unfold cmdInterleave
  extract_lets d g u v
  rw [if_neg (by simp [ok]), if_neg (by simpa using open_), if_neg (by simp [tasks, slot0, slot1]), if_neg work]
  rfl

end Allowed

theorem l1_emptyL1 (s : State) (site : Nat) : (s.emptyL1.spire site).mover.l1 = [] := by
  rw [State.emptyL1, spire_map (fun p => { p with mover := { p.mover with l1 := [] } }) rfl]

theorem towerAddr_of_regs (regs : t.regs = s.regs) : t.towerAddr = s.towerAddr := by
  funext d ch c
  unfold State.towerAddr
  rw [ilEntry_of_regs regs]

theorem relocated_of_regs {s' t' : State} (regs : s'.regs = s.regs) (regs' : t'.regs = t.regs) : s'.relocated t' = s.relocated t := by
  funext a
  unfold State.relocated
  rw [towerPlace_of_regs regs, towerAddr_of_regs regs']

theorem ilLegal_of_regs (regs : t.regs = s.regs) {d g : Nat} (legal : s.ilLegal d g) : t.ilLegal d g := by
  unfold State.ilLegal
  rwa [ilEntry_of_regs regs]

theorem mem_setInterleave (s : State) (d g : Nat) (es : Word) :
    (s.setInterleave d g es).mem = movedGroup s.mem d g (s.relocated (s.setReg (R.TWR_IL (48 * d + g)) es)) := rfl

theorem relocated_setInterleave (s : State) (d g : Nat) (es : Word) : s.relocated (s.setReg (R.TWR_IL (48 * d + g)) es) = s.relocated (s.setInterleave d g es) :=
  relocated_of_regs rfl rfl

section Set
variable (form : InForm s) {d g : Nat} (es : Word)
include form

theorem readByte_setInterleave_of_outside {x : Nat} (out : inGroup d g x = false) : Memory.readByte (s.setInterleave d g es).mem x = Memory.readByte s.mem x := by
  rw [mem_setInterleave]
  refine readByte_movedGroup_of_outside form.2 (fun a in_ => ?_) out
  rw [inGroup_iff] at in_ ⊢
  rw [relocated_in_group, in_]

/-- Between two legal sets, an address of the group reads what was in its new place (R287). -/
theorem readByte_setInterleave_of_inside (dome : d < 2) (group : g < 48) (old : s.ilLegal d g) (new : (s.setInterleave d g es).ilLegal d g) {x : Nat} (in_ : inGroup d g x = true) :
    Memory.readByte (s.setInterleave d g es).mem x = Memory.readByte s.mem ((s.setInterleave d g es).relocated s x) := by
  rw [mem_setInterleave, relocated_setInterleave]
  refine readByte_movedGroup_of_inside form.2 (fun a here => ?_) (fun y here => ⟨?_, ?_⟩) in_
  · exact relocated_relocated dome group old new (inGroup_iff.mp here)
  · exact relocated_relocated dome group new old (inGroup_iff.mp here)
  · rw [inGroup_iff, relocated_in_group, inGroup_iff.mp here]

end Set

/-- The entries of the group that INTERLEAVE writes, as they stand in the register (R315). -/
theorem ilEntry_setReg (form : InForm s) {d g k : Nat} (lt : k < 8) (es : Word) : (s.setReg (R.TWR_IL (48 * d + g)) es).ilEntry d (8 * g + k) = es.toNat / 2 ^ (8 * k) % 256 := by
  have index : (384 * d + (8 * g + k)) / 8 = 48 * d + g := by omega
  have place : (8 * g + k) % 8 = k := by omega
  rw [State.ilEntry, index, place, State.reg_setReg_same form]

/-- Byte `k` of eight parameter bytes (R470). -/
theorem par_byte (c : Cmd) {k : Nat} (lt : k < 8) : c.par 8 8 / 2 ^ (8 * k) % 2 ^ 8 = c.par (8 + k) 1 := by
  refine Nat.eq_of_testBit_eq fun i => ?_
  simp only [Cmd.par, parAt, pktAt, Nat.testBit_mod_two_pow, Nat.testBit_div_two_pow]
  by_cases low : i < 8
  · have inWord : i + 8 * k < 64 := by omega
    have bit : i + 8 * k + 8 * (64 + 8) = i + 8 * (64 + (8 + k)) := by omega
    simp [low, inWord, bit]
  · simp [low]

/-- The set that INTERLEAVE asks for is the one its group then has. -/
theorem ilLegal_setInterleave (form : InForm s) {d g : Nat} (ok : ilSetOk c.ilEntries = true) : (s.setInterleave d g (BitVec.ofNat 64 (c.par 8 8))).ilLegal d g := by
  refine ilLegal_of_ilSetOk ?_
  have entries : (List.range 8).map (fun k => (s.setInterleave d g (BitVec.ofNat 64 (c.par 8 8))).ilEntry d (8 * g + k)) = c.ilEntries := by
    refine List.map_congr_left fun k mem => ?_
    have word : (BitVec.ofNat 64 (c.par 8 8)).toNat = c.par 8 8 := Nat.mod_eq_of_lt (Nat.mod_lt _ (Nat.two_pow_pos _))
    exact (ilEntry_setReg form (List.mem_range.mp mem) _).trans (by rw [word]; exact par_byte c (List.mem_range.mp mem))
  rwa [entries]

/-! ## RETIRE and RETIRE_CLEAR -/

theorem mem_retireEntries {k w : Nat} : (k, w) ∈ s.retireEntries ↔ ∃ p ∈ s.regs, (R.TWR_RETIRE 0 ≤ p.1 ∧ p.1 < R.TWR_RETIRE 512) ∧ (p.1 - R.TWR_RETIRE 0) / 8 = k ∧ p.2.toNat = w := by
  simp [State.retireEntries, and_assoc]

theorem showRetired_eq (s : State) : ∃ v, s.showRetired = s.setReg R.TWR_RETIRE_USED v := ⟨_, rfl⟩

theorem retire_ne_used {k : Nat} (lt : k < 512) : R.TWR_RETIRE k ≠ R.TWR_RETIRE_USED := by
  simp only [R.TWR_RETIRE, R.TWR_RETIRE_USED]
  omega

theorem retire_listed {k : Nat} : s.retireEntries.any (fun e => e.1 == k) = true ↔ ∃ x, (k, x) ∈ s.retireEntries := by
  simp only [List.any_eq_true, Prod.exists, beq_iff_eq]
  exact ⟨fun ⟨_, x, here, same⟩ => ⟨x, same ▸ here⟩, fun ⟨x, here⟩ => ⟨k, x, here, rfl⟩⟩

/-- Entry `k` of the retirement table written, with its copy for Basin (R302). -/
def State.withRetired (s : State) (k : Nat) (w : Word) : State :=
  let u := (s.setReg (R.TWR_RETIRE k) w).showRetired
  { u with bsn := { u.bsn with retireCopy := tinsert u.bsn.retireCopy k w } }

theorem cmdRetire_of_malformed (bad : s.retireOk (c.par 0 8) = false) : cmdRetire c s = (.refuse .badParam 0, s) := if_pos bad

section WellFormed
variable (ok : s.retireOk (c.par 0 8) = true)
include ok

theorem cmdRetire_of_duplicate (twice : ∃ k, (k, c.par 0 8) ∈ s.retireEntries) : cmdRetire c s = (.refuse .retireDuplicate 0, s) := by
  obtain ⟨k, here⟩ := twice
  have listed : s.retireEntries.any (fun e => e.2 == c.par 0 8) = true := List.any_eq_true.mpr ⟨_, here, by simp⟩
  unfold cmdRetire
  extract_lets w es
  rw [if_neg (by simp [w, ok]), if_pos listed]

omit ok
variable (fresh : ¬∃ k, (k, c.par 0 8) ∈ s.retireEntries)
include fresh

theorem retire_unlisted : ¬s.retireEntries.any (fun e => e.2 == c.par 0 8) = true := by
  rw [List.any_eq_true]
  rintro ⟨⟨k, w⟩, here, same⟩
  obtain rfl : w = c.par 0 8 := beq_iff_eq.mp same
  exact fresh ⟨k, here⟩

include ok

theorem cmdRetire_of_full (full : ∀ k, k < 512 → ∃ x, (k, x) ∈ s.retireEntries) : cmdRetire c s = (.refuse .retireFull 0, s) := by
  have none_ : (List.range 512).find? (fun k => !s.retireEntries.any (fun e => e.1 == k)) = none := by
    refine List.find?_eq_none.mpr fun k lt => ?_
    rw [retire_listed.mpr (full k (List.mem_range.mp lt))]
    decide
  unfold cmdRetire
  extract_lets w es
  rw [if_neg (by simp [w, ok]), if_neg (retire_unlisted fresh), none_]

theorem cmdRetire_of_free {k : Nat} (lt : k < 512) (free : ¬∃ x, (k, x) ∈ s.retireEntries) (lower : ∀ j, j < k → ∃ x, (j, x) ∈ s.retireEntries) :
    cmdRetire c s = (.done .ok [k], s.withRetired k (BitVec.ofNat 64 (c.par 0 8))) := by
  have found : (List.range 512).find? (fun k => !s.retireEntries.any (fun e => e.1 == k)) = some k := by
    refine List.find?_range_eq_some.mpr ⟨?_, List.mem_range.mpr lt, fun j below => ?_⟩
    · rw [Bool.eq_false_iff.mpr (mt retire_listed.mp free)]
      rfl
    · rw [retire_listed.mpr (lower j below)]
      rfl
  unfold cmdRetire
  extract_lets w es
  rw [if_neg (by simp [w, ok]), if_neg (retire_unlisted fresh), found]
  rfl

end WellFormed

/-- The retirement table starts empty: no row over its offsets has a value at reset (R316). -/
theorem regRows_of_retirement : ∀ b ∈ regBlocks, ∀ r ∈ b.2.2, r.resetValue = 0 ∨ r.base + r.bstride * r.bcount + r.stride * r.count < R.TWR_RETIRE 0 ∨ R.TWR_RETIRE 512 ≤ r.base := by
  decide +kernel

/-- A row covers offsets of its span alone. -/
theorem RegRow.covers_span {r : RegRow} {off : Nat} (covers : r.covers off = true) : r.base ≤ off ∧ off ≤ r.base + r.bstride * r.bcount + r.stride * r.count := by
  simp only [RegRow.covers, Bool.and_eq_true, decide_eq_true_eq] at covers
  generalize (if r.bstride = 0 then 0 else (off - r.base) / r.bstride) = i at covers
  obtain ⟨low, bank, at_⟩ := covers
  have banks : i * r.bstride ≤ r.bstride * r.bcount := by
    rw [Nat.mul_comm]
    exact Nat.mul_le_mul_left _ (Nat.le_of_lt bank)
  have inBank : off - r.base - i * r.bstride ≤ r.stride * r.count := by
    split at at_
    · simp only [beq_iff_eq] at at_
      omega
    · simp only [Bool.and_eq_true, beq_iff_eq, decide_eq_true_eq] at at_
      calc _ = r.stride * ((off - r.base - i * r.bstride) / r.stride) := (Nat.mul_div_cancel' (Nat.dvd_of_mod_eq_zero at_.1)).symm
        _ ≤ r.stride * r.count := Nat.mul_le_mul_left _ (Nat.le_of_lt at_.2)
  exact ⟨low, by omega⟩

theorem regReset_retire {off : Nat} (low : R.TWR_RETIRE 0 ≤ off) (high : off < R.TWR_RETIRE 512) : regReset off = 0 := by
  unfold regReset regAt
  split
  next r found =>
    split at found
    next b block =>
      obtain ⟨at_, upTo⟩ := RegRow.covers_span (r := r) (off := off) (by simpa using List.find?_some found)
      have := regRows_of_retirement b (List.mem_of_find?_eq_some block) r (List.mem_of_find?_eq_some found)
      exact this.resolve_right (by omega)
    next => exact absurd found (by simp)
  next => rfl

/-! ### RETIRE's registers -/

theorem reg_withRetired (s : State) (k : Nat) (w : Word) : (s.withRetired k w).reg = (s.setReg (R.TWR_RETIRE k) w).showRetired.reg := by
  refine reg_of_regs ?_
  unfold State.withRetired
  extract_lets u
  rfl

section Registers
variable (form : InForm s)
include form

theorem reg_showRetired {o : Nat} (other : o ≠ R.TWR_RETIRE_USED) : s.showRetired.reg o = s.reg o := by
  obtain ⟨v, e⟩ := showRetired_eq s
  rw [e, State.reg_setReg_ne form v other]

theorem reg_withRetired_same {k : Nat} (lt : k < 512) (w : Word) : (s.withRetired k w).reg (R.TWR_RETIRE k) = w := by
  rw [reg_withRetired, reg_showRetired (State.inv_setReg form _ w) (retire_ne_used lt), State.reg_setReg_same form]

theorem reg_withRetired_ne {k o : Nat} (w : Word) (other : o ≠ R.TWR_RETIRE k) (used : o ≠ R.TWR_RETIRE_USED) : (s.withRetired k w).reg o = s.reg o := by
  rw [reg_withRetired, reg_showRetired (State.inv_setReg form _ w) used, State.reg_setReg_ne form w other]

/-- The table's entries lie in the registers that do not read 0. -/
theorem retireEntries_eq_nil (cleared : ∀ o, R.TWR_RETIRE 0 ≤ o → o < R.TWR_RETIRE 512 → s.reg o = 0) : s.retireEntries = [] := by
  refine List.eq_nil_iff_forall_not_mem.mpr fun ⟨k, w⟩ here => ?_
  obtain ⟨p, mem, ⟨low, high⟩, -, -⟩ := mem_retireEntries.mp here
  refine form.1.2 p mem ?_
  rw [regReset_retire low high, ← cleared p.1 low high]
  exact (tget_of_mem form.1 mem).symm

end Registers

theorem mem_showRetired (s : State) : s.showRetired.mem = s.mem := rfl
theorem hcp_showRetired (s : State) : s.showRetired.hcp = s.hcp := rfl
theorem mem_withRetired (s : State) (k : Nat) (w : Word) : (s.withRetired k w).mem = s.mem := rfl

/-! ## RETIRE_CLEAR -/

/-- The registers that RETIRE_CLEAR of entry `k` clears: that of the entry, or, for 0xFFFF, all of the table (R302, R484). -/
def clearsRetired (k o : Nat) : Bool := if k = 0xFFFF then Nat.ble (R.TWR_RETIRE 0) o && Nat.blt o (R.TWR_RETIRE 512) else o == R.TWR_RETIRE k

/-- The table without what RETIRE_CLEAR of entry `k` clears, and with it Basin's copy (R302). -/
def State.clearRetired (s : State) (k : Nat) : State :=
  { s with regs := s.regs.filter (fun p => !clearsRetired k p.1), bsn := { s.bsn with retireCopy := if k = 0xFFFF then [] else terase s.bsn.retireCopy k } }

theorem cmdRetireClear_eq (c : Cmd) (s : State) : cmdRetireClear c s = (.done .ok [], (s.clearRetired (c.par 0 2)).showRetired) := rfl

theorem clearsRetired_all {o : Nat} : clearsRetired 0xFFFF o = true ↔ R.TWR_RETIRE 0 ≤ o ∧ o < R.TWR_RETIRE 512 := by
  simp [clearsRetired]

theorem clearsRetired_one {k o : Nat} (lt : k < 512) : clearsRetired k o = true ↔ o = R.TWR_RETIRE k := by
  have one : k ≠ 0xFFFF := by omega
  simp [clearsRetired, one]

section Clear
variable (form : InForm s)
include form

theorem inForm_clearRetired (k : Nat) : InForm (s.clearRetired k) := ⟨twf_filter _ form.1, form.2⟩

theorem reg_clearRetired (k o : Nat) : (s.clearRetired k).reg o = if clearsRetired k o then regReset o else s.reg o := by
  refine (tget_filter form.1 (fun o => !clearsRetired k o) o).trans ?_
  cases clearsRetired k o with
  | true => rfl
  | false => rfl

theorem reg_retireClear_one {k o : Nat} (lt : k < 512) (used : o ≠ R.TWR_RETIRE_USED) : (s.clearRetired k).showRetired.reg o = if o = R.TWR_RETIRE k then 0 else s.reg o := by
  rw [reg_showRetired (inForm_clearRetired form k) used, reg_clearRetired form]
  by_cases entry : o = R.TWR_RETIRE k
  · rw [if_pos ((clearsRetired_one lt).mpr entry), if_pos entry]
    exact regReset_retire (by simp only [entry, R.TWR_RETIRE]; omega) (by simp only [entry, R.TWR_RETIRE]; omega)
  · rw [if_neg (mt (clearsRetired_one lt).mp entry), if_neg entry]

theorem reg_retireClear_all {o : Nat} (used : o ≠ R.TWR_RETIRE_USED) : (s.clearRetired 0xFFFF).showRetired.reg o = if R.TWR_RETIRE 0 ≤ o ∧ o < R.TWR_RETIRE 512 then 0 else s.reg o := by
  rw [reg_showRetired (inForm_clearRetired form 0xFFFF) used, reg_clearRetired form]
  by_cases table : R.TWR_RETIRE 0 ≤ o ∧ o < R.TWR_RETIRE 512
  · rw [if_pos (clearsRetired_all.mpr table), if_pos table, regReset_retire table.1 table.2]
  · rw [if_neg (mt clearsRetired_all.mp table), if_neg table]

theorem retireEntries_retireClear_all : (s.clearRetired 0xFFFF).showRetired.retireEntries = [] :=
  retireEntries_eq_nil (State.inv_setFld (inForm_clearRetired form _) _ _ _) fun o low high =>
    (reg_retireClear_all form (by simp only [R.TWR_RETIRE, R.TWR_RETIRE_USED] at high ⊢; omega)).trans (if_pos ⟨low, high⟩)

end Clear

/-! ## The commands as they end -/

theorem exec_copy_of_awake (h : Starts s id 0x0201 c) (awake : (s.quiescent && (touchesSite (c.par 0 8) || touchesSite (c.par 8 8))) = false) {n : Nat} {ok : Bool} {u : State}
    (x : copyBarges (c.par 16 8 / 512) (c.par 0 8) (c.par 8 8) 0 s = (n, ok, u)) : exec (.copy id) s = .next (u.finishCmd id (if ok then .ok else .copyAddress) [n]) := by
  have ends := cmdCopy_of_awake awake
  rw [x] at ends
  exact congrArg Host.Outcome.next (attempt_done h ends)

theorem exec_fill_of_awake (h : Starts s id 0x0202 c) (awake : (s.quiescent && touchesSite (c.par 0 8)) = false) {n : Nat} {ok : Bool} {u : State}
    (x : fillBarges (c.par 8 8 / 512) (c.par 0 8) ((List.range 64).flatMap (fun _ => bytesLE 8 (c.par 16 8))) 0 s = (n, ok, u)) :
    exec (.fill id) s = .next (u.finishCmd id (if ok then .ok else .copyAddress) [n]) := by
  have ends := cmdFill_of_awake awake
  rw [x] at ends
  exact congrArg Host.Outcome.next (attempt_done h ends)

/-- A calm PAGE_MIGRATE changes bytes, cached translations and graphs (R262). -/
theorem cmdPageMigrate_of_calm (form : InForm s) (mir : s.mirror.c = []) (cap : s.bsn.capture = none) (absent : s.loadLE (c.par 0 8) 8 % 2 = 0) (migr : s.loadLE (c.par 0 8) 8 / 32 % 2 = 1)
    (faults : s.translationSites (fun _ m => m) = []) (colls : s.migrColls = []) : ∃ sp g, cmdPageMigrate c s = (.done .ok [], { c.migrated s with spires := sp, graphs := g }) := by
  have bytes := migrated_onlyBytes form mir cap c
  have spires : (c.migrated s).spires = s.spires := by
    have same := congrArg State.spires bytes.2.2
    exact same
  have coll : (c.migrated s).coll = s.coll := by
    have same := congrArg State.coll bytes.2.2
    exact same
  have faults' : (c.migrated s).translationSites (fun _ m => m) = [] := by
    unfold State.translationSites at faults ⊢
    rwa [spires]
  have colls' : (c.migrated s).migrColls = [] := by
    unfold State.migrColls at colls ⊢
    rwa [coll]
  obtain ⟨g, e⟩ := resumeMigrated_of_none_waiting (s := (c.migrated s).dropFrame (c.oldFrame s) c.pageSize) (translationSites_dropFrame faults' _ _) colls'
  rw [cmdPageMigrate_of_absent absent migr, e]
  exact ⟨_, g, rfl⟩

/-- Settles O43: each command by what its start answers; the moves of COPY, FILL and PAGE_MIGRATE by the bytes they change alone, INTERLEAVE by the inverse of its move, the retirement
commands by their table. -/
theorem memoryCommands : Obligations.MemoryCommands := by
  unfold Obligations.MemoryCommands
  intro s id c form calm n
  refine ⟨?copyWaits, ?copyEnds, ?copyMoves, ?copyCalm, ?fillWaits, ?fillEnds, ?fillMoves, ?fillCalm, ?invalidate, ?invalidated, ?resolve, ?migrate, ?interleave, ?retire, ?retireClear⟩
  case copyWaits => exact fun h quiet => congrArg Host.Outcome.next (attempt_wait h (cmdCopy_of_quiescent quiet))
  case copyEnds => exact fun h awake => exec_copy_of_awake h awake rfl
  case copyMoves => exact fun k src dst m good free => copyBarges_succ good free k m
  case copyCalm =>
    rintro h ⟨mir, cap, quiet⟩
    have awake : (s.quiescent && (touchesSite (c.par 0 8) || touchesSite (c.par 8 8))) = false := by rw [quiet, Bool.false_and]
    refine ⟨fun good away apart => ?_, fun b lt good away bad => ?_⟩
    · obtain ⟨u, x, bytes, reads⟩ := copyBarges_all form mir cap good away apart
      exact ⟨u, by rw [exec_copy_of_awake h awake x, if_pos rfl], bytes.regs, bytes.hcp, reads⟩
    · obtain ⟨u, x⟩ := copyBarges_to_bad form mir cap lt good away bad
      exact ⟨u, by rw [exec_copy_of_awake h awake x, if_neg Bool.false_ne_true]⟩
  case fillWaits => exact fun h quiet => congrArg Host.Outcome.next (attempt_wait h (cmdFill_of_quiescent quiet))
  case fillEnds => exact fun h awake => exec_fill_of_awake h awake rfl
  case fillMoves => exact fun k dst bs m good => fillBarges_succ good bs k m
  case fillCalm =>
    rintro h ⟨mir, cap, quiet⟩
    have awake : (s.quiescent && touchesSite (c.par 0 8)) = false := by rw [quiet, Bool.false_and]
    refine ⟨fun good away => ?_, fun b lt good away bad => ?_⟩
    · obtain ⟨u, x, bytes, reads⟩ := fillBarges_all form mir cap _ good away
      exact ⟨u, by rw [exec_fill_of_awake h awake x, if_pos rfl], bytes.regs, bytes.hcp, reads⟩
    · obtain ⟨u, x⟩ := fillBarges_to_bad form mir cap (length_fillPattern _) lt good away bad
      exact ⟨u, by rw [exec_fill_of_awake h awake x, if_neg Bool.false_ne_true]⟩
  case invalidate =>
    intro h
    refine ⟨s.invalidate (c.par 0 8) (c.par 8 8), exec_xltInvalidate_of_starts h, rfl, rfl, rfl, fun site => ?_⟩
    rw [spire_invalidate]
    exact ⟨rfl, rfl⟩
  case invalidated => exact fun found opcode started => exec_xltInvalidate_of_started found opcode started
  case resolve =>
    intro h a nodes colls sites
    have ends := attempt_done h (cmdPageResolve_of_none_waiting nodes colls)
    refine ⟨fun clear => ?_, fun fail => ?_⟩
    · rw [clear] at ends
      exact congrArg Host.Outcome.next ends
    · rw [fail] at ends
      exact congrArg Host.Outcome.next ends
  case migrate =>
    intro h ea frame size e old
    refine ⟨fun bad => congrArg Host.Outcome.next (attempt_done h (cmdPageMigrate_of_bad bad)), fun absent migr => ⟨_, congrArg Host.Outcome.next (attempt_done h (cmdPageMigrate_of_absent absent migr))⟩, ?_⟩
    rintro absent migr ⟨mir, cap, -⟩ faults colls apart
    obtain ⟨sp, g, ends⟩ := cmdPageMigrate_of_calm form mir cap absent migr faults colls
    have bytes := migrated_onlyBytes form mir cap c
    refine ⟨_, congrArg Host.Outcome.next (attempt_done h ends), bytes.regs, bytes.hcp, fun x low high => ?_, loadLE_migrated form mir cap c absent, fun x frame_ entry => ?_⟩
    · have outside : ¬(c.par 0 8 ≤ x ∧ x < c.par 0 8 + 8) := by omega
      exact (readByte_migrated form mir cap c x).trans ((if_neg outside).trans (if_pos ⟨low, high⟩))
    · have offEntry : ¬(c.par 0 8 ≤ x ∧ x < c.par 0 8 + 8) := by omega
      have offFrame : ¬(c.par 8 8 ≤ x ∧ x < c.par 8 8 + c.pageSize) := fun ⟨low, high⟩ => frame_.elim (Nat.not_lt.mpr low) (Nat.not_le.mpr high)
      exact (readByte_migrated form mir cap c x).trans ((if_neg offEntry).trans (if_neg offFrame))
  case interleave =>
    intro h d g
    refine ⟨fun bad => congrArg Host.Outcome.next (attempt_refuse h (cmdInterleave_of_illegal bad)), fun ok spec shadow => congrArg Host.Outcome.next (attempt_refuse h (cmdInterleave_of_shadow ok spec shadow)),
      fun ok allowed busy => ?_, fun ok allowed tasks slot0 slot1 work => ?_⟩
    · obtain ⟨e, waits⟩ := cmdInterleave_of_busy ok allowed busy
      exact ⟨e, congrArg Host.Outcome.next (attempt_wait h waits)⟩
    · have formed : InForm s.emptyL1 := form
      refine ⟨_, congrArg Host.Outcome.next (attempt_done h (cmdInterleave_of_idle ok allowed tasks slot0 slot1 work)), State.reg_setReg_same formed _ _, fun o other => State.reg_setReg_ne formed _ other,
        l1_emptyL1 s, fun x out => readByte_setInterleave_of_outside formed _ out, fun dome group legal x inside => ?_⟩
      have old : s.emptyL1.ilLegal d g := ilLegal_of_regs rfl (ilLegal_of_ilSetOk legal)
      have reads := readByte_setInterleave_of_inside formed _ dome group old (ilLegal_setInterleave formed ok) inside
      rwa [relocated_of_regs (s := State.setInterleave _ _ _ _) rfl (rfl : s.emptyL1.regs = s.regs)] at reads
  case retire =>
    intro h w
    refine ⟨fun bad => congrArg Host.Outcome.next (attempt_refuse h (cmdRetire_of_malformed bad)), fun ok twice => congrArg Host.Outcome.next (attempt_refuse h (cmdRetire_of_duplicate ok twice)),
      fun ok fresh full => congrArg Host.Outcome.next (attempt_refuse h (cmdRetire_of_full ok fresh full)), fun k ok fresh lt free lower => ?_⟩
    exact ⟨_, congrArg Host.Outcome.next (attempt_done h (cmdRetire_of_free ok fresh lt free lower)), reg_withRetired_same form lt _, fun o other used => reg_withRetired_ne form _ other used, mem_withRetired ..⟩
  case retireClear =>
    intro h k
    refine ⟨_, congrArg Host.Outcome.next (attempt_done h (cmdRetireClear_eq c s)), mem_showRetired _, hcp_showRetired _, fun lt => ⟨?_, fun o other used => ?_⟩, fun all => ⟨?_, fun o out used => ?_⟩⟩
    · rw [reg_retireClear_one form lt (retire_ne_used lt), if_pos rfl]
    · rw [reg_retireClear_one form lt used, if_neg other]
    · rw [show c.par 0 2 = 0xFFFF from all]
      exact retireEntries_retireClear_all form
    · rw [show c.par 0 2 = 0xFFFF from all, reg_retireClear_all form used]
      exact if_neg (by omega)

end Sys2Proof.Machine
end

section
/-!
PROOFS of the family 10_towers_and_far_tier: the entry sets that INTERLEAVE accepts (O59).
-/
namespace Sys2Proof.Machine

open Sys2Proof

/-! ## Entry sets of REACH mode -/

/-- R284 in the words of the model's check: every target occurs. -/
theorem ilSetOk_iff_mem {es : List Nat} : ilSetOk es = true ↔ (∀ e ∈ es, e = 0) ∨ ((∀ e ∈ es, 64 ≤ e ∧ e < 72) ∧ ∀ q, q < 8 → 64 + q ∈ es) := by
  simp [ilSetOk]

/-- Distinct elements that all occur in a list no longer than theirs are that list, in some order: core Lean, on which the package builds, has no such lemma. -/
theorem perm_of_nodup_subset {l es : List Nat} (distinct : l.Nodup) (sub : ∀ x ∈ l, x ∈ es) (len : es.length ≤ l.length) : l.Perm es := by
  induction l generalizing es with
  | nil => rw [List.eq_nil_of_length_eq_zero (Nat.le_zero.mp len)]
  | cons a r ih =>
    obtain ⟨fresh, rest⟩ := List.nodup_cons.mp distinct
    have head : a ∈ es := sub a List.mem_cons_self
    have inRest : ∀ x ∈ r, x ∈ es.erase a := fun x mem => (List.mem_erase_of_ne (by rintro rfl; exact fresh mem)).mpr (sub x (List.mem_cons_of_mem a mem))
    have shorter : (es.erase a).length ≤ r.length := by
      rw [List.length_erase_of_mem head]
      exact Nat.sub_le_of_le_add len
    exact ((ih rest inRest shorter).cons a).trans (List.perm_cons_erase head).symm

/-- Among eight entries that name each of the eight reaches, each is named once. -/
theorem count_reach_of_mem {es : List Nat} (len : es.length = 8) (all : ∀ q, q < 8 → 64 + q ∈ es) {q : Nat} (lt : q < 8) : es.count (64 + q) = 1 := by
  have named : ∀ e ∈ (List.range 8).map (64 + ·), e ∈ es := by
    intro e mem
    obtain ⟨r, reach, rfl⟩ := List.mem_map.mp mem
    exact all r (List.mem_range.mp reach)
  have perm : ((List.range 8).map (64 + ·)).Perm es := perm_of_nodup_subset (by decide) named (Nat.le_of_eq len)
  have once : ∀ q, q < 8 → ((List.range 8).map (64 + ·)).count (64 + q) = 1 := by decide
  rw [← perm.count_eq, once q lt]

/-- R284 with each target counted. -/
theorem ilSetOk_iff_count {es : List Nat} (len : es.length = 8) :
    ilSetOk es = true ↔ (∀ e ∈ es, e = 0) ∨ ((∀ e ∈ es, 64 ≤ e ∧ e < 72) ∧ ∀ q, q < 8 → es.count (64 + q) = 1) := by
  rw [ilSetOk_iff_mem]
  have once : (∀ q, q < 8 → 64 + q ∈ es) ↔ ∀ q, q < 8 → es.count (64 + q) = 1 :=
    ⟨fun all _ lt => count_reach_of_mem len all lt, fun one q lt => List.count_pos_iff.mp (by rw [one q lt]; decide)⟩
  rw [once]

theorem length_ilEntries (c : Cmd) : c.ilEntries.length = 8 := by simp [Cmd.ilEntries]

/-- Settles O59: `ilSetOk_iff_count`, and the refusal of a set that is not one of those. -/
theorem reachSets : Obligations.ReachSets := by
  unfold Obligations.ReachSets
  refine ⟨fun es len => ilSetOk_iff_count len, fun s id c h other => ?_⟩
  rw [← ilSetOk_iff_count (length_ilEntries c), Bool.not_eq_true] at other
  exact congrArg Host.Outcome.next (attempt_refuse h (cmdInterleave_of_illegal other))

end Sys2Proof.Machine
end

section
/-!
PROOFS of the family 10_towers_and_far_tier: what a corrected error of a tower leaves in memory (O48).
-/
namespace Sys2Proof.Machine

open Sys2Proof

/-! ## A correctable error that is advised -/

/-- The channels of tower 0 run, the first correctable error of a bank reaches the limit (R300), and module-wide events go to completion queue 0, which lies in device memory at address 4096 (R468, R476, R500). -/
def advisedToDevice : State :=
  let s := (State.reset.setFld (R.TWR_STATUS 0) F.TWR_STATUS_STATE 1).setFld (R.TWR_CE_LIMIT 0) F.TWR_CE_LIMIT_LIMIT 1
  let s := (s.setFld R.HCP_CTL F.HCP_CTL_EVT_EN 1).setFld (R.HCP_Q_CFG 0) F.HCP_Q_CFG_CQ_EN 1
  (s.setFld (R.HCP_CQ_BASE 0) F.HCP_CQ_BASE_LOC 1).setFld (R.HCP_CQ_BASE 0) F.HCP_CQ_BASE_BASE 1

/-- A read of barge 0 of channel 0 with bit 0 of its first word inverted. -/
def oneBitRead : Instr := .towerReadComplete 0 0 0 0 (.words [(0, 1#72 <<< 0)])

/-- The error is advised, and the first byte of the event's entry is in device memory. -/
theorem oneBitRead_writes_memory : Memory.readByte (memAfter (exec oneBitRead advisedToDevice)) 4096 ≠ Memory.readByte advisedToDevice.mem 4096 := by decide +kernel

/-- Refutes O48: a read with one inverted bit does not leave memory as it was where its error reaches the limit and the event RETIRE_ADVISED goes to a completion queue in device memory. -/
theorem not_towerMemory : ¬ Obligations.TowerMemory := by
  unfold Obligations.TowerMemory
  rintro ⟨oneBit, -⟩
  have form : InForm advisedToDevice := ⟨by decide +kernel, by decide +kernel⟩
  have up : advisedToDevice.channelUp 0 0 = true := by decide +kernel
  obtain ⟨u, reads, same, -⟩ := oneBit advisedToDevice 0 0 0 0 0 form up (by decide) (by decide) (by decide)
  refine oneBitRead_writes_memory ?_
  rw [oneBitRead, reads]
  exact same 4096

end Sys2Proof.Machine
end

section
/-!
PROOFS of the family 10_towers_and_far_tier: margining, test modes, boundary scan and repair (O50).
-/
namespace Sys2Proof.Machine

open Sys2Proof

variable {s : State}

/-! ## Fields and registers -/

/-- A field with no bit in the one written is as before. -/
theorem fget_fset_apart (v : Word) {f g : Fld} (x : Nat) (lo : f.lo ≤ f.hi) (hi : f.hi < 64) (le : g.lo ≤ g.hi) (apart : f.hi < g.lo ∨ g.hi < f.lo) : fget (fset v f x) g = fget v g := by
  obtain above | below := apart
  · exact fget_fset_above v f g x lo hi above
  · exact fget_fset_below v f g x lo hi le below

/-- A field reads what was written to it before another was written. -/
theorem fget_fset_then (v : Word) {f g : Fld} (x y : Nat) (lo : f.lo ≤ f.hi) (hi : f.hi < 64) (lo' : g.lo ≤ g.hi) (hi' : g.hi < 64) (apart : g.hi < f.lo ∨ f.hi < g.lo) :
    fget (fset (fset v f x) g y) f = x % 2 ^ (f.hi + 1 - f.lo) :=
  (fget_fset_apart _ y lo' hi' lo apart).trans (fget_fset_same v f x lo hi)

/-- A field of a register is as before a write to another; so too after `setFld`, `setFlds` and `bump`, which are such writes. -/
theorem fld_setReg_ne (form : InForm s) {o x : Nat} (v : Word) (other : x ≠ o) (g : Fld) : (s.setReg o v).fld x g = s.fld x g := by
  rw [State.fld, State.reg_setReg_ne form v other, State.fld]

@[simp] theorem tower_setTower (s : State) (t : Nat) (w : Tower) : (s.setTower t w).tower t = w := by
  simp [State.setTower, State.tower, tfind_tinsert_same]

theorem tower_setReg (s : State) (o : Nat) (v : Word) (t : Nat) : (s.setReg o v).tower t = s.tower t := rfl

/-! ## TEST_MODE (R635) -/

/-- TST_STATUS stands apart from the other registers that a test mode writes. -/
theorem twrStatus_ne_tstStatus {t : Nat} (lt : t < 8) : R.TWR_STATUS t ≠ R.TST_STATUS := by
  simp only [R.TWR_STATUS, R.TST_STATUS]
  omega

theorem lnkStatus_ne_tstStatus {n : Nat} (lt : n < 48) : R.LNK_STATUS n ≠ R.TST_STATUS := by
  simp only [R.LNK_STATUS, R.TST_STATUS]
  omega

theorem fld_showTest (form : InForm s) {bit : Nat} (lt : bit < 64) (on : Bool) : (s.showTest bit on).fld R.TST_STATUS ⟨bit, bit⟩ = if on then 1 else 0 := by
  rw [State.showTest, fld_setFld_same form _ _ _ (Nat.le_refl _) lt]
  cases on <;> simp

theorem inTest_showTest (form : InForm s) {target index : Nat} (lt : testBit target index < 64) (on : Bool) : (s.showTest (testBit target index) on).inTest target index = on := by
  rw [State.inTest, fld_showTest form lt]
  cases on <;> rfl

theorem showTest_inForm (form : InForm s) (bit : Nat) (on : Bool) : InForm (s.showTest bit on) := State.inv_setFld form ..

theorem reg_showTest_ne (form : InForm s) {o : Nat} (other : o ≠ R.TST_STATUS) (bit : Nat) (on : Bool) : (s.showTest bit on).reg o = s.reg o := State.reg_setReg_ne form _ other

/-- A write to another register does not change what TST_STATUS shows. -/
theorem inTest_setReg_ne (form : InForm s) {o : Nat} (other : o ≠ R.TST_STATUS) (v : Word) (target index : Nat) : (s.setReg o v).inTest target index = s.inTest target index := by
  rw [State.inTest, fld_setReg_ne form v other.symm, State.inTest]

section Command
variable {c : Cmd}

theorem cmdTestMode_of_there (there : s.inTest (c.par 0 1) (c.par 1 1) = (c.par 2 1 == 1)) : cmdTestMode c s = (.done .ok [], s) := if_pos (beq_iff_eq.mpr there)

section Entry
variable (out : s.inTest (c.par 0 1) (c.par 1 1) = false) (enter : c.par 2 1 = 1)
include out enter

theorem cmdTestMode_of_refused (bad : s.tasks ≠ [] ∨ s.debugOpen = false ∨ s.jobState ≠ 0) : cmdTestMode c s = (.done .testRefused [], s) := by
  have no : (s.tasks.isEmpty && s.debugOpen && s.jobState == 0) = false := by
    obtain tasks | shut | job := bad
    · simp [tasks]
    · simp [shut]
    · simp [job]
  simp [cmdTestMode, out, enter, no]

theorem cmdTestMode_of_entered (tasks : s.tasks = []) (open_ : s.debugOpen = true) (job : s.jobState = 0) : cmdTestMode c s = (.done .ok [], s.enterTest (c.par 0 1) (c.par 1 1)) := by
  simp [cmdTestMode, out, enter, tasks, open_, job]

end Entry

section Exit
variable (in_ : s.inTest (c.par 0 1) (c.par 1 1) = true) (leave : c.par 2 1 = 0)
include in_ leave

theorem cmdTestMode_of_tower_left (target : c.par 0 1 = 0) : cmdTestMode c s = (.done .ok [], s.leaveTest 0 (c.par 1 1)) := by
  rw [target] at in_
  simp [cmdTestMode, in_, leave, target]

theorem cmdTestMode_of_h0_left (target : c.par 0 1 = 2) : cmdTestMode c s = (.done .ok [], s) := by
  rw [target] at in_
  simp [cmdTestMode, in_, leave, target]

end Exit

end Command

/-! What entering or leaving a test mode does, target by target. -/

theorem enterTest_tower_eq (s : State) (t : Nat) : s.enterTest 0 t = ((s.showTest (testBit 0 t) true).setFld (R.TWR_STATUS t) F.TWR_STATUS_STATE 2).clearTower t := rfl

theorem enterTest_link_eq (s : State) (n : Nat) : s.enterTest 1 n = (s.showTest (testBit 1 n) true).enterLink n 8 := rfl

/-- A tower's test that runs is dropped. -/
def State.dropMargin (s : State) (t : Nat) : State := s.setTower t { s.tower t with testing := none }

theorem leaveTest_tower_eq (s : State) (t : Nat) : s.leaveTest 0 t =
    (((s.showTest (testBit 0 t) false).dropMargin t).setFld (R.TWR_STATUS t) F.TWR_STATUS_STATE (if ((s.showTest (testBit 0 t) false).tower t).down = [] then 1 else 3)).clearTower t := rfl

theorem dwell_enterTest_eq (s : State) (i : Nat) :
    (s.enterTest 2 i).tst.dwell = some ((s.showTest 61 true).now + max 1 ((s.showTest 61 true).fld R.TST_PORT_CTL F.TST_PORT_CTL_DWELL_MS) * 1000000) := rfl

theorem now_showTest (s : State) (bit : Nat) (on : Bool) : (s.showTest bit on).now = s.now := State.setFld_now ..
theorem tst_showTest (s : State) (bit : Nat) (on : Bool) : (s.showTest bit on).tst = s.tst := State.setFld_tst ..
theorem mem_showTest (s : State) (bit : Nat) (on : Bool) : (s.showTest bit on).mem = s.mem := State.setFld_mem ..

theorem down_showTest (s : State) (bit : Nat) (on : Bool) (t : Nat) : ((s.showTest bit on).tower t).down = (s.tower t).down := rfl

theorem towerState_clearTower (s : State) (t u : Nat) : (s.clearTower u).towerState t = s.towerState t := rfl

theorem inTest_clearTower (s : State) (target index u : Nat) : (s.clearTower u).inTest target index = s.inTest target index := rfl

section Modes
variable (form : InForm s)
include form

theorem dropMargin_inForm (t : Nat) : InForm (s.dropMargin t) := form

theorem towerState_setFld (t : Nat) {x : Nat} (fits : x < 8) : (s.setFld (R.TWR_STATUS t) F.TWR_STATUS_STATE x).towerState t = x :=
  (fld_setFld_same form _ _ _ (by decide) (by decide)).trans (Nat.mod_eq_of_lt fits)

theorem linkState_enterLink (n : Nat) {x : Nat} (fits : x < 16) : (s.enterLink n x).linkState n = x := by
  rw [State.enterLink, State.linkState, State.fld_setLink, fld_setFld_same form _ _ _ (by decide) (by decide)]
  exact Nat.mod_eq_of_lt fits

/-- A tower in its test mode is in MARGIN, and shown there (R309, R646). -/
theorem enterTest_tower {t : Nat} (lt : t < 8) : (s.enterTest 0 t).towerState t = 2 ∧ (s.enterTest 0 t).inTest 0 t = true := by
  have shown := showTest_inForm form (testBit 0 t) true
  have shows : testBit 0 t < 64 := show 48 + t < 64 by omega
  rw [enterTest_tower_eq, towerState_clearTower, inTest_clearTower]
  exact ⟨towerState_setFld shown t (by decide), (inTest_setReg_ne shown (twrStatus_ne_tstStatus lt) _ 0 t).trans (inTest_showTest form shows true)⟩

/-- A link in its test mode is in TEST, and shown there; memory is as it was (R643, R646). -/
theorem enterTest_link {n : Nat} (lt : n < 48) : (s.enterTest 1 n).linkState n = 8 ∧ (s.enterTest 1 n).inTest 1 n = true ∧ (s.enterTest 1 n).mem = s.mem := by
  have shown := showTest_inForm form (testBit 1 n) true
  have shows : testBit 1 n < 64 := show n < 64 by omega
  rw [enterTest_link_eq]
  refine ⟨linkState_enterLink shown n (by decide), ?_, by rw [State.enterLink, State.setLink_mem, State.setFld_mem, mem_showTest]⟩
  rw [State.enterLink, State.inTest, State.fld_setLink, State.setFld, fld_setReg_ne shown _ (lnkStatus_ne_tstStatus lt).symm]
  exact inTest_showTest form shows true

/-- The dwell of H0 is the time that TST_PORT_CTL gives (R635). -/
theorem dwell_enterTest (i : Nat) : (s.enterTest 2 i).tst.dwell = some (s.now + max 1 (s.fld R.TST_PORT_CTL F.TST_PORT_CTL_DWELL_MS) * 1000000) := by
  have ms : (s.showTest 61 true).fld R.TST_PORT_CTL F.TST_PORT_CTL_DWELL_MS = s.fld R.TST_PORT_CTL F.TST_PORT_CTL_DWELL_MS := fld_setReg_ne form _ (by decide) _
  rw [dwell_enterTest_eq, ms, now_showTest]

/-- A tower without channels OFFLINE leaves its test mode to READY (R309). -/
theorem leaveTest_tower {t : Nat} (lt : t < 8) (down : (s.tower t).down = []) : (s.leaveTest 0 t).towerState t = 1 ∧ (s.leaveTest 0 t).inTest 0 t = false := by
  have shown := showTest_inForm form (testBit 0 t) false
  have dropped := dropMargin_inForm shown t
  have shows : testBit 0 t < 64 := show 48 + t < 64 by omega
  rw [leaveTest_tower_eq, down_showTest, down, if_pos rfl, towerState_clearTower, inTest_clearTower]
  exact ⟨towerState_setFld dropped t (by decide), (inTest_setReg_ne dropped (twrStatus_ne_tstStatus lt) _ 0 t).trans (inTest_showTest form shows false)⟩

end Modes

/-- The dwell of H0 has ended at its time. -/
def State.dwellEnded (s : State) (d : Nat) : State := { s with now := max s.now d, tst := { s.tst with dwell := none } }

theorem exec_h0DwellEnd {d : Nat} (dwells : s.tst.dwell = some d) : exec .h0DwellEnd s = .next ((s.dwellEnded d).showTest 61 false) := by
  change execH0DwellEnd s = _
  simp only [execH0DwellEnd, dwells]
  rfl

theorem farFailOne_far (s : State) (r : FarReq) : (s.farFailOne r).far = s.far := by
  rw [State.farFailOne, far_respond, State.bump_far]

theorem tst_respond (s : State) (p : CPkt) (typ len status : Nat) (data : List Byte) : (s.respond p typ len status data).tst = s.tst := by
  obtain ⟨x, site, n, e | e⟩ := respond_eq s p typ len status data
  · rw [e]
  · rw [e, State.bump_tst]

/-- H1 in its test mode fails every request (R308, R635). -/
theorem enterTest_h1 (s : State) (i : Nat) : (s.enterTest 3 i).far.failed = true ∧ (s.enterTest 3 i).far.reqs = [] ∧ (s.enterTest 3 i).tst.h1 = true := by
  refine List.foldlRecOn (motive := fun u : State => u.far.failed = true ∧ u.far.reqs = [] ∧ u.tst.h1 = true) _ _ ⟨rfl, rfl, rfl⟩ fun u ih r _ => ?_
  rw [farFailOne_far, State.farFailOne, tst_respond, State.bump_tst]
  exact ih

/-! ## SELF_TEST (R641, R647) -/

/-- The sites of a list are set in TST_BIST_SITE. -/
def State.markSites (s : State) (l : List Nat) : State :=
  l.foldl (fun s x => let r := R.TST_BIST_SITE (x / 64); s.setReg r (s.reg r ||| BitVec.ofNat 64 (2 ^ (x % 64)))) s

/-- TST_BIST_SITE reads zero at every site. -/
def State.clearSites (s : State) : State := (List.range 16).foldl (fun s n => s.setReg (R.TST_BIST_SITE n) 0) s

/-- TST_BIST_SITE shows that site `x` failed. -/
def State.siteFailed (s : State) (x : Nat) : Bool := (s.reg (R.TST_BIST_SITE (x / 64))).getLsbD (x % 64)

theorem bistSite_inj {m n : Nat} : R.TST_BIST_SITE m = R.TST_BIST_SITE n ↔ m = n := by
  simp only [R.TST_BIST_SITE]
  omega

theorem getLsbD_twoPow (k j : Nat) (lt : j < 64) : (BitVec.ofNat 64 (2 ^ k)).getLsbD j = decide (k = j) := by
  rw [BitVec.getLsbD_ofNat, Nat.testBit_two_pow]
  simp [lt]

theorem siteFailed_mark (form : InForm s) (x y : Nat) :
    (s.setReg (R.TST_BIST_SITE (y / 64)) (s.reg (R.TST_BIST_SITE (y / 64)) ||| BitVec.ofNat 64 (2 ^ (y % 64)))).siteFailed x = (s.siteFailed x || decide (x = y)) := by
  have inWord : x % 64 < 64 := Nat.mod_lt _ (by decide)
  rw [State.siteFailed, State.reg_setReg form]
  simp only [bistSite_inj]
  split
  case isTrue word =>
    have bit : y % 64 = x % 64 ↔ x = y := by omega
    rw [BitVec.getLsbD_or, getLsbD_twoPow _ _ inWord, State.siteFailed, word, decide_eq_decide.mpr bit]
  case isFalse word =>
    have ne : x ≠ y := fun same => word (congrArg (· / 64) same)
    simp [State.siteFailed, ne]

theorem siteFailed_markSites (form : InForm s) (l : List Nat) (x : Nat) : (s.markSites l).siteFailed x = true ↔ s.siteFailed x = true ∨ x ∈ l := by
  induction l generalizing s with
  | nil => simp [State.markSites]
  | cons y r ih =>
    have step := ih (State.inv_setReg form (R.TST_BIST_SITE (y / 64)) (s.reg (R.TST_BIST_SITE (y / 64)) ||| BitVec.ofNat 64 (2 ^ (y % 64))))
    rw [siteFailed_mark form, Bool.or_eq_true, decide_eq_true_eq, or_assoc] at step
    rw [List.mem_cons]
    exact step

theorem clearSites_clears (form : InForm s) : InForm s.clearSites ∧ ∀ n, n < 16 → s.clearSites.reg (R.TST_BIST_SITE n) = 0 := by
  have cleared : ∀ k, InForm ((List.range k).foldl (fun s n => s.setReg (R.TST_BIST_SITE n) 0) s) ∧
      ∀ n, n < k → ((List.range k).foldl (fun s n => s.setReg (R.TST_BIST_SITE n) 0) s).reg (R.TST_BIST_SITE n) = 0 := by
    intro k
    induction k with
    | zero => exact ⟨form, fun n lt => absurd lt (Nat.not_lt_zero n)⟩
    | succ k ih =>
      obtain ⟨formed, zero⟩ := ih
      simp only [List.range_succ, List.foldl_append, List.foldl_cons, List.foldl_nil]
      refine ⟨State.inv_setReg formed .., fun n lt => ?_⟩
      rw [State.reg_setReg formed]
      split
      case isTrue => rfl
      case isFalse other => exact zero n (by rw [bistSite_inj] at other; omega)
  exact cleared 16

theorem showSelfTest_eq (s : State) (kind boot : Nat) (bad : List Nat) :
    s.showSelfTest kind boot bad = (s.setFlds R.TST_BIST_STAT [(F.TST_BIST_STAT_KIND, kind), (F.TST_BIST_STAT_BOOT, boot), (F.TST_BIST_STAT_FAILED, ((bad.filter (fun x => Nat.blt x 1024)).eraseDups).length)]).clearSites.markSites
      (bad.filter (fun x => Nat.blt x 1024)).eraseDups := rfl

theorem siteFailed_of_zero {x : Nat} (zero : s.reg (R.TST_BIST_SITE (x / 64)) = 0) : s.siteFailed x = false := by simp [State.siteFailed, zero]

/-- The results name the failed sites of the module and no others (R647). -/
theorem siteFailed_showSelfTest (form : InForm s) (kind boot : Nat) (bad : List Nat) {x : Nat} (lt : x < 1024) : (s.showSelfTest kind boot bad).siteFailed x = true ↔ x ∈ bad := by
  obtain ⟨formed, zero⟩ := clearSites_clears (State.inv_setFlds form R.TST_BIST_STAT
    [(F.TST_BIST_STAT_KIND, kind), (F.TST_BIST_STAT_BOOT, boot), (F.TST_BIST_STAT_FAILED, ((bad.filter (fun x => Nat.blt x 1024)).eraseDups).length)])
  rw [showSelfTest_eq, siteFailed_markSites formed, siteFailed_of_zero (zero (x / 64) (by omega))]
  simp [List.mem_eraseDups, lt]

section SelfTest
variable {c : Cmd}

theorem cmdSelfTest_of_bad (bad : List Nat) (busy : s.jobState ≠ 0 ∨ s.fld R.PWR_STATUS F.PWR_STATUS_STATE ≠ 0) : cmdSelfTest bad c s = (.refuse .badState 0, s) := if_pos busy

theorem cmdSelfTest_of_ready (bad : List Nat) (job : s.jobState = 0) (active : s.fld R.PWR_STATUS F.PWR_STATUS_STATE = 0) :
    cmdSelfTest bad c s = (.done .ok [((s.zeroTested (c.par 0 1)).showSelfTest (c.par 0 1) 0 bad).fld R.TST_BIST_STAT F.TST_BIST_STAT_FAILED], (s.zeroTested (c.par 0 1)).showSelfTest (c.par 0 1) 0 bad) :=
  if_neg (by simp [job, active])

theorem zeroTested_inForm (form : InForm s) (kind : Nat) : InForm (s.zeroTested kind) :=
  have ⟨regs, mem, _⟩ := inv_zeroTested (keeps_of_inForm form) kind
  ⟨regs, mem⟩

end SelfTest

/-! ## Margining of a tower (R309, R314) -/

theorem marginCtl_ne_result (t : Nat) : R.TWR_MARGIN_CTL t ≠ R.TWR_MARGIN_RESULT t := by
  simp only [R.TWR_MARGIN_CTL, R.TWR_MARGIN_RESULT]
  omega

/-- What TWR_MARGIN_CTL keeps of a written word. -/
def marginKept (v : Word) : Word := fset v F.TWR_MARGIN_CTL_START 0 &&& 0x7FFFFFFF

/-- A tower with TWR_MARGIN_CTL written. -/
def State.marginSet (s : State) (t : Nat) (v : Word) : State := s.setReg (R.TWR_MARGIN_CTL t) (marginKept v)

/-- A test of `n` units of a tower begins. -/
def State.marginRuns (s : State) (t n : Nat) : State := (s.setTower t { s.tower t with testing := some (s.now + n * 163840) }).setReg (R.TWR_MARGIN_RESULT t) 0

theorem writeMargin_of_shut {t : Nat} (shut : ¬(s.towerState t = 2 ∧ s.debugOpen = true)) (v : Word) : s.writeMargin t v = s := by
  refine if_pos (Bool.eq_false_iff.mpr fun may => shut ?_)
  obtain ⟨margin, open_⟩ := Bool.and_eq_true_iff.mp may
  exact ⟨beq_iff_eq.mp margin, open_⟩

theorem writeMargin_of_open {t : Nat} (margin : s.towerState t = 2) (open_ : s.debugOpen = true) (v : Word) :
    s.writeMargin t v = if fget v F.TWR_MARGIN_CTL_START = 1 then (s.marginSet t v).marginRuns t (max 1 (fget v F.TWR_MARGIN_CTL_COUNT)) else s.marginSet t v := by
  have may : ¬(s.towerState t == 2 && s.debugOpen) = false := by simp [margin, open_]
  rw [State.writeMargin, if_neg may]
  rfl

theorem testing_marginRuns (s : State) (t n : Nat) : ((s.marginRuns t n).tower t).testing = some (s.now + n * 163840) := by
  rw [State.marginRuns, tower_setReg, tower_setTower]

theorem mem_marginRuns (s : State) (t n : Nat) : (s.marginRuns t n).mem = s.mem := by rw [State.marginRuns, State.setReg_mem, State.setTower]
theorem now_marginSet (s : State) (t : Nat) (v : Word) : (s.marginSet t v).now = s.now := State.setReg_now ..
theorem mem_marginSet (s : State) (t : Nat) (v : Word) : (s.marginSet t v).mem = s.mem := State.setReg_mem ..

section Margin
variable (form : InForm s) (t : Nat)
include form

theorem marginSet_inForm (v : Word) : InForm (s.marginSet t v) := State.inv_setReg form ..

theorem reg_marginSet (v : Word) (o : Nat) : (s.marginSet t v).reg o = if o = R.TWR_MARGIN_CTL t then marginKept v else s.reg o := State.reg_setReg form ..

theorem reg_marginRuns (n o : Nat) : (s.marginRuns t n).reg o = if o = R.TWR_MARGIN_RESULT t then 0 else s.reg o := by
  have runs : InForm (s.setTower t { s.tower t with testing := some (s.now + n * 163840) }) := form
  exact State.reg_setReg runs ..

/-- A write in MARGIN is kept without START, and touches no register but the control and the result (R309). -/
theorem writeMargin_writes (margin : s.towerState t = 2) (open_ : s.debugOpen = true) (v : Word) :
    (s.writeMargin t v).mem = s.mem ∧ (s.writeMargin t v).reg (R.TWR_MARGIN_CTL t) = marginKept v ∧
    (∀ o, o ≠ R.TWR_MARGIN_CTL t → o ≠ R.TWR_MARGIN_RESULT t → (s.writeMargin t v).reg o = s.reg o) ∧
    (fget v F.TWR_MARGIN_CTL_START = 1 → ((s.writeMargin t v).tower t).testing = some (s.now + max 1 (fget v F.TWR_MARGIN_CTL_COUNT) * 163840) ∧ (s.writeMargin t v).reg (R.TWR_MARGIN_RESULT t) = 0) := by
  rw [writeMargin_of_open margin open_]
  split
  case isTrue start =>
    rw [mem_marginRuns, mem_marginSet, testing_marginRuns, now_marginSet]
    have regs : ∀ o, ((s.marginSet t v).marginRuns t (max 1 (fget v F.TWR_MARGIN_CTL_COUNT))).reg o = if o = R.TWR_MARGIN_RESULT t then 0 else if o = R.TWR_MARGIN_CTL t then marginKept v else s.reg o :=
      fun o => by rw [reg_marginRuns (marginSet_inForm form t v), reg_marginSet form]
    refine ⟨rfl, ?_, fun o ctl result => ?_, fun _ => ⟨rfl, ?_⟩⟩
    · rw [regs, if_neg (marginCtl_ne_result t), if_pos rfl]
    · rw [regs, if_neg result, if_neg ctl]
    · rw [regs, if_pos rfl]
  case isFalse idle =>
    have regs := reg_marginSet form t v
    exact ⟨mem_marginSet .., (regs _).trans (if_pos rfl), fun o ctl _ => (regs o).trans (if_neg ctl), fun start => absurd start idle⟩

end Margin

/-! ## The result of a test that counts errors (R309, R643) -/

/-- DONE, and the errors in 32 bits, saturating. -/
def State.showErrors (s : State) (o x : Nat) : State := s.setFlds o [(⟨63, 63⟩, 1), (⟨31, 0⟩, min x 0xFFFFFFFF)]

theorem fld_showErrors (form : InForm s) (o x : Nat) : (s.showErrors o x).fld o ⟨63, 63⟩ = 1 ∧ (s.showErrors o x).fld o ⟨31, 0⟩ = min x 0xFFFFFFFF := by
  rw [State.fld, State.fld, State.showErrors, State.reg_setFlds form, if_pos rfl]
  simp only [List.foldl_cons, List.foldl_nil]
  have fits : min x 0xFFFFFFFF < 2 ^ 32 := by omega
  exact ⟨fget_fset_then _ _ _ (by decide) (by decide) (by decide) (by decide) (by decide), (fget_fset_same _ _ _ (by decide) (by decide)).trans (Nat.mod_eq_of_lt fits)⟩

theorem reg_showErrors_ne (form : InForm s) {o k : Nat} (x : Nat) (other : k ≠ o) : (s.showErrors o x).reg k = s.reg k := by
  rw [State.showErrors, State.setFlds, State.reg_setReg_ne form _ other]

/-- A tower's test has ended at its time. -/
def State.marginEnded (s : State) (t e : Nat) : State := ({ s with now := max s.now e } : State).setTower t { s.tower t with testing := none }

theorem exec_marginTestDone {t e : Nat} (runs : (s.tower t).testing = some e) (x : Nat) : exec (.marginTestDone t x) s = .next ((s.marginEnded t e).showErrors (R.TWR_MARGIN_RESULT t) x) := by
  change execMarginTestDone t x s = _
  simp only [execMarginTestDone, runs]
  rfl

/-- A link's pattern check has ended at its time. -/
def State.prbsEnded (s : State) (n e : Nat) : State := { s with now := max s.now e, tst := { s.tst with prbs := terase s.tst.prbs n } }

theorem exec_linkPrbsCheckDone {n e : Nat} (runs : tfind s.tst.prbs n = some e) (x : Nat) : exec (.linkPrbsCheckDone n x) s = .next ((s.prbsEnded n e).showErrors (R.TST_LNK_RESULT n) x) := by
  change execLinkPrbsCheckDone n x s = _
  simp only [execLinkPrbsCheckDone, runs]
  rfl

/-! ## Boundary scan (R637 to R639) -/

/-- What stopping engines, which counts the cycles they were held, leaves alone: memory, the test unit's own state, the canonical form and TST_STATUS. -/
def HeldCounted (s t : State) : Prop := t.mem = s.mem ∧ t.tst = s.tst ∧ (InForm s → InForm t ∧ t.reg R.TST_STATUS = s.reg R.TST_STATUS)

theorem HeldCounted.refl (s : State) : HeldCounted s s := ⟨rfl, rfl, fun form => ⟨form, rfl⟩⟩

theorem HeldCounted.modSpire {t : State} (h : HeldCounted s t) (site : Nat) (f : Spire → Spire) : HeldCounted s (t.modSpire site f) := h

theorem HeldCounted.bump {t : State} (h : HeldCounted s t) {o : Nat} (n : Nat) (other : R.TST_STATUS ≠ o) : HeldCounted s (t.bump o n) := by
  obtain ⟨mem, tst, regs⟩ := h
  refine ⟨mem, tst, fun form => ?_⟩
  obtain ⟨formed, same⟩ := regs form
  exact ⟨State.inv_bump formed .., (State.reg_setReg_ne formed _ other).trans same⟩

theorem HeldCounted.countHeld {t : State} (h : HeldCounted s t) (site : Nat) (w : Wait) (n : Nat) : HeldCounted s (t.countHeld site w n) := by
  have gate : R.TST_STATUS ≠ R.SPR_LOOP_GATE site := by simp only [R.TST_STATUS, R.SPR_LOOP_GATE]; omega
  have wait : R.TST_STATUS ≠ R.SPR_SYNC_WAIT site := by simp only [R.TST_STATUS, R.SPR_SYNC_WAIT]; omega
  unfold State.countHeld
  split
  · exact h.bump n gate
  · exact h
  · exact h.bump n wait

theorem HeldCounted.stopEng {t : State} (h : HeldCounted s t) (site : Nat) (e : Engine) : HeldCounted s (t.stopEng site e) := by
  unfold State.stopEng
  dsimp only
  split
  · exact h
  · refine HeldCounted.modSpire ?_ ..
    split
    · exact h.countHeld ..
    · exact h

theorem HeldCounted.stopEngines {t : State} (h : HeldCounted s t) (site : Nat) : HeldCounted s (t.stopEngines site) :=
  HeldCounted.modSpire (List.foldlRecOn (motive := HeldCounted s) _ _ h fun _ ih e _ => ih.stopEng site e) ..

theorem HeldCounted.stopAll (s : State) : HeldCounted s s.stopAll :=
  List.foldlRecOn (motive := HeldCounted s) _ _ (HeldCounted.refl s) fun _ ih site _ => ih.stopEngines site

/-- A scan is shown, and leaves memory (R639, R646). -/
theorem beginScan_shows (form : InForm s) : s.beginScan.tst.scan = true ∧ s.beginScan.fld R.TST_STATUS ⟨63, 63⟩ = 1 ∧ s.beginScan.mem = s.mem := by
  obtain ⟨mem, tst, regs⟩ := HeldCounted.stopAll (({ s with tst := { s.tst with scan := true } } : State).showTest 63 true)
  have formed : InForm ({ s with tst := { s.tst with scan := true } } : State) := form
  obtain ⟨-, same⟩ := regs (showTest_inForm formed 63 true)
  rw [tst_showTest] at tst
  rw [mem_showTest] at mem
  refine ⟨congrArg Test.scan tst, ?_, mem⟩
  exact (congrArg (fget · ⟨63, 63⟩) same).trans (fld_showTest formed (by decide) true)

theorem tst_resetLinks (s : State) : s.resetLinks.tst = s.tst := by
  unfold State.resetLinks
  generalize List.range 48 = links
  extract_lets emptied
  refine List.foldlRecOn (motive := fun u : State => u.tst = s.tst) _ _ rfl fun u ih n _ => ?_
  extract_lets v
  rw [State.setLink_tst, State.setFld_tst, ih]

/-- A warm reset ends a boundary scan (R563, R639). -/
theorem scan_clearModule (s : State) : s.clearModule.tst.scan = false := by
  unfold State.clearModule
  generalize (List.range 8).foldl (fun (s : State) t => s.countThrottle t) s.countStall = throttled
  dsimp only
  generalize List.foldl _ throttled _ = stopped
  generalize stopped.mailboxReset = reset
  generalize List.foldl _ reset _ = disabled
  rw [tst_resetLinks]
  exact List.foldlRecOn (motive := fun u : State => u.tst.scan = false) _ _ rfl fun u ih x _ => by rw [State.setFld_tst, ih]

theorem tst_beginWarm (s : State) (cmd : Option Cmd) : (s.beginWarm cmd).tst = s.tst := rfl
theorem warm_beginWarm (s : State) (cmd : Option Cmd) : (s.beginWarm cmd).warm.isSome = true := rfl

theorem resetNotice_reported (s : State) : Reported s s.resetNotice :=
  Reported.floodNow (Reported.bump (o := R.ERR_STOPS_SENT) ((Reported.refl s).errs _) 1 (by decide)) ..

theorem endScan_of_idle (idle : s.tst.scan = false) : s.endScan = s := by simp [State.endScan, idle]

/-- The end of a scan starts a warm reset where none is under way (R639). -/
theorem endScan_resets (scan : s.tst.scan = true) (none_ : s.warm = none) : s.endScan.warm.isSome = true ∧ s.endScan.tst.scan = false := by
  rw [State.endScan, if_pos scan, startWarm_of_none ((resetNotice_reported s).warm.trans none_)]
  exact ⟨warm_beginWarm .., (congrArg Test.scan (tst_beginWarm ..)).trans (scan_clearModule _)⟩

theorem exec_scanInstructionUpdate (up : s.pwr.at_ = .up) (op : ScanOp) :
    exec (.scanInstructionUpdate op) s = .next (if s.scanActs op = .extestFamily then (s.loadScan (s.scanActs op)).beginScan else (s.loadScan (s.scanActs op)).endScan) :=
  if_neg (fun off => off up)

theorem scanActs_of_public (s : State) {op : ScanOp} (extest : op ≠ .extestFamily) (nonPublic : op ≠ .nonPublic) : s.scanActs op = op := by
  cases op with
  | extestFamily => exact absurd rfl extest
  | nonPublic => exact absurd rfl nonPublic
  | _ => rfl

/-! ## Post-package repair (R642) -/

/-- TST_PPR_CTL takes what a write names. -/
def State.pprNamed (s : State) (v : Word) : State :=
  s.setFlds R.TST_PPR_CTL [(F.TST_PPR_CTL_TOWER, fget v F.TST_PPR_CTL_TOWER), (F.TST_PPR_CTL_CHANNEL, fget v F.TST_PPR_CTL_CHANNEL),
    (F.TST_PPR_CTL_BANK, fget v F.TST_PPR_CTL_BANK), (F.TST_PPR_CTL_ROW, fget v F.TST_PPR_CTL_ROW)]

/-- The repair is under way. -/
def State.pprBegun (s : State) : State := ({ s with tst := { s.tst with ppr := true } } : State).setFld R.TST_PPR_CTL F.TST_PPR_CTL_START 1

theorem ppr_pprBegun (s : State) : s.pprBegun.tst.ppr = true := by rw [State.pprBegun, State.setFld_tst]

theorem reg_pprBegun_ne (form : InForm s) {o : Nat} (other : o ≠ R.TST_PPR_CTL) : s.pprBegun.reg o = s.reg o :=
  State.reg_setReg_ne (s := { s with tst := { s.tst with ppr := true } }) form _ other

theorem fld_row_pprBegun (form : InForm s) : s.pprBegun.fld R.TST_PPR_CTL F.TST_PPR_CTL_ROW = s.fld R.TST_PPR_CTL F.TST_PPR_CTL_ROW :=
  fld_setFld_below (s := { s with tst := { s.tst with ppr := true } }) form _ _ (by decide) (by decide) (by decide) (by decide)

section Repair
variable (form : InForm s) {v : Word} (idle : s.tst.ppr = false) (start : fget v F.TST_PPR_CTL_START = 1)
include form

theorem pprNamed_inForm (v : Word) : InForm (s.pprNamed v) := State.inv_setFlds form ..

theorem fld_pprNamed_ne {o : Nat} (other : o ≠ R.TST_PPR_CTL) (v : Word) (f : Fld) : (s.pprNamed v).fld o f = s.fld o f := fld_setReg_ne form _ other f

theorem fld_pprNamed_row (v : Word) : (s.pprNamed v).fld R.TST_PPR_CTL F.TST_PPR_CTL_ROW = fget v F.TST_PPR_CTL_ROW := by
  rw [State.fld, State.pprNamed, State.reg_setFlds form, if_pos rfl]
  simp only [List.foldl_cons, List.foldl_nil]
  exact (fget_fset_same _ _ _ (by decide) (by decide)).trans (fget_mod v _)

/-- The tower that a write names is one of the eight. -/
theorem towerState_pprNamed (v : Word) : (s.pprNamed v).towerState (fget v F.TST_PPR_CTL_TOWER) = s.towerState (fget v F.TST_PPR_CTL_TOWER) := by
  have lt : fget v F.TST_PPR_CTL_TOWER < 8 := fget_lt v F.TST_PPR_CTL_TOWER
  refine fld_pprNamed_ne form ?_ v _
  simp only [R.TWR_STATUS, R.TST_PPR_CTL]
  omega

include idle start

theorem writePpr_of_start : s.writePpr v = if s.fld R.SEC_STATE F.SEC_STATE_MANUF_SERVICE = 1 ∧ s.towerState (fget v F.TST_PPR_CTL_TOWER) = 2 then (s.pprNamed v).pprBegun
    else (s.pprNamed v).setFlds R.TST_PPR_RESULT [(F.TST_PPR_RESULT_DONE, 1), (F.TST_PPR_RESULT_RESULT, 3)] := by
  have none_ : ¬s.tst.ppr = true := by simp [idle]
  have starts : ¬fget v F.TST_PPR_CTL_START = 0 := by simp [start]
  rw [State.writePpr, if_neg none_, if_neg starts, ← fld_pprNamed_ne form (show R.SEC_STATE ≠ R.TST_PPR_CTL by decide) v, ← towerState_pprNamed form]
  rfl

/-- A repair begins in manufacturing service with its tower in MARGIN. -/
theorem writePpr_begins (manuf : s.fld R.SEC_STATE F.SEC_STATE_MANUF_SERVICE = 1) (margin : s.towerState (fget v F.TST_PPR_CTL_TOWER) = 2) :
    (s.writePpr v).tst.ppr = true ∧ (s.writePpr v).fld R.TST_PPR_CTL F.TST_PPR_CTL_ROW = fget v F.TST_PPR_CTL_ROW ∧ ∀ o, o ≠ R.TST_PPR_CTL → (s.writePpr v).reg o = s.reg o := by
  rw [writePpr_of_start form idle start, if_pos ⟨manuf, margin⟩]
  have named := pprNamed_inForm form v
  refine ⟨ppr_pprBegun _, (fld_row_pprBegun named).trans (fld_pprNamed_row form v), fun o other => ?_⟩
  rw [reg_pprBegun_ne named other, State.pprNamed, State.setFlds, State.reg_setReg_ne form _ other]

/-- Elsewhere a repair ends at once with RESULT 3. -/
theorem writePpr_refuses (bad : s.fld R.SEC_STATE F.SEC_STATE_MANUF_SERVICE ≠ 1 ∨ s.towerState (fget v F.TST_PPR_CTL_TOWER) ≠ 2) :
    (s.writePpr v).tst.ppr = false ∧ (s.writePpr v).fld R.TST_PPR_RESULT F.TST_PPR_RESULT_DONE = 1 ∧ (s.writePpr v).fld R.TST_PPR_RESULT F.TST_PPR_RESULT_RESULT = 3 := by
  rw [writePpr_of_start form idle start, if_neg (not_and_of_not_or_not bad), State.setFlds_tst, State.pprNamed, State.setFlds_tst]
  refine ⟨idle, ?_⟩
  rw [State.fld, State.fld, State.reg_setFlds (State.inv_setFlds form ..), if_pos rfl]
  simp only [List.foldl_cons, List.foldl_nil]
  exact ⟨fget_fset_then _ _ _ (by decide) (by decide) (by decide) (by decide) (by decide), fget_fset_same _ _ _ (by decide) (by decide)⟩

end Repair

/-- A repair has ended. -/
def State.pprEnded (s : State) : State := ({ s with tst := { s.tst with ppr := false } } : State).setFld R.TST_PPR_CTL F.TST_PPR_CTL_START 0

/-- The result of a repair: repaired or not, and the spare rows that the stack reports (R642, R647). -/
def State.pprResult (s : State) (repaired : Bool) (spares : Nat) : State :=
  s.setFlds R.TST_PPR_RESULT [(F.TST_PPR_RESULT_DONE, 1), (F.TST_PPR_RESULT_RESULT, if repaired then 1 else 2), (F.TST_PPR_RESULT_SPARES, spares)]

theorem exec_pprDone (runs : s.tst.ppr = true) (repaired : Bool) (spares : Nat) : exec (.pprDone repaired spares) s = .next (s.pprEnded.pprResult repaired spares) := by
  change execPprDone repaired spares s = _
  rw [execPprDone, if_pos runs]
  rfl

theorem ppr_pprResult (s : State) (repaired : Bool) (spares : Nat) : (s.pprEnded.pprResult repaired spares).tst.ppr = false := by
  rw [State.pprResult, State.setFlds_tst, State.pprEnded, State.setFld_tst]

theorem pprEnded_inForm (form : InForm s) : InForm s.pprEnded := State.inv_setFld (s := { s with tst := { s.tst with ppr := false } }) form ..

theorem fld_start_pprEnded (form : InForm s) : s.pprEnded.fld R.TST_PPR_CTL F.TST_PPR_CTL_START = 0 :=
  fld_setFld_same (s := { s with tst := { s.tst with ppr := false } }) form _ _ _ (by decide) (by decide)

theorem pprResult_shows (form : InForm s) (repaired : Bool) (spares : Nat) :
    (s.pprResult repaired spares).fld R.TST_PPR_CTL F.TST_PPR_CTL_START = s.fld R.TST_PPR_CTL F.TST_PPR_CTL_START ∧ (s.pprResult repaired spares).fld R.TST_PPR_RESULT F.TST_PPR_RESULT_DONE = 1 ∧
    (s.pprResult repaired spares).fld R.TST_PPR_RESULT F.TST_PPR_RESULT_RESULT = if repaired then 1 else 2 := by
  refine ⟨fld_setReg_ne form _ (by decide) _, ?_⟩
  rw [State.fld, State.fld, State.pprResult, State.reg_setFlds form, if_pos rfl]
  simp only [List.foldl_cons, List.foldl_nil]
  have result : (if repaired then 1 else 2) % 2 ^ 3 = if repaired then 1 else 2 := by cases repaired <;> rfl
  exact ⟨(fget_fset_apart _ _ (by decide) (by decide) (by decide) (by decide)).trans (fget_fset_then _ _ _ (by decide) (by decide) (by decide) (by decide) (by decide)), (fget_fset_then _ _ _ (by decide) (by decide) (by decide) (by decide) (by decide)).trans result⟩

/-! ## Links (R643, R644) -/

theorem lnkCtl_ne_result (n : Nat) : R.TST_LNK_CTL n ≠ R.TST_LNK_RESULT n := by
  simp only [R.TST_LNK_CTL, R.TST_LNK_RESULT]
  omega

/-- TST_LNK_CTL takes what a write names. -/
def State.prbsNamed (s : State) (n : Nat) (v : Word) : State :=
  s.setFlds (R.TST_LNK_CTL n) ([F.TST_LNK_CTL_LANE, F.TST_LNK_CTL_EYE, F.TST_LNK_CTL_PATTERN, F.TST_LNK_CTL_TOFF, F.TST_LNK_CTL_VOFF, F.TST_LNK_CTL_COUNT].map (fun f => (f, fget v f)))

theorem fld_prbsNamed_lane (form : InForm s) (n : Nat) (v : Word) : (s.prbsNamed n v).fld (R.TST_LNK_CTL n) F.TST_LNK_CTL_LANE = fget v F.TST_LNK_CTL_LANE := by
  rw [State.fld, State.prbsNamed, State.reg_setFlds form, if_pos rfl]
  simp (disch := decide) only [List.map_cons, List.map_nil, List.foldl_cons, List.foldl_nil, fget_fset_apart]
  exact (fget_fset_same _ F.TST_LNK_CTL_LANE _ (by decide) (by decide)).trans (fget_mod v _)

/-- A pattern check of `k` units begins at a link. -/
def State.prbsRuns (s : State) (n k : Nat) : State := ({ s with tst := { s.tst with prbs := tinsert s.tst.prbs n (s.now + prbsTime k) } } : State).setReg (R.TST_LNK_RESULT n) 0

theorem writePrbs_of_start {n : Nat} {v : Word} (test : s.linkState n = 8) (start : fget v F.TST_LNK_CTL_START = 1) :
    s.writePrbs n v = (s.prbsNamed n v).prbsRuns n (max 1 (fget v F.TST_LNK_CTL_COUNT)) := by
  have in_ : ¬s.linkState n ≠ 8 := by simp [test]
  rw [State.writePrbs, if_neg in_, if_pos start]
  rfl

theorem prbsNamed_inForm (form : InForm s) (n : Nat) (v : Word) : InForm (s.prbsNamed n v) := State.inv_setFlds form ..

theorem now_prbsNamed (s : State) (n : Nat) (v : Word) : (s.prbsNamed n v).now = s.now := State.setFlds_now ..
theorem mem_prbsNamed (s : State) (n : Nat) (v : Word) : (s.prbsNamed n v).mem = s.mem := State.setFlds_mem ..
theorem mem_prbsRuns (s : State) (n k : Nat) : (s.prbsRuns n k).mem = s.mem := by rw [State.prbsRuns, State.setReg_mem]

theorem prbsRuns_shows (form : InForm s) (n k : Nat) : tfind (s.prbsRuns n k).tst.prbs n = some (s.now + prbsTime k) ∧ (s.prbsRuns n k).reg (R.TST_LNK_RESULT n) = 0 ∧
    (s.prbsRuns n k).fld (R.TST_LNK_CTL n) F.TST_LNK_CTL_LANE = s.fld (R.TST_LNK_CTL n) F.TST_LNK_CTL_LANE := by
  have runs : InForm ({ s with tst := { s.tst with prbs := tinsert s.tst.prbs n (s.now + prbsTime k) } } : State) := form
  refine ⟨?_, State.reg_setReg_same runs .., fld_setReg_ne runs _ (lnkCtl_ne_result n) _⟩
  rw [State.prbsRuns, State.setReg_tst]
  exact tfind_tinsert_same ..

/-- Device time is `t`. -/
def State.atTime (s : State) (t : Nat) : State := { s with now := t }

theorem now_atTime (s : State) (t : Nat) : (s.atTime t).now = t := rfl
theorem mem_atTime (s : State) (t : Nat) : (s.atTime t).mem = s.mem := rfl
theorem reg_atTime (s : State) (t o : Nat) : (s.atTime t).reg o = s.reg o := rfl
theorem atTime_inForm (form : InForm s) (t : Nat) : InForm (s.atTime t) := form

/-- The 1 ms window boundary at or after a time (R644). -/
def windowFrom (t : Nat) : Nat := (t + 999999) / 1000000 * 1000000

theorem windowFrom_bounds (t : Nat) : windowFrom t % 1000000 = 0 ∧ t ≤ windowFrom t ∧ windowFrom t < t + 1000000 := by
  unfold windowFrom
  omega

theorem exec_eyeMeasurement {n l : Nat} (lt : n < 48) (lane : l < 2) (runs : s.linkState n = 4 ∨ s.linkState n = 5 ∨ s.linkState n = 8) (v : Word) :
    exec (.eyeMeasurement n l v) s = .next ((s.atTime (windowFrom s.now)).setReg (R.TST_LNK_EYE n l) (BitVec.ofNat 64 (v.toNat / 2 ^ 19 * 2 ^ 19))) :=
  if_pos (by simpa [lt, lane, or_assoc] using runs)

/-- The eyes stand above bit 19 of their word. -/
theorem eyes_eq_shift (v : Word) : BitVec.ofNat 64 (v.toNat / 2 ^ 19 * 2 ^ 19) = v >>> 19 <<< 19 := by
  refine BitVec.eq_of_toNat_eq ?_
  simp [Nat.shiftRight_eq_div_pow, Nat.shiftLeft_eq]

/-! ## Port margining at H1 (R645) -/

/-- TST_H1_MARGIN_CMD takes what a write names. -/
def State.h1Named (s : State) (v : Word) : State :=
  s.setFlds R.TST_H1_MARGIN_CMD ([F.TST_H1_MARGIN_CMD_TARGET, F.TST_H1_MARGIN_CMD_LANE, F.TST_H1_MARGIN_CMD_COMMAND].map (fun f => (f, fget v f)))

/-- The command is issued at H1, and START reads 1 until it is answered. -/
def State.h1Issued (s : State) (cmd : Nat) : State := { s.setFld R.TST_H1_MARGIN_CMD F.TST_H1_MARGIN_CMD_START 1 with answers := s.answers ++ [.margin cmd] }

theorem writeH1Margin_of_start {v : Word} (idle : s.fld R.TST_H1_MARGIN_CMD F.TST_H1_MARGIN_CMD_START = 0) (start : fget v F.TST_H1_MARGIN_CMD_START = 1) :
    s.writeH1Margin v = (s.h1Named v).h1Issued (fget v F.TST_H1_MARGIN_CMD_COMMAND) := by
  have none_ : ¬s.fld R.TST_H1_MARGIN_CMD F.TST_H1_MARGIN_CMD_START = 1 := by simp [idle]
  rw [State.writeH1Margin, if_neg none_, if_pos start]
  rfl

theorem h1Named_inForm (form : InForm s) (v : Word) : InForm (s.h1Named v) := State.inv_setFlds form ..

theorem reg_h1Named_ne (form : InForm s) {o : Nat} (other : o ≠ R.TST_H1_MARGIN_CMD) (v : Word) : (s.h1Named v).reg o = s.reg o := by
  rw [State.h1Named, State.setFlds, State.reg_setReg_ne form _ other]

theorem answers_h1Named (s : State) (v : Word) : (s.h1Named v).answers = s.answers := State.setFlds_answers ..

theorem reg_setAnswers (s : State) (l : List Answer) : State.reg { s with answers := l } = s.reg := rfl

theorem reg_h1Issued (s : State) (cmd o : Nat) : (s.h1Issued cmd).reg o = (s.setFld R.TST_H1_MARGIN_CMD F.TST_H1_MARGIN_CMD_START 1).reg o := by
  rw [State.h1Issued, reg_setAnswers]

theorem answers_h1Issued (s : State) (cmd : Nat) : (s.h1Issued cmd).answers = s.answers ++ [.margin cmd] := by rw [State.h1Issued]

theorem h1Issued_shows (form : InForm s) (cmd : Nat) : (s.h1Issued cmd).fld R.TST_H1_MARGIN_CMD F.TST_H1_MARGIN_CMD_START = 1 ∧ ∀ o, o ≠ R.TST_H1_MARGIN_CMD → (s.h1Issued cmd).reg o = s.reg o := by
  refine ⟨?_, fun o other => ?_⟩
  · rw [State.fld, reg_h1Issued]
    exact fld_setFld_same form _ _ _ (by decide) (by decide)
  · rw [reg_h1Issued, State.setFld, State.reg_setReg_ne form _ other]

/-! ## The obligation -/

/-- Settles O50: TEST_MODE by the cases of `cmdTestMode` and its targets, a self-test by `siteFailed_showSelfTest`, every other row by what its operation writes. -/
theorem marginAndTest : Obligations.MarginAndTest := by
  unfold Obligations.MarginAndTest
  intro s form
  refine ⟨?mode, ?selfTest, ?margin, ?marginDone, ?dwell, fun w r l width low high small big => ?trained, fun b => ?scanEn, fun up op => ?scanUpdate, rfl, rfl, fun op => scanActs_of_public s,
    fun op => ⟨rfl, rfl, rfl, rfl⟩, beginScan_shows form, fun idle => ?trstIdle, fun scan none_ => ?trst, ?ppr, ?pprBad, ?pprDone, ?prbs, ?prbsDone, ?eye, ?h1, ?h1Done⟩
  case mode =>
    intro id c h t i
    refine ⟨fun there => congrArg Host.Outcome.next (attempt_done h (cmdTestMode_of_there there)), fun out enter bad => congrArg Host.Outcome.next (attempt_done h (cmdTestMode_of_refused out enter bad)),
      fun out enter tasks open_ job => ⟨s.enterTest t i, congrArg Host.Outcome.next (attempt_done h (cmdTestMode_of_entered out enter tasks open_ job)), ?_, ?_, ?_, ?_⟩,
      fun in_ leave => ⟨fun target lt down => ?_, fun target => congrArg Host.Outcome.next (attempt_done h (cmdTestMode_of_h0_left in_ leave target))⟩⟩
    · intro target lt
      rw [target]
      exact enterTest_tower form lt
    · intro target lt
      rw [target]
      exact enterTest_link form lt
    · intro target
      rw [target]
      exact dwell_enterTest form i
    · intro target
      rw [target]
      exact enterTest_h1 s i
    · obtain ⟨ready, bit⟩ := leaveTest_tower form lt down
      refine ⟨_, congrArg Host.Outcome.next (attempt_done h (cmdTestMode_of_tower_left in_ leave target)), ready, ?_⟩
      rw [target]
      exact bit
  case selfTest =>
    intro id bad c h
    refine ⟨fun busy => congrArg Host.Outcome.next (attempt_refuse h (cmdSelfTest_of_bad bad busy)), fun job active => ⟨_, congrArg Host.Outcome.next (attempt_done h (cmdSelfTest_of_ready bad job active)), fun x lt => ?_⟩⟩
    exact siteFailed_showSelfTest (zeroTested_inForm form _) _ _ bad lt
  case margin =>
    intro t v lt
    have row : exec (.marginTestStart t v) s = .next (s.writeMargin t v) := congrArg Host.Outcome.next (if_pos lt)
    refine ⟨fun shut => ?_, fun margin open_ => ⟨_, row, writeMargin_writes form t margin open_ v⟩⟩
    rw [row, writeMargin_of_shut shut]
  case marginDone =>
    intro t e x runs
    have ended : InForm (s.marginEnded t e) := form
    obtain ⟨done, errors⟩ := fld_showErrors ended (R.TWR_MARGIN_RESULT t) x
    refine ⟨_, exec_marginTestDone runs x, State.setFlds_now .., ?_, done, errors, fun o other => reg_showErrors_ne ended x other, State.setFlds_mem ..⟩
    rw [State.showErrors, State.setFlds, tower_setReg, State.marginEnded, tower_setTower]
  case dwell =>
    intro d dwells
    have ended : InForm (s.dwellEnded d) := form
    exact ⟨_, exec_h0DwellEnd dwells, now_showTest .., congrArg Test.dwell (tst_showTest ..), fld_showTest ended (by decide) false, fun o other => reg_showTest_ne ended other 61 false⟩
  case trained =>
    refine if_pos ?_
    simpa [low, high, small, big, or_assoc] using width
  case scanEn =>
    change Host.Outcome.next (s.writeScanEn b) = _
    simp [State.writeScanEn]
  case scanUpdate =>
    rw [exec_scanInstructionUpdate up]
    refine ⟨fun extest => ?_, fun other => by rw [if_neg other]⟩
    rw [if_pos extest, extest]
  case trstIdle =>
    have ends : exec .trstNAssertion s = .next ({ s with tst := { s.tst with ir := .idcode } } : State) := congrArg Host.Outcome.next (endScan_of_idle (s := { s with tst := { s.tst with ir := .idcode } }) idle)
    exact ⟨_, ends, rfl, rfl, rfl, rfl⟩
  case trst =>
    exact ⟨_, rfl, endScan_resets (s := { s with tst := { s.tst with ir := .idcode } }) scan none_⟩
  case ppr =>
    intro v idle start manuf margin
    exact ⟨_, rfl, writePpr_begins form idle start manuf margin⟩
  case pprBad =>
    intro v idle start bad
    exact ⟨_, rfl, writePpr_refuses form idle start bad⟩
  case pprDone =>
    intro b n runs _
    obtain ⟨start, done, result⟩ := pprResult_shows (pprEnded_inForm form) b n
    exact ⟨_, exec_pprDone runs b n, ppr_pprResult .., start.trans (fld_start_pprEnded form), done, result⟩
  case prbs =>
    intro n v lt
    have row : exec (.linkPrbsCheck n v) s = .next (s.writePrbs n v) := congrArg Host.Outcome.next (if_pos lt)
    refine ⟨fun other => ?_, fun test start => ?_⟩
    · rw [row, State.writePrbs, if_pos other]
    · obtain ⟨ends, zero, lane⟩ := prbsRuns_shows (prbsNamed_inForm form n v) n (max 1 (fget v F.TST_LNK_CTL_COUNT))
      rw [now_prbsNamed] at ends
      rw [fld_prbsNamed_lane form] at lane
      rw [row, writePrbs_of_start test start]
      exact ⟨_, rfl, ends, zero, lane, (mem_prbsRuns ..).trans (mem_prbsNamed ..)⟩
  case prbsDone =>
    intro n e x runs
    have ended : InForm (s.prbsEnded n e) := form
    obtain ⟨done, errors⟩ := fld_showErrors ended (R.TST_LNK_RESULT n) x
    exact ⟨_, exec_linkPrbsCheckDone runs x, State.setFlds_now .., done, errors⟩
  case eye =>
    intro n l v lt lane runs
    have at_ := atTime_inForm form (windowFrom s.now)
    refine ⟨_, exec_eyeMeasurement lt lane runs v, ?_⟩
    rw [State.setReg_now, now_atTime, State.setReg_mem, mem_atTime, State.reg_setReg_same at_, eyes_eq_shift]
    obtain ⟨boundary, low, high⟩ := windowFrom_bounds s.now
    exact ⟨boundary, low, high, rfl, fun o other => (State.reg_setReg_ne at_ _ other).trans (reg_atTime s _ o), rfl⟩
  case h1 =>
    intro v idle start
    obtain ⟨reads, others⟩ := h1Issued_shows (h1Named_inForm form v) (fget v F.TST_H1_MARGIN_CMD_COMMAND)
    refine ⟨_, congrArg Host.Outcome.next (writeH1Margin_of_start idle start), reads, ?_, fun o other => (others o other).trans (reg_h1Named_ne form other v)⟩
    rw [answers_h1Issued, answers_h1Named]
  case h1Done =>
    intro x waits
    have answered := State.inv_setFld form R.TST_H1_MARGIN_CMD F.TST_H1_MARGIN_CMD_START 0
    refine ⟨_, if_pos waits, ?_, ?_⟩
    · rw [State.setFlds, fld_setReg_ne answered _ (by decide)]
      exact fld_setFld_same form _ _ _ (by decide) (by decide)
    · rw [State.fld, State.fld, State.reg_setFlds answered, if_pos rfl]
      simp only [List.foldl_cons, List.foldl_nil]
      exact ⟨fget_fset_then _ _ _ (by decide) (by decide) (by decide) (by decide) (by decide), fget_fset_same _ _ _ (by decide) (by decide)⟩

end Sys2Proof.Machine
end

section
/-!
PROOFS of the family 00_scope: what a step is, and that every command leaves the queue (O1, O2, O4).
-/
namespace Sys2Proof.Machine

open Sys2Proof

/-- Settles O4: each command's arm has its preservation lemma, and `exec_outKeeps` collects them. -/
theorem commandsLeaveQueue : Obligations.CommandsLeaveQueue := by
  unfold Obligations.CommandsLeaveQueue
  exact fun _ _ _ form next => exec_next_inForm form next

/-- Settles O1: the first case of `step`. -/
theorem stepRunsFront : Obligations.StepRunsFront := by
  unfold Obligations.StepRunsFront
  exact fun _ _ _ => rfl

/-- Settles O2: on an empty queue `step` moves the time base alone. -/
theorem idleStep : Obligations.IdleStep := by
  unfold Obligations.IdleStep
  intro s idle
  have runs : step s = .next { s with now := s.now + 1 } := by
    unfold step
    rw [idle]
  exact ⟨_, runs, rfl, rfl⟩

end Sys2Proof.Machine
end

section
/-!
PROOFS of the family 11_canals_and_aqueduct: what a router output and a credit do (O28).
-/
namespace Sys2Proof.Machine

open Sys2Proof

theorem exec_packetForward_arm (site out : Nat) (w : HopWords) (s : State) : exec (.packetForward site out w) s = execPacketForward site out w s := rfl

variable {s t : State} {site out tc : Nat} {p : CPkt}

/-! ## The arbiter of an output

An output passes over classes by writing its arbiter's own four tables, which say nothing of the packets that it may send. -/

/-- `t` differs from `s` at most in what the arbiters keep: deficits, turns and quanta. -/
def ArbiterOnly (s t : State) : Prop :=
  { t with canal := { t.canal with deficit := s.canal.deficit, serving := s.canal.serving, turn := s.canal.turn, quanta := s.canal.quanta } } = s

theorem ArbiterOnly.refl (s : State) : ArbiterOnly s s := rfl

theorem ArbiterOnly.trans {u : State} (h : ArbiterOnly s t) (k : ArbiterOnly t u) : ArbiterOnly s u := by
  unfold ArbiterOnly at h k ⊢
  rw [← h, ← k]

theorem ArbiterOnly.offers (h : ArbiterOnly s t) : t.offers = s.offers := by
  rw [← h]
  rfl

theorem ArbiterOnly.hasCredit (h : ArbiterOnly s t) : t.hasCredit = s.hasCredit := by
  rw [← h]
  rfl

theorem ArbiterOnly.inq (h : ArbiterOnly s t) : t.inq = s.inq := by
  rw [← h]
  rfl

theorem ArbiterOnly.kept (h : ArbiterOnly s t) :
    t.canal.inq = s.canal.inq ∧ t.canal.arrived = s.canal.arrived ∧ t.canal.forks = s.canal.forks ∧ t.mem = s.mem ∧ t.regs = s.regs := by
  rw [← h]
  exact ⟨rfl, rfl, rfl, rfl, rfl⟩

theorem beginRound_eq (s : State) (site out : Nat) : ∃ q, s.beginRound site out = { s with canal := { s.canal with quanta := q } } := by
  unfold State.beginRound
  split
  · exact ⟨_, rfl⟩
  · exact ⟨s.canal.quanta, rfl⟩

theorem quanta_beginRound_of_new (new : tget (fun _ => 0) s.canal.serving (site * 8 + out) = 0) :
    (s.beginRound site out).canal.quanta = tset (fun _ => 0) s.canal.quanta (site * 8 + out) (s.reg (R.CNL_ARB_QUANTUM (domeOf site))).toNat := by
  rw [State.beginRound, if_pos new]

theorem beginRound_arbiterOnly (s : State) (site out : Nat) : ArbiterOnly s (s.beginRound site out) := by
  obtain ⟨q, e⟩ := beginRound_eq s site out
  rw [e]
  rfl

/-- An output that no class can use serves nothing, and only its arbiter's tables move (R327). -/
theorem serveOutput_of_no_offers (fuel : Nat) {s : State} (none_ : ∀ tc, tc < 4 → s.offers site out tc = []) :
    (serveOutput fuel site out s).2 = none ∧ ArbiterOnly s (serveOutput fuel site out s).1 := by
  induction fuel generalizing s with
  | zero => exact ⟨rfl, .refl s⟩
  | succ fuel ih =>
    have begun := beginRound_arbiterOnly s site out
    have idle : (s.beginRound site out).offers site out (tget (fun _ => 0) (s.beginRound site out).canal.serving (site * 8 + out) / 2 % 4) = [] := by
      rw [begun.offers]
      exact none_ _ (Nat.mod_lt _ (by decide))
    have pass : ∀ u, ArbiterOnly (s.beginRound site out) u → (serveOutput fuel site out u).2 = none ∧ ArbiterOnly s (serveOutput fuel site out u).1 := by
      intro u moved
      have all := begun.trans moved
      obtain ⟨nothing, rest⟩ := ih (s := u) fun tc lt => by rw [all.offers]; exact none_ tc lt
      exact ⟨nothing, all.trans rest⟩
    rw [serveOutput]
    simp only [idle]
    exact pass _ rfl

/-- An output whose turn is a class that offers a packet, with credit and deficit for the whole of it, hands it over (R325, R327). -/
theorem serveOutput_of_turn {i : Nat} (fuel : Nat) (turn : tget (fun _ => 0) s.canal.serving (site * 8 + out) / 2 % 4 = tc)
    (offer : pickTurn (tget (fun _ => 0) s.canal.turn (qKey site out tc)) (s.offers site out tc) = some (i, p)) (credit : s.hasCredit (s.hopOf site out p) p = true) :
    let b := s.beginRound site out
    let d := tget (fun _ => 0) s.canal.deficit (qKey site out tc) + (if tget (fun _ => 0) s.canal.serving (site * 8 + out) % 2 = 0 then b.quantum site out tc else 0)
    let u := ({ b with canal := { b.canal with serving := tset (fun _ => 0) s.canal.serving (site * 8 + out) (tc * 2 + 1), turn := tset (fun _ => 0) s.canal.turn (qKey site out tc) (i + 1) } } : State)
    p.flits ≤ d → serveOutput (fuel + 1) site out s = ((u.setDeficit site out tc (d - p.flits)).handOver (s.hopOf site out p) p, some (i, p)) := by
  intro b d u fits
  obtain ⟨q, e⟩ := beginRound_eq s site out
  have begun : ArbiterOnly s ({ s with canal := { s.canal with quanta := q } } : State) := rfl
  rw [serveOutput]
  simp only [e, turn, begun.offers, offer]
  rw [if_neg, if_neg]
  · simp only [u, d, b, e]
    rfl
  · simpa [d, b, e] using fits
  · rw [Bool.not_eq_false]
    exact credit

/-- What becomes of a packet that an output sent, by the words of its hop (R323). -/
theorem exec_packetForward_of_sent {i : Nat} (sent : serveOutput 9 site out s = (t, some (i, p))) :
    exec (.packetForward site out .clean) s = .next (t.afterSend site out i p) ∧
    (∀ n, exec (.packetForward site out (.corrected n)) s = .next ((t.afterSend site out i p).bump (R.CNL_CORR (domeOf (s.hopEnd site out p).1)) n)) ∧
    exec (.packetForward site out .uncorrectable) s = .next (s.canalUe (s.hopEnd site out p).1 (s.hopEnd site out p).2) := by
  simp only [exec_packetForward_arm, execPacketForward, sent, implies_true, and_self]

theorem exec_packetForward_of_none (idle : (serveOutput 9 site out s).2 = none) (w : HopWords) : exec (.packetForward site out w) s = .next (serveOutput 9 site out s).1 := by
  cases e : serveOutput 9 site out s with
  | mk u x =>
    rw [e] at idle
    cases idle
    simp only [exec_packetForward_arm, execPacketForward, e]

/-! ## A packet handed over -/

theorem inq_handOver_router (s : State) (n q : Nat) (p : CPkt) : (s.handOver (.router n q) p).inq n q p.tc = s.inq n q p.tc ++ [p] := inq_setInq_append ..

theorem arrived_handOver_deliver (s : State) (n q : Nat) (single : p.dkind ≠ 2) : (s.handOver (.deliver n q) p).canal.arrived = s.canal.arrived ++ [p] := by
  simp [State.handOver, single]

/-! ## Credits -/

/-- A key that its table lists nowhere is found nowhere. -/
theorem tfind_terase_same {α : Type} {d : Nat → α} {l : Table α} (wf : twf d l) (k : Nat) : tfind (terase l k) k = none := by
  induction l with
  | nil => rfl
  | cons e r ih =>
    obtain ⟨i, v⟩ := e
    obtain ⟨rising, -, rest⟩ := twf_cons.1 wf
    rw [terase]
    split
    case isTrue same =>
      cases r with
      | nil => rfl
      | cons e' r' =>
        have later := rising e' (by simp)
        rw [tfind, if_neg (by omega), if_pos (by omega)]
    case isFalse other =>
      split
      case isTrue past => rw [tfind, if_neg other, if_pos past]
      case isFalse before => rw [tfind, if_neg other, if_neg before, ih rest]

/-- The credit of an output's freed flits is back with the sender. -/
def State.credited (s : State) (site port tc : Nat) : State :=
  let k := qKey site port tc
  { s with canal := { s.canal with used := tset (fun _ => 0) s.canal.used k (tget (fun _ => 0) s.canal.used k - tget (fun _ => 0) s.canal.freed k), freed := terase s.canal.freed k } }

theorem exec_creditReturn (s : State) (site port tc : Nat) :
    let t := enterHeld site port tc (s.outbox (qKey site port tc)).length (s.credited site port tc)
    exec (.creditReturn site port tc) s = .next (t.aq.recv.foldl (fun s x => s.drainChannel x.1) t) := rfl

/-- What a lock takes in leaves the aqueduct, the freed flits and memory. -/
theorem enterLock_kept (s : State) (site port : Nat) (p : CPkt) : (s.enterLock site port p).aq = s.aq ∧ (s.enterLock site port p).canal.freed = s.canal.freed ∧ (s.enterLock site port p).mem = s.mem := by
  unfold State.enterLock
  dsimp only
  split
  · exact ⟨rfl, rfl, rfl⟩
  · exact ⟨rfl, rfl, rfl⟩

theorem enterHeld_kept (site port tc fuel : Nat) (s : State) :
    (enterHeld site port tc fuel s).aq = s.aq ∧ (enterHeld site port tc fuel s).canal.freed = s.canal.freed ∧ (enterHeld site port tc fuel s).mem = s.mem := by
  induction fuel generalizing s with
  | zero => exact ⟨rfl, rfl, rfl⟩
  | succ fuel ih =>
    rw [enterHeld]
    split
    · exact ⟨rfl, rfl, rfl⟩
    · split
      · obtain ⟨aq, freed, mem⟩ := enterLock_kept (s.setOutbox (qKey site port tc) ‹_›) site port ‹_›
        obtain ⟨aq', freed', mem'⟩ := ih ((s.setOutbox (qKey site port tc) ‹_›).enterLock site port ‹_›)
        exact ⟨aq'.trans aq, freed'.trans freed, mem'.trans mem⟩
      · exact ⟨rfl, rfl, rfl⟩

/-- The one writer that a lock held enters it where there is room (R29). -/
theorem enterHeld_of_one {port : Nat} (one : s.outbox (qKey site port tc) = [p]) (room : s.lockRoom site port p = true) :
    enterHeld site port tc 1 s = (s.setOutbox (qKey site port tc) []).enterLock site port p := by
  rw [enterHeld, one]
  exact if_pos room

theorem outbox_enterLock (s : State) (site port k : Nat) (p : CPkt) : (s.enterLock site port p).outbox k = s.outbox k := by
  unfold State.enterLock
  dsimp only
  split
  · rfl
  · rfl

theorem used_enterLock (s : State) (site port : Nat) (p : CPkt) :
    (s.enterLock site port p).canal.used = tset (fun _ => 0) s.canal.used (qKey site port p.tc) (tget (fun _ => 0) s.canal.used (qKey site port p.tc) + p.flits) := by
  unfold State.enterLock
  dsimp only
  split
  · rfl
  · rfl

theorem outbox_setOutbox_nil {k : Nat} (wf : twf (fun _ => ([] : List CPkt)) s.canal.outbox) : (s.setOutbox k []).outbox k = [] := by
  simp [State.outbox, State.setOutbox, tfind_terase_same wf]

/-! ## What an aqueduct receiver holds -/

theorem drainChannel_of_one {k : Nat} (one : s.recv k = [p]) :
    s.drainChannel k = if s.hasCredit (s.aqExit (1 - k / 64) p) p = true then (s.setRecv k []).handOver (s.aqExit (1 - k / 64) p) p else s := by
  rw [State.drainChannel, one, List.length_singleton, drainRecv]
  by_cases credit : s.hasCredit (s.aqExit (1 - k / 64) p) p = true
  · simp [one, credit, drainRecv]
  · simp [one, credit]

/-! ## The obligation -/

/-- Settles O28: PACKET_FORWARD by `serveOutput_of_turn` and `serveOutput_of_no_offers`, CREDIT_RETURN by what the writers that a lock held leave alone. -/
theorem canalForwarding : Obligations.CanalForwarding := by
  unfold Obligations.CanalForwarding
  refine ⟨?turn, ?idle, ?credit, ?drain⟩
  case turn =>
    intro s site out tc i p key v b d h turn offer credit fits u
    have moved : ArbiterOnly s (u.setDeficit site out tc (d - p.flits)) := (beginRound_arbiterOnly s site out).trans rfl
    obtain ⟨clean, corrected, uncorrectable⟩ := exec_packetForward_of_sent (serveOutput_of_turn 8 turn offer credit fits)
    refine ⟨quanta_beginRound_of_new, fun going => if_neg going, clean, corrected, uncorrectable, fun n q next => ?_, fun n q exit single => ?_⟩
    · rw [next, inq_handOver_router, moved.inq]
    · rw [exit, arrived_handOver_deliver _ n q single, moved.kept.2.1]
  case idle =>
    intro s site out w none_
    obtain ⟨nothing, moved⟩ := serveOutput_of_no_offers 9 none_
    exact ⟨_, exec_packetForward_of_none nothing w, moved.kept⟩
  case credit =>
    intro s site port tc k usedWf freedWf outboxWf
    obtain ⟨aq, freed, mem⟩ := enterHeld_kept site port tc (s.outbox k).length (s.credited site port tc)
    refine ⟨_, exec_creditReturn s site port tc, aq, fun x => ?_, mem, fun none_ => ?_, fun p one class_ room => ?_⟩
    · rw [freed]
      exact tget_terase freedWf k x
    · rw [none_]
      exact ⟨rfl, fun x => tget_tset usedWf k x _⟩
    · have room : (s.credited site port tc).lockRoom site port p = true := by
        rw [State.lockRoom, class_]
        simpa [State.credited, tget_tset usedWf, k] using room
      have one : (s.credited site port tc).outbox k = [p] := one
      have used : tget (fun _ => 0) (s.credited site port tc).canal.used k = tget (fun _ => 0) s.canal.used k - tget (fun _ => 0) s.canal.freed k :=
        (tget_tset usedWf k k _).trans (if_pos rfl)
      rw [show s.outbox k = [p] from one, List.length_singleton, enterHeld_of_one one room]
      refine ⟨?_, ?_, ?_⟩
      · rw [outbox_enterLock]
        exact outbox_setOutbox_nil outboxWf
      · rw [← class_]
        exact inq_enterLock ..
      · rw [used_enterLock, class_]
        have room_wf : twf (fun _ => 0) (s.credited site port tc).canal.used := twf_tset _ _ usedWf
        exact (tget_tset room_wf k k _).trans ((if_pos rfl).trans (congrArg (· + p.flits) used))
  case drain =>
    intro s k p h one
    have drained := drainChannel_of_one one
    refine ⟨fun credit => drained.trans (if_pos credit), fun credit => drained.trans (if_neg ?_)⟩
    rw [credit]
    exact Bool.false_ne_true

end Sys2Proof.Machine
end

section
/-!
PROOFS of the family 11_canals_and_aqueduct: multicast trees, and what crosses the aqueduct (O29).
-/
namespace Sys2Proof.Machine

open Sys2Proof

theorem exec_mcBranchTimeout_arm (site port : Nat) (s : State) : exec (.mcBranchTimeout site port) s = execMcBranchTimeout site port s := rfl

theorem exec_aqueductFlitReceive_arm (dir ch : Nat) (r : AqFlit) (s : State) : exec (.aqueductFlitReceive dir ch r) s = execAqueductFlitReceive dir ch r s := rfl

theorem exec_mc_arm (site : Nat) (w : McAt) (s : State) : exec (.mc site w) s = execMc site w s := rfl

variable {s t : State} {site port tc dir ch k : Nat} {p : CPkt}

/-! ## Forks -/

theorem forksAt_setForks_append (s : State) (site : Nat) (fs : List Fork) (f : Fork) : (s.setForks site (fs ++ [f])).forksAt site = fs ++ [f] := by
  simp [State.forksAt, State.setForks, tfind_tinsert_same]

/-- The entry that a packet of group `g` takes at a tree router (R335). -/
def State.newFork (s : State) (g : CGroup) (site port : Nat) (p : CPkt) : Fork :=
  let ports := s.forkPorts g site (p.tree && port == 5)
  { pkt := p, inPort := port, toSend := ports, toAck := ports, since := s.now, reported := [], first := !p.tree }

theorem here_at_tree (multicast : p.dkind = 2) (tree : p.tree = true ∨ (s.target (domeOf site) p).1 = site) : (p.dkind == 2 && (p.tree || (s.target (domeOf site) p).1 == site)) = true := by
  simpa [multicast] using tree

section ForkHead
variable {r : List CPkt} (head : s.inq site port tc = p :: r) (multicast : p.dkind = 2) (tree : p.tree = true ∨ (s.target (domeOf site) p).1 = site)
  (open_ : (s.forksAt site).any (fun f => f.inPort == port && f.pkt.tc == tc && f.toSend != []) = false)
include head multicast tree open_

/-- With all 32 entries in use the packet waits, and the cycle counts (R335). -/
theorem forkHead_of_full (full : 32 ≤ (s.forksAt site).length) : s.forkHead site port tc = s.bump (R.CNL_FORK_WAIT (domeOf site)) := by
  have here := here_at_tree multicast tree
  unfold State.forkHead
  simp only [head, here, open_, natBle, full, decide_true, Bool.true_eq_false, Bool.false_eq_true, Bool.or_self, if_true, if_false, decide_false]

/-- With a free entry the packet forks into the branches of its group's mask (R334, R335). -/
theorem forkHead_of_free {g : CGroup} (free : (s.forksAt site).length < 32) (group : tfind s.groups p.dest = some g) (branches : s.forkPorts g site (p.tree && port == 5) ≠ [])
    (inner : g.root (domeOf site) ≠ some site) :
    s.forkHead site port tc = s.setForks site (s.forksAt site ++ [s.newFork g site port p]) := by
  have here := here_at_tree multicast tree
  unfold State.forkHead
  simp only [head, here, open_, natBle, Nat.not_le.mpr free, group, branches, inner, Bool.true_eq_false, Bool.false_eq_true, Bool.or_self, if_false, decide_false]
  rfl

end ForkHead

/-- The last branch of a router's one fork is acknowledged: the entry is free and one acknowledgement goes up (R336). -/
theorem branchAcked_of_last {f : Fork} {n q : Nat} (one : s.forksAt site = [f]) (last : f.toAck = [port]) (sent : f.toSend = []) (inner : f.first = false)
    (up : s.upstream site f = some (n, q)) :
    s.branchAcked site port f.pkt.srcKey f.pkt.tag =
      { s with canal := { s.canal with forks := terase s.canal.forks site, acks := s.canal.acks ++ [(n, q, f.pkt.srcKey, f.pkt.tag)] } } := by
  have up : (s.setForks site []).upstream site f = some (n, q) := up
  unfold State.branchAcked
  simp only [one, last, sent, inner, List.find?_cons, List.contains_cons, beq_self_eq_true, Bool.and_self, Bool.true_or, List.erase_cons_head, ne_eq, not_true_eq_false, or_self,
    if_false, List.filter_cons, bne_self_eq_false, Bool.false_eq_true, List.filter_nil, up]
  rfl

/-! ## A register below one that does not read its reset value

A table is searched up to the first key past the one sought, so what is read below a key that is found does not depend on what follows it. -/

theorem tget_terase_of_below {α : Type} {d : Nat → α} {l : Table α} {x y : Nat} (found : tget d l y ≠ d y) (le : x ≤ y) (lt : y < k) : tget d (terase l k) x = tget d l x := by
  induction l with
  | nil => rfl
  | cons e r ih =>
    obtain ⟨i, v⟩ := e
    rw [tget] at found
    have before : i ≤ y := by
      refine Nat.le_of_not_lt fun past => ?_
      rw [if_neg (by omega), if_pos (by omega)] at found
      exact found rfl
    rw [terase, if_neg (by omega), if_neg (by omega), tget, tget]
    split
    · rfl
    · split
      · rfl
      · refine ih ?_
        rwa [if_neg (by omega), if_neg (by omega)] at found

theorem tget_tset_of_below {α : Type} [DecidableEq α] {d : Nat → α} {l : Table α} {x y : Nat} (found : tget d l y ≠ d y) (le : x ≤ y) (lt : y < k) (v : α) :
    tget d (tset d l k v) x = tget d l x := by
  unfold tset
  split
  · exact tget_terase_of_below found le lt
  · exact tget_tinsert_ne d l v (by omega)

theorem reg_bump_of_below {o x y : Nat} (found : s.reg y ≠ regReset y) (le : x ≤ y) (lt : y < o) (n : Nat) : (s.bump o n).reg x = s.reg x :=
  tget_tset_of_below found le lt _

/-- A direction's state and the retry limit read otherwise than at reset when they are as the obligation has them. -/
theorem aqStatus_ne_reset (up : s.aqState dir = 2) : s.reg R.CNL_AQ_STATUS ≠ regReset R.CNL_AQ_STATUS := by
  have reset : ∀ dir, fget (regReset R.CNL_AQ_STATUS) (aqStateFld dir) ≠ 2 := by
    intro dir
    unfold aqStateFld
    split <;> decide +kernel
  intro same
  refine reset dir ?_
  rw [← same]
  exact up

theorem aqCtl_ne_reset (off : s.fld R.CNL_AQ_CTL F.CNL_AQ_CTL_RETRY_LIM = 0) : s.reg R.CNL_AQ_CTL ≠ regReset R.CNL_AQ_CTL := by
  have reset : fget (regReset R.CNL_AQ_CTL) F.CNL_AQ_CTL_RETRY_LIM ≠ 0 := by decide +kernel
  intro same
  refine reset ?_
  rw [← same]
  exact off

/-! ## The exit of a crossing -/

/-- `t` finds the same groups and the same failed routers as `s`. -/
def SameRoutes (s t : State) : Prop := t.groups = s.groups ∧ ∀ x, x < 1024 → t.routerFailed x = s.routerFailed x

/-- A count of the aqueduct's leaves the failed routers while a direction is up: their registers lie below its status. -/
theorem routerFailed_bump (up : s.aqState dir = 2) {o : Nat} (count : R.CNL_AQ_STATUS < o) (n : Nat) {x : Nat} (lt : x < 1024) : (s.bump o n).routerFailed x = s.routerFailed x := by
  have below : R.CNL_FAILED (domeOf x) (x % 512 / 64) ≤ R.CNL_AQ_STATUS := by
    simp only [R.CNL_FAILED, R.CNL_AQ_STATUS, domeOf]
    omega
  rw [State.routerFailed, reg_bump_of_below (aqStatus_ne_reset up) below count]
  rfl

theorem find?_of_agree {α : Type} {p r : α → Bool} {l : List α} (agree : ∀ x ∈ l, p x = r x) : l.find? p = l.find? r := by
  induction l with
  | nil => rfl
  | cons x l ih =>
    rw [List.find?_cons, List.find?_cons, agree x List.mem_cons_self, ih fun y mem => agree y (List.mem_cons_of_mem _ mem)]

section Routes
variable (same : SameRoutes s t)
include same

theorem SameRoutes.edgeRouter {dome q : Nat} (lt : dome < 2) (reach : q < 8) (c : Nat) : t.edgeRouter dome q c = s.edgeRouter dome q c := by
  unfold State.edgeRouter
  have cong : ∀ l : List Nat, (∀ x ∈ l, x < 16) →
      l.find? (fun x => !t.routerFailed (siteAt dome (4 * (q / 2) + 3) (16 * (q % 2) + x))) = l.find? (fun x => !s.routerFailed (siteAt dome (4 * (q / 2) + 3) (16 * (q % 2) + x))) := by
    intro l bound
    refine find?_of_agree fun x mem => ?_
    rw [same.2]
    have := bound x mem
    simp only [siteAt]
    omega
  simp only
  rw [cong]
  intro x mem
  simp only [List.mem_flatMap, List.mem_range, List.mem_append] at mem
  obtain ⟨d, -, near | far⟩ := mem
  · split at near
    · simp at near; omega
    · simp at near
  · split at far
    · simp at far; omega
    · simp at far

theorem SameRoutes.target {dome : Nat} (lt : dome < 2) (p : CPkt) : t.target dome p = s.target dome p := by
  have reach : ∀ x, reachOf x < 8 := fun x => by simp only [reachOf, rowOf, colOf]; omega
  have cross : ∀ q, q < 8 → t.edgeRouter dome q p.srcCol = s.edgeRouter dome q p.srcCol := fun q small => same.edgeRouter lt small _
  have crossSite : ∀ x, t.edgeRouter dome (reachOf x) p.srcCol = s.edgeRouter dome (reachOf x) p.srcCol := fun x => cross _ (reach x)
  unfold State.target
  simp only [same.1, crossSite, cross _ (Nat.mod_lt _ (by decide : 8 > 0))]

theorem SameRoutes.aqExit {dome : Nat} (lt : dome < 2) (p : CPkt) : t.aqExit dome p = s.aqExit dome p := by
  have far : t.farSite dome p = s.farSite dome p := by
    unfold State.farSite
    simp only [same.target lt, same.1]
  have reach : ∀ x, reachOf x < 8 := fun x => by simp only [reachOf, rowOf, colOf]; omega
  unfold State.aqExit
  simp only [far, same.edgeRouter lt (reach _)]

end Routes

/-! ## What a receiver holds -/

/-- No packet leaves the far crossbar back into the aqueduct. -/
theorem aq_handOver_aqExit (s u : State) (dome : Nat) (q p : CPkt) : (s.handOver (u.aqExit dome q) p).aq = s.aq := by
  unfold State.aqExit
  dsimp only
  split
  · rfl
  · rfl

theorem handOver_kept (s : State) (h : Hop) (p : CPkt) : (s.handOver h p).regs = s.regs ∧ (s.handOver h p).mem = s.mem := by
  unfold State.handOver
  cases h
  all_goals exact ⟨rfl, rfl⟩

/-- What goes on from a receiver leaves the registers, memory, and the aqueduct but for what receivers hold. -/
theorem drainRecv_kept (k fuel : Nat) (s : State) :
    (drainRecv k fuel s).regs = s.regs ∧ (drainRecv k fuel s).mem = s.mem ∧ { (drainRecv k fuel s).aq with recv := s.aq.recv } = s.aq := by
  induction fuel generalizing s with
  | zero => exact ⟨rfl, rfl, rfl⟩
  | succ fuel ih =>
    rw [drainRecv]
    dsimp only
    split
    case h_1 q _ =>
      obtain ⟨regs, mem, aq⟩ := ih ((s.setRecv k ((s.recv k).erase q)).handOver (s.aqExit (1 - k / 64) q) q)
      obtain ⟨regs', mem'⟩ := handOver_kept (s.setRecv k ((s.recv k).erase q)) (s.aqExit (1 - k / 64) q) q
      refine ⟨regs.trans regs', mem.trans mem', ?_⟩
      rw [aq_handOver_aqExit] at aq
      calc _ = { { (drainRecv k fuel ((s.setRecv k ((s.recv k).erase q)).handOver (s.aqExit (1 - k / 64) q) q)).aq with recv := (s.setRecv k ((s.recv k).erase q)).aq.recv } with recv := s.aq.recv } := rfl
        _ = { (s.setRecv k ((s.recv k).erase q)).aq with recv := s.aq.recv } := by rw [aq]
        _ = s.aq := rfl
    case h_2 => exact ⟨rfl, rfl, rfl⟩

theorem recv_setRecv_one (s : State) (k : Nat) (p : CPkt) : (s.setRecv k [p]).recv k = [p] := by
  simp [State.recv, State.setRecv, tfind_tinsert_same]

/-- The counts of a packet that crosses: its sequence numbers and its flits (R341). -/
def State.aqCounted (s : State) (dir ch : Nat) (p : CPkt) : State :=
  State.bump { s with aq := { s.aq with txSeq := tset (fun _ => 0) s.aq.txSeq (dir * 64 + ch) ((tget (fun _ => 0) s.aq.txSeq (dir * 64 + ch) + p.flits) % 128),
                                        rxSeq := tset (fun _ => 0) s.aq.rxSeq (dir * 64 + ch) ((tget (fun _ => 0) s.aq.rxSeq (dir * 64 + ch) + p.flits) % 128) } }
    (aqCtr R.CNL_AQ_FLITS_WE dir) p.flits

theorem aqArrive_eq (s : State) (dir ch : Nat) (p : CPkt) :
    s.aqArrive dir ch p = ((s.aqCounted dir ch p).setRecv (dir * 64 + ch) (s.recv (dir * 64 + ch) ++ [p])).drainChannel (dir * 64 + ch) := rfl

/-- What a crossing leaves alone, and its sequence number. -/
theorem aqArrive_kept (s : State) (dir ch : Nat) (p : CPkt) :
    let t := s.aqArrive dir ch p
    t.regs = (s.bump (aqCtr R.CNL_AQ_FLITS_WE dir) p.flits).regs ∧ t.mem = s.mem ∧ t.aq.held = s.aq.held ∧ t.aq.replay = s.aq.replay ∧ t.aq.rxSeq = (s.aqCounted dir ch p).aq.rxSeq := by
  intro t
  obtain ⟨regs, mem, aq⟩ := drainRecv_kept (dir * 64 + ch) (((s.aqCounted dir ch p).setRecv (dir * 64 + ch) (s.recv (dir * 64 + ch) ++ [p])).recv (dir * 64 + ch)).length
    ((s.aqCounted dir ch p).setRecv (dir * 64 + ch) (s.recv (dir * 64 + ch) ++ [p]))
  have held := congrArg Aqueduct.held aq
  have replay := congrArg Aqueduct.replay aq
  have rxSeq := congrArg Aqueduct.rxSeq aq
  exact ⟨regs, mem, held, replay, rxSeq⟩

theorem aqCounted_sameRoutes (up : s.aqState dir = 2) (ch : Nat) (p : CPkt) : SameRoutes s (s.aqCounted dir ch p) :=
  ⟨rfl, fun _ lt => routerFailed_bump (s := { s with aq := _ }) up (by simp only [aqCtr, R.CNL_AQ_FLITS_WE, R.CNL_AQ_STATUS]; omega) _ lt⟩

/-- A packet that crosses to an empty receiver goes on at once where its next router has credit, and is held otherwise (R326, R341). -/
theorem aqArrive_of_empty (up : s.aqState dir = 2) (empty : s.recv (dir * 64 + ch) = []) :
    let h := s.aqExit (1 - (dir * 64 + ch) / 64) p
    let held := (s.aqCounted dir ch p).setRecv (dir * 64 + ch) [p]
    s.aqArrive dir ch p = if s.hasCredit h p = true then (held.setRecv (dir * 64 + ch) []).handOver h p else held := by
  intro h held
  have exit : held.aqExit (1 - (dir * 64 + ch) / 64) p = h := (aqCounted_sameRoutes up ch p).aqExit (t := s.aqCounted dir ch p) (by omega) p
  rw [aqArrive_eq, empty]
  exact (drainChannel_of_one (recv_setRecv_one _ _ p)).trans (by rw [exit]; rfl)

/-! ## Replays -/

/-- The replays of a channel in its present window of 1 ms, with one more (R341). -/
def State.aqReplayCount (s : State) (k : Nat) : Nat := if tget (fun _ => 0) s.aq.winStart k = s.now / 1000000 then tget (fun _ => 0) s.aq.winCount k + 1 else 1

/-- The replay counted in that window (R341). -/
def State.aqReplayed (s : State) (dir ch : Nat) : State :=
  let k := dir * 64 + ch
  State.bump { s with aq := { s.aq with winStart := tset (fun _ => 0) s.aq.winStart k (s.now / 1000000), winCount := tset (fun _ => 0) s.aq.winCount k (s.aqReplayCount k) } } (aqCtr R.CNL_AQ_RETRY_WE dir)

theorem aqReplay_eq (s : State) (dir ch : Nat) :
    let lim := (s.aqReplayed dir ch).fld R.CNL_AQ_CTL F.CNL_AQ_CTL_RETRY_LIM
    s.aqReplay dir ch = if lim ≠ 0 ∧ lim ≤ s.aqReplayCount (dir * 64 + ch) then (((s.aqReplayed dir ch).aqErr dir ch 1).setAqState dir 3).pushReinit 5 dir none else s.aqReplayed dir ch := rfl

theorem aqReplay_kept (s : State) (dir ch : Nat) : (s.aqReplay dir ch).mem = s.mem ∧ (s.aqReplay dir ch).aq.held = s.aq.held := by
  have err : ∀ (u : State) reason, (u.aqErr dir ch reason).mem = u.mem ∧ (u.aqErr dir ch reason).aq = u.aq := by
    intro u reason
    unfold State.aqErr State.record
    split
    · exact ⟨State.setFld_mem .., State.setFld_aq ..⟩
    · exact ⟨State.setReg_mem .., State.setReg_aq ..⟩
  rw [aqReplay_eq]
  split
  · obtain ⟨mem, aq⟩ := err (s.aqReplayed dir ch) 1
    have held := congrArg Aqueduct.held aq
    exact ⟨mem, held⟩
  · exact ⟨rfl, rfl⟩

theorem aqReplay_of_no_limit (off : s.fld R.CNL_AQ_CTL F.CNL_AQ_CTL_RETRY_LIM = 0) (dir ch : Nat) : s.aqReplay dir ch = s.aqReplayed dir ch := by
  have still : (s.aqReplayed dir ch).fld R.CNL_AQ_CTL F.CNL_AQ_CTL_RETRY_LIM = 0 :=
    (congrArg (fget · _) (reg_bump_of_below (s := { s with aq := _ }) (aqCtl_ne_reset off) (Nat.le_refl _) (by simp only [aqCtr, R.CNL_AQ_RETRY_WE, R.CNL_AQ_CTL]; omega) 1)).trans off
  exact if_neg fun limit => limit.1 still

/-! ## A branch that waits -/

section Stuck
variable {f : Fork}

/-- The branch through `port` of a fork is reported with its reason, in the fork and in the record of its dome (R337). -/
def State.stuck (s : State) (site port : Nat) (f : Fork) (reason : Nat) : State :=
  let d := domeOf site
  (s.setForks site ((s.forksAt site).map (fun x => if x = f then { x with reported := x.reported ++ [port] } else x))).record (R.CNL_MC_STUCK d) F.CNL_MC_STUCK_VALID F.CNL_MC_STUCK_MORE
    [(F.CNL_MC_STUCK_REASON, reason), (F.CNL_MC_STUCK_CLASS, f.pkt.tc), (F.CNL_MC_STUCK_GROUP, f.pkt.dest), (F.CNL_MC_STUCK_PORT, port), (F.CNL_MC_STUCK_SITE, site), (F.CNL_MC_STUCK_TIME, s.stamp)]

variable (waits : (s.forksAt site).find? (fun f => f.toSend.contains port && !f.reported.contains port) = some f)
include waits

theorem exec_mcBranchTimeout_of_lost (lost : ((port == 6 && s.aq.lost.contains (domeOf site)) || port == 0xF) = true) :
    exec (.mcBranchTimeout site port) s = .next ((s.stuck site port f 2).raise 0x0502 5 (domeOf site) 0 ((s.stuck site port f 2).reg (R.CNL_MC_STUCK (domeOf site))).toNat 0) := by
  simp only [exec_mcBranchTimeout_arm, execMcBranchTimeout, waits, lost, Bool.true_eq_false, and_false, if_false, if_true]
  rfl

theorem exec_mcBranchTimeout_of_going (going : ((port == 6 && s.aq.lost.contains (domeOf site)) || port == 0xF) = false)
    (set : s.fld (R.CNL_MC_CTL (domeOf site)) F.CNL_MC_CTL_TIMEOUT ≠ 0) :
    let due := ({ s with now := max s.now (f.since + s.fld (R.CNL_MC_CTL (domeOf site)) F.CNL_MC_CTL_TIMEOUT) } : State)
    let v := (due.stuck site port f 1).bump (R.CNL_MC_STUCKCNT (domeOf site))
    exec (.mcBranchTimeout site port) s = .next ((v.note 0x0501 0 5 (domeOf site) (v.reg (R.CNL_MC_STUCK (domeOf site))).toNat 0).event .mcStuck 5 (domeOf site) [f.pkt.dest, site, 1]) := by
  simp only [exec_mcBranchTimeout_arm, execMcBranchTimeout, waits, going, set, Bool.false_eq_true, false_and, if_false]
  rfl

end Stuck

/-! ## What crosses -/

section Crossing
variable (up : s.aqState dir = 2) (le : dir ≤ 1)
include up le

/-- A packet that is to be replayed crosses first, or is replayed again (R341). -/
theorem exec_aqueductFlitReceive_of_replay {r : List CPkt} (replays : s.aqReplays (dir * 64 + ch) = p :: r) :
    (exec (.aqueductFlitReceive dir ch .good) s = .next ((s.setReplays (dir * 64 + ch) r).aqArrive dir ch p) ∧
      ∀ w, exec (.aqueductFlitReceive dir ch (.corrected w)) s = .next (((s.bump (aqCtr R.CNL_AQ_CORR_WE dir) w).setReplays (dir * 64 + ch) r).aqArrive dir ch p)) ∧
    exec (.aqueductFlitReceive dir ch .bad) s = .next (s.aqReplay dir ch) := by
  have open_ : ¬(s.aqState dir ≠ 2 ∨ 1 < dir) := by omega
  refine ⟨⟨?_, fun w => ?_⟩, ?_⟩
  all_goals
    simp only [exec_aqueductFlitReceive_arm, execAqueductFlitReceive, open_, replays, if_false]
    rfl

/-- Otherwise the oldest packet crosses that the receiver has room for; a bad frame puts it into the replay buffer (R339, R340, R341). -/
theorem exec_aqueductFlitReceive_of_next {n : Nat} (none_ : s.aqReplays (dir * 64 + ch) = []) (next : s.aqNext dir ch = some (n, p)) :
    let gone := fun (v : State) => ({ v with aq := { v.aq with held := v.aq.held.erase (n, p) } } : State).freeFlits n 6 p.tc p.flits
    (exec (.aqueductFlitReceive dir ch .good) s = .next ((gone s).aqArrive dir ch p) ∧
      ∀ w, exec (.aqueductFlitReceive dir ch (.corrected w)) s = .next ((gone (s.bump (aqCtr R.CNL_AQ_CORR_WE dir) w)).aqArrive dir ch p)) ∧
    exec (.aqueductFlitReceive dir ch .bad) s = .next (((gone s).setReplays (dir * 64 + ch) [p]).aqReplay dir ch) := by
  have open_ : ¬(s.aqState dir ≠ 2 ∨ 1 < dir) := by omega
  refine ⟨⟨?_, fun w => ?_⟩, ?_⟩
  all_goals
    simp only [exec_aqueductFlitReceive_arm, execAqueductFlitReceive, open_, none_, next, if_false]
    rfl

/-- While no packet has room at the receiver the channel waits, counted where something waits to cross (R326). -/
theorem exec_aqueductFlitReceive_of_none (none_ : s.aqReplays (dir * 64 + ch) = []) (next : s.aqNext dir ch = none) (r : AqFlit) :
    exec (.aqueductFlitReceive dir ch r) s = .next (if s.aqWaits dir ch then s.bump (aqCtr R.CNL_AQ_CREDIT_WAIT_WE dir) else s) := by
  have open_ : ¬(s.aqState dir ≠ 2 ∨ 1 < dir) := by omega
  simp only [exec_aqueductFlitReceive_arm, execAqueductFlitReceive, open_, none_, next, if_false]

end Crossing

/-! ## The obligation -/

/-- Settles O29: MC and MC_ACK by the forks of their router, a crossing by what `aqArrive` and `aqReplay` write. -/
theorem multicastAndAqueduct : Obligations.MulticastAndAqueduct := by
  unfold Obligations.MulticastAndAqueduct
  intro s site
  refine ⟨?fork, ?deliver, ?acked, ?source, ?timeout, ?cross⟩
  case fork =>
    intro port tc p r g head multicast tree open_
    refine ⟨fun full => congrArg Host.Outcome.next (forkHead_of_full head multicast tree open_ full), fun free group branches inner => ?_⟩
    refine ⟨_, congrArg Host.Outcome.next (forkHead_of_free head multicast tree open_ free group branches inner), forksAt_setForks_append .., rfl, rfl, rfl⟩
  case deliver =>
    intro p oldest
    rw [exec_mc_arm, execMc, oldest]
  case acked =>
    rintro port src tag f waits one rfl rfl last sent inner n q up
    have acked := branchAcked_of_last (s := { s with canal := { s.canal with acks := s.canal.acks.erase (site, port, f.pkt.srcKey, f.pkt.tag) } }) one last sent inner up
    exact ⟨_, (congrArg Host.Outcome.next (if_pos waits)).trans (congrArg Host.Outcome.next acked), rfl, rfl, rfl, rfl⟩
  case source =>
    intro p here typ spire
    have row : exec (.mcAck (.source p)) s = .next (s.mcDone p) := congrArg Host.Outcome.next (if_pos (by rw [here, typ]; rfl))
    rw [row, State.mcDone, if_pos spire]
  case timeout =>
    intro port f d waits dead lim rec_
    refine ⟨fun lost => exec_mcBranchTimeout_of_lost waits lost, fun going set => exec_mcBranchTimeout_of_going waits going set⟩
  case cross =>
    intro dir ch le up k goes
    refine ⟨fun p r replays => exec_aqueductFlitReceive_of_replay up le replays, fun n p none_ next => exec_aqueductFlitReceive_of_next up le none_ next,
      fun r none_ next => exec_aqueductFlitReceive_of_none up le none_ next r, fun p => ?_, ?_⟩
    · obtain ⟨regs, mem, held, replay, rxSeq⟩ := aqArrive_kept s dir ch p
      refine ⟨regs, mem, held, replay, fun wf => ?_, fun empty => ?_⟩
      · rw [rxSeq]
        exact (tget_tset wf k k _).trans (if_pos rfl)
      · refine ⟨fun none_ => ?_, fun n q next credit => ?_⟩
        · rw [(aqArrive_of_empty up empty).trans (if_neg (by rw [none_]; exact Bool.false_ne_true))]
          exact ⟨recv_setRecv_one .., rfl⟩
        · rw [(aqArrive_of_empty up empty).trans (if_pos credit), next]
          exact inq_handOver_router ..
    · obtain ⟨mem, held⟩ := aqReplay_kept s dir ch
      exact ⟨mem, held, fun off => by rw [aqReplay_of_no_limit off]; rfl⟩

end Sys2Proof.Machine
end

section
/-!
PROOFS of the family 12_links_and_pods: stops between modules, and mirroring (O34).
-/
namespace Sys2Proof.Machine

open Sys2Proof

theorem exec_stop_arm (n : Nat) (p : LPkt) (s : State) : exec (.stop n p) s = execStop n p s := rfl

theorem exec_mirrorChunkCopy_arm (c : Nat) (s : State) : exec (.mirrorChunkCopy c) s = execMirrorChunkCopy c s := rfl

theorem exec_mirrorEpochComplete_arm (s : State) : exec (.mirrorEpochComplete) s = execMirrorEpochComplete s := rfl

theorem exec_mirrorCommit_arm (n : Nat) (p : LPkt) (s : State) : exec (.mirrorCommit n p) s = execMirrorCommit n p s := rfl

theorem exec_mirrorAck_arm (n : Nat) (p : LPkt) (s : State) : exec (.mirrorAck n p) s = execMirrorAck n p s := rfl

variable {s : State} {n c : Nat} {p : LPkt}

/-! ## Stops -/

section Stop
variable {kind src job : Nat} (here : s.pod.io.inbox.contains (n, p) = true) (stop : p.body = .stop kind src job)
include here stop

/-- A further copy of a stop does nothing (R373). -/
theorem exec_stop_of_seen (seen : s.errs.stopsSeen.contains p.id = true) : exec (.stop n p) s = .next (s.takeInbox n p) := by
  have seen : (s.takeInbox n p).errs.stopsSeen.contains p.id = true := seen
  simp only [exec_stop_arm, execStop, here, stop, seen, if_true]

/-- The first copy, noted, forwarded on one link of every group and counted (R373). -/
def State.stopForwarded (s : State) (n : Nat) (p : LPkt) : State :=
  let u := s.takeInbox n p
  (({ u with errs := { u.errs with stopsSeen := s.errs.stopsSeen ++ [p.id] } } : State).flood p.id p.body).bump R.ERR_STOPS_RECV

variable (new : s.errs.stopsSeen.contains p.id = false)
include new

theorem exec_stop_of_new : exec (.stop n p) s = .next (let v := s.stopForwarded n p
    if (v.jobState != 0 && (kind == 1 || job == (v.reg R.ERR_JOB_ID).toNat)) = false then v
    else ((((if v.jobState == 1 then v.beginStop p.id src else v.stopRollback).putRecord 0x0006 2 0 0 0 p.id src 0 0 p.id).noticeStop p.id src (v.jobState == 1)).settleStop)) := by
  have new : (s.takeInbox n p).errs.stopsSeen.contains p.id = false := new
  simp only [exec_stop_arm, execStop, here, stop, new, Bool.false_eq_true, if_false]
  rw [State.stopForwarded, stop]
  split
  · rename_i other
    exact (congrArg Host.Outcome.next (if_pos other)).symm
  · rename_i mine
    exact (congrArg Host.Outcome.next (if_neg mine)).symm

/-- Without a job the module does nothing else (R557). -/
theorem exec_stop_of_no_job (idle : (s.stopForwarded n p).jobState = 0) : exec (.stop n p) s = .next (s.stopForwarded n p) := by
  rw [exec_stop_of_new here stop new]
  exact congrArg Host.Outcome.next (if_pos (by rw [idle]; rfl))

/-- A stop of the RUNNING job stops it (R555). -/
theorem exec_stop_of_running (running : (s.stopForwarded n p).jobState = 1) (mine : kind = 1 ∨ job = ((s.stopForwarded n p).reg R.ERR_JOB_ID).toNat) :
    exec (.stop n p) s = .next (((((s.stopForwarded n p).beginStop p.id src).putRecord 0x0006 2 0 0 0 p.id src 0 0 p.id).noticeStop p.id src true).settleStop) := by
  have mine : ((s.stopForwarded n p).jobState != 0 && (kind == 1 || job == ((s.stopForwarded n p).reg R.ERR_JOB_ID).toNat)) = true := by simpa [running] using mine
  rw [exec_stop_of_new here stop new]
  refine congrArg Host.Outcome.next ((if_neg (by rw [mine]; exact Bool.noConfusion)).trans ?_)
  rw [running]
  rfl

end Stop

/-! ## Mirroring -/

section Mirror
variable {pos e : Nat} (partner : s.partnerPos = some pos)
include partner

theorem exec_mirrorChunkCopy_of_closing (closing : s.mirror.closing = some e) (in_ : s.mirror.c.contains c = true) : exec (.mirrorChunkCopy c) s = .next (s.copyClosing c) := by
  simp only [exec_mirrorChunkCopy_arm, execMirrorChunkCopy, partner, closing, in_, reduceCtorEq, if_false, Option.isSome_some, if_true]

/-- The dirty chunk of the open epoch that is sent no longer counts as dirty (R376). -/
def State.chunkCleared (s : State) (c : Nat) : State :=
  let slot := s.mirror.openEpoch % 2
  let m := s.mirror.setDirty slot ((s.mirror.dirty slot).filter (fun x => x != c))
  { s with mirror := { m with fullLeft := m.fullLeft.filter (fun x => x != c) } }

omit partner in
theorem openEpoch_chunkCleared (s : State) (c : Nat) : (s.chunkCleared c).mirror.openEpoch = s.mirror.openEpoch := by
  simp only [State.chunkCleared, Mirror.setDirty]
  split
  · rfl
  · rfl

theorem exec_mirrorChunkCopy_of_open (none_ : s.mirror.closing = none) (open_ : s.mirror.openEpoch ≠ 0) (dirty : (s.mirror.dirty (s.mirror.openEpoch % 2)).contains c = true) :
    exec (.mirrorChunkCopy c) s = .next ((s.chunkCleared c).sendChunk s.mirror.openEpoch c) := by
  rw [← openEpoch_chunkCleared s c]
  simp only [exec_mirrorChunkCopy_arm, execMirrorChunkCopy, partner, none_, open_, dirty, reduceCtorEq, if_false, Option.isSome_none, Bool.false_eq_true, Bool.true_or, if_true]
  rfl

omit partner in
theorem dirty_chunkCleared (s : State) (c : Nat) :
    (s.chunkCleared c).mirror.dirty (s.mirror.openEpoch % 2) = (s.mirror.dirty (s.mirror.openEpoch % 2)).filter (fun x => x != c) := by
  simp only [State.chunkCleared, Mirror.setDirty, Mirror.dirty]
  split
  · rfl
  · rfl

theorem exec_mirrorEpochComplete_of_sent (closing : s.mirror.closing = some e) (sent : s.mirror.c = []) (acked : s.mirror.inFlight = []) (first : s.mirror.commitSent = false) :
    let u := ({ s with mirror := { s.mirror with commitSent := true } } : State)
    exec .mirrorEpochComplete s = .next (u.sendL (u.lpkt 3 pos (e % 2) (.mirrorCommit (e % 2) e s.mirror.closeTime s.mirror.closeSpec))) := by
  simp only [exec_mirrorEpochComplete_arm, execMirrorEpochComplete, closing, partner, sent, acked, first, and_self, if_true]

end Mirror

section Partner
variable {slot e : Nat} (here : s.pod.io.inbox.contains (n, p) = true)
include here

theorem exec_mirrorCommit_of_packet {tc sp : Nat} (commit : p.body = .mirrorCommit slot e tc sp) :
    let u := s.takeInbox n p
    let v := ({ u with jnl := { u.jnl with mirEpoch := e, mirSlot := slot, mirClose := tc, mirSpec := sp } } : State)
    exec (.mirrorCommit n p) s = .next (v.writeMirrorRecord.sendL (v.lpkt 3 p.srcPos slot (.mirrorAck slot e)) (n / 24)) := by
  simp only [exec_mirrorCommit_arm, execMirrorCommit, here, commit]

/-- The acknowledged epoch is closed, before it is shown and reported (R377). -/
def State.mirrorAcked (s : State) (n : Nat) (p : LPkt) : State :=
  let u := s.takeInbox n p
  { u with mirror := { u.mirror with closing := none, commitSent := false, full := if u.mirror.fullLeft = [] then false else u.mirror.full } }

theorem exec_mirrorAck_of_packet (ack : p.body = .mirrorAck slot e) (closing : s.mirror.closing = some e) (sent : s.mirror.commitSent = true) :
    exec (.mirrorAck n p) s = .next ((((s.mirrorAcked n p).setReg R.LNK_MIR_EPOCH (BitVec.ofNat 64 e)).showMirror).event .mirrorCommitted 0 0 [e % 2 ^ 32, e / 2 ^ 32, slot]) := by
  have waits : (s.takeInbox n p).mirror.closing = some e ∧ (s.takeInbox n p).mirror.commitSent = true := ⟨closing, sent⟩
  simp only [exec_mirrorAck_arm, execMirrorAck, here, ack, waits, and_self, if_true]
  rfl

omit here in
theorem mirrorAcked_shows (form : InForm s) (n e : Nat) (p : LPkt) :
    let v := ((s.mirrorAcked n p).setReg R.LNK_MIR_EPOCH (BitVec.ofNat 64 e)).showMirror
    v.mirror.closing = none ∧ v.reg R.LNK_MIR_EPOCH = BitVec.ofNat 64 e ∧ v.mem = s.mem := by
  have closed : InForm (s.mirrorAcked n p) := form
  intro v
  refine ⟨?_, ?_, ?_⟩
  · exact (congrArg Mirror.closing (State.setFlds_mirror ..)).trans (congrArg Mirror.closing (State.setReg_mirror ..))
  · exact (State.reg_setReg_ne (State.inv_setReg closed ..) _ (by decide)).trans (State.reg_setReg_same closed ..)
  · exact (State.setFlds_mem ..).trans (State.setReg_mem ..)

end Partner

/-! ## The obligation -/

/-- Settles O34: each row is one branch of its operation. -/
theorem stopsAndMirror : Obligations.StopsAndMirror := by
  unfold Obligations.StopsAndMirror
  intro s
  refine ⟨fun n p kind src job here stop => ⟨exec_stop_of_seen here stop, fun new => ?first⟩, fun stopping => if_pos stopping,
    fun pos partner => ⟨fun c e => exec_mirrorChunkCopy_of_closing partner, fun c none_ open_ dirty => ?open_, fun e => exec_mirrorEpochComplete_of_sent partner⟩,
    fun n p here => ⟨fun slot e tc sp => exec_mirrorCommit_of_packet here, fun slot e form ack closing sent => ⟨_, exec_mirrorAck_of_packet here ack closing sent, mirrorAcked_shows form n e p⟩⟩⟩
  case first =>
    have forwarded : s.stopForwarded n p = ((({ s.takeInbox n p with errs := { (s.takeInbox n p).errs with stopsSeen := s.errs.stopsSeen ++ [p.id] } } : State).flood p.id (.stop kind src job)).bump R.ERR_STOPS_RECV) := by
      rw [State.stopForwarded, stop]
    intro v
    have named : v = s.stopForwarded n p := forwarded.symm
    rw [named]
    exact ⟨exec_stop_of_no_job here stop new, exec_stop_of_running here stop new⟩
  case open_ => exact ⟨_, exec_mirrorChunkCopy_of_open partner none_ open_ dirty, dirty_chunkCleared s c, rfl, rfl⟩

end Sys2Proof.Machine
end

section
/-!
PROOFS of the family 16_host_commands: two PAIR commands under one DSEQ (O46).
-/
namespace Sys2Proof.Machine

open Sys2Proof

/-- A PAIR of queue 0 that holds a slot and has not started. -/
def freshPair : Cmd :=
  { dseq := 1, queue := 0, seq := 0, pos := 0, cls := 0, opcode := 0x0405, quiet := false, ordered := false, pkt := 0, tAccept := 0, waitLimit := 0, slot := 1, attempted := false, delayed := none,
    started := false, tStart := 0, fwd := 0, data := [] }

/-- The registers and memory of reset, and that PAIR beside a started one that was admitted under the same DSEQ: nothing in the canonical form keeps the DSEQ of two commands apart. -/
def pairedTwice : State := { State.reset with hcp := { State.reset.hcp with cmds := [freshPair, { freshPair with started := true }] } }

/-- Whether every admitted command has started after a command. -/
def allStartedAfter (o : Host.Outcome State Fault Refusal) : Bool := match o with | .next u => u.hcp.cmds.all (fun c => c.started) | _ => false

/-- The fresh PAIR may start; the row finds the started one, which waits for its partner, and leaves the fresh one as it is, where `startCmd` would start it. -/
theorem pair_leaves_fresh :
    Starts pairedTwice 1 0x0405 freshPair ∧ allStartedAfter (exec (.pair 1 .none) pairedTwice) = false ∧ allStartedAfter (.next (pairedTwice.startCmd freshPair 0)) = true := by
  decide +kernel

/-- Refutes O46: a PAIR that may start is not started where a PAIR of the same DSEQ has started already. -/
theorem not_jobCommands : ¬ Obligations.JobCommands := by
  unfold Obligations.JobCommands
  rintro ⟨commands, -⟩
  have form : InForm pairedTwice := resetForm.1
  obtain ⟨-, -, -, -, pair, -⟩ := commands pairedTwice 1 freshPair form
  obtain ⟨starts, leaves, would⟩ := pair_leaves_fresh
  rw [pair starts, would] at leaves
  exact Bool.noConfusion leaves

end Sys2Proof.Machine
end

section
/-!
PROOFS of the family 13_collectives_and_exchange: what a running collective does (O35).
-/
namespace Sys2Proof.Machine

open Sys2Proof

theorem exec_readyPoll_arm (q : Nat) (s : State) : exec (.readyPoll q) s = execReadyPoll q s := rfl

theorem exec_bucketStart_arm (q : Nat) (s : State) : exec (.bucketStart q) s = execBucketStart q s := rfl

theorem exec_coalesceTimeout_arm (q : Nat) (s : State) : exec (.coalesceTimeout q) s = execCoalesceTimeout q s := rfl

theorem exec_collectiveCompletion_arm (q : Nat) (s : State) : exec (.collectiveCompletion q) s = execCollectiveCompletion q s := rfl

theorem exec_collectiveStall_arm (q : Nat) (s : State) : exec (.collectiveStall q) s = execCollectiveStall q s := rfl

theorem exec_congestionWindow_arm (q : Nat) (s : State) : exec (.congestionWindow q) s = execCongestionWindow q s := rfl

theorem exec_collectiveStart_arm (q : Nat) (s : State) : exec (.collectiveStart q) s = execCollectiveStart q s := rfl

/-! A going collective has its queue, and its addresses are ready. -/

theorem collAt_of_going {s : State} {q : Nat} {c : Coll} (going : s.going q = some c) : s.collAt q = some c := by
  unfold State.going at going
  split at going
  next c' held =>
    split at going
    · exact held.trans going
    · exact absurd going (Option.some_ne_none c).symm
  next => exact absurd going (Option.some_ne_none c).symm

theorem collAt_setColl (s : State) (q : Nat) (c : Coll) : (s.setColl q c).collAt q = some c := tfind_tinsert_same ..

@[simp] theorem collAt_bump (s : State) (o n q : Nat) : (s.bump o n).collAt q = s.collAt q := rfl

/-! What the engine sees of a collective, poll by poll (R397). -/

/-- A collective after a poll at a time that found its next bucket ready or not. -/
def Coll.polled (c : Coll) (now : Nat) (hit : Bool) : Coll :=
  if hit then { c with lastPoll := now, ready := c.ready + 1, readySince := if c.ready = c.started then now else c.readySince } else { c with lastPoll := now }

theorem Coll.polled_lastPoll (c : Coll) (now : Nat) (hit : Bool) : (c.polled now hit).lastPoll = now := by cases hit <;> rfl

theorem Coll.polled_ready (c : Coll) (now : Nat) (hit : Bool) : (c.polled now hit).ready = if hit then c.ready + 1 else c.ready := by cases hit <;> rfl

/-- The state at the time of the poll that follows the last. -/
def State.pollTime (s : State) (last : Nat) : State := { s with now := max s.now (last + max 50 (s.fld R.LNK_CE_CTL F.LNK_CE_CTL_POLL_NS)) }

/-- Whether the ready word of the next bucket shows it ready. -/
def State.pollHit (s : State) (c : Coll) : Bool := s.jobLE (descAt c.d 48 8 + 8 * c.ready) 4 == descAt c.d 80 4

theorem exec_readyPoll {s : State} {q : Nat} {c : Coll} (going : s.going q = some c)
    (polls : (dToken c.d || dOp c.d == 5 || descAt c.d 48 8 == 0 || Nat.ble (dBuckets c.d) c.ready) = false) :
    exec (.readyPoll q) s = .next (((s.pollTime c.lastPoll).setColl q (c.polled (s.pollTime c.lastPoll).now ((s.pollTime c.lastPoll).pollHit c))).bump R.LNK_CE_POLLS) := by
  simp only [exec_readyPoll_arm, execReadyPoll, going, polls, Bool.false_eq_true, if_false]
  rfl

theorem readyPoll_finds {s : State} {q : Nat} {c : Coll} (going : s.going q = some c)
    (polls : (dToken c.d || dOp c.d == 5 || descAt c.d 48 8 == 0 || Nat.ble (dBuckets c.d) c.ready) = false) :
    ∃ t, exec (.readyPoll q) s = .next t ∧
      t.now = max s.now (c.lastPoll + max 50 (s.fld R.LNK_CE_CTL F.LNK_CE_CTL_POLL_NS)) ∧ t.regs = (s.bump R.LNK_CE_POLLS).regs ∧ t.mem = s.mem ∧
      ∀ u, s.collAt q = some c → u = ({ s with now := t.now } : State) → ∃ c', t.collAt q = some c' ∧ c'.lastPoll = t.now ∧
        c'.ready = (if u.jobLE (descAt c.d 48 8 + 8 * c.ready) 4 = descAt c.d 80 4 then c.ready + 1 else c.ready) := by
  refine ⟨_, exec_readyPoll going polls, rfl, rfl, rfl, ?_⟩
  rintro u - rfl
  refine ⟨_, (collAt_bump ..).trans (collAt_setColl ..), Coll.polled_lastPoll .., (Coll.polled_ready ..).trans ?_⟩
  exact ite_congr (propext beq_iff_eq) (fun _ => rfl) (fun _ => rfl)

/-! The start of buckets (R398, R400). -/

section Buckets

variable {s : State} {q : Nat} {c : Coll} (going : s.going q = some c) (ring : dToken c.d = false) (notV : dOp c.d ≠ 5) (ready : c.started < c.ready)

include going ring notV ready

theorem exec_bucketStart : exec (.bucketStart q) s = if c.bucketed = false then .next (if c.rings.length < 8 then s.startGroup q c.started 1 false else s) else
    .next (if max 1 (s.fld R.LNK_CE_CTL F.LNK_CE_CTL_COALESCE) ≤ c.ready - c.started then s.startGroup q c.started (max 1 (s.fld R.LNK_CE_CTL F.LNK_CE_CTL_COALESCE)) true
      else if c.ready = dBuckets c.d then s.startGroup q c.started (c.ready - c.started) true else s) := by
  have some : (c.ready - c.started == 0) = false := beq_eq_false_iff_ne.mpr (Nat.sub_ne_zero_of_lt ready)
  simp only [exec_bucketStart_arm, execBucketStart, going, ring, beq_eq_false_iff_ne.mpr notV, some, Bool.or_false, Bool.false_eq_true, if_false]

theorem bucketStart_streamed (streamed : c.bucketed = false) : exec (.bucketStart q) s = .next (if c.rings.length < 8 then s.startGroup q c.started 1 false else s) :=
  (exec_bucketStart going ring notV ready).trans (if_pos streamed)

theorem bucketStart_bucketed (bucketed : c.bucketed = true) :
    exec (.bucketStart q) s = .next (if max 1 (s.fld R.LNK_CE_CTL F.LNK_CE_CTL_COALESCE) ≤ c.ready - c.started then s.startGroup q c.started (max 1 (s.fld R.LNK_CE_CTL F.LNK_CE_CTL_COALESCE)) true
      else if c.ready = dBuckets c.d then s.startGroup q c.started (c.ready - c.started) true else s) :=
  (exec_bucketStart going ring notV ready).trans (if_neg (Bool.not_eq_false _ ▸ bucketed))

theorem exec_coalesceTimeout (bucketed : c.bucketed = true) :
    exec (.coalesceTimeout q) s = .next (({ s with now := max s.now (c.readySince + 1000 * s.fld R.LNK_CE_CTL2 F.LNK_CE_CTL2_COALESCE_US) } : State).startGroup q c.started
      (min (max 1 (s.fld R.LNK_CE_CTL F.LNK_CE_CTL_COALESCE)) (c.ready - c.started)) true) := by
  have some : Nat.ble c.ready c.started = false := by rw [Bool.eq_false_iff, ne_eq, Nat.ble_eq]; omega
  simp only [exec_coalesceTimeout_arm, execCoalesceTimeout, going, ring, beq_eq_false_iff_ne.mpr notV, bucketed, some, beq_eq_false_iff_ne.mpr (Bool.noConfusion : true ≠ false), Bool.or_false, Bool.false_eq_true,
    if_false]
  rfl

end Buckets

/-! The error register of the engine while a collective ends. The state need not be in canonical form: what keeps the register is that it is listed, and that every other write leaves a listed
register as it is. -/

theorem tfind_terase_ne_of_listed {α : Type} {t : Table α} {k j : Nat} {v : α} (h : tfind t j = some v) (ne : j ≠ k) : tfind (terase t k) j = some v := by
  induction t with
  | nil => exact h
  | cons e r ih =>
    simp only [tfind] at h
    simp only [terase]
    split
    next same =>
      rw [if_neg (by omega)] at h
      split at h
      · exact absurd h (by simp)
      · exact h
    next differs =>
      split
      · simpa only [tfind] using h
      · simp only [tfind]
        split at h
        next same => rwa [if_pos same]
        next apart =>
          rw [if_neg apart]
          split at h
          · exact absurd h (by simp)
          next above => rw [if_neg above, ih h]

theorem tfind_tset_ne_of_listed {α : Type} [DecidableEq α] {d : Nat → α} {t : Table α} {k j : Nat} {v : α} (w : α) (h : tfind t j = some v) (ne : j ≠ k) : tfind (tset d t k w) j = some v := by
  unfold tset
  split
  · exact tfind_terase_ne_of_listed h ne
  · exact (tfind_tinsert_ne t w ne).trans h

theorem tget_of_listed {α : Type} {d : Nat → α} {t : Table α} {k : Nat} {v : α} (h : tfind t k = some v) : tget d t k = v := by
  induction t with
  | nil => exact absurd h (by simp [tfind])
  | cons e r ih =>
    simp only [tfind] at h
    simp only [tget]
    split at h
    next same => rw [if_pos same, Option.some.inj h]
    next apart =>
      rw [if_neg apart]
      split at h
      · exact absurd h (by simp)
      next above => rw [if_neg above, ih h]

/-- The error register of the engine is listed with this value. -/
def ErrorListed (v : Word) (r : Table Word) : Prop := tfind r R.LNK_CE_ERR = some v

abbrev EngineError (v : Word) (s : State) : Prop := ErrorListed v s.regs

theorem EngineError.reg {v : Word} {s : State} (h : EngineError v s) : s.reg R.LNK_CE_ERR = v := tget_of_listed h

theorem engineError_setReg_same (s : State) {v : Word} (listed : v ≠ 0) : EngineError v (s.setReg R.LNK_CE_ERR v) := by
  have other : v ≠ regReset R.LNK_CE_ERR := by
    rwa [show regReset R.LNK_CE_ERR = 0 by decide]
  unfold EngineError ErrorListed State.setReg tset
  rw [if_neg other]
  exact tfind_tinsert_same ..

theorem ne_zero_of_fget {w : Word} {f : Fld} {x : Nat} (h : fget w f = x + 1) : w ≠ 0 := by
  rintro rfl
  simp [fget] at h

/-- A record of the engine lists its register, whatever it held. -/
theorem engineError_ceErr (s : State) (reason queue collId : Nat) : EngineError ((s.ceErr reason queue collId).reg R.LNK_CE_ERR) (s.ceErr reason queue collId) := by
  have listed : ∃ v, EngineError v (s.ceErr reason queue collId) := by
    unfold State.ceErr State.record
    split
    · exact ⟨_, engineError_setReg_same s (ne_zero_of_fget (fget_fset_same _ _ 1 (by decide) (by decide)))⟩
    · refine ⟨_, engineError_setReg_same s (ne_zero_of_fget (f := F.LNK_CE_ERR_VALID) (x := 0) ?_)⟩
      simp only [List.foldl_cons, List.foldl_nil]
      iterate 4 rw [fget_fset_apart _ _ (by decide) (by decide) (by decide) (by decide)]
      exact fget_fset_same _ _ 1 (by decide) (by decide)
  obtain ⟨v, h⟩ := listed
  rwa [h.reg]

section EngineError

variable {v : Word} {s : State}

theorem EngineError.setReg (h : EngineError v s) {o : Nat} (w : Word) (other : R.LNK_CE_ERR ≠ o) : EngineError v (s.setReg o w) := tfind_tset_ne_of_listed w h other

theorem EngineError.setFld (h : EngineError v s) {o : Nat} (f : Fld) (x : Nat) (other : R.LNK_CE_ERR ≠ o) : EngineError v (s.setFld o f x) := h.setReg _ other

theorem EngineError.setFlds (h : EngineError v s) {o : Nat} (l : List (Fld × Nat)) (other : R.LNK_CE_ERR ≠ o) : EngineError v (s.setFlds o l) := h.setReg _ other

theorem EngineError.bump (h : EngineError v s) {o : Nat} (n : Nat) (other : R.LNK_CE_ERR ≠ o) : EngineError v (s.bump o n) := h.setReg _ other

theorem EngineError.ite {c : Prop} [Decidable c] {a b : State} (ha : EngineError v a) (hb : EngineError v b) : EngineError v (if c then a else b) := by
  split
  · exact ha
  · exact hb

/-! Records of the state that hold no register. -/

theorem EngineError.hcp (h : EngineError v s) (x : Hcp) : EngineError v { s with hcp := x } := h
theorem EngineError.pod (h : EngineError v s) (x : Pod) : EngineError v { s with pod := x } := h
theorem EngineError.mirror (h : EngineError v s) (x : Mirror) : EngineError v { s with mirror := x } := h
theorem EngineError.bsn (h : EngineError v s) (x : Basin) : EngineError v { s with bsn := x } := h
theorem EngineError.coll (h : EngineError v s) (x : Engine16) : EngineError v { s with coll := x } := h
theorem EngineError.stepEnd (h : EngineError v s) (x : Option StepEnd) : EngineError v { s with stepEnd := x } := h
theorem EngineError.jnl (h : EngineError v s) (x : Journal) : EngineError v { s with jnl := x } := h
theorem EngineError.graphs (h : EngineError v s) (x : Table Graph) : EngineError v { s with graphs := x } := h
theorem EngineError.setQueue (h : EngineError v s) (q : Nat) (x : Queue) : EngineError v (s.setQueue q x) := h
theorem EngineError.vector (h : EngineError v s) (n : Nat) : EngineError v (s.vector n) := h
theorem EngineError.setCmd (h : EngineError v s) (c : Cmd) : EngineError v (s.setCmd c) := h

/-! A write to memory reads a held chunk first; a packet sent changes the pod alone. -/

theorem EngineError.sendLD (h : EngineError v s) (p : LPkt) (bs : List Byte) (half : Nat) : EngineError v (s.sendLD p bs half) := by
  obtain ⟨q, e⟩ := sendW_eq s { pkt := p, data := bs, half := half }
  rw [State.sendLD, e]
  exact h

theorem EngineError.sendChunk (h : EngineError v s) (n c : Nat) : EngineError v (s.sendChunk n c) := by
  unfold State.sendChunk
  split
  · unfold State.openStream
    exact ((((h.mirror _).bump _ (by decide))).pod _).sendLD _ _ _
  · exact h

theorem EngineError.copyClosing (h : EngineError v s) (c : Nat) : EngineError v (s.copyClosing c) := by
  unfold State.copyClosing State.showMirror State.releaseMirror
  split
  · exact ((((h.mirror _).sendChunk _ c).bump (o := R.LNK_MIR_WAIT_NS) _ (by decide)).mirror _).setFlds _ (by decide)
  · exact h

theorem EngineError.showCapture (h : EngineError v s) : EngineError v s.showCapture := by
  unfold State.showCapture
  split
  · exact h.setFlds _ (by decide)
  · exact h.setReg _ (by decide)

theorem EngineError.captureChunk (h : EngineError v s) (c : Nat) : EngineError v (s.captureChunk c) := by
  unfold State.captureChunk State.releaseCapture
  split
  · refine EngineError.bump ?_ _ (by decide)
    split
    · exact (((h.bsn _).bump (o := R.BSN_CAPTURE_WAIT_NS) _ (by decide)).bsn _).showCapture
    · exact h.bsn _
  · exact h

theorem EngineError.store (h : EngineError v s) (a : Nat) (bs : List Byte) : EngineError v (s.store a bs) := by
  change EngineError v (s.readFirst a bs.length)
  unfold State.readFirst
  refine List.foldlRecOn _ _ h fun u ih c _ => ?_
  have copied : EngineError v (if u.mirror.c.contains c then u.copyClosing c else u) := (ih.copyClosing c).ite ih
  exact (copied.captureChunk c).ite copied

theorem EngineError.storeRuns (h : EngineError v s) (rs : List (Nat × Nat)) (bs : List Byte) : EngineError v (storeRuns rs bs s) := by
  induction rs generalizing s bs with
  | nil => exact h
  | cons r rs ih => exact ih (h.store _ _) _

theorem EngineError.jobStore (h : EngineError v s) (va : Nat) (bs : List Byte) : EngineError v (s.jobStore va bs) := by
  unfold State.jobStore
  split
  · exact h.storeRuns ..
  · exact h

/-! Entries of commands and events. -/

theorem ceErr_ne_cqStatus (q : Nat) : R.LNK_CE_ERR ≠ R.HCP_Q_STATUS q := by
  simp only [R.HCP_Q_STATUS, R.LNK_CE_ERR]
  omega

theorem EngineError.signalQueue (h : EngineError v s) (q : Nat) : EngineError v (s.signalQueue q) := by
  unfold State.signalQueue
  exact ((h.setQueue q _).vector _).ite (h.setQueue q _)

theorem EngineError.cqWrite (h : EngineError v s) (q : Nat) (e : CqEntry) : EngineError v (s.cqWrite q e) := by
  unfold State.cqWrite
  refine (EngineError.signalQueue ?_ q).ite ?_
  all_goals exact ((((h.hcp _).store _ _).ite (h.hcp _)).setFld _ _ (ceErr_ne_cqStatus q)).setQueue q _

theorem EngineError.cqPost (h : EngineError v s) (q : Nat) (e : CqEntry) : EngineError v (s.cqPost q e) := by
  have lost : R.LNK_CE_ERR ≠ if e.disp = .event then R.HCP_EVT_LOST else R.HCP_CQ_DROP := by split <;> decide
  unfold State.cqPost
  exact (h.bump _ lost).ite ((h.cqWrite q e).ite ((h.setQueue q _).ite (((h.bump _ (by decide)).setQueue q _).ite (h.setQueue q _))))

theorem EngineError.replyTo (h : EngineError v s) (pos q fwd : Nat) (e : CqEntry) : EngineError v (s.replyTo pos q fwd e) := by
  unfold State.replyTo
  exact (h.cqPost q e).ite (h.sendLD ..)

theorem EngineError.postModule (h : EngineError v s) (e : CqEntry) : EngineError v (s.postModule e) := by
  unfold State.postModule
  exact ((h.bump _ (by decide)).ite (h.cqPost _ e)).ite (h.sendLD ..)

theorem EngineError.event (h : EngineError v s) (ev : Event) (kind idx : Nat) (d : List Nat) (dst : Option (Nat × Nat × Nat)) : EngineError v (s.event ev kind idx d dst) := by
  unfold State.event
  dsimp only
  split
  · exact (h.hcp _).replyTo ..
  · exact (h.hcp _).postModule _

theorem EngineError.jUpdate (h : EngineError v s) (id : Nat) (f : JEntry → JEntry) : EngineError v (s.jUpdate id f) := by
  unfold State.jUpdate
  dsimp only
  split
  · exact h.ite (h.jnl _)
  · exact h

theorem EngineError.showSlots (h : EngineError v s) : EngineError v s.showSlots := by
  unfold State.showSlots
  exact h.setFlds _ (by decide)

theorem EngineError.regrant (h : EngineError v s) : EngineError v s.regrant := by
  unfold State.regrant
  split
  · exact ((h.setCmd _).showSlots).ite (((h.setCmd _).showSlots).ite h.showSlots)
  · exact h.showSlots

theorem EngineError.finishCmd (h : EngineError v s) (id : Nat) (st : Status) (r : List Nat) : EngineError v (s.finishCmd id st r) := by
  unfold State.finishCmd
  split
  · exact h
  · exact (((h.jUpdate ..).replyTo ..).hcp _).regrant

/-! The end of what a collective answers to. -/

theorem EngineError.closeGraph (h : EngineError v s) (g : Nat) : EngineError v (s.closeGraph g) := by
  unfold State.closeGraph
  split
  · exact h
  · dsimp only
    split
    · exact h.ite ((h.graphs _).finishCmd ..)
    · exact h.ite ((h.graphs _).finishCmd ..)

theorem EngineError.nodeDone (h : EngineError v s) (g k : Nat) (st : Status) (r : List Nat) : EngineError v (s.nodeDone g k st r) := by
  unfold State.nodeDone
  split
  · exact h
  · split
    · exact h
    · refine EngineError.closeGraph ?_ g
      split
      · exact ((h.graphs _).replyTo ..).ite (h.graphs _)
      · exact h.graphs _

theorem EngineError.ended (h : EngineError v s) (cmd : Option Nat) (node : Option (Nat × Nat)) (st : Status) (r : List Nat) : EngineError v (s.ended cmd node st r) := by
  have finished : EngineError v (match cmd with | some id => s.finishCmd id st r | none => s) := by
    split
    · exact h.finishCmd ..
    · exact h
  unfold State.ended
  dsimp only
  split
  · exact finished.nodeDone ..
  · exact finished

theorem EngineError.stepFails (h : EngineError v s) (st : Status) : EngineError v (s.stepFails st) := by
  unfold State.stepFails
  split
  · exact h
  · exact ((h.jobStore ..).stepEnd _).ended ..

theorem EngineError.dropStreams (h : EngineError v s) (q : Nat) : EngineError v (s.dropStreams q) := by
  unfold State.dropStreams
  exact EngineError.ite h h

/-- A collective that fails signals no cell, and its end leaves the error register as it is. -/
theorem EngineError.endColl (h : EngineError v s) (q : Nat) {st : Status} (fails : statusFails st = true) : EngineError v (s.endColl q st) := by
  unfold State.endColl
  simp only [fails, if_true, Bool.and_true]
  split
  · exact h
  next c _ =>
    have completed (b : Nat) (bs : List Byte) (x : Engine16) : EngineError v (({ (s.jobStore b bs).dropStreams q with coll := x }.bump R.LNK_CE_COMPLETED).showEngine) :=
      ((((h.jobStore b bs).dropStreams q).coll x).bump 1 (by decide)).setFlds _ (by decide)
    refine EngineError.ended ?_ ..
    refine EngineError.ite (EngineError.stepFails ?_ st) ?_
    all_goals exact ((completed _ _ _).event ..).ite (completed _ _ _)

end EngineError

/-! An arriving message (R388). -/

theorem onMessage_mismatch {s : State} {q : Nat} {c : Coll} {m : CollMsg} (going : s.going q = some c) (own : m.collId = dId c.d) (other : m.digest ≠ collDigest c.d) (f : Coll → State → State) :
    s.onMessage q m f = ((s.ceErr 2 q (dId c.d)).endColl q .jobMismatch).raise 0x0602 6 q 0 (((s.ceErr 2 q (dId c.d)).endColl q .jobMismatch).reg R.LNK_CE_ERR).toNat 0 := by
  have kept : ((s.ceErr 2 q (dId c.d)).endColl q .jobMismatch).reg R.LNK_CE_ERR = (s.ceErr 2 q (dId c.d)).reg R.LNK_CE_ERR := ((engineError_ceErr s 2 q (dId c.d)).endColl q rfl).reg
  simp only [State.onMessage, going, own, ne_eq, not_true_eq_false, if_false, if_pos other, kept]

theorem onMessage_match {s : State} {q : Nat} {c : Coll} {m : CollMsg} (going : s.going q = some c) (own : m.collId = dId c.d) (same : m.digest = collDigest c.d) (f : Coll → State → State) :
    s.onMessage q m f = f c s := by
  simp only [State.onMessage, going, own, same, ne_eq, not_true_eq_false, if_false]

/-! Completion, stalls and the congestion window (R400, R409, R411). -/

theorem exec_collectiveCompletion_last {s : State} {q : Nat} {c : Coll} (going : s.going q = some c) (work : c.workDone = true) (streams : s.streamsDone q = true) (last : dNext c.d = 0)
    (alone : c.step = false) : exec (.collectiveCompletion q) s = .next (s.endColl q (if dOp c.d = 6 ∧ c.b ≠ 0 then .copiesDropped else .ok)) := by
  simp only [exec_collectiveCompletion_arm, execCollectiveCompletion, going, work, streams, alone, last, Bool.and_self, if_true, true_or]

theorem exec_collectiveStall {s : State} {q : Nat} {c : Coll} (held : s.collAt q = some c) (moving : c.stalled = false) (enabled : s.fld R.LNK_CE_CTL2 F.LNK_CE_CTL2_STALL_MS ≠ 0) :
    let v := ({ s with now := max s.now (c.last + 1000000 * s.fld R.LNK_CE_CTL2 F.LNK_CE_CTL2_STALL_MS) } : State)
    let w := (v.setColl q { c with stalled := true }).ceErr 1 q (dId c.d)
    exec (.collectiveStall q) s = .next (((w.note 0x0601 0 6 q (w.reg R.LNK_CE_ERR).toNat 0).bump R.LNK_CE_STALLS).event .collStall 6 q [0, dId c.d, q] c.dst) := by
  simp only [exec_collectiveStall_arm, execCollectiveStall, held, moving, enabled, Bool.false_eq_true, or_self, if_false]

/-- The window of a collective that is complete next. -/
def State.nextWindow (s : State) (c : Coll) : Nat := max c.window (s.now / 100000 - 1)

/-- The state at the end of that window, with the window noted. -/
def State.windowDone (s : State) (q : Nat) (c : Coll) : State :=
  ({ s with now := max s.now ((s.nextWindow c + 1) * 100000) } : State).setColl q { c with window := s.nextWindow c + 1 }

/-- CONG_PCT, at most 100. -/
def State.congestionLimit (s : State) : Nat := min 100 (s.fld R.LNK_CE_CTL F.LNK_CE_CTL_CONG_PCT)

theorem exec_congestionWindow {s : State} {q : Nat} {c : Coll} (held : s.collAt q = some c) :
    let v := s.windowDone q c
    let x := v.l2Share (dTable c.d) (s.nextWindow c)
    exec (.congestionWindow q) s =
      if c.auto = false then .next v
      else if v.congestionLimit * x.2 ≤ 100 * x.1 then .next (v.setPath q { c with window := s.nextWindow c + 1 } true c.fixed)
      else if 200 * x.1 < v.congestionLimit * x.2 ∧ c.fixed = false then .next (v.setPath q { c with window := s.nextWindow c + 1 } false false)
      else .next v := by
  simp only [exec_congestionWindow_arm, execCongestionWindow, held]
  rfl

theorem congestionWindow_follows {s : State} {q : Nat} {c : Coll} (held : s.collAt q = some c) :
    let v := s.windowDone q c
    let x := v.l2Share (dTable c.d) (s.nextWindow c)
    let c' := { c with window := s.nextWindow c + 1 }
    let lim := v.congestionLimit
    (c.auto = false → exec (.congestionWindow q) s = .next v) ∧
    (c.auto = true → lim * x.2 ≤ 100 * x.1 → exec (.congestionWindow q) s = .next (v.setPath q c' true c.fixed)) ∧
    (c.auto = true → 100 * x.1 < lim * x.2 → 200 * x.1 < lim * x.2 → c.fixed = false → exec (.congestionWindow q) s = .next (v.setPath q c' false false)) ∧
    (c.auto = true → 100 * x.1 < lim * x.2 → (lim * x.2 ≤ 200 * x.1 ∨ c.fixed = true) → exec (.congestionWindow q) s = .next v) := by
  intro v x c' lim
  have row : exec (.congestionWindow q) s = _ := exec_congestionWindow held
  have auto (h : c.auto = true) : ¬ c.auto = false := by rw [h]; exact Bool.noConfusion
  refine ⟨fun fixed => row.trans (if_pos fixed), fun h congested => row.trans ((if_neg (auto h)).trans (if_pos congested)), fun h clear half free => ?_, fun h clear keeps => ?_⟩
  · exact row.trans ((if_neg (auto h)).trans ((if_neg (Nat.not_le.mpr clear)).trans (if_pos ⟨half, free⟩)))
  · have stays : ¬ (200 * x.1 < lim * x.2 ∧ c.fixed = false) := by
      rintro ⟨half, free⟩
      rcases keeps with above | swapped
      · exact absurd half (Nat.not_lt.mpr above)
      · exact Bool.noConfusion (free.symm.trans swapped)
    exact row.trans ((if_neg (auto h)).trans ((if_neg (Nat.not_le.mpr clear)).trans (if_neg stays)))

/-- Settles O35: each row of a going collective is taken by the branch of its row that its state selects. -/
theorem collectiveProgress : Obligations.CollectiveProgress := by
  unfold Obligations.CollectiveProgress
  intro s q c going
  refine ⟨readyPoll_finds going, fun ring notV ready => ⟨?_, ?_, ?_, exec_coalesceTimeout going ring notV ready⟩, fun m own => ⟨fun other => ?_, fun same => ?_⟩,
    exec_collectiveCompletion_last going, fun held => exec_collectiveStall held, fun held => congestionWindow_follows held, fun p idle => ?_, fun r ca held waits => ?_⟩
  · exact fun streamed room => (bucketStart_streamed going ring notV ready streamed).trans (congrArg Host.Outcome.next (if_pos room))
  · exact fun streamed full => (bucketStart_streamed going ring notV ready streamed).trans (congrArg Host.Outcome.next (if_neg (Nat.not_lt.mpr full)))
  · intro bucketed k
    have row := bucketStart_bucketed going ring notV ready bucketed
    exact ⟨fun whole => row.trans (congrArg Host.Outcome.next (if_pos whole)),
      fun short last => row.trans (congrArg Host.Outcome.next ((if_neg (Nat.not_le.mpr short)).trans (if_pos last)))⟩
  · exact congrArg Host.Outcome.next (onMessage_mismatch going own other _)
  · refine ⟨fun a b ps body => ?_, fun a b ps body => ?_, fun n body => ?_, fun bs body => ?_⟩
    all_goals exact congrArg Host.Outcome.next ((onMessage_match going own same _).trans (by rw [body]))
  · simp only [exec_collectiveStart_arm, execCollectiveStart, idle]
  · simp only [exec_collectiveStart_arm, execCollectiveStart, held, waits, if_true]

end Sys2Proof.Machine
end

section
/-!
PROOFS of the family 13_collectives_and_exchange: the exchange of tokens (O36).
-/
namespace Sys2Proof.Machine

open Sys2Proof

theorem exec_tokenPlacement_arm (q : Nat) (s : State) : exec (.tokenPlacement q) s = execTokenPlacement q s := rfl

theorem exec_tokenPayloadStart_arm (q : Nat) (s : State) : exec (.tokenPayloadStart q) s = execTokenPayloadStart q s := rfl

theorem exec_tokenPadding_arm (q e : Nat) (s : State) : exec (.tokenPadding q e) s = execTokenPadding q e s := rfl

/-! The placement of an expert (R404). -/

theorem placeByRank_pairs (cap b : Nat) (l : List (Nat × Nat × Nat)) : (placeByRank cap l b).map (fun x => (x.1, x.2.1)) = l.map (fun x => (x.1, x.2.1)) := by
  induction l generalizing b with
  | nil => rfl
  | cons e l ih =>
    obtain ⟨r, src, n⟩ := e
    simp only [placeByRank, List.map_cons, ih]

/-- What one pair is given fits in what is left. -/
theorem granted_le (cap b n : Nat) (fits : b ≤ cap) : b + min n (cap - min cap b) = min cap (b + n) := by omega

theorem placeByRank_total (cap b : Nat) (l : List (Nat × Nat × Nat)) (fits : b ≤ cap) :
    b + ((placeByRank cap l b).map (fun x => x.2.2.1)).sum = min cap (b + (l.map (fun x => x.2.2)).sum) := by
  induction l generalizing b with
  | nil => simp only [placeByRank, List.map_nil, List.sum_nil]; omega
  | cons e l ih =>
    obtain ⟨r, src, n⟩ := e
    have granted := granted_le cap b n fits
    have rest := ih (b + min n (cap - min cap b)) (by omega)
    simp only [placeByRank, List.map_cons, List.sum_cons]
    omega

theorem placeByRank_within (cap b : Nat) (l : List (Nat × Nat × Nat)) (fits : b ≤ cap) : ∀ x, x ∈ placeByRank cap l b → b ≤ x.2.2.2 ∧ x.2.2.2 + x.2.2.1 ≤ cap := by
  induction l generalizing b with
  | nil => exact fun x none => absurd none List.not_mem_nil
  | cons e l ih =>
    obtain ⟨r, src, n⟩ := e
    have granted := granted_le cap b n fits
    intro x listed
    rcases List.mem_cons.mp listed with rfl | later
    · exact ⟨Nat.le_refl b, by simp only; omega⟩
    · obtain ⟨low, high⟩ := ih (b + min n (cap - min cap b)) (by omega) x later
      exact ⟨by omega, high⟩

/-! The rows of a going exchange (R403, R405). -/

section Exchange

variable {s : State} {q : Nat} {c : Coll} (going : s.going q = some c)

include going

theorem exec_tokenCountArrival {m : CollMsg} {ns : List Nat} {bad : Bool} (own : m.collId = dId c.d) (same : m.digest = collDigest c.d) (body : m.body = .offers ns bad) :
    exec (.tokenCountArrival q m) s = .next (s.takeCounts q m.src ns bad) :=
  congrArg Host.Outcome.next ((onMessage_match going own same _).trans (by rw [body]))

theorem exec_tokenReplyArrival {m : CollMsg} {ps : List (Nat × Nat)} {ex z : Bool} (own : m.collId = dId c.d) (same : m.digest = collDigest c.d) (body : m.body = .places ps ex z) :
    exec (.tokenReplyArrival q m) s = .next (s.takePlaces q m.src ps ex) :=
  congrArg Host.Outcome.next ((onMessage_match going own same _).trans (by rw [body]))

theorem takeCounts_first {src : Nat} (ns : List Nat) (bad : Bool) (op : dOp c.d = 6) (first : c.counts.contains src = false) :
    let bs := ns.flatMap (bytesLE 4)
    let v := s.jobStore (tkWork c.d + tkV c.d * 512 * src) (bs ++ List.replicate (tkV c.d * 512 - bs.length) 0)
    s.takeCounts q src ns bad = v.setColl q { c with counts := c.counts ++ [src], bad := c.bad || bad, last := v.now, stalled := false } := by
  simp only [State.takeCounts, going, op, first, ne_eq, not_true_eq_false, Bool.false_eq_true, or_self, if_false]

theorem takeCounts_again {src : Nat} (ns : List Nat) (bad : Bool) (held : c.counts.contains src = true) : s.takeCounts q src ns bad = s := by
  simp only [State.takeCounts, going, held, or_true, if_true]

theorem takePlaces_again {src : Nat} (ps : List (Nat × Nat)) (ex : Bool) (held : c.replies.contains src = true) : s.takePlaces q src ps ex = s := by
  simp only [State.takePlaces, going, held, or_true, if_true]

theorem takePlaces_first {src : Nat} (ps : List (Nat × Nat)) (ex : Bool) (op : dOp c.d = 6) (first : c.replies.contains src = false) :
    let bs := ps.flatMap (fun p => bytesLE 4 p.1 ++ bytesLE 4 p.2)
    let v := s.jobStore (tkWork c.d + tkV c.d * 512 * (dM c.d + src)) (bs ++ List.replicate (tkV c.d * 512 - bs.length) 0)
    let c' := { c with replies := c.replies ++ [src], excess := c.excess || ex, last := v.now, stalled := false }
    let w := v.setColl q c'
    s.takePlaces q src ps ex = if c.replies.length + 1 ≠ dM c.d then w else if (c.excess || ex) = true then w.endColl q .collCapacityExceeded else if tkFail c.d then w.writeCounts c' else w := by
  simp only [State.takePlaces, going, op, first, ne_eq, not_true_eq_false, Bool.false_eq_true, or_self, if_false, List.length_append, List.length_singleton]

theorem exec_tokenPlacement_bad (op : dOp c.d = 6) (open_ : c.placed = false) (held : c.counts.length = dM c.d) (bad : c.bad = true) :
    exec (.tokenPlacement q) s = .next ((s.setColl q { c with a := c.badToken, b := c.badRank }).endColl q .collBadRoute) := by
  simp only [exec_tokenPlacement_arm, execTokenPlacement, going, op, open_, held, bad, ne_eq, not_true_eq_false, Bool.false_eq_true, or_self, if_false, if_true]

theorem exec_tokenPayloadStart (op : dOp c.d = 6) (open_ : c.payload = false) (held : c.replies.length = dM c.d) (placed : c.placed = true) :
    let cs := s.copies c.d
    let slots := s.slotsOf c.d [] cs
    let v := slots.zipIdx.foldl (fun s p => s.jobStore (tkFate c.d + 4 * p.2) (bytesLE 4 p.1)) s
    exec (.tokenPayloadStart q) s =
      .next ((v.setColl q { c with payload := true, a := (slots.filter (fun x => Nat.blt x fateNone)).length, b := (slots.filter (fun x => x == fateDropped)).length, last := v.now }).sendCopies q c.d cs slots true) := by
  simp only [exec_tokenPayloadStart_arm, execTokenPayloadStart, going, op, open_, held, placed, ne_eq, not_true_eq_false, Bool.false_eq_true, Bool.true_eq_false, or_self, if_false]

theorem exec_tokenPadding {e n : Nat} (op : dOp c.d = 6) (pads : tkPad c.d ≠ 0) (placed : c.placed = true) (first : c.padded.contains e = false) (landed : c.expertLanded e = true)
    (accepted : tfind c.accepted e = some n) :
    let top := if tkPad c.d = 1 then (n + 31) / 32 * 32 else tkC c.d
    let v := (List.range (top - n)).foldl (fun s i => s.jobStore (tkEbuf c.d + (e * tkC c.d + n + i) * tkW c.d) (List.replicate (tkW c.d) 0)) s
    exec (.tokenPadding q e) s = .next (v.setColl q { c with padded := c.padded ++ [e], last := v.now }) := by
  simp only [exec_tokenPadding_arm, execTokenPadding, going, op, pads, placed, first, landed, accepted, ne_eq, not_true_eq_false, Bool.false_eq_true, Bool.true_eq_false, Option.isNone_some, or_self, if_false,
    Option.getD_some]

end Exchange

/-- Settles O36: each row of a going exchange takes the branch that its state selects, and a placement gives out what fits, in the order of its list. -/
theorem tokenExchange : Obligations.TokenExchange := by
  unfold Obligations.TokenExchange
  refine ⟨fun s q c going => ⟨fun m own same => ⟨fun ns bad body op first => ?_, fun ns bad body held => ?_, fun ps ex z body op first => ?_, fun ps ex z body held => ?_⟩,
    exec_tokenPlacement_bad going, exec_tokenPayloadStart going, fun e n op pads placed first landed accepted => exec_tokenPadding going op pads placed first landed accepted,
    fun op open_ held sound => ?_⟩, fun cap b l fits => ⟨placeByRank_pairs cap b l, placeByRank_total cap b l fits, placeByRank_within cap b l fits⟩⟩
  · exact (exec_tokenCountArrival going own same body).trans (congrArg Host.Outcome.next (takeCounts_first going ns bad op first))
  · exact (exec_tokenCountArrival going own same body).trans (congrArg Host.Outcome.next (takeCounts_again going ns bad held))
  · intro bs v c' w
    have row := (exec_tokenReplyArrival going own same body).trans (congrArg Host.Outcome.next (takePlaces_first going ps ex op first))
    refine ⟨fun more => row.trans (congrArg Host.Outcome.next (if_pos more)), fun last excess => ?_, fun last fits => ?_⟩
    all_goals refine row.trans (congrArg Host.Outcome.next ((if_neg (not_not_intro last)).trans ?_))
    · exact if_pos excess
    · exact if_neg (ne_true_of_eq_false fits)
  · exact (exec_tokenReplyArrival going own same body).trans (congrArg Host.Outcome.next (takePlaces_again going ps ex held))
  · simp only [exec_tokenPlacement_arm, execTokenPlacement, going, op, open_, held, sound, ne_eq, not_true_eq_false, Bool.false_eq_true, or_self, if_false]
    generalize (tkFail c.d && List.any _ _) = excess
    cases excess <;> rfl

end Sys2Proof.Machine
end

section
/-!
PROOFS of the family 15_mapping_jobs: micro-batches between stages (O37).
-/
namespace Sys2Proof.Machine

open Sys2Proof

theorem exec_stageReadyPoll_arm (q : Nat) (s : State) : exec (.stageReadyPoll q) s = execStageReadyPoll q s := rfl

theorem exec_stageCreditArrival_arm (q : Nat) (s : State) : exec (.stageCreditArrival q) s = execStageCreditArrival q s := rfl

theorem exec_stageSlotArrival_arm (q : Nat) (s : State) : exec (.stageSlotArrival q) s = execStageSlotArrival q s := rfl

theorem exec_stageFreePoll_arm (q : Nat) (s : State) : exec (.stageFreePoll q) s = execStageFreePoll q s := rfl

/-! A queue shown changes its register alone. -/

theorem stq_showStq (s : State) (q : Nat) : (s.showStq q).stq = s.stq := by
  unfold State.showStq
  split
  · exact State.setFlds_stq ..
  · rfl

theorem mem_showStq (s : State) (q : Nat) : (s.showStq q).mem = s.mem := by
  unfold State.showStq
  split
  · exact State.setFlds_mem ..
  · rfl

theorem tfind_setStq (s : State) (q : Nat) (x : StageQ) : tfind (s.setStq q x).stq q = some x := by
  rw [State.setStq, stq_showStq]
  exact tfind_tinsert_same ..

theorem mem_setStq (s : State) (q : Nat) (x : StageQ) : (s.setStq q x).mem = s.mem := mem_showStq ..

theorem pod_setStq (s : State) (q : Nat) (x : StageQ) : (s.setStq q x).pod = s.pod := by
  unfold State.setStq State.showStq
  split
  · exact State.setFlds_pod ..
  · rfl

theorem now_setStq (s : State) (q : Nat) (x : StageQ) : (s.setStq q x).now = s.now := by
  unfold State.setStq State.showStq
  split
  · exact State.setFlds_now ..
  · rfl

theorem mem_bumpIf (s : State) (c : Prop) [Decidable c] (o n : Nat) : (if c then s.bump o n else s).mem = s.mem := by
  split <;> rfl

section OutQueue

variable {s : State} {q : Nat} {x : StageQ} (out : s.stqAt q 1 = some x)

include out

theorem exec_stageReadyPoll_waits (waits : x.depth ≤ x.ahead - x.behind ∨ (s.stqPoll x).jobLE (x.word 32 x.ahead) 8 ≠ x.ahead % 2 ^ 32 + 1) :
    exec (.stageReadyPoll q) s = .next ((s.stqPoll x).setStq q { x with lastPoll := (s.stqPoll x).now }) := by
  simp only [exec_stageReadyPoll_arm, execStageReadyPoll, out]
  exact if_pos waits

/-- The queue as it is when its next slot is sent: FULL_NS counts from here. -/
def State.stageSending (s : State) (q : Nat) (x : StageQ) : State :=
  ((s.stqPoll x).setStq q { x with lastPoll := (s.stqPoll x).now, ahead := x.ahead + 1, since := (s.stqPoll x).now }).bump (R.LNK_STQ_MB q)

omit out in
theorem now_stageSending (s : State) (q : Nat) (x : StageQ) : (s.stageSending q x).now = (s.stqPoll x).now := now_setStq ..

omit out in
theorem pod_stageSending (s : State) (q : Nat) (x : StageQ) : (s.stageSending q x).pod = s.pod := pod_setStq ..

omit out in
theorem mem_stageSending (s : State) (q : Nat) (x : StageQ) : (s.stageSending q x).mem = s.mem := mem_setStq ..

theorem exec_stageReadyPoll_sends {pos : Nat} (credit : x.ahead - x.behind < x.depth) (ready : (s.stqPoll x).jobLE (x.word 32 x.ahead) 8 = x.ahead % 2 ^ 32 + 1)
    (peer : (s.stageSending q x).posOf (sqAt x.entry 1 1) = some pos) (apart : pos ≠ (s.stageSending q x).position) :
    ∃ u : State, exec (.stageReadyPoll q) s = .next (u.openStream pos (Config.peerSlot q (x.ahead % x.depth)).toNat 3 0 q 2 (sqAt x.entry 6 1) 0 ((s.stqPoll x).jobLoad (x.slot x.ahead) (sqAt x.entry 8 4))) ∧
      tfind u.stq q = some { x with lastPoll := (s.stqPoll x).now, ahead := x.ahead + 1, since := (s.stqPoll x).now, flying := x.flying ++ [s.pod.nextStream] } ∧ u.mem = s.mem := by
  have goes : ¬(x.depth ≤ x.ahead - x.behind ∨ (s.stqPoll x).jobLE (x.word 32 x.ahead) 8 ≠ x.ahead % 2 ^ 32 + 1) := not_or.mpr ⟨Nat.not_le.mpr credit, not_not_intro ready⟩
  refine ⟨(s.stageSending q x).setStq q { x with lastPoll := (s.stqPoll x).now, ahead := x.ahead + 1, since := (s.stageSending q x).now, flying := x.flying ++ [(s.stageSending q x).pod.nextStream] }, ?_, ?_, ?_⟩
  · simp only [exec_stageReadyPoll_arm, execStageReadyPoll, out]
    refine (if_neg goes).trans ?_
    change (match (s.stageSending q x).posOf (sqAt x.entry 1 1) with | none => _ | some pos => _) = _
    rw [peer]
    exact if_neg apart
  · rw [tfind_setStq, now_stageSending, pod_stageSending]
  · exact (mem_setStq ..).trans (mem_stageSending ..)

theorem exec_stageCreditArrival_gives (sent : x.behind < x.ahead) :
    ∃ u : State, exec (.stageCreditArrival q) s = .next (u.addToCell (sqAt x.entry 12 4 + 1)) ∧ tfind u.stq q = some { x with behind := x.behind + 1 } ∧ u.mem = s.mem := by
  refine ⟨_, ?_, tfind_setStq _ q _, (mem_setStq ..).trans (mem_bumpIf s (x.ahead - x.behind = x.depth) (R.LNK_STQ_FULL_NS q) (s.now - x.since))⟩
  simp only [exec_stageCreditArrival_arm, execStageCreditArrival, out]
  exact if_neg (Nat.not_le.mpr sent)

theorem exec_stageCreditArrival_none (none : x.ahead ≤ x.behind) : exec (.stageCreditArrival q) s = .next s := by
  simp only [exec_stageCreditArrival_arm, execStageCreditArrival, out]
  exact if_pos none

end OutQueue

section InQueue

variable {s : State} {q : Nat} {x : StageQ} (inq : s.stqAt q 2 = some x)

include inq

/-- The arrival word of the next micro-batch is written, its stream taken from what has landed. -/
def State.slotWritten (s : State) (x : StageQ) (l : Landed) : State :=
  ({ s with pod := { s.pod with landed := s.pod.landed.erase l } } : State).jobStore (x.word 40 x.ahead) (bytesLE 8 (x.ahead % 2 ^ 32 + 1))

theorem exec_stageSlotArrival_writes {l : Landed} (landed : s.pod.landed.find? (fun l => l.kind == 3 && l.addr == x.slot x.ahead) = some l) :
    ∃ u : State, exec (.stageSlotArrival q) s = .next (u.addToCell (sqAt x.entry 12 4 + 1)) ∧ tfind u.stq q = some { x with ahead := x.ahead + 1 } ∧
      u.mem = (s.slotWritten x l).mem := by
  refine ⟨State.bump _ (R.LNK_STQ_MB q), ?_, tfind_setStq _ q _, (mem_setStq ..).trans (mem_bumpIf (s.slotWritten x l) (x.ahead = x.behind ∧ x.ahead ≠ 0) (R.LNK_STQ_EMPTY_NS q) ((s.slotWritten x l).now - x.since))⟩
  simp only [exec_stageSlotArrival_arm, execStageSlotArrival, inq, landed]
  rfl

theorem exec_stageFreePoll_waits (waits : x.ahead ≤ x.behind ∨ (s.stqPoll x).jobLE (x.word 32 x.behind) 8 ≠ x.behind % 2 ^ 32 + 1) :
    exec (.stageFreePoll q) s = .next ((s.stqPoll x).setStq q { x with lastPoll := (s.stqPoll x).now }) := by
  simp only [exec_stageFreePoll_arm, execStageFreePoll, inq]
  exact if_pos waits

theorem exec_stageFreePoll_returns (held : x.behind < x.ahead) (free : (s.stqPoll x).jobLE (x.word 32 x.behind) 8 = x.behind % 2 ^ 32 + 1) :
    let w := (s.stqPoll x).setStq q { x with lastPoll := (s.stqPoll x).now, behind := x.behind + 1, since := (s.stqPoll x).now }
    ∀ pos, w.posOf (sqAt x.entry 1 1) = some pos → pos ≠ w.position → exec (.stageFreePoll q) s = .next (w.openStream pos 0 1 0 (16 + q) 2 (sqAt x.entry 6 1) 0 (List.replicate 512 0)) := by
  intro w pos peer apart
  have goes : ¬(x.ahead ≤ x.behind ∨ (s.stqPoll x).jobLE (x.word 32 x.behind) 8 ≠ x.behind % 2 ^ 32 + 1) := not_or.mpr ⟨Nat.not_le.mpr held, not_not_intro free⟩
  simp only [exec_stageFreePoll_arm, execStageFreePoll, inq]
  refine (if_neg goes).trans ?_
  change (match w.posOf (sqAt x.entry 1 1) with | some pos => _ | none => _) = _
  rw [peer]
  exact congrArg Host.Outcome.next (if_neg apart)

end InQueue

/-- Settles O37: each row of a stage queue takes the branch that its poll or its arrival selects. -/
theorem stageQueueEngine : Obligations.StageQueueEngine := by
  unfold Obligations.StageQueueEngine
  intro s q x v p
  refine ⟨fun out => ⟨exec_stageReadyPoll_waits out, fun credit ready pos peer apart => exec_stageReadyPoll_sends out credit ready peer apart, exec_stageCreditArrival_gives out,
    exec_stageCreditArrival_none out⟩, fun inq => ⟨fun l landed => exec_stageSlotArrival_writes inq landed, exec_stageFreePoll_waits inq, exec_stageFreePoll_returns inq⟩⟩

end Sys2Proof.Machine
end

section
/-!
RULES of a store by Lantern, and PROOFS of the family 16_host_commands: doorbells, queues and the reset of H0 (O40).
-/
namespace Sys2Proof.Machine

open Sys2Proof

theorem exec_sqTailDoorbell_arm (q v : Nat) (s : State) : exec (.sqTailDoorbell q v) s = execSqTailDoorbell q v s := rfl

theorem exec_cqHeadDoorbell_arm (q v : Nat) (s : State) : exec (.cqHeadDoorbell q v) s = execCqHeadDoorbell q v s := rfl

/-! ## What a store by Lantern leaves alone

A chunk that a mirror or a capture still has to read is read before the store (R376, R535). That writes the counters and the state of the copier and of the capture, and opens a stream. -/

/-- The registers that reading a held chunk writes. -/
def chunkRegs : List Nat := [R.LNK_MIR_BYTES, R.LNK_MIR_WAIT_NS, R.LNK_MIR_STAT, R.BSN_CAPTURE_WAIT_NS, R.BSN_CAPTURE, R.BSN_WR_BYTES]

/-- `t` differs from `s` at most in memory, the pod, the mirror, the basin's capture and the registers of held chunks. -/
def Stored (s t : State) : Prop :=
  { t with regs := s.regs, mem := s.mem, pod := s.pod, mirror := s.mirror, bsn := { t.bsn with capture := s.bsn.capture } } = s ∧ (InForm s → InForm t ∧ ∀ o, o ∉ chunkRegs → t.reg o = s.reg o)

theorem Stored.refl (s : State) : Stored s s := ⟨rfl, fun form => ⟨form, fun _ _ => rfl⟩⟩

section Stored

variable {s t : State}

theorem Stored.hcp (h : Stored s t) : t.hcp = s.hcp := by
  have same := congrArg State.hcp h.1
  exact same

theorem Stored.now (h : Stored s t) : t.now = s.now := by
  have same := congrArg State.now h.1
  exact same

theorem Stored.inForm (h : Stored s t) (form : InForm s) : InForm t := (h.2 form).1

theorem Stored.reg (h : Stored s t) (form : InForm s) {o : Nat} (other : o ∉ chunkRegs) : t.reg o = s.reg o := (h.2 form).2 o other

theorem Stored.setReg (h : Stored s t) {o : Nat} (v : Word) (chunk : o ∈ chunkRegs) : Stored s (t.setReg o v) := by
  refine ⟨h.1, fun form => ?_⟩
  obtain ⟨formed, regs⟩ := h.2 form
  refine ⟨State.inv_setReg formed o v, fun x out => (State.reg_setReg_ne formed v ?_).trans (regs x out)⟩
  rintro rfl
  exact out chunk

theorem Stored.setFlds (h : Stored s t) {o : Nat} (l : List (Fld × Nat)) (chunk : o ∈ chunkRegs) : Stored s (t.setFlds o l) := h.setReg _ chunk

theorem Stored.bump (h : Stored s t) {o : Nat} (n : Nat) (chunk : o ∈ chunkRegs) : Stored s (t.bump o n) := h.setReg _ chunk

theorem Stored.ite {c : Prop} [Decidable c] {a b : State} (ha : Stored s a) (hb : Stored s b) : Stored s (if c then a else b) := by
  split
  · exact ha
  · exact hb

theorem Stored.pod (h : Stored s t) (x : Pod) : Stored s { t with pod := x } := h
theorem Stored.mirror (h : Stored s t) (x : Mirror) : Stored s { t with mirror := x } := h
theorem Stored.capture (h : Stored s t) (x : Option Capture) : Stored s { t with bsn := { t.bsn with capture := x } } := h

theorem Stored.mem (h : Stored s t) {m : Memory} (wf : Memory.wf t.mem → Memory.wf m) : Stored s { t with mem := m } :=
  ⟨h.1, fun form => ⟨⟨(h.inForm form).1, wf (h.inForm form).2⟩, (h.2 form).2⟩⟩

theorem Stored.sendLD (h : Stored s t) (p : LPkt) (bs : List Byte) (half : Nat) : Stored s (t.sendLD p bs half) := by
  obtain ⟨q, e⟩ := sendW_eq t { pkt := p, data := bs, half := half }
  rw [State.sendLD, e]
  exact h.pod q

theorem Stored.sendChunk (h : Stored s t) (n c : Nat) : Stored s (t.sendChunk n c) := by
  unfold State.sendChunk State.openStream
  split
  · exact (((h.mirror _).bump _ (by decide)).pod _).sendLD ..
  · exact h

theorem Stored.copyClosing (h : Stored s t) (c : Nat) : Stored s (t.copyClosing c) := by
  unfold State.copyClosing State.releaseMirror State.showMirror
  split
  · exact ((((h.mirror _).sendChunk _ c).bump (o := R.LNK_MIR_WAIT_NS) _ (by decide)).mirror _).setFlds _ (by decide)
  · exact h

theorem Stored.showCapture (h : Stored s t) : Stored s t.showCapture := by
  unfold State.showCapture
  split
  · exact h.setFlds _ (by decide)
  · exact h.setReg _ (by decide)

theorem Stored.releaseCapture (h : Stored s t) (c : Nat) : Stored s (t.releaseCapture c) := by
  unfold State.releaseCapture
  split
  · exact ((h.bump (o := R.BSN_CAPTURE_WAIT_NS) _ (by decide)).capture _).showCapture
  · exact h

theorem Stored.captureChunk (h : Stored s t) (c : Nat) : Stored s (t.captureChunk c) := by
  unfold State.captureChunk
  split
  · exact ((h.capture _).releaseCapture c).bump _ (by decide)
  · exact h

theorem Stored.readFirst (h : Stored s t) (a n : Nat) : Stored s (t.readFirst a n) := by
  unfold State.readFirst
  refine List.foldlRecOn _ _ h fun u ih c _ => ?_
  have copied : Stored s (if u.mirror.c.contains c then u.copyClosing c else u) := (ih.copyClosing c).ite ih
  exact (copied.captureChunk c).ite copied

theorem Stored.store (h : Stored s t) (a : Nat) (bs : List Byte) : Stored s (t.store a bs) := (h.readFirst a bs.length).mem (Memory.wf_writeBytes _ _)

end Stored

/-! ## Registers of a queue pair -/

theorem State.fld_setReg_ne {s : State} (form : InForm s) {o x : Nat} (v : Word) (other : x ≠ o) (g : Fld) : (s.setReg o v).fld x g = s.fld x g :=
  congrArg (fget · g) (State.reg_setReg_ne form v other)

theorem State.fld_setFld_same {s : State} (form : InForm s) (o : Nat) (f : Fld) (v : Nat) (lo : f.lo ≤ f.hi) (hi : f.hi < 64) : (s.setFld o f v).fld o f = v % 2 ^ (f.hi + 1 - f.lo) := by
  rw [State.fld, State.setFld, State.reg_setReg_same form]
  exact fget_fset_same _ f v lo hi

theorem State.fld_setFld_apart {s : State} (form : InForm s) (o : Nat) {f g : Fld} (v : Nat) (lo : f.lo ≤ f.hi) (hi : f.hi < 64) (le : g.lo ≤ g.hi) (apart : f.hi < g.lo ∨ g.hi < f.lo) :
    (s.setFld o f v).fld o g = s.fld o g := by
  rw [State.fld, State.setFld, State.reg_setReg_same form]
  exact fget_fset_apart _ v lo hi le apart

theorem qCfg_ne_qStatus (q p : Nat) : R.HCP_Q_CFG q ≠ R.HCP_Q_STATUS p := by
  simp only [R.HCP_Q_CFG, R.HCP_Q_STATUS]
  omega

theorem qCfg_inj {q p : Nat} (other : q ≠ p) : R.HCP_Q_CFG q ≠ R.HCP_Q_CFG p := by
  simp only [R.HCP_Q_CFG]
  omega

theorem lt_mem_chunkRegs {o : Nat} (low : o < 0xA00000) : o ∉ chunkRegs := by
  simp only [chunkRegs, List.mem_cons, List.not_mem_nil, or_false, R.LNK_MIR_BYTES, R.LNK_MIR_WAIT_NS, R.LNK_MIR_STAT, R.BSN_CAPTURE_WAIT_NS, R.BSN_CAPTURE, R.BSN_WR_BYTES]
  omega

theorem qCfg_low {q : Nat} (lt : q < 64) : R.HCP_Q_CFG q < 0xA00000 := by
  simp only [R.HCP_Q_CFG]
  omega

theorem qStatus_low {q : Nat} (lt : q < 64) : R.HCP_Q_STATUS q < 0xA00000 := by
  simp only [R.HCP_Q_STATUS]
  omega

theorem inForm_setQueue {s : State} (form : InForm s) (q : Nat) (x : Queue) : InForm (s.setQueue q x) := form

theorem cqTail_setQueue (s : State) (p q : Nat) (x : Queue) : (s.setQueue p x).cqTail q = s.cqTail q := rfl

theorem sqOn_setQueue (s : State) (p q : Nat) (x : Queue) : (s.setQueue p x).sqOn q = s.sqOn q := rfl

theorem cqOn_setQueue (s : State) (p q : Nat) (x : Queue) : (s.setQueue p x).cqOn q = s.cqOn q := rfl

theorem mem_setQueue (s : State) (q : Nat) (x : Queue) : (s.setQueue q x).mem = s.mem := rfl

theorem cmds_setQueue (s : State) (q : Nat) (x : Queue) : (s.setQueue q x).hcp.cmds = s.hcp.cmds := rfl

theorem reinit_setQueue (s : State) (q : Nat) (x : Queue) : (s.setQueue q x).reinit = s.reinit := rfl

theorem cqOut_setQueue (s : State) (q : Nat) (x : Queue) : (s.setQueue q x).hcp.cqOut = s.hcp.cqOut := rfl

theorem queue_setQueue (s : State) (q : Nat) (x : Queue) : (s.setQueue q x).queue q = x := by
  simp only [State.queue, State.setQueue, tfind_tinsert_same, Option.getD_some]

section Pair

variable {s : State} (form : InForm s) (q : Nat)

/-- HCP_Q_STATUS shown anew keeps the tail of the completion queue. -/
theorem cqTail_showQueue (h : InForm s) : (s.showQueue q).cqTail q = s.cqTail q := by
  rw [State.cqTail, State.showQueue, State.fld, State.setFlds, State.reg_setReg_same h]
  simp only [List.foldl_cons, List.foldl_nil]
  iterate 3 rw [fget_fset_apart _ _ (by decide) (by decide) (by decide) (by decide)]
  rfl

theorem reg_showQueue (h : InForm s) {o : Nat} (other : o ≠ R.HCP_Q_STATUS q) : (s.showQueue q).reg o = s.reg o := State.reg_setReg_ne h _ other

theorem hcp_showQueue : (s.showQueue q).hcp = s.hcp := State.setFlds_hcp ..

theorem queue_showQueue (p : Nat) : (s.showQueue q).queue p = s.queue p := by rw [State.queue, hcp_showQueue, State.queue]

theorem mem_showQueue : (s.showQueue q).mem = s.mem := State.setFlds_mem ..

end Pair

theorem reg_eq_of_regs {s t : State} (h : t.regs = s.regs) (o : Nat) : t.reg o = s.reg o := congrArg (tget regReset · o) h

/-! ## A vector sent, an entry written -/

theorem regs_signalQueue (s : State) (q : Nat) : (s.signalQueue q).regs = s.regs := by
  unfold State.signalQueue
  dsimp only
  split <;> rfl

theorem mem_signalQueue (s : State) (q : Nat) : (s.signalQueue q).mem = s.mem := by
  unfold State.signalQueue
  dsimp only
  split <;> rfl

theorem cqOut_signalQueue (s : State) (q : Nat) : (s.signalQueue q).hcp.cqOut = s.hcp.cqOut := by
  unfold State.signalQueue
  dsimp only
  split <;> rfl

theorem queue_signalQueue (s : State) (q : Nat) : (s.signalQueue q).queue q = { s.queue q with unsignalled := 0 } := by
  unfold State.signalQueue
  dsimp only
  split
  · exact queue_setQueue ..
  · exact queue_setQueue ..

theorem msix_signalQueue (s : State) (q : Nat) :
    (s.signalQueue q).hcp.msix = s.hcp.msix ++ if s.fld (R.HCP_Q_CFG q) F.HCP_Q_CFG_VECTOR < 64 then [s.fld (R.HCP_Q_CFG q) F.HCP_Q_CFG_VECTOR] else [] := by
  unfold State.signalQueue
  dsimp only
  split
  · rfl
  · exact (List.append_nil _).symm

/-- The bytes of an entry at the tail, where the queue lies in device memory. -/
def State.entryStored (s : State) (q : Nat) (e : CqEntry) : State :=
  let u : State := { s with hcp := { s.hcp with cqOut := s.hcp.cqOut ++ [(q, e)] } }
  if u.fld (R.HCP_CQ_BASE q) F.HCP_CQ_BASE_LOC = 1 then u.storeLE (s.fld (R.HCP_CQ_BASE q) F.HCP_CQ_BASE_BASE * 4096 + 32 * s.cqTail q) 32 (entryWord e (s.queue q).phase) else u

theorem entryStored_stored (s : State) (q : Nat) (e : CqEntry) : Stored { s with hcp := { s.hcp with cqOut := s.hcp.cqOut ++ [(q, e)] } } (s.entryStored q e) := by
  unfold State.entryStored
  exact ((Stored.refl _).store _ _).ite (Stored.refl _)

/-- The tail's advance, and the entry counted. -/
def State.entryCounted (s : State) (q : Nat) (e : CqEntry) : State :=
  let u := s.entryStored q e
  let t := (s.cqTail q + 1) % u.cqSize q
  let x := s.queue q
  let v := u.setFld (R.HCP_Q_STATUS q) F.HCP_Q_STATUS_CQ_TAIL t
  v.setQueue q { x with phase := if t = 0 then 1 - x.phase else x.phase, unsignalled := x.unsignalled + 1, oldest := if x.unsignalled = 0 then v.now else x.oldest }

theorem cqWrite_eq (s : State) (q : Nat) (e : CqEntry) :
    s.cqWrite q e = if (s.entryCounted q e).signalDue q ((s.queue q).unsignalled + 1) then (s.entryCounted q e).signalQueue q else s.entryCounted q e := rfl

theorem cqSize_eq_of_reg {s t : State} {q : Nat} (same : t.reg (R.HCP_Q_CFG q) = s.reg (R.HCP_Q_CFG q)) : t.cqSize q = s.cqSize q := by
  simp only [State.cqSize, State.fld, same]

/-- A completion queue holds at most 2^16 entries. -/
theorem cqSize_le (s : State) (q : Nat) : s.cqSize q ≤ 2 ^ 16 := Nat.pow_le_pow_right (by decide) (by omega)

theorem cqSize_pos (s : State) (q : Nat) : 0 < s.cqSize q := Nat.two_pow_pos _

theorem cqTail_entryCounted {s : State} (form : InForm s) {q : Nat} (lt : q < 64) (e : CqEntry) : (s.entryCounted q e).cqTail q = (s.cqTail q + 1) % s.cqSize q := by
  have stored := entryStored_stored s q e
  have size : (s.entryStored q e).cqSize q = s.cqSize q := cqSize_eq_of_reg (stored.reg form (lt_mem_chunkRegs (qCfg_low lt)))
  have tail := State.fld_setFld_same (stored.inForm form) (R.HCP_Q_STATUS q) F.HCP_Q_STATUS_CQ_TAIL ((s.cqTail q + 1) % (s.entryStored q e).cqSize q) (by decide) (by decide)
  unfold State.entryCounted
  rw [cqTail_setQueue, State.cqTail, tail, size]
  exact Nat.mod_eq_of_lt (Nat.lt_of_lt_of_le (Nat.mod_lt _ (cqSize_pos s q)) (cqSize_le s q))

theorem cqTail_cqWrite {s : State} (form : InForm s) {q : Nat} (lt : q < 64) (e : CqEntry) : (s.cqWrite q e).cqTail q = (s.cqTail q + 1) % s.cqSize q := by
  rw [cqWrite_eq]
  split
  · exact (congrArg (fget · F.HCP_Q_STATUS_CQ_TAIL) (reg_eq_of_regs (regs_signalQueue ..) _)).trans (cqTail_entryCounted form lt e)
  · exact cqTail_entryCounted form lt e

theorem cqOut_cqWrite (s : State) (q : Nat) (e : CqEntry) : (s.cqWrite q e).hcp.cqOut = s.hcp.cqOut ++ [(q, e)] := by
  have counted : (s.entryCounted q e).hcp.cqOut = s.hcp.cqOut ++ [(q, e)] := by
    unfold State.entryCounted
    rw [cqOut_setQueue, State.setFld, State.setReg_hcp, (entryStored_stored s q e).hcp]
  rw [cqWrite_eq]
  split
  · exact (cqOut_signalQueue ..).trans counted
  · exact counted

/-- An entry written leaves what the queue holds back as it is. -/
theorem held_cqWrite (s : State) (q : Nat) (e : CqEntry) :
    ((s.cqWrite q e).queue q).hold = (s.queue q).hold ∧ ((s.cqWrite q e).queue q).waiting = (s.queue q).waiting ∧ ((s.cqWrite q e).queue q).evLost = (s.queue q).evLost := by
  have counted := queue_setQueue ((s.entryStored q e).setFld (R.HCP_Q_STATUS q) F.HCP_Q_STATUS_CQ_TAIL ((s.cqTail q + 1) % (s.entryStored q e).cqSize q)) q
  rw [cqWrite_eq]
  split
  · rw [queue_signalQueue]
    simp only [State.entryCounted, counted, and_self]
  · simp only [State.entryCounted, counted, and_self]

theorem inForm_cqWrite {s : State} (form : InForm s) (q : Nat) (e : CqEntry) : InForm (s.cqWrite q e) := by
  have counted : InForm (s.entryCounted q e) := by
    unfold State.entryCounted
    exact inForm_setQueue (State.inv_setFld ((entryStored_stored s q e).inForm form) _ _ _) q _
  rw [cqWrite_eq]
  split
  · exact ⟨(regs_signalQueue (s.entryCounted q e) q).symm ▸ counted.1, (mem_signalQueue (s.entryCounted q e) q).symm ▸ counted.2⟩
  · exact counted

theorem beq_one_of_zero {n : Nat} (zero : n = 0) : (n == 1) = false := by rw [zero]; rfl

/-! ## Doorbells -/

section Doorbells

variable {s : State} {q v : Nat}

theorem exec_sqTailDoorbell (live : s.tst.dwell = none) : exec (.sqTailDoorbell q v) s = .next (s.sqDoorbell q v) := by
  simp only [exec_sqTailDoorbell_arm, execSqTailDoorbell, live, Option.isSome_none, Bool.false_eq_true, if_false]

theorem exec_cqHeadDoorbell (live : s.tst.dwell = none) : exec (.cqHeadDoorbell q v) s = .next (s.cqDoorbell q v) := by
  simp only [exec_cqHeadDoorbell_arm, execCqHeadDoorbell, live, Option.isSome_none, Bool.false_eq_true, if_false]

theorem sqDoorbell_sets (on : s.sqOn q = true) (below : v % 4096 < s.sqSize q) : s.sqDoorbell q v = s.setQueue q { s.queue q with sqTail := v % 4096 } := by
  simp only [State.sqDoorbell, on, Bool.true_eq_false, if_false, below, if_true]

theorem sqDoorbell_errs (on : s.sqOn q = true) (above : s.sqSize q ≤ v % 4096) : s.sqDoorbell q v = s.setFld (R.HCP_Q_STATUS q) F.HCP_Q_STATUS_DB_ERR 1 := by
  simp only [State.sqDoorbell, on, Bool.true_eq_false, if_false, Nat.not_lt.mpr above]

/-- The host's head moved, nothing drained yet. -/
def State.headMoved (s : State) (q h : Nat) : State := s.setQueue q { s.queue q with cqHead := h }

theorem cqDoorbell_drains (on : s.cqOn q = true) (below : v % 65536 < s.cqSize q) :
    s.cqDoorbell q v = ((drainQueue ((s.queue q).hold.length + (s.queue q).waiting.length) q (s.headMoved q (v % 65536))).postLost q).showQueue q := by
  have on' : (s.headMoved q (v % 65536)).cqOn q = true := on
  unfold State.cqDoorbell
  rw [State.headMoved] at on' ⊢
  simp only [below, on', if_true, queue_setQueue]

theorem cqFull_headMoved (s : State) (q h : Nat) : (s.headMoved q h).cqFull q = ((s.cqTail q + 1) % s.cqSize q == h) := by
  rw [State.cqFull, State.headMoved, queue_setQueue]
  rfl

theorem drainQueue_full (n : Nat) (full : s.cqFull q = true) : drainQueue n q s = s := by
  cases n with
  | zero => rfl
  | succ n => simp only [drainQueue, full, if_true]

theorem drainQueue_one {e : CqEntry} (room : s.cqFull q = false) (hold : (s.queue q).hold = [e]) (waiting : (s.queue q).waiting = []) :
    drainQueue 1 q s = (s.setQueue q { s.queue q with hold := [], waiting := [] }).cqWrite q e := by
  simp only [drainQueue, room, hold, waiting, Bool.false_eq_true, if_false, List.take_nil, List.drop_nil, List.append_nil]

theorem postLost_none (lost : (s.queue q).evLost = 0) : s.postLost q = s := by
  simp only [State.postLost, lost, true_or, if_true]

end Doorbells

/-! ## Enabling and disabling (R466) -/

section Enabling

variable {s : State} (form : InForm s) {q : Nat}

include form

/-- A submission queue enabled, with its head at 0. -/
theorem sqEnable_starts (off : s.sqOn q = false) :
    ∃ t : State, exec (.sqEnable q) s = .next t ∧ t.sqOn q = true ∧ t.fld (R.HCP_Q_STATUS q) F.HCP_Q_STATUS_SQ_HEAD = 0 ∧ (t.queue q).sqTail = 0 ∧
      (∀ o, o ≠ R.HCP_Q_CFG q → o ≠ R.HCP_Q_STATUS q → t.reg o = s.reg o) ∧ t.mem = s.mem := by
  have on : InForm (s.setFld (R.HCP_Q_CFG q) F.HCP_Q_CFG_SQ_EN 1) := State.inv_setFld form _ _ _
  let u := (s.setFld (R.HCP_Q_CFG q) F.HCP_Q_CFG_SQ_EN 1).setFld (R.HCP_Q_STATUS q) F.HCP_Q_STATUS_SQ_HEAD 0
  refine ⟨u.setQueue q { u.queue q with sqTail := 0 }, ?_, ?_, ?_, ?_, ?_, ?_⟩
  · exact congrArg Host.Outcome.next (if_neg (ne_true_of_eq_false off))
  · rw [sqOn_setQueue]
    exact beq_iff_eq.mpr ((State.fld_setReg_ne on _ (qCfg_ne_qStatus q q) _).trans (State.fld_setFld_same form _ _ 1 (by decide) (by decide)))
  · rw [State.fld_setQueue]
    exact State.fld_setFld_same on _ _ 0 (by decide) (by decide)
  · rw [queue_setQueue]
  · intro o cfg st
    rw [State.reg_setQueue]
    exact (State.reg_setReg_ne on _ st).trans (State.reg_setReg_ne form _ cfg)
  · rw [mem_setQueue]
    exact (State.setFld_mem ..).trans (State.setFld_mem ..)

theorem sqDisable_stops :
    ∃ t : State, exec (.sqDisable q) s = .next t ∧ t.sqOn q = false ∧ t.cqOn q = s.cqOn q ∧ t.hcp = s.hcp ∧ (∀ o, o ≠ R.HCP_Q_CFG q → t.reg o = s.reg o) := by
  refine ⟨s.setFld (R.HCP_Q_CFG q) F.HCP_Q_CFG_SQ_EN 0, rfl, ?_, ?_, State.setReg_hcp .., fun o cfg => State.reg_setReg_ne form _ cfg⟩
  · exact beq_one_of_zero (State.fld_setFld_same form _ _ 0 (by decide) (by decide))
  · exact congrArg (· == 1) (State.fld_setFld_apart form _ 0 (by decide) (by decide) (by decide) (by decide))

/-- A completion queue enabled, with its tail at 0. -/
def State.cqStarted (s : State) (q : Nat) : State :=
  let u := (s.setFld (R.HCP_Q_CFG q) F.HCP_Q_CFG_CQ_EN 1).setFld (R.HCP_Q_STATUS q) F.HCP_Q_STATUS_CQ_TAIL 0
  u.setQueue q { u.queue q with cqHead := 0, phase := 1, unsignalled := 0 }

theorem cqEnable_starts (off : s.cqOn q = false) :
    ∃ t : State, exec (.cqEnable q) s = .next t ∧ t.cqOn q = true ∧ t.cqTail q = 0 ∧ (t.queue q).cqHead = 0 ∧ (t.queue q).phase = 1 ∧
      (∀ o, o ≠ R.HCP_Q_CFG q → o ≠ R.HCP_Q_STATUS q → t.reg o = s.reg o) ∧ t.mem = s.mem := by
  have on : InForm (s.setFld (R.HCP_Q_CFG q) F.HCP_Q_CFG_CQ_EN 1) := State.inv_setFld form _ _ _
  have started : InForm (s.cqStarted q) := by
    unfold State.cqStarted
    exact inForm_setQueue (State.inv_setFld on _ _ _) q _
  have queue : ((s.cqStarted q).showQueue q).queue q = _ := (queue_showQueue ..).trans (queue_setQueue ..)
  refine ⟨(s.cqStarted q).showQueue q, ?_, ?_, ?_, ?_, ?_, ?_, ?_⟩
  · exact congrArg Host.Outcome.next (if_neg (ne_true_of_eq_false off))
  · refine beq_iff_eq.mpr ((State.fld_setReg_ne started _ (qCfg_ne_qStatus q q) _).trans ?_)
    rw [State.cqStarted, State.fld_setQueue]
    exact (State.fld_setReg_ne on _ (qCfg_ne_qStatus q q) _).trans (State.fld_setFld_same form _ _ 1 (by decide) (by decide))
  · rw [cqTail_showQueue q started, State.cqStarted, cqTail_setQueue]
    exact State.fld_setFld_same on _ _ 0 (by decide) (by decide)
  · rw [queue]
  · rw [queue]
  · intro o cfg st
    rw [reg_showQueue q started st, State.cqStarted, State.reg_setQueue]
    exact (State.reg_setReg_ne on _ st).trans (State.reg_setReg_ne form _ cfg)
  · rw [mem_showQueue, State.cqStarted, mem_setQueue, State.setFld, State.setReg_mem, State.setFld, State.setReg_mem]

/-- A completion queue disabled, what it held back discarded and counted. -/
def State.cqDropped (s : State) (q : Nat) : State :=
  ((s.setFld (R.HCP_Q_CFG q) F.HCP_Q_CFG_CQ_EN 0).bump R.HCP_CQ_DROP ((s.queue q).hold ++ (s.queue q).waiting).length).setQueue q { s.queue q with hold := [], waiting := [], unsignalled := 0 }

omit form in
theorem cqDisable_eq : s.cqDisable q = (s.cqDropped q).showQueue q := rfl

omit form in
theorem cqDrop_ne_qCfg (q : Nat) : R.HCP_Q_CFG q ≠ R.HCP_CQ_DROP := by
  simp only [R.HCP_Q_CFG, R.HCP_CQ_DROP]
  omega

omit form in
theorem cqDrop_ne_qStatus (q : Nat) : R.HCP_CQ_DROP ≠ R.HCP_Q_STATUS q := by
  simp only [R.HCP_Q_STATUS, R.HCP_CQ_DROP]
  omega

theorem inForm_cqDropped : InForm (s.cqDropped q) := by
  unfold State.cqDropped
  exact inForm_setQueue (State.inv_bump (State.inv_setFld form _ _ _) _ _) q _

theorem inForm_cqDisable : InForm (s.cqDisable q) := by
  rw [cqDisable_eq]
  exact State.inv_setFlds (inForm_cqDropped form) _ _

theorem fld_cqDisable (f : Fld) : (s.cqDisable q).fld (R.HCP_Q_CFG q) f = (s.setFld (R.HCP_Q_CFG q) F.HCP_Q_CFG_CQ_EN 0).fld (R.HCP_Q_CFG q) f := by
  rw [cqDisable_eq, State.fld, reg_showQueue q (inForm_cqDropped form) (qCfg_ne_qStatus q q), State.cqDropped, State.reg_setQueue]
  exact State.fld_setReg_ne (State.inv_setFld form _ _ _) _ (cqDrop_ne_qCfg q) f

theorem cqOn_cqDisable : (s.cqDisable q).cqOn q = false :=
  beq_eq_false_iff_ne.mpr (by rw [fld_cqDisable form, State.fld_setFld_same form _ _ 0 (by decide) (by decide)]; decide)

theorem sqOn_cqDisable : (s.cqDisable q).sqOn q = s.sqOn q :=
  congrArg (· == 1) ((fld_cqDisable form _).trans (State.fld_setFld_apart form _ 0 (by decide) (by decide) (by decide) (by decide)))

omit form in
theorem queue_cqDisable : (s.cqDisable q).queue q = { s.queue q with hold := [], waiting := [], unsignalled := 0 } := by
  rw [cqDisable_eq, queue_showQueue, State.cqDropped, queue_setQueue]

omit form in
theorem cqOut_cqDisable : (s.cqDisable q).hcp.cqOut = s.hcp.cqOut := by
  rw [cqDisable_eq, hcp_showQueue, State.cqDropped, cqOut_setQueue]
  exact congrArg Hcp.cqOut ((State.setReg_hcp ..).trans (State.setFld_hcp ..))

theorem drop_cqDisable : (s.cqDisable q).reg R.HCP_CQ_DROP = s.reg R.HCP_CQ_DROP + BitVec.ofNat 64 ((s.queue q).hold.length + (s.queue q).waiting.length) := by
  rw [cqDisable_eq, reg_showQueue q (inForm_cqDropped form) (cqDrop_ne_qStatus q), ← List.length_append]
  rw [State.cqDropped, State.reg_setQueue, State.bump, State.reg_setReg_same (State.inv_setFld form _ _ _), State.setFld, State.reg_setReg_ne form _ (cqDrop_ne_qCfg q).symm]

omit form in
theorem msixCoalesceTimeout_sends (counted : (s.queue q).unsignalled ≠ 0) :
    ∃ t : State, exec (.msixCoalesceTimeout q) s = .next t ∧ (t.queue q).unsignalled = 0 ∧ t.regs = s.regs ∧
      t.hcp.msix = s.hcp.msix ++ (if s.fld (R.HCP_Q_CFG q) F.HCP_Q_CFG_VECTOR < 64 then [s.fld (R.HCP_Q_CFG q) F.HCP_Q_CFG_VECTOR] else []) := by
  let u : State := { s with now := max s.now ((s.queue q).oldest + 1000 * s.fld (R.HCP_Q_CFG q) F.HCP_Q_CFG_CO_TIME) }
  exact ⟨u.signalQueue q, if_neg counted, by rw [queue_signalQueue], regs_signalQueue u q, msix_signalQueue u q⟩

/-- Both queues of a pair disabled (R464, R560). -/
def State.pairOff (s : State) (q : Nat) : State := (s.setFld (R.HCP_Q_CFG q) F.HCP_Q_CFG_SQ_EN 0).cqDisable q

theorem sqOn_pairOff : (s.pairOff q).sqOn q = false :=
  (sqOn_cqDisable (State.inv_setFld form _ _ _)).trans (beq_one_of_zero (State.fld_setFld_same form _ _ 0 (by decide) (by decide)))

theorem cqOn_pairOff : (s.pairOff q).cqOn q = false := cqOn_cqDisable (State.inv_setFld form _ _ _)

theorem inForm_pairOff : InForm (s.pairOff q) := inForm_cqDisable (State.inv_setFld form _ _ _)

theorem fld_pairOff_ne {p : Nat} (other : p ≠ q) (f : Fld) : (s.pairOff q).fld (R.HCP_Q_CFG p) f = s.fld (R.HCP_Q_CFG p) f := by
  have off : InForm (s.setFld (R.HCP_Q_CFG q) F.HCP_Q_CFG_SQ_EN 0) := State.inv_setFld form _ _ _
  rw [State.pairOff, cqDisable_eq, State.fld, reg_showQueue q (inForm_cqDropped off) (qCfg_ne_qStatus p q), State.cqDropped, State.reg_setQueue]
  refine (State.fld_setReg_ne (State.inv_setFld off _ _ _) _ (cqDrop_ne_qCfg p) f).trans ?_
  exact (State.fld_setReg_ne off _ (qCfg_inj other) f).trans (State.fld_setReg_ne form _ (qCfg_inj other) f)

omit form in
theorem cmds_pairOff : (s.pairOff q).hcp.cmds = s.hcp.cmds := by
  rw [State.pairOff, cqDisable_eq, hcp_showQueue, State.cqDropped, cmds_setQueue, State.bump, State.setReg_hcp, State.setFld_hcp, State.setFld_hcp]

omit form in
theorem mem_pairOff : (s.pairOff q).mem = s.mem := by
  rw [State.pairOff, cqDisable_eq, mem_showQueue, State.cqDropped, mem_setQueue, State.bump, State.setReg_mem, State.setFld_mem, State.setFld_mem]

omit form in
theorem queueReinit_eq (cmd : Option Nat) : s.queueReinit q cmd = (s.pairOff q).pushReinit 1 q cmd ((if s.sqOn q then 1 else 0) + (if s.cqOn q then 2 else 0)) := rfl

omit form in
theorem sqOn_pushReinit (kind index was : Nat) (cmd : Option Nat) : (s.pushReinit kind index cmd was).sqOn q = s.sqOn q := rfl

omit form in
theorem cqOn_pushReinit (kind index was : Nat) (cmd : Option Nat) : (s.pushReinit kind index cmd was).cqOn q = s.cqOn q := rfl

omit form in
theorem queue_pushReinit (kind index was : Nat) (cmd : Option Nat) : (s.pushReinit kind index cmd was).queue q = s.queue q := rfl

theorem queueDmaError_enters (lt : q < 64) (on : s.sqOn q = true ∨ s.cqOn q = true) (free : s.reinit.any (fun r => r.kind == 1 && r.index == q) = false) :
    ∃ t : State, exec (.queueDmaError q) s = .next t ∧ t.sqOn q = false ∧ t.cqOn q = false ∧ (t.queue q).hold = [] ∧ t.reinit.length = s.reinit.length + 1 := by
  have held : ((s.pairOff q).queue q).hold = [] := congrArg Queue.hold queue_cqDisable
  have kept : (s.pairOff q).reinit = s.reinit := by
    rw [State.pairOff, cqDisable_eq, State.showQueue, State.setFlds_reinit, State.cqDropped, reinit_setQueue, State.bump_reinit, State.setFld_reinit, State.setFld_reinit]
  refine ⟨s.queueReinit q none, if_pos ⟨lt, on, free⟩, ?_, ?_, ?_, ?_⟩
  all_goals rw [queueReinit_eq]
  · rw [sqOn_pushReinit, sqOn_pairOff form]
  · rw [cqOn_pushReinit, cqOn_pairOff form]
  · rw [queue_pushReinit, held]
  · rw [State.pushReinit, kept, List.length_append, List.length_singleton]

end Enabling

/-! ## The reset of H0 (R464) -/

section Reset

variable {s : State} (form : InForm s)

/-- A pair disabled where one of its queues is enabled. -/
def State.pairReset (s : State) (q : Nat) : State := if s.sqOn q || s.cqOn q then s.pairOff q else s

/-- Every pair of a list disabled in turn. -/
def State.pairsReset (s : State) (l : List Nat) : State := l.foldl State.pairReset s

/-- A table of vectors cleared in turn. -/
def State.tableCleared (s : State) (l : List Nat) : State := l.foldl (fun s k => s.setReg (R.HCP_MSIX_TABLE k) 0) s

theorem h0Reset_eq (s : State) : s.h0Reset = ((s.pairsReset (List.range 64)).tableCleared (List.range 144)).setReg R.HCP_BAR2_BASE 0 := rfl

theorem inForm_pairReset (h : InForm s) (q : Nat) : InForm (s.pairReset q) := by
  unfold State.pairReset
  split
  · exact inForm_pairOff h
  · exact h

theorem off_pairReset (h : InForm s) (q : Nat) : (s.pairReset q).sqOn q = false ∧ (s.pairReset q).cqOn q = false := by
  unfold State.pairReset
  split
  · exact ⟨sqOn_pairOff h, cqOn_pairOff h⟩
  next off => exact Bool.or_eq_false_iff.mp (eq_false_of_ne_true off)

theorem fld_pairReset_ne (h : InForm s) {q p : Nat} (other : p ≠ q) (f : Fld) : (s.pairReset q).fld (R.HCP_Q_CFG p) f = s.fld (R.HCP_Q_CFG p) f := by
  unfold State.pairReset
  split
  · exact fld_pairOff_ne h other f
  · rfl

theorem kept_pairReset (s : State) (q : Nat) : (s.pairReset q).hcp.cmds = s.hcp.cmds ∧ (s.pairReset q).mem = s.mem := by
  unfold State.pairReset
  split
  · exact ⟨cmds_pairOff, mem_pairOff⟩
  · exact ⟨rfl, rfl⟩

theorem inForm_pairsReset (h : InForm s) (l : List Nat) : InForm (s.pairsReset l) := by
  induction l generalizing s with
  | nil => exact h
  | cons p l ih => exact ih (inForm_pairReset h p)

theorem kept_pairsReset (s : State) (l : List Nat) : (s.pairsReset l).hcp.cmds = s.hcp.cmds ∧ (s.pairsReset l).mem = s.mem := by
  induction l generalizing s with
  | nil => exact ⟨rfl, rfl⟩
  | cons p l ih => exact ⟨(ih (s.pairReset p)).1.trans (kept_pairReset s p).1, (ih (s.pairReset p)).2.trans (kept_pairReset s p).2⟩

/-- A pair that is off stays off while others are reset. -/
theorem stays_off_pairsReset (h : InForm s) (l : List Nat) {q : Nat} (off : s.sqOn q = false ∧ s.cqOn q = false) : (s.pairsReset l).sqOn q = false ∧ (s.pairsReset l).cqOn q = false := by
  induction l generalizing s with
  | nil => exact off
  | cons p l ih =>
    refine ih (inForm_pairReset h p) ?_
    by_cases same : q = p
    · exact same ▸ off_pairReset h q
    · exact ⟨(congrArg (· == 1) (fld_pairReset_ne h same _)).trans off.1, (congrArg (· == 1) (fld_pairReset_ne h same _)).trans off.2⟩

theorem off_pairsReset (h : InForm s) {l : List Nat} {q : Nat} (listed : q ∈ l) : (s.pairsReset l).sqOn q = false ∧ (s.pairsReset l).cqOn q = false := by
  induction l generalizing s with
  | nil => exact absurd listed List.not_mem_nil
  | cons p l ih =>
    rcases List.mem_cons.mp listed with rfl | later
    · exact stays_off_pairsReset (inForm_pairReset h q) l (off_pairReset h q)
    · exact ih (inForm_pairReset h p) later

theorem inForm_tableCleared (h : InForm s) (l : List Nat) : InForm (s.tableCleared l) := by
  induction l generalizing s with
  | nil => exact h
  | cons k l ih => exact ih (State.inv_setReg h _ _)

theorem kept_tableCleared (s : State) (l : List Nat) : (s.tableCleared l).hcp = s.hcp ∧ (s.tableCleared l).mem = s.mem := by
  induction l generalizing s with
  | nil => exact ⟨rfl, rfl⟩
  | cons k l ih => exact ⟨(ih _).1.trans (State.setReg_hcp ..), (ih _).2.trans (State.setReg_mem ..)⟩

theorem reg_tableCleared_ne (h : InForm s) (l : List Nat) {o : Nat} (other : ∀ k, o ≠ R.HCP_MSIX_TABLE k) : (s.tableCleared l).reg o = s.reg o := by
  induction l generalizing s with
  | nil => rfl
  | cons k l ih => exact (ih (State.inv_setReg h _ _)).trans (State.reg_setReg_ne h _ (other k))

theorem stays_zero_tableCleared (h : InForm s) (l : List Nat) {o : Nat} (zero : s.reg o = 0) : (s.tableCleared l).reg o = 0 := by
  induction l generalizing s with
  | nil => exact zero
  | cons k l ih =>
    refine ih (State.inv_setReg h _ _) ?_
    rw [State.reg_setReg h]
    split
    · rfl
    · exact zero

theorem reg_tableCleared (h : InForm s) {l : List Nat} {k : Nat} (listed : k ∈ l) : (s.tableCleared l).reg (R.HCP_MSIX_TABLE k) = 0 := by
  induction l generalizing s with
  | nil => exact absurd listed List.not_mem_nil
  | cons p l ih =>
    rcases List.mem_cons.mp listed with rfl | later
    · exact stays_zero_tableCleared (State.inv_setReg h _ _) l (State.reg_setReg_same h _ _)
    · exact ih (State.inv_setReg h _ _) later

theorem qCfg_ne_msixTable {q : Nat} (lt : q < 64) (k : Nat) : R.HCP_Q_CFG q ≠ R.HCP_MSIX_TABLE k := by
  simp only [R.HCP_Q_CFG, R.HCP_MSIX_TABLE]
  omega

theorem bar2Base_ne_msixTable (k : Nat) : R.HCP_MSIX_TABLE k ≠ R.HCP_BAR2_BASE := by
  simp only [R.HCP_BAR2_BASE, R.HCP_MSIX_TABLE]
  omega

theorem bar2Base_ne_qCfg (q : Nat) : R.HCP_Q_CFG q ≠ R.HCP_BAR2_BASE := by
  simp only [R.HCP_BAR2_BASE, R.HCP_Q_CFG]
  omega

include form

theorem fld_h0Reset {q : Nat} (lt : q < 64) (f : Fld) : s.h0Reset.fld (R.HCP_Q_CFG q) f = (s.pairsReset (List.range 64)).fld (R.HCP_Q_CFG q) f := by
  have off := inForm_pairsReset form (List.range 64)
  rw [h0Reset_eq, State.fld_setReg_ne (inForm_tableCleared off _) _ (bar2Base_ne_qCfg q)]
  exact congrArg (fget · f) (reg_tableCleared_ne off _ (qCfg_ne_msixTable lt))

theorem h0Reset_clears {q : Nat} (lt : q < 64) :
    s.h0Reset.sqOn q = false ∧ s.h0Reset.cqOn q = false ∧ (∀ k, k < 144 → s.h0Reset.reg (R.HCP_MSIX_TABLE k) = 0) ∧ s.h0Reset.reg R.HCP_BAR2_BASE = 0 ∧ s.h0Reset.hcp.cmds = s.hcp.cmds ∧
      s.h0Reset.mem = s.mem := by
  have reset := inForm_pairsReset form (List.range 64)
  have cleared := inForm_tableCleared reset (List.range 144)
  obtain ⟨sq, cq⟩ := off_pairsReset form (List.mem_range.mpr lt)
  obtain ⟨hcp, mem⟩ := kept_tableCleared (s.pairsReset (List.range 64)) (List.range 144)
  obtain ⟨cmds, bytes⟩ := kept_pairsReset s (List.range 64)
  refine ⟨(congrArg (· == 1) (fld_h0Reset form lt _)).trans sq, (congrArg (· == 1) (fld_h0Reset form lt _)).trans cq, fun k below => ?_, ?_, ?_, ?_⟩
  all_goals rw [h0Reset_eq]
  · rw [State.reg_setReg_ne cleared _ (bar2Base_ne_msixTable k)]
    exact reg_tableCleared reset (List.mem_range.mpr below)
  · exact State.reg_setReg_same cleared _ _
  · rw [State.setReg_hcp, hcp, cmds]
  · rw [State.setReg_mem, mem, bytes]

end Reset

/-! ## The obligation -/

section CqHead

variable {s : State} {q v : Nat} (form : InForm s) (lt : q < 64) (live : s.tst.dwell = none) (below : v % 65536 < s.cqSize q) (on : s.cqOn q = true) (lost : (s.queue q).evLost = 0)
  (waiting : (s.queue q).waiting = [])

include live below on

/-- Without room, or with nothing held back, a completion doorbell moves the head alone. -/
theorem cqHeadDoorbell_moves (lost : (s.queue q).evLost = 0)
    (still : drainQueue ((s.queue q).hold.length + (s.queue q).waiting.length) q (s.headMoved q (v % 65536)) = s.headMoved q (v % 65536)) :
    exec (.cqHeadDoorbell q v) s = .next ((s.headMoved q (v % 65536)).showQueue q) := by
  have lost' : ((s.headMoved q (v % 65536)).queue q).evLost = 0 := by rw [State.headMoved, queue_setQueue]; exact lost
  rw [exec_cqHeadDoorbell live, cqDoorbell_drains on below, still, postLost_none lost']

include form lt lost waiting

theorem cqHeadDoorbell_writes {e : CqEntry} (hold : (s.queue q).hold = [e]) (room : (s.cqTail q + 1) % s.cqSize q ≠ v % 65536) :
    ∃ t : State, exec (.cqHeadDoorbell q v) s = .next t ∧ t.hcp.cqOut = s.hcp.cqOut ++ [(q, e)] ∧ (t.queue q).hold = [] ∧ t.cqTail q = (s.cqTail q + 1) % s.cqSize q := by
  let u := s.headMoved q (v % 65536)
  have queue : u.queue q = { s.queue q with cqHead := v % 65536 } := queue_setQueue ..
  have full : u.cqFull q = false := (cqFull_headMoved ..).trans (beq_eq_false_iff_ne.mpr room)
  let w := u.setQueue q { u.queue q with hold := [], waiting := [] }
  have drained : drainQueue ((s.queue q).hold.length + (s.queue q).waiting.length) q u = w.cqWrite q e := by
    rw [hold, waiting]
    exact drainQueue_one full (by rw [queue]; exact hold) (by rw [queue]; exact waiting)
  have formed : InForm w := inForm_setQueue (inForm_setQueue form q _) q _
  obtain ⟨held, -, none⟩ := held_cqWrite w q e
  have kept : w.queue q = { u.queue q with hold := [], waiting := [] } := queue_setQueue ..
  refine ⟨(w.cqWrite q e).showQueue q, ?_, ?_, ?_, ?_⟩
  · rw [exec_cqHeadDoorbell live, cqDoorbell_drains on below, drained, postLost_none (none.trans (by rw [kept, queue]; exact lost))]
  · rw [hcp_showQueue, cqOut_cqWrite]
    rfl
  · rw [queue_showQueue, held, kept]
  · rw [cqTail_showQueue q (inForm_cqWrite formed q e), cqTail_cqWrite formed lt]
    rfl

end CqHead

/-- Settles O40: each row by the rule of its operation above. -/
theorem queueRows : Obligations.QueueRows := by
  unfold Obligations.QueueRows
  intro s q v form lt
  refine ⟨fun live on => ⟨fun below => ?_, fun above => ?_⟩, fun live off => ?_, fun live above => ?_, fun live below on => ?_, sqEnable_starts form, sqDisable_stops form, cqEnable_starts form, ?_,
    msixCoalesceTimeout_sends, queueDmaError_enters form lt, ⟨s.h0Reset, rfl, rfl, h0Reset_clears form lt⟩⟩
  · exact ⟨_, (exec_sqTailDoorbell live).trans (congrArg Host.Outcome.next (sqDoorbell_sets on below)), queue_setQueue .., rfl, rfl⟩
  · exact (exec_sqTailDoorbell live).trans (congrArg Host.Outcome.next (sqDoorbell_errs on above))
  · exact (exec_sqTailDoorbell live).trans (congrArg Host.Outcome.next (if_pos off))
  · exact (exec_cqHeadDoorbell live).trans (congrArg Host.Outcome.next (if_neg (Nat.not_lt.mpr above)))
  · rintro x rfl lost waiting
    have moved : (s.headMoved q (v % 65536)).queue q = { s.queue q with cqHead := v % 65536 } := queue_setQueue ..
    refine ⟨fun hold => ?_, fun e hold room => cqHeadDoorbell_writes form lt live below on lost waiting hold room, fun full => ?_⟩
    · exact ⟨_, cqHeadDoorbell_moves live below on lost (by rw [hold, waiting]; rfl), (queue_showQueue ..).trans moved, by rw [hcp_showQueue]; rfl⟩
    · have same : (s.headMoved q (v % 65536)).cqFull q = true := (cqFull_headMoved ..).trans (beq_iff_eq.mpr (Decidable.not_not.mp full))
      exact ⟨_, cqHeadDoorbell_moves live below on lost (drainQueue_full _ same), by rw [hcp_showQueue]; rfl, by rw [queue_showQueue, moved]⟩
  · exact ⟨_, rfl, cqOn_cqDisable form, sqOn_cqDisable form, congrArg Queue.hold queue_cqDisable, congrArg Queue.waiting queue_cqDisable, cqOut_cqDisable, drop_cqDisable form⟩

end Sys2Proof.Machine
end

section
/-!
PROOFS of the family 16_host_commands: the device's own commands (O42).
-/
namespace Sys2Proof.Machine

open Sys2Proof

/-! ## Words read -/

theorem readWords_one (off : Nat) (s : State) : readWords 1 off s = ([(s.readWord off).1], (s.readWord off).2) := rfl

theorem readWords_two (off : Nat) (s : State) :
    readWords 2 off s = ([(s.readWord off).1, ((s.readWord off).2.readWord (off + 8)).1], ((s.readWord off).2.readWord (off + 8)).2) := rfl

theorem length_readWords (n off : Nat) (s : State) : (readWords n off s).1.length = n := by
  induction n generalizing off s with
  | zero => rfl
  | succ n ih => exact congrArg (· + 1) (ih _ _)

/-! ## Error records (R552) -/

/-- What is unread is newer than the newest record returned. -/
theorem lastRead_lt_of_unread {s : State} {r : ErrRec} (unread : r ∈ s.unread) : s.errs.lastRead < r.rseq := by
  obtain ⟨-, newer⟩ := List.mem_filter.mp ((mem_sortOn ..).mp unread)
  exact Nat.blt_eq.mp newer

theorem le_foldl_max (l : List Nat) (b : Nat) : b ≤ l.foldl max b ∧ ∀ x ∈ l, x ≤ l.foldl max b := by
  induction l generalizing b with
  | nil => exact ⟨Nat.le_refl b, fun x none => absurd none List.not_mem_nil⟩
  | cons y l ih =>
    obtain ⟨base, rest⟩ := ih (max b y)
    refine ⟨Nat.le_trans (Nat.le_max_left b y) base, fun x listed => ?_⟩
    rcases List.mem_cons.mp listed with rfl | later
    · exact Nat.le_trans (Nat.le_max_right b x) base
    · exact rest x later

/-- The error ring once some records have been returned: they are marked, and the newest is noted. -/
def State.errsReturned (s : State) (rs : List ErrRec) : State :=
  let got := rs.map ErrRec.rseq
  let ring : Table ErrRec := s.errs.ring.map (fun (p : Nat × ErrRec) => (p.1, if got.contains p.2.rseq then { p.2 with read := true } else p.2))
  ({ s with errs := { s.errs with ring := ring, lastRead := got.foldl max s.errs.lastRead, lost := 0 } } : State).setFld R.ERR_STATUS F.ERR_STATUS_UNREAD (ring.filter (fun (p : Nat × ErrRec) => !p.2.read)).length

theorem lost_errsReturned (s : State) (rs : List ErrRec) : (s.errsReturned rs).errs.lost = 0 := by
  rw [State.errsReturned, State.setFld_errs]

theorem mem_errsReturned (s : State) (rs : List ErrRec) : (s.errsReturned rs).mem = s.mem := by
  rw [State.errsReturned, State.setFld_mem]

theorem lastRead_errsReturned (s : State) (rs : List ErrRec) : (s.errsReturned rs).errs.lastRead = (rs.map ErrRec.rseq).foldl max s.errs.lastRead := by
  rw [State.errsReturned, State.setFld_errs]

/-- A record returned is not returned again. -/
theorem not_returned_of_unread {s : State} {rs : List ErrRec} {r : ErrRec} (unread : r ∈ (s.errsReturned rs).unread) : ¬∃ x ∈ rs, x.rseq = r.rseq := by
  rintro ⟨x, returned, same⟩
  have newer := lastRead_lt_of_unread unread
  have older := (le_foldl_max (rs.map ErrRec.rseq) s.errs.lastRead).2 x.rseq (List.mem_map_of_mem returned)
  rw [lastRead_errsReturned] at newer
  omega

theorem cmdErrRead_eq (c : Cmd) (s : State) :
    cmdErrRead c s = (.done .ok [(s.unread.take (c.par 8 2)).length, (s.lanternStore (c.par 0 8) ((s.unread.take (c.par 8 2)).flatMap errBytes)).errs.lost],
      (s.lanternStore (c.par 0 8) ((s.unread.take (c.par 8 2)).flatMap errBytes)).errsReturned (s.unread.take (c.par 8 2))) := rfl

/-! ## The journal (R520) -/

theorem length_entriesFrom_le (s : State) (first stop count : Nat) : (s.entriesFrom first stop count).length ≤ count := by
  refine Nat.le_trans (List.length_filterMap_le ..) ?_
  rw [List.length_range]
  exact Nat.min_le_left ..

section Starting

variable {s : State} {id : Nat} {c : Cmd}

theorem exec_journalQuery_of_out (starts : Starts s id 0x0901 c) :
    let old := (s.reg R.JNL_OLDEST).toNat
    let first := if c.par 0 8 = 0 then old else c.par 0 8
    (first < old ∨ id < first) → exec (.journalQuery id) s = .next ((s.bump R.JNL_QUERIES).finishCmd id .journalRange [0, old % 2 ^ 32, old / 2 ^ 32]) := by
  obtain rfl : c.dseq = id := dseq_of_starts starts
  intro old first out
  exact congrArg Host.Outcome.next (attempt_done starts (if_pos out))

theorem exec_journalQuery_of_held (starts : Starts s id 0x0901 c) :
    let old := (s.reg R.JNL_OLDEST).toNat
    let first := if c.par 0 8 = 0 then old else c.par 0 8
    old ≤ first → first ≤ id → exec (.journalQuery id) s =
      .next (((s.lanternStore (c.par 16 8) ((s.entriesFrom first id (c.par 8 2)).flatMap jBytes)).bump R.JNL_QUERIES).finishCmd id .ok
        [(s.entriesFrom first id (c.par 8 2)).length, old % 2 ^ 32, old / 2 ^ 32]) := by
  obtain rfl : c.dseq = id := dseq_of_starts starts
  intro old first low high
  have held : ¬(first < old ∨ c.dseq < first) := not_or.mpr ⟨Nat.not_lt.mpr low, Nat.not_lt.mpr high⟩
  exact congrArg Host.Outcome.next (attempt_done starts (if_neg held))

/-! ## Registers (R483, R495) -/

theorem cmdRegRead_eq (awake : s.needsWake (c.par 0 4) (c.par 4 1) = false) :
    cmdRegRead c s = (.done .ok (halves (readWords (min 2 (c.par 4 1)) (c.par 0 4) s).1), (readWords (min 2 (c.par 4 1)) (c.par 0 4) s).2) := by
  simp only [cmdRegRead, awake, Bool.false_eq_true, if_false]

theorem cmdRegRead_wait (asleep : s.needsWake (c.par 0 4) (c.par 4 1) = true) : cmdRegRead c s = (.wait .waitIdle unknown, s) := by
  simp only [cmdRegRead, asleep, if_true]

theorem cmdRegWrite_eq (awake : s.needsWake (c.par 0 4) 1 = false) :
    let x := (s.writeWord (c.par 0 4) (BitVec.ofNat 64 (c.par 8 8)) (BitVec.ofNat 64 (c.par 16 8))).readWord (c.par 0 4)
    cmdRegWrite c s = (.done .ok [x.1.toNat % 2 ^ 32, x.1.toNat / 2 ^ 32], x.2) := by
  simp only [cmdRegWrite, awake, Bool.false_eq_true, if_false]
  rfl

theorem cmdCounterSnapshot_eq (awake : s.quiescent = false) :
    let x := readWords (c.par 12 2) (c.par 8 4) s
    cmdCounterSnapshot c s = (.done .ok [c.par 12 2], x.2.lanternStore (c.par 0 8) (x.1.flatMap (fun v => bytesLE 8 v.toNat))) := by
  simp only [cmdCounterSnapshot, State.needsWake, awake, Bool.false_and, Bool.or_self, Bool.false_eq_true, if_false]

end Starting

/-- Settles O42: each command by what its start answers. -/
theorem deviceCommands : Obligations.DeviceCommands := by
  unfold Obligations.DeviceCommands
  intro s id c
  refine ⟨fun h => ?_, fun h => ?_, fun h awake => ⟨fun one => ?_, fun two => ?_⟩, fun h asleep => ?_, fun h awake => ?_, fun h => ?_, fun h awake => ⟨length_readWords .., ?_⟩, fun h => ?_, fun h => ?_,
    fun h => ?_, fun h => ?_, fun h => ?_, fun h live => ?_, fun h down => ?_, fun h => ⟨fun down => ?_, fun live => ?_⟩⟩
  · exact congrArg Host.Outcome.next (attempt_done h rfl)
  · exact congrArg Host.Outcome.next (attempt_done h rfl)
  · exact congrArg Host.Outcome.next (attempt_done h (by rw [cmdRegRead_eq awake, one]; rfl))
  · exact congrArg Host.Outcome.next (attempt_done h (by rw [cmdRegRead_eq awake, two]; rfl))
  · exact congrArg Host.Outcome.next (attempt_wait h (cmdRegRead_wait asleep))
  · exact congrArg Host.Outcome.next (attempt_done h (cmdRegWrite_eq awake))
  · exact congrArg Host.Outcome.next (attempt_done h rfl)
  · exact congrArg Host.Outcome.next (attempt_done h (cmdCounterSnapshot_eq awake))
  · exact ⟨_, congrArg Host.Outcome.next (attempt_done h (cmdErrRead_eq c s)), lost_errsReturned .., mem_errsReturned .., fun _ _ r unread => not_returned_of_unread unread⟩
  · exact ⟨exec_journalQuery_of_out h, fun low high => ⟨length_entriesFrom_le .., exec_journalQuery_of_held h low high⟩⟩
  · obtain rfl : c.dseq = id := dseq_of_starts h
    exact congrArg Host.Outcome.next (attempt_done h rfl)
  · exact congrArg Host.Outcome.next (attempt_done h rfl)
  · exact congrArg Host.Outcome.next (attempt_done h rfl)
  · exact congrArg Host.Outcome.next (attempt_done h (if_neg live))
  · exact congrArg Host.Outcome.next (attempt_done h (if_pos down))
  · exact congrArg Host.Outcome.next (attempt_done h (if_pos down))
  · exact congrArg Host.Outcome.next (attempt_done h (if_neg live))

end Sys2Proof.Machine
end

section
/-!
PROOFS of the family 18_basin_checkpoint_store: two ROLLBACK commands under one DSEQ (O51).
-/
namespace Sys2Proof.Machine

open Sys2Proof

/-- A ROLLBACK of queue 0 that holds a slot and has not started. -/
def freshRollback : Cmd := { freshPair with opcode := 0x0606 }

/-- The registers and memory of reset, and that ROLLBACK beside a started one that was admitted under the same DSEQ: nothing in the canonical form keeps the DSEQ of two commands apart. -/
def rolledBackTwice : State := { State.reset with hcp := { State.reset.hcp with cmds := [freshRollback, { freshRollback with started := true }] } }

/-- Commands admitted after a command. -/
def admittedAfter (o : Host.Outcome State Fault Refusal) : Nat := match o with | .next u => u.hcp.cmds.length | _ => 0

/-- Outside STOPPED the fresh ROLLBACK may start; the row finds the started one, which waits for the partner, and answers neither, where `refuseCmd` would answer. -/
theorem rollback_answers_none :
    (Starts rolledBackTwice 1 0x0606 freshRollback ∧ rolledBackTwice.jobState ≠ 3) ∧ admittedAfter (exec (.rollback 1 none .none 0) rolledBackTwice) = 2 ∧
      admittedAfter (.next (rolledBackTwice.refuseCmd 1 .badState 0)) = 0 := by
  decide +kernel

/-- Refutes O51: a ROLLBACK outside STOPPED is not refused where a ROLLBACK of the same DSEQ has started already. -/
theorem not_checkpoints : ¬ Obligations.Checkpoints := by
  unfold Obligations.Checkpoints
  intro commands
  have form : InForm rolledBackTwice := resetForm.1
  obtain ⟨-, -, -, -, -, -, rollback, -⟩ := commands rolledBackTwice 1 freshRollback form
  obtain ⟨⟨starts, running⟩, answers, would⟩ := rollback_answers_none
  rw [(rollback .none 0 starts).1 running, would] at answers
  exact absurd answers (by decide)

end Sys2Proof.Machine
end

section
/-!
PROOFS of the family 17_mailboxes_and_journal: mailbox channels and the persistence of the journal (O53).
-/
namespace Sys2Proof.Machine

open Sys2Proof

theorem exec_mailboxSend_arm (agent c tag : Nat) (ptr : Option Word) (s : State) : exec (.mailboxSend agent c tag ptr) s = execMailboxSend agent c tag ptr s := rfl

theorem exec_mailboxReceive_arm (agent c : Nat) (s : State) : exec (.mailboxReceive agent c) s = execMailboxReceive agent c s := rfl

/-! ## Channels (R503 to R509) -/

section Channel

variable (s : State) (c : Nat) (x : Channel)

theorem mbx_setChan : (s.setChan c x).mbx = { s.mbx with chans := tinsert s.mbx.chans c x } := by
  unfold State.setChan
  rw [State.setFlds_mbx]

theorem mem_setChan : (s.setChan c x).mem = s.mem := by
  unfold State.setChan
  rw [State.setFlds_mem]

theorem hcp_setChan : (s.setChan c x).hcp = s.hcp := by
  unfold State.setChan
  rw [State.setFlds_hcp]

theorem chan_setChan_same : (s.setChan c x).chan c = x := by
  rw [State.chan, mbx_setChan, tfind_tinsert_same, Option.getD_some]

theorem chan_setChan_ne {d : Nat} (other : d ≠ c) : (s.setChan c x).chan d = s.chan d := by
  rw [State.chan, mbx_setChan, tfind_tinsert_ne _ _ other, State.chan]

theorem reg_setChan_ne {s : State} (form : InForm s) {o : Nat} (other : o ≠ R.MBX_CH_STAT c) : (s.setChan c x).reg o = s.reg o := by
  unfold State.setChan
  exact State.reg_setReg_ne (s := { s with mbx := { s.mbx with chans := tinsert s.mbx.chans c x } }) form _ other

theorem inForm_setChan {s : State} (form : InForm s) : InForm (s.setChan c x) := by
  unfold State.setChan
  exact State.inv_setFlds (s := { s with mbx := { s.mbx with chans := tinsert s.mbx.chans c x } }) form _ _

theorem mbx_notifyAgent (a : Nat) : (s.notifyAgent a).mbx = s.mbx := by
  unfold State.notifyAgent
  split <;> rfl

theorem chan_notifyAgent (a : Nat) : (s.notifyAgent a).chan c = s.chan c := by rw [State.chan, mbx_notifyAgent, State.chan]

theorem mem_notifyAgent (a : Nat) : (s.notifyAgent a).mem = s.mem := by
  unfold State.notifyAgent
  split <;> rfl

theorem reg_notifyAgent (a o : Nat) : (s.notifyAgent a).reg o = s.reg o := by
  unfold State.notifyAgent
  split <;> rfl

/-- Vector 64 goes to a host agent alone (R508). -/
theorem msix_notifyAgent (a : Nat) : (s.notifyAgent a).hcp.msix = s.hcp.msix ++ if 0x100 ≤ a ∧ a ≤ 0x10F then [64] else [] := by
  have host : isHostAgent a = true ↔ 0x100 ≤ a ∧ a ≤ 0x10F := by
    simp only [isHostAgent, Bool.and_eq_true, Nat.ble_eq]
  unfold State.notifyAgent
  by_cases h : isHostAgent a = true
  · rw [if_pos h, if_pos (host.mp h)]
    rfl
  · rw [if_neg h, if_neg (fun range => h (host.mpr range)), List.append_nil]

end Channel

/-! Registers of the mailboxes, apart from each other. -/

theorem bind_ne_chStat {c d : Nat} (lt : c < 32) : R.MBX_BIND c ≠ R.MBX_CH_STAT d := by
  simp only [R.MBX_BIND, R.MBX_CH_STAT]
  omega

theorem bind_ne_txPtr {c n : Nat} (lt : c < 32) : R.MBX_BIND c ≠ R.MBX_TX_PTR n := by
  simp only [R.MBX_BIND, R.MBX_TX_PTR]
  omega

theorem bind_ne_sent {c : Nat} (lt : c < 32) : R.MBX_BIND c ≠ R.MBX_SENT := by
  simp only [R.MBX_BIND, R.MBX_SENT]
  omega

theorem sent_ne_chStat {c : Nat} (lt : c < 32) : R.MBX_SENT ≠ R.MBX_CH_STAT c := by
  simp only [R.MBX_SENT, R.MBX_CH_STAT]
  omega

theorem sent_ne_txPtr (n : Nat) : R.MBX_SENT ≠ R.MBX_TX_PTR n := by
  simp only [R.MBX_SENT, R.MBX_TX_PTR]
  omega

theorem rejected_ne_txPtr (n : Nat) : R.MBX_REJECTED ≠ R.MBX_TX_PTR n := by
  simp only [R.MBX_REJECTED, R.MBX_TX_PTR]
  omega

theorem txStat_ne_rejected (n : Nat) : R.MBX_TX_STAT n ≠ R.MBX_REJECTED := by
  simp only [R.MBX_REJECTED, R.MBX_TX_STAT]
  omega

/-! What depends on one register or on the channels alone. -/

section OfParts

variable {s t : State} {c : Nat}

theorem bound_of_reg (same : t.reg (R.MBX_BIND c) = s.reg (R.MBX_BIND c)) : t.bound c = s.bound c := by simp only [State.bound, State.fld, same]

theorem sender_of_reg (same : t.reg (R.MBX_BIND c) = s.reg (R.MBX_BIND c)) : t.sender c = s.sender c := by simp only [State.sender, State.fld, same]

theorem receiver_of_reg (same : t.reg (R.MBX_BIND c) = s.reg (R.MBX_BIND c)) : t.receiver c = s.receiver c := by simp only [State.receiver, State.fld, same]

theorem partnerChan_of_reg (same : t.reg (R.MBX_BIND c) = s.reg (R.MBX_BIND c)) : t.partnerChan c = s.partnerChan c := by
  simp only [State.partnerChan, sender_of_reg same, receiver_of_reg same]

theorem chan_of_mbx (same : t.mbx = s.mbx) (c : Nat) : t.chan c = s.chan c := by rw [State.chan, same, State.chan]

end OfParts

/-! ## A send (R505) -/

/-- The staging pointer of a host agent written with its send. -/
def State.pointed (s : State) (a : Nat) (p : Option Word) : State := match p with | some v => s.setReg (R.MBX_TX_PTR (a - 0x100)) v | none => s

section Send

variable {s : State} (form : InForm s) {a c tag : Nat} {p : Option Word}

theorem mbx_pointed : (s.pointed a p).mbx = s.mbx := by
  cases p with
  | none => rfl
  | some v => exact State.setReg_mbx ..

theorem mem_pointed : (s.pointed a p).mem = s.mem := by
  cases p with
  | none => rfl
  | some v => exact State.setReg_mem ..

theorem hcp_pointed : (s.pointed a p).hcp = s.hcp := by
  cases p with
  | none => rfl
  | some v => exact State.setReg_hcp ..

include form

theorem inForm_pointed : InForm (s.pointed a p) := by
  cases p with
  | none => exact form
  | some v => exact State.inv_setReg form _ v

theorem reg_pointed_ne {o : Nat} (other : o ≠ R.MBX_TX_PTR (a - 0x100)) : (s.pointed a p).reg o = s.reg o := by
  cases p with
  | none => rfl
  | some v => exact State.reg_setReg_ne form v other

theorem reg_pointed : (s.pointed a p).reg (R.MBX_TX_PTR (a - 0x100)) = p.getD (s.reg (R.MBX_TX_PTR (a - 0x100))) := by
  cases p with
  | none => rfl
  | some v => exact State.reg_setReg_same form _ v

omit form in
theorem exec_mailboxSend (host : isHostAgent a = true) : exec (.mailboxSend a c tag p) s = .next ((s.pointed a p).mailboxSend a c tag) := by
  cases p with
  | none => rfl
  | some v => simp only [exec_mailboxSend_arm, execMailboxSend, host, if_true, State.pointed]

omit form in
/-- A send that is turned away leaves its sign in the agent's status and is counted. -/
theorem mailboxSend_rejected_bind (host : isHostAgent a = true) (refused : (s.bound c && s.sender c == a && (!s.partnerChan c || (s.chan c).up)) = false) :
    s.mailboxSend a c tag = (s.setFld (R.MBX_TX_STAT (a - 0x100)) F.MBX_TX_STAT_REJ_BIND 1).bump R.MBX_REJECTED := by
  simp only [State.mailboxSend, refused, host, if_true]

omit form in
theorem mailboxSend_rejected_full (host : isHostAgent a = true) (served : (s.bound c && s.sender c == a && (!s.partnerChan c || (s.chan c).up)) = true) (full : (s.chan c).full = true) :
    s.mailboxSend a c tag = (s.setFld (R.MBX_TX_STAT (a - 0x100)) F.MBX_TX_STAT_REJ_FULL 1).bump R.MBX_REJECTED := by
  simp only [State.mailboxSend, served, full, host, Bool.true_eq_false, if_false, if_true]

/-- The message in its channel, counted as sent. -/
def State.messageSent (s : State) (a c tag : Nat) : State :=
  (s.setChan c { s.chan c with full := true, ptr := s.staged a, tag := tag % 2 ^ 32 }).bump R.MBX_SENT

omit form in
theorem mailboxSend_accepted (served : (s.bound c && s.sender c == a && (!s.partnerChan c || (s.chan c).up)) = true) (empty : (s.chan c).full = false) (here : s.receiver c ≠ 3)
    (there : (s.messageSent a c tag).receiver c ≠ 3) : s.mailboxSend a c tag = (s.messageSent a c tag).notifyAgent ((s.messageSent a c tag).receiver c) := by
  simp only [State.messageSent] at there ⊢
  simp only [State.mailboxSend, served, empty, here, Bool.true_eq_false, Bool.false_eq_true, if_false, there]

omit form in
theorem mbx_rejected (f : Fld) (o : Nat) : ((s.setFld o f 1).bump R.MBX_REJECTED).mbx = s.mbx := by rw [State.bump, State.setReg_mbx, State.setFld_mbx]

theorem fld_rejected (f : Fld) (n : Nat) (lo : f.lo ≤ f.hi) (hi : f.hi < 64) : ((s.setFld (R.MBX_TX_STAT n) f 1).bump R.MBX_REJECTED).fld (R.MBX_TX_STAT n) f = 1 := by
  rw [State.bump, State.fld_setReg_ne (State.inv_setFld form _ _ _) _ (txStat_ne_rejected n), State.fld_setFld_same form _ _ _ lo hi]
  exact Nat.mod_eq_of_lt (Nat.one_lt_two_pow (by omega))

theorem reg_rejected (f : Fld) (n : Nat) : ((s.setFld (R.MBX_TX_STAT n) f 1).bump R.MBX_REJECTED).reg R.MBX_REJECTED = s.reg R.MBX_REJECTED + 1 := by
  rw [State.bump, State.reg_setReg_same (State.inv_setFld form _ _ _), State.setFld, State.reg_setReg_ne form _ (txStat_ne_rejected n).symm]
  rfl

omit form in
theorem served_of_local (bound : s.bound c = true) (sender : s.sender c = a) (here : s.partnerChan c = false) : (s.bound c && s.sender c == a && (!s.partnerChan c || (s.chan c).up)) = true := by
  simp only [bound, sender, here, beq_self_eq_true, Bool.not_false, Bool.true_or, Bool.and_self]

omit form in
theorem receiver_ne_of_local (here : s.partnerChan c = false) : s.receiver c ≠ 3 := beq_eq_false_iff_ne.mp (Bool.or_eq_false_iff.mp here).2

omit form in
theorem sender_ne_of_local (here : s.partnerChan c = false) : s.sender c ≠ 3 := beq_eq_false_iff_ne.mp (Bool.or_eq_false_iff.mp here).1

variable (lt : c < 32)

include lt

theorem reg_messageSent_bind : (s.messageSent a c tag).reg (R.MBX_BIND c) = s.reg (R.MBX_BIND c) := by
  rw [State.messageSent, State.bump, State.reg_setReg_ne (inForm_setChan c _ form) _ (bind_ne_sent lt), reg_setChan_ne c _ form (bind_ne_chStat lt)]

theorem reg_messageSent_sent : (s.messageSent a c tag).reg R.MBX_SENT = s.reg R.MBX_SENT + 1 := by
  rw [State.messageSent, State.bump, State.reg_setReg_same (inForm_setChan c _ form), reg_setChan_ne c _ form (sent_ne_chStat lt)]
  rfl

omit form lt in
theorem mbx_messageSent : (s.messageSent a c tag).mbx = (s.setChan c { s.chan c with full := true, ptr := s.staged a, tag := tag % 2 ^ 32 }).mbx := State.setReg_mbx ..

omit form lt in
theorem mem_messageSent : (s.messageSent a c tag).mem = s.mem := (State.setReg_mem ..).trans (mem_setChan ..)

omit form lt in
theorem hcp_messageSent : (s.messageSent a c tag).hcp = s.hcp := (State.setReg_hcp ..).trans (hcp_setChan ..)

end Send

/-- The facts about the pointed state that a host agent's send rests on. -/
theorem pointed_local {s : State} (form : InForm s) {a c : Nat} (p : Option Word) (lt : c < 32) :
    (s.pointed a p).bound c = s.bound c ∧ (s.pointed a p).sender c = s.sender c ∧ (s.pointed a p).receiver c = s.receiver c ∧ (s.pointed a p).partnerChan c = s.partnerChan c := by
  have same := reg_pointed_ne form (a := a) (p := p) (bind_ne_txPtr (n := a - 0x100) lt)
  exact ⟨bound_of_reg same, sender_of_reg same, receiver_of_reg same, partnerChan_of_reg same⟩

theorem isHostAgent_of_range {a : Nat} (low : 0x100 ≤ a) (high : a < 0x110) : isHostAgent a = true := by
  simp only [isHostAgent, Bool.and_eq_true, Nat.ble_eq]
  omega

section LocalChannel

variable {s : State} (form : InForm s) {a c tag : Nat} {p : Option Word} (lt : c < 32) (host : isHostAgent a = true) (bound : s.bound c = true) (here : s.partnerChan c = false)

include form lt host bound here

theorem mailboxSend_fills (sender : s.sender c = a) (empty : (s.chan c).full = false) :
    ∃ u : State, exec (.mailboxSend a c tag p) s = .next u ∧ (u.chan c).full = true ∧ (u.chan c).tag = tag % 2 ^ 32 ∧ (u.chan c).ptr = (p.getD (s.reg (R.MBX_TX_PTR (a - 0x100)))).toNat ∧ u.mem = s.mem ∧
      (∀ d, d ≠ c → u.chan d = s.chan d) ∧ u.reg R.MBX_SENT = s.reg R.MBX_SENT + 1 ∧ u.hcp.msix = s.hcp.msix ++ (if 0x100 ≤ s.receiver c ∧ s.receiver c ≤ 0x10F then [64] else []) := by
  obtain ⟨bound', sender', receiver', here'⟩ := pointed_local form (a := a) p lt
  have formed := inForm_pointed form (a := a) (p := p)
  have chan := chan_of_mbx (mbx_pointed (s := s) (a := a) (p := p))
  have heard : ((s.pointed a p).messageSent a c tag).receiver c = s.receiver c := (receiver_of_reg (reg_messageSent_bind formed lt)).trans receiver'
  have apart := receiver_ne_of_local here
  have sent := mailboxSend_accepted (s := s.pointed a p) (tag := tag) (served_of_local (bound'.trans bound) (sender'.trans sender) (here'.trans here)) (by rw [chan, empty]) (by rwa [receiver']) (by rwa [heard])
  have filled : (((s.pointed a p).messageSent a c tag).notifyAgent (s.receiver c)).chan c = { (s.pointed a p).chan c with full := true, ptr := (s.pointed a p).staged a, tag := tag % 2 ^ 32 } := by
    rw [chan_notifyAgent, chan_of_mbx mbx_messageSent, chan_setChan_same]
  rw [heard] at sent
  refine ⟨((s.pointed a p).messageSent a c tag).notifyAgent (s.receiver c), (exec_mailboxSend host).trans (congrArg Host.Outcome.next sent), ?_, ?_, ?_, ?_, ?_, ?_, ?_⟩
  · rw [filled]
  · rw [filled]
  · rw [filled]
    simp only [State.staged, host, if_true, reg_pointed form]
  · rw [mem_notifyAgent, mem_messageSent, mem_pointed]
  · intro d other
    rw [chan_notifyAgent, chan_of_mbx mbx_messageSent, chan_setChan_ne _ _ _ other, chan]
  · rw [reg_notifyAgent, reg_messageSent_sent formed lt, reg_pointed_ne form (sent_ne_txPtr _)]
  · rw [msix_notifyAgent, hcp_messageSent, hcp_pointed]

theorem mailboxSend_turned_away_full (sender : s.sender c = a) (full : (s.chan c).full = true) :
    ∃ u : State, exec (.mailboxSend a c tag p) s = .next u ∧ u.mbx = s.mbx ∧ u.fld (R.MBX_TX_STAT (a - 0x100)) F.MBX_TX_STAT_REJ_FULL = 1 ∧ u.reg R.MBX_REJECTED = s.reg R.MBX_REJECTED + 1 := by
  obtain ⟨bound', sender', -, here'⟩ := pointed_local form (a := a) p lt
  have formed := inForm_pointed form (a := a) (p := p)
  have rejected := mailboxSend_rejected_full (s := s.pointed a p) (tag := tag) host (served_of_local (bound'.trans bound) (sender'.trans sender) (here'.trans here))
    (by rw [chan_of_mbx mbx_pointed, full])
  refine ⟨_, (exec_mailboxSend host).trans (congrArg Host.Outcome.next rejected), (mbx_rejected ..).trans mbx_pointed, fld_rejected formed _ _ (by decide) (by decide), ?_⟩
  rw [reg_rejected formed, reg_pointed_ne form (rejected_ne_txPtr _)]

omit bound here in
theorem mailboxSend_turned_away_bind (other : s.sender c ≠ a) :
    ∃ u : State, exec (.mailboxSend a c tag p) s = .next u ∧ u.mbx = s.mbx ∧ u.fld (R.MBX_TX_STAT (a - 0x100)) F.MBX_TX_STAT_REJ_BIND = 1 ∧ u.reg R.MBX_REJECTED = s.reg R.MBX_REJECTED + 1 := by
  obtain ⟨-, sender', -, -⟩ := pointed_local form (a := a) p lt
  have formed := inForm_pointed form (a := a) (p := p)
  have rejected := mailboxSend_rejected_bind (s := s.pointed a p) (c := c) (tag := tag) host
    (by rw [sender', beq_eq_false_iff_ne.mpr other, Bool.and_false, Bool.false_and])
  refine ⟨_, (exec_mailboxSend host).trans (congrArg Host.Outcome.next rejected), (mbx_rejected ..).trans mbx_pointed, fld_rejected formed _ _ (by decide) (by decide), ?_⟩
  rw [reg_rejected formed, reg_pointed_ne form (rejected_ne_txPtr _)]

/-! ## A receive (R506) -/

omit host in
theorem mailboxReceive_empties (receiver : s.receiver c = a) (full : (s.chan c).full = true) :
    ∃ u : State, exec (.mailboxReceive a c) s = .next u ∧ (u.chan c).full = false ∧ (∀ d, d ≠ c → u.chan d = s.chan d) ∧ u.mem = s.mem ∧
      u.hcp.msix = s.hcp.msix ++ (if 0x100 ≤ s.sender c ∧ s.sender c ≤ 0x10F then [64] else []) := by
  have held : (s.bound c && s.receiver c == a && (s.chan c).full) = true := by simp only [bound, receiver, full, beq_self_eq_true, Bool.and_self]
  have told : (s.setChan c { s.chan c with full := false, ptr := 0, tag := 0 }).sender c = s.sender c := sender_of_reg (reg_setChan_ne c _ form (bind_ne_chStat lt))
  have apart := sender_ne_of_local here
  refine ⟨(s.setChan c { s.chan c with full := false, ptr := 0, tag := 0 }).notifyAgent (s.sender c), ?_, ?_, ?_, ?_, ?_⟩
  · simp only [exec_mailboxReceive_arm, execMailboxReceive, State.mailboxReceive, held, if_true, told, apart, if_false]
  · rw [chan_notifyAgent, chan_setChan_same]
  · intro d other
    rw [chan_notifyAgent, chan_setChan_ne _ _ _ other]
  · rw [mem_notifyAgent, mem_setChan]
  · rw [msix_notifyAgent, hcp_setChan]

end LocalChannel

theorem mailboxReceive_none {s : State} {a c : Nat} (none : s.receiver c ≠ a ∨ (s.chan c).full = false) : exec (.mailboxReceive a c) s = .next s := by
  have held : (s.bound c && s.receiver c == a && (s.chan c).full) = false := by
    rcases none with other | empty
    · rw [beq_eq_false_iff_ne.mpr other, Bool.and_false, Bool.false_and]
    · rw [empty, Bool.and_false]
  simp only [exec_mailboxReceive_arm, execMailboxReceive, State.mailboxReceive, held, Bool.false_eq_true, if_false]

/-! ## Partner channels (R509) -/

section Partner

variable {s : State} {c : Nat}

theorem partnerMessageLanded_fills (bound : s.bound c = true) (sender : s.sender c = 3) (up : (s.chan c).up = true) (empty : (s.chan c).full = false)
    (fresh : s.loadLE (workBase + 0x1000 + 512 * c + 12) 4 ≠ (s.chan c).landed) :
    ∃ u : State, exec (.partnerMessageLanded c) s = .next u ∧ u.mem = s.mem ∧
      u.chan c = { s.chan c with full := true, ptr := s.loadLE (workBase + 0x1000 + 512 * c) 8, tag := s.loadLE (workBase + 0x1000 + 512 * c + 8) 4, landed := s.loadLE (workBase + 0x1000 + 512 * c + 12) 4 } ∧ (∀ d, d ≠ c → u.chan d = s.chan d) := by
  have lands : (s.bound c && s.sender c == 3 && (s.chan c).up && !(s.chan c).full && s.loadLE (workBase + 0x1000 + 512 * c + 12) 4 != (s.chan c).landed) = true := by
    simp only [bound, sender, up, empty, bne_iff_ne.mpr fresh, beq_self_eq_true, Bool.not_false, Bool.and_self]
  refine ⟨_, if_pos lands, ?_, ?_, fun d other => ?_⟩
  · rw [mem_notifyAgent, mem_setChan]
  · rw [chan_notifyAgent, chan_setChan_same]
  · rw [chan_notifyAgent, chan_setChan_ne _ _ _ other]

theorem partnerMessageLanded_none (seen : s.loadLE (workBase + 0x1000 + 512 * c + 12) 4 = (s.chan c).landed) : exec (.partnerMessageLanded c) s = .next s := by
  have stays : (s.bound c && s.sender c == 3 && (s.chan c).up && !(s.chan c).full && s.loadLE (workBase + 0x1000 + 512 * c + 12) 4 != (s.chan c).landed) = false := by
    rw [seen, bne_self_eq_false, Bool.and_false]
  exact if_neg (ne_true_of_eq_false stays)

theorem partnerCountReturned_empties (bound : s.bound c = true) (receiver : s.receiver c = 3) (full : (s.chan c).full = true)
    (returned : s.loadLE (workBase + 0x1000 + 512 * c + 12) 4 = (s.chan c).count) :
    ∃ u : State, exec (.partnerCountReturned c) s = .next u ∧ u.mem = s.mem ∧ u.chan c = { s.chan c with full := false, ptr := 0, tag := 0 } ∧ (∀ d, d ≠ c → u.chan d = s.chan d) := by
  have empties : (s.bound c && s.receiver c == 3 && (s.chan c).full && s.loadLE (workBase + 0x1000 + 512 * c + 12) 4 == (s.chan c).count) = true := by
    simp only [bound, receiver, full, returned, beq_self_eq_true, Bool.and_self]
  refine ⟨_, if_pos empties, ?_, ?_, fun d other => ?_⟩
  · rw [mem_notifyAgent, mem_setChan]
  · rw [chan_notifyAgent, chan_setChan_same]
  · rw [chan_notifyAgent, chan_setChan_ne _ _ _ other]

theorem partnerCountReturned_none (other : s.loadLE (workBase + 0x1000 + 512 * c + 12) 4 ≠ (s.chan c).count) : exec (.partnerCountReturned c) s = .next s := by
  have stays : (s.bound c && s.receiver c == 3 && (s.chan c).full && s.loadLE (workBase + 0x1000 + 512 * c + 12) 4 == (s.chan c).count) = false := by
    rw [beq_eq_false_iff_ne.mpr other, Bool.and_false]
  exact if_neg (ne_true_of_eq_false stays)

end Partner

/-! ## The record of a persistence (R539, R540) -/

section Record

variable {s : State}

theorem recordFor_full {orderly : Bool} (first : orderly = true ∨ s.jnl.fullDone = false) :
    s.recordFor orderly = some { rseq := s.bsn.records + 1, newest := (s.reg R.JNL_NEWEST).toNat, start := s.now, full := true, orderly := orderly, ents := s.jnl.ring, step := s.stepEntry, mir := s.mirrorRecord } := by
  have whole : (orderly || !s.jnl.fullDone) = true := by
    rcases first with rfl | undone
    · exact Bool.true_or _
    · rw [undone, Bool.not_false, Bool.or_true]
  simp only [State.recordFor, whole, Bool.true_or, if_true]

theorem units_full {r : PRec} (full : r.full = true) : r.units = 1025 := by
  simp only [PRec.units, full, if_true]

theorem units_delta_one {r : PRec} {p : Nat × JEntry} (delta : r.full = false) (one : r.ents = [p]) : r.units = 1 := by
  simp only [PRec.units, delta, one, List.length_singleton, Bool.false_eq_true, if_false]

theorem recordFor_delta {i : Nat} {e : JEntry} (done : s.jnl.fullDone = true) (between : (s.bsn.records + 1) % 1024 ≠ 0) (changed : s.jnl.changed = [i]) (entry : tfind s.jnl.ring i = some e) :
    s.recordFor false = some { rseq := s.bsn.records + 1, newest := (s.reg R.JNL_NEWEST).toNat, start := s.now, full := false, orderly := false, ents := [(i, e)], step := s.stepEntry, mir := s.mirrorRecord } := by
  have delta : (false || !s.jnl.fullDone || (s.bsn.records + 1) % 1024 == 0) = false := by rw [done, beq_eq_false_iff_ne.mpr between]; rfl
  have ents : s.jnl.changed.filterMap (fun i => (tfind s.jnl.ring i).map (fun e => (i, e))) = [(i, e)] := by
    rw [changed, List.filterMap_cons_some (by rw [entry]; rfl), List.filterMap_nil]
  have some_ : ([(i, e)] != []) = true := bne_iff_ne.mpr (List.cons_ne_nil _ _)
  simp only [State.recordFor, delta, ents, Bool.false_eq_true, if_false, some_, Bool.or_true, Bool.true_or, if_true]

theorem recordFor_none {o : PRec} (done : s.jnl.fullDone = true) (between : (s.bsn.records + 1) % 1024 ≠ 0) (unchanged : s.jnl.changed = []) (last : s.jnl.log.getLast? = some o)
    (step : o.step = s.stepEntry) (mir : o.mir = s.mirrorRecord) : s.recordFor false = none := by
  simp only [State.recordFor, beq_eq_false_iff_ne.mpr between, unchanged, List.filterMap_nil, last, Option.map_some, step, mir, bne_self_eq_false, done, Bool.not_true, Bool.or_self, Bool.false_eq_true, if_false]

end Record

/-! ## The start of a persistence (R518) -/

section Persist

variable {s : State}

/-- The journal as a persistence starts: what has changed is covered. -/
def State.persistNoted (s : State) (orderly : Bool) : State :=
  { s with jnl := { s.jnl with persist := some s.now, persistDsq := (s.reg R.JNL_NEWEST).toNat, copyDseq := (s.reg R.JNL_NEWEST).toNat, copyTime := s.now, covered := s.jnl.changed, changed := [], late := false, making := s.recordFor orderly } }

/-- The same with the bytes of its record counted. -/
def State.persistCounted (s : State) (orderly : Bool) : State :=
  match s.recordFor orderly with | some r => (s.persistNoted orderly).bump R.BSN_WR_BYTES (4096 * r.units) | none => s.persistNoted orderly

/-- The working region but for the ring. -/
def State.regionWritten (s : State) : State := ((s.store workBase s.workHeader).writeStepEntry).writeMirrorRecord

theorem persistStart_eq (s : State) (orderly : Bool) : s.persistStart orderly = (s.persistCounted orderly).regionWritten.copyRing ((s.persistCounted orderly).store workBase (s.persistCounted orderly).workHeader).jnl.covered := rfl

theorem OnlyBytes.jnl {t : State} (h : OnlyBytes s t) : t.jnl = s.jnl := by
  have same := congrArg State.jnl h.2.2
  exact same

theorem OnlyBytes.now {t : State} (h : OnlyBytes s t) : t.now = s.now := by
  have same := congrArg State.now h.2.2
  exact same

theorem OnlyBytes.mirC {t : State} (h : OnlyBytes s t) (mir : s.mirror.c = []) : t.mirror.c = [] := h.2.1.trans mir

theorem OnlyBytes.capture {t : State} (h : OnlyBytes s t) (cap : s.bsn.capture = none) : t.bsn.capture = none := (congrArg Basin.capture h.bsn).trans cap

/-- One more store after such writes. -/
theorem OnlyBytes.thenStore {t : State} (h : OnlyBytes s t) (form : InForm s) (mir : s.mirror.c = []) (cap : s.bsn.capture = none) (a : Nat) (bs : List Byte) : OnlyBytes s (t.store a bs) :=
  h.trans (store_onlyBytes (h.inForm form) (h.mirC mir) (h.capture cap) a bs)

theorem regionWritten_onlyBytes (form : InForm s) (mir : s.mirror.c = []) (cap : s.bsn.capture = none) : OnlyBytes s s.regionWritten := by
  have header := store_onlyBytes form mir cap workBase s.workHeader
  exact (header.thenStore form mir cap _ _).thenStore form mir cap _ _

theorem OnlyBytes.copyRing {t : State} (h : OnlyBytes s t) (form : InForm s) (mir : s.mirror.c = []) (cap : s.bsn.capture = none) (l : List Nat) : OnlyBytes s (t.copyRing l) := by
  induction l generalizing t with
  | nil => exact h
  | cons i l ih =>
    have stored : OnlyBytes s (match tfind t.jnl.ring i with | some e => t.store (workBase + 0x400000 + 64 * i) (jBytes e) | none => t) := by
      split
      · exact h.thenStore form mir cap _ _
      · exact h
    exact ih stored

theorem length_jBytes (e : JEntry) : (jBytes e).length = 64 := by
  simp only [jBytes, List.length_append, length_bytesLE]

/-- The entry of one ring position lies in the image of the ring. -/
theorem load_copyRing_one {i : Nat} {e : JEntry} (form : InForm s) (mir : s.mirror.c = []) (cap : s.bsn.capture = none) (entry : tfind s.jnl.ring i = some e) :
    (s.copyRing [i]).load (workBase + 0x400000 + 64 * i) 64 = jBytes e := by
  have copied : s.copyRing [i] = s.store (workBase + 0x400000 + 64 * i) (jBytes e) := by
    simp only [State.copyRing, List.foldl_cons, List.foldl_nil, entry]
  rw [copied, State.load, mem_store mir cap, ← length_jBytes e]
  exact readBytes_writeBytes form.2 _ _

theorem inForm_persistCounted (form : InForm s) (orderly : Bool) : InForm (s.persistCounted orderly) := by
  unfold State.persistCounted
  split
  · exact State.inv_bump (s := s.persistNoted orderly) form _ _
  · exact form

theorem kept_persistCounted (s : State) (orderly : Bool) :
    (s.persistCounted orderly).jnl = (s.persistNoted orderly).jnl ∧ (s.persistCounted orderly).now = s.now ∧ (s.persistCounted orderly).mirror = s.mirror ∧ (s.persistCounted orderly).bsn = s.bsn := by
  unfold State.persistCounted
  split
  · exact ⟨State.setReg_jnl .., State.setReg_now .., State.setReg_mirror .., State.setReg_bsn ..⟩
  · exact ⟨rfl, rfl, rfl, rfl⟩

theorem regs_persistCounted (s : State) (orderly : Bool) : (s.persistCounted orderly).regs = (match s.recordFor orderly with | some r => s.bump R.BSN_WR_BYTES (4096 * r.units) | none => s).regs := by
  unfold State.persistCounted
  split <;> rfl

/-- With no chunk to be read first, a persistence that starts writes the region and notes itself in the journal. -/
theorem persistStart_onlyBytes (form : InForm s) (mir : s.mirror.c = []) (cap : s.bsn.capture = none) (orderly : Bool) : OnlyBytes (s.persistCounted orderly) (s.persistStart orderly) := by
  obtain ⟨-, -, mirror, bsn⟩ := kept_persistCounted s orderly
  have formed := inForm_persistCounted form orderly
  rw [← mirror] at mir
  rw [← bsn] at cap
  rw [persistStart_eq]
  exact (regionWritten_onlyBytes formed mir cap).copyRing formed mir cap _

/-- A changed entry is in the image of the ring once its persistence has started. -/
theorem load_persistStart {i : Nat} {e : JEntry} (form : InForm s) (mir : s.mirror.c = []) (cap : s.bsn.capture = none) (orderly : Bool) (changed : s.jnl.changed = [i]) (entry : tfind s.jnl.ring i = some e) :
    (s.persistStart orderly).load (workBase + 0x400000 + 64 * i) 64 = jBytes e := by
  obtain ⟨jnl, -, mirror, bsn⟩ := kept_persistCounted s orderly
  have formed := inForm_persistCounted form orderly
  rw [← mirror] at mir
  rw [← bsn] at cap
  have header := store_onlyBytes formed mir cap workBase (s.persistCounted orderly).workHeader
  have written := regionWritten_onlyBytes formed mir cap
  have covered : ((s.persistCounted orderly).store workBase (s.persistCounted orderly).workHeader).jnl.covered = [i] := by
    rw [header.jnl, jnl]
    exact changed
  have held : tfind (s.persistCounted orderly).regionWritten.jnl.ring i = some e := by
    rw [written.jnl, jnl]
    exact entry
  rw [persistStart_eq, covered]
  exact load_copyRing_one (written.inForm formed) (written.mirC mir) (written.capture cap) held

/-- The next window boundary (R518). -/
def State.nextWindowStart (s : State) : State := { s with now := (s.now / 1000000 + 1) * 1000000 }

theorem exec_journalPersist (ready : s.fld R.JNL_STATUS F.JNL_STATUS_READY = 1) :
    exec (.journalPersist) s = if s.bsnState = 4 ∨ s.jnl.persist.isSome then .next (({ s.nextWindowStart with jnl := { s.jnl with late := true } } : State).bump R.JNL_PERSIST_LATE)
      else .next (s.nextWindowStart.persistStart false) := by
  have live : ¬ s.fld R.JNL_STATUS F.JNL_STATUS_READY = 0 := by omega
  exact if_neg live

theorem journalPersist_delayed (ready : s.fld R.JNL_STATUS F.JNL_STATUS_READY = 1) (busy : s.jnl.persist.isSome = true ∨ s.bsnState = 4) :
    exec .journalPersist s = .next (({ s with now := (s.now / 1000000 + 1) * 1000000, jnl := { s.jnl with late := true } } : State).bump R.JNL_PERSIST_LATE) :=
  (exec_journalPersist ready).trans (if_pos busy.symm)

theorem journalPersist_starts (form : InForm s) (ready : s.fld R.JNL_STATUS F.JNL_STATUS_READY = 1) (free : s.jnl.persist = none) (awake : s.bsnState ≠ 4) (mir : s.mirror.c = []) (cap : s.bsn.capture = none) :
    let at_ := (s.now / 1000000 + 1) * 1000000
    ∃ u : State, exec .journalPersist s = .next u ∧ u.now = at_ ∧ u.jnl.persist = some at_ ∧ u.jnl.covered = s.jnl.changed ∧ u.jnl.changed = [] ∧ u.jnl.late = false ∧
      u.jnl.making = ({ s with now := at_ } : State).recordFor false ∧ u.jnl.log = s.jnl.log ∧ u.regs = (match u.jnl.making with | some r => s.bump R.BSN_WR_BYTES (4096 * r.units) | none => s).regs ∧
      (∀ i e, s.jnl.changed = [i] → tfind s.jnl.ring i = some e → i < 65536 → u.load (workBase + 0x400000 + 64 * i) 64 = jBytes e) := by
  intro at_
  have goes : ¬(s.bsnState = 4 ∨ s.jnl.persist.isSome = true) := by
    rw [free]
    exact not_or.mpr ⟨awake, Bool.noConfusion⟩
  obtain ⟨jnl, now, -, -⟩ := kept_persistCounted s.nextWindowStart false
  have bytes := persistStart_onlyBytes (s := s.nextWindowStart) form mir cap false
  have noted := bytes.jnl.trans jnl
  refine ⟨s.nextWindowStart.persistStart false, (exec_journalPersist ready).trans (if_neg goes), bytes.now.trans now, ?_, ?_, ?_, ?_, ?_, ?_, ?_, fun i e changed entry _ => ?_⟩
  · exact congrArg Journal.persist noted
  · exact congrArg Journal.covered noted
  · exact congrArg Journal.changed noted
  · exact congrArg Journal.late noted
  · exact congrArg Journal.making noted
  · exact (congrArg Journal.log noted).trans rfl
  · have making : (s.nextWindowStart.persistStart false).jnl.making = s.nextWindowStart.recordFor false := congrArg Journal.making noted
    rw [making, bytes.regs, regs_persistCounted]
    cases s.nextWindowStart.recordFor false <;> rfl
  · exact load_persistStart (s := s.nextWindowStart) form mir cap false changed entry

theorem persistLate_none (late : s.jnl.late = false) : s.persistLate = s := by
  simp only [State.persistLate, late, Bool.false_and, Bool.false_eq_true, if_false]

theorem persistLate_starts (late : s.jnl.late = true) (free : s.jnl.persist = none) (awake : s.bsnState ≠ 4) : s.persistLate = s.persistStart false := by
  have other : (s.fld R.BSN_STATUS F.BSN_STATUS_STATE != 4) = true := bne_iff_ne.mpr awake
  have follows : (s.jnl.late && s.jnl.persist.isNone && s.fld R.BSN_STATUS F.BSN_STATUS_STATE != 4) = true := by
    rw [late, free, other]
    rfl
  exact if_pos follows

end Persist

/-! ## The end of a persistence (R518) -/

theorem or_and_not_iff (p q : Prop) : p ∨ q ∧ ¬p ↔ p ∨ q := by
  by_cases holds : p
  · simp only [holds, true_or]
  · simp only [holds, not_false_eq_true, and_true]

section PersistEnd

variable {s : State} {t : Nat} (running : s.jnl.persist = some t)

/-- The record appended to the log. -/
def State.recordKept (s : State) : State :=
  { s with jnl := { s.jnl with persist := none, covered := [], making := none, fullDone := s.jnl.fullDone || s.jnl.making.isSome, log := trimLog (s.jnl.log ++ s.jnl.making.toList) },
           bsn := { s.bsn with records := s.bsn.records + s.jnl.making.toList.length } }

/-- The same with its bytes on flash counted. -/
def State.recordFlashed (s : State) : State := match s.jnl.making with | some r => s.recordKept.bump R.BSN_NAND_WR_BYTES (nandBytes (4096 * r.units)) | none => s.recordKept

theorem kept_recordFlashed (s : State) : s.recordFlashed.jnl = s.recordKept.jnl ∧ s.recordFlashed.bsn = s.recordKept.bsn ∧ s.recordFlashed.mem = s.mem := by
  unfold State.recordFlashed
  split
  · exact ⟨State.setReg_jnl .., State.setReg_bsn .., State.setReg_mem ..⟩
  · exact ⟨rfl, rfl, rfl⟩

theorem inForm_recordFlashed (form : InForm s) : InForm s.recordFlashed := by
  unfold State.recordFlashed
  split
  · exact State.inv_bump (s := s.recordKept) form _ _
  · exact form

theorem trimLog_one {r : PRec} (fits : r.units ≤ 16777216) : trimLog [r] = [r] := by
  have fits' : Nat.blt 16777216 (([r].map PRec.units).foldl (· + ·) 0) = false := by
    rw [Bool.eq_false_iff, ne_eq, Nat.blt_eq, List.map_cons, List.map_nil, List.foldl_cons, List.foldl_nil]
    omega
  rw [trimLog, fits']
  rfl

include running

theorem persistEnd_ok : s.persistEnd true = ((s.recordFlashed.setReg R.JNL_PERSISTED (BitVec.ofNat 64 s.jnl.persistDsq)).setReg R.JNL_PERSIST_TIME (BitVec.ofNat 64 t)).bump R.JNL_PERSISTS := by
  simp only [State.persistEnd, running, if_true]
  rfl

theorem persistEnd_succeeds (form : InForm s) : let u := s.persistEnd true
    u.jnl.persist = none ∧ u.jnl.covered = [] ∧ u.jnl.changed = s.jnl.changed ∧ u.jnl.late = s.jnl.late ∧ u.reg R.JNL_PERSISTED = BitVec.ofNat 64 s.jnl.persistDsq ∧ u.reg R.JNL_PERSIST_TIME = BitVec.ofNat 64 t ∧
      u.bsn.records = s.bsn.records + s.jnl.making.toList.length ∧ u.jnl.fullDone = (s.jnl.fullDone || s.jnl.making.isSome) ∧ u.mem = s.mem ∧
      (∀ r, s.jnl.log = [] → s.jnl.making = some r → r.full = true → u.jnl.log = [r] ∧ u.reg R.BSN_NAND_WR_BYTES = s.reg R.BSN_NAND_WR_BYTES + BitVec.ofNat 64 (nandBytes 4198400)) := by
  intro u
  obtain ⟨jnl, bsn, mem⟩ := kept_recordFlashed s
  have flashed := inForm_recordFlashed form
  have first : InForm (s.recordFlashed.setReg R.JNL_PERSISTED (BitVec.ofNat 64 s.jnl.persistDsq)) := State.inv_setReg flashed _ _
  have second : InForm ((s.recordFlashed.setReg R.JNL_PERSISTED (BitVec.ofNat 64 s.jnl.persistDsq)).setReg R.JNL_PERSIST_TIME (BitVec.ofNat 64 t)) := State.inv_setReg first _ _
  have jnl' : u.jnl = s.recordKept.jnl := by
    change (s.persistEnd true).jnl = _
    rw [persistEnd_ok running, State.bump, State.setReg_jnl, State.setReg_jnl, State.setReg_jnl, jnl]
  refine ⟨?_, ?_, ?_, ?_, ?_, ?_, ?_, ?_, ?_, fun r empty made full => ⟨?_, ?_⟩⟩
  · rw [jnl']; rfl
  · rw [jnl']; rfl
  · rw [jnl']; rfl
  · rw [jnl']; rfl
  · change (s.persistEnd true).reg _ = _
    rw [persistEnd_ok running, State.bump, State.reg_setReg_ne second _ (by decide), State.reg_setReg_ne first _ (by decide), State.reg_setReg_same flashed]
  · change (s.persistEnd true).reg _ = _
    rw [persistEnd_ok running, State.bump, State.reg_setReg_ne second _ (by decide), State.reg_setReg_same first]
  · change (s.persistEnd true).bsn.records = _
    rw [persistEnd_ok running, State.bump, State.setReg_bsn, State.setReg_bsn, State.setReg_bsn, bsn]
    rfl
  · rw [jnl']; rfl
  · change (s.persistEnd true).mem = _
    rw [persistEnd_ok running, State.bump, State.setReg_mem, State.setReg_mem, State.setReg_mem, mem]
  · rw [jnl']
    change trimLog (s.jnl.log ++ s.jnl.making.toList) = _
    rw [empty, made]
    exact trimLog_one (by rw [units_full full]; decide)
  · change (s.persistEnd true).reg _ = _
    rw [persistEnd_ok running, State.bump, State.reg_setReg_ne second _ (by decide), State.reg_setReg_ne first _ (by decide), State.reg_setReg_ne flashed _ (by decide)]
    simp only [State.recordFlashed, made, units_full full]
    exact State.reg_setReg_same (s := s.recordKept) form _ _

/-- A failed persistence leaves its entries for the next. -/
def State.entriesReturned (s : State) : State :=
  { s with jnl := { s.jnl with persist := none, covered := [], making := none, changed := s.jnl.covered ++ s.jnl.changed.filter (fun i => !s.jnl.covered.contains i) } }

/-- The failure shown and noted. -/
def State.persistFailed (s : State) : State :=
  let v := s.entriesReturned.setFld R.JNL_STATUS F.JNL_STATUS_PERSIST_FAIL 1
  v.note 0x0007 0 0 0 (v.reg R.JNL_NEWEST).toNat 0

theorem persistEnd_failed : s.persistEnd false = if s.persistFailed.fld R.JNL_CTL F.JNL_CTL_NOTIFY_EN = 1 then s.persistFailed.vector 65 else s.persistFailed := by
  simp only [State.persistEnd, running, Bool.false_eq_true, if_false]
  rfl

omit running in
theorem persistFailed_reported (s : State) : Reported (s.entriesReturned.setFld R.JNL_STATUS F.JNL_STATUS_PERSIST_FAIL 1) s.persistFailed :=
  (Reported.refl _).putRecord (by decide) ..

omit running in
theorem jnl_persistFailed (s : State) : s.persistFailed.jnl = s.entriesReturned.jnl := by
  have same := congrArg State.jnl (persistFailed_reported s).1
  exact same.trans (State.setFld_jnl ..)

omit running in
theorem fld_persistFailed (form : InForm s) : s.persistFailed.fld R.JNL_STATUS F.JNL_STATUS_PERSIST_FAIL = 1 := by
  have formed : InForm s.entriesReturned := form
  obtain ⟨-, regs⟩ := (persistFailed_reported s).2 (State.inv_setFld formed _ _ _)
  rw [State.fld, regs R.JNL_STATUS (by decide)]
  exact State.fld_setFld_same formed _ _ 1 (by decide) (by decide)

theorem persistEnd_fails (form : InForm s) : let u := s.persistEnd false
    u.jnl.persist = none ∧ u.jnl.log = s.jnl.log ∧ u.jnl.late = s.jnl.late ∧ (∀ i, i ∈ u.jnl.changed ↔ i ∈ s.jnl.covered ∨ i ∈ s.jnl.changed) ∧ u.fld R.JNL_STATUS F.JNL_STATUS_PERSIST_FAIL = 1 := by
  intro u
  have jnl : u.jnl = s.entriesReturned.jnl := by
    change (s.persistEnd false).jnl = _
    rw [persistEnd_failed running]
    split
    · exact jnl_persistFailed s
    · exact jnl_persistFailed s
  refine ⟨?_, ?_, ?_, fun i => ?_, ?_⟩
  · rw [jnl]; rfl
  · rw [jnl]; rfl
  · rw [jnl]; rfl
  · rw [jnl]
    change i ∈ s.jnl.covered ++ s.jnl.changed.filter (fun i => !s.jnl.covered.contains i) ↔ _
    rw [List.mem_append, List.mem_filter, Bool.not_eq_true', List.contains_eq_mem, decide_eq_false_iff_not]
    exact or_and_not_iff _ _
  · change (s.persistEnd false).fld _ _ = 1
    rw [persistEnd_failed running]
    split
    · exact fld_persistFailed form
    · exact fld_persistFailed form

end PersistEnd

/-! ## The obligation -/

/-- Settles O53: each row by the rule of its operation above. -/
theorem mailboxesAndJournal : Obligations.MailboxesAndJournal := by
  unfold Obligations.MailboxesAndJournal
  refine ⟨fun s a c tag p form lt low high bound here => ?_, fun s c form lt bound => ?_, fun s form ready => ?_, fun s => ?_, fun s t form running => ?_⟩
  · have host := isHostAgent_of_range low high
    exact ⟨mailboxSend_fills form lt host bound here, mailboxSend_turned_away_full form lt host bound here, mailboxSend_turned_away_bind form lt host, mailboxReceive_empties form lt bound here, mailboxReceive_none⟩
  · exact ⟨partnerMessageLanded_fills bound, partnerMessageLanded_none, partnerCountReturned_empties bound, partnerCountReturned_none⟩
  · exact ⟨journalPersist_delayed ready, journalPersist_starts form ready⟩
  · refine ⟨fun b first => ⟨_, recordFor_full first, rfl, rfl, rfl, rfl, rfl, rfl, rfl, units_full rfl⟩, fun i e done between changed entry => ⟨_, recordFor_delta done between changed entry, rfl, rfl, rfl, units_delta_one rfl rfl⟩,
      fun o done between unchanged last step mir => recordFor_none done between unchanged last step mir, persistLate_none, persistLate_starts⟩
  · exact ⟨⟨s.persistEnd true, rfl, persistEnd_succeeds running form⟩, ⟨s.persistEnd false, rfl, persistEnd_fails running form⟩⟩

end Sys2Proof.Machine
end

section
/-!
RULES of a record of class 0 to 2 with the basin's blocks kept, and PROOFS of the family 18_basin_checkpoint_store: the media of the basin (O52).
-/
namespace Sys2Proof.Machine

open Sys2Proof

/-! ## What a record leaves of the basin

A record and its event may need a chunk read first. Of the basin that changes the capture alone, and of its registers those of held chunks. -/

/-- The registers that a record and its event write: those of held chunks, the command port's and the errors'. -/
abbrev NotedReg (o : Nat) : Prop := o ∈ chunkRegs ∨ (0x100000 ≤ o ∧ o < 0x200000) ∨ (0xE00000 ≤ o ∧ o < 0xF00000)

/-- `t` differs from `s` at most in what a record and its event write. -/
def Noted (s t : State) : Prop :=
  { t with regs := s.regs, mem := s.mem, hcp := s.hcp, pod := s.pod, mirror := s.mirror, bsn := { t.bsn with capture := s.bsn.capture }, errs := s.errs } = s ∧
  (InForm s → InForm t ∧ ∀ o, ¬NotedReg o → t.reg o = s.reg o)

theorem Noted.refl (s : State) : Noted s s := ⟨rfl, fun form => ⟨form, fun _ _ => rfl⟩⟩

section Noted

variable {s t u : State}

theorem Noted.blocks (h : Noted s t) : t.bsn.blocks = s.bsn.blocks := by
  have same := congrArg (fun v => v.bsn.blocks) h.1
  exact same

theorem Noted.ckpts (h : Noted s t) : t.bsn.ckpts = s.bsn.ckpts := by
  have same := congrArg (fun v => v.bsn.ckpts) h.1
  exact same

theorem Noted.restore (h : Noted s t) : t.bsn.restore = s.bsn.restore := by
  have same := congrArg (fun v => v.bsn.restore) h.1
  exact same

theorem Noted.now (h : Noted s t) : t.now = s.now := by
  have same := congrArg State.now h.1
  exact same

theorem Noted.inForm (h : Noted s t) (form : InForm s) : InForm t := (h.2 form).1

theorem Noted.reg (h : Noted s t) (form : InForm s) {o : Nat} (other : ¬NotedReg o) : t.reg o = s.reg o := (h.2 form).2 o other

theorem Noted.setReg (h : Noted s t) {o : Nat} (v : Word) (noted : NotedReg o) : Noted s (t.setReg o v) := by
  refine ⟨h.1, fun form => ?_⟩
  obtain ⟨formed, regs⟩ := h.2 form
  refine ⟨State.inv_setReg formed o v, fun x out => (State.reg_setReg_ne formed v ?_).trans (regs x out)⟩
  rintro rfl
  exact out noted

theorem Noted.setFld (h : Noted s t) {o : Nat} (f : Fld) (x : Nat) (noted : NotedReg o) : Noted s (t.setFld o f x) := h.setReg _ noted

theorem Noted.bump (h : Noted s t) {o : Nat} (n : Nat) (noted : NotedReg o) : Noted s (t.bump o n) := h.setReg _ noted

theorem Noted.ite {c : Prop} [Decidable c] {a b : State} (ha : Noted s a) (hb : Noted s b) : Noted s (if c then a else b) := by
  split
  · exact ha
  · exact hb

theorem Noted.hcp (h : Noted s t) (x : Hcp) : Noted s { t with hcp := x } := h
theorem Noted.pod (h : Noted s t) (x : Pod) : Noted s { t with pod := x } := h
theorem Noted.errs (h : Noted s t) (x : Errs) : Noted s { t with errs := x } := h
theorem Noted.setQueue (h : Noted s t) (q : Nat) (x : Queue) : Noted s (t.setQueue q x) := h
theorem Noted.vector (h : Noted s t) (v : Nat) : Noted s (t.vector v) := h

theorem Noted.store (h : Noted s t) (a : Nat) (bs : List Byte) : Noted s (t.store a bs) := by
  obtain ⟨rest, regs⟩ := (Stored.refl t).store a bs
  have same := congrArg (fun v : State =>
    { v with regs := s.regs, mem := s.mem, hcp := s.hcp, pod := s.pod, mirror := s.mirror, bsn := { v.bsn with capture := s.bsn.capture }, errs := s.errs }) rest
  refine ⟨Eq.trans (b := { t with regs := s.regs, mem := s.mem, hcp := s.hcp, pod := s.pod, mirror := s.mirror, bsn := { t.bsn with capture := s.bsn.capture }, errs := s.errs }) ?_ h.1, fun form => ?_⟩
  · exact same
  · obtain ⟨formed, kept⟩ := h.2 form
    exact ⟨(regs formed).1, fun o out => ((regs formed).2 o (fun chunk => out (.inl chunk))).trans (kept o out)⟩

theorem Noted.sendLD (h : Noted s t) (p : LPkt) (bs : List Byte) (half : Nat) : Noted s (t.sendLD p bs half) := by
  obtain ⟨q, e⟩ := sendW_eq t { pkt := p, data := bs, half := half }
  rw [State.sendLD, e]
  exact h.pod q

theorem notedReg_cqStatus {q : Nat} (lt : q < 64) : NotedReg (R.HCP_Q_STATUS q) := by
  refine .inr (.inl ?_)
  simp only [R.HCP_Q_STATUS]
  omega

theorem notedReg_errClass {k : Nat} (le : k ≤ 4) : NotedReg (R.ERR_CLASS k) := by
  refine .inr (.inr ?_)
  simp only [R.ERR_CLASS]
  omega

theorem Noted.signalQueue (h : Noted s t) (q : Nat) : Noted s (t.signalQueue q) := by
  unfold State.signalQueue
  exact ((h.setQueue q _).vector _).ite (h.setQueue q _)

theorem Noted.cqWrite (h : Noted s t) {q : Nat} (lt : q < 64) (e : CqEntry) : Noted s (t.cqWrite q e) := by
  unfold State.cqWrite
  refine (Noted.signalQueue ?_ q).ite ?_
  all_goals exact ((((h.hcp _).store _ _).ite (h.hcp _)).setFld _ _ (notedReg_cqStatus lt)).setQueue q _

theorem Noted.cqPost (h : Noted s t) {q : Nat} (lt : q < 64) (e : CqEntry) : Noted s (t.cqPost q e) := by
  have lost : NotedReg (if e.disp = .event then R.HCP_EVT_LOST else R.HCP_CQ_DROP) := by split <;> decide
  unfold State.cqPost
  exact (h.bump _ lost).ite ((h.cqWrite lt e).ite ((h.setQueue q _).ite (((h.bump _ (by decide)).setQueue q _).ite (h.setQueue q _))))

theorem Noted.postModule (h : Noted s t) (e : CqEntry) : Noted s (t.postModule e) := by
  unfold State.postModule
  exact ((h.bump _ (by decide)).ite (h.cqPost (fget_lt _ F.HCP_CTL_EVT_CQ) e)).ite (h.sendLD ..)

theorem Noted.putRecord (h : Noted s t) {cls : Nat} (le : cls ≤ 4) (cause skind sindex rung d0 d1 dseq flags stopId : Nat) :
    Noted s (t.putRecord cause cls skind sindex rung d0 d1 dseq flags stopId) := by
  have counted (x : Errs) (n : Word) := ((h.errs x).setReg (o := R.ERR_NEWEST) n (by decide)).bump 1 (notedReg_errClass le)
  have unread (x : Errs) (n : Word) (v : Nat) := (counted x n).setFld (o := R.ERR_STATUS) F.ERR_STATUS_UNREAD v (by decide)
  unfold State.putRecord
  refine (Noted.vector ?_ 66).ite ?_
  all_goals
    refine ((Noted.hcp ?_ _).postModule _).ite ?_
    all_goals exact ((unread _ _ _).setFld _ _ (by decide)).ite (unread _ _ _)

/-- A record of class 0. -/
theorem Noted.note (h : Noted s t) (cause skind sindex d0 d1 dseq : Nat) : Noted s (t.note cause 0 skind sindex d0 d1 dseq) := h.putRecord (by decide) ..

end Noted

/-! ## Blocks of NAND -/

section Blocks

variable (s : State)

theorem block_setBlock_same (k : Nat) (b : NandBlock) : (s.setBlock k b).block k = b := by
  simp only [State.block, State.setBlock, tfind_tinsert_same, Option.getD_some]

theorem block_setBlock_ne {k j : Nat} (b : NandBlock) (other : j ≠ k) : (s.setBlock k b).block j = s.block j := by
  simp only [State.block, State.setBlock, tfind_tinsert_ne _ _ other]

theorem block_of_blocks {s t : State} (same : t.bsn.blocks = s.bsn.blocks) (k : Nat) : t.block k = s.block k := by rw [State.block, same, State.block]

theorem block_setReg (o : Nat) (v : Word) (k : Nat) : (s.setReg o v).block k = s.block k := block_of_blocks (congrArg Basin.blocks (State.setReg_bsn ..)) k

theorem reg_setBlock (k : Nat) (b : NandBlock) (o : Nat) : (s.setBlock k b).reg o = s.reg o := rfl

end Blocks

/-! ## The basin's registers shown -/

/-- The registers that show the basin. -/
def shownRegs : List Nat := [R.BSN_CAP, R.BSN_WEAR, R.BSN_BLOCKS, R.BSN_STATUS]

/-- `t` has the blocks, the time and the other registers of `s`. -/
def Shown (s t : State) : Prop := t.bsn.blocks = s.bsn.blocks ∧ t.now = s.now ∧ (InForm s → InForm t ∧ ∀ o, o ∉ shownRegs → ¬NotedReg o → t.reg o = s.reg o)

theorem Shown.refl (s : State) : Shown s s := ⟨rfl, rfl, fun form => ⟨form, fun _ _ _ => rfl⟩⟩

section Shown

variable {s t u : State}

theorem Shown.block (h : Shown s t) (k : Nat) : t.block k = s.block k := block_of_blocks h.1 k

theorem Shown.inForm (h : Shown s t) (form : InForm s) : InForm t := (h.2.2 form).1

theorem Shown.reg (h : Shown s t) (form : InForm s) {o : Nat} (other : o ∉ shownRegs) (apart : ¬NotedReg o) : t.reg o = s.reg o := (h.2.2 form).2 o other apart

theorem Shown.setReg (h : Shown s t) {o : Nat} (v : Word) (shown : o ∈ shownRegs) : Shown s (t.setReg o v) := by
  obtain ⟨blocks, now, rest⟩ := h
  refine ⟨(congrArg Basin.blocks (State.setReg_bsn ..)).trans blocks, now, fun form => ?_⟩
  obtain ⟨formed, regs⟩ := rest form
  refine ⟨State.inv_setReg formed o v, fun x out apart => (State.reg_setReg_ne formed v ?_).trans (regs x out apart)⟩
  rintro rfl
  exact out shown

theorem Shown.setFld (h : Shown s t) {o : Nat} (f : Fld) (x : Nat) (shown : o ∈ shownRegs) : Shown s (t.setFld o f x) := h.setReg _ shown

theorem Shown.setFlds (h : Shown s t) {o : Nat} (l : List (Fld × Nat)) (shown : o ∈ shownRegs) : Shown s (t.setFlds o l) := h.setReg _ shown

theorem Shown.ite {c : Prop} [Decidable c] {a b : State} (ha : Shown s a) (hb : Shown s b) : Shown s (if c then a else b) := by
  split
  · exact ha
  · exact hb

theorem Shown.wearNote (h : Shown s t) (n : Nat) : Shown s { t with bsn := { t.bsn with wearNote := n } } := h

theorem Shown.noted (h : Shown s t) (k : Noted t u) : Shown s u := by
  obtain ⟨blocks, now, rest⟩ := h
  refine ⟨k.blocks.trans blocks, k.now.trans now, fun form => ?_⟩
  obtain ⟨formed, regs⟩ := rest form
  exact ⟨k.inForm formed, fun o out apart => (k.reg formed apart).trans (regs o out apart)⟩

/-- The basin shown anew keeps its blocks and every register but those that show it and those of a record. -/
theorem Shown.showBasin (h : Shown s t) : Shown s t.showBasin := by
  have written (l m : List (Fld × Nat)) := ((h.setFld F.BSN_CAP_FREE (ckptArea - t.usedUnits) (o := R.BSN_CAP) (by decide)).setFlds (o := R.BSN_WEAR) l (by decide)).setFlds (o := R.BSN_BLOCKS) m (by decide)
  have worn (l m : List (Fld × Nat)) := (written l m).setFld (o := R.BSN_STATUS) F.BSN_STATUS_STATE 2 (by decide)
  unfold State.showBasin
  exact Shown.ite ((Shown.wearNote (Shown.ite (worn _ _) (written _ _)) _).noted ((Noted.refl _).note ..)) (Shown.ite (worn _ _) (written _ _))

end Shown

/-! ## A block's data moves (R541) -/

section Moves

variable {s : State} (form : InForm s) {k d : Nat} (apart : k ≠ d)

/-- The blocks after a move, nothing counted yet. -/
def State.blocksMoved (s : State) (k d : Nat) : State :=
  (s.setBlock d { s.block d with progAt := s.now, reads := 0, data := true }).setBlock k { s.block k with data := false, reads := 0, cycles := (s.block k).cycles + 1 }

theorem moveBlock_eq (s : State) (k d : Nat) : s.moveBlock k d = ((s.blocksMoved k d).bump R.BSN_NAND_WR_BYTES 20480000).showBasin := rfl

theorem moveBlock_shown (s : State) (k d : Nat) : Shown ((s.blocksMoved k d).bump R.BSN_NAND_WR_BYTES 20480000) (s.moveBlock k d) := (Shown.refl _).showBasin

theorem block_moveBlock (s : State) (k d j : Nat) : (s.moveBlock k d).block j = (s.blocksMoved k d).block j := ((moveBlock_shown s k d).block j).trans (block_setReg ..)

theorem block_moveBlock_from (s : State) (k d : Nat) : (s.moveBlock k d).block k = { s.block k with data := false, reads := 0, cycles := (s.block k).cycles + 1 } :=
  (block_moveBlock s k d k).trans (block_setBlock_same ..)

include apart in
theorem block_moveBlock_into (s : State) : (s.moveBlock k d).block d = { s.block d with progAt := s.now, reads := 0, data := true } :=
  (block_moveBlock s k d d).trans ((block_setBlock_ne _ _ (Ne.symm apart)).trans (block_setBlock_same ..))

theorem now_moveBlock (s : State) (k d : Nat) : (s.moveBlock k d).now = s.now := (moveBlock_shown s k d).2.1.trans (State.setReg_now ..)

include form in
theorem inForm_moveBlock (k d : Nat) : InForm (s.moveBlock k d) := (moveBlock_shown s k d).inForm (State.inv_bump (s := s.blocksMoved k d) form _ _)

include form in
theorem reg_moveBlock {o : Nat} (other : o ∉ shownRegs) (unnoted : ¬NotedReg o) (uncounted : o ≠ R.BSN_NAND_WR_BYTES) : (s.moveBlock k d).reg o = s.reg o := by
  have counted : InForm ((s.blocksMoved k d).bump R.BSN_NAND_WR_BYTES 20480000) := State.inv_bump (s := s.blocksMoved k d) form _ _
  rw [(moveBlock_shown s k d).reg counted other unnoted]
  exact State.reg_setReg_ne (s := s.blocksMoved k d) form _ uncounted

theorem relocate_moves (ctr : Nat) (data : (s.block k).data = true) (free : s.freeBlock d = true) (die : k / 6250 = d / 6250) : s.relocate k d ctr = (s.moveBlock k d).bump ctr := by
  simp only [State.relocate, data, free, die, beq_self_eq_true, Bool.and_self, if_true]

theorem block_bump (s : State) (o n j : Nat) : (s.bump o n).block j = s.block j := block_setReg ..

theorem now_bump (s : State) (o n : Nat) : (s.bump o n).now = s.now := State.setReg_now ..

/-- What a move has done, from the state `v` in which it began to the state `u` after it. -/
def Moved (v u : State) (k d : Nat) : Prop :=
  (u.block d).data = true ∧ (u.block d).progAt = v.now ∧ (u.block d).reads = 0 ∧ (u.block k).data = false ∧ (u.block k).reads = 0 ∧ (u.block k).cycles = (v.block k).cycles + 1

include apart in
theorem moved_moveBlock (s : State) (ctr : Nat) : Moved s ((s.moveBlock k d).bump ctr) k d := by
  simp only [Moved, block_bump, block_moveBlock_into apart, block_moveBlock_from, and_self]

include form in
theorem counted_moveBlock {ctr : Nat} (other : ctr ∉ shownRegs) (unnoted : ¬NotedReg ctr) (uncounted : ctr ≠ R.BSN_NAND_WR_BYTES) : ((s.moveBlock k d).bump ctr).reg ctr = s.reg ctr + 1 := by
  rw [State.bump, State.reg_setReg_same (inForm_moveBlock form k d), reg_moveBlock form other unnoted uncounted]
  rfl

end Moves

/-! ## Patrol, refresh and disturb (R541) -/

section Relocations

variable {s : State} (form : InForm s) {k d : Nat} (apart : k ≠ d) (data : (s.block k).data = true) (free : s.freeBlock d = true) (die : k / 6250 = d / 6250)

/-- One read of a block counted. -/
def State.readCounted (s : State) (k : Nat) : State := s.setBlock k { s.block k with reads := (s.block k).reads + 1 }

theorem block_patrolRead (s : State) (k j : Nat) : (s.patrolRead k).block j = s.block j := by
  unfold State.patrolRead
  dsimp only
  split <;> rfl

theorem regs_patrolRead (s : State) (k : Nat) : (s.patrolRead k).regs = s.regs ∧ (s.patrolRead k).mem = s.mem ∧ (s.patrolRead k).now = s.now ∧ (s.patrolRead k).bsn.factory = s.bsn.factory := by
  unfold State.patrolRead
  dsimp only
  split <;> exact ⟨rfl, rfl, rfl, rfl⟩

theorem freeBlock_of_block {s t : State} {d : Nat} (block : t.block d = s.block d) (factory : t.bsn.factory = s.bsn.factory) : t.freeBlock d = s.freeBlock d := by
  simp only [State.freeBlock, block, factory]

/-- A block read in the patrol pass. -/
def State.patrolled (s : State) (k : Nat) : State := (s.readCounted k).patrolRead k

theorem exec_patrolRead (weak : Option Nat) (data : (s.block k).data = true) :
    exec (.patrolRead k weak) s = .next (match weak with | some d => (s.patrolled k).relocate k d R.BSN_REFRESH | none => s.patrolled k) := by
  exact if_neg (ne_false_of_eq_true data)

theorem block_patrolled_same (s : State) (k : Nat) : (s.patrolled k).block k = { s.block k with reads := (s.block k).reads + 1 } := (block_patrolRead ..).trans (block_setBlock_same ..)

include form apart data free die

theorem patrolRead_relocates : ∃ u : State, exec (.patrolRead k (some d)) s = .next u ∧ Moved s u k d ∧ u.reg R.BSN_REFRESH = s.reg R.BSN_REFRESH + 1 := by
  obtain ⟨regs, mem, now, factory⟩ := regs_patrolRead (s.readCounted k) k
  have other : (s.patrolled k).block d = s.block d := (block_patrolRead ..).trans (block_setBlock_ne _ _ (Ne.symm apart))
  have formed : InForm (s.patrolled k) := ⟨regs.symm ▸ form.1, mem.symm ▸ form.2⟩
  have moves := relocate_moves R.BSN_REFRESH (s := s.patrolled k) (k := k) (d := d) (by rw [block_patrolled_same, data]) ((freeBlock_of_block other factory).trans free) die
  refine ⟨_, (exec_patrolRead (some d) data).trans (congrArg Host.Outcome.next moves), ?_, ?_⟩
  · have moved := moved_moveBlock apart (s.patrolled k) R.BSN_REFRESH
    simp only [Moved, block_patrolled_same] at moved
    rwa [State.patrolled, now] at moved
  · rw [counted_moveBlock formed (by decide) (by decide) (by decide)]
    exact congrArg (· + 1) (reg_eq_of_regs regs _)

theorem retentionRefresh_relocates :
    ∃ u : State, exec (.retentionRefresh k d) s = .next u ∧ (u.block d).data = true ∧ (u.block d).progAt = u.now ∧ (u.block k).data = false ∧ (u.block k).cycles = (s.block k).cycles + 1 ∧
      (s.block k).progAt + max 1 (s.fld R.BSN_PATROL_CTL F.BSN_PATROL_CTL_REFRESH_DAYS) * 86400000000000 ≤ u.now ∧ u.reg R.BSN_REFRESH = s.reg R.BSN_REFRESH + 1 := by
  let v : State := { s with now := max s.now ((s.block k).progAt + max 1 (s.fld R.BSN_PATROL_CTL F.BSN_PATROL_CTL_REFRESH_DAYS) * 86400000000000) }
  have called : ((s.block k).data && s.freeBlock d && k / 6250 == d / 6250) = true := by simp only [data, free, die, beq_self_eq_true, Bool.and_self]
  have moves : v.relocate k d R.BSN_REFRESH = (v.moveBlock k d).bump R.BSN_REFRESH := relocate_moves R.BSN_REFRESH data free die
  obtain ⟨into, at_, -, from_, -, cycles⟩ := moved_moveBlock apart v R.BSN_REFRESH
  have now : ((v.moveBlock k d).bump R.BSN_REFRESH).now = v.now := (now_bump ..).trans (now_moveBlock ..)
  refine ⟨(v.moveBlock k d).bump R.BSN_REFRESH, (if_pos called).trans (congrArg Host.Outcome.next moves), into, at_.trans now.symm, from_, cycles, ?_, counted_moveBlock (s := v) form (by decide) (by decide) (by decide)⟩
  rw [now]
  exact Nat.le_max_right ..

theorem readDisturbRelocate_relocates (worn : max 1 (s.fld R.BSN_PATROL_CTL F.BSN_PATROL_CTL_DISTURB_K) * 1000 ≤ (s.block k).reads) :
    ∃ u : State, exec (.readDisturbRelocate k d) s = .next u ∧ Moved s u k d ∧ u.reg R.BSN_DISTURB = s.reg R.BSN_DISTURB + 1 :=
  ⟨_, (if_pos worn).trans (congrArg Host.Outcome.next (relocate_moves R.BSN_DISTURB data free die)), moved_moveBlock apart s R.BSN_DISTURB, counted_moveBlock form (by decide) (by decide) (by decide)⟩

end Relocations

/-! ## The end of a patrol pass -/

section Pass

variable {s : State} {k : Nat}

theorem mem_of_mem_tinsert {α : Type} {t : Table α} {k : Nat} {v : α} {p : Nat × α} (listed : p ∈ tinsert t k v) : p = (k, v) ∨ p ∈ t := by
  induction t with
  | nil => exact .inl (List.mem_singleton.mp listed)
  | cons e r ih =>
    simp only [tinsert] at listed
    split at listed
    · exact (List.mem_cons.mp listed).imp_right (List.mem_cons_of_mem _)
    · split at listed
      · exact List.mem_cons.mp listed
      · rcases List.mem_cons.mp listed with rfl | later
        · exact .inr (List.mem_cons_self ..)
        · exact (ih later).imp_right (List.mem_cons_of_mem _)

theorem mem_tinsert_of_ne {α : Type} {t : Table α} {k : Nat} {v : α} {p : Nat × α} (listed : p ∈ t) (other : p.1 ≠ k) : p ∈ tinsert t k v := by
  induction t with
  | nil => exact absurd listed List.not_mem_nil
  | cons e r ih =>
    simp only [tinsert]
    split
    next same =>
      rcases List.mem_cons.mp listed with rfl | later
      · exact absurd same other
      · exact List.mem_cons_of_mem _ later
    next =>
      split
      · exact List.mem_cons_of_mem _ listed
      · rcases List.mem_cons.mp listed with rfl | later
        · exact List.mem_cons_self ..
        · exact List.mem_cons_of_mem _ (ih later)

/-- The blocks read once `k` has been. -/
def State.passDone (s : State) (k : Nat) : List Nat := k :: s.bsn.patrolled.filter (· ≠ k)

theorem mem_passDone (s : State) (k j : Nat) : j ∈ s.passDone k ↔ j = k ∨ j ∈ s.bsn.patrolled := by
  simp only [State.passDone, List.mem_cons, List.mem_filter, decide_eq_true_eq]
  exact or_and_not_iff _ _

/-- Every programmed block has been read. -/
def State.passEnds (s : State) (k : Nat) : Bool := (tinsert s.bsn.blocks k { s.block k with reads := (s.block k).reads + 1 }).all (fun (p : Nat × NandBlock) => !p.2.data || (s.passDone k).contains p.1)

theorem patrolled_eq (s : State) (k : Nat) : s.patrolled k = if s.passEnds k then { s.readCounted k with bsn := { (s.readCounted k).bsn with patrolled := [], patrolEnd := s.now } }
    else { s.readCounted k with bsn := { (s.readCounted k).bsn with patrolled := s.passDone k } } := rfl

theorem passEnds_of_all (all : ∀ p ∈ s.bsn.blocks, p.2.data = true → p.1 = k ∨ p.1 ∈ s.bsn.patrolled) : s.passEnds k = true := by
  refine List.all_eq_true.mpr fun p listed => ?_
  rw [Bool.or_eq_true, Bool.not_eq_true', List.contains_iff_mem, mem_passDone]
  rcases mem_of_mem_tinsert listed with rfl | old
  · exact .inr (.inl rfl)
  · by_cases data : p.2.data = true
    · exact .inr (all p old data)
    · exact .inl (eq_false_of_ne_true data)

theorem not_passEnds_of_unread {p : Nat × NandBlock} (listed : p ∈ s.bsn.blocks) (data : p.2.data = true) (other : p.1 ≠ k) (unread : p.1 ∉ s.bsn.patrolled) : s.passEnds k = false := by
  refine List.all_eq_false.mpr ⟨p, mem_tinsert_of_ne listed other, ?_⟩
  rw [Bool.or_eq_true, Bool.not_eq_true', List.contains_iff_mem, mem_passDone, data]
  exact not_or.mpr ⟨Bool.noConfusion, not_or.mpr ⟨other, unread⟩⟩

theorem patrolRead_reads (data : (s.block k).data = true) :
    ∃ u : State, exec (.patrolRead k none) s = .next u ∧ (u.block k).reads = (s.block k).reads + 1 ∧ (u.block k).data = true ∧ u.regs = s.regs ∧
      ((∀ p ∈ s.bsn.blocks, p.2.data = true → p.1 = k ∨ p.1 ∈ s.bsn.patrolled) → u.bsn.patrolEnd = s.now ∧ u.bsn.patrolled = []) ∧
      ((∃ p ∈ s.bsn.blocks, p.2.data = true ∧ p.1 ≠ k ∧ p.1 ∉ s.bsn.patrolled) → u.bsn.patrolEnd = s.bsn.patrolEnd ∧ k ∈ u.bsn.patrolled) := by
  refine ⟨s.patrolled k, exec_patrolRead none data, ?_, ?_, (regs_patrolRead (s.readCounted k) k).1, fun all => ?_, ?_⟩
  · rw [block_patrolled_same]
  · rw [block_patrolled_same, data]
  · rw [patrolled_eq, if_pos (passEnds_of_all all)]
    exact ⟨rfl, rfl⟩
  · rintro ⟨p, listed, data, other, unread⟩
    rw [patrolled_eq, if_neg (ne_true_of_eq_false (not_passEnds_of_unread listed data other unread))]
    exact ⟨rfl, List.mem_cons_self ..⟩

end Pass

/-! ## Levelling (R541) -/

section Levelling

variable {s : State} {n d : Nat}

/-- The blocks of a flight that hold data, each with the one its data would move to. -/
def State.flightHeld (s : State) (n d : Nat) : List (Nat × Nat) := ((List.range 40).map (fun i => (i * 6250 + n, i * 6250 + d))).filter (fun p => (s.block p.1).data)

/-- The most cycles of any block. -/
def State.mostCycles (s : State) : Nat := s.bsn.blocks.foldl (fun m (p : Nat × NandBlock) => max m p.2.cycles) 0

/-- No block with data has fewer cycles than the fewest of these. -/
def State.flightLow (s : State) (has : List (Nat × Nat)) : Bool := s.bsn.blocks.all (fun (p : Nat × NandBlock) => !p.2.data || has.any (fun q => Nat.ble (s.block q.1).cycles p.2.cycles))

/-- One of these lags by more than 200 cycles. -/
def State.flightLags (s : State) (has : List (Nat × Nat)) : Bool := has.any (fun q => Nat.blt ((s.block q.1).cycles + 200) s.mostCycles)

theorem exec_staticLevelling (s : State) (n d : Nat) : exec (.staticLevelling n d) s =
    if s.flightHeld n d != [] && s.flightLow (s.flightHeld n d) && s.flightLags (s.flightHeld n d) && (s.flightHeld n d).all (fun q => s.freeBlock q.2) && Nat.blt n 6250 && Nat.blt d 6250 then
      .next (((s.flightHeld n d).foldl (fun s q => s.moveBlock q.1 q.2) s).bump R.BSN_WL_MOVES) else .next s := rfl

/-- A flight with data in its first block alone. -/
theorem flightHeld_first (data : (s.block n).data = true) (others : ∀ i, (s.block ((i + 1) * 6250 + n)).data = false) : s.flightHeld n d = [(n, d)] := by
  have rest : (((List.range 39).map Nat.succ).map (fun i => (i * 6250 + n, i * 6250 + d))).filter (fun p => (s.block p.1).data) = [] := by
    refine List.filter_eq_nil_iff.mpr fun p listed => ?_
    obtain ⟨i, listed', rfl⟩ := List.mem_map.mp listed
    obtain ⟨j, -, rfl⟩ := List.mem_map.mp listed'
    exact ne_true_of_eq_false (others j)
  unfold State.flightHeld
  rw [List.range_succ_eq_map, List.map_cons, List.filter_cons, Nat.zero_mul, Nat.zero_add, Nat.zero_add, data, rest]
  rfl

theorem block_of_one {b : NandBlock} (blocks : s.bsn.blocks = [(n, b)]) : s.block n = b ∧ ∀ i, s.block ((i + 1) * 6250 + n) = emptyBlock := by
  refine ⟨by simp [State.block, blocks, tfind], fun i => ?_⟩
  simp [State.block, blocks, tfind]

theorem block_of_two {b z : NandBlock} {x : Nat} (blocks : s.bsn.blocks = [(n, b), (x, z)]) (first : x < 6250) : s.block n = b ∧ ∀ i, s.block ((i + 1) * 6250 + n) = emptyBlock := by
  refine ⟨by simp [State.block, blocks, tfind], fun i => ?_⟩
  have apart : x ≠ (i + 1) * 6250 + n := by omega
  simp [State.block, blocks, tfind, apart]

/-- A flight that no block exceeds stays where it is. -/
theorem staticLevelling_stays {b : NandBlock} (blocks : s.bsn.blocks = [(n, b)]) (data : b.data = true) : exec (.staticLevelling n d) s = .next s := by
  obtain ⟨own, others⟩ := block_of_one blocks
  have held : s.flightHeld n d = [(n, d)] := flightHeld_first (by rw [own, data]) (fun i => by rw [others i]; rfl)
  have level : s.flightLags [(n, d)] = false := by
    simp only [State.flightLags, State.mostCycles, blocks, own, List.any_cons, List.any_nil, List.foldl_cons, List.foldl_nil, Bool.or_false]
    rw [Bool.eq_false_iff, ne_eq, Nat.blt_eq]
    omega
  rw [exec_staticLevelling, held, level, Bool.and_false, Bool.false_and, Bool.false_and, Bool.false_and]
  rfl

theorem staticLevelling_moves (form : InForm s) {b z : NandBlock} {x : Nat} (low : n < 6250) (into : d < 6250) (apart : n ≠ d) (first : x < 6250) (blocks : s.bsn.blocks = [(n, b), (x, z)]) (data : b.data = true)
    (lags : b.cycles + 200 < z.cycles) (free : s.freeBlock d = true) :
    ∃ u : State, exec (.staticLevelling n d) s = .next u ∧ Moved s u n d ∧ u.reg R.BSN_WL_MOVES = s.reg R.BSN_WL_MOVES + 1 := by
  obtain ⟨own, others⟩ := block_of_two blocks first
  have held : s.flightHeld n d = [(n, d)] := flightHeld_first (by rw [own, data]) (fun i => by rw [others i]; rfl)
  have lowest : s.flightLow [(n, d)] = true := by
    have other : (!z.data || Nat.ble b.cycles z.cycles) = true := by
      rw [Bool.or_eq_true, Nat.ble_eq]
      exact .inr (by omega)
    have self : Nat.ble b.cycles b.cycles = true := Nat.ble_eq.mpr (Nat.le_refl _)
    simp only [State.flightLow, blocks, own, List.all_cons, List.all_nil, List.any_cons, List.any_nil, Bool.or_false, other, self, Bool.or_true, Bool.and_self]
  have lagging : s.flightLags [(n, d)] = true := by
    simp only [State.flightLags, State.mostCycles, blocks, own, List.any_cons, List.any_nil, List.foldl_cons, List.foldl_nil, Bool.or_false]
    rw [Nat.blt_eq]
    omega
  have row : exec (.staticLevelling n d) s = .next ((s.moveBlock n d).bump R.BSN_WL_MOVES) := by
    rw [exec_staticLevelling, held, lowest, lagging, Nat.blt_eq.mpr low, Nat.blt_eq.mpr into, List.all_cons, List.all_nil, free]
    rfl
  exact ⟨_, row, moved_moveBlock apart s R.BSN_WL_MOVES, counted_moveBlock form (by decide) (by decide) (by decide)⟩

end Levelling

/-! ## A codeword lost, a block retired (R531, R542) -/

section Losses

variable {s : State} {k : Nat}

/-- The basin's error register takes a record or its MORE bit; the rest is a record's. -/
theorem noted_bsnErr (s : State) (reason source die blk : Nat) : ∃ w, Noted (s.setReg R.BSN_ERR w) (s.bsnErr reason source die blk) := by
  unfold State.bsnErr State.record
  dsimp only
  split
  · exact ⟨_, (Noted.refl _).note ..⟩
  · exact ⟨_, (Noted.refl _).note ..⟩

/-- What every lost codeword leaves. -/
def State.codewordLost (s : State) (k source : Nat) : State :=
  (((s.readCounted k).bump R.BSN_READ_RETRY 7).bump R.BSN_UNCORR).bsnErr 1 source (k / 6250) (k % 6250)

theorem codewordLost_counts (form : InForm s) (source : Nat) : let u := s.codewordLost k source
    InForm u ∧ u.reg R.BSN_UNCORR = s.reg R.BSN_UNCORR + 1 ∧ (u.block k).reads = (s.block k).reads + 1 ∧ u.bsn.ckpts = s.bsn.ckpts ∧ u.bsn.restore = s.bsn.restore := by
  have retried : InForm ((s.readCounted k).bump R.BSN_READ_RETRY 7) := State.inv_bump (s := s.readCounted k) form _ _
  have counted : InForm (((s.readCounted k).bump R.BSN_READ_RETRY 7).bump R.BSN_UNCORR) := State.inv_bump retried _ _
  obtain ⟨w, noted⟩ := noted_bsnErr (((s.readCounted k).bump R.BSN_READ_RETRY 7).bump R.BSN_UNCORR) 1 source (k / 6250) (k % 6250)
  have formed := State.inv_setReg counted R.BSN_ERR w
  refine ⟨noted.inForm formed, ?_, ?_, ?_, ?_⟩
  · rw [State.codewordLost, noted.reg formed (by decide), State.reg_setReg_ne counted _ (by decide), State.bump, State.reg_setReg_same retried, State.bump,
      State.reg_setReg_ne (s := s.readCounted k) form _ (by decide)]
    rfl
  · rw [State.codewordLost, block_of_blocks noted.blocks, block_setReg, block_bump, block_bump, State.readCounted, block_setBlock_same]
  · rw [State.codewordLost, noted.ckpts, State.setReg_bsn, State.bump, State.setReg_bsn, State.bump, State.setReg_bsn]
    rfl
  · rw [State.codewordLost, noted.restore, State.setReg_bsn, State.bump, State.setReg_bsn, State.bump, State.setReg_bsn]
    rfl

/-- Who lost a codeword, as its record says it. -/
def lossSource : BsnReader → Nat
  | .restore => 0
  | .journal _ => 1
  | .relocation _ => 2
  | .health _ => 3
  | .superblock => 3

/-- What a loss means to its reader. -/
def State.lossFor (s : State) (who : BsnReader) : State :=
  match who with
  | .restore => (match s.bsn.restore with
    | some (id, _, _) => ({ s with bsn := { s.bsn with restore := none } } : State).finishCmd id .basinReadFailed []
    | none => s)
  | .journal full => if full then s else s.setFld R.JNL_STATUS F.JNL_STATUS_LOST 1
  | .health both => if both then ({ s with bsn := { s.bsn with retireCopy := [] } } : State).setFld R.BSN_STATUS F.BSN_STATUS_HEALTH_LOST 1 else s
  | .superblock => (s.setFld R.BSN_STATUS F.BSN_STATUS_KEY_OK 0).setFld R.BSN_STATUS F.BSN_STATUS_STATE 3
  | .relocation e => { s with bsn := { s.bsn with ckpts := s.bsn.ckpts.map (fun c => if c.epoch = e then { c with state := 1 } else c) } }

theorem exec_basinCodewordRead_lost (who : BsnReader) (lt : k < 250000) : exec (.basinCodewordRead k who .lost) s = .next ((s.codewordLost k (lossSource who)).lossFor who) := by
  refine (if_neg (Nat.not_le.mpr lt)).trans ?_
  cases who <;> rfl

/-- A block retired, before the basin is shown. -/
def State.blockRetired (s : State) (k d : Nat) : State :=
  let v := if (s.block k).data ∧ s.freeBlock d then s.setBlock d { s.block d with progAt := s.now, reads := 0, data := true } else s
  v.setBlock k { s.block k with bad := true, data := false }

theorem retireBlock_eq {d reason source : Nat} (lt : k < 250000) (good : (s.block k).bad = false) (made : s.bsn.factory.contains k = false) :
    s.retireBlock k d reason source = (s.blockRetired k d).showBasin.bsnErr reason source (k / 6250) (k % 6250) := by
  have live : (Nat.blt k 250000 && !(s.block k).bad && !s.bsn.factory.contains k) = true := by
    rw [Nat.blt_eq.mpr lt, good, made]
    rfl
  exact if_neg (ne_false_of_eq_true live)

theorem block_shown_bsnErr (v : State) (reason source die blk j : Nat) : (v.showBasin.bsnErr reason source die blk).block j = v.block j := by
  obtain ⟨w, noted⟩ := noted_bsnErr v.showBasin reason source die blk
  rw [block_of_blocks noted.blocks, block_setReg, (Shown.refl v).showBasin.block]

theorem block_blockRetired (s : State) (k d : Nat) : (s.blockRetired k d).block k = { s.block k with bad := true, data := false } := block_setBlock_same ..

theorem block_blockRetired_into {d : Nat} (apart : k ≠ d) (data : (s.block k).data = true) (free : s.freeBlock d = true) :
    (s.blockRetired k d).block d = { s.block d with progAt := s.now, reads := 0, data := true } := by
  rw [State.blockRetired, block_setBlock_ne _ _ (Ne.symm apart), if_pos ⟨data, free⟩, block_setBlock_same]

theorem nandProgramFailure_retires {d : Nat} (j : Bool) (lt : k < 250000) (apart : k ≠ d) (good : (s.block k).bad = false) (made : s.bsn.factory.contains k = false) (data : (s.block k).data = true)
    (free : s.freeBlock d = true) :
    ∃ u : State, exec (.nandProgramFailure k d j) s = .next u ∧ (u.block k).bad = true ∧ (u.block k).data = false ∧ (u.block d).data = true ∧ (u.block d).progAt = s.now := by
  refine ⟨_, congrArg Host.Outcome.next (retireBlock_eq lt good made), ?_⟩
  simp only [block_shown_bsnErr, block_blockRetired, block_blockRetired_into apart data free, and_self]

theorem nandEraseFailure_retires (lt : k < 250000) (good : (s.block k).bad = false) (made : s.bsn.factory.contains k = false) :
    ∃ u : State, exec (.nandEraseFailure k) s = .next u ∧ (u.block k).bad = true ∧ (u.block k).data = false := by
  refine ⟨_, congrArg Host.Outcome.next (retireBlock_eq lt good made), ?_⟩
  simp only [block_shown_bsnErr, block_blockRetired, and_self]

end Losses

/-! ## The controller and a sanitize (R532, R560) -/

section Controller

variable {s : State}

/-- The controller in rung 2, with no capture to abandon: the state and its parts. -/
def State.basinRestarting (s : State) : State := ({ s with now := s.now + 100000000 } : State).setFld R.BSN_STATUS F.BSN_STATUS_STATE 4

theorem basinRestarting_now : s.basinRestarting.now = s.now + 100000000 := by rw [State.basinRestarting, State.setFld_now]

theorem basinRestarting_reinit : s.basinRestarting.reinit = s.reinit := by rw [State.basinRestarting, State.setFld_reinit]

theorem basinRestarting_mem : s.basinRestarting.mem = s.mem := by rw [State.basinRestarting, State.setFld_mem]

theorem bsnState_basinRestarting (form : InForm s) : s.basinRestarting.bsnState = 4 :=
  State.fld_setFld_same (s := { s with now := s.now + 100000000 }) form _ _ 4 (by decide) (by decide)

theorem pushReinit_keeps (t : State) (kind index : Nat) (cmd : Option Nat) :
    (t.pushReinit kind index cmd).bsnState = t.bsnState ∧ (t.pushReinit kind index cmd).now = t.now ∧ (t.pushReinit kind index cmd).mem = t.mem ∧
      (t.pushReinit kind index cmd).reinit.length = t.reinit.length + 1 :=
  ⟨rfl, rfl, rfl, List.length_append⟩

theorem basinControllerTimeout_enters (form : InForm s) (live : s.bsnState = 1 ∨ s.bsnState = 2) (cap : s.bsn.capture = none) :
    ∃ u : State, exec .basinControllerTimeout s = .next u ∧ u.bsnState = 4 ∧ u.now = s.now + 100000000 ∧ u.reinit.length = s.reinit.length + 1 ∧ u.mem = s.mem := by
  have kept : ({ s with now := s.now + 100000000 } : State).abandonCapture (some .ckptIncomplete) = { s with now := s.now + 100000000 } := by
    simp only [State.abandonCapture, cap]
  have entered : ({ s with now := s.now + 100000000 } : State).basinReinit none = s.basinRestarting.pushReinit 4 0 none := by
    rw [State.basinReinit, kept]
    rfl
  refine ⟨s.basinRestarting.pushReinit 4 0 none, (if_pos live).trans (congrArg Host.Outcome.next entered), ?_⟩
  obtain ⟨state, now, mem, reinit⟩ := pushReinit_keeps s.basinRestarting 4 0 none
  rw [state, now, mem, reinit, bsnState_basinRestarting form, basinRestarting_now, basinRestarting_reinit, basinRestarting_mem]
  exact ⟨rfl, rfl, rfl, rfl⟩

theorem sanitize_drops (form : InForm s) (service : s.fld R.SEC_STATE F.SEC_STATE_MANUF_SERVICE = 1) (idle : s.jobState = 0) :
    ∃ u : State, exec .sanitize s = .next u ∧ u.bsn.ckpts = [] ∧ u.bsn.keyGen = s.bsn.keyGen + 1 ∧ u.jnl.log = [] ∧ u.fld R.BSN_SANITIZE F.BSN_SANITIZE_START = 1 ∧ u.mem = s.mem ∧
      (∀ o, o ≠ R.BSN_SANITIZE → u.reg o = s.reg o) := by
  let v : State := { s with bsn := { s.bsn with ckpts := [], keyGen := s.bsn.keyGen + 1 }, jnl := { s.jnl with log := [] } }
  have dropped : InForm v := form
  refine ⟨v.setFld R.BSN_SANITIZE F.BSN_SANITIZE_START 1, congrArg Host.Outcome.next (if_pos ⟨service, idle⟩), ?_, ?_, ?_, State.fld_setFld_same dropped _ _ 1 (by decide) (by decide), ?_,
    fun o other => State.reg_setReg_ne dropped _ other⟩
  · rw [State.setFld_bsn]
  · rw [State.setFld_bsn]
  · rw [State.setFld_jnl]
  · rw [State.setFld_mem]

theorem sanitize_refused (shut : s.fld R.SEC_STATE F.SEC_STATE_MANUF_SERVICE = 0 ∨ s.jobState ≠ 0) : exec .sanitize s = .next s := by
  refine congrArg Host.Outcome.next (if_neg ?_)
  rintro ⟨service, idle⟩
  rcases shut with closed | busy
  · omega
  · exact busy idle

theorem sanitizeComplete_ends (form : InForm s) (started : s.fld R.BSN_SANITIZE F.BSN_SANITIZE_START = 1) :
    ∃ u : State, exec .sanitizeComplete s = .next u ∧ u.fld R.BSN_SANITIZE F.BSN_SANITIZE_START = 0 := by
  refine ⟨_, if_pos started, ?_⟩
  rw [State.fld, ((Shown.refl _).showBasin).reg (State.inv_setFld form _ _ _) (by decide) (by decide)]
  exact State.fld_setFld_same form _ _ 0 (by decide) (by decide)

end Controller

/-! ## The obligation -/

/-- Settles O52: each row by the rule of its operation above. -/
theorem basinMedia : Obligations.BasinMedia := by
  unfold Obligations.BasinMedia
  intro s form moved
  refine ⟨fun k w lt => ?clean, fun k lt => ?journal, fun k lt => ?superblock, fun k lt => ?health, fun k e lt => ?relocation, fun k id e n lt running => ?restore, fun k d apart data free die => ?relocate,
    fun n d b _ _ _ blocks data _ => staticLevelling_stays blocks data,
    fun n d b x z low into apart _ first _ blocks data lags _ free => staticLevelling_moves form low into apart first blocks data lags free,
    fun k d j lt apart good made data free => ⟨nandProgramFailure_retires j lt apart good made data free, nandEraseFailure_retires lt good made⟩,
    basinControllerTimeout_enters form, sanitize_drops form, sanitize_refused, sanitizeComplete_ends form⟩
  case clean => exact ⟨if_neg (Nat.not_le.mpr lt), if_neg (Nat.not_le.mpr lt), fun n => if_neg (Nat.not_le.mpr lt), if_neg (Nat.not_le.mpr lt)⟩
  case journal =>
    obtain ⟨formed, uncorr, reads, -, -⟩ := codewordLost_counts (k := k) form 1
    refine ⟨_, exec_basinCodewordRead_lost (.journal false) lt, State.fld_setFld_same formed _ _ 1 (by decide) (by decide), ?_, ?_⟩
    · exact (State.reg_setReg_ne formed _ (by decide)).trans uncorr
    · exact (congrArg NandBlock.reads (block_setReg ..)).trans reads
  case superblock =>
    obtain ⟨formed, uncorr, -, -, -⟩ := codewordLost_counts (k := k) form 3
    have keyless := State.inv_setFld formed R.BSN_STATUS F.BSN_STATUS_KEY_OK 0
    refine ⟨_, exec_basinCodewordRead_lost .superblock lt, State.fld_setFld_same keyless _ _ 3 (by decide) (by decide), ?_, ?_⟩
    · exact (State.fld_setFld_apart keyless _ 3 (by decide) (by decide) (by decide) (by decide)).trans (State.fld_setFld_same formed _ _ 0 (by decide) (by decide))
    · exact (State.reg_setReg_ne keyless _ (by decide)).trans ((State.reg_setReg_ne formed _ (by decide)).trans uncorr)
  case health =>
    obtain ⟨formed, -⟩ := codewordLost_counts (k := k) form 3
    exact ⟨_, exec_basinCodewordRead_lost (.health true) lt,
      State.fld_setFld_same (s := { s.codewordLost k 3 with bsn := { (s.codewordLost k 3).bsn with retireCopy := [] } }) formed _ _ 1 (by decide) (by decide)⟩
  case relocation =>
    obtain ⟨-, -, -, ckpts, -⟩ := codewordLost_counts (k := k) form 2
    exact ⟨_, exec_basinCodewordRead_lost (.relocation e) lt, congrArg (List.map (fun c : Ckpt => if c.epoch = e then ({ c with state := 1 } : Ckpt) else c)) ckpts⟩
  case restore =>
    obtain ⟨-, -, -, -, restore⟩ := codewordLost_counts (k := k) form 0
    refine ⟨{ s.codewordLost k 0 with bsn := { (s.codewordLost k 0).bsn with restore := none } }, (exec_basinCodewordRead_lost .restore lt).trans (congrArg Host.Outcome.next ?_), rfl⟩
    simp only [State.lossFor, lossSource, restore, running]
  case relocate =>
    exact ⟨patrolRead_relocates form apart data free die, patrolRead_reads data, retentionRefresh_relocates form apart data free die, readDisturbRelocate_relocates form apart data free die,
      fun fewer => if_neg (Nat.not_le.mpr fewer)⟩

end Sys2Proof.Machine
end

section
/-!
PROOFS of the family 21_boot_security_management: an SPDM request during a warm reset (O57).
-/
namespace Sys2Proof.Machine

open Sys2Proof

/-- The registers and memory of reset, with the rails up and the boot past its last stage. -/
def booted : State := ({ State.reset with pwr := { State.reset.pwr with at_ := .up } } : State).setFld R.SEC_BOOT_STAT F.SEC_BOOT_STAT_STAGE 9

/-- That module in a warm reset: the stage that its boot reached still stands, but Lantern does its work again (R607). -/
def rebooting : State := booted.startWarm none

theorem inForm_booted : InForm booted := State.inv_setFld (s := { State.reset with pwr := { State.reset.pwr with at_ := .up } }) resetForm.1 _ _ _

theorem inForm_rebooting : InForm rebooting := by
  obtain ⟨regs, mem, -⟩ := inv_startWarm (w0 := booted.pending) ⟨inForm_booted.1, inForm_booted.2, rfl⟩ none
  exact ⟨regs, mem⟩

theorem rebooting_past_stage : rebooting.pwr.at_ = .up ∧ 3 ≤ rebooting.stage ∧ rebooting.warm.isNone = false := by decide +kernel

theorem exec_spdmRequest_of_warm {s : State} (warm : s.warm.isNone = false) (q : SpdmReq) : exec (.spdmRequest 0 q) s = .next s := by
  refine if_pos ?_
  change (s.pwr.at_ != .dark && s.pwr.at_ != .aux && Nat.ble 3 s.stage && s.warm.isNone) = false
  rw [warm, Bool.and_false]

/-- Refutes O57: during a warm reset Lantern answers no SPDM request, though its boot had passed stage 3. -/
theorem not_securityAndManagement : ¬ Obligations.SecurityAndManagement := by
  unfold Obligations.SecurityAndManagement
  intro commands
  obtain ⟨-, -, -, -, -, request, -⟩ := commands rebooting inForm_rebooting
  obtain ⟨up, stage, warm⟩ := rebooting_past_stage
  obtain ⟨u, next, -, answered, -⟩ := request up stage
  rw [exec_spdmRequest_of_warm warm] at next
  injection next with same
  have length := congrArg List.length answered
  rw [← same, List.length_append, List.length_singleton] at length
  omega

end Sys2Proof.Machine
end
